-- ==== Sys2Proof/Word.lean ====
section
/-! DEFINITION. The plainest words of the model: bytes, byte strings, sparse tables and cells. -/

namespace Sys2Proof

/-- One byte. -/
abbrev Byte := BitVec 8

/-- A byte string, lowest address first. -/
abbrev Bytes := List Byte

/-- A 32-bit word. -/
abbrev W32 := BitVec 32

/-- A 64-bit word. -/
abbrev W64 := BitVec 64

/-- A row time: 48 bits at 100 MHz (R58). -/
abbrev RowTime := BitVec 48

/-- A sparse table in canonical form: keys strictly rising, no entry equal to the table's default. -/
abbrev Tbl (α : Type) := List (Nat × α)

/-- A byte-addressed memory in canonical form: addresses strictly rising, no entry equal to 0. -/
abbrev Mem := List Host.Cell

end Sys2Proof
end

