-- ==== Sys2Proof/Types.lean ====
section
/-! DEFINITION. The operand types of the commands: what the outside world tells the module with a command. -/

namespace Sys2Proof

/-- How a read of host memory ends (R148, R154, R791); a timeout is a command of its own. -/
inductive ReadResult where
  | data (bs : Bytes)
  | ur
  | ca
  | poison
  deriving DecidableEq, Repr

/-- How a read of host memory fails, a timeout apart. -/
inductive ReadFail where
  | ur
  | ca
  | poison
  deriving DecidableEq, Repr

/-- The read that a Completion Timeout ends: a data read by its number, a function's oldest doorbell-line read, or a slot's descriptor
read with the bytes that had arrived. -/
inductive ReadRef where
  | data (id : Nat)
  | doorbell (f : Nat)
  | descr (slot : Nat) (arrived : Bytes)
  deriving DecidableEq, Repr

/-- What a Translation Completion carries (R148): a refusal, or a translation of 2^log2 bytes with its permissions. -/
inductive XlResult where
  | refused
  | granted (log2 : Nat) (base : W64) (rd wr : Bool)
  deriving DecidableEq, Repr

/-- What a memory controller is asked for one 64-byte line (R367). -/
inductive LineOp where
  | read
  | write (data : Bytes)
  | modify (off : Nat) (data : Bytes)
  deriving DecidableEq, Repr

/-- What the controller and the stack's own ECC find on a read of a line (R374). -/
inductive LineErr where
  | clean
  | corrected
  | onDie
  | uncorrectable
  deriving DecidableEq, Repr

/-- A configuration request to one function that has no row of its own (R163).
The writes are those of PCI Express Base 5.0 whose fields the spec names. -/
inductive CfgOp where
  | read
  | setMse (on : Bool)
  | setMsixEnable (on : Bool)
  | setFunctionMask (on : Bool)
  | setLnr (enable : Bool) (limit : Nat)
  | setCompletionTimeout (us : Nat)
  | setAri (on : Bool)
  | setNumVfs (n : Nat)
  | setVfMse (on : Bool)
  | setAspmL1 (on : Bool)
  | setTags10 (on : Bool)
  | setEcrcCheck (on : Bool)
  | setD0
  | clearAer
  deriving DecidableEq, Repr

end Sys2Proof

namespace Sys2Proof.Machine

/-- A CAN FD frame in extended format: the 29-bit identifier and the data. -/
structure Frame where
  id : Nat
  data : Bytes
  deriving DecidableEq, Repr

/-- One sample of the coolant sensors. -/
structure CoolantIn where
  tinA : Option Int
  tinB : Option Int
  toutA : Option Int
  toutB : Option Int
  qin : Option Int
  qout : Option Int
  dp : Option Int
  deriving DecidableEq, Repr

end Sys2Proof.Machine
end

