-- ==== Sys2Proof/Syntax.lean ====
section
/-! DEFINITION. The commands the block takes: one constructor for each row of the table of commands, those with operands first. -/

namespace Sys2Proof

open Sys2Proof.Machine

/-- A command from outside, or an event that the outside lets happen (a timer's end, a transfer's end, an arrival). -/
inductive Instr where
  /-- AUX_APPLIED: AUX comes within rating: a cold reset, with the straps as they read (R58, R76, R726); `removed` says that AUX had gone altogether. -/
  | auxApplied (slot rack par : Nat) (removed : Bool)
  /-- MODULE_RESET: The module reset that was asked for is carried out, and the straps are read (R58 to R60, R76). -/
  | moduleReset (slot rack par : Nat)
  /-- TAP_INSTRUCTION: A TAP instruction is loaded (R27, R78, R722). -/
  | tapInstruction (code : Nat)
  /-- EXTERNAL_TRIP: TRIP_N is driven low from outside for so many ns (R75). -/
  | externalTrip (lowNs : Nat)
  /-- TRIP_RELEASE_WINDOW: The 50 µs release window of a whole second, with the level sampled (R743). -/
  | tripReleaseWindow (high : Bool)
  /-- A1_WORD: A bubble-port word reaches the beat fabric (R29 to R32). -/
  | a1Word (w : BitVec 112)
  /-- POLICY_TIMEOUT: A POLICY of context n has had no acknowledgement for 100 ms (R195). -/
  | policyTimeout (n : Nat)
  /-- CONFIG_REQUEST: A configuration request without a row of its own (R124, R125, R163). -/
  | configRequest (f : Nat) (op : CfgOp)
  /-- FLR: Initiate Function Level Reset (R156, R158, R224). -/
  | flr (f : Nat)
  /-- FLR_COMPLETE: A function reset completes (R156, R224). -/
  | flrComplete (f : Nat)
  /-- D3HOT_ENTRY: A function enters D3hot (R159). -/
  | d3hotEntry (f : Nat)
  /-- BUS_MASTER_ENABLE_CLEAR: Bus Master Enable becomes 0 (R160). -/
  | busMasterEnableClear (f : Nat)
  /-- BUS_MASTER_ENABLE_SET: Bus Master Enable becomes 1 (R160). -/
  | busMasterEnableSet (f : Nat)
  /-- ATS_ENABLE_CHANGE: ATS Enable changes (R150). -/
  | atsEnableChange (f : Nat) (on : Bool)
  /-- TRANSLATION_COMPLETION: A Translation Completion (R147, R148). -/
  | translationCompletion (id : Nat) (res : XlResult)
  /-- INVALIDATE_REQUEST: An ATS Invalidate Request (R149). -/
  | invalidateRequest (f base log2 : Nat)
  /-- INVALIDATE_COMPLETE: The device completes an invalidation (R149). -/
  | invalidateComplete (f base log2 : Nat)
  /-- HOST_READ_COMPLETION: The completion of a data read (R154, R791). -/
  | hostReadCompletion (id : Nat) (res : ReadResult)
  /-- COMPLETION_TIMEOUT: A read ends by Completion Timeout (R152). -/
  | completionTimeout (ref : ReadRef)
  /-- ACK_DLLP: An Ack DLLP covers the n oldest posted writes (R211, R792). -/
  | ackDllp (n : Nat)
  /-- UNSUPPORTED_REQUEST: A request that the device answers with UR (R152). -/
  | unsupportedRequest (f : Nat)
  /-- POISONED_WINDOW_WRITE: A poisoned write to a window is discarded (R152). -/
  | poisonedWindowWrite (f : Nat)
  /-- MSIX_UNMASK: Vector v of function f is unmasked (R142). -/
  | msixUnmask (f v : Nat)
  /-- COAL_TIME_EXPIRY: COAL_TIME has run out for ring r of function f, 16 its report ring (R218). -/
  | coalTimeExpiry (f r : Nat)
  /-- MCTP_VDM: An MCTP vendor-defined message (R180 to R182). -/
  | mctpVdm (f : Nat) (packet : Bytes)
  /-- DBL_CTL_EN_SET: HOST.DBL_CTL is written with EN = 1 (R137, R169, R780). -/
  | dblCtlEnSet (f : Nat) (v : W32)
  /-- DBL_CTL_EN_CLEAR: HOST.DBL_CTL is written with EN = 0 (R138, R780). -/
  | dblCtlEnClear (f : Nat) (v : W32)
  /-- DOORBELL_POLL: A doorbell-line read falls due (R171, R172). -/
  | doorbellPoll (f : Nat)
  /-- DOORBELL_TAG_FREE: A reserved tag is free for a waiting doorbell read (R793). -/
  | doorbellTagFree (f : Nat)
  /-- DOORBELL_READ_COMPLETE: A doorbell-line read ends (R170, R174, R178, R189). -/
  | doorbellReadComplete (f : Nat) (res : ReadResult)
  /-- SWAP_OUT_COMPLETE: The write-back of slot i completes (R204). -/
  | swapOutComplete (i : Nat)
  /-- SLOT_STATE_LOADED: The state of the ring bound to slot i is loaded (R204). -/
  | slotStateLoaded (i : Nat)
  /-- RING_IDLE_TIMEOUT: The ring in slot i has been idle for 20 µs (R205). -/
  | ringIdleTimeout (i : Nat)
  /-- RING_BOUND_50US: The ring in slot i has been bound for 50 µs (R207). -/
  | ringBound50us (i : Nat)
  /-- LN_MESSAGE: An LN Message for a registered line (R176). -/
  | lnMessage (f : Nat)
  /-- LN_BACKSTOP: The 64 µs of a backstop read have passed (R176). -/
  | lnBackstop (f : Nat)
  /-- RING_EN_SET: RING.CFGi is written with EN = 1 (R184 to R186, R780). -/
  | ringEnSet (f i : Nat) (v : W32)
  /-- RING_EN_CLEAR: RING.CFGi is written with EN = 0 (R186, R780). -/
  | ringEnClear (f i : Nat) (v : W32)
  /-- RPT_CFG_EN_SET: RING.RPT_CFG is written with EN = 1 (R184, R220). -/
  | rptCfgEnSet (f : Nat) (v : W32)
  /-- RPT_CFG_EN_CLEAR: RING.RPT_CFG is written with EN = 0 (R186, R221). -/
  | rptCfgEnClear (f : Nat) (v : W32)
  /-- DESCRIPTOR_FETCH: Slot i reads its next descriptors (R203). -/
  | descriptorFetch (i : Nat)
  /-- DESCRIPTOR_READ_COMPLETE: The descriptor read of slot i ends (R203, R223). -/
  | descriptorReadComplete (i : Nat) (bs : Bytes) (fail : Option ReadFail)
  /-- UNDEFINED_OPCODE: A descriptor whose opcode is not in Table RING-3 (R191). -/
  | undefinedOpcode (f r : Nat)
  /-- NOP: NOP (Table RING-3). -/
  | nop (f r : Nat)
  /-- COPY_H2D: COPY_H2D (R192, R209). -/
  | copyH2d (f r : Nat)
  /-- COPY_D2H: COPY_D2H (R192, R209, R376). -/
  | copyD2h (f r : Nat)
  /-- COPY_D2D: COPY_D2D (R192, R194). -/
  | copyD2d (f r : Nat)
  /-- FILL: FILL (R192). -/
  | fill (f r : Nat)
  /-- EVENT_SIGNAL: EVENT_SIGNAL (R192, R193). -/
  | eventSignal (f r : Nat)
  /-- EVENT_WAIT: EVENT_WAIT (R192, R193). -/
  | eventWait (f r : Nat)
  /-- EVENT_WAIT_MET: The counter of the EVENT_WAIT of context n reaches its threshold (R193). -/
  | eventWaitMet (n : Nat)
  /-- EVENT_WAIT_TIMEOUT: The EVENT_WAIT of context n times out (R193). -/
  | eventWaitTimeout (n : Nat)
  /-- HOST_WRITE: HOST_WRITE (R192). -/
  | hostWrite (f r : Nat)
  /-- SCHED_SET: SCHED_SET (R210). -/
  | schedSet (f r : Nat)
  /-- POLICY: POLICY (R195). -/
  | policy (f r : Nat)
  /-- PINNED_WRITE_RESUME: The pages that context n writes are pinned no more (R217). -/
  | pinnedWriteResume (n : Nat)
  /-- COMMAND_COMPLETE: The completion record of context n is written (R196, R211). -/
  | commandComplete (n : Nat)
  /-- ADMIT: ADMIT (R265 to R274). -/
  | admitCmd (f r : Nat)
  /-- ADMIT_WAIT_EXPIRY: WAIT_US of the queued ADMIT of context n expires (R274). -/
  | admitWaitExpiry (n : Nat)
  /-- ADMIT_RESIDENCY_COMPLETE: The pages of the ADMIT of context n are resident (R267, R273, R276). -/
  | admitResidencyComplete (n : Nat)
  /-- PROGRAM_LOAD_COMPLETE: The program of the ADMIT of context n is loaded (R267, R349). -/
  | programLoadComplete (n : Nat)
  /-- OFFER_BACKSTOP: The OFFER of context n has had no answer for 1,100 ms (R277). -/
  | offerBackstop (n : Nat)
  /-- PROGRAM_ABORT: PROGRAM_ABORT (R352). -/
  | programAbort (f r : Nat)
  /-- ABORT_DRAIN_COMPLETE: The transfers of stopped group g have drained (R351). -/
  | abortDrainComplete (g : Nat)
  /-- CLUSTER_SCRUB_COMPLETE: A released cluster has been zeroed (R241). -/
  | clusterScrubComplete (c : Nat)
  /-- PAGE_MAP: PAGE_MAP (R248, R249). -/
  | pageMap (f r : Nat)
  /-- PAGE_UNMAP: PAGE_UNMAP (R248, R250). -/
  | pageUnmap (f r : Nat)
  /-- PAGE_UNMAP_COMPLETE: The range claimed by context n is free of transfers (R250). -/
  | pageUnmapComplete (n : Nat)
  /-- POOL_SET: POOL_SET (R251, R261). -/
  | poolSet (f r : Nat)
  /-- CAGE_CREATE: CAGE_CREATE (R229, R233, R235). -/
  | cageCreate (f r : Nat)
  /-- CAGE_DESTROY: CAGE_DESTROY (R235, R236). -/
  | cageDestroy (f r : Nat)
  /-- CAGE_DESTROY_COMPLETE: All of a CAGE_DESTROY is done (R236). -/
  | cageDestroyComplete (c : Nat)
  /-- CAGE_QUOTA: CAGE_QUOTA (R233 to R235). -/
  | cageQuota (f r : Nat)
  /-- FRAME_SCRUBBED: The scrubber has zeroed frame f (R253). -/
  | frameScrubbed (f : Nat)
  /-- DEMAND_ZERO_COMPLETE: The frame of page p of cage c has been zeroed on demand (R254). -/
  | demandZeroComplete (c p : Nat)
  /-- EVICTION_COMPLETE: The eviction of page p of cage c ends (R259). -/
  | evictionComplete (c p : Nat)
  /-- RESTORE_COMPLETE: The restore of page p of cage c ends (R259). -/
  | restoreComplete (c p : Nat)
  /-- BEAT_SLOT: One slot of running group g (R320 to R347). -/
  | beatSlot (g : Nat)
  /-- STREAM_PIECE_LANDED: A piece of a stream transfer lands (R342 to R345). -/
  | streamPieceLanded (id piece : Nat)
  /-- PROGRAM_END: The program of group g has ended (R350). -/
  | programEnd (g : Nat)
  /-- GATE_LIMIT_EXPIRY: Group g has been held beyond its gate limit (R348). -/
  | gateLimitExpiry (g : Nat)
  /-- DROOP_CROSSING: The supply of cluster c crosses the droop threshold (R492, R493). -/
  | droopCrossing (c : Nat)
  /-- SHADOW_ACCESS_FAIL: A shadow access of group g has failed (R356). -/
  | shadowAccessFail (g : Nat)
  /-- STACK_LINE_ACCESS: A controller serves one 64-byte line (R367, R374 to R377). -/
  | stackLineAccess (line : Nat) (op : LineOp) (e : LineErr)
  /-- STACK_READOUT: The temperature of stack i in sixteenths of a degree is read, or both tries fail (R381 to R384). -/
  | stackReadout (i : Nat) (t : Option Int)
  /-- PATROL_SCRUB_READ: Patrol reads the next line of stack i (R379). -/
  | patrolScrubRead (i : Nat) (e : LineErr)
  /-- STACK_CE_RATE_TIMER: The second of corrections of stack i has passed (R380). -/
  | stackCeRateTimer (i : Nat)
  /-- SCRUB_CTL_LOCK: STACK.SCRUB_CTL is written with LOCK = 1 (R379, R387). -/
  | scrubCtlLock (v : W32)
  /-- STACK_TRAINING_END: Stack training ends; `failed` has a bit for each stack that did not train (R385). -/
  | stackTrainingEnd (failed : Nat)
  /-- LINK_EN_SET: LINK.CTLk is written with EN = 1 (R394, R431). -/
  | linkEnSet (k : Nat) (v : W32)
  /-- LINK_EN_CLEAR: LINK.CTLk is written with EN = 0 (R427, R431). -/
  | linkEnClear (k : Nat) (v : W32)
  /-- LANE_STARTUP_COMPLETE: Lane start-up ends; `failed` has a bit for each failed lane (R392, R395). -/
  | laneStartupComplete (k failed : Nat)
  /-- HELLO: A HELLO arrives (R395, R396, R398). -/
  | hello (k : Nat) (flit : Bytes)
  /-- LINK_TRAINING_TIMEOUT: Full training has taken 500 ms (R395, R397). -/
  | linkTrainingTimeout (k : Nat)
  /-- LINK_RETRY_TIMER: The retry second of link k has passed (R397). -/
  | linkRetryTimer (k : Nat)
  /-- CODEWORD_PAIR_UNCORRECTABLE: A codeword pair cannot be corrected (R405). -/
  | codewordPairUncorrectable (k : Nat)
  /-- DATA_FLIT_RECEIVED: A DATA flit arrives (R404, R419). -/
  | dataFlitReceived (k : Nat) (flit : Bytes)
  /-- LCTL_RECEIVED: An LCTL other than a HELLO arrives (R402, R406, R413, R415). -/
  | lctlReceived (k : Nat) (flit : Bytes)
  /-- REPLAY_TIMEOUT: The replay timer of link k expires (R406). -/
  | replayTimeout (k : Nat)
  /-- NAK_HOLDOFF_EXPIRY: 4 µs have passed since a NAK (R404). -/
  | nakHoldoffExpiry (k : Nat)
  /-- FLIT_SLOT_TRANSMIT: One flit slot of link k (R410). -/
  | flitSlotTransmit (k : Nat)
  /-- AUDIT_SEND: The millisecond of the audit has passed (R415). -/
  | auditSend (k : Nat)
  /-- LANE_LOCK_LOST: Link k loses lane lock or deskew (R427). -/
  | laneLockLost (k : Nat)
  /-- FAST_RETRAIN_COMPLETE: A fast retrain completes (R428). -/
  | fastRetrainComplete (k : Nat)
  /-- FAST_RETRAIN_TIMEOUT: A fast retrain has taken 2 ms (R427). -/
  | fastRetrainTimeout (k : Nat)
  /-- PEER_SILENT_TIMEOUT: The peer has been silent for 2 ms (R427). -/
  | peerSilentTimeout (k : Nat)
  /-- MWRITE: The target takes an MWRITE (R422). -/
  | mwrite (k : Nat)
  /-- MWRITE_LINES_ACKED: The lines of the oldest MWRITE are acknowledged (R422). -/
  | mwriteLinesAcked (k : Nat)
  /-- MREAD: The target takes an MREAD (R422). -/
  | mread (k : Nat)
  /-- MREAD_DATA_READY: The lines of the oldest MREAD are read (R420, R422). -/
  | mreadDataReady (k : Nat)
  /-- MDATA: The requester takes an MDATA (R425, R466). -/
  | mdata (k : Nat)
  /-- MACK: The requester takes a MACK (R426). -/
  | mack (k : Nat)
  /-- VC_MEM_TIMEOUT: A memory request has had no response for 1 ms (R426). -/
  | vcMemTimeout (k tag : Nat)
  /-- LINK_ERR_RATE_TIMER: The second of link error counts has passed; `corrected` symbols were corrected in it (R432). -/
  | linkErrRateTimer (k corrected : Nat)
  /-- COLL_GROUP_CREATE: COLL_GROUP_CREATE (R435 to R445). -/
  | collGroupCreate (f r : Nat)
  /-- COLL_GROUP_DESTROY: COLL_GROUP_DESTROY (R482). -/
  | collGroupDestroy (f r : Nat)
  /-- COLL_BUF_REGISTER: COLL_BUF_REGISTER (R447 to R450). -/
  | collBufRegister (f r : Nat)
  /-- REDUCE_SCATTER: REDUCE_SCATTER (R440, R453, R457). -/
  | reduceScatter (f r : Nat)
  /-- ALL_GATHER: ALL_GATHER (R440, R453, R463). -/
  | allGather (f r : Nat)
  /-- GROUP_HELLO: GROUP_HELLO is received (R444, R445). -/
  | groupHello (k : Nat)
  /-- GROUP_HELLO_RESEND: Unacknowledged HELLOs of group h are sent again (R443). -/
  | groupHelloResend (h : Nat)
  /-- GROUP_ACK: GROUP_ACK is received (R445). -/
  | groupAck (k : Nat)
  /-- KEY_OFFER: KEY_OFFER is received (R449, R450). -/
  | keyOffer (k : Nat)
  /-- GROUP_BYE: GROUP_BYE is received (R482). -/
  | groupBye (k : Nat)
  /-- COLL_WAIT_EXPIRY: WAIT_US has passed for a create (0), for the registration of INDEX i (1) or for the first OP_READY (R445, R449, R453). -/
  | collWaitExpiry (h what i : Nat)
  /-- COLL_OP_START: The next operation of group h starts (R453). -/
  | collOpStart (h : Nat)
  /-- BIND_START_WAIT_END: The admission that the operation of group h is bound to has started, or is gone (R473). -/
  | bindStartWaitEnd (h : Nat)
  /-- BIND_SOURCE_GATE_MET: The source gate of group h is met (R472). -/
  | bindSourceGateMet (h : Nat)
  /-- OP_READY: OP_READY is received (R453). -/
  | opReady (k : Nat)
  /-- CHUNK_START: Engine quarter q starts a chunk (R475). -/
  | chunkStart (q : Nat)
  /-- COLL_DATA: AG_DATA or RS_DATA is received on VC-COLL (0) or VC-BULK (1) (R457, R463). -/
  | collData (k vc : Nat)
  /-- CHUNK_END: CHUNK_END is received on VC-COLL (0) or VC-BULK (1) (R465). -/
  | chunkEnd (k vc : Nat)
  /-- CHUNK_CHECK: The chunk received on strand j of group h is checked; `mism` residues mismatched (R465 to R467). -/
  | chunkCheck (h j mism : Nat)
  /-- CHUNK_ACK: CHUNK_ACK is received (R460, R466). -/
  | chunkAck (k : Nat)
  /-- OP_ABORT: OP_ABORT is received (R480). -/
  | opAbort (k : Nat)
  /-- COLL_PROGRESS_TIMEOUT: The neighbour of group h on link k has been silent for TIMEOUT_MS (R454). -/
  | collProgressTimeout (h k : Nat)
  /-- COLL_DRAIN_COMPLETE: The ending operation of group h has drained (R480). -/
  | collDrainComplete (h : Nat)
  /-- PMBUS_READ: The MAIN regulators are read: input power in mW and input voltage in mV of each, none where a read fails (R485, R486, R798). -/
  | pmbusRead (reads : List (Option (Nat × Nat)))
  /-- RAIL_AT_LEVEL: VDD_CORE has reached what the OFFER of beat group j needs (R491). -/
  | railAtLevel (j : Nat)
  /-- LOCK_ORIGIN_SILENT: An origin of a LOCK has been unheard for 30 µs (R517). -/
  | lockOriginSilent (lock origin : Nat)
  /-- LOCK_ENTRY_EXPIRY: 100 ms have passed since an entry was last heard (R514). -/
  | lockEntryExpiry (lock origin : Nat)
  /-- LOCK_QUEUE_SEND: A waiting lock message enters A5 for link k (R47, R520). -/
  | lockQueueSend (k : Nat)
  /-- DIE_SENSOR_SAMPLE: The 16 die diodes are read, none where a read fails (R529 to R531). -/
  | dieSensorSample (xs : List (Option Int))
  /-- COOLANT_SENSOR_SAMPLE: The coolant sensors are read (R529, R551). -/
  | coolantSensorSample (x : CoolantIn)
  /-- HUMIDITY_SAMPLE: Humidity, dew point and air temperature are read (R529). -/
  | humiditySample (rh dew air : Option Int)
  /-- SENSOR_VALID_AGAIN: Sensor i has passed its checks for 1 s (R531). -/
  | sensorValidAgain (i : Nat)
  /-- PROBE_DISAGREE: The elements of the probe at sensor i have differed for 1 s (R532). -/
  | probeDisagree (i : Nat)
  /-- ZONE_RECOVERY: Faulted zone z has held 2 valid sensors for 5 s (R534, R535). -/
  | zoneRecovery (z : Nat)
  /-- THRESHOLD_DWELL_EXPIRY: The dwell of threshold t has passed (R537, R538). -/
  | thresholdDwellExpiry (t : Nat)
  /-- THERMAL_TIMEOUT: The OFFER of beat group j has been held for THERMAL_TIMEOUT (R551). -/
  | thermalTimeout (j : Nat)
  /-- BEMF_ZERO_CROSSING: A zero crossing comes `ns` after the one before, with the phase currents in mA (R557, R560, R566, R796). -/
  | bemfZeroCrossing (ns : Nat) (ma : List Nat)
  /-- SPEED_LOOP: The speed loop of 1 ms; `limited` says that the current limit acted in every period (R573, R575, R795). -/
  | speedLoop (limited : Bool)
  /-- DIAG_PULSE: The diagnostic pulses of 100 ms, with the current of each phase in mA (R567). -/
  | diagPulse (ma : List Nat)
  /-- TAPE_LOOP_CHECK: The continuity loop of the leak tape is checked (R92, R585). -/
  | tapeLoopCheck (isOpen : Bool)
  /-- WL_DETECT_SAMPLE: WL_DETECT_N is sampled (R89). -/
  | wlDetectSample (seated : Bool)
  /-- JOIN_LISTEN_END: The 200 ms listen of bus b ends (R605, R606). -/
  | joinListenEnd (b : Nat)
  /-- RX_FIFO_DRAIN: The steward drains the receive FIFO of bus b (R601). -/
  | rxFifoDrain (b : Nat)
  /-- RX_OVERFLOW: A frame arrives while the receive FIFO of bus b is full (R600). -/
  | rxOverflow (b : Nat)
  /-- BUS_MESSAGE_PHASE: The phase of a periodic message has come (R623). -/
  | busMessagePhase (b msg : Nat)
  /-- FRAME_SENT: A frame has been sent on bus b (R613, R614). -/
  | frameSent (b : Nat)
  /-- TX_EXPIRY: The frame in transmit buffer i of bus b has waited too long (R603). -/
  | txExpiry (b i : Nat)
  /-- CAN_ERROR: A bus error has moved the error counters of bus b to these values (R604). -/
  | canError (b txErr rxErr : Nat)
  /-- BUS_OFF_WAIT_EXPIRY: The wait after bus-off ends (R604). -/
  | busOffWaitExpiry (b : Nat)
  /-- BUS_OFF_RECOVERED: The bus-off recovery of bus b completes (R604). -/
  | busOffRecovered (b : Nat)
  /-- LEAK_ALERT: LEAK_ALERT is received (R668, R676). -/
  | leakAlert (b : Nat) (fr : Frame)
  /-- TRIP_NOTICE: TRIP_NOTICE is received (R676). -/
  | tripNotice (b : Nat) (fr : Frame)
  /-- STAGE_ALARM: STAGE_ALARM is received (R676). -/
  | stageAlarm (b : Nat) (fr : Frame)
  /-- RACK_ALERT: RACK_ALERT is received (R676). -/
  | rackAlert (b : Nat) (fr : Frame)
  /-- CLAIM_CMD: CLAIM_CMD is received: a module takes no action on it (R623). -/
  | claimCmd (b : Nat) (fr : Frame)
  /-- WARDEN_HB: WARDEN_HB is received (R626, R652 to R654). -/
  | wardenHb (b : Nat) (fr : Frame)
  /-- STAGE_STATUS: STAGE_STATUS is received (R656, R660). -/
  | stageStatus (b : Nat) (fr : Frame)
  /-- SYNC: SYNC is received (R615 to R618). -/
  | sync (b : Nat) (fr : Frame)
  /-- MODULE_BUDGET: MODULE_BUDGET is received (R664). -/
  | moduleBudget (b : Nat) (fr : Frame)
  /-- ALLOC: ALLOC is received (R590, R627, R663). -/
  | alloc (b : Nat) (fr : Frame)
  /-- RACK_BUDGET: RACK_BUDGET is received (R670, R671). -/
  | rackBudget (b : Nat) (fr : Frame)
  /-- MODULE_TELEM: MODULE_TELEM is received (R623). -/
  | moduleTelem (b : Nat) (fr : Frame)
  /-- RACK_TELEM: RACK_TELEM is received (R670). -/
  | rackTelem (b : Nat) (fr : Frame)
  /-- MIRROR: MIRROR is received (R651). -/
  | mirror (b : Nat) (fr : Frame)
  /-- NODE_ANNOUNCE: NODE_ANNOUNCE is received: the module takes no action on it (R623). -/
  | nodeAnnounce (b : Nat) (fr : Frame)
  /-- ANNOUNCE_REQ: ANNOUNCE_REQ is received (R623). -/
  | announceReq (b : Nat) (fr : Frame)
  /-- BUS_SLEEP: BUS_SLEEP is received (R609, R610). -/
  | busSleep (b : Nat) (fr : Frame)
  /-- BUS_WAKE: BUS_WAKE is received; on a sleeping rack bus it is a wake-up frame (R611, R612). -/
  | busWake (b : Nat) (fr : Frame)
  /-- MAKER_FRAME: A class 7 frame is received (R621). -/
  | makerFrame (b : Nat) (fr : Frame)
  /-- BUS_COUNTS_TIMER: The second of BUS_COUNTS of bus b has passed (R633). -/
  | busCountsTimer (b : Nat)
  /-- MBX_SELECT: The mailbox selector is written (R628). -/
  | mbxSelect (v : Nat)
  /-- LEAK_RESPONSE_DELAY: RACK_DELAY (0) or ROW_DELAY (1) has passed (R676). -/
  | leakResponseDelay (b : Nat)
  /-- WL_STATE: A STATE frame of the warden link (R650). -/
  | wlState (lane seq : Nat) (good : Bool) (payload : Bytes)
  /-- WL_MIRROR: A MIRROR frame of the warden link (R651). -/
  | wlMirror (lane seq : Nat) (good : Bool) (payload : Bytes)
  /-- HANDOVER: HANDOVER is received (R659). -/
  | handover (lane seq : Nat) (good : Bool) (payload : Bytes)
  /-- HANDOVER_ACK: HANDOVER_ACK is received (R659). -/
  | handoverAck (lane seq : Nat) (good : Bool) (payload : Bytes)
  /-- KEEPALIVE: A KEEPALIVE frame (R648). -/
  | keepalive (lane seq : Nat) (good : Bool) (payload : Bytes)
  /-- WL_LANE_DOWN: A lane has brought no good frame for 10 ms (R648). -/
  | wlLaneDown (lane : Nat)
  /-- MCTP_SMBUS_PACKET: An MCTP packet over SMBus (R688, R689). -/
  | mctpSmbusPacket (packet : Bytes)
  /-- STORE_COMPLETE: The read-back of a store has passed or failed (R709). -/
  | storeComplete (ok : Bool)
  /-- TRACE_CTL_EN_WRITE: MGMT.TRACE_CTL is written (R723, R724). -/
  | traceCtlEnWrite (v : W32)
  /-- W1C_WRITE: HOST.SETUP_ERR or RING.SETUP_ERR is written (R16, R782). -/
  | w1cWrite (f off : Nat) (v : W32)
  /-- LOCKED_WRITE: A LOCKED register of the PF window is written (R16, R783). -/
  | lockedWrite (off : Nat) (v : W32)
  /-- BAD_SIZE_WINDOW_ACCESS: A set-up window is accessed with a wrong size or alignment (R130). -/
  | badSizeWindowAccess (f off size : Nat)
  /-- REGISTER_WRITE: A register of BAR0 is written (R130 to R132, R779 to R785). -/
  | registerWrite (f off size : Nat) (v : W64)
  /-- ECRC_ERROR: A TLP of function f fails its ECRC check; `ref` names the read it completes, if any (R152). -/
  | ecrcError (f : Nat) (ref : Option ReadRef)
  /-- MALFORMED_FRAME: A frame fails the receive checks; `fd` says that it is an FD frame in extended format (R621). -/
  | malformedFrame (b : Nat) (fd : Bool) (fr : Frame)
  /-- AUX_BROWN_OUT: AUX falls below 10.80 V (R53, R58, R756). -/
  | auxBrownOut
  /-- STEWARD_WATCHDOG_EXPIRY: The steward watchdog expires (R58, R684). -/
  | stewardWatchdogExpiry
  /-- STEWARD_BOOT_COMPLETE: Firmware runs (R683, R684, R711, R726 step 3, R731). -/
  | stewardBootComplete
  /-- RETURN_ERASE_COMPLETE: The erasure after a return ends (R719). -/
  | returnEraseComplete
  /-- PCIE_PERST_ASSERT: PCIE_PERST_N goes low (R58, R79). -/
  | pciePerstAssert
  /-- PCIE_PERST_DEASSERT: PCIE_PERST_N goes high (R79, R162). -/
  | pciePerstDeassert
  /-- HOT_RESET: A PCIe hot reset (R58, R164). -/
  | hotReset
  /-- DL_DOWN: The data link goes down (R58, R164). -/
  | dlDown
  /-- DIE_TRIP: The die comparator trips (R42, R541). -/
  | dieTrip
  /-- LEAK_TAPE_WET: The leak tape reads wet (R91, R586). -/
  | leakTapeWet
  /-- DIE_COMPARATOR_DEASSERT: The die comparator reads below its release level (R541). -/
  | dieComparatorDeassert
  /-- RELEASED_MODE_CLEAR: TRIP_N has read high for 20 µs in released mode (R744, R745). -/
  | releasedModeClear
  /-- UNSOLICITED_MAIN: MAIN_48V is present while MAIN_EN is low (R106). -/
  | unsolicitedMain
  /-- MAIN_SUPPLY_IN_RATING: MAIN_48V reaches 40 V (R727). -/
  | mainSupplyInRating
  /-- MAIN_SUPPLY_TIMEOUT: Main power or the regulators are late (R728). -/
  | mainSupplyTimeout
  /-- REGULATORS_IN_REGULATION: The MAIN regulators reach regulation (R490, R726 step 10). -/
  | regulatorsInRegulation
  /-- MAIN_PLANES_READY: The MAIN planes reach the state of step 11 (R726, R733). -/
  | mainPlanesReady
  /-- MAIN_RETRY_TIMER: The 10 s after a main failure have passed (R728). -/
  | mainRetryTimer
  /-- MAIN_LOST: MAIN_48V falls below 36 V for 1 ms (R749). -/
  | mainLost
  /-- MAIN_OFF: MAIN_OFF of policy class 6 (R736, R737). -/
  | mainOff
  /-- MAIN_OFF_RELEASE: MAIN_EN is released 10 ms after MAIN_OFF (R737). -/
  | mainOffRelease
  /-- HEAT_DUMP_END: The 30 s of a heat dump have passed (R574, R739). -/
  | heatDumpEnd
  /-- A1_STALE_TIMEOUT: No A1 word for 100 µs (R33). -/
  | a1StaleTimeout
  /-- A2_WINDOW_CLOSE: An activity window closes (R34 to R36). -/
  | a2WindowClose
  /-- INNER_STEP: The power controller steps on an A2 frame (R496, R505, R506). -/
  | innerStep
  /-- A6_RECORD_DELIVERED: A record held in the A6 gateway is delivered (R50, R51). -/
  | a6RecordDelivered
  /-- MIRROR_REGISTER_REFRESH: A mirror entry enters the control plane copy (R776). -/
  | mirrorRegisterRefresh
  /-- OFFER: The management plane takes OFFER (R37, R550, R551). -/
  | offer
  /-- HOLD: The control plane takes HOLD (R37, R276). -/
  | hold
  /-- RELEASE: The control plane takes RELEASE (R267). -/
  | release
  /-- REFUSE: The control plane takes REFUSE (R267, R551). -/
  | refuse
  /-- WITHDRAW: The management plane takes WITHDRAW (R40). -/
  | withdraw
  /-- START_MESSAGE: The management plane takes START (R512, R547). -/
  | startMessage
  /-- END_MESSAGE: The management plane takes END (R37, R512). -/
  | endMessage
  /-- POLICY_MESSAGE: The management plane takes POLICY (R195). -/
  | policyMessage
  /-- POLICY_ACK: The control plane takes POLICY_ACK (R195). -/
  | policyAck
  /-- CONTROL_PLANE_READY: The control plane is ready (R163). -/
  | controlPlaneReady
  /-- VF_ENABLE_SET: VF Enable is set (R122 to R126). -/
  | vfEnableSet
  /-- VF_ENABLE_CLEAR: VF Enable is cleared (R126). -/
  | vfEnableClear
  /-- VF_RRS_END: The VFs complete configuration requests normally (R125, R126). -/
  | vfRrsEnd
  /-- UNCORRECTABLE_INTERNAL_ERROR: An uncorrectable error of the control plane (R152). -/
  | uncorrectableInternalError
  /-- ASPM_L1_ENTRY: The link enters L1 (R161). -/
  | aspmL1Entry
  /-- ADMIT_QUEUE_SERVED: The head of the admission queue is served (R274). -/
  | admitQueueServed
  /-- PAGE_BOOK_TIMER: The second of PAGE_BOOK has passed (R264). -/
  | pageBookTimer
  /-- COLL_ERR_COUNT_TIMER: The second of collective error counts has passed (R484). -/
  | collErrCountTimer
  /-- OUTER_UPDATE: The outer update of 1 ms (R497, R499, R508). -/
  | outerUpdate
  /-- DERATE_UPDATE: The derate update of 50 ms (R504). -/
  | derateUpdate
  /-- SET_CAP: SET_CAP of policy class 1 (R502). -/
  | setCap
  /-- SET_MODE: SET_MODE of policy class 1 (R495). -/
  | setMode
  /-- LOCK_PERMIT: LOCK_PERMIT of policy class 1 (R510). -/
  | lockPermit
  /-- COUNTERS_NOW: COUNTERS_NOW of policy class 1 (R524). -/
  | countersNow
  /-- LOG_REPLAY: LOG_REPLAY of policy class 1 (R522, R526). -/
  | logReplay
  /-- POWER_POLICY_STORE: A changed policy record falls due for its store (R503, R591). -/
  | powerPolicyStore
  /-- LOCK_JOIN: A LOCK_JOIN is taken from A5 (R514, R517 to R519). -/
  | lockJoin
  /-- LOCK_DEMAND: A LOCK_DEMAND is taken from A5 (R514, R517 to R519). -/
  | lockDemand
  /-- LOCK_LEAVE: A LOCK_LEAVE is taken from A5 (R514, R517). -/
  | lockLeave
  /-- PWR_STATUS_TIMER: The 100 ms of PWR_STATUS, and of the mirror refresh, have passed (R528, R776). -/
  | pwrStatusTimer
  /-- PWR_LOCK_STATUS_TIMER: The 100 ms of PWR_LOCK_STATUS have passed (R528). -/
  | pwrLockStatusTimer
  /-- THROTTLE_COUNTERS_TIMER: The second of THROTTLE_COUNTERS has passed (R524). -/
  | throttleCountersTimer
  /-- PWR_DROOP_TIMER: The second of PWR_DROOP has passed (R493). -/
  | pwrDroopTimer
  /-- THERMAL_DEMAND_UPDATE: The thermal demand update of 1 ms (R539). -/
  | thermalDemandUpdate
  /-- COOLANT_DEMAND_UPDATE: The coolant demand update of 20 ms (R540). -/
  | coolantDemandUpdate
  /-- DEW_MARGIN_DWELL: The dwell of DEW_MARGIN has passed (R543). -/
  | dewMarginDwell
  /-- BREACH_CHECK: The manifest check of 10 ms (R552, R553). -/
  | breachCheck
  /-- SET_ADMIT: SET_ADMIT of policy class 2 (R554). -/
  | setAdmit
  /-- SET_BREACH: SET_BREACH of policy class 2 (R554). -/
  | setBreach
  /-- HEAT_NOW: HEAT_NOW of policy class 2 (R554, R556). -/
  | heatNow
  /-- HEAT_STATUS_TIMER: The 100 ms of HEAT_STATUS have passed (R556). -/
  | heatStatusTimer
  /-- MODULE_CYCLE: The module cycle of 20 ms (R571, R572, R582, R586, R700, R729). -/
  | moduleCycle
  /-- KICK_TIMEOUT: A kick has run for 400 ms (R560). -/
  | kickTimeout
  /-- STALL_DETECT: A stall check falls due (R561). -/
  | stallDetect
  /-- PUMP_OVERCURRENT: A phase current exceeds 4.0 A (R557, R561). -/
  | pumpOvercurrent
  /-- STALL_RETRY: A retry of the kick falls due (R562). -/
  | stallRetry
  /-- AGEING_EVALUATION: The 10 s of an ageing evaluation have passed (R579, R580). -/
  | ageingEvaluation
  /-- BASELINE_POINT: A baseline point has run for 15 s (R577). -/
  | baselinePoint
  /-- REVERSE_FLOW_DETECT: Both flows have read reversed for 2 s (R588). -/
  | reverseFlowDetect
  /-- LOW_FLOW_DETECT: The flow has been low at the limit for 5 s (R589). -/
  | lowFlowDetect
  /-- SET_PUMP_MODE: SET_PUMP_MODE of policy class 3 (R574). -/
  | setPumpMode
  /-- SET_SPEED: SET_SPEED of policy class 3 (R591). -/
  | setSpeed
  /-- SET_FLOW_LIMITS: SET_FLOW_LIMITS of policy class 3 (R591). -/
  | setFlowLimits
  /-- SET_RAMP: SET_RAMP of policy class 3 (R573, R591). -/
  | setRamp
  /-- SET_FLUID: SET_FLUID of policy class 3 (R591). -/
  | setFluid
  /-- BASELINE: BASELINE of policy class 3 (R577, R578). -/
  | baseline
  /-- CLEAR_LEAK: CLEAR_LEAK of policy class 3 (R586). -/
  | clearLeak
  /-- PUMP_NOW: PUMP_NOW of policy class 3 (R591, R593). -/
  | pumpNow
  /-- PUMP_STATUS_TIMER: The 100 ms of PUMP_STATUS have passed (R593). -/
  | pumpStatusTimer
  /-- SYNC_HOLDOVER: No SYNC from the source for 3 s (R615). -/
  | syncHoldover
  /-- ROW_BUS_DOMINANT_WAKE: A frame wakes the row transceiver (R611). -/
  | rowBusDominantWake
  /-- MBX_WORD0_READ: Word 0 of the mailbox is read (R630). -/
  | mbxWord0Read
  /-- MBX_WORD17_READ: Word 17 of the mailbox is read (R630). -/
  | mbxWord17Read
  /-- MBX_LOCK_TIMEOUT: The mailbox has been locked for 50 ms (R630). -/
  | mbxLockTimeout
  /-- WARDEN_START_ACTIVE: A warden that has joined has heard no active warden (R640, R652). -/
  | wardenStartActive
  /-- STANDBY_EVALUATION: The standby evaluates its peer (R653). -/
  | standbyEvaluation
  /-- RACK_CYCLE: The rack cycle of 20 ms (R660, R664 to R668). -/
  | rackCycle
  /-- ROW_CYCLE: The row cycle of 100 ms (R669 to R674). -/
  | rowCycle
  /-- ROW_ALLOC_SILENCE: No row ALLOC for 300 ms (R675). -/
  | rowAllocSilence
  /-- HANDOVER_TIMEOUT: HANDOVER has had no answer for 10 ms (R659). -/
  | handoverTimeout
  /-- MIRROR_TIMER: The blocks fall due to be mirrored (R651). -/
  | mirrorTimer
  /-- CANARY_TEST_EXPIRY: The second of the canary test has passed (R662). -/
  | canaryTestExpiry
  /-- FABRIC_ALERT: A FABRIC_ALERT is taken from A5 (R678). -/
  | fabricAlert
  /-- COMMISSION: COMMISSION of policy class 4 (R638, R679, R750). -/
  | commission
  /-- DECOMMISSION: DECOMMISSION of policy class 4 (R679). -/
  | decommission
  /-- SET_STAGE_MAP: SET_STAGE_MAP of policy class 4 (R645, R679). -/
  | setStageMap
  /-- SET_BUDGET: SET_BUDGET of policy class 4 (R669, R679). -/
  | setBudget
  /-- SET_EXCHANGE: SET_EXCHANGE of policy class 4 (R673, R679). -/
  | setExchange
  /-- SET_SLEW: SET_SLEW of policy class 4 (R657, R679). -/
  | setSlew
  /-- SET_LEAK: SET_LEAK of policy class 4 (R676, R679). -/
  | setLeak
  /-- SLOT_VALVE: SLOT_VALVE of policy class 4 (R668, R679). -/
  | slotValve
  /-- SLOT_RELEASE: SLOT_RELEASE of policy class 4 (R665, R679). -/
  | slotRelease
  /-- CANARY_SWAP: CANARY_SWAP of policy class 4 (R662, R679). -/
  | canarySwap
  /-- LEAK_RESET: LEAK_RESET of policy class 4 (R677, R679). -/
  | leakReset
  /-- WARD_NOW: WARD_NOW of policy class 4 (R679, R681). -/
  | wardNow
  /-- WARD_STATUS_TIMER: The second of WARD_STATUS has passed (R681). -/
  | wardStatusTimer
  /-- SET_ENDPOINT_ID: Set Endpoint ID is answered (R686). -/
  | setEndpointId
  /-- GET_ENDPOINT_ID: Get Endpoint ID is answered (R687). -/
  | getEndpointId
  /-- GET_ENDPOINT_UUID: Get Endpoint UUID is answered (R687). -/
  | getEndpointUuid
  /-- GET_MCTP_VERSION_SUPPORT: Get MCTP Version Support is answered (R687). -/
  | getMctpVersionSupport
  /-- GET_MESSAGE_TYPE_SUPPORT: Get Message Type Support is answered (R687). -/
  | getMessageTypeSupport
  /-- UNSUPPORTED_MCTP_CONTROL: Any other MCTP control command is answered (R687). -/
  | unsupportedMctpControl
  /-- GET_TID: GetTID is answered (R690). -/
  | getTid
  /-- SET_TID: SetTID is answered (R690). -/
  | setTid
  /-- GET_PLDM_VERSION: GetPLDMVersion is answered (R690). -/
  | getPldmVersion
  /-- GET_PLDM_TYPES: GetPLDMTypes is answered (R690). -/
  | getPldmTypes
  /-- GET_PLDM_COMMANDS: GetPLDMCommands is answered (R690). -/
  | getPldmCommands
  /-- SET_EVENT_RECEIVER: SetEventReceiver is answered (R698). -/
  | setEventReceiver
  /-- GET_PDR_REPOSITORY_INFO: GetPDRRepositoryInfo is answered (R691). -/
  | getPdrRepositoryInfo
  /-- GET_PDR: GetPDR is answered (R691). -/
  | getPdr
  /-- GET_SENSOR_READING: GetSensorReading is answered (R692, R693). -/
  | getSensorReading
  /-- GET_STATE_SENSOR_READINGS: GetStateSensorReadings is answered (R694). -/
  | getStateSensorReadings
  /-- SET_NUMERIC_EFFECTER_VALUE: SetNumericEffecterValue is answered (R695). -/
  | setNumericEffecterValue
  /-- GET_NUMERIC_EFFECTER_VALUE: GetNumericEffecterValue is answered (R696). -/
  | getNumericEffecterValue
  /-- SET_STATE_EFFECTER_STATES: SetStateEffecterStates is answered (R695 to R697, R704). -/
  | setStateEffecterStates
  /-- GET_STATE_EFFECTER_STATES: GetStateEffecterStates is answered (R696). -/
  | getStateEffecterStates
  /-- UNSUPPORTED_PLDM: Any other PLDM command or type is answered (R690). -/
  | unsupportedPldm
  /-- PLDM_EVENT_SEND: A queued event is sent (R698). -/
  | pldmEventSend
  /-- PLDM_EVENT_RESPONSE: The receiver answers an event (R698). -/
  | pldmEventResponse
  /-- PLDM_EVENT_RETRY: An event has had no response for 250 ms (R698). -/
  | pldmEventRetry
  /-- SMBUS_ALERT_RESPONSE: The Alert Response Address is answered (R699). -/
  | smbusAlertResponse
  /-- FW_WRITE: FW_WRITE (R683). -/
  | fwWrite
  /-- FW_VERIFY: FW_VERIFY (R682, R683). -/
  | fwVerify
  /-- FW_ACTIVATE: FW_ACTIVATE (R683, R684). -/
  | fwActivate
  /-- GET_NONCE: GET_NONCE (R717). -/
  | getNonce
  /-- NONCE_EXPIRY: A nonce has stood for 60 s (R717). -/
  | nonceExpiry
  /-- OWNER_ENROL: OWNER_ENROL (R715). -/
  | ownerEnrol
  /-- RETURN_REQUEST: RETURN_REQUEST (R716, R719, R720). -/
  | returnRequest
  /-- RETIRE_REQUEST: RETIRE_REQUEST (R713, R716). -/
  | retireRequest
  /-- DEBUG_UNLOCK: DEBUG_UNLOCK (R716, R721). -/
  | debugUnlock
  /-- MAKER_TRANSITION: MAKER_TRANSITION (R713, R716). -/
  | makerTransition
  /-- SET_HOST_SILENT: SET_HOST_SILENT of policy class 5 (R702). -/
  | setHostSilent
  /-- STORE_HOLD: STORE_HOLD of policy class 5 (R710). -/
  | storeHold
  /-- BUS_ORDER: BUS_ORDER of policy class 5 (R609, R704). -/
  | busOrder
  /-- MGMT_NOW: MGMT_NOW of policy class 5 (R703, R725). -/
  | mgmtNow
  /-- HOST_SILENCE_TIMEOUT: The host has shown no activity for the period (R702). -/
  | hostSilenceTimeout
  /-- STORE_START: A queued record store starts (R708 to R710). -/
  | storeStart
  /-- MGMT_STATUS_TIMER: The 10 s of MGMT_STATUS have passed (R725). -/
  | mgmtStatusTimer
  /-- LEAK_TAPE_DRY: The leak tape reads dry again (R742). -/
  | leakTapeDry
  /-- TRIP_SOURCES_CLEAN: Every own trip source has read deasserted for 10 s (R742, R744). -/
  | tripSourcesClean
  /-- RECEIVER_ERROR: An error that the link layer recovers (R152). -/
  | receiverError
  /-- CORRECTED_INTERNAL_ERROR: A corrected error in control-plane memory (R152). -/
  | correctedInternalError
  /-- MALFORMED_TLP: A fault of the link partner (R152). -/
  | malformedTlp
  deriving DecidableEq, Repr

end Sys2Proof
end

