-- ==== Sys2Proof/WellFormed.lean ====
section
/-! DEFINITION. Which commands are well formed: every number within the range the spec gives what it names. -/

namespace Sys2Proof

open Sys2Proof.Machine

/-- The operands lie within the ranges of the spec: functions 0 to 255 (R121), rings 0 to 15 (R183), slots 0 to 31 (R202), contexts 0 to 511 (R211),
beat groups 0 to 15, clusters 0 to 127 and links 0 to 15 (R286, R320, R389), handles 0 to 63 (R434), buses 0 and 1 (R594), and so on. -/
def Instr.wellFormed : Instr → Bool
  | .auxApplied slot rack par _ => decide (slot < 32) && decide (rack < 16) && decide (par < 2)
  | .moduleReset slot rack par => decide (slot < 32) && decide (rack < 16) && decide (par < 2)
  | .tapInstruction code => decide (code ≤ 6)
  | .externalTrip _ => true
  | .tripReleaseWindow _ => true
  | .a1Word _ => true
  | .policyTimeout n => decide (n < 512)
  | .configRequest f _ => decide (f < 256)
  | .flr f => decide (f < 256)
  | .flrComplete f => decide (f < 256)
  | .d3hotEntry f => decide (f < 256)
  | .busMasterEnableClear f => decide (f < 256)
  | .busMasterEnableSet f => decide (f < 256)
  | .atsEnableChange f _ => decide (f < 256)
  | .translationCompletion _ _ => true
  | .invalidateRequest f base log2 => decide (f < 256) && decide (base < 2 ^ 64) && decide (12 ≤ log2 ∧ log2 < 64)
  | .invalidateComplete f base log2 => decide (f < 256) && decide (base < 2 ^ 64) && decide (12 ≤ log2 ∧ log2 < 64)
  | .hostReadCompletion _ _ => true
  | .completionTimeout _ => true
  | .ackDllp _ => true
  | .unsupportedRequest f => decide (f < 256)
  | .poisonedWindowWrite f => decide (f < 256)
  | .msixUnmask f v => decide (f < 256) && decide (v < if f = 0 then 2048 else 16)
  | .coalTimeExpiry f r => decide (f < 256) && decide (r ≤ 16)
  | .mctpVdm f packet => decide (f < 256) && decide (packet.length ≤ 68)
  | .dblCtlEnSet f _ => decide (f < 256)
  | .dblCtlEnClear f _ => decide (f < 256)
  | .doorbellPoll f => decide (f < 256)
  | .doorbellTagFree f => decide (f < 256)
  | .doorbellReadComplete f _ => decide (f < 256)
  | .swapOutComplete i => decide (i < 32)
  | .slotStateLoaded i => decide (i < 32)
  | .ringIdleTimeout i => decide (i < 32)
  | .ringBound50us i => decide (i < 32)
  | .lnMessage f => decide (f < 256)
  | .lnBackstop f => decide (f < 256)
  | .ringEnSet f i _ => decide (f < 256) && decide (i < 16)
  | .ringEnClear f i _ => decide (f < 256) && decide (i < 16)
  | .rptCfgEnSet f _ => decide (f < 256)
  | .rptCfgEnClear f _ => decide (f < 256)
  | .descriptorFetch i => decide (i < 32)
  | .descriptorReadComplete i bs _ => decide (i < 32) && decide (bs.length ≤ 512)
  | .undefinedOpcode f r => decide (f < 256) && decide (r < 16)
  | .nop f r => decide (f < 256) && decide (r < 16)
  | .copyH2d f r => decide (f < 256) && decide (r < 16)
  | .copyD2h f r => decide (f < 256) && decide (r < 16)
  | .copyD2d f r => decide (f < 256) && decide (r < 16)
  | .fill f r => decide (f < 256) && decide (r < 16)
  | .eventSignal f r => decide (f < 256) && decide (r < 16)
  | .eventWait f r => decide (f < 256) && decide (r < 16)
  | .eventWaitMet n => decide (n < 512)
  | .eventWaitTimeout n => decide (n < 512)
  | .hostWrite f r => decide (f < 256) && decide (r < 16)
  | .schedSet f r => decide (f < 256) && decide (r < 16)
  | .policy f r => decide (f < 256) && decide (r < 16)
  | .pinnedWriteResume n => decide (n < 512)
  | .commandComplete n => decide (n < 512)
  | .admitCmd f r => decide (f < 256) && decide (r < 16)
  | .admitWaitExpiry n => decide (n < 512)
  | .admitResidencyComplete n => decide (n < 512)
  | .programLoadComplete n => decide (n < 512)
  | .offerBackstop n => decide (n < 512)
  | .programAbort f r => decide (f < 256) && decide (r < 16)
  | .abortDrainComplete g => decide (g < 16)
  | .clusterScrubComplete c => decide (c < 128)
  | .pageMap f r => decide (f < 256) && decide (r < 16)
  | .pageUnmap f r => decide (f < 256) && decide (r < 16)
  | .pageUnmapComplete n => decide (n < 512)
  | .poolSet f r => decide (f < 256) && decide (r < 16)
  | .cageCreate f r => decide (f < 256) && decide (r < 16)
  | .cageDestroy f r => decide (f < 256) && decide (r < 16)
  | .cageDestroyComplete c => decide (c < 256)
  | .cageQuota f r => decide (f < 256) && decide (r < 16)
  | .frameScrubbed f => decide (f < 65536)
  | .demandZeroComplete c p => decide (c < 256) && decide (p < 65536)
  | .evictionComplete c p => decide (c < 256) && decide (p < 65536)
  | .restoreComplete c p => decide (c < 256) && decide (p < 65536)
  | .beatSlot g => decide (g < 16)
  | .streamPieceLanded _ _ => true
  | .programEnd g => decide (g < 16)
  | .gateLimitExpiry g => decide (g < 16)
  | .droopCrossing c => decide (c < 128)
  | .shadowAccessFail g => decide (g < 16)
  | .stackLineAccess line _ _ => decide (line < 2 ^ 31)
  | .stackReadout i _ => decide (i < 8)
  | .patrolScrubRead i _ => decide (i < 8)
  | .stackCeRateTimer i => decide (i < 8)
  | .scrubCtlLock _ => true
  | .stackTrainingEnd failed => decide (failed < 256)
  | .linkEnSet k _ => decide (k < 16)
  | .linkEnClear k _ => decide (k < 16)
  | .laneStartupComplete k failed => decide (k < 16) && decide (failed < 256)
  | .hello k flit => decide (k < 16) && decide (flit.length = 64)
  | .linkTrainingTimeout k => decide (k < 16)
  | .linkRetryTimer k => decide (k < 16)
  | .codewordPairUncorrectable k => decide (k < 16)
  | .dataFlitReceived k flit => decide (k < 16) && decide (flit.length = 64)
  | .lctlReceived k flit => decide (k < 16) && decide (flit.length = 64)
  | .replayTimeout k => decide (k < 16)
  | .nakHoldoffExpiry k => decide (k < 16)
  | .flitSlotTransmit k => decide (k < 16)
  | .auditSend k => decide (k < 16)
  | .laneLockLost k => decide (k < 16)
  | .fastRetrainComplete k => decide (k < 16)
  | .fastRetrainTimeout k => decide (k < 16)
  | .peerSilentTimeout k => decide (k < 16)
  | .mwrite k => decide (k < 16)
  | .mwriteLinesAcked k => decide (k < 16)
  | .mread k => decide (k < 16)
  | .mreadDataReady k => decide (k < 16)
  | .mdata k => decide (k < 16)
  | .mack k => decide (k < 16)
  | .vcMemTimeout k _ => decide (k < 16)
  | .linkErrRateTimer k _ => decide (k < 16)
  | .collGroupCreate f r => decide (f < 256) && decide (r < 16)
  | .collGroupDestroy f r => decide (f < 256) && decide (r < 16)
  | .collBufRegister f r => decide (f < 256) && decide (r < 16)
  | .reduceScatter f r => decide (f < 256) && decide (r < 16)
  | .allGather f r => decide (f < 256) && decide (r < 16)
  | .groupHello k => decide (k < 16)
  | .groupHelloResend h => decide (h < 64)
  | .groupAck k => decide (k < 16)
  | .keyOffer k => decide (k < 16)
  | .groupBye k => decide (k < 16)
  | .collWaitExpiry h what i => decide (h < 64) && decide (what < 3) && decide (i < 16)
  | .collOpStart h => decide (h < 64)
  | .bindStartWaitEnd h => decide (h < 64)
  | .bindSourceGateMet h => decide (h < 64)
  | .opReady k => decide (k < 16)
  | .chunkStart q => decide (q < 4)
  | .collData k vc => decide (k < 16) && decide (vc < 2)
  | .chunkEnd k vc => decide (k < 16) && decide (vc < 2)
  | .chunkCheck h j _ => decide (h < 64) && decide (j < 4)
  | .chunkAck k => decide (k < 16)
  | .opAbort k => decide (k < 16)
  | .collProgressTimeout h k => decide (h < 64) && decide (k < 16)
  | .collDrainComplete h => decide (h < 64)
  | .pmbusRead reads => decide (reads.length = 6)
  | .railAtLevel j => decide (j < 16)
  | .lockOriginSilent lock origin => decide (lock < 2 ^ 32) && decide (origin < 2 ^ 64)
  | .lockEntryExpiry lock origin => decide (lock < 2 ^ 32) && decide (origin < 2 ^ 64)
  | .lockQueueSend k => decide (k < 16)
  | .dieSensorSample xs => decide (xs.length = 16)
  | .coolantSensorSample _ => true
  | .humiditySample _ _ _ => true
  | .sensorValidAgain i => decide (i < 33)
  | .probeDisagree i => decide (i = 24 ∨ i = 26)
  | .zoneRecovery z => decide (z < 6)
  | .thresholdDwellExpiry t => decide (t < 12)
  | .thermalTimeout j => decide (j < 16)
  | .bemfZeroCrossing _ ma => decide (ma.length = 3)
  | .speedLoop _ => true
  | .diagPulse ma => decide (ma.length = 3)
  | .tapeLoopCheck _ => true
  | .wlDetectSample _ => true
  | .joinListenEnd b => decide (b < 2)
  | .rxFifoDrain b => decide (b < 2)
  | .rxOverflow b => decide (b < 2)
  | .busMessagePhase b msg => decide (b < 2) && decide (msg < 256)
  | .frameSent b => decide (b < 2)
  | .txExpiry b i => decide (b < 2) && decide (i < 12)
  | .canError b txErr rxErr => decide (b < 2) && decide (txErr ≤ 256) && decide (rxErr ≤ 256)
  | .busOffWaitExpiry b => decide (b < 2)
  | .busOffRecovered b => decide (b < 2)
  | .leakAlert b fr => decide (b < 2) && decide (fr.id < 2 ^ 29 ∧ fr.data.length ≤ 64)
  | .tripNotice b fr => decide (b < 2) && decide (fr.id < 2 ^ 29 ∧ fr.data.length ≤ 64)
  | .stageAlarm b fr => decide (b < 2) && decide (fr.id < 2 ^ 29 ∧ fr.data.length ≤ 64)
  | .rackAlert b fr => decide (b < 2) && decide (fr.id < 2 ^ 29 ∧ fr.data.length ≤ 64)
  | .claimCmd b fr => decide (b < 2) && decide (fr.id < 2 ^ 29 ∧ fr.data.length ≤ 64)
  | .wardenHb b fr => decide (b < 2) && decide (fr.id < 2 ^ 29 ∧ fr.data.length ≤ 64)
  | .stageStatus b fr => decide (b < 2) && decide (fr.id < 2 ^ 29 ∧ fr.data.length ≤ 64)
  | .sync b fr => decide (b < 2) && decide (fr.id < 2 ^ 29 ∧ fr.data.length ≤ 64)
  | .moduleBudget b fr => decide (b < 2) && decide (fr.id < 2 ^ 29 ∧ fr.data.length ≤ 64)
  | .alloc b fr => decide (b < 2) && decide (fr.id < 2 ^ 29 ∧ fr.data.length ≤ 64)
  | .rackBudget b fr => decide (b < 2) && decide (fr.id < 2 ^ 29 ∧ fr.data.length ≤ 64)
  | .moduleTelem b fr => decide (b < 2) && decide (fr.id < 2 ^ 29 ∧ fr.data.length ≤ 64)
  | .rackTelem b fr => decide (b < 2) && decide (fr.id < 2 ^ 29 ∧ fr.data.length ≤ 64)
  | .mirror b fr => decide (b < 2) && decide (fr.id < 2 ^ 29 ∧ fr.data.length ≤ 64)
  | .nodeAnnounce b fr => decide (b < 2) && decide (fr.id < 2 ^ 29 ∧ fr.data.length ≤ 64)
  | .announceReq b fr => decide (b < 2) && decide (fr.id < 2 ^ 29 ∧ fr.data.length ≤ 64)
  | .busSleep b fr => decide (b < 2) && decide (fr.id < 2 ^ 29 ∧ fr.data.length ≤ 64)
  | .busWake b fr => decide (b < 2) && decide (fr.id < 2 ^ 29 ∧ fr.data.length ≤ 64)
  | .makerFrame b fr => decide (b < 2) && decide (fr.id < 2 ^ 29 ∧ fr.data.length ≤ 64)
  | .busCountsTimer b => decide (b < 2)
  | .mbxSelect v => decide (v < 256)
  | .leakResponseDelay b => decide (b < 2)
  | .wlState lane seq _ payload => decide (lane < 2) && decide (seq < 65536) && decide (payload.length ≤ 1024)
  | .wlMirror lane seq _ payload => decide (lane < 2) && decide (seq < 65536) && decide (payload.length ≤ 1024)
  | .handover lane seq _ payload => decide (lane < 2) && decide (seq < 65536) && decide (payload.length ≤ 1024)
  | .handoverAck lane seq _ payload => decide (lane < 2) && decide (seq < 65536) && decide (payload.length ≤ 1024)
  | .keepalive lane seq _ payload => decide (lane < 2) && decide (seq < 65536) && decide (payload.length ≤ 1024)
  | .wlLaneDown lane => decide (lane < 2)
  | .mctpSmbusPacket packet => decide (packet.length ≤ 68)
  | .storeComplete _ => true
  | .traceCtlEnWrite _ => true
  | .w1cWrite f off _ => decide (f < 256) && decide (off = 0x014 ∨ off = 0x100)
  | .lockedWrite off _ => decide (off < 2 ^ 20 ∧ off % 4 = 0)
  | .badSizeWindowAccess f _ _ => decide (f < 256)
  | .registerWrite f _ _ _ => decide (f < 256)
  | .ecrcError f _ => decide (f < 256)
  | .malformedFrame b _ fr => decide (b < 2) && decide (fr.id < 2 ^ 29 ∧ fr.data.length ≤ 64)
  | .auxBrownOut => true
  | .stewardWatchdogExpiry => true
  | .stewardBootComplete => true
  | .returnEraseComplete => true
  | .pciePerstAssert => true
  | .pciePerstDeassert => true
  | .hotReset => true
  | .dlDown => true
  | .dieTrip => true
  | .leakTapeWet => true
  | .dieComparatorDeassert => true
  | .releasedModeClear => true
  | .unsolicitedMain => true
  | .mainSupplyInRating => true
  | .mainSupplyTimeout => true
  | .regulatorsInRegulation => true
  | .mainPlanesReady => true
  | .mainRetryTimer => true
  | .mainLost => true
  | .mainOff => true
  | .mainOffRelease => true
  | .heatDumpEnd => true
  | .a1StaleTimeout => true
  | .a2WindowClose => true
  | .innerStep => true
  | .a6RecordDelivered => true
  | .mirrorRegisterRefresh => true
  | .offer => true
  | .hold => true
  | .release => true
  | .refuse => true
  | .withdraw => true
  | .startMessage => true
  | .endMessage => true
  | .policyMessage => true
  | .policyAck => true
  | .controlPlaneReady => true
  | .vfEnableSet => true
  | .vfEnableClear => true
  | .vfRrsEnd => true
  | .uncorrectableInternalError => true
  | .aspmL1Entry => true
  | .admitQueueServed => true
  | .pageBookTimer => true
  | .collErrCountTimer => true
  | .outerUpdate => true
  | .derateUpdate => true
  | .setCap => true
  | .setMode => true
  | .lockPermit => true
  | .countersNow => true
  | .logReplay => true
  | .powerPolicyStore => true
  | .lockJoin => true
  | .lockDemand => true
  | .lockLeave => true
  | .pwrStatusTimer => true
  | .pwrLockStatusTimer => true
  | .throttleCountersTimer => true
  | .pwrDroopTimer => true
  | .thermalDemandUpdate => true
  | .coolantDemandUpdate => true
  | .dewMarginDwell => true
  | .breachCheck => true
  | .setAdmit => true
  | .setBreach => true
  | .heatNow => true
  | .heatStatusTimer => true
  | .moduleCycle => true
  | .kickTimeout => true
  | .stallDetect => true
  | .pumpOvercurrent => true
  | .stallRetry => true
  | .ageingEvaluation => true
  | .baselinePoint => true
  | .reverseFlowDetect => true
  | .lowFlowDetect => true
  | .setPumpMode => true
  | .setSpeed => true
  | .setFlowLimits => true
  | .setRamp => true
  | .setFluid => true
  | .baseline => true
  | .clearLeak => true
  | .pumpNow => true
  | .pumpStatusTimer => true
  | .syncHoldover => true
  | .rowBusDominantWake => true
  | .mbxWord0Read => true
  | .mbxWord17Read => true
  | .mbxLockTimeout => true
  | .wardenStartActive => true
  | .standbyEvaluation => true
  | .rackCycle => true
  | .rowCycle => true
  | .rowAllocSilence => true
  | .handoverTimeout => true
  | .mirrorTimer => true
  | .canaryTestExpiry => true
  | .fabricAlert => true
  | .commission => true
  | .decommission => true
  | .setStageMap => true
  | .setBudget => true
  | .setExchange => true
  | .setSlew => true
  | .setLeak => true
  | .slotValve => true
  | .slotRelease => true
  | .canarySwap => true
  | .leakReset => true
  | .wardNow => true
  | .wardStatusTimer => true
  | .setEndpointId => true
  | .getEndpointId => true
  | .getEndpointUuid => true
  | .getMctpVersionSupport => true
  | .getMessageTypeSupport => true
  | .unsupportedMctpControl => true
  | .getTid => true
  | .setTid => true
  | .getPldmVersion => true
  | .getPldmTypes => true
  | .getPldmCommands => true
  | .setEventReceiver => true
  | .getPdrRepositoryInfo => true
  | .getPdr => true
  | .getSensorReading => true
  | .getStateSensorReadings => true
  | .setNumericEffecterValue => true
  | .getNumericEffecterValue => true
  | .setStateEffecterStates => true
  | .getStateEffecterStates => true
  | .unsupportedPldm => true
  | .pldmEventSend => true
  | .pldmEventResponse => true
  | .pldmEventRetry => true
  | .smbusAlertResponse => true
  | .fwWrite => true
  | .fwVerify => true
  | .fwActivate => true
  | .getNonce => true
  | .nonceExpiry => true
  | .ownerEnrol => true
  | .returnRequest => true
  | .retireRequest => true
  | .debugUnlock => true
  | .makerTransition => true
  | .setHostSilent => true
  | .storeHold => true
  | .busOrder => true
  | .mgmtNow => true
  | .hostSilenceTimeout => true
  | .storeStart => true
  | .mgmtStatusTimer => true
  | .leakTapeDry => true
  | .tripSourcesClean => true
  | .receiverError => true
  | .correctedInternalError => true
  | .malformedTlp => true

end Sys2Proof
end

