-- ==== Sys2Proof/Decode.lean ====
section
/-! DEFINITION. The command that a word spells. The spec gives the block's commands no encoding: they are events, messages and accesses, and
no row of the table of commands has bits. -/

namespace Sys2Proof

/-- No row gives bits, so no word spells a command. -/
def decodeTableWord (nbits w : Nat) : Option Instr :=
  match nbits, w with
  | _, _ => none

end Sys2Proof
end

