-- ==== Sys2Proof/Config.lean ====
section
/-! DEFINITION. What the spec leaves open: the free values, which nothing in Lean can evaluate. -/

namespace Sys2Proof

/-- The n-th value the module draws where the spec leaves a value open, w bits wide (log entry 2).
It has no body, so a claim that holds for it holds for every choice of the open values. -/
opaque Config.freeValue (w n : Nat) : BitVec w

/-- A ratio whose divisor is 0, which the rules leave open: 0 the bubble share of a window without power (R496), 1 a group's share of k in a window
without stream beats or clusters (R546), 2 the breach target of a group without power or reference (R553), 3 the duty over an expected duty of 0 (R579)
(log entry 88). -/
opaque Config.zeroRatio (what j : Nat) : BitVec 8

/-- Whether ROTATE moves lane l to lane l + B (true) or lane l + B to lane l (false): the spec names the operation and not its direction
(Table BEAT-7, log entry 30). -/
opaque Config.rotateUp : Bool

/-- SHA-384 of a byte string (R682, R714): the cited standard's function, uninterpreted here (log entry 31). -/
opaque Config.sha384 (bs : Bytes) : BitVec 384

/-- ECDSA P-384 verification of a signature over a digest under a public key (R682, R716), uninterpreted here (log entry 31). -/
opaque Config.p384Verify (key : Bytes) (digest : BitVec 384) (signature : Bytes) : Bool

/-- Whether a firmware slot's content is an image signed by Arveard (R682, R683): the image format is the firmware's own (log entry 31). -/
opaque Config.imageGood (image : List (Nat × Byte)) : Bool

/-- The length, sequence number and version that an image states of itself (R683, log entry 31). -/
opaque Config.imageLength (image : List (Nat × Byte)) : Nat
opaque Config.imageSeq (image : List (Nat × Byte)) : Nat
opaque Config.imageVersion (image : List (Nat × Byte)) : Nat

/-- The 16 bytes of the endpoint UUID of the module with this serial number (R687, log entry 70). -/
opaque Config.uuid (dsn : Nat) : BitVec 128

/-- The version bytes answered for an MCTP message type and for a PLDM type (R687, R690, log entry 70). -/
opaque Config.mctpVersions (type : Nat) : Bytes
opaque Config.pldmVersions (type : Nat) : Bytes

/-- The bytes of a PDR apart from the identity of R691, by record handle, in the form of DSP0248 (R691, log entry 70). -/
opaque Config.pdrBytes (handle : Nat) : Bytes

end Sys2Proof
end

