-- ==== Sys2Proof/Machine/State.lean ====
section
/-! DEFINITION. The machine's state: plain data, everything the spec gives the module, each field with its rule and its reset value. -/

namespace Sys2Proof.Machine

/-! ### Host link -/

/-- The PCIe errors the device handles (Table HOST-7, R152). -/
inductive AerErr where
  | receiverError
  | correctedInternal
  | poisonedTlp
  | completionTimeout
  | ecrcError
  | unsupportedRequest
  | unexpectedCompletion
  | malformedTlp
  | uncorrectableInternal
  deriving DecidableEq, Repr

/-- Why a doorbell-line read was issued (R172, R176). -/
inductive DblKind where
  | poll
  | lnMessage
  | backstop
  deriving DecidableEq, Repr

/-- A doorbell-line read in flight; a discarded one draws no effect (R138). -/
structure DblRead where
  kind : DblKind
  discard : Bool
  deriving DecidableEq, Repr

/-- One MSI-X table entry with its pending bit (R139, R142). -/
structure Vec where
  /-- Message address, written by the host (R132, R144); reset 0 -/
  addr : W64 := 0
  /-- Message data (R132); reset 0 -/
  data : W32 := 0
  /-- Vector mask bit (R142); reset 1 (log entry 12) -/
  masked : Bool := true
  /-- Pending bit (R142); reset 0 -/
  pending : Bool := false
  deriving DecidableEq, Repr

/-- One function: its configuration bits, its HOST registers and its doorbell poller. -/
structure Fn where
  /-- The function exists (R121, R124); reset: only the PF -/
  present : Bool := false
  /-- Memory Space Enable (R157); reset 0 -/
  mse : Bool := false
  /-- Bus Master Enable (R160); reset 0 -/
  bme : Bool := false
  /-- MSI-X Enable (R143); reset 0 -/
  msixEn : Bool := false
  /-- MSI-X Function Mask (R142); reset 0 -/
  fnMask : Bool := false
  /-- ATS Enable (R146); reset 0 -/
  atsEn : Bool := false
  /-- LNR Enable (R175); reset 0 -/
  lnrEn : Bool := false
  /-- LNR Registration Limit (R175); reset 0 -/
  lnrLimit : Nat := 0
  /-- Completion Timeout in µs (R114); reset 50,000 -/
  cplTimeoutUs : Nat := 50000
  /-- ECRC check enabled (R152); reset 0 -/
  ecrc : Bool := false
  /-- In D3hot (R159); reset D0 -/
  d3 : Bool := false
  /-- Function reset in progress (R156); reset none -/
  flr : Bool := false
  /-- D3hot is entered when the running reset completes (R159); reset none -/
  d3Pending : Bool := false
  /-- VF completes configuration requests with RRS (R125); reset none -/
  rrs : Bool := false
  /-- AER correctable errors logged (R152); reset none -/
  aerCor : List AerErr := []
  /-- AER uncorrectable errors logged (R152); reset none -/
  aerUnc : List AerErr := []
  /-- AER header records, up to 4 (R114); reset none -/
  aerHdr : List AerErr := []
  /-- HOST.DBL_ADDR, bits [5:0] zero (R135, R136); reset 0 -/
  dblAddr : W64 := 0
  /-- HOST.DBL_CTL.EN (R135); reset 0 -/
  dblEn : Bool := false
  /-- HOST.DBL_CTL.LN (R135); reset 0 -/
  dblLn : Bool := false
  /-- HOST.DBL_CTL.HOT_HOLD (R135); reset 0 -/
  hotHold : Bool := false
  /-- HOST.SETUP_ERR.SIZE (R130); reset 0 -/
  errSize : Bool := false
  /-- HOST.SETUP_ERR.DBL_FAULT (R137, R174); reset 0 -/
  errDbl : Bool := false
  /-- HOST.SETUP_ERR.LN_FALLBACK (R178); reset 0 -/
  errLn : Bool := false
  /-- HOST.SETUP_ERR.ARI (R123); reset 0 -/
  errAri : Bool := false
  /-- Reading of the line has started (R170); reset not -/
  reading : Bool := false
  /-- Poll interval in half microseconds: 1, 2, 4, 8 or 16 (R170); reset 16, set at each start -/
  interval : Nat := 16
  /-- Quiet reads at this interval (R170); reset 0 -/
  quiet : Nat := 0
  /-- Previous index of each ring (R170); reset 0 -/
  prev : Tbl W32 := []
  /-- Doorbell-line reads in flight, oldest first (R138, R793); reset none -/
  readsOut : List DblRead := []
  /-- A doorbell read waits for a reserved tag (R793); reset none -/
  tagWait : Option DblKind := none
  /-- Consecutive failed doorbell reads (R174); reset 0 -/
  fails : Nat := 0
  /-- Reverted from LN to polling until DBL_CTL.LN is written (R178); reset not -/
  lnFell : Bool := false
  /-- Times of the LN misses of the last second, newest first (R178); reset none -/
  lnMiss : List Nat := []
  /-- An LN Message has announced a change since the last read (R178); reset not -/
  lnAnnounced : Bool := false
  /-- The line is registered by an LN Read (R176); reset not -/
  lnRegistered : Bool := false
  /-- MSI-X vectors (R139); reset entries masked -/
  vecs : Tbl Vec := []
  deriving DecidableEq, Repr

/-- One translation held by the ATC (R147). -/
structure AtcEntry where
  fn : Nat
  base : Nat
  log2 : Nat
  target : W64
  rd : Bool
  wr : Bool
  deriving DecidableEq, Repr

/-- What a host request serves. -/
inductive Why where
  | copyIn (ctx off : Nat)
  | copyOut (ctx off : Nat)
  | hostWrite (ctx : Nat)
  | completion (ctx : Nat)
  | report (fn : Nat)
  | doorbell (fn : Nat) (kind : DblKind)
  | descr (slot : Nat)
  | restore (cage page : Nat)
  | evict (cage page : Nat)
  | shadowRd (stream piece : Nat)
  | shadowWr (stream piece : Nat)
  /-- A read of a function that has been reset: its completion is discarded (R156). -/
  | discarded
  deriving DecidableEq, Repr

/-- A request to host memory that waits for its translation or for its completion (R146, R148). -/
structure HReq where
  id : Nat
  fn : Nat
  addr : W64
  len : Nat
  wr : Bool
  why : Why
  /-- It waits for a Translation Completion. -/
  xl : Bool
  deriving DecidableEq, Repr

/-- A posted write given to the link: its bytes, and the context whose completion record it carries (R211). -/
structure Tlp where
  fn : Nat
  addr : W64
  data : Bytes
  ctx : Option Nat := none
  /-- The page, as 65,536 × cage + page, whose eviction it carries (R259). -/
  page : Option Nat := none
  deriving DecidableEq, Repr

/-- An ATS Invalidate Request in progress (R149). -/
structure Inval where
  fn : Nat
  base : Nat
  log2 : Nat
  deriving DecidableEq, Repr

/-- How a configuration or memory request was answered (R163). -/
inductive CfgReply where
  | ok
  | rrs
  | ur
  deriving DecidableEq, Repr

/-- The PCIe endpoint and its functions. -/
structure HostLink where
  /-- The functions by number (R121); reset: the PF alone -/
  fns : Tbl Fn := [(0, { present := true })]
  /-- ARI Capable Hierarchy of the PF (R123); reset 0 -/
  ari : Bool := false
  /-- NumVFs of the SR-IOV capability (R122); reset 0 -/
  numVfs : Nat := 0
  /-- VF Enable (R123); reset 0 -/
  vfEn : Bool := false
  /-- VF Memory Space Enable (R122); reset 0 -/
  vfMse : Bool := false
  /-- ASPM L1 enabled (R161); reset 0 -/
  aspmL1 : Bool := false
  /-- 10-bit tags enabled (R114); reset 0 -/
  tags10 : Bool := false
  /-- The link is up (R162); reset down -/
  linkUp : Bool := false
  /-- The link is in L1 (R161); reset not -/
  inL1 : Bool := false
  /-- The control plane is ready: no more RRS (R163); reset not -/
  ready : Bool := false
  /-- Fetching stopped by an uncorrectable internal error (R152); reset not -/
  fetchStopped : Bool := false
  /-- Address translation cache, most recently used first, up to 2,048 entries (R147); reset empty -/
  atc : List AtcEntry := []
  /-- Requests waiting for a translation or a completion, oldest first (R148); reset none -/
  reqs : List HReq := []
  /-- The number of the next request, the model's own name for a tag; reset 0 -/
  nextReq : Nat := 0
  /-- Invalidations in progress (R149); reset none -/
  invals : List Inval := []
  /-- Posted writes sent and not yet acknowledged by an Ack DLLP, oldest first (R211, R792); reset none -/
  tx : List Tlp := []
  /-- The answer to the newest request the host made (R163); reset none -/
  reply : Option CfgReply := none
  deriving DecidableEq, Repr

/-! ### Rings, slots and contexts -/

/-- A field of a record's body: byte offset, length in bytes, value. -/
abbrev Fld := Nat × Nat × Nat

/-- A report record before it is numbered by a report ring (R220). -/
structure Rec where
  kind : Nat
  cage : Nat
  source : Nat
  rowTime : RowTime
  body : List Fld
  deriving DecidableEq, Repr

/-- The set-up values of a ring (Table RING-1). -/
structure RingCfg where
  /-- SQ_BASEi; for a report ring, RPT_BASE (R183); reset 0 -/
  sq : W64 := 0
  /-- CQ_BASEi (R183); reset 0 -/
  cq : W64 := 0
  /-- SIZE (R184); reset 6 -/
  size : Nat := 6
  /-- VECTOR (R184); reset 0 -/
  vector : Nat := 0
  /-- COAL_CNT (R218); reset 0 -/
  coalCnt : Nat := 0
  /-- COAL_TIME (R218); reset 0 -/
  coalTime : Nat := 0
  deriving DecidableEq, Repr

/-- One command ring: registers and ring-state table entry. -/
structure Ring where
  /-- RING.CFGi.EN (R183); reset 0 -/
  en : Bool := false
  /-- Registers SQ_BASEi, CQ_BASEi and CFGi (R183); reset 0, SIZE 6 -/
  reg : RingCfg := {}
  /-- Values taken at the last setting of EN (R186); reset 0, SIZE 6 -/
  taken : RingCfg := {}
  /-- Producer index P (R187); reset 0 -/
  p : W32 := 0
  /-- Fetch count F (R185); reset 0 -/
  f : W32 := 0
  /-- Completion count W (R185); reset 0 -/
  w : W32 := 0
  /-- Completions with IRQ not yet announced (R218); reset 0 -/
  unann : Nat := 0
  /-- The COAL_TIME timer runs (R218); reset not -/
  coalRun : Bool := false
  /-- Since when the ring waits for a slot, in scheduling order (R207); reset not -/
  waiting : Option Nat := none
  deriving DecidableEq, Repr

/-- One report ring. -/
structure Rpt where
  /-- RING.RPT_CFG.EN (R183); reset 0 -/
  en : Bool := false
  /-- Registers RPT_BASE and RPT_CFG (R183); reset 0, SIZE 6 -/
  reg : RingCfg := {}
  /-- Values taken at the last setting of EN (R186); reset 0, SIZE 6 -/
  taken : RingCfg := {}
  /-- SEQ of the next record (R220); reset 0 -/
  seq : W32 := 0
  /-- Records not yet announced (R218); reset 0 -/
  unann : Nat := 0
  /-- The COAL_TIME timer runs (R218); reset not -/
  coalRun : Bool := false
  /-- RING.SETUP_ERR.SIZE (R184); reset 0 -/
  errSize : Bool := false
  /-- RING.SETUP_ERR.VECTOR (R184); reset 0 -/
  errVector : Bool := false
  /-- RING.SETUP_ERR.BASE (R184); reset 0 -/
  errBase : Bool := false
  deriving DecidableEq, Repr

/-- The life of a slot (R204). -/
inductive SlotSt where
  | free
  | loading
  | bound
  | swapping
  deriving DecidableEq, Repr

/-- One ring slot (R203). -/
structure Slot where
  /-- Free, loading its ring's state, bound, or swapping out (R204); reset free -/
  st : SlotSt := .free
  /-- The ring bound, 16 × function + ring (R202); reset 0 -/
  ring : Nat := 0
  /-- Prefetched descriptors with their numbers, oldest first (R203); reset none -/
  buf : List (W32 × Bytes) := []
  /-- The descriptor read in flight: first number and count (R203); reset none -/
  rd : Option (W32 × Nat) := none
  /-- The descriptor whose read failed, to end FETCH_FAIL (R223); reset none -/
  failAt : Option W32 := none
  /-- The ring has been bound for 50 µs (R207); reset not -/
  fifty : Bool := false
  /-- Binding order (R207); reset 0 -/
  boundOrd : Nat := 0
  /-- Idle since, in scheduling order (R207); reset not -/
  idleOrd : Option Nat := none
  /-- Blocked since, in scheduling order (R207); reset not -/
  blockOrd : Option Nat := none
  deriving DecidableEq, Repr

/-- The life of a command context (R211). -/
inductive CtxPh where
  /-- The context is free. -/
  | free
  /-- The command prepares pages, or waits on a pin, on zeroing or on stack training. -/
  | prep
  /-- Transfers are in progress. -/
  | moving
  /-- Another unit holds the command (event wait, admission, collective, policy, teardown). -/
  | held
  /-- Everything is done; the completion record is still to be written. -/
  | ending
  /-- The completion write waits for its translation. -/
  | translating
  /-- The completion has been written and waits for its Ack DLLP. -/
  | written
  /-- A function reset took the command; the context is freed at the reset's end (R224). -/
  | dropped
  deriving DecidableEq, Repr

/-- One of the 512 command contexts (R211). -/
structure Ctx where
  /-- Where the command stands (R211); reset free -/
  ph : CtxPh := .free
  /-- The ring it came from, 16 × function + ring (R211); reset 0 -/
  ring : Nat := 0
  /-- Descriptor number (R196); reset 0 -/
  index : W32 := 0
  /-- TAG (R190); reset 0 -/
  tag : W64 := 0
  /-- OPCODE (R190); reset 0 -/
  op : Nat := 0
  /-- IRQ bit (R190); reset 0 -/
  irq : Bool := false
  /-- The descriptor's 64 bytes (R190); reset none -/
  desc : Bytes := []
  /-- STATUS of the completion (R198); reset 0 -/
  status : Nat := 0
  /-- DETAIL of the completion (R198); reset 0 -/
  detail : Nat := 0
  /-- RESULT of the completion (R196); reset 0 -/
  result : Nat := 0
  /-- Bytes of the transfer already moved (R209); reset 0 -/
  moved : Nat := 0
  /-- Pages of its cage that the command uses (R244, R256); reset none -/
  pages : List Nat := []
  /-- Pages among them that it writes (R217); reset none -/
  wrPages : List Nat := []
  /-- It waits for a page pinned by a running program (R217); reset not -/
  pinWait : Bool := false
  /-- It waits for stack training to end (R385); reset not -/
  trainWait : Bool := false
  /-- Its pages have been planned (R258); reset not -/
  planned : Bool := false
  /-- Contexts whose completions must be written first (R352); reset none -/
  after : List Nat := []
  deriving DecidableEq, Repr

/-- The ring engine: rings, slots, contexts, schedulers, report writer. -/
structure Rings where
  /-- Command rings by 16 × function + ring (R183, R204); reset off -/
  rings : Tbl Ring := []
  /-- Report rings by function (R183); reset off -/
  rpts : Tbl Rpt := []
  /-- The 32 slots (R202); reset free -/
  slots : Tbl Slot := []
  /-- The 512 command contexts (R211); reset free -/
  ctxs : Tbl Ctx := []
  /-- Event counters by 64 × cage + number (R193); reset 0 -/
  events : Tbl W64 := []
  /-- Issue deficit of each cage (R208); reset 0 -/
  deficit : Tbl Nat := []
  /-- The cage whose visit is in progress (R208); reset 0 -/
  drrCage : Nat := 0
  /-- The visit has already had its weight added (R208); reset not -/
  drrOpen : Bool := false
  /-- The ring each cage served last, plus 1 (R208); reset 0 -/
  turn : Tbl Nat := []
  /-- Scheduling order counter, the model's own (R207); reset 0 -/
  ord : Nat := 0
  /-- Control-plane records waiting in the report writer, with the function of their ring (R160); reset none -/
  rptWait : List (Nat × Rec) := []
  /-- Records lost for want of a report ring, saturating (R221); reset 0 -/
  lost : Nat := 0
  /-- MCTP packets discarded since the last record (R182); reset 0 -/
  mctpDropped : Nat := 0
  /-- Records displaced in the A6 gateway, as the newest delivered record told (R50); reset 0 -/
  a6Displaced : Nat := 0
  /-- POLICY commands without an acknowledgement, tag and context (R195); reset none -/
  policies : List (Nat × Nat) := []
  /-- The next A3 policy tag (R37); reset 0 -/
  policyTag : BitVec 16 := 0
  deriving DecidableEq, Repr

/-! ### Cages, pages, frames and admissions -/

/-- The state of a cage (Table CAGE-1, R227). -/
inductive CageSt where
  | absent
  | dormant
  | active
  | ending
  deriving DecidableEq, Repr

/-- One cage: its state, quotas, weights and backing pool. -/
structure Cage where
  /-- State (R227); reset ABSENT, cage 0 ACTIVE -/
  st : CageSt := .absent
  /-- PAGE_GUAR (R230); reset 0 -/
  guar : Nat := 0
  /-- PAGE_LIMIT (R230); reset 0, cage 0 65,536 -/
  limit : Nat := 0
  /-- CLUSTER_LIMIT (R230); reset 0, cage 0 128 -/
  clusLimit : Nat := 0
  /-- GROUP_LIMIT (R230); reset 0, cage 0 16 -/
  groupLimit : Nat := 0
  /-- COLL_LIMIT (R230); reset 0, cage 0 64 -/
  collLimit : Nat := 0
  /-- SHADOW_OK (R230); reset 0, cage 0 1 -/
  shadowOk : Bool := false
  /-- Weight (R206, R229); reset 16, cage 0 64 -/
  weight : Nat := 16
  /-- Context limit (R211, R229); reset 64 -/
  ctxLimit : Nat := 64
  /-- Backing pool address (R251); reset none -/
  poolBase : W64 := 0
  /-- Backing pool slots, 0 without a pool (R251); reset 0 -/
  poolSlots : Nat := 0
  /-- The pool is faulted (R261); reset not -/
  poolFaulted : Bool := false
  /-- The CAGE_DESTROY in progress (R236); reset none -/
  destroyCtx : Option Nat := none
  deriving DecidableEq, Repr

/-- The state of a page (Table CAGE-4, R243). -/
inductive PageSt where
  | unmapped
  | zero
  | resident
  | evicting
  | evicted
  | restoring
  deriving DecidableEq, Repr

/-- One page of a cage. -/
structure Page where
  /-- State (R243); reset UNMAPPED -/
  st : PageSt := .unmapped
  /-- Frame held (R243); reset 0 -/
  frame : Nat := 0
  /-- Pool slot held or reserved by a plan (R259); reset none -/
  slot : Option Nat := none
  /-- Admissions that pin the page (R245); reset 0 -/
  pins : Nat := 0
  /-- Sticky (R245); reset not -/
  sticky : Bool := false
  /-- Poison mark of the page-table entry (R378); reset not -/
  poison : Bool := false
  /-- Touch time in ms (R246); reset 0 -/
  touch : Nat := 0
  /-- Claimed by a PAGE_UNMAP (R250); reset not -/
  claimed : Bool := false
  /-- Mapped again by a later PAGE_MAP while the claim still drains: its STICKY flag (R250); reset none -/
  remap : Option Bool := none
  /-- Its frame is being zeroed on demand (R254); reset not -/
  zeroing : Bool := false
  /-- In the spill set of a running shadow program, no restore allowed (R281); reset not -/
  spilled : Bool := false
  deriving DecidableEq, Repr

/-- The state of a frame (R253, R263). -/
inductive FrameSt where
  | dirty
  | clean
  | held (cage page : Nat)
  | transit (cage page : Nat)
  deriving DecidableEq, Repr

/-- An eviction or a restore of a plan (R259, R260). -/
structure Move where
  cage : Nat
  page : Nat
  /-- True for an eviction, false for a restore. -/
  evict : Bool
  /-- The plan that asked for it. -/
  plan : Nat
  /-- Bytes written or read so far. -/
  off : Nat := 0
  /-- It is among the 32 that run (R260). -/
  running : Bool := false
  /-- The page holds no frame: a ZERO page of a spill set is written to its slot as zeros (R281). -/
  zeros : Bool := false
  deriving DecidableEq, Repr

/-- A page plan that has been met on paper and still moves pages (R258). -/
structure Plan where
  id : Nat
  ctx : Nat
  cage : Nat
  /-- Pages of the requester that still wait for a frame. -/
  need : List Nat
  /-- Pages evicted so far, by victim cage (R285). -/
  evicted : Tbl Nat := []
  /-- Frames kept for pages of the requester that are still being evicted, by page. -/
  kept : Tbl Nat := []
  deriving DecidableEq, Repr

/-- How far an admission has come (R267). -/
inductive AdmPh where
  /-- Waiting in the queue (R274). -/
  | queued
  /-- Step 4: pages move. -/
  | paging
  /-- Step 5: the program load runs and the OFFER is out. -/
  | loading
  /-- Step 7: the program runs, or its last transfers drain (R350, R351). -/
  | running
  deriving DecidableEq, Repr

/-- One admission (R265 to R277). -/
structure Adm where
  /-- The ADMIT's context, the admission's name -/
  ctx : Nat
  cage : Nat
  tag : W64
  ph : AdmPh
  /-- Clusters asked for, N (R327) -/
  n : Nat
  /-- Job frequency in force, 25 MHz units (R265) -/
  f : Nat
  /-- F was lowered by FLEX_F (R272) -/
  lowered : Bool := false
  /-- Lock-group identifier (R265) -/
  lock : Nat := 0
  /-- START_EVENT byte (R265) -/
  startEvent : Nat := 0
  /-- Beat group granted (R267) -/
  group : Nat := 0
  /-- Clusters granted, in logical order (R297) -/
  clusters : List Nat := []
  /-- The image as step 1 read it (R349) -/
  image : Bytes := []
  /-- Pages of W outside S, pinned (R278) -/
  w : List Nat := []
  /-- Pages of S (R278) -/
  spill : List Nat := []
  /-- Shadow residency taken (R280) -/
  shadow : Bool := false
  /-- RELEASE has been taken (R267) -/
  released : Bool := false
  /-- The load is complete (R349) -/
  loaded : Bool := false
  /-- OFFER sent and not answered with RELEASE or REFUSE (R277) -/
  offered : Bool := false
  /-- Time of START in ticks (R269) -/
  startAt : Nat := 0
  deriving DecidableEq, Repr

/-- The cage manager, page allocator and admission engine. -/
structure Cages where
  /-- The 256 cages (R227); reset: cage 0 as R231 gives, the others ABSENT -/
  cages : Tbl Cage := [(0, { st := .active, limit := 65536, clusLimit := 128, groupLimit := 16, collLimit := 64, shadowOk := true, weight := 64 })]
  /-- Pages by 65,536 × cage + page (R242); reset UNMAPPED -/
  pages : Tbl Page := []
  /-- Frames (R253, R263); reset dirty (R284) -/
  frames : Tbl FrameSt := []
  /-- Evictions and restores planned or running, oldest first (R260); reset none -/
  moves : List Move := []
  /-- Plans with pages still moving, oldest first (R258); reset none -/
  plans : List Plan := []
  /-- The next plan number, the model's own; reset 0 -/
  nextPlan : Nat := 0
  /-- Admissions, in issue order; the queue is those with phase queued (R274); reset none -/
  adms : List Adm := []
  /-- LOCK_PERMIT table: cage and LOCK value (R510); reset none -/
  permits : List (Nat × Nat) := []
  deriving DecidableEq, Repr

/-! ### Clusters and beat groups -/

/-- A 32-bit value with its poison (R292). -/
structure PW where
  v : W32 := 0
  psn : Bool := false
  deriving DecidableEq, Repr

/-- A weight load in progress (R339, R340). -/
structure WLoad where
  /-- Scratchpad address of the block. -/
  src : Nat
  fmt : Nat
  /-- Bytes read so far. -/
  got : Bytes := []
  psn : Bool := false
  /-- Another load of the same buffer was still running: the contents are open. -/
  mixed : Bool := false
  deriving DecidableEq, Repr

/-- One weight buffer of a matrix unit (R301). -/
structure WBuf where
  /-- The 3 KiB loaded; reset zeros -/
  data : Bytes := []
  /-- Poisoned bytes were loaded (R292); reset not -/
  psn : Bool := false
  /-- The FMT_B it was loaded with (R341); reset none -/
  fmt : Option Nat := none
  /-- The load in progress (R339); reset none -/
  load : Option WLoad := none
  deriving DecidableEq, Repr

/-- A loop entered and not yet left (R344). -/
structure LoopFrame where
  /-- Index of the LOOP_END bundle. -/
  at_ : Nat
  /-- Passes still to run after this one. -/
  left : Nat
  deriving DecidableEq, Repr

/-- One address register (R335). -/
structure AddrReg where
  v : BitVec 48 := 0
  stride : W32 := 0
  deriving DecidableEq, Repr

/-- One compute cluster. -/
structure Clus where
  /-- Beat group that holds it (R286, R238); reset none -/
  group : Option Nat := none
  /-- Released and not yet zeroed (R241); reset not -/
  scrubbing : Bool := false
  /-- Scratchpad bytes granted, SP_BYTES (R273); reset 0 -/
  spBytes : Nat := 0
  /-- LOAD_AT of its beat stream (R329); reset 0 -/
  loadAt : Nat := 0
  /-- Scratchpad, 2 MiB (R286); reset zeros -/
  sp : Mem := []
  /-- Poisoned 64-bit words of the scratchpad (R292); reset none -/
  spPsn : List Nat := []
  /-- Accumulators by ((unit × 8 + tile) × 64 + row) × 48 + column (R286); reset 0 -/
  acc : Tbl PW := []
  /-- Weight buffers by 2 × unit + buffer (R301); reset empty -/
  wbuf : Tbl WBuf := []
  /-- Vector registers by 32 × register + lane (R286); reset 0 -/
  vreg : Tbl PW := []
  /-- NSW (R316); reset 0 -/
  nsw : W32 := 0
  /-- Lane generator words (R315); reset 0 -/
  gens : Tbl W32 := []
  /-- Address registers AR0 to AR15 (R335); reset 0 -/
  ars : Tbl AddrReg := []
  /-- Arrival counters ARR0 to ARR31 (R345); reset 0 -/
  arrs : Tbl W32 := []
  /-- Bundle that issues next (R334); reset 0 -/
  pc : Nat := 0
  /-- Program beats still idle before it (R334); reset 0 -/
  idle : Nat := 0
  /-- The bundle fetched for the next issuing beat (R340); reset none -/
  fetched : Bytes := []
  /-- Loops active, innermost first, at most 4 (R344); reset none -/
  loops : List LoopFrame := []
  /-- Program beat from which each vector register may be used (R339); reset 0 -/
  vReady : Tbl Nat := []
  /-- Program beat from which each accumulator row quad may be read, by (unit × 8 + tile) × 16 + quad (R339); reset 0 -/
  accReady : Tbl Nat := []
  /-- Gate sample taken at the start of the slot before (R347); reset unmet -/
  gateOk : Bool := false
  /-- Program beat from which the lane generators may be used after a seed (R339); reset 0 -/
  genReady : Nat := 0
  /-- A stream unit has moved data since the last slot (R34); reset not -/
  moved : Bool := false
  /-- MX_BEATS of the open activity window (R34); reset 0 -/
  mxBeats : Nat := 0
  /-- VEC_BEATS of the open activity window (R34); reset 0 -/
  vecBeats : Nat := 0
  /-- STR_BEATS of the open activity window (R34); reset 0 -/
  strBeats : Nat := 0
  /-- STRETCH of the open activity window, saturating at 255 (R34); reset 0 -/
  stretch : Nat := 0
  deriving DecidableEq, Repr

/-- A stream transfer in flight (R342, R343). -/
structure Stream where
  id : Nat
  group : Nat
  /-- Logical cluster that issued it. -/
  lc : Nat
  /-- 1 RD, 2 WR, 3 PUT. -/
  op : Nat
  ctr : Nat
  sp : Nat
  x : Nat
  dest : Nat
  pieces : Nat
  /-- Pieces still to land. -/
  left : List Nat
  /-- Pieces whose host request under shadow residency has been made (R281). -/
  sent : List Nat := []
  /-- Pieces whose data a breach has left open (R358). -/
  loose : List Nat := []
  deriving DecidableEq, Repr

/-- The state of a beat group. -/
inductive GroupSt where
  /-- Held by no admission. -/
  | free
  /-- Granted and not started (R325). -/
  | granted
  /-- Running its slots. -/
  | running
  /-- Stopped at a slot's end; waits for transfers (R350, R351). -/
  | stopped
  deriving DecidableEq, Repr

/-- One of the 16 beat groups of the beat fabric. -/
structure Group where
  /-- State (R325); reset free -/
  st : GroupSt := .free
  /-- The ADMIT's context; reset 0 -/
  ctx : Nat := 0
  /-- Its cage (R238); reset 0 -/
  cage : Nat := 0
  /-- Job frequency in 25 MHz units (R269); reset 0 -/
  f : Nat := 0
  /-- Clusters in logical order (R297); reset none -/
  clusters : List Nat := []
  /-- Slot number of the next slot (R320); reset 0 -/
  slot : Nat := 0
  /-- N in force in the current window (R30); reset 0 -/
  nForce : Nat := 0
  /-- Newest N from A1 (R30); reset 0 -/
  nNew : Nat := 0
  /-- MARGIN requested by A1 (R32); reset 0 -/
  marginReq : Bool := false
  /-- MARGIN mode applied (R32); reset 0 -/
  margin : Bool := false
  /-- Program beat that executes next (R320); reset 0 -/
  beat : Nat := 0
  /-- PROGRAM_BEATS of the image (R327); reset 0 -/
  beats : Nat := 0
  /-- GATE_LIMIT_US in µs (R348); reset 0 -/
  gateLimit : Nat := 0
  /-- The gate of the next beat is unmet: the slot sequence holds (R348); reset not -/
  holding : Bool := false
  /-- Since when the gate holds, in ticks (R723); reset not -/
  holdAt : Option Nat := none
  /-- The hold has passed 1 ms and was traced (R723); reset not -/
  holdTold : Bool := false
  /-- The END beat has completed (R350); reset not -/
  ended : Bool := false
  /-- A shadow access failed: status and detail (R356); reset none -/
  shadowFail : Option (Nat × Nat) := none
  /-- Row time at which the last beat ended or the group stopped (R37); reset 0 -/
  endRow : RowTime := 0
  /-- A breach was detected: DETAIL (R360); reset none -/
  breach : Option Nat := none
  /-- An abort is ordered (R351); reset not -/
  abort : Bool := false
  deriving DecidableEq, Repr

/-- The beat fabric and its clusters. -/
structure BeatBlk where
  /-- The 128 clusters (R286); reset zero -/
  clusters : Tbl Clus := []
  /-- The 16 beat groups (R320); reset free -/
  groups : Tbl Group := []
  /-- Stream transfers in flight (R343); reset none -/
  streams : List Stream := []
  /-- The next stream number, the model's own; reset 0 -/
  nextStream : Nat := 0
  /-- Fmax written in MAKER in place of the fuse, by cluster, 25 MHz units (R783); reset none -/
  fmax : Tbl (Option Nat) := []
  /-- CLUS.ECC_CE, saturating (R318); reset 0 -/
  eccCe : Nat := 0
  /-- Clamped A1 words since the last A2 frame (R31, R34); reset 0 -/
  clamped : Nat := 0
  /-- No A1 word for 100 µs: N = 60 until words resume (R33); reset not -/
  stale : Bool := false
  /-- Activity windows closed (R35); reset 0 -/
  a2Count : Nat := 0
  deriving DecidableEq, Repr

/-! ### Memory stacks -/

/-- One memory stack and its controller. -/
structure Stack where
  /-- STACK.STATUSs.TRAIN (R387); reset 0 -/
  train : Nat := 0
  /-- STACK.STATUSs.REFRESH_2X (R387); reset 0 -/
  refresh2x : Bool := false
  /-- STACK.STATUSs.TEMP_INVALID (R387); reset 0 -/
  tempInvalid : Bool := false
  /-- STACK.CE_COUNTs, saturating (R387); reset 0 -/
  ce : Nat := 0
  /-- STACK.ODIE_COUNTs, saturating (R387); reset 0 -/
  odie : Nat := 0
  /-- STACK.UE_COUNTs, saturating (R387); reset 0 -/
  ue : Nat := 0
  /-- Readouts in a row at or below 83.0 °C (R381); reset 0 -/
  coolRun : Nat := 0
  /-- 64-byte accesses since the last stack record, saturating (R35, R382); reset 0 -/
  access : Nat := 0
  /-- Corrections in the current second (R380); reset 0 -/
  secCount : Nat := 0
  /-- The second before exceeded the rate and was reported (R380); reset not -/
  rateTold : Bool := false
  /-- Newest readout, sixteenths of a degree, none when invalid (R382, R383); reset none -/
  temp : Option Int := none
  /-- Line that patrol scrub reads next (R379); reset 0 -/
  patrol : Nat := 0
  deriving DecidableEq, Repr

/-- Device memory and its eight stacks. -/
structure MemBlk where
  /-- Device memory bytes (R362); reset: reads 0 where nothing is listed -/
  mem : Mem := []
  /-- Lines that hold the poison marker, by line number, rising (R375); reset none -/
  poison : List Nat := []
  /-- The stacks (R362); reset untrained -/
  stks : Tbl Stack := []
  /-- STACK.SCRUB_CTL.PERIOD in hours (R387); reset 24 -/
  period : Nat := 24
  /-- STACK.SCRUB_CTL.LOCK (R387); reset 0 -/
  lock : Bool := false
  /-- Training has ended (R385); reset not -/
  trainEnded : Bool := false
  /-- Device memory is offline (R385); reset not -/
  offline : Bool := false
  deriving DecidableEq, Repr
/-! ### Always-on block, supplies and start -/

/-- The causes of a kill (R705, byte 22). -/
structure KillCauses where
  die : Bool := false
  stack : Bool := false
  tape : Bool := false
  mass : Bool := false
  ext : Bool := false
  deriving DecidableEq, Repr

/-- The reset-cause record (R60, R705). -/
structure ResetCause where
  /-- Scope: 0 function, 1 compute plane, 2 module, 3 cold. -/
  scope : Nat := 3
  /-- Trigger code of Table MGMT-9. -/
  trigger : Nat := 30
  kill : KillCauses := {}
  rowTime : RowTime := 0
  deriving DecidableEq, Repr

/-- The always-on block (Table PLANE-1). -/
structure AlwaysOn where
  /-- AUX within rating (R52); reset in rating -/
  aux : Bool := true
  /-- Row-time counter, 48 bits (R58, R613); reset 0 -/
  rowTime : RowTime := 0
  /-- Kill latch (R41); reset clear -/
  latch : Bool := false
  /-- Causes of the standing kill (R705); reset none -/
  causes : KillCauses := {}
  /-- Die comparator asserted (R541); reset not -/
  dieTrip : Bool := false
  /-- A stack compare asserted (R384); reset not -/
  stackTrip : Bool := false
  /-- Stacks whose compare belongs to the standing kill (R693); reset none -/
  tripStacks : List Nat := []
  /-- Leak tape reads wet (R91); reset dry -/
  tapeWet : Bool := false
  /-- Mass-balance trip source asserted (R582, R586); reset not -/
  massTrip : Bool := false
  /-- The module drives TRIP_N low (R43); reset not -/
  tripDrive : Bool := false
  /-- Every own trip source has read deasserted for 10 s (R742); reset not -/
  clean : Bool := false
  /-- Latched in released mode: TRIP_N undriven and sampled (R744); reset not -/
  released : Bool := false
  /-- Times of the kills of the last hour, newest first (R745); reset none -/
  kills : List Nat := []
  /-- Latch clearing suspended until cold reset (R745); reset not -/
  suspended : Bool := false
  /-- Reset-cause record (R60); reset: cold, AUX applied -/
  cause : ResetCause := {}
  /-- RESET_NOTICE still to be delivered with the first A6 report (R60); reset: pending -/
  noticeDue : Bool := true
  /-- A module reset deferred behind a store: its trigger (R59); reset none -/
  resetDue : Option Nat := none
  /-- Watchdog resets within 10 s of booting a newly activated image (R684); reset 0 -/
  bootFails : Nat := 0
  /-- Straps: SLOT_ID (R76); reset 0 -/
  slotId : Nat := 0
  /-- Straps: RACK_ID (R76); reset 0 -/
  rackId : Nat := 0
  /-- Strap parity is odd (R77); reset good -/
  strapsOk : Bool := true
  /-- A TAP instruction other than BYPASS or IDCODE holds the MAIN planes in reset (R27); reset not -/
  tapHold : Bool := false
  /-- TAP instruction in force: 0 BYPASS, 1 IDCODE, 2 SAMPLE/PRELOAD, 3 EXTEST, 4 TRACE_READ, 5 INTSCAN, 6 STEWARD_DEBUG (R78, R721); reset IDCODE -/
  tapInstr : Nat := 1
  deriving DecidableEq, Repr

/-- What the heat dump does (Table START-4). -/
inductive Dump where
  | none
  /-- Speed target at least 4,500 rpm for 30 s. -/
  | run
  /-- Leak kill: the drive goes to STOPPED. -/
  | leak
  deriving DecidableEq, Repr

/-- Main power, the start sequence and the stop (R726 to R749). -/
structure Supply where
  /-- Steward firmware runs (R726 step 3); reset booting -/
  steward : Bool := false
  /-- MAIN_EN (R74, R729); reset low -/
  mainEn : Bool := false
  /-- MAIN_48V at 40 V or more since MAIN_EN (R727); reset not -/
  mainIn : Bool := false
  /-- MAIN_48V present while MAIN_EN is low (R106); reset not -/
  unsolicited : Bool := false
  /-- MAIN regulators in regulation (R726 step 10); reset off -/
  regs : Bool := false
  /-- The MAIN planes have reached the state of step 11 (R726); reset not -/
  planes : Bool := false
  /-- MOD_READY released (R733); reset low -/
  modReady : Bool := false
  /-- PCIE_PERST_N high (R79); reset low -/
  perstHigh : Bool := false
  /-- Main failures in a row (R728); reset 0 -/
  fails : Nat := 0
  /-- Waiting 10 s before the conditions are evaluated again (R728); reset not -/
  retryWait : Bool := false
  /-- MAIN_OFF in force (R738); reset not -/
  offInForce : Bool := false
  /-- MAIN_OFF accepted, release 10 ms away (R737); reset not -/
  offPending : Bool := false
  /-- Unmet start conditions last reported (R729); reset none reported -/
  unmet : Option Nat := none
  /-- Heat dump (R739); reset none -/
  dump : Dump := .none
  /-- Module cycles in a row with both flows valid and at or above q_min (Table START-2, bit 5); reset 0 -/
  flowRun : Nat := 0
  /-- A warden was in command when the rack join completed (Table START-2, bit 8); reset not -/
  wardenAtJoin : Bool := false
  /-- ALLOC received from it since the join (Table START-2, bit 8); reset not -/
  allocSince : Bool := false
  /-- WL_DETECT_N shows a plug seated (R89); reset not -/
  plugged : Bool := false
  deriving DecidableEq, Repr

/-! ### Adits -/

/-- One cluster record of an A2 frame (Table PLANE-4). -/
structure A2Rec where
  mx : Nat := 0
  vec : Nat := 0
  str : Nat := 0
  stretch : Nat := 0
  group : Nat := 0
  assigned : Bool := false
  deriving DecidableEq, Repr

/-- One A2 frame (R34, R35). -/
structure A2Frame where
  /-- The 128 cluster records, in cluster order. -/
  recs : List A2Rec
  /-- Applied MARGIN mode of each beat group. -/
  modes : List Bool
  clamped : Nat
  /-- Stack temperature code and access count, every 100th frame. -/
  stks : Option (List (Nat × Nat))
  deriving DecidableEq, Repr

/-- A3 messages (Table PLANE-5). -/
inductive A3Msg where
  | offer (group cage f lock : Nat) (manifest : Bytes)
  | hold (group : Nat)
  | release (group : Nat)
  | refuse (group : Nat)
  | withdraw (group : Nat)
  | start (group : Nat) (rowTime : RowTime)
  | finish (group : Nat) (rowTime : RowTime) (aborted : Bool)
  | policy (tag : BitVec 16) (desc : Bytes)
  | mctp (packet : Bytes)
  /-- A LOCKED write of PUMP.SKIPk carried as a coolant-policy message (R783). -/
  | skipBand (k value : Nat)
  | ack (tag : BitVec 16) (status detail : Nat)
  deriving DecidableEq, Repr

/-- What the A6 gateway holds. -/
inductive A6Item where
  /-- A report record; telemetry is displaced first (R49). -/
  | report (r : Rec) (telemetry : Bool)
  /-- A mirror register refresh: offset in the PF window and value (R776). -/
  | mirror (off value : Nat)
  deriving DecidableEq, Repr

/-- The six adits (Table PLANE-2); A4 lies in the always-on block. -/
structure Adits where
  /-- A1: the last word the management plane sent (R29, R506); reset none -/
  a1 : Option (BitVec 112) := none
  /-- A2: the newest frame (R36); reset none -/
  a2 : Option A2Frame := none
  /-- A2: the management plane has taken it (R36); reset taken -/
  a2Taken : Bool := true
  /-- A2 overrun count (R36); reset 0 -/
  a2Overrun : Nat := 0
  /-- Clamped A1 words told by A2 (R31, R36); reset 0 -/
  a1Clamped : Nat := 0
  /-- A3, control to management, oldest first (R37); reset empty -/
  a3up : List A3Msg := []
  /-- A3, management to control, oldest first (R37); reset empty -/
  a3down : List A3Msg := []
  /-- A5 inbound buffer, up to 64 one-flit messages, with the link (R47); reset empty -/
  a5in : List (Nat × Bytes) := []
  /-- A5 outbound buffer, up to 64 one-flit messages, with the link (R47); reset empty -/
  a5out : List (Nat × Bytes) := []
  /-- Inbound flits dropped (R47); reset 0 -/
  a5Dropped : Nat := 0
  /-- A6 gateway, up to 256 entries, oldest first (R49); reset empty -/
  a6 : List A6Item := []
  /-- Records displaced since the last delivery, saturating (R50); reset 0 -/
  a6Displaced : Nat := 0
  /-- Mirror registers of the control plane by offset (R776); reset 0 -/
  mirrors : Tbl Nat := []
  deriving DecidableEq, Repr

/-! ### Management, store and life cycle -/

/-- The two MCTP bindings (R685). -/
inductive Binding where
  | smbus
  | vdm
  deriving DecidableEq, Repr

/-- A firmware slot of the store (R683). -/
structure FwSlot where
  valid : Bool := false
  seq : Nat := 0
  version : Nat := 0
  /-- FW_VERIFY has passed since the last FW_WRITE. -/
  verified : Bool := false
  /-- The image bytes. -/
  image : Mem := []
  deriving DecidableEq, Repr

/-- What a record region holds (R707, R711). -/
inductive StoreRec where
  | absent
  | torn
  | valid (seq : Nat) (body : List Int)
  deriving DecidableEq, Repr

/-- A store waiting or running: region and values (R709). -/
structure StoreJob where
  kind : Nat
  body : List Int
  /-- It has failed its read-back once. -/
  retried : Bool := false
  deriving DecidableEq, Repr

/-- Life-cycle states (Table MGMT-13). -/
inductive LifeCycle where
  | blank
  | maker
  | field
  | returned
  | retired
  deriving DecidableEq, Repr

/-- A request taken by the endpoint and not yet answered (R688). -/
structure MctpReq where
  binding : Binding
  body : Bytes
  deriving DecidableEq, Repr

/-- A response or a request sent by the endpoint (R688). -/
structure MctpOut where
  binding : Binding
  body : Bytes
  deriving DecidableEq, Repr

/-- A PLDM event in the queue (R698): sensor, new state, previous state. -/
structure PldmEvent where
  sensor : Nat
  numeric : Bool
  state : Nat
  prev : Nat
  deriving DecidableEq, Repr

/-- One trace entry (R723). -/
structure TraceEntry where
  /-- 1 START, 2 END, 3 abort, 4 breach, 5 gate hold, 6 MARGIN change. -/
  event : Nat
  arg : Nat
  group : Nat
  cage : Nat
  beat : Nat
  rowTime : RowTime
  deriving DecidableEq, Repr

/-- The life-cycle fuses and identity (R714, R119). -/
structure Fuses where
  /-- Variant code: 1 ICN-7740-S, 2 ICN-7740-W (R4); reset 2 (log entry 20) -/
  variant : Nat := 2
  /-- Die revision (R119); reset 1 (log entry 20) -/
  dieRev : Nat := 1
  /-- Device Serial Number (R119); reset 1 (log entry 20) -/
  dsn : Nat := 1
  /-- Life-cycle state (R712); reset FIELD (log entry 20) -/
  lc : LifeCycle := .field
  /-- Return count, 0 to 2 (R714); reset 0 -/
  returns : Nat := 0
  /-- Maker key digest (R714); reset 0 (log entry 20) -/
  makerKey : BitVec 384 := 0
  /-- Owner slots: digest of each owner's key (R714); reset empty -/
  owners : Tbl (BitVec 384) := []
  /-- Clusters disabled by fuses (R270); reset none (log entry 20) -/
  disabled : List Nat := []
  /-- Fused Fmax by cluster, 25 MHz units, where it differs from 64 (R270, R272); reset 64 each (log entry 20) -/
  fmax : Tbl Nat := []
  /-- Owner slots that are enrolled (R715); reset none -/
  enrolled : List Nat := []
  deriving DecidableEq, Repr

/-- The steward's management state. -/
structure Mgmt where
  /-- Fuses (R714); kept by every reset -/
  fuses : Fuses := {}
  /-- Firmware slot 0 (R683); reset valid, sequence 1 (log entry 20) -/
  slot0 : FwSlot := { valid := true, seq := 1, version := 1 }
  /-- Firmware slot 1 (R683); reset empty (log entry 20) -/
  slot1 : FwSlot := {}
  /-- Running slot (R683); reset 0 -/
  running : Nat := 0
  /-- The slot last activated by FW_ACTIVATE (R684); reset none -/
  fresh : Option Nat := none
  /-- When the steward booted, in ticks (R684); reset 0 -/
  bootAt : Nat := 0
  /-- EID on SMBus, 0 the null EID (R686); reset 0 -/
  eidSmbus : Nat := 0
  /-- EID on PCIe VDM (R686); reset 0 -/
  eidVdm : Nat := 0
  /-- PLDM terminus ID (R690); reset 0 -/
  tid : Nat := 0
  /-- Message being assembled on each binding: next packet number and bytes (R688); reset none -/
  asmSmbus : Option (Nat × Bytes) := none
  asmVdm : Option (Nat × Bytes) := none
  /-- Requests in work, up to 4 (R688); reset none -/
  reqs : List MctpReq := []
  /-- Messages sent by the endpoint, oldest first (R688); reset none -/
  out : List MctpOut := []
  /-- Messages of other types discarded (R687); reset 0 -/
  typeDrops : Nat := 0
  /-- SMBus writes answered with NAK while the steward is in reset (R689); reset 0 -/
  naks : Nat := 0
  /-- PLDM event receiver: binding and EID (R698); reset none -/
  receiver : Option (Binding × Nat) := none
  /-- PLDM event queue, up to 32 (R698); reset empty -/
  events : List PldmEvent := []
  /-- The head event has been sent and waits for its response (R698); reset not -/
  eventSent : Bool := false
  /-- Sendings of the head event again (R698); reset 0 -/
  eventTries : Nat := 0
  /-- Events displaced or discarded since the last PLDM_EVENT_DROP (R698); reset 0 -/
  eventDrops : Nat := 0
  /-- SMB_ALERT_N driven low (R699); reset released -/
  alertLow : Bool := false
  /-- State of each PLDM sensor as last told (R693, R694); reset 1 -/
  sensors : Tbl Nat := []
  /-- COOLING_HEALTH level: 0 normal, 1 degraded, 2 critical (R700); reset 0 -/
  health : Nat := 0
  /-- Module cycles in a row at level 0, and at level 1 or below (R700); reset 0 -/
  healthZero : Nat := 0
  healthRun : Nat := 0
  /-- Module cycles DIAG_DEFERRED has held (R700); reset 0 -/
  diagRun : Nat := 0
  /-- Module cycles AT_LIMIT with a flow request has held (R700); reset 0 -/
  limitRun : Nat := 0
  /-- Host-silence period in s (R702); reset 60 -/
  silentPeriod : Nat := 60
  /-- The host is silent (R702); reset not -/
  silent : Bool := false
  /-- Row time of the last host activity (R725); reset 0 -/
  lastHost : RowTime := 0
  /-- The POLICY command in work: tag and descriptor (R195); reset none -/
  disp : Option (BitVec 16 × Bytes) := none
  /-- Store hold (R710); reset released -/
  hold : Bool := false
  /-- Stores waiting, one of a kind (R709); reset none -/
  jobs : List StoreJob := []
  /-- The store in progress (R709); reset none -/
  storing : Option StoreJob := none
  /-- Store fault (R709); reset none -/
  storeFault : Bool := false
  /-- Record regions by kind: 0 maker calibration, 1 power policy, 2 coolant policy, 3 pump baseline, 4 leak verdict, 5 warden (R706, R707); reset absent (log entry 20) -/
  regions : Tbl StoreRec := []
  /-- Stores of each kind, SEQ (R707); reset 0 -/
  seqs : Tbl Nat := []
  /-- A power-policy change waits for its store (R503); reset none -/
  powerDirty : Bool := false
  /-- Time of the last power-policy store in ticks (R503); reset none -/
  powerStoredAt : Option Nat := none
  /-- A coolant-policy change waits for its store (R503, R591); reset none -/
  coolDirty : Bool := false
  /-- Time of the last coolant-policy store in ticks (R503, R591); reset none -/
  coolStoredAt : Option Nat := none
  /-- Erasing customer regions after a return (R719); reset not -/
  erasing : Bool := false
  /-- Nonce issued and not spent (R717); reset none -/
  nonce : Option (BitVec 128) := none
  /-- DEBUG_UNLOCK in force (R721); reset not -/
  unlocked : Bool := false
  /-- Trace buffer, newest first, up to 16,384 entries (R723); reset empty -/
  trace : List TraceEntry := []
  /-- MGMT.TRACE_CTL.EN (R724); reset 0 -/
  traceEn : Bool := false
  /-- MGMT.TRACE_CTL.FREEZE (R724); reset 1 -/
  traceFreeze : Bool := true
  /-- MGMT.TRACE_CTL.FROZEN (R724); reset 0 -/
  frozen : Bool := false
  /-- SERVICE_N driven low (R71, R77, R92); reset released -/
  serviceLow : Bool := false
  /-- Mirror register values last sent through A6, by offset (R776); reset 0 -/
  mirrored : Tbl Nat := []
  deriving DecidableEq, Repr
/-! ### Galbi links -/

/-- The states of a link (Table LINK-2). -/
inductive LinkSt where
  | disabled
  | down
  | training
  | up
  | retrain
  deriving DecidableEq, Repr

/-- The transmit side of one virtual channel of a link. -/
structure VcTx where
  /-- Messages waiting whole, oldest first (R394, R429); reset none -/
  queue : List Bytes := []
  /-- Payloads of the message being sent that are still to go (R411); reset none -/
  rest : List Bytes := []
  /-- HELD: credits held (R413); reset 0, the grant at UP -/
  held : Nat := 0
  /-- SENT: DATA flits sent, modulo 2^16 (R415); reset 0 -/
  sent : Nat := 0
  /-- The peer's RET as last received (R415); reset 0 -/
  seen : Nat := 0
  /-- Deficit of the round robin (R410); reset 0 -/
  deficit : Nat := 0
  deriving DecidableEq, Repr

/-- The receive side of one virtual channel of a link. -/
structure VcRx where
  /-- ACC: flits accepted, modulo 2^16 (R415); reset 0 -/
  acc : Nat := 0
  /-- RET: credits returned, modulo 2^16 (R402); reset 0 -/
  ret : Nat := 0
  /-- BUF: flits accepted and not yet freed (R413); reset 0 -/
  buf : Nat := 0
  /-- RET samples of the last 4 µs, newest first: tenths of µs and value (R416); reset none -/
  samples : List (Nat × Nat) := []
  /-- The message being received: flits so far and its bytes (R419); reset none -/
  part : Option (Nat × Bytes) := none
  /-- Flits are discarded up to the next SOM (R419); reset not -/
  skip : Bool := false
  /-- Complete messages not yet handed on, oldest first (R413); reset none -/
  inbox : List Bytes := []
  deriving DecidableEq, Repr

/-- An audit that waits for AT_SEQ (R415), with RET as it stood at the audit's arrival and two round trips before it. -/
structure Audit where
  atSeq : Nat
  sent : List Nat
  seen : List Nat
  held : List Nat
  low : List Nat
  high : List Nat
  deriving DecidableEq, Repr

/-- One entry of a target's response queue (R424). -/
structure Resp where
  /-- True for an MREAD whose lines are being read, false for an MWRITE whose lines are being written. -/
  read : Bool
  /-- The response message. -/
  msg : Bytes
  deriving DecidableEq, Repr

/-- One VC-MEM request outstanding at this requester (R426): a recovery read of a chunk (R466). -/
structure MemReq where
  tag : Nat
  /-- Group handle and strand it serves. -/
  h : Nat
  strand : Nat
  /-- First line within the chunk, and lines. -/
  line : Nat
  n : Nat
  deriving DecidableEq, Repr

/-- One Galbi link. -/
structure Lk where
  /-- LINK.CTLk.EN (R431); reset 1 -/
  en : Bool := true
  /-- LINK.CTLk.ALLOW_X4 (R431); reset 1 -/
  allowX4 : Bool := true
  /-- LINK.CTLk.W_COLL (R431); reset 8 -/
  wColl : Nat := 8
  /-- LINK.CTLk.W_BULK (R431); reset 4 -/
  wBulk : Nat := 4
  /-- LINK.CTLk.W_MEM (R431); reset 3 -/
  wMem : Nat := 3
  /-- LINK.STATUSk.STATE (R394, R431); reset DOWN -/
  st : LinkSt := .down
  /-- LINK.STATUSk.X4 (R431); reset 0 -/
  x4 : Bool := false
  /-- LINK.STATUSk.HIGH_HALF (R431); reset 0 -/
  highHalf : Bool := false
  /-- LINK.STATUSk.PEER_LINK (R431); reset 0 -/
  peerLink : Nat := 0
  /-- Peer's DSN, variant, rack and slot from its HELLO (R432); reset 0 -/
  peerDsn : Nat := 0
  peerVariant : Nat := 0
  peerRack : Nat := 0
  peerSlot : Nat := 0
  /-- Training failures in a row (R397); reset 0 -/
  fails : Nat := 0
  /-- Reason of the newest LINK_DOWN of the series, 0 none (R397); reset 0 -/
  lastReason : Nat := 0
  /-- Link-layer initialisation runs: HELLOs are sent (R395); reset not -/
  hello : Bool := false
  /-- PINGs sent in this initialisation (R398); reset none -/
  pings : List Nat := []
  /-- The last PING received (Table LINK-4); reset 0 -/
  peerPing : Nat := 0
  /-- One more HELLO is owed after UP, so that the peer sees its echo (log entry 40); reset not -/
  helloOwed : Bool := false
  /-- RTT in ns (R398); reset 0 -/
  rtt : Nat := 0
  /-- SEQ of the next new DATA flit (R403); reset 0 -/
  nextSeq : Nat := 0
  /-- Replay buffer, oldest first, up to 4,096 flits (R403); reset empty -/
  replay : List Bytes := []
  /-- Flits of a replay still to be sent again (R406); reset none -/
  resend : List Bytes := []
  /-- Replays since ACK_SEQ last advanced (R407); reset 0 -/
  sameStart : Nat := 0
  /-- The transmit side of each VC (R409); reset empty -/
  tx : Tbl VcTx := []
  /-- The VC the round robin visits, and whether the visit is open (R410); reset VC 1, closed -/
  drrVc : Nat := 1
  drrOpen : Bool := false
  /-- VC-CTL tokens (R410); reset 0 (log entry 40) -/
  tokens : Nat := 0
  /-- Flit slots since the last token (R410); reset 0 -/
  slots : Nat := 0
  /-- A NAK is pending (R408); reset not -/
  nakPending : Bool := false
  /-- An audit is due (R408, R415); reset not -/
  auditDue : Bool := false
  /-- A new ACK_SEQ or RET is to be reported (R408); reset not -/
  newReport : Bool := false
  /-- DATA flits sent since the last LCTL (R408); reset 0 -/
  dataSince : Nat := 0
  /-- Flit slots since the last LCTL (R408); reset 0 -/
  slotsSince : Nat := 0
  /-- The flit sent in the newest slot (R410); reset none -/
  lastFlit : Bytes := []
  /-- SEQ last accepted (R404); reset 65,535: the series starts at 0 -/
  lastAcc : Nat := 65535
  /-- Some DATA flit has been accepted (Table LINK-4, ACK_VALID); reset not -/
  anyAcc : Bool := false
  /-- A NAK has been sent and the expected SEQ not yet accepted (R404); reset not -/
  nakSent : Bool := false
  /-- The receive side of each VC (R409); reset empty -/
  rx : Tbl VcRx := []
  /-- The audit held (R415); reset none -/
  audit : Option Audit := none
  /-- Counts of this second (R432): uncorrectable pairs, CRC discards, replays, malformed messages, VC-MEM requests discarded or failed; reset 0 -/
  badPairs : Nat := 0
  crcDiscards : Nat := 0
  replays : Nat := 0
  malformed : Nat := 0
  memDrops : Nat := 0
  /-- VC-MEM requests outstanding at this requester, up to 64 (R424); reset none -/
  memReqs : List MemReq := []
  /-- TAG of the next VC-MEM request, the model's own choice; reset 0 -/
  memTag : Nat := 0
  /-- Response queue of this target, up to 64 with the responses waiting to be sent (R424); reset none -/
  resps : List Resp := []
  /-- A link reset that the command in work has called for: reason and VC (R427); none between commands -/
  fault : Option (Nat × Nat) := none
  deriving DecidableEq, Repr

/-! ### Collectives -/

/-- One line of a chunk, with its poison mark (R468). -/
structure CLine where
  bs : Bytes
  psn : Bool
  deriving DecidableEq, Repr

/-- The chunk being received on a strand (R465). -/
structure RxChunk where
  /-- Lines received, by number within the chunk. -/
  lines : Tbl CLine := []
  /-- The CRC its CHUNK_END carried. -/
  crc : Option Nat := none
  /-- It has failed its CRC once (R466). -/
  retried : Bool := false
  /-- Lines of the recovery read asked for so far (R466). -/
  asked : Nat := 0
  deriving DecidableEq, Repr

/-- One strand of a running operation. -/
structure Strand where
  /-- The successor's OP_READY has been taken (R453); reset not -/
  ready : Bool := false
  /-- Chunks the successor has granted so far (R453); reset 0 -/
  grant : Nat := 0
  /-- Chunks granted to the predecessor so far (R460); reset 0 -/
  given : Nat := 0
  /-- Chunks sent (R457, R463); reset 0 -/
  sent : Nat := 0
  /-- Chunks the successor has acknowledged (R460); reset 0 -/
  acked : Nat := 0
  /-- Chunks received and passed (R465); reset 0 -/
  recv : Nat := 0
  /-- The chunks being received or waiting for their check, by receive number (R460, R465); reset none -/
  rx : Tbl RxChunk := []
  /-- Reduce-scatter: partials staged, by receive number (R460); reset none -/
  staged : Tbl (List CLine) := []
  /-- All-gather: CRCs of chunks that passed, by receive number, to travel on unchanged (R464); reset none -/
  crcs : Tbl Nat := []
  /-- Reduce-scatter: messages of chunks sent and not acknowledged, by send number (R460); reset none -/
  heldOut : Tbl (List Bytes) := []
  deriving DecidableEq, Repr

/-- One operation of a group, queued or running (R453). -/
structure CollOp where
  ctx : Nat
  seq : Nat
  /-- REDUCE_SCATTER, else ALL_GATHER. -/
  rs : Bool
  index : Nat
  dtype : Nat
  op : Nat
  acc32 : Bool
  bulk : Bool
  /-- log2 of the chunk size C. -/
  logC : Nat
  offset : Nat
  count : Nat
  /-- Issued at, in ticks (R455). -/
  issueAt : Nat
  /-- The admission bound to, by its context (R473). -/
  bound : Option Nat := none
  /-- BIND_DROPPED (R473). -/
  dropped : Bool := false
  ctr : Nat := 0
  cl : Nat := 0
  srcCtr : Nat := 0
  srcCl : Nat := 0
  srcThresh : Nat := 0
  /-- It runs (R453). -/
  started : Bool := false
  /-- OP_READY has been sent (R453). -/
  readySent : Bool := false
  /-- The source gate is met (R472). -/
  gate : Bool := false
  strands : Tbl Strand := []
  /-- Arrival numbers of chunks that have passed and are not yet counted (R471). -/
  landed : List Nat := []
  /-- Chunks counted (R469). -/
  counted : Nat := 0
  /-- Result chunks written (R469). -/
  written : Nat := 0
  /-- Lowest poisoned line it wrote or reduced, bytes from block 0 (R468). -/
  poison : Option Nat := none
  /-- It ends with this status and DETAIL once its writes have drained (R480). -/
  ending : Option (Nat × Nat) := none
  deriving DecidableEq, Repr

/-- One registered buffer (R447). -/
structure CollBuf where
  base : Nat
  len : Nat
  key : Nat
  deriving DecidableEq, Repr

/-- An OP_READY that arrived before its operation started (R453). -/
structure Early where
  strand : Nat
  seq : Nat
  body : Bytes
  deriving DecidableEq, Repr

/-- An OP_ABORT for an operation that has not started (R480). -/
structure AbortNote where
  seq : Nat
  status : Nat
  detail : Nat
  deriving DecidableEq, Repr

/-- One collective group (R433). -/
structure CollGroup where
  cage : Nat
  gid : Nat
  p : Nat
  rank : Nat
  strands : Nat
  chunkMax : Nat
  agOnly : Bool
  /-- SUCC_j and PRED_j. -/
  succ : List Nat
  pred : List Nat
  /-- WAIT_US, 0 taken as 1,000,000. -/
  waitUs : Nat
  /-- Engine quarter (R435). -/
  quarter : Nat
  /-- The create still waiting (R445). -/
  createCtx : Option Nat
  /-- Strands whose HELLO the successor has accepted, and strands whose HELLO from the predecessor was accepted (R445). -/
  succOk : List Nat := []
  predOk : List Nat := []
  /-- Registered buffers by INDEX (R447). -/
  bufs : Tbl CollBuf := []
  /-- The neighbours' keys by INDEX, 0 none (R449). -/
  keysSucc : Tbl Nat := []
  keysPred : Tbl Nat := []
  /-- Registrations that wait for keys: INDEX and context (R449). -/
  regs : List (Nat × Nat) := []
  /-- The next OPSEQ (R453). -/
  opSeq : Nat := 0
  /-- Operations, in issue order; the first is the current one (R453). -/
  ops : List CollOp := []
  early : List Early := []
  aborts : List AbortNote := []
  /-- Broken: cause and link (R482). -/
  broken : Option (Nat × Nat) := none
  /-- Being destroyed by this command, or by its cage's end (R482). -/
  destroying : Bool := false
  destroyCtx : Option Nat := none
  deriving DecidableEq, Repr

/-- The collective engine. -/
structure Coll where
  /-- Groups by handle (R433); reset none -/
  groups : Tbl (Option CollGroup) := []
  /-- Key table: key to handle and INDEX (R448); reset empty -/
  keys : Tbl (Option (Nat × Nat)) := []
  /-- The next key to issue, drawn at random when the compute plane starts (R448); reset 0, drawn at MAIN_PLANES_READY -/
  keyNext : W32 := 0
  /-- COLL.CTL.TIMEOUT_MS (R483); reset 100 -/
  timeoutMs : Nat := 100
  /-- The last four chunk starts of each quarter, newest first: bound or not (R475); reset none -/
  starts : Tbl (List Bool) := []
  /-- Deficits by (2 × quarter + class) × 256 + cage (R475); reset 0 -/
  deficit : Tbl Nat := []
  /-- The cage served last by each quarter and class, plus 1 (R475); reset 0 -/
  cageTurn : Tbl Nat := []
  /-- The group served last in each cage, plus 1 (R475); reset 0 -/
  groupTurn : Tbl Nat := []
  /-- Counts of this second (R484): CRC recoveries, residue recomputations, operations failed, messages discarded; reset 0 -/
  recoveries : Nat := 0
  recomputed : Nat := 0
  failed : Nat := 0
  discarded : Nat := 0
  deriving DecidableEq, Repr
/-! ### Power -/

/-- One MAIN regulator as PMBus reads it (R485, R798). -/
structure Regulator where
  /-- Failed reads in a row (R486); reset 0 -/
  fails : Nat := 0
  /-- Last READ_PIN in mW (R485); reset 0 -/
  pin : Nat := 0
  /-- Last READ_VIN in mV (R798); reset 48,000 (log entry 44) -/
  vin : Nat := 48000
  deriving DecidableEq, Repr

/-- What the estimate keeps of one window (R496, R497), in W. -/
structure Win where
  /-- Sum of a[j]·n[j]. -/
  an : Rat
  /-- Sum of a[j]. -/
  a : Rat
  /-- Sum of a[j] plus k plus P_BASE. -/
  r : Rat
  deriving DecidableEq, Repr

/-- One throttle reason (R522, R523). -/
structure Reason where
  /-- Cumulative counter in µs (R522); reset 0 -/
  us : Rat := 0
  /-- An episode is open (R523); reset not -/
  active : Bool := false
  start : RowTime := 0
  /-- Row time of the first step of the present inactive run. -/
  stop : RowTime := 0
  /-- Inactive steps in a row. -/
  idle : Nat := 0
  peakN : Nat := 0
  sumN : Nat := 0
  steps : Nat := 0
  lowCap : Nat := 0
  groups : Nat := 0
  peakOver : Int := 0
  /-- The episode log, newest first, up to 256 entries (R522); reset empty -/
  log : List (List Fld) := []
  deriving DecidableEq, Repr

/-- What the module keeps of one (LOCK, ORIGIN) pair (R514). -/
structure LockEntry where
  lock : Nat
  origin : Nat
  seq : Nat
  n : Nat
  f : Nat
  capFlag : Bool
  /-- Heard within the last 30 µs and not left (R517). -/
  counts : Bool
  left : Bool
  /-- F conflict reported (R518). -/
  told : Bool
  deriving DecidableEq, Repr

/-- The power controller. -/
structure Power where
  /-- The six regulators (R798); reset as the structure says -/
  regs : List Regulator := List.replicate 6 {}
  /-- A PMBus fault exists (R486); reset not -/
  fault : Bool := false
  /-- The regulator that began it (R528); reset 0 -/
  faultReg : Nat := 0
  /-- Samples in a row in which every regulator answered, during a fault (R486); reset 0 -/
  goodRun : Nat := 0
  /-- g_cal (R498); reset 1 -/
  gCal : Rat := 1
  /-- o_cal in W (R498); reset 0 -/
  oCal : Rat := 0
  /-- History of (r, m), newest first, up to 32 (R497); reset empty -/
  history : List (Rat × Rat) := []
  /-- g_cal and o_cal stand at the end of their range, and that was reported (R497); reset not -/
  gEnd : Bool := false
  oEnd : Bool := false
  /-- The last 100 windows, newest first (R496); reset none -/
  wins : List Win := []
  /-- k, the stack power of the newest stack records in W (R496); reset 0 -/
  kStack : Rat := 0
  /-- p_fix, p_est and p_dyn0 in W (R496); reset 0 -/
  pFix : Rat := 0
  pEst : Rat := 0
  pDyn0 : Rat := 0
  /-- A frame has been used since the last outer update (R499); reset not -/
  framed : Bool := false
  /-- No A2 frame arrives (R499, R528); reset so -/
  noA2 : Bool := true
  /-- c_set in W (R501, R503); reset 1,000 -/
  cSet : Nat := 1000
  /-- c_row in W (Table PWR-3); reset 1,400 -/
  cRow : Nat := 1400
  /-- c_zone in W (R535); reset 1,400 -/
  cZone : Rat := 1400
  /-- Derating is active, and derate in W (R504); reset not, 0 -/
  derating : Bool := false
  derate : Rat := 0
  /-- Module droop mode: margin (R495); reset stretch -/
  margin : Bool := false
  /-- n_cap (R505); reset 0 -/
  nCap : Nat := 0
  /-- n_own (R506); reset 0 -/
  nOwn : Nat := 0
  /-- CAP_UNMEETABLE stands (R508); reset not -/
  unmeetable : Bool := false
  /-- Outer updates in a row that meet the condition to raise, or to clear (R508); reset 0 -/
  unmeetRun : Nat := 0
  meetRun : Nat := 0
  /-- Highest N sent on A1 in this module cycle, and in the one before (Table BUS-10); reset 0 -/
  cycleN : Nat := 0
  lastN : Nat := 0
  /-- VDD_CORE in units of 5 µV (R490); reset 0, 0.620 V when the regulators are in regulation -/
  rail : Nat := 0
  /-- The throttle reasons by code (R522); reset clear -/
  reasons : Tbl Reason := []
  /-- Reasons active at the last step (R528); reset none -/
  lastReasons : Nat := 0
  /-- Row time of the last A1 word sent (R507); reset none -/
  lastA1 : Option RowTime := none
  /-- Own message count of each LOCK (R513); reset 0 -/
  lockSeq : Tbl Nat := []
  /-- Lock entries (R514); reset none -/
  locks : List LockEntry := []
  /-- Lock messages waiting to enter A5, by link, in order of first arrival (R520); reset none -/
  lockQ : Tbl (List Bytes) := []
  /-- The second in which the table was last found full and told (R519); reset none -/
  fullAt : Option Nat := none
  /-- Margin exceedances of this second, and the bitmap of their groups (R493); reset 0 -/
  exceed : Nat := 0
  exceedGroups : Nat := 0
  deriving DecidableEq, Repr

/-! ### Heat -/

/-- One sensor (R529 to R531). -/
structure Sensor where
  /-- Valid (R530); reset valid, with no reading (log entry 45) -/
  valid : Bool := true
  /-- It failed the stuck check (R531); reset not -/
  stuck : Bool := false
  /-- It failed the range or the rate check and waits for 1 s of passing samples (R531); reset not -/
  rr : Bool := false
  /-- The last raw codes, newest first, up to 10 (Table HEAT-2); reset none -/
  hist : List Int := []
  /-- Identical codes in a row (Table HEAT-2); reset 0 -/
  same : Nat := 0
  /-- Range of the reference quantity over that run (Table HEAT-2); reset 0 -/
  lo : Int := 0
  hi : Int := 0
  /-- Samples that pass, in a row, while invalid (R531); reset 0 -/
  passRun : Nat := 0
  deriving DecidableEq, Repr

/-- One zone (R534). -/
structure Zone where
  /-- Faulted (R534); reset not -/
  faulted : Bool := false
  /-- It has held at least 2 valid sensors since its fault (R534); reset not -/
  holds : Bool := false
  deriving DecidableEq, Repr

/-- Which run of a dwell is under way. -/
inductive Run where
  | none
  | up
  | down
  deriving DecidableEq, Repr

/-- One firmware threshold (R537, R538). -/
structure Thr where
  /-- Active (R537); reset not -/
  active : Bool := false
  /-- The run under way towards a change (R537); reset none -/
  run : Run := .none
  /-- Crossing counter (R538); reset 0 -/
  crossings : Nat := 0
  /-- Chatter counter (R538); reset 0 -/
  chatter : Nat := 0
  /-- Time of the last deactivation in ticks (R538); reset none -/
  offAt : Option Nat := none
  deriving DecidableEq, Repr

/-- How far the management plane has come with an OFFER. -/
inductive OfferSt where
  /-- Held for cooling (R551). -/
  | held
  /-- Cooling-ready; it waits for the rail (R491). -/
  | ready
  /-- RELEASE sent, START not yet seen. -/
  | released
  | running
  deriving DecidableEq, Repr

/-- An OFFER or a running group as the management plane follows it (R547, R550). -/
structure MGroup where
  st : OfferSt
  cage : Nat
  f : Nat
  lock : Nat
  man : Bytes
  /-- Order of arrival, and arrival time in ticks. -/
  ord : Nat
  at_ : Nat
  /-- HOLD was sent (R551). -/
  hold : Bool := false
  /-- THERMAL_TIMEOUT, TIMEOUT_ACTION and ADMIT_DT when it arrived (R554). -/
  timeout : Nat
  action : Nat
  dt : Nat
  /-- It was made ready by its timeout (R551). -/
  timedOut : Bool := false
  /-- Position of the manifest model in 1/128 beats (R547). -/
  pos : Nat := 0
  /-- N now applied (R548). -/
  n : Nat := 0
  /-- Windows since START (R552). -/
  windows : Nat := 0
  /-- Sums since the last check: d[j] in W, n, and windows (R552). -/
  dSum : Rat := 0
  nSum : Nat := 0
  wCount : Nat := 0
  /-- d[j] of the newest window in W (R546). -/
  d : Rat := 0
  /-- Model positions at the last 10 checks, newest first (R552). -/
  past : List Nat := []
  /-- Under breach, and passing checks in a row (R552). -/
  breach : Bool := false
  passes : Nat := 0
  /-- ref[j], the 10 ms mean of d[j] and allow of the last check in W (R552). -/
  ref : Rat := 0
  mean : Rat := 0
  allow : Rat := 0
  deriving DecidableEq, Repr

/-- Heat sensing, thresholds and forecast. -/
structure Heat where
  /-- Sensors 0 to 32 (R529); sensor 31 holds the humidity -/
  sensors : Tbl Sensor := []
  /-- Dew point in sixteenths of a degree (R543); reset none -/
  dewPoint : Option Int := none
  /-- Zones (R534); reset not faulted -/
  zones : Tbl Zone := []
  /-- Probes whose elements disagree, by first sensor: differing now, and reported (R532); reset not -/
  differ : Tbl Bool := []
  disagree : Tbl Bool := []
  /-- Thresholds: 0 DIE_THROTTLE, 1 DIE_WARN, 2 to 9 STACK_THROTTLE, 10 OUTLET_WARN, 11 INLET_DERATE (R537); reset inactive -/
  thrs : Tbl Thr := []
  /-- n_die (R539); reset 0 -/
  nDie : Nat := 0
  /-- n_stack (R539); reset 0 -/
  nStack : Nat := 0
  /-- n_coolant (R540); reset 0 -/
  nCoolant : Nat := 0
  /-- n_breach (R553); reset 0 -/
  nBreach : Nat := 0
  /-- DEW_MARGIN (R543); reset not -/
  dew : Bool := false
  /-- The run under way towards a change of DEW_MARGIN (R543); reset none -/
  dewRun : Run := .none
  /-- OFFERs and running groups by beat group (R547); reset none -/
  groups : Tbl (Option MGroup) := []
  /-- The next order number of an OFFER; reset 0 -/
  ord : Nat := 0
  /-- The forecast, 25 bins in W (R548); reset empty -/
  forecast : List Nat := []
  /-- THERMAL_TIMEOUT in ms (R554); reset 20 -/
  timeout : Nat := 20
  /-- TIMEOUT_ACTION (R554); reset 0 -/
  action : Nat := 0
  /-- ADMIT_DT in K (R554); reset 10 -/
  admitDt : Nat := 10
  /-- Cages whose breach action is report only (R554); reset none -/
  reportOnly : List Nat := []
  /-- Inlet zone values of the last 50 ms in °C, newest first (R504); reset none -/
  inlet50 : List Rat := []
  deriving DecidableEq, Repr

/-! ### Pump -/

/-- Drive states (Table PUMP-3A). -/
inductive DriveSt where
  | stopped
  | kick
  | run
  | stalled
  deriving DecidableEq, Repr

/-- One phase of the drive (R566 to R568). -/
structure Phase where
  /-- Open-phase verdict; reset not -/
  open_ : Bool := false
  /-- Bad checks in a row, and good checks in a row since the verdict. -/
  bad : Nat := 0
  good : Nat := 0
  deriving DecidableEq, Repr

/-- One baseline point (R577). -/
structure BasePoint where
  rpm : Nat
  duty : Rat
  inlet : Rat
  fluid : Nat
  deriving DecidableEq, Repr

/-- A baseline capture in progress (R577). -/
structure Capture where
  /-- Points recorded so far. -/
  done : List BasePoint := []
  /-- The mode before it was SPEED, and the speed set then. -/
  modeBefore : Bool
  /-- ms at the present point's speed; the last 10 s count. -/
  ms : Nat := 0
  dutySum : Nat := 0
  inletSum : Rat := 0
  inletN : Nat := 0
  deriving DecidableEq, Repr

/-- What the ageing evaluation keeps of the present 10 s (R579). -/
structure AgeSpan where
  n : Nat := 0
  speedSum : Nat := 0
  speedMin : Nat := 0
  speedMax : Nat := 0
  dutySum : Nat := 0
  /-- The drive left RUN, or the inlet or the fluid did not qualify. -/
  spoilt : Bool := false
  deriving DecidableEq, Repr

/-- The pump, its drive and the coolant loop. -/
structure Pump where
  /-- Drive state (R559); reset STOPPED -/
  st : DriveSt := .stopped
  /-- Duty in PWM counts (R557); reset 0 -/
  duty : Nat := 0
  /-- Speed target in rpm (R573); reset 0 -/
  target : Rat := 0
  /-- Speed reference s_ref in rpm (R572); reset 500, the least running speed (log entry 46) -/
  sRef : Nat := 500
  /-- s_ref is held at a band's upper edge (R565, R572); reset not -/
  atEdge : Bool := false
  /-- Intervals of the last 12 zero crossings in ns, newest first (R557); reset none -/
  crossings : List Nat := []
  /-- Valid crossings in a row in this kick or check (R560, R748); reset 0 -/
  zcRun : Nat := 0
  /-- A valid crossing has come within the last 50 ms (R561): cleared by each stall check; reset not -/
  zcSeen : Bool := false
  /-- Speed measured below 300 rpm (R561); reset not -/
  slow : Bool := false
  /-- Commutation step 0 to 5 (R557); reset 0 -/
  step : Nat := 0
  /-- The three phases (R566); reset good -/
  phases : List Phase := List.replicate 3 {}
  /-- Retries begun since the count last returned to 0 (R562); reset 0 -/
  attempts : Nat := 0
  /-- ms of continuous RUN (R562); reset 0 -/
  runMs : Nat := 0
  /-- Last duty used in RUN at 500 rpm (R560); reset none -/
  duty500 : Option Nat := none
  /-- ms in a row in which the RUN current limit acted in every PWM period (R575); reset 0 -/
  limitMs : Nat := 0
  /-- SPEED mode in force (R570); reset FLOW -/
  speedMode : Bool := false
  /-- Mode ordered and waiting for RUN (R574); reset none -/
  modeWait : Option Bool := none
  /-- SPEED-mode speed in rpm (R591); reset 3,000 -/
  setSpeed : Nat := 3000
  /-- q_min and q_max in 0.01 L/min (R591); reset 120 and 350 -/
  qMin : Nat := 120
  qMax : Nat := 350
  /-- Ramp rates in rpm/s (R573); reset 20,000 and 5,000 -/
  up : Nat := 20000
  down : Nat := 5000
  /-- Fluid: 0 PG25, 1 inhibited deionised water (R591); reset 0 -/
  fluid : Nat := 0
  /-- q_target in 0.01 L/min (R571); reset 0 -/
  qTarget : Nat := 0
  /-- q_ward in 0.01 L/min (R571, R590); reset 0 -/
  qWard : Nat := 0
  /-- Samples of measured power in this module cycle: sum in W, and number (R571); reset 0 -/
  powSum : Rat := 0
  powN : Nat := 0
  /-- Mean of the last module cycle in W (Table BUS-10); reset 0 -/
  powMean : Rat := 0
  /-- Baseline points in force (R577); reset none -/
  baseline : List BasePoint := []
  /-- Capture in progress (R577); reset none -/
  capture : Option Capture := none
  /-- The present 10 s of the ageing evaluation (R579); reset empty -/
  span : AgeSpan := {}
  /-- Evaluations, newest first, up to 16 (R579); reset none -/
  evals : List Rat := []
  /-- Ageing level: 0 normal, 1 warn, 2 alarm (R580); reset 0 -/
  ageLevel : Nat := 0
  /-- Speed of the last evaluation in rpm (R593); reset 0 -/
  ageSpeed : Nat := 0
  /-- Flow samples of this module cycle: inlet and outlet, valid ones (R582); reset none -/
  flows : List (Option Int × Option Int) := []
  /-- Cycles in a row that exceed tolerance (R582); reset 0 -/
  overRun : Nat := 0
  /-- Cycles in a row evaluated and within tolerance, up to 100 (R586); reset 0 -/
  okRun : Nat := 0
  /-- The mass balance was suspended in the last cycle (R583); reset not -/
  suspended : Bool := false
  /-- Leak verdict latched: source 0 none, 1 tape, 2 mass balance (R586); reset 0 -/
  leak : Nat := 0
  /-- LEAK_BLIND (R585); reset not -/
  blind : Bool := false
  /-- Tape fault (R92); reset not -/
  tapeFault : Bool := false
  /-- Reverse flow reported and standing (R588); reset not -/
  reverse : Bool := false
  /-- Low flow reported, and not armed again (R589); reset not -/
  lowTold : Bool := false
  /-- Module cycles in a row with the inlet flow at or above q_min (R589); reset 0 -/
  lowOk : Nat := 0
  /-- Skip bands 0 to 3, LOW_RPM in bits 15:0 and HIGH_RPM in bits 31:16 (R564); reset 0, unused (log entry 20) -/
  skips : List Nat := [0, 0, 0, 0]
  deriving DecidableEq, Repr
/-! ### Rack and row buses -/

/-- A frame waiting to be sent (R602, R603). -/
structure TxFrame where
  frame : Frame
  /-- Retried, else one-shot (R603). -/
  retried : Bool
  deriving DecidableEq, Repr

/-- One transmit buffer: the frame it holds and whether that still waits to be sent. -/
structure TxBuf where
  tx : TxFrame
  waiting : Bool
  deriving DecidableEq, Repr

/-- A warden heartbeat as last heard from a node (R626). -/
structure Heard where
  src : Nat
  claim : Nat
  flags : Nat
  rack : Nat
  dsn : Nat
  /-- When, in ticks. -/
  at_ : Nat
  deriving DecidableEq, Repr

/-- How a controller stands on its bus (R605 to R607). -/
inductive JoinSt where
  /-- Disabled, or the module is in reset. -/
  | off
  /-- Restricted operation: listening. -/
  | listening
  | joined
  deriving DecidableEq, Repr

/-- One CAN FD controller with its message buffers. -/
structure Bus where
  /-- Join state (R605, R632); reset off until the straps have passed R77 -/
  join : JoinSt := .off
  /-- Node IDs heard as SRC in this listen (R605); reset none -/
  srcs : List Nat := []
  /-- The result of the last BUS_JOIN record of this series, 0 none (R606); reset 0 -/
  result : Nat := 0
  /-- A node-ID conflict stands (R606, R607); reset not -/
  conflict : Bool := false
  /-- Transmit and receive error counters (R604); reset 0 -/
  txErr : Nat := 0
  rxErr : Nat := 0
  /-- Error passive (R604); reset not -/
  passive : Bool := false
  /-- Bus-off (R604); reset not -/
  busOff : Bool := false
  /-- The recovery sequence runs (R604); reset not -/
  recovering : Bool := false
  /-- Times of the bus-offs of the last 60 s in ticks, newest first (R604); reset none -/
  offs : List Nat := []
  /-- Transmit buffers 0 to 11 (R600); reset none has held a frame -/
  tx : Tbl (Option TxBuf) := []
  /-- Frames that wait for a transmit buffer, oldest first; reset none -/
  more : List TxFrame := []
  /-- Receive buffers 12 to 31, by number from 12 on: the frame each last held (R600, R629); reset none -/
  rx : Tbl (Option Frame) := []
  /-- Frames in the receive FIFO, 0 to 20 (R600); reset 0 -/
  fill : Nat := 0
  /-- The receive buffer the next frame takes, 0 to 19 (R600); reset 0 -/
  next : Nat := 0
  /-- Own count of frames by MSG (Table BUS-5, SEQ); reset 0 -/
  seqs : Tbl Nat := []
  /-- SEQ and time of the last retried frame by 256 × SRC + MSG (R622); reset none -/
  last : Tbl (Option (Nat × Nat)) := []
  /-- Counts of this second (Table BUS-14): foreign, malformed, inner length over, receive overflow, transmit expiry, duplicates; reset 0 -/
  foreign : Nat := 0
  malformed : Nat := 0
  innerOver : Nat := 0
  rxOver : Nat := 0
  txExpiry : Nat := 0
  dups : Nat := 0
  /-- The transceiver sleeps (R610); reset awake -/
  asleep : Bool := false
  /-- Until when nothing but BUS_WAKE is sent, in ticks (R612); reset 0 -/
  quiet : Nat := 0
  /-- Heartbeats by sender (R626); reset none -/
  hbs : List Heard := []
  /-- The frame last sent, and its stamp (R613); reset none -/
  sent : Option (Frame × RowTime) := none
  /-- Own transmit stamp of the last SYNC (R614); reset none -/
  syncStamp : Option RowTime := none
  deriving DecidableEq, Repr

/-- Row-time synchronisation (R615 to R618). -/
structure Clock where
  /-- Synced (R616); reset unsynced -/
  synced : Bool := false
  /-- In holdover (R615); reset not -/
  holdover : Bool := false
  /-- When the holdover began, in ticks (R743); reset 0 -/
  since : Nat := 0
  /-- The source followed: bus and node (R615); reset none -/
  source : Option (Nat × Nat) := none
  /-- SEQ and own stamp of the last SYNC (R616); reset none -/
  last : Option (Nat × RowTime) := none
  /-- The last 8 pairs (t, r), newest first (R616); reset none -/
  pairs : List (RowTime × RowTime) := []
  /-- Rate trim as a fraction (R616); reset 0 -/
  trim : Rat := 0
  /-- What the trim has gathered towards a whole tick; reset 0 -/
  trimAcc : Rat := 0
  /-- Ticks the counter is still held (R616); reset 0 -/
  hold : Nat := 0
  /-- A slew under way: ticks between corrections, ticks to the next, ticks left of the 100,000,000, and adding (R616); reset none -/
  slew : Option (Nat × Nat × Nat × Bool) := none
  deriving DecidableEq, Repr

/-- The SMBus mailbox (R628 to R631). -/
structure Mailbox where
  /-- Buffer and bus selected (Table BUS-12); reset 0 and rack -/
  buffer : Nat := 0
  bus : Nat := 0
  /-- Snapshot count modulo 128 (R630); reset 0 -/
  count : Nat := 0
  /-- The snapshot while locked: its 18 words (R630); reset unlocked -/
  snap : Option (List W32) := none
  /-- The five bytes of the newest block read (Table BUS-12); reset none -/
  answer : Bytes := []
  deriving DecidableEq, Repr

/-- The two buses, row-time synchronisation and the mailbox. -/
structure Buses where
  /-- Rack bus (R594) -/
  rack : Bus := {}
  /-- Row bus (R594, R596) -/
  row : Bus := {}
  /-- Row-time synchronisation (R616) -/
  clock : Clock := {}
  /-- SMBus mailbox (R628) -/
  mbx : Mailbox := {}
  /-- Further sendings of LEAK_ALERT that are owed (Table BUS-6); reset 0 -/
  leakSends : Nat := 0
  /-- The SOURCE of the last LEAK_ALERT of this module (Table BUS-7); reset 0 -/
  leakSource : Nat := 0
  deriving DecidableEq, Repr

/-! ### Wardens -/

/-- One stage map entry (Table WARD-3). -/
structure MapEntry where
  node : Nat
  channel : Nat
  fn : Nat
  arg : Nat
  spMin : Nat
  spMax : Nat
  deriving DecidableEq, Repr

/-- What a warden keeps of one output stage. -/
structure Stage where
  /-- The last STAGE_STATUS: claim in force, type, flags, commander. -/
  claim : Nat := 0
  type : Nat := 0
  flags : Nat := 0
  commander : Nat := 0
  /-- When it came, in ticks; none when never heard. -/
  at_ : Option Nat := none
  /-- Applied setpoints and measured values by channel. -/
  applied : Tbl (Option Nat) := []
  measured : Tbl (Option Nat) := []
  /-- Alarms that stand, as 256 × alarm + channel. -/
  alarms : List Nat := []
  /-- Reported as unheard for 300 ms (Table WARD-12). -/
  lostTold : Bool := false
  deriving DecidableEq, Repr

/-- One allocation of a book, of a slot or of a rack (R664, R671). -/
structure Alloc where
  /-- Power allocated in W; reset 0 (log entry 51) -/
  cap : Nat := 0
  flow : Nat := 0
  /-- Lowered and not yet confirmed; an ALLOC that carries the lowering has been queued. -/
  lowered : Bool := false
  told : Bool := false
  /-- The last MODULE_BUDGET or RACK_BUDGET body, and when it came in ticks. -/
  body : Bytes := []
  at_ : Option Nat := none
  /-- The last MODULE_TELEM or RACK_TELEM body. -/
  telem : Bytes := []
  /-- When a LEAK_ALERT with the verdict reached was last heard from the slot (R668). -/
  leakAt : Option Nat := none
  /-- SOURCE of that LEAK_ALERT (Table BUS-7). -/
  leakSrc : Nat := 0
  deriving DecidableEq, Repr

/-- One commanded channel (R656, R657). -/
structure Chan where
  /-- The setpoint commanded, none before a bumpless start gave one. -/
  sp : Option Nat := none
  /-- It has not yet reached the warden's own output (R657). -/
  slewing : Bool := false
  deriving DecidableEq, Repr

/-- The stages of a leak response (Table WARD-9). -/
inductive Resp9 where
  | none
  /-- Caps are held at 0; the delayed part is still to come. -/
  | caps
  /-- The delayed part has been done. -/
  | done
  deriving DecidableEq, Repr

/-- One lane of the warden link (R648). -/
structure Lane where
  up : Bool := false
  /-- Good frames in a row while down. -/
  good : Nat := 0
  deriving DecidableEq, Repr

/-- A frame of the warden link: TYPE and payload (R647). -/
structure WlFrame where
  type : Nat
  payload : Bytes
  deriving DecidableEq, Repr

/-- The slow data of Table WARD-7 in one structure. -/
structure WardPolicy where
  rackMap : List MapEntry := []
  rowMap : List MapEntry := []
  rackVer : Nat := 0
  rowVer : Nat := 0
  /-- Row budget B and R_MIN in W (R669); reset 0 (log entry 51) -/
  budget : Nat := 0
  rMin : Nat := 0
  /-- Exchange mode (R673); reset 0 (log entry 51) -/
  exchange : Nat := 0
  /-- ECO_EFFORT (R673); reset 10,000 (log entry 51) -/
  eco : Nat := 10000
  /-- FLOW_FLOOR in 0.01 L/min (R672); reset 0 -/
  floor : Nat := 0
  /-- SUPPLY_SET in sixteenths of a degree (R674); reset 30.0 °C -/
  supply : Nat := 480
  /-- SLEW (R657); reset 500 -/
  slew : Nat := 500
  /-- Leak actions and delays in s (R676); reset isolate, 2 and 5 -/
  rackAction : Nat := 0
  rackDelay : Nat := 2
  rowAction : Nat := 0
  rowDelay : Nat := 5
  /-- Slots closed by SLOT_VALVE, and by a leak response (R668); reset none -/
  valveShut : List Nat := []
  leakShut : List Nat := []
  /-- Leak responses of rack and row, and what the row's delayed part acts on: 16 the CDU pumps, 17 the facility-water valve (R676); reset none -/
  rackResp : Resp9 := .none
  rowResp : Resp9 := .none
  rowTarget : Nat := 0
  /-- Source node and alarm of the rack response and of the row response (Table WARD-12); reset 0 (log entry 86) -/
  rackBy : Nat × Nat := (0, 0)
  rowBy : Nat × Nat := (0, 0)
  /-- Slots released by SLOT_RELEASE (R665, Table WARD-7); reset none -/
  released : List Nat := []
  deriving DecidableEq, Repr

/-- The warden. -/
structure Warden where
  /-- Commissioned as a rack warden (R638, R680); reset not (log entry 20) -/
  rackRole : Bool := false
  /-- Commissioned with the row role (R638); reset not -/
  rowRole : Bool := false
  /-- Side: 0 A, 1 B (R638); reset 0 -/
  side : Nat := 0
  /-- Rack and row claims (R638); reset 0 -/
  rackClaim : Nat := 0
  rowClaim : Nat := 0
  /-- Active in its roles (R635); reset not -/
  active : Bool := false
  /-- WARD_ROLE 7, claim 0 at start, has been written since the join; reset not -/
  zeroTold : Bool := false
  /-- Policies, maps and leak responses (Table WARD-7) -/
  pol : WardPolicy := {}
  /-- Rack and row cycle counts; reset 0 -/
  rackCycle : W32 := 0
  rowCycle : W32 := 0
  /-- Rack and row commands by map index (Table WARD-6); reset none -/
  rackOut : Tbl Chan := []
  rowOut : Tbl Chan := []
  /-- Loop states v, u and f (R667, R673, R674); reset 0 -/
  v : Rat := 0
  u : Rat := 0
  f : Rat := 0
  /-- Rack allocation book by slot, row allocation book by rack (R664, R671); reset empty -/
  slots : Tbl Alloc := []
  racks : Tbl Alloc := []
  /-- A and the FLOW of the row ALLOC (R663); reset 65,535 W and 0 -/
  a : Nat := 65535
  aFlow : Nat := 0
  /-- A is held: no row ALLOC for 300 ms (R675); reset not -/
  aHeld : Bool := false
  /-- Flow limits the racks this cycle (R670); reset not -/
  limited : Bool := false
  /-- Stages by node of the rack and of the row bus; reset unheard -/
  rackStages : Tbl Stage := []
  rowStages : Tbl Stage := []
  /-- Rack cycles in a row in which no commanded stage reported its own claim (R660); reset 0 -/
  notMine : Nat := 0
  /-- STATE health [3] (R660); reset not -/
  notInForce : Bool := false
  /-- The latest STATE of the peer (R650); reset none -/
  peer : Option Bytes := none
  /-- The latest active STATE, the copy (R650); reset none -/
  copy : Option Bytes := none
  /-- When that copy came, in ticks; reset none -/
  copyAt : Option Nat := none
  /-- The peer has been heard active since the last evaluation (R653); reset not -/
  peerHeard : Bool := false
  /-- When an active rack warden was last heard, on the bus or on the link, in ticks (R652); reset none -/
  activeAt : Option Nat := none
  /-- Missed cycles in a row (R653); reset 0 -/
  misses : Nat := 0
  /-- The two lanes of the warden link (R648); reset down -/
  lanes : List Lane := [{}, {}]
  /-- SEQ of the last frame taken, and of the next to send (R647); reset none and 0 -/
  wlSeq : Option Nat := none
  wlNext : Nat := 0
  /-- Frames sent on the link, oldest first, each with its SEQ: what the outside sees; the newest 16 (log entry 52); reset none -/
  wlOut : List (Nat × WlFrame) := []
  /-- Link frames dropped (R647); reset 0 -/
  wlDropped : Nat := 0
  /-- HANDOVER sent and not answered (R659): a canary swap, or not; reset none -/
  handover : Option Bool := none
  /-- A canary test runs on this new active warden (R662); reset not -/
  canary : Bool := false
  /-- When this warden handed over for a canary swap, in ticks (R662); reset none -/
  canaryAt : Option Nat := none
  /-- The last TRIP_NOTICE by slot, and the last RACK_ALERT by rack (Table WARD-9); reset none -/
  trips : Tbl Bytes := []
  rackAlerts : Tbl Bytes := []
  /-- Blocks of Table WARD-7 to be mirrored (R651); reset none -/
  mirrorDue : List Nat := []
  /-- Segments of a block arriving over the bus: block, SEGS, and data by SEG (R651); reset none -/
  mirrorIn : Option (Nat × Nat × Tbl Bytes) := none
  /-- Row time of the last role change (Table WARD-12); reset 0 -/
  roleAt : RowTime := 0
  deriving DecidableEq, Repr
/-! ### The whole machine -/

/-- The module's state. Every block of Table PLANE-1 is one field; beside them stand the waiting commands and the model's own counters. -/
structure State where
  /-- Commands waiting, first in first out (the row's cut); reset empty -/
  pending : List Instr := []
  /-- Free values drawn so far: the MODEL's own counter (log entry 2); reset 0 -/
  free : Nat := 0
  /-- Time since reset in 10 ns ticks, the MODEL's own clock (log entry 3); reset 0 -/
  now : Nat := 0
  /-- Always-on block (R24) -/
  ao : AlwaysOn := {}
  /-- Supplies, start and stop (R52, R726) -/
  sup : Supply := {}
  /-- Adits (R28) -/
  adit : Adits := {}
  /-- PCIe endpoint and functions (R114) -/
  host : HostLink := {}
  /-- Rings, slots and contexts (R183) -/
  rings : Rings := {}
  /-- Cages, pages and admissions (R227) -/
  cages : Cages := {}
  /-- Clusters and beat groups (R286, R320) -/
  beat : BeatBlk := {}
  /-- Memory stacks (R362) -/
  mem : MemBlk := {}
  /-- Management, store and life cycle (R682) -/
  mgmt : Mgmt := {}
  /-- Galbi links by index (R389) -/
  links : Tbl Lk := []
  /-- Collective engine (R433) -/
  coll : Coll := {}
  /-- Power controller (R485) -/
  power : Power := {}
  /-- Heat sensing and forecast (R529) -/
  heat : Heat := {}
  /-- Pump and coolant loop (R557) -/
  pump : Pump := {}
  /-- Rack and row buses, row time and mailbox (R594) -/
  bus : Buses := {}
  /-- Warden roles, books and link (R634) -/
  ward : Warden := {}
  deriving DecidableEq, Repr

/-- Why a command stops the machine. -/
inductive Fault where
  /-- STACK_LINE_ACCESS names a line outside the 128 GiB of device memory (R362, R364): the spec gives the module no such line. Safe: the machine stops (log entry 83). -/
  | noSuchLine
  deriving DecidableEq, Repr

/-- Why a command has no meaning in the model. -/
inductive Refusal where
  /-- Raised by an arm of exec whose command has no meaning yet, with its mnemonic. Safe: the machine stops. -/
  | notModelled (mnemonic : String)
  deriving DecidableEq, Repr

/-- The machine right after cold reset, AUX within rating (R58, R726 step 1); the values the spec does not state are named in the log. -/
def State.reset : State := {}

end Sys2Proof.Machine
end

