-- ==== Sys2Proof/Machine/Ops.lean ====
section
/-! DEFINITION. The named operations over tables, bytes, memories, queues and records. -/

namespace Sys2Proof.Machine

/-! ### Outcomes -/

/-- The outcome of a command of the block. -/
abbrev Out := Host.Outcome State Fault Refusal

/-! ### Order and roots -/

/-- Put an element before the first that it may stand before. -/
def insertBy {α : Type} (le : α → α → Bool) (a : α) : List α → List α
  | [] => [a]
  | b :: r => if le a b then a :: b :: r else b :: insertBy le a r

/-- A list in order; equals keep their places. -/
@[irreducible] def sortBy {α : Type} (le : α → α → Bool) : List α → List α
  | [] => []
  | a :: r => insertBy le a (sortBy le r)

/-- Try the bits of a square root from a height down. -/
def isqrtFrom (n : Nat) : Nat → Nat → Nat
  | 0, r => r
  | k + 1, r => isqrtFrom n k (if (r + 2 ^ k) * (r + 2 ^ k) ≤ n then r + 2 ^ k else r)

/-- The whole part of the square root. -/
def isqrt (n : Nat) : Nat := isqrtFrom n (Nat.log2 n / 2 + 1) 0

/-! ### Sparse tables -/

/-- Read a sparse table; an unlisted key reads the default. -/
def tget {α : Type} (d : α) (t : Tbl α) (k : Nat) : α :=
  match t with
  | [] => d
  | (j, v) :: r => if j = k then v else tget d r k

/-- Remove a key. -/
def tdel {α : Type} (t : Tbl α) (k : Nat) : Tbl α := t.filter (fun e => e.1 != k)

/-- Insert or replace a key, keeping the keys rising. -/
def tins {α : Type} (t : Tbl α) (k : Nat) (v : α) : Tbl α :=
  match t with
  | [] => [(k, v)]
  | (j, w) :: r => if k < j then (k, v) :: (j, w) :: r else if j = k then (k, v) :: r else (j, w) :: tins r k v

/-- Write a sparse table, keeping its canonical form: a default value is not listed. -/
def tput {α : Type} [DecidableEq α] (d : α) (t : Tbl α) (k : Nat) (v : α) : Tbl α :=
  if v = d then tdel t k else tins t k v

/-- The canonical form of a sparse table: keys strictly rising. -/
def Tbl.rising {α : Type} : Tbl α → Bool
  | [] => true
  | [_] => true
  | a :: b :: r => decide (a.1 < b.1) && Tbl.rising (b :: r)

/-- Update one entry of a list at a position. -/
def lmod {α : Type} (l : List α) (i : Nat) (f : α → α) : List α :=
  match l, i with
  | [], _ => []
  | a :: r, 0 => f a :: r
  | a :: r, i + 1 => a :: lmod r i f

/-- Update every entry that meets a test. -/
def lmap {α : Type} (l : List α) (p : α → Bool) (f : α → α) : List α :=
  l.map (fun a => if p a then f a else a)

/-! ### Bits and bytes (R13, R15) -/

/-- Bits [hi:lo] of a number. -/
def bits (x hi lo : Nat) : Nat := (x / 2 ^ lo) % 2 ^ (hi + 1 - lo)

/-- One bit of a number. -/
def bit (x i : Nat) : Bool := (x / 2 ^ i) % 2 == 1

/-- A Bool as a bit. -/
def b2n (b : Bool) : Nat := if b then 1 else 0

/-- The little-endian value of a byte string (R13). -/
def le : Bytes → Nat
  | [] => 0
  | b :: r => b.toNat + 256 * le r

/-- The n little-endian bytes of a number (R13). -/
def toLe : Nat → Nat → Bytes
  | 0, _ => []
  | n + 1, x => BitVec.ofNat 8 x :: toLe n (x / 256)

/-- The little-endian field of `len` bytes at `off` of a structure; bytes beyond its end read 0. -/
def fld (d : Bytes) (off len : Nat) : Nat := le ((d.drop off).take len)

/-- One byte of a structure. -/
def byteAt (d : Bytes) (off : Nat) : Nat := fld d off 1

/-- Write bytes into a structure at an offset, within its length. -/
def putAt (d : Bytes) (off : Nat) (v : Bytes) : Bytes :=
  (d.take off ++ v ++ d.drop (off + v.length)).take d.length

/-- A structure of `n` bytes with the given fields, every other byte 0. -/
def packFlds (n : Nat) (fs : List Fld) : Bytes :=
  fs.foldl (fun d x => putAt d x.1 (toLe x.2.1 x.2.2)) (List.replicate n 0)

/-- The signed reading of an n-bit value. -/
def sext (n x : Nat) : Int := if x % 2 ^ n < 2 ^ (n - 1) then (x % 2 ^ n : Nat) else ((x % 2 ^ n : Nat) : Int) - (2 ^ n : Nat)

/-- The two's complement code of an integer in n bits. -/
def twos (n : Nat) (x : Int) : Nat := (x % (2 ^ n : Nat)).toNat

/-- An integer held within two ends. -/
def clampI (lo hi x : Int) : Int := if x < lo then lo else if hi < x then hi else x

/-- A natural number held within two ends. -/
def clampN (lo hi x : Nat) : Nat := if x < lo then lo else if hi < x then hi else x

/-- Saturating addition. -/
def satAdd (max a b : Nat) : Nat := if a + b > max then max else a + b

/-- Round a rational to the nearest integer, ties to even (R788). -/
def rne (x : Rat) : Int :=
  let fl := x.floor
  let fr := x - fl
  if fr < 1 / 2 then fl else if 1 / 2 < fr then fl + 1 else if fl % 2 = 0 then fl else fl + 1

/-- The code of a physical value in a signed field of n bits in steps of `step` (R788). -/
def codeS (n : Nat) (step x : Rat) : Nat :=
  twos n (clampI (-(2 ^ (n - 1) : Nat)) ((2 ^ (n - 1) : Nat) - 1) (rne (x / step)))

/-- The code of a physical value in an unsigned field of n bits in steps of `step` (R788). -/
def codeU (n : Nat) (step x : Rat) : Nat :=
  (clampI 0 ((2 ^ n : Nat) - 1) (rne (x / step))).toNat

/-- The code of a temperature in Q12.4 that keeps clear of 0x8000 (R788, R383). -/
def codeT (x : Rat) : Nat := twos 16 (clampI (-32767) 32767 (rne (x * 16)))

/-- The CRC-32C (Castagnoli) register after one bit. -/
def crcBit (c : Nat) : Nat := if c % 2 = 1 then (c / 2) ^^^ 0x82F63B78 else c / 2

/-- The CRC-32C register after one byte. -/
def crcByte (c : Nat) (b : Byte) : Nat :=
  crcBit (crcBit (crcBit (crcBit (crcBit (crcBit (crcBit (crcBit (c ^^^ b.toNat))))))))

/-- CRC-32C of a byte string (R327, R465). -/
def crc32c (bs : Bytes) : Nat := (bs.foldl crcByte 0xFFFFFFFF) ^^^ 0xFFFFFFFF

/-! ### Byte memories -/

/-- The byte at an address; an unlisted address reads 0. -/
def mrd (m : Mem) (a : Nat) : Byte :=
  match m with
  | [] => 0
  | (j, v) :: r => if j = a then v else mrd r a

/-- Insert a cell, keeping the addresses rising. -/
def mins (m : Mem) (a : Nat) (v : Byte) : Mem :=
  match m with
  | [] => [(a, v)]
  | (j, w) :: r => if a < j then (a, v) :: (j, w) :: r else if j = a then (a, v) :: r else (j, w) :: mins r a v

/-- Write one byte, keeping the canonical form: a zero is not listed. -/
def mwr (m : Mem) (a : Nat) (v : Byte) : Mem :=
  if v = 0 then m.filter (fun c => c.1 != a) else mins m a v

/-- Read n bytes. -/
def mrdN (m : Mem) (a n : Nat) : Bytes := (List.range n).map (fun i => mrd m (a + i))

/-- Write a byte string. -/
def mwrN (m : Mem) (a : Nat) (bs : Bytes) : Mem :=
  match bs with
  | [] => m
  | b :: r => mwrN (mwr m a b) (a + 1) r

/-- Zero the addresses from lo below hi. -/
def mclear (m : Mem) (lo hi : Nat) : Mem := m.filter (fun c => c.1 < lo || hi ≤ c.1)

/-- Whether a memory is in its canonical form: addresses strictly rising, no entry equal to 0. -/
def Memory.wf : Mem → Bool
  | [] => true
  | [a] => a.2 != 0
  | a :: b :: r => decide (a.1 < b.1) && (a.2 != 0) && Memory.wf (b :: r)

/-- Add a number to a rising list of numbers. -/
def nadd (l : List Nat) (k : Nat) : List Nat :=
  match l with
  | [] => [k]
  | j :: r => if k < j then k :: j :: r else if j = k then j :: r else j :: nadd r k

/-- Remove the numbers from lo below hi. -/
def ndelRange (l : List Nat) (lo hi : Nat) : List Nat := l.filter (fun k => k < lo || hi ≤ k)

/-- Add n numbers from lo on. -/
def naddRange (l : List Nat) (lo : Nat) : Nat → List Nat
  | 0 => l
  | n + 1 => naddRange (nadd l (lo + n)) lo n

/-! ### Free values -/

/-- Draw a free value w bits wide: nothing constrains it, and each draw is a new one (log entry 2). -/
def draw (w : Nat) (s : State) : BitVec w × State := (Config.freeValue w s.free, { s with free := s.free + 1 })

/-- Draw a free choice among n alternatives. -/
def drawBelow (n : Nat) (s : State) : Nat × State :=
  ((Config.freeValue 32 s.free).toNat % (if n = 0 then 1 else n), { s with free := s.free + 1 })

/-- Draw a free byte string. -/
def drawBytes (n : Nat) (s : State) : Bytes × State :=
  ((List.range n).map (fun i => (Config.freeValue 8 (s.free + i))), { s with free := s.free + n })

/-! ### Updates of one block of the state -/

def State.modHost (s : State) (f : HostLink → HostLink) : State := { s with host := f s.host }
def State.modRings (s : State) (f : Rings → Rings) : State := { s with rings := f s.rings }
def State.modCages (s : State) (f : Cages → Cages) : State := { s with cages := f s.cages }
def State.modBeat (s : State) (f : BeatBlk → BeatBlk) : State := { s with beat := f s.beat }
def State.modMem (s : State) (f : MemBlk → MemBlk) : State := { s with mem := f s.mem }
def State.modAdit (s : State) (f : Adits → Adits) : State := { s with adit := f s.adit }
def State.modAo (s : State) (f : AlwaysOn → AlwaysOn) : State := { s with ao := f s.ao }
def State.modSup (s : State) (f : Supply → Supply) : State := { s with sup := f s.sup }
def State.modColl (s : State) (f : Coll → Coll) : State := { s with coll := f s.coll }
def State.modPower (s : State) (f : Power → Power) : State := { s with power := f s.power }
def State.modHeat (s : State) (f : Heat → Heat) : State := { s with heat := f s.heat }
def State.modPump (s : State) (f : Pump → Pump) : State := { s with pump := f s.pump }
def State.modBuses (s : State) (f : Buses → Buses) : State := { s with bus := f s.bus }
def State.modWard (s : State) (f : Warden → Warden) : State := { s with ward := f s.ward }
def State.modMgmt (s : State) (f : Mgmt → Mgmt) : State := { s with mgmt := f s.mgmt }

/-! ### Planes: who is awake (R58, R62) -/

/-- The MAIN planes are powered and out of reset, with the PCIe reset released (R79, R733, R27). -/
def State.up (s : State) : Bool := s.sup.planes && s.sup.perstHigh && !s.ao.tapHold

/-- The data plane is powered and out of reset (R734: also while PCIE_PERST_N is low). -/
def State.dataUp (s : State) : Bool := s.sup.planes && !s.ao.tapHold

/-- The management plane runs: AUX in rating and the steward booted (R58, R726 step 3). -/
def State.stew (s : State) : Bool := s.ao.aux && s.sup.steward

/-- The model's clock in whole milliseconds (R246). -/
def State.ms (s : State) : Nat := s.now / 100000

/-- Ticks of one second of the model's clock. -/
def ticksPerSecond : Nat := 100000000

/-! ### Records and the report gateway (R49 to R51, R220) -/

/-- A record of the management plane (SOURCE 1), formed now. -/
def mgmtRec (kind : Nat) (body : List Fld) (s : State) (cage : Nat := 0) : Rec :=
  { kind := kind, cage := cage, source := 1, rowTime := s.ao.rowTime, body := body }

/-- A record of the control or data plane (SOURCE 0), formed now. -/
def ctlRec (kind : Nat) (body : List Fld) (s : State) (cage : Nat := 0) : Rec :=
  { kind := kind, cage := cage, source := 0, rowTime := s.ao.rowTime, body := body }

/-- Whether an A6 entry is telemetry: mirror refreshes and periodic status records (R49, R776). -/
def A6Item.telemetry : A6Item → Bool
  | .report _ t => t
  | .mirror _ _ => true

/-- Remove the first entry that meets a test. -/
def dropFirst {α : Type} (p : α → Bool) : List α → List α
  | [] => []
  | a :: r => if p a then r else a :: dropFirst p r

/-- Put an entry into the A6 gateway; a full gateway displaces its oldest telemetry, else its oldest record (R49, R50). -/
def a6Push (it : A6Item) (s : State) : State :=
  s.modAdit fun a =>
    if a.a6.length < 256 then { a with a6 := a.a6 ++ [it] }
    else
      let rest := if a.a6.any A6Item.telemetry then dropFirst A6Item.telemetry a.a6 else a.a6.drop 1
      { a with a6 := rest ++ [it], a6Displaced := satAdd 65535 a.a6Displaced 1 }

/-- Send a management-plane record through A6. -/
def a6Rec (kind : Nat) (body : List Fld) (s : State) (telemetry : Bool := false) (cage : Nat := 0) : State :=
  a6Push (.report (mgmtRec kind body s cage) telemetry) s

/-- Put a message on A3 from control to management (R37). -/
def a3Up (m : A3Msg) (s : State) : State := s.modAdit fun a => { a with a3up := a.a3up ++ [m] }

/-- Put a message on A3 from management to control (R37). -/
def a3Down (m : A3Msg) (s : State) : State := s.modAdit fun a => { a with a3down := a.a3down ++ [m] }

/-- Put a VC-CTL message into the outbound A5 buffer of a link; a full buffer takes none (R47). -/
def a5Out (k : Nat) (m : Bytes) (s : State) : State :=
  s.modAdit fun a => if a.a5out.length < 64 then { a with a5out := a.a5out ++ [(k, m)] } else a

end Sys2Proof.Machine
end

