-- ==== Sys2Proof/Machine/Image.lean ====
section
/-! DEFINITION. Efzan images: header, tables, bundles and the image checks (R327 to R338, R344, R359). -/

namespace Sys2Proof.Machine

/-! ### Header and tables (Tables BEAT-1 to BEAT-4) -/

def imgFlags (m : Bytes) : Nat := fld m 6 2
def imgBytes (m : Bytes) : Nat := fld m 8 4
def imgCrc (m : Bytes) : Nat := fld m 12 4
def imgN (m : Bytes) : Nat := byteAt m 16
def imgMF (m : Bytes) : Nat := byteAt m 17
def imgGateUs (m : Bytes) : Nat := fld m 20 4
def imgBeats (m : Bytes) : Nat := fld m 24 8
def imgClusTab (m : Bytes) : Nat := fld m 32 4
def imgResTab (m : Bytes) : Nat := fld m 36 4
def imgResN (m : Bytes) : Nat := fld m 40 4
def imgManifest (m : Bytes) : Nat := fld m 44 4
/-- The image carries a spill variant (Table BEAT-1). -/
def imgSpill (m : Bytes) : Bool := bit (imgFlags m) 0

/-- The cluster table: STREAM, STREAM_BYTES, SP_BYTES, LOAD_AT (Table BEAT-2). -/
structure ClusEntry where
  stream : Nat
  bytes : Nat
  sp : Nat
  loadAt : Nat
  deriving DecidableEq, Repr

/-- One cluster entry. -/
def clusEntry (m : Bytes) (i : Nat) : ClusEntry :=
  let o := imgClusTab m + 16 * i
  { stream := fld m o 4, bytes := fld m (o + 4) 4, sp := fld m (o + 8) 4, loadAt := fld m (o + 12) 4 }

/-- Every cluster entry, by logical cluster. -/
def clusEntries (m : Bytes) : List ClusEntry := (List.range (imgN m)).map (clusEntry m)

/-- The residency entries: FIRST_PAGE, COUNT, SPILL (Table BEAT-3). -/
def resEntries (m : Bytes) : List (Nat × Nat × Bool) :=
  (List.range (imgResN m)).map (fun i =>
    let o := imgResTab m + 16 * i
    (fld m o 4, fld m (o + 4) 4, bit (byteAt m (o + 8)) 0))

/-- The pages of the residency entries with a given SPILL flag. -/
def resPages (m : Bytes) (spill : Bool) : List Nat :=
  (((resEntries m).filter (fun e => e.2.2 == spill)).map (fun e => (List.range e.2.1).map (· + e.1))).flatten

/-- How many pages the residency entries with a given SPILL flag cover. -/
def resCount (m : Bytes) (spill : Bool) : Nat := (((resEntries m).filter (fun e => e.2.2 == spill)).map (fun e => e.2.1)).sum

/-- Segments of the heat manifest (Table BEAT-4). -/
def manSegments (m : Bytes) : Nat := fld m (imgManifest m) 2

/-- The manifest's bytes, forwarded unchanged in OFFER (R332). -/
def manBytes (m : Bytes) : Bytes := (m.drop (imgManifest m)).take (16 + 12 * manSegments m)

/-- One manifest segment of a manifest's own bytes: BEATS, MEAN_W, PEAK_W. -/
def segment (man : Bytes) (j : Nat) : Nat × Nat × Nat :=
  (fld man (16 + 12 * j) 6, fld man (22 + 12 * j) 2, fld man (24 + 12 * j) 2)

/-! ### Bundles (Tables BEAT-5 to BEAT-10) -/

def bIdle (b : Bytes) : Nat := fld b 0 2
def bGate (b : Bytes) : Nat := byteAt b 2
def bCtrl (b : Bytes) : Nat := byteAt b 3
def bThreshold (b : Bytes) : Nat := fld b 4 4
/-- Slot of matrix unit u. -/
def bMx (b : Bytes) (u : Nat) : Nat := fld b (8 + 8 * u) 8
/-- Vector slot of cycle v. -/
def bVec (b : Bytes) (v : Nat) : Nat := fld b (24 + 4 * v) 4
/-- Slot of stream unit u. -/
def bStr (b : Bytes) (u : Nat) : Nat := fld b (40 + 8 * u) 8
def bArg (b : Bytes) : Nat := fld b 56 8

/-- Forms of a vector slot (R337). -/
inductive VForm where
  | none
  | register
  | scratchpad
  | accumulator
  | invalid
  deriving DecidableEq, Repr

/-- The form of a vector opcode (Table BEAT-7). -/
def vForm (op : Nat) : VForm :=
  if op = 0 then .none
  else if (1 ≤ op && op ≤ 0x0E) || (0x10 ≤ op && op ≤ 0x1C) || (0x20 ≤ op && op ≤ 0x23) || op = 0x28 || op = 0x29 ||
    (0x3C ≤ op && op ≤ 0x3E) then .register
  else if 0x31 ≤ op && op ≤ 0x36 then .scratchpad
  else if op = 0x38 || op = 0x39 then .accumulator
  else .invalid

/-- Some reserved bit of a bundle is set (check 5). -/
def bundleRsvd (b : Bytes) : Bool :=
  let mx := fun w => let op := w % 256
    if op = 1 then bits w 63 57 != 0
    else if op = 2 then bits w 22 13 != 0 || bits w 43 27 != 0 || bits w 63 57 != 0 else false
  let vc := fun w => if vForm (w % 256) == .accumulator then bits w 31 25 != 0 else false
  let st := fun w => let op := w % 256
    if op = 1 || op = 2 then bits w 28 22 != 0 || bits w 63 45 != 0 else if op = 3 then bits w 63 45 != 0 else false
  let a := bArg b
  let ct := match bCtrl b with
    | 0 => a != 0
    | 1 => bits a 63 56 != 0
    | 2 => a != 0
    | 3 => bits a 7 4 != 0 || bits a 63 56 != 0
    | 4 => bits a 31 4 != 0
    | 5 => bits a 31 5 != 0
    | _ => false
  bits (bGate b) 7 6 != 0 || mx (bMx b 0) || mx (bMx b 1) || (List.range 4).any (fun v => vc (bVec b v)) ||
    st (bStr b 0) || st (bStr b 1) || ct

/-- Some slot or control value of a bundle is invalid (check 9). -/
def bundleInvalid (b : Bytes) : Bool :=
  let mx := fun w => let op := w % 256
    decide (2 < op) || (op == 1 && (decide (4 < bits w 22 20) || decide (4 < bits w 25 23))) || (op == 2 && decide (4 < bits w 25 23))
  let vc := fun w => let op := w % 256
    let t := bits w 22 20
    vForm op == .invalid ||
      (op == 0x28 && (bits w 27 26 == 3 || (if bit w 29 then t != 6 else decide (5 < t)))) || (op == 0x29 && decide (4 < t))
  let st := fun w => let op := w % 256
    decide (3 < op) || (decide (0 < op) && bits w 44 29 == 0)
  mx (bMx b 0) || mx (bMx b 1) || (List.range 4).any (fun v => vc (bVec b v)) || st (bStr b 0) || st (bStr b 1) ||
    decide (5 < bCtrl b) || (bCtrl b == 4 && bits (bArg b) 63 32 % 64 != 0)

/-- The class of an FMT code: 0 8-bit float, 1 integer, 2 16-bit float (Table CLUS-2). -/
def fmtClass (f : Nat) : Nat := if f = 2 then 1 else if f < 2 then 0 else 2

/-- A STEP pairs formats of different classes (check 10, R299). -/
def bundlePairing (b : Bytes) : Bool :=
  (List.range 2).any (fun u => let w := bMx b u; w % 256 == 1 && fmtClass (bits w 22 20) != fmtClass (bits w 25 23))

/-- The address registers a bundle's slots post-increment, once per slot and register (R335). -/
def postIncs (b : Bytes) : List Nat :=
  ((List.range 2).map (fun u => let w := bMx b u
    if (w % 256 == 1 || w % 256 == 2) && bit w 12 then [bits w 11 8] else [])).flatten ++
  ((List.range 4).map (fun v => let w := bVec b v
    if vForm (w % 256) == .scratchpad && bit w 18 then [bits w 17 14] else [])).flatten ++
  ((List.range 2).map (fun u => let w := bStr b u
    if 1 ≤ w % 256 && w % 256 ≤ 3 && bit w 21 then [bits w 16 13, bits w 20 17].eraseDups else [])).flatten

/-- No number occurs twice. -/
def distinct (l : List Nat) : Bool := l.eraseDups.length == l.length

/-- A STEP carries a scale out of range, or an integer STEP a scale (check 19, R300). -/
def bundleScale (b : Bytes) : Bool :=
  (List.range 2).any (fun u =>
    let w := bMx b u
    let sa := sext 8 (bits w 35 28)
    let sb := sext 8 (bits w 43 36)
    w % 256 == 1 && (decide (sa < -64) || decide (63 < sa) || decide (sb < -64) || decide (63 < sb) ||
      (bits w 22 20 == 2 && (sa != 0 || sb != 0))))

/-- A stream's bundles. -/
def bundlesOf (m : Bytes) (e : ClusEntry) : List Bytes :=
  (List.range (e.bytes / 64)).map (fun i => (m.drop (e.stream + 64 * i)).take 64)

/-- LOOP_END bundles of a stream: index, target, count. -/
def loopsOf (bs : List Bytes) : List (Nat × Nat × Nat) :=
  (bs.zipIdx.filter (fun e => bCtrl e.1 == 1)).map (fun e => (e.2, bits (bArg e.1) 55 32, bits (bArg e.1) 31 0))

/-- A loop breaks check 12: count, target, nesting or depth. -/
def loopsBad (bs : List Bytes) : Bool :=
  let ls := loopsOf bs
  ls.any (fun l => l.2.2 == 0 || decide (l.1 < l.2.1)) ||
  ls.any (fun l => ls.any (fun k => decide (l.1 < k.1) && decide (k.2.1 ≤ l.1) && decide (l.2.1 < k.2.1))) ||
  ls.any (fun l => decide (4 < (ls.filter (fun k => decide (k.2.1 ≤ l.2.1) && decide (l.1 ≤ k.1))).length))

/-- How often bundle i of a stream runs: the product of the counts of the loops around it (R344). -/
def bundleRuns (ls : List (Nat × Nat × Nat)) (i : Nat) : Nat :=
  ((ls.filter (fun l => decide (l.2.1 ≤ i) && decide (i ≤ l.1))).map (fun l => l.2.2)).prod

/-- The program beats of a stream (R334, R344). -/
def streamBeats (bs : List Bytes) : Nat :=
  let ls := loopsOf bs
  (bs.zipIdx.map (fun e => bundleRuns ls e.2 * (1 + bIdle e.1))).sum

/-- Two half-open ranges overlap. -/
def overlap (a b : Nat × Nat) : Bool := decide (a.1 < b.2) && decide (b.1 < a.2) && decide (a.1 < a.2) && decide (b.1 < b.2)

/-- Some two ranges of a list overlap. -/
def anyOverlap : List (Nat × Nat) → Bool
  | [] => false
  | a :: r => r.any (overlap a) || anyOverlap r

/-- The regions of an image (R328). -/
def imgRegions (m : Bytes) : List (Nat × Nat) :=
  [(0, 64), (imgClusTab m, imgClusTab m + 16 * imgN m), (imgResTab m, imgResTab m + 16 * imgResN m),
    (imgManifest m, imgManifest m + 16 + 12 * manSegments m)] ++
  (clusEntries m).map (fun e => (e.stream, e.stream + e.bytes))

/-- The residency declaration breaks Table BEAT-3 or R330. -/
def resBad (m : Bytes) : Bool :=
  let es := resEntries m
  es.any (fun e => e.2.1 == 0 || decide (65536 < e.1 + e.2.1)) ||
  (es.zip (es.drop 1)).any (fun p => decide (p.2.1 < p.1.1 + p.1.2.1)) || decide (65536 < imgResN m)

/-- All bytes of a range are zero. -/
def zeros (m : Bytes) (off n : Nat) : Bool := ((m.drop off).take n).all (fun b => b == 0)

/-- The image checks of Table BEAT-13A in order: the first code that fails (R359). -/
def imageCheck (m : Bytes) (admitBytes : Nat) : Option Nat :=
  let es := clusEntries m
  let bss := es.map (bundlesOf m)
  let bs := bss.flatten
  let man := imgManifest m
  let segs := manSegments m
  let sg := (List.range segs).map (fun j => segment (manBytes m) j)
  if fld m 0 4 != 0x4E5A4645 || fld m 4 2 != 1 then some 1
  else if crc32c (m.take 12 ++ [0, 0, 0, 0] ++ m.drop 16) != imgCrc m then some 2
  else if imgBytes m != admitBytes then some 3
  else if [imgClusTab m, imgResTab m, man].any (fun o => o % 64 != 0) || es.any (fun e => e.stream % 64 != 0) ||
        (imgRegions m).any (fun r => decide (imgBytes m < r.2)) || anyOverlap (imgRegions m) then some 4
  else if bits (imgFlags m) 15 1 != 0 || !zeros m 18 2 || !zeros m 48 8 ||
        (List.range (imgResN m)).any (fun i => bits (byteAt m (imgResTab m + 16 * i + 8)) 7 1 != 0 || !zeros m (imgResTab m + 16 * i + 9) 7) ||
        !zeros m (man + 3) 1 || !zeros m (man + 6) 10 || (List.range segs).any (fun j => !zeros m (man + 26 + 12 * j) 2) ||
        bs.any bundleRsvd then some 5
  else if imgN m == 0 || decide (128 < imgN m) then some 6
  else if decide (imgMF m < 32) || decide (80 < imgMF m) then some 7
  else if es.any (fun e => e.bytes % 64 != 0 || decide (e.bytes < 64) || e.sp % 4096 != 0 || decide (e.sp < 4096) || decide (2097152 < e.sp) ||
        e.loadAt % 64 != 0 || decide (e.sp < e.loadAt + e.bytes)) then some 8
  else if bs.any bundleInvalid then some 9
  else if bs.any bundlePairing then some 10
  else if bs.any (fun b => !distinct (postIncs b)) then some 11
  else if bss.any loopsBad then some 12
  else if bss.any (fun l => match l.getLast? with
        | none => true
        | some e => bCtrl e != 2 || bIdle e != 0 || (l.dropLast).any (fun b => bCtrl b == 2) || streamBeats l != imgBeats m) then some 13
  else if resBad m then some 14
  else if (!imgSpill m && resCount m true != 0) || (imgSpill m && decide ((resCount m false + resCount m true) / 16 < resCount m true)) then some 15
  else if segs == 0 || decide (256 < segs) then some 16
  else if sg.any (fun e => e.1 == 0 || e.2.1 == 0 || decide (e.2.2 < e.2.1) || e.2.2 == 0 || decide (1400 < e.2.2)) ||
        byteAt m (man + 2) != imgMF m then some 17
  else if (sg.map (fun e => e.1)).sum != imgBeats m then some 18
  else if bs.any bundleScale then some 19
  else none

end Sys2Proof.Machine
end

