-- ==== Sys2Proof/Machine/Flags.lean ====
section
/-! DEFINITION. The sticky flags: the numeric status word of a cluster (Table CLUS-6). -/

namespace Sys2Proof.Machine

/-- The conditions of Table CLUS-6 that one operation met. -/
structure Nsw where
  nv : Bool := false
  of : Bool := false
  sat : Bool := false
  nanIn : Bool := false
  psn : Bool := false
  dz : Bool := false
  deriving DecidableEq, Repr

/-- Either operation's conditions. -/
def Nsw.or (a b : Nsw) : Nsw :=
  { nv := a.nv || b.nv, of := a.of || b.of, sat := a.sat || b.sat, nanIn := a.nanIn || b.nanIn, psn := a.psn || b.psn, dz := a.dz || b.dz }

/-- The bits of Table CLUS-6. -/
def Nsw.word (a : Nsw) : W32 :=
  BitVec.ofNat 32 (b2n a.nv + 2 * b2n a.of + 4 * b2n a.sat + 8 * b2n a.nanIn + 16 * b2n a.psn + 32 * b2n a.dz)

/-- Set the sticky bits of an NSW (R316). -/
def nswSet (w : W32) (a : Nsw) : W32 := w ||| a.word

/-- Clear the NSW bits that a mask selects (R316, Table BEAT-7 code 0x3D). -/
def nswClear (w : W32) (mask : Nat) : W32 := w &&& ~~~(BitVec.ofNat 32 mask)

end Sys2Proof.Machine
end

