-- ==== Sys2Proof/Machine/Numerics.lean ====
section
/-! DEFINITION. Number formats, rounding, matrix accumulation, vector arithmetic and conversions, bit for bit (R298 to R316). -/

namespace Sys2Proof.Machine

/-- A decoded float: NaN, an infinity, or (−1)^neg × m × 2^e exactly. -/
inductive FV where
  | nan
  | inf (neg : Bool)
  | fin (neg : Bool) (m : Nat) (e : Int)
  deriving DecidableEq, Repr

/-- A binary float format (Table CLUS-4). -/
structure Fmt where
  eb : Nat
  mb : Nat
  bias : Nat
  /-- E4M3 has no infinity and one NaN fraction (R309). -/
  e4m3 : Bool := false
  canon : Nat
  deriving DecidableEq, Repr

def fmtE4M3 : Fmt := { eb := 4, mb := 3, bias := 7, e4m3 := true, canon := 0x7F }
def fmtE5M2 : Fmt := { eb := 5, mb := 2, bias := 15, canon := 0x7E }
def fmtBF16 : Fmt := { eb := 8, mb := 7, bias := 127, canon := 0x7FC0 }
def fmtFP16 : Fmt := { eb := 5, mb := 10, bias := 15, canon := 0x7E00 }
def fmtFP32 : Fmt := { eb := 8, mb := 23, bias := 127, canon := 0x7FC00000 }

/-- Decode a float of a format (R309, R310). -/
def Fmt.decode (k : Fmt) (x : Nat) : FV :=
  let neg := bit x (k.eb + k.mb)
  let e := bits x (k.eb + k.mb - 1) k.mb
  let m := x % 2 ^ k.mb
  let top := 2 ^ k.eb - 1
  if k.e4m3 then
    if e = top && m = 2 ^ k.mb - 1 then .nan
    else if e = 0 then .fin neg m (1 - (k.bias : Int) - k.mb)
    else .fin neg (2 ^ k.mb + m) ((e : Int) - k.bias - k.mb)
  else if e = top then (if m = 0 then .inf neg else .nan)
  else if e = 0 then .fin neg m (1 - (k.bias : Int) - k.mb)
  else .fin neg (2 ^ k.mb + m) ((e : Int) - k.bias - k.mb)

/-- The largest finite magnitude of a format, as m × 2^e. -/
def Fmt.maxFin (k : Fmt) : Nat × Int :=
  if k.e4m3 then (14, 5) else (2 ^ (k.mb + 1) - 1, ((2 ^ k.eb - 2 : Nat) : Int) - k.bias - k.mb)

/-- Rounding modes (R312). -/
inductive Rnd where
  | rne
  | rtz
  | sr (r : Nat)
  deriving DecidableEq, Repr

/-- ⌊log2(m × 2^e)⌋ for m > 0. -/
def flog2 (m : Nat) (e : Int) : Int := (Nat.log2 m : Int) + e

/-- m × 2^e ≤ m' × 2^e'. -/
def dyLe (m : Nat) (e : Int) (m' : Nat) (e' : Int) : Bool :=
  if e ≤ e' then decide (m ≤ m' * 2 ^ (e' - e).toNat) else decide (m * 2 ^ (e - e').toNat ≤ m')

/-- Round an exact magnitude m × 2^e to a multiple of 2^q by a mode. -/
def roundTo (md : Rnd) (m : Nat) (e q : Int) : Nat :=
  if q ≤ e then m * 2 ^ (e - q).toNat
  else
    let s := (q - e).toNat
    let n := m / 2 ^ s
    let rem := m % 2 ^ s
    match md with
    | .rne => if 2 ^ s < 2 * rem || (2 * rem = 2 ^ s && n % 2 = 1) then n + 1 else n
    | .rtz => n
    | .sr r => if r < rem * 65536 / 2 ^ s then n + 1 else n

/-- The bits of n × 2^q, a value on the format's grid within its range. -/
def Fmt.encodeGrid (k : Fmt) (neg : Bool) (n : Nat) (q : Int) : Nat :=
  let sgn := if neg then 2 ^ (k.eb + k.mb) else 0
  let (n, q) := if 2 ^ (k.mb + 1) ≤ n then (n / 2, q + 1) else (n, q)
  if n < 2 ^ k.mb then sgn + n
  else sgn + (q + k.mb + k.bias).toNat * 2 ^ k.mb + (n - 2 ^ k.mb)

/-- The signed infinity of a format. -/
def Fmt.infBits (k : Fmt) (neg : Bool) : Nat :=
  (if neg then 2 ^ (k.eb + k.mb) else 0) + (2 ^ k.eb - 1) * 2 ^ k.mb

/-- The signed largest finite value of a format. -/
def Fmt.maxBits (k : Fmt) (neg : Bool) : Nat :=
  let (m, e) := k.maxFin
  k.encodeGrid neg m e

/-- Round an exact magnitude into a format, with the overflow outcomes of Table CLUS-5 (R312, R314, R315). -/
def Fmt.round (k : Fmt) (md : Rnd) (sat neg : Bool) (m : Nat) (e : Int) : Nat × Nsw :=
  if m = 0 then (if neg then 2 ^ (k.eb + k.mb) else 0, {})
  else
    let q := max (flog2 m e) (1 - (k.bias : Int)) - k.mb
    let n := roundTo md m e q
    if dyLe n q k.maxFin.1 k.maxFin.2 then (k.encodeGrid neg n q, {})
    else match md with
      | .rtz => (k.maxBits neg, {})
      | _ => if sat then (k.maxBits neg, { sat := true })
        else (if k.e4m3 then k.canon else k.infBits neg, { of := true })

/-- FP32 from an exact magnitude, round to nearest even (R303, R306). -/
def toF32 (neg : Bool) (m : Nat) (e : Int) : W32 × Nsw :=
  let (x, w) := fmtFP32.round .rne false neg m e
  (BitVec.ofNat 32 x, w)

/-- The canonical NaN of FP32 (R311). -/
def canonNaN : W32 := 0x7FC00000

/-- An FP32 infinity. -/
def infF32 (neg : Bool) : W32 := BitVec.ofNat 32 (fmtFP32.infBits neg)

/-- An FP32 zero. -/
def zeroF32 (neg : Bool) : W32 := if neg then 0x80000000 else 0

/-- Decode FP32. -/
def f32 (x : W32) : FV := fmtFP32.decode x.toNat

def FV.isNan : FV → Bool
  | .nan => true
  | _ => false

/-- A signed integer as sign and magnitude. -/
def signMag (x : Int) : Bool × Nat := (decide (x < 0), x.natAbs)

/-- The exact value of a finite float in units of 2^q, where q is at most its exponent. -/
def unitsOf (neg : Bool) (m : Nat) (e q : Int) : Int :=
  let v := ((m * 2 ^ (e - q).toNat : Nat) : Int)
  if neg then -v else v

/-! ### Matrix accumulation (R303, R305) -/

/-- The exact product of two decoded floats, scaled by 2^s; none for an infinity times a zero (R300, R303). -/
def mulFV (a b : FV) (s : Int) : Option FV :=
  match a, b with
  | .nan, _ => some .nan
  | _, .nan => some .nan
  | .inf p, .inf q => some (.inf (p != q))
  | .inf p, .fin q m _ => if m = 0 then none else some (.inf (p != q))
  | .fin p m _, .inf q => if m = 0 then none else some (.inf (p != q))
  | .fin p m e, .fin q m' e' => some (.fin (p != q) (m * m') (e + e' + s))

/-- A finite term cut to a signed multiple of 2^(emax − 60), in those units, towards zero in magnitude (R303). -/
def cutTerm (q : Int) : FV → Int
  | .fin neg m e =>
    let v : Nat := if q ≤ e then m * 2 ^ (e - q).toNat else m / 2 ^ (q - e).toNat
    if neg then -(v : Int) else v
  | _ => 0

/-- The largest ⌊log2 |t|⌋ over the nonzero finite terms (R303). -/
def emaxOf : List FV → Option Int
  | [] => none
  | t :: r => match t, emaxOf r with
    | .fin _ m e, some x => if m = 0 then some x else some (max x (flog2 m e))
    | .fin _ m e, none => if m = 0 then none else some (flog2 m e)
    | _, x => x

/-- One output element of a float step: the products and the accumulator value summed as R303 gives. -/
def floatStep (prods : List (Option FV)) (acc : FV) : W32 × Nsw :=
  let terms := prods.filterMap id ++ [acc]
  if terms.any FV.isNan then (canonNaN, { nanIn := true })
  else if prods.any Option.isNone then (canonNaN, { nv := true })
  else
    let pos := terms.any (fun t => t == .inf false)
    let neg := terms.any (fun t => t == .inf true)
    if pos && neg then (canonNaN, { nv := true })
    else if pos then (infF32 false, {})
    else if neg then (infF32 true, {})
    else match emaxOf terms with
      | none =>
        let allNeg := terms.all (fun t => match t with | .fin n _ _ => n | _ => false)
        (zeroF32 allNeg, {})
      | some emax =>
        let s := (terms.map (cutTerm (emax - 60))).sum
        let (n, m) := signMag s
        toF32 n m (emax - 60)

/-- One output element of an integer step: exact sum, clamped to INT32 (R305). -/
def intStep (prods : List Int) (acc : Int) : W32 × Nsw :=
  let s := prods.sum + acc
  let c := clampI (-(2 ^ 31)) (2 ^ 31 - 1) s
  (BitVec.ofInt 32 c, { sat := s != c })

/-- The float format of an FMT code: 0 E4M3, 1 E5M2, 3 BF16, 4 FP16 (R336). -/
def fmtOf : Nat → Fmt
  | 0 => fmtE4M3
  | 1 => fmtE5M2
  | 3 => fmtBF16
  | _ => fmtFP16

/-! ### FP32 arithmetic (R306, R307, R310) -/

/-- The exact sum of two finite floats, rounded once. -/
def sumFin (an : Bool) (am : Nat) (ae : Int) (bn : Bool) (bm : Nat) (be : Int) : W32 × Nsw :=
  if am = 0 && bm = 0 then (zeroF32 (an && bn), {})
  else
    let q := min ae be
    let (n, m) := signMag (unitsOf an am ae q + unitsOf bn bm be q)
    if m = 0 then (zeroF32 false, {}) else toF32 n m q

/-- Addition of two decoded floats. -/
def addFV (a b : FV) : W32 × Nsw :=
  match a, b with
  | .nan, _ => (canonNaN, { nanIn := true })
  | _, .nan => (canonNaN, { nanIn := true })
  | .inf p, .inf q => if p = q then (infF32 p, {}) else (canonNaN, { nv := true })
  | .inf p, _ => (infF32 p, {})
  | _, .inf q => (infF32 q, {})
  | .fin p m e, .fin q m' e' => sumFin p m e q m' e'

/-- Negate a decoded float. -/
def FV.negate : FV → FV
  | .nan => .nan
  | .inf n => .inf (!n)
  | .fin n m e => .fin (!n) m e

/-- FP32 multiplication. -/
def mulF (a b : FV) : W32 × Nsw :=
  if a.isNan || b.isNan then (canonNaN, { nanIn := true })
  else match mulFV a b 0 with
    | none => (canonNaN, { nv := true })
    | some (.inf n) => (infF32 n, {})
    | some (.fin n m e) => if m = 0 then (zeroF32 n, {}) else toF32 n m e
    | some .nan => (canonNaN, {})

/-- Fused multiply-add: one rounding of A × B + C. -/
def fmaF (a b c : FV) : W32 × Nsw :=
  if a.isNan || b.isNan || c.isNan then (canonNaN, { nanIn := true })
  else match mulFV a b 0 with
    | none => (canonNaN, { nv := true })
    | some p => addFV p c

/-- Numeric order of two decoded floats, none a NaN. -/
def ltFV (a b : FV) : Bool :=
  match a, b with
  | .inf n, .inf m => n && !m
  | .inf n, _ => n
  | _, .inf m => !m
  | .fin n m e, .fin n' m' e' =>
    let q := min e e'
    decide (unitsOf n m e q < unitsOf n' m' e' q)
  | _, _ => false

/-- Numeric equality of two decoded floats, none a NaN. -/
def eqFV (a b : FV) : Bool := !ltFV a b && !ltFV b a && !a.isNan && !b.isNan

/-- FP32 min (`wantMin`) or max; of a NaN and a number the number (R306); −0 counts below +0 (log entry 32). -/
def minMaxF (wantMin : Bool) (x y : W32) : W32 × Nsw :=
  let a := f32 x
  let b := f32 y
  if a.isNan && b.isNan then (canonNaN, { nanIn := true })
  else if a.isNan then (y, { nanIn := true })
  else if b.isNan then (x, { nanIn := true })
  else
    let less := if eqFV a b then x.getLsbD 31 && !y.getLsbD 31 else ltFV a b
    (if less = wantMin then x else y, {})

/-- FP32 abs and neg; a NaN gives the canonical NaN (R310). -/
def signF (absolute : Bool) (x : W32) : W32 × Nsw :=
  if (f32 x).isNan then (canonNaN, { nanIn := true })
  else (if absolute then x &&& 0x7FFFFFFF else x ^^^ 0x80000000, {})

/-- FP32 compare: all ones for true (R338); a NaN compares false. -/
def cmpF (lt : Bool) (x y : W32) : W32 × Nsw :=
  let a := f32 x
  let b := f32 y
  if a.isNan || b.isNan then (0, { nanIn := true })
  else (if (if lt then ltFV a b else eqFV a b) then 0xFFFFFFFF else 0, {})

/-- FP32 from a quotient floor with a sticky bit: (2 × n + sticky) × 2^(e − 1). -/
def roundSticky (neg : Bool) (n : Nat) (sticky : Bool) (e : Int) : W32 × Nsw := toF32 neg (2 * n + b2n sticky) (e - 1)

/-- FP32 reciprocal, correctly rounded (Table CLUS-3). -/
def recipF (x : W32) : W32 × Nsw :=
  match f32 x with
  | .nan => (canonNaN, { nanIn := true })
  | .inf n => (zeroF32 n, {})
  | .fin n m e =>
    if m = 0 then (infF32 n, { dz := true })
    else roundSticky n (2 ^ 80 / m) (decide (2 ^ 80 % m ≠ 0)) (-80 - e)

/-- FP32 square root, correctly rounded (Table CLUS-3). -/
def sqrtF (x : W32) : W32 × Nsw :=
  match f32 x with
  | .nan => (canonNaN, { nanIn := true })
  | .fin n m e =>
    if m = 0 then (zeroF32 n, {})
    else if n then (canonNaN, { nv := true })
    else
      let (m, e) := if e % 2 = 0 then (m, e) else (2 * m, e - 1)
      let r := isqrt (m * 2 ^ 80)
      roundSticky false r (decide (r * r ≠ m * 2 ^ 80)) (e / 2 - 40)
  | .inf n => if n then (canonNaN, { nv := true }) else (infF32 false, {})

/-- FP32 reciprocal square root, correctly rounded (Table CLUS-3, Table CLUS-6 bit DZ). -/
def rsqrtF (x : W32) : W32 × Nsw :=
  match f32 x with
  | .nan => (canonNaN, { nanIn := true })
  | .fin n m e =>
    if m = 0 then (infF32 n, { dz := true })
    else if n then (canonNaN, { nv := true })
    else
      let (m, e) := if e % 2 = 0 then (m, e) else (2 * m, e - 1)
      let r := isqrt (2 ^ 160 / m)
      roundSticky false r (decide (r * r * m ≠ 2 ^ 160)) (-(e / 2) - 80)
  | .inf n => if n then (canonNaN, { nv := true }) else (zeroF32 false, {})

/-! ### Conversions (R312 to R315, R338) -/

/-- A conversion rounds a float to an integer by a mode, then clamps (R313, Table CLUS-5). -/
def toIntF (md : Rnd) (lo hi : Int) (x : FV) : Int × Nsw :=
  match x with
  | .nan => (0, { nv := true, nanIn := true })
  | .inf n => (if n then lo else hi, { sat := true })
  | .fin n m e =>
    let v := ((roundTo md m e 0 : Nat) : Int)
    let v := if n then -v else v
    let c := clampI lo hi v
    (c, { sat := v != c })

/-- Stochastic rounding of an integer target works on the signed grid: lo ≤ x < hi (R315). -/
def srSigned (r : Nat) (neg : Bool) (m : Nat) (e q : Int) : Int :=
  if q ≤ e then unitsOf neg m e q
  else
    let s := (q - e).toNat
    let v := if neg then -(m : Int) else (m : Int)
    let lo := v / (2 ^ s : Nat)
    let rem := (v % (2 ^ s : Nat)).toNat
    if r < rem * 65536 / 2 ^ s then lo + 1 else lo

/-- Stochastic rounding into a float format on the signed grid of R315. -/
def Fmt.roundSr (k : Fmt) (r : Nat) (sat neg : Bool) (m : Nat) (e : Int) : Nat × Nsw :=
  if m = 0 then (if neg then 2 ^ (k.eb + k.mb) else 0, {})
  else
    let q := max (flog2 m e) (1 - (k.bias : Int)) - k.mb
    let v := srSigned r neg m e q
    let n := v.natAbs
    if dyLe n q k.maxFin.1 k.maxFin.2 then (k.encodeGrid neg n q, {})
    else if sat then (k.maxBits neg, { sat := true })
    else (if k.e4m3 then k.canon else k.infBits neg, { of := true })

/-- FP32 to a narrower float format (Table CLUS-5). -/
def narrowF (k : Fmt) (md : Rnd) (sat : Bool) (x : FV) : Nat × Nsw :=
  match x with
  | .nan => (k.canon, { nanIn := true })
  | .inf n =>
    if sat then (k.maxBits n, { sat := true })
    else if k.e4m3 then (k.canon, { nv := true })
    else (k.infBits n, {})
  | .fin n m e => match md with
    | .sr r => k.roundSr r sat n m e
    | _ => k.round md sat n m e

/-- FP32 to an integer target by any mode. -/
def narrowI (md : Rnd) (lo hi : Int) (x : FV) : Int × Nsw :=
  match md, x with
  | .sr r, .fin n m e =>
    let v := srSigned r n m e 0
    let c := clampI lo hi v
    (c, { sat := v != c })
  | _, _ => toIntF md lo hi x

/-- INT32 to FP32 by a mode (R313). -/
def intToF (md : Rnd) (x : W32) : W32 × Nsw :=
  let (n, m) := signMag x.toInt
  match md with
  | .sr r => let (y, w) := fmtFP32.roundSr r false n m 0; (BitVec.ofNat 32 y, w)
  | _ => let (y, w) := fmtFP32.round md false n m 0; (BitVec.ofNat 32 y, w)

/-- The vector convert 0x28 on one lane: target, mode, SAT and source as the slot's fields give them (Table BEAT-7). -/
def convertLane (target : Nat) (md : Rnd) (sat fromInt : Bool) (x : W32) : W32 × Nsw :=
  if fromInt then intToF md x
  else match target with
    | 0 => let (y, w) := narrowF fmtE4M3 md sat (f32 x); (BitVec.ofNat 32 y, w)
    | 1 => let (y, w) := narrowF fmtE5M2 md sat (f32 x); (BitVec.ofNat 32 y, w)
    | 2 => let (y, w) := narrowF fmtBF16 md sat (f32 x); (BitVec.ofNat 32 y, w)
    | 3 => let (y, w) := narrowF fmtFP16 md sat (f32 x); (BitVec.ofNat 32 y, w)
    | 4 => let (y, w) := narrowI md (-128) 127 (f32 x); (BitVec.ofNat 32 (twos 8 y), w)
    | _ => let (y, w) := narrowI md (-(2 ^ 31)) (2 ^ 31 - 1) (f32 x); (BitVec.ofInt 32 y, w)

/-- The widening convert 0x29 on one lane, exact (R313). -/
def widenLane (source : Nat) (x : W32) : W32 × Nsw :=
  if source = 4 then
    let (n, m) := signMag (sext 8 x.toNat)
    toF32 n m 0
  else
    let k := match source with | 0 => fmtE4M3 | 1 => fmtE5M2 | 2 => fmtBF16 | _ => fmtFP16
    match k.decode (x.toNat % 2 ^ (1 + k.eb + k.mb)) with
    | .nan => (canonNaN, { nanIn := true })
    | .inf n => (infF32 n, {})
    | .fin n m e => if m = 0 then (zeroF32 n, {}) else toF32 n m e

/-- One step of a lane generator (R315). -/
def genStep (g : W32) : W32 :=
  let b := (g.getLsbD 31 ^^ g.getLsbD 21) ^^ (g.getLsbD 1 ^^ g.getLsbD 0)
  (g <<< 1) ||| (if b then 1 else 0)

/-- The pairwise reduction of R306: neighbours, then pairs of pairs. -/
def pairwise (f : W32 → W32 → W32 × Nsw) : List W32 → List W32 × Nsw
  | a :: b :: r =>
    let (x, w) := f a b
    let (rest, w') := pairwise f r
    (x :: rest, w.or w')
  | l => (l, {})

/-- The reduction tree over 32 lanes (R306). -/
def reduceTree (f : W32 → W32 → W32 × Nsw) : Nat → List W32 → W32 × Nsw
  | 0, l => (l.headD 0, {})
  | n + 1, l =>
    let (l', w) := pairwise f l
    let (x, w') := reduceTree f n l'
    (x, w.or w')

end Sys2Proof.Machine
end

