-- ==== Sys2Proof/Machine/Cluster.lean ====
section
/-! DEFINITION. One cluster in one program beat: scratchpad, matrix units, vector unit, control operations (R286 to R316, R334 to R346). -/

namespace Sys2Proof.Machine

/-- A cluster at work in a beat. -/
structure Work where
  c : Clus
  /-- The program beat. -/
  beat : Nat
  /-- Scratchpad lines whose contents are open: pieces in flight write them (R357, R358). -/
  loose : List Nat
  /-- Lines stored earlier in this beat. -/
  stored : List Nat := []
  /-- Breach codes met (Table BEAT-13). -/
  codes : List Nat := []
  /-- Conditions of the matrix steps, set at the end of the beat. -/
  late : Nsw := {}
  /-- Index of the next free value. -/
  fr : Nat
  deriving DecidableEq, Repr

def Work.mod (w : Work) (f : Clus → Clus) : Work := { w with c := f w.c }
def Work.breach (w : Work) (code : Nat) : Work := { w with codes := w.codes ++ [code] }
def Work.flag (w : Work) (n : Nsw) : Work := w.mod fun c => { c with nsw := nswSet c.nsw n }

/-- A breach if a test holds. -/
def Work.breachIf (b : Bool) (code : Nat) (w : Work) : Work := if b then w.breach code else w

/-! ### Addresses (R335) -/

/-- One address register. -/
def Clus.ar (c : Clus) (i : Nat) : AddrReg := tget {} c.ars i

/-- The line an address register and an offset in lines name; the low six bits take no part (log entry 33). -/
def lineAddr (c : Clus) (ar off : Nat) : Nat := ((c.ar ar).v.toNat / 64 + off) * 64

/-- Some 64-bit word of a byte range is poisoned (R292). -/
def wordsPoisoned (c : Clus) (a n : Nat) : Bool := c.spPsn.any (fun k => a / 8 ≤ k && k < (a + n) / 8)

/-- Read one scratchpad line in the beat: bytes and poison. A line stored earlier in the beat, or that a piece in flight writes, reads
as free values (R339, R358); an address at or above SP_BYTES is breach 6. -/
def readLine (a : Nat) (w : Work) : Bytes × Bool × Work :=
  if w.c.spBytes ≤ a then (List.replicate 64 0, false, w.breach 6)
  else if w.stored.contains a || w.loose.contains a then
    ((List.range 64).map (fun i => Config.freeValue 8 (w.fr + i)), false, { w with fr := w.fr + 64 })
  else
    let p := wordsPoisoned w.c a 64
    (mrdN w.c.sp a 64, p, if p then w.flag { psn := true } else w)

/-- Write words into a scratchpad line: bytes, and which of its 64-bit words are poisoned. -/
def storeLine (a : Nat) (bs : Bytes) (psn : List Bool) (w : Work) : Work :=
  if w.c.spBytes ≤ a then w.breach 6
  else
    let w := w.mod fun c => { c with
      sp := mwrN c.sp a bs,
      spPsn := psn.zipIdx.foldl (fun l e => if e.1 then nadd l (a / 8 + e.2) else l.filter (fun k => k != a / 8 + e.2)) c.spPsn }
    { w with stored := a :: w.stored }

/-! ### Vector registers and accumulators -/

/-- The lanes of a vector register. -/
def Clus.reg (c : Clus) (r : Nat) : List PW := (List.range 32).map (fun l => tget {} c.vreg (32 * r + l))

/-- Write the lanes of a vector register, usable from a beat on. -/
def setReg (r : Nat) (v : List PW) (ready : Nat) (w : Work) : Work :=
  w.mod fun c => { c with vreg := v.zipIdx.foldl (fun t e => tput {} t (32 * r + e.2) e.1) c.vreg, vReady := tput 0 c.vReady r ready }

/-- Reading a vector register before it is ready is breach 2 (R339). -/
def useReg (r : Nat) (w : Work) : Work := w.breachIf (decide (w.beat < tget 0 w.c.vReady r)) 2

/-- The key of an accumulator element. -/
def accKey (u tile row col : Nat) : Nat := ((u * 8 + tile) * 64 + row) * 48 + col

/-- The key of a row quad. -/
def quadKey (u tile quad : Nat) : Nat := (u * 8 + tile) * 16 + quad

/-- Apply an operation to two lists of lanes, with poison. -/
def lanes2 (f : W32 → W32 → W32 × Nsw) (a b : List PW) : List PW × Nsw :=
  let rs := List.zipWith (fun x y => let r := f x.v y.v; (({ v := r.1, psn := x.psn || y.psn } : PW), r.2)) a b
  (rs.map (·.1), rs.foldl (fun n r => n.or r.2) {})

/-- Apply an operation to one list of lanes. -/
def lanes1 (f : W32 → W32 × Nsw) (a : List PW) : List PW × Nsw := lanes2 (fun x _ => f x) a (a.map (fun x => { x with v := 0 }))

/-- An INT32 operation of Table BEAT-7; shifts are handled apart. -/
def intLane (op : Nat) (x y : W32) : W32 :=
  match op with
  | 0x10 => x + y
  | 0x11 => x - y
  | 0x12 => x * y
  | 0x13 => x <<< y.toNat
  | 0x14 => x >>> y.toNat
  | 0x15 => x.sshiftRight y.toNat
  | 0x16 => x &&& y
  | 0x17 => x ||| y
  | 0x18 => x ^^^ y
  | 0x19 => if y.slt x then y else x
  | 0x1A => if x.slt y then y else x
  | 0x1B => if x = y then 0xFFFFFFFF else 0
  | _ => if x.slt y then 0xFFFFFFFF else 0

/-- A free lane value. -/
def freeLane (psn : Bool) (i : Nat) : PW := { v := Config.freeValue 32 i, psn := psn }

/-- Shift lanes by counts; a count of 32 or more gives a free value, since the spec names no result for it (log entry 34). -/
def shiftLanes (op : Nat) (a b : List PW) (w : Work) : List PW × Work :=
  let rs := (List.zip a b).zipIdx.map (fun e =>
    if 32 ≤ e.1.2.v.toNat then freeLane (e.1.1.psn || e.1.2.psn) (w.fr + e.2)
    else { v := intLane op e.1.1.v e.1.2.v, psn := e.1.1.psn || e.1.2.psn })
  (rs, { w with fr := w.fr + 32 })

/-- The FP32 two-operand operations of Table BEAT-7. -/
def floatLane (op : Nat) (x y : W32) : W32 × Nsw :=
  match op with
  | 1 => addFV (f32 x) (f32 y)
  | 2 => addFV (f32 x) (f32 y).negate
  | 3 => mulF (f32 x) (f32 y)
  | 5 => minMaxF true x y
  | 6 => minMaxF false x y
  | 9 => cmpF false x y
  | _ => cmpF true x y

/-- The FP32 one-operand operations of Table BEAT-7. -/
def floatLane1 (op : Nat) (x : W32) : W32 × Nsw :=
  match op with
  | 7 => signF true x
  | 8 => signF false x
  | 0x0C => recipF x
  | 0x0D => sqrtF x
  | _ => rsqrtF x

/-- Advance every lane generator one step and give the 16-bit draws (R315). -/
def advanceGens (c : Clus) : List Nat × Clus :=
  let gs := (List.range 32).map (fun l => genStep (tget 0 c.gens l))
  (gs.map (fun g => g.toNat % 65536), { c with gens := gs.zipIdx.foldl (fun t e => tput 0 t e.2 e.1) c.gens })

/-- The vector convert 0x28 (R312 to R315, R338). -/
def convertOp (d a bf cf : Nat) (w : Work) : Work :=
  let target := bf % 8
  let mode := cf % 4
  let sat := bit cf 2
  let w := useReg a w
  let src := w.c.reg a
  if mode = 2 then
    let w := w.breachIf (decide (w.beat < w.c.genReady)) 2
    let (rs, c') := advanceGens w.c
    let w := w.mod fun _ => c'
    let out := List.zipWith (fun x r => let y := convertLane target (.sr r) sat (bit cf 3) x.v; (({ v := y.1, psn := x.psn } : PW), y.2)) src rs
    setReg d (out.map (·.1)) (w.beat + 1) (w.flag (out.foldl (fun n r => n.or r.2) {}))
  else
    let (v, n) := lanes1 (convertLane target (if mode = 1 then .rtz else .rne) sat (bit cf 3)) src
    setReg d v (w.beat + 1) (w.flag n)

/-- A register form (Tables BEAT-7 and BEAT-8). -/
def vecRegister (op d a b cf : Nat) (w : Work) : Work :=
  let bt := w.beat
  if op = 4 then
    let w := useReg cf (useReg b (useReg a w))
    let rs := List.zipWith (fun (p : PW × PW) (z : PW) => let y := fmaF (f32 p.1.v) (f32 p.2.v) (f32 z.v); (({ v := y.1, psn := p.1.psn || p.2.psn || z.psn } : PW), y.2))
      (List.zip (w.c.reg a) (w.c.reg b)) (w.c.reg cf)
    setReg d (rs.map (·.1)) (bt + 1) (w.flag (rs.foldl (fun n r => n.or r.2) {}))
  else if op = 0x0B then
    let w := useReg cf (useReg b (useReg a w))
    let rs := List.zipWith (fun (p : PW × PW) (z : PW) => ({ v := if z.v = 0 then p.2.v else p.1.v, psn := p.1.psn || p.2.psn || z.psn } : PW))
      (List.zip (w.c.reg a) (w.c.reg b)) (w.c.reg cf)
    setReg d rs (bt + 1) w
  else if op ≤ 0x0A && op != 7 && op != 8 then
    let w := useReg b (useReg a w)
    let (v, n) := lanes2 (floatLane op) (w.c.reg a) (w.c.reg b)
    setReg d v (bt + 1) (w.flag n)
  else if op = 7 || op = 8 || (0x0C ≤ op && op ≤ 0x0E) then
    let w := useReg a w
    let (v, n) := lanes1 (floatLane1 op) (w.c.reg a)
    setReg d v (if 0x0C ≤ op then bt + 3 else bt + 1) (w.flag n)
  else if 0x13 ≤ op && op ≤ 0x15 then
    let w := useReg b (useReg a w)
    let (v, w) := shiftLanes op (w.c.reg a) (w.c.reg b) w
    setReg d v (bt + 1) w
  else if 0x10 ≤ op && op ≤ 0x1C then
    let w := useReg b (useReg a w)
    let (v, _) := lanes2 (fun x y => (intLane op x y, {})) (w.c.reg a) (w.c.reg b)
    setReg d v (bt + 1) w
  else if op = 0x20 then
    let w := useReg a w
    if b < 32 then setReg d (List.replicate 32 ((w.c.reg a).getD b {})) (bt + 1) w
    else
      let w := setReg d (List.replicate 32 (freeLane false w.fr)) (bt + 1) w
      { w with fr := w.fr + 1 }
  else if op = 0x21 then
    let w := useReg a w
    let k := if Config.rotateUp then (32 - b % 32) % 32 else b % 32
    setReg d ((List.range 32).map (fun l => (w.c.reg a).getD ((l + k) % 32) {})) (bt + 1) w
  else if op = 0x22 || op = 0x23 then
    let w := useReg a w
    let src := w.c.reg a
    let f := fun x y => if op = 0x22 then addFV (f32 x) (f32 y) else (x + y, {})
    let (r, n) := reduceTree f 5 (src.map (·.v))
    let rest := (List.range 31).map (fun i => freeLane false (w.fr + i))
    let w := setReg d ({ v := r, psn := src.any (·.psn) } :: rest) (bt + 2) (w.flag n)
    { w with fr := w.fr + 31 }
  else if op = 0x28 then convertOp d a b cf w
  else if op = 0x29 then
    let w := useReg a w
    let (v, n) := lanes1 (widenLane (b % 8)) (w.c.reg a)
    setReg d v (bt + 1) (w.flag n)
  else if op = 0x3C then setReg d ({ v := w.c.nsw } :: List.replicate 31 {}) (bt + 1) w
  else if op = 0x3D then w.mod fun c => { c with nsw := nswClear c.nsw a }
  else if op = 0x3E then
    let w := useReg a w
    let s0 := ((w.c.reg a).getD 0 {}).v
    w.mod fun c => { c with
      genReady := bt + 1,
      gens := (List.range 32).foldl (fun t l => let x := s0 + BitVec.ofNat 32 l; tput 0 t l (if x = 0 then 1 else x)) c.gens }
  else w

/-- The 64-bit words of a line that poisoned lanes touch; `per` lanes share a word. -/
def lanePoison (per : Nat) (v : List PW) : List Bool :=
  (List.range (v.length / per)).map (fun i => ((v.drop (per * i)).take per).any (·.psn))

/-- A scratchpad form: loads and stores of 128, 64 and 32 bytes (Table BEAT-7). -/
def vecScratch (op r a : Nat) (w : Work) : Work :=
  let bt := w.beat
  if op = 0x31 then
    let (x, _, w) := readLine a w
    let (y, _, w) := readLine (a + 64) w
    let bs := x ++ y
    setReg r ((List.range 32).map (fun l => { v := BitVec.ofNat 32 (fld bs (4 * l) 4), psn := wordsPoisoned w.c (a + 4 * l / 8 * 8) 8 })) (bt + 1) w
  else if op = 0x35 || op = 0x36 then
    let k := if op = 0x35 then 2 else 1
    if wordsPoisoned w.c a (32 * k) || w.stored.contains a || w.loose.contains a || decide (w.c.spBytes ≤ a) || k = 2 then
      let (x, _, w) := readLine a w
      setReg r ((List.range 32).map (fun l => { v := BitVec.ofNat 32 (fld x (k * l) k), psn := wordsPoisoned w.c (a + k * l / 8 * 8) 8 })) (bt + 1) w
    else
      setReg r ((List.range 32).map (fun l => { v := BitVec.ofNat 32 (fld (mrdN w.c.sp a 32) l 1) })) (bt + 1) w
  else
    let w := useReg r w
    let v := w.c.reg r
    if op = 0x32 then
      storeLine (a + 64) (((v.drop 16).map (fun x => toLe 4 x.v.toNat)).flatten) (lanePoison 2 (v.drop 16))
        (storeLine a (((v.take 16).map (fun x => toLe 4 x.v.toNat)).flatten) (lanePoison 2 (v.take 16)) w)
    else if op = 0x33 then storeLine a ((v.map (fun x => toLe 2 x.v.toNat)).flatten) (lanePoison 4 v) w
    else storeLine a ((v.map (fun x => toLe 1 x.v.toNat)).flatten) (lanePoison 8 v) w

/-- An accumulator form: read or write half a row (Table BEAT-7). -/
def vecAccum (op r u tile row half : Nat) (steps : List (Nat × Nat × Nat)) (w : Work) : Work :=
  let n := if half = 0 then 32 else 16
  let base := if half = 0 then 0 else 32
  if op = 0x38 then
    let w := w.breachIf (decide (w.beat < tget 0 w.c.accReady (quadKey u tile (row / 4)))) 3
    setReg r ((List.range 32).map (fun l => if l < n then tget {} w.c.acc (accKey u tile row (base + l)) else {})) (w.beat + 1) w
  else
    let w := useReg r w
    let w := w.breachIf (steps.contains (u, tile, row / 4)) 3
    let v := w.c.reg r
    w.mod fun c => { c with
      acc := (List.range n).foldl (fun t l => tput {} t (accKey u tile row (base + l)) (v.getD l {})) c.acc
      accReady := tput 0 c.accReady (quadKey u tile (row / 4)) (w.beat + 1) }

/-- The row quads the STEPs of a bundle update: unit, tile, quad. -/
def stepsOf (b : Bytes) : List (Nat × Nat × Nat) :=
  ((List.range 2).filter (fun u => bMx b u % 256 == 1)).map (fun u => (u, bits (bMx b u) 15 13, bits (bMx b u) 19 16))

/-- One vector slot (R337). -/
def vecSlot (b : Bytes) (v : Nat) (w : Work) : Work :=
  let x := bVec b v
  let op := x % 256
  match vForm op with
  | .register => vecRegister op (bits x 13 8) (bits x 19 14) (bits x 25 20) (bits x 31 26) w
  | .scratchpad => vecScratch op (bits x 13 8) (lineAddr w.c (bits x 17 14) (bits x 31 19)) w
  | .accumulator => vecAccum op (bits x 13 8) (bits x 14 14) (bits x 17 15) (bits x 23 18) (bits x 24 24) (stepsOf b) w
  | _ => w

/-! ### Weight loads (R301, R339 to R341) -/

/-- The key of a weight buffer. -/
def wbKey (u k : Nat) : Nat := 2 * u + k

/-- Change one weight buffer. -/
def modBuf (k : Nat) (g : WBuf → WBuf) (w : Work) : Work := w.mod fun c => { c with wbuf := tput {} c.wbuf k (g (tget {} c.wbuf k)) }

/-- Start the WLOAD of a matrix slot. -/
def startLoad (b : Bytes) (u : Nat) (w : Work) : Work :=
  let x := bMx b u
  if x % 256 != 2 then w
  else
    let src := lineAddr w.c (bits x 11 8) (bits x 56 44)
    modBuf (wbKey u (bits x 26 26)) (fun o => { o with fmt := none, load := some { src := src, fmt := bits x 25 23, mixed := o.load.isSome } }) w

/-- Read n lines of a load. -/
def loadLines (k : Nat) : Nat → Work → Work
  | 0, w => w
  | n + 1, w => match (tget {} w.c.wbuf k).load with
    | none => w
    | some l =>
      let (bs, p, w) := readLine (l.src + l.got.length) w
      loadLines k n (modBuf k (fun o => { o with load := some { l with got := l.got ++ bs, psn := l.psn || p } }) w)

/-- One cycle of every weight load: four lines each (Table BEAT-9A). -/
def loadCycle (w : Work) : Work := (List.range 4).foldl (fun w k => loadLines k 4 w) w

/-- Take the finished loads into their buffers. -/
def finishLoads (w : Work) : Work :=
  (List.range 4).foldl (fun w k => match (tget {} w.c.wbuf k).load with
    | none => w
    | some l =>
      if l.got.length < 3072 then w
      else if l.mixed then
        let data := (List.range 3072).map (fun i => Config.freeValue 8 (w.fr + i))
        let w := modBuf k (fun _ => { data := data, psn := l.psn, fmt := some l.fmt, load := none }) w
        { w with fr := w.fr + 3072 }
      else modBuf k (fun _ => { data := l.got, psn := l.psn, fmt := some l.fmt, load := none }) w) w

/-! ### Matrix steps (R298 to R305) -/

/-- Element (row, k) of an A block in one of the formats; blocks are stored row by row (log entry 35). -/
def elemA (f : Nat) (blk : Bytes) (i k : Nat) : Nat := if fmtClass f = 2 then fld blk (64 * i + 2 * k) 2 else fld blk (64 * i + k) 1

/-- Element (k, column) of a weight block. -/
def elemB (f : Nat) (blk : Bytes) (k j : Nat) : Nat := if fmtClass f = 2 then fld blk (96 * k + 2 * j) 2 else fld blk (48 * k + j) 1

/-- One output element of a STEP. -/
def stepElem (fa fb : Nat) (sc : Int) (ab wb : Bytes) (i j : Nat) (acc : W32) : W32 × Nsw :=
  if fa = 2 then intStep ((List.range 64).map (fun k => sext 8 (elemA fa ab i k) * sext 8 (elemB fb wb k j))) acc.toInt
  else
    let kn := if fmtClass fa = 2 then 32 else 64
    floatStep ((List.range kn).map (fun k => mulFV ((fmtOf fa).decode (elemA fa ab i k)) ((fmtOf fb).decode (elemB fb wb k j)) sc)) (f32 acc)

/-- The STEP of one matrix unit on the A block it has read. -/
def runStep (b : Bytes) (u : Nat) (ab : Bytes) (abPsn : Bool) (w : Work) : Work :=
  let x := bMx b u
  if x % 256 != 1 then w
  else
    let fa := bits x 22 20
    let fb := bits x 25 23
    let wb := tget {} w.c.wbuf (wbKey u (bits x 26 26))
    let w := w.breachIf (wb.load.isSome || wb.fmt != some fb) 7
    let tile := bits x 15 13
    let q := bits x 19 16
    let sc := sext 8 (bits x 35 28) + sext 8 (bits x 43 36)
    let outs := ((List.range 4).map (fun i => (List.range 48).map (fun j =>
      let key := accKey u tile (4 * q + i) j
      let old : PW := if bit x 27 then {} else tget {} w.c.acc key
      let r := stepElem fa fb sc ab wb.data i j old.v
      (key, ({ v := r.1, psn := abPsn || wb.psn || old.psn } : PW), r.2)))).flatten
    let w := w.mod fun c => { c with acc := outs.foldl (fun t o => tput {} t o.1 o.2.1) c.acc,
                                     accReady := tput 0 c.accReady (quadKey u tile q) (w.beat + 3) }
    { w with late := outs.foldl (fun n o => n.or o.2.2) (w.late.or { psn := abPsn || wb.psn }) }

/-! ### Bank use (R289, R340) -/

/-- The lines each cycle's program accesses touch, by cycle. -/
def bankLines (c : Clus) (b : Bytes) (fetch : Option Nat) (cyc : Nat) : List Nat :=
  (if cyc = 0 then fetch.toList else []) ++
  ((List.range 2).filter (fun u => bMx b u % 256 == 1)).map (fun u => lineAddr c (bits (bMx b u) 11 8) (bits (bMx b u) 56 44) + 64 * cyc) ++
  ((List.range 4).map (fun k => match (tget {} c.wbuf k).load with
    | none => []
    | some l => (List.range 4).map (fun i => l.src + l.got.length + 64 * (4 * cyc + i)))).flatten ++
  (let x := bVec b cyc
   if vForm (x % 256) == .scratchpad then
     let a := lineAddr c (bits x 17 14) (bits x 31 19)
     if x % 256 = 0x31 || x % 256 = 0x32 then [a, a + 64] else [a]
   else [])

/-- Two program accesses meet in one bank in one cycle (R287, R289). -/
def bankClash (c : Clus) (b : Bytes) (fetch : Option Nat) : Bool :=
  (List.range 4).any (fun cyc => !distinct ((bankLines c b fetch cyc).map (fun a => a / 64 % 16)))

/-! ### Control (R334, R344) -/

/-- The bundle after bundle `i`, with the loops active then (R344). -/
def nextBundle (b : Bytes) (i : Nat) (ls : List LoopFrame) : Nat × List LoopFrame :=
  if bCtrl b != 1 then (i + 1, ls)
  else
    let target := bits (bArg b) 55 32
    let count := bits (bArg b) 31 0
    match ls with
    | [] => if count ≤ 1 then (i + 1, ls) else (target, { at_ := i, left := count - 2 } :: ls)
    | l :: r =>
      if l.at_ = i then (if l.left = 0 then (i + 1, r) else (target, { l with left := l.left - 1 } :: r))
      else if count ≤ 1 then (i + 1, ls) else (target, { at_ := i, left := count - 2 } :: ls)

/-- Post-increments and the control operation, at the end of the beat (R335, R344). An address register that both change takes a free
value: the spec states no order (log entry 36). -/
def endOfBeat (b : Bytes) (w : Work) : Work :=
  let incs := postIncs b
  let w := w.mod fun c => { c with
    ars := incs.foldl (fun t i =>
    let r : AddrReg := tget {} t i
    tput {} t i { r with v := r.v + r.stride.signExtend 48 }) c.ars }
  let a := bArg b
  match bCtrl b with
  | 3 =>
    let i := bits a 3 0
    if incs.contains i then
      let w := w.mod fun c => { c with ars := tput {} c.ars i { tget {} c.ars i with v := Config.freeValue 48 w.fr } }
      { w with fr := w.fr + 1 }
    else w.mod fun c => { c with ars := tput {} c.ars i { tget {} c.ars i with v := BitVec.ofNat 48 (bits a 55 8) } }
  | 4 =>
    let i := bits a 3 0
    let w := if incs.contains i then
        let w := w.mod fun c => { c with ars := tput {} c.ars i { tget {} c.ars i with v := Config.freeValue 48 w.fr } }
        { w with fr := w.fr + 1 }
      else w
    w.mod fun c => { c with ars := tput {} c.ars i { tget {} c.ars i with stride := BitVec.ofNat 32 (bits a 63 32) } }
  | 5 => w.mod fun c => { c with arrs := tput 0 c.arrs (bits a 4 0) (BitVec.ofNat 32 (bits a 63 32)) }
  | _ => w

/-! ### One beat -/

/-- The A lines of both units in one cycle. -/
def readA (b : Bytes) (cyc : Nat) (u : Nat) (w : Work) : Bytes × Bool × Work :=
  let x := bMx b u
  if x % 256 = 1 then readLine (lineAddr w.c (bits x 11 8) (bits x 56 44) + 64 * cyc) w else ([], false, w)

/-- One cycle of a beat: matrix reads, weight loads, then the vector slot of the cycle. -/
def beatCycle (b : Bytes) (cyc : Nat) (x : Work × (Bytes × Bool) × (Bytes × Bool)) : Work × (Bytes × Bool) × (Bytes × Bool) :=
  let (b0, p0, w) := readA b cyc 0 x.1
  let (b1, p1, w) := readA b cyc 1 w
  let w := vecSlot b cyc (loadCycle w)
  (w, (x.2.1.1 ++ b0, x.2.1.2 || p0), (x.2.2.1 ++ b1, x.2.2.2 || p1))

/-- Count the units that issued in the beat (R34). -/
def countUnits (b : Bytes) (c : Clus) : Clus :=
  { c with mxBeats := c.mxBeats + b2n (bMx b 0 % 256 != 0 || bMx b 1 % 256 != 0),
           vecBeats := c.vecBeats + b2n ((List.range 4).any (fun v => vForm (bVec b v % 256) != .none)) }

/-- Issue the fetched bundle of a cluster: its slots, its control operation, and the fetch of the next (R334 to R346). -/
def issueBundle (last : Bool) (w : Work) : Work :=
  let b := w.c.fetched
  let i := w.c.pc
  let (nx, ls) := nextBundle b i w.c.loops
  let fetch := if last then none else some (w.c.loadAt + 64 * nx)
  let w := startLoad b 1 (startLoad b 0 w)
  let w := w.breachIf (bankClash w.c b fetch) 1
  let (nb, w) := match fetch with
    | none => (([] : Bytes), w)
    | some a => let r := readLine a w; (r.1, r.2.2)
  let (w, a0, a1) := beatCycle b 3 (beatCycle b 2 (beatCycle b 1 (beatCycle b 0 (w, ([], false), ([], false)))))
  let w := runStep b 1 a1.1 a1.2 (runStep b 0 a0.1 a0.2 w)
  let w := finishLoads w
  let w := endOfBeat b (w.flag w.late)
  w.mod fun c => countUnits b { c with pc := nx, loops := ls, idle := bIdle b, fetched := nb }

/-- A beat in which the cluster issues nothing: weight loads run on. -/
def idleBeat (w : Work) : Work :=
  let w := w.breachIf (bankClash w.c [] none) 1
  let w := finishLoads (loadCycle (loadCycle (loadCycle (loadCycle w))))
  w.mod fun c => { c with idle := c.idle - 1 }

/-- One program beat of one cluster. -/
def clusterBeat (last : Bool) (w : Work) : Work := if w.c.idle = 0 then issueBundle last w else idleBeat w

end Sys2Proof.Machine
end

