-- ==== Sys2Proof/Machine/Report.lean ====
section
/-! DEFINITION. Requests to the host: translation, posted writes, MSI-X messages, AER logging and the report writer. -/

namespace Sys2Proof.Machine

/-- One function (R121). -/
def State.fn (s : State) (f : Nat) : Fn := tget {} s.host.fns f

/-- Change one function. -/
def State.modFn (s : State) (f : Nat) (g : Fn → Fn) : State :=
  s.modHost fun h => { h with fns := tput {} h.fns f (g (tget {} h.fns f)) }

/-- One report ring (R183). -/
def State.rpt (s : State) (f : Nat) : Rpt := tget {} s.rings.rpts f

/-- Change one report ring. -/
def State.modRpt (s : State) (f : Nat) (g : Rpt → Rpt) : State :=
  s.modRings fun r => { r with rpts := tput {} r.rpts f (g (tget {} r.rpts f)) }

/-! ### Errors (R152) -/

/-- Log a correctable error in a function's AER capability. -/
def aerCorrectable (f : Nat) (e : AerErr) (s : State) : State :=
  s.modFn f fun x => if x.aerCor.contains e then x else { x with aerCor := x.aerCor ++ [e] }

/-- Log an uncorrectable error in a function's AER capability, with a header record while fewer than 4 stand (R114). -/
def aerUncorrectable (f : Nat) (e : AerErr) (s : State) : State :=
  s.modFn f fun x =>
    { x with aerUnc := if x.aerUnc.contains e then x.aerUnc else x.aerUnc ++ [e],
             aerHdr := if x.aerHdr.length < 4 then x.aerHdr ++ [e] else x.aerHdr }

/-! ### Translation (R146 to R150) -/

/-- Whether an ATC entry covers an address of a function. -/
def AtcEntry.covers (e : AtcEntry) (f a : Nat) : Bool := e.fn == f && e.base ≤ a && a < e.base + 2 ^ e.log2

/-- The outcome of looking an address up. -/
inductive Xl where
  /-- The request may go out with this address. -/
  | go (addr : W64)
  /-- A Translation Request must go out first. -/
  | miss

/-- The address a request of function `f` carries (R146): untranslated without ATS, else from the ATC. -/
def xlate (s : State) (f : Nat) (a : W64) (wr : Bool) : Xl :=
  if !(s.fn f).atsEn then .go a
  else match s.host.atc.find? (fun e => e.covers f a.toNat && (if wr then e.wr else e.rd)) with
    | some e => .go (e.target + BitVec.ofNat 64 (a.toNat - e.base))
    | none => .miss

/-- Mark the ATC entry of an address as most recently used (R147). -/
def atcTouch (f : Nat) (a : W64) (s : State) : State :=
  s.modHost fun h =>
    match h.atc.find? (fun e => e.covers f a.toNat) with
    | some e => { h with atc := e :: h.atc.filter (fun x => x != e) }
    | none => h

/-- Take a translation into the ATC, dropping the least recently used beyond 2,048 entries (R147). -/
def atcInsert (e : AtcEntry) (s : State) : State :=
  s.modHost fun h => { h with atc := (e :: h.atc.filter (fun x => !(x.fn == e.fn && x.base == e.base && x.log2 == e.log2))).take 2048 }

/-- Send one posted write (R792). -/
def post (f : Nat) (a : W64) (data : Bytes) (ctx : Option Nat) (s : State) : State :=
  s.modHost fun h => { h with tx := h.tx ++ [{ fn := f, addr := a, data := data, ctx := ctx }], inL1 := false }

/-- Send one posted write of an eviction (R259). -/
def postPage (f : Nat) (a : W64) (data : Bytes) (key : Nat) (s : State) : State :=
  s.modHost fun h => { h with tx := h.tx ++ [{ fn := f, addr := a, data := data, page := some key }], inL1 := false }

/-- Record a request that waits for a translation (`xl`) or for its completion. -/
def pushReq (f : Nat) (a : W64) (len : Nat) (wr : Bool) (why : Why) (xl : Bool) (s : State) : State :=
  s.modHost fun h => { h with
    nextReq := h.nextReq + 1
    inL1 := false
    reqs := h.reqs ++ [{ id := h.nextReq, fn := f, addr := a, len := len, wr := wr, why := why, xl := xl }] }

/-- Issue a read of host memory, through translation where ATS asks for it (R146). -/
def hostRead (f : Nat) (a : W64) (len : Nat) (why : Why) (s : State) : State :=
  match xlate s f a false with
  | .go _ => pushReq f a len false why false (atcTouch f a s)
  | .miss => pushReq f a len false why true s

/-! ### MSI-X (R139 to R144) -/

/-- One vector of a function. -/
def Fn.vec (x : Fn) (v : Nat) : Vec := tget {} x.vecs v

/-- Change one vector of a function. -/
def modVec (f v : Nat) (g : Vec → Vec) (s : State) : State :=
  s.modFn f fun x => { x with vecs := tput {} x.vecs v (g (x.vec v)) }

/-- Send the message of a vector, or set its pending bit where it is masked or waits (R142, R143, R160); always untranslated (R144). -/
def sendMsi (f v : Nat) (s : State) : State :=
  let x := s.fn f
  if !x.msixEn then s
  else if (x.vec v).masked || x.fnMask || !x.bme then modVec f v (fun e => { e with pending := true }) s
  else post f (x.vec v).addr (toLe 4 (x.vec v).data.toNat) none (modVec f v (fun e => { e with pending := false }) s)

/-! ### The report writer (R218 to R221) -/

/-- The 64 bytes of a report record (Table RING-7). -/
def renderRec (r : Rec) (seq a6 mctp lost phase : Nat) : Bytes :=
  packFlds 64 ([(0, 4, seq), (4, 2, r.kind), (6, 1, r.cage), (7, 1, r.source), (8, 6, r.rowTime.toNat),
    (14, 2, a6), (16, 2, mctp), (18, 2, lost)] ++ r.body ++ [(63, 1, phase)])

/-- Count one written record of a report ring towards its interrupt (R218, R219). -/
def rptAnnounce (f : Nat) (s : State) : State :=
  let q := s.rpt f
  if q.taken.coalCnt = 0 || q.taken.coalTime = 0 || q.unann + 1 ≥ q.taken.coalCnt + 1 then
    sendMsi f q.taken.vector (s.modRpt f fun q => { q with unann := 0, coalRun := false })
  else s.modRpt f fun q => { q with unann := q.unann + 1, coalRun := true }

/-- The host address of the next record of a report ring (R187). -/
def rptAddr (q : Rpt) : W64 := q.taken.sq + BitVec.ofNat 64 (64 * (q.seq.toNat % 2 ^ q.taken.size))

/-- Write one record on report ring `f` at a translated address (R220). -/
def writeRec (f : Nat) (r : Rec) (a : W64) (s : State) : State :=
  let q := s.rpt f
  let lost := if f = 0 then s.rings.lost else 0
  let ph := if (q.seq.toNat / 2 ^ q.taken.size) % 2 = 0 then 1 else 0
  let data := renderRec r q.seq.toNat s.rings.a6Displaced s.rings.mctpDropped lost ph
  let s := s.modRings fun g => { g with a6Displaced := 0, mctpDropped := 0, lost := if f = 0 then 0 else g.lost }
  rptAnnounce f (post f a data none (s.modRpt f fun q => { q with seq := q.seq + 1 }))

/-- Write the waiting records in order; those of a function behind a waiting translation or without Bus Master Enable stay (R160). -/
def flushList : List (Nat × Rec) → List Nat → State → List (Nat × Rec) × State
  | [], _, s => ([], s)
  | (f, r) :: rest, blocked, s =>
    if blocked.contains f || !(s.fn f).bme then
      let (w, s) := flushList rest (f :: blocked) s
      ((f, r) :: w, s)
    else match xlate s f (rptAddr (s.rpt f)) true with
      | .go a => flushList rest blocked (writeRec f r a (atcTouch f (rptAddr (s.rpt f)) s))
      | .miss =>
        let (w, s) := flushList rest (f :: blocked) (pushReq f (rptAddr (s.rpt f)) 64 true (.report f) true s)
        ((f, r) :: w, s)

/-- The functions whose report write waits for a translation. -/
def rptBlocked (s : State) : List Nat :=
  s.host.reqs.filterMap (fun q => match q.why with | .report f => some f | _ => none)

/-- Write every waiting record that can be written. -/
def flushReports (s : State) : State :=
  let r := flushList s.rings.rptWait (rptBlocked s) s
  r.2.modRings fun g => { g with rptWait := r.1 }

/-- Give a record to the report writer for function `f`: its own ring, else the PF ring, else it is lost and counted (R221).
No record for a function is written once its reset has started (R224). -/
def report (f : Nat) (r : Rec) (s : State) : State :=
  if (s.fn f).flr && f != 0 then s
  else
    let t := if (s.rpt f).en then f else 0
    if !(s.rpt t).en then s.modRings fun g => { g with lost := satAdd 65535 g.lost 1 }
    else flushReports (s.modRings fun g => { g with rptWait := g.rptWait ++ [(t, r)] })

/-- Report a record of the control or data plane that concerns a cage. -/
def reportCtl (kind : Nat) (body : List Fld) (cage : Nat) (s : State) : State := report cage (ctlRec kind body s cage) s

end Sys2Proof.Machine
end

