-- ==== Sys2Proof/Machine/Rings.lean ====
section
/-! DEFINITION. Rings, slots and command contexts: binding, issue, the checks before execution, completion, stopping. -/

namespace Sys2Proof.Machine

/-- The number of a ring: 16 × function + ring. -/
def ringKey (f r : Nat) : Nat := 16 * f + r

/-- One command ring. -/
def State.ring (s : State) (k : Nat) : Ring := tget {} s.rings.rings k

/-- Change one command ring. -/
def State.modRing (s : State) (k : Nat) (g : Ring → Ring) : State :=
  s.modRings fun x => { x with rings := tput {} x.rings k (g (tget {} x.rings k)) }

/-- One slot. -/
def State.slot (s : State) (i : Nat) : Slot := tget {} s.rings.slots i

/-- Change one slot. -/
def State.modSlot (s : State) (i : Nat) (g : Slot → Slot) : State :=
  s.modRings fun x => { x with slots := tput {} x.slots i (g (tget {} x.slots i)) }

/-- One command context. -/
def State.ctx (s : State) (n : Nat) : Ctx := tget {} s.rings.ctxs n

/-- Change one command context. -/
def State.modCtx (s : State) (n : Nat) (g : Ctx → Ctx) : State :=
  s.modRings fun x => { x with ctxs := tput {} x.ctxs n (g (tget {} x.ctxs n)) }

/-- The contexts in use, with their numbers (R211). -/
def State.usedCtxs (s : State) : List (Nat × Ctx) := s.rings.ctxs.filter (fun e => e.2.ph != .free)

/-- The cage of a context: its ring's function (R121). -/
def Ctx.cage (c : Ctx) : Nat := c.ring / 16

/-- One cage. -/
def State.cage (s : State) (c : Nat) : Cage := tget {} s.cages.cages c

/-- Change one cage. -/
def State.modCage (s : State) (c : Nat) (g : Cage → Cage) : State :=
  s.modCages fun x => { x with cages := tput {} x.cages c (g (tget {} x.cages c)) }

/-! ### Slots (R202 to R207) -/

/-- The slot that holds a ring, whatever its state but free. -/
def slotOf (s : State) (k : Nat) : Option Nat :=
  (List.range 32).find? (fun i => (s.slot i).st != .free && (s.slot i).ring == k)

/-- A ring has unfetched descriptors: it needs a slot (R202). -/
def Ring.needs (r : Ring) : Bool := r.en && r.p != r.f

/-- The rings of each cage that need or hold a slot, as ring numbers (R206). -/
def demandRings (s : State) : List Nat :=
  let held := ((List.range 32).filter (fun i => (s.slot i).st != .free)).map (fun i => (s.slot i).ring)
  let need := (s.rings.rings.filter (fun e => e.2.needs && !held.contains e.1)).map (·.1)
  held ++ need

/-- The number of slots bound for a cage. -/
def boundCount (s : State) (c : Nat) : Nat :=
  ((List.range 32).filter (fun i => ((s.slot i).st == .bound || (s.slot i).st == .loading) && (s.slot i).ring / 16 == c)).length

/-- One round of the water-filling of R206 over the open cages (cage, demand, weight). -/
def waterRound (slots : Nat) (opn : List (Nat × Nat × Nat)) : List (Nat × Rat) :=
  let tot := (opn.map (fun e => e.2.2)).sum
  opn.map (fun e => (e.1, (slots * e.2.2 : Nat) / ((tot : Nat) : Rat)))

/-- The water-filling of R206; the fuel is the number of cages. -/
def waterFill : Nat → Nat → List (Nat × Nat × Nat) → List (Nat × Rat)
  | 0, _, _ => []
  | fuel + 1, slots, opn =>
    let sh := waterRound slots opn
    let capped := opn.filter (fun e => (e.2.1 : Rat) ≤ ((sh.find? (fun x => x.1 == e.1)).map (·.2)).getD 0)
    if capped.isEmpty then sh
    else capped.map (fun e => (e.1, ((e.2.1 : Nat) : Rat))) ++
      waterFill fuel (slots - (capped.map (fun e => e.2.1)).sum) (opn.filter (fun e => !capped.contains e))

/-- The slot shares of the cages that have rings needing or holding slots (R206). -/
def shares (s : State) : List (Nat × Rat) :=
  let rs := demandRings s
  let cs := (rs.map (· / 16)).eraseDups
  waterFill 256 32 (cs.map (fun c => (c, (rs.filter (fun k => k / 16 == c)).length, (s.cage c).weight)))

/-- The slot share of a cage. -/
def shareOf (sh : List (Nat × Rat)) (c : Nat) : Rat := ((sh.find? (fun e => e.1 == c)).map (·.2)).getD 0

/-- The element of a list with the least key; ties go to the earlier element. -/
def minBy {α : Type} (key : α → Rat) : List α → Option α
  | [] => none
  | a :: r => match minBy key r with
    | none => some a
    | some b => if key b < key a then some b else some a

/-- The victim of R207 for a ring of a cage below its share; ties go to the lowest slot number. -/
def victim (s : State) (sh : List (Nat × Rat)) : Option Nat :=
  let bound := (List.range 32).filter (fun i => (s.slot i).st == .bound)
  let idle := bound.filter (fun i => (s.slot i).idleOrd.isSome)
  let blocked := bound.filter (fun i => (s.slot i).blockOrd.isSome)
  let old := bound.filter (fun i => (s.slot i).fifty)
  let beyond := old.filter (fun i => shareOf sh ((s.slot i).ring / 16) < (boundCount s ((s.slot i).ring / 16) : Rat))
  match minBy (fun i => (((s.slot i).idleOrd.getD 0 : Nat) : Rat)) idle with
  | some i => some i
  | none => match minBy (fun i => (((s.slot i).blockOrd.getD 0 : Nat) : Rat)) blocked with
    | some i => some i
    | none =>
      let cages := sortBy (fun a b => decide (a ≤ b)) (beyond.map (fun i => (s.slot i).ring / 16)).eraseDups
      match minBy (fun c => shareOf sh c - (boundCount s c : Rat)) cages with
      | none => none
      | some c => minBy (fun i => (((s.slot i).boundOrd : Nat) : Rat)) (beyond.filter (fun i => (s.slot i).ring / 16 == c))

/-- Take the next scheduling order number. -/
def nextOrd (s : State) : Nat × State := (s.rings.ord, s.modRings fun r => { r with ord := r.ord + 1 })

/-- Begin to swap a slot out: it issues nothing more, and prefetched descriptors will be read again (R203, R204). -/
def swapOut (i : Nat) (s : State) : State :=
  let sl := s.slot i
  let back := match sl.buf with | [] => (s.ring sl.ring).f | (p, _) :: _ => p
  let back := match sl.failAt, sl.buf with | some p, [] => p | _, _ => back
  let s := s.modRing sl.ring fun r => { r with f := back }
  s.modSlot i fun x => { x with st := .swapping, buf := [], rd := none, failAt := none, idleOrd := none, blockOrd := none }

/-- Bind a ring to a free slot; its state loads within 1 µs (R204, R207). -/
def bind (k i : Nat) (s : State) : State :=
  let (o, s) := nextOrd s
  let s := s.modRing k fun r => { r with waiting := none }
  s.modSlot i fun _ => { st := .loading, ring := k, boundOrd := o }

/-- The order in which waiting rings take free slots (R207): share less bound, largest first, then waiting time. -/
def waitOrder (s : State) (sh : List (Nat × Rat)) (a b : Nat × Ring) : Bool :=
  let ga := shareOf sh (a.1 / 16) - (boundCount s (a.1 / 16) : Rat)
  let gb := shareOf sh (b.1 / 16) - (boundCount s (b.1 / 16) : Rat)
  if ga = gb then decide (a.2.waiting.getD 0 ≤ b.2.waiting.getD 0) else decide (gb < ga)

/-- Serve the waiting rings in order; `cover` swap-outs already under way stand for the first rings that still wait. -/
def serveWaiting (sh : List (Nat × Rat)) : List Nat → Nat → State → State
  | [], _, s => s
  | k :: rest, cover, s =>
    match (List.range 32).find? (fun i => (s.slot i).st == .free) with
    | some i => serveWaiting sh rest cover (bind k i s)
    | none =>
      match cover with
      | c + 1 => serveWaiting sh rest c s
      | 0 =>
        if (boundCount s (k / 16) : Rat) < shareOf sh (k / 16) then
          match victim s sh with
          | some i => serveWaiting sh rest 0 (swapOut i s)
          | none => serveWaiting sh rest 0 s
        else serveWaiting sh rest 0 s

/-- Mark the rings that need a slot and hold none as waiting. -/
def markWaiting : List (Nat × Ring) → State → State
  | [], s => s
  | (k, r) :: rest, s =>
    if r.needs && r.waiting.isNone && (slotOf s k).isNone then
      let (o, s) := nextOrd s
      markWaiting rest (s.modRing k fun r => { r with waiting := some o })
    else if !r.needs && r.waiting.isSome then markWaiting rest (s.modRing k fun r => { r with waiting := none })
    else markWaiting rest s

/-- The slot scheduler (R206, R207): run at every event that calls for a decision. -/
def schedule (s : State) : State :=
  let s := markWaiting s.rings.rings s
  let sh := shares s
  let w := sortBy (waitOrder s sh) (s.rings.rings.filter (fun e => e.2.waiting.isSome))
  let cover := ((List.range 32).filter (fun i => (s.slot i).st == .swapping)).length
  serveWaiting sh (w.map (·.1)) cover s

/-! ### Issue (R208, R211, R212, R215) -/

/-- The completion write of a context has not been issued yet. -/
def CtxPh.uncompleted : CtxPh → Bool
  | .prep | .moving | .held | .ending | .translating => true
  | _ => false

/-- Every earlier descriptor of the ring has had its completion write issued (R215). -/
def fenceMet (s : State) (k : Nat) : Bool :=
  !(s.rings.ctxs.any (fun e => e.2.ring == k && e.2.ph.uncompleted))

/-- A context can be taken by a command of ring `k` (R211). -/
def ctxRoom (s : State) (k : Nat) : Bool :=
  let u := s.usedCtxs
  let c := k / 16
  decide (u.length < 512) && decide ((u.filter (fun e => e.2.ring == k)).length < 64) &&
    decide ((u.filter (fun e => e.2.cage == c)).length < (s.cage c).ctxLimit) &&
    (c == 0 || decide ((u.filter (fun e => e.2.cage != 0)).length < 480))

/-- FENCE of a descriptor (R190). -/
def descFence (d : Bytes) : Bool := bit (byteAt d 1) 0

/-- OPCODE of a descriptor (R190). -/
def descOp (d : Bytes) : Nat := byteAt d 0

/-- The head descriptor of a bound slot that may issue now (R202, R211, R215, R160). -/
def issuable (s : State) (i : Nat) : Option (W32 × Bytes) :=
  let sl := s.slot i
  if sl.st != .bound || !(s.fn (sl.ring / 16)).bme then none
  else match sl.buf with
    | [] => none
    | (p, d) :: _ =>
      if (descFence d && !fenceMet s sl.ring) || !ctxRoom s sl.ring then none else some (p, d)

/-- The cost of a descriptor (R208). -/
def issueCost (d : Bytes) : Nat :=
  if descOp d = 1 || descOp d = 2 || descOp d = 3 || descOp d = 4 then 1 + fld d 4 3 / 65536 else 1

/-- The next slot of a cage in ring order after the ring served last (R208). -/
def cageNext (s : State) (c : Nat) : Option Nat :=
  let sl := (List.range 32).filter (fun i => (s.slot i).ring / 16 == c && (issuable s i).isSome)
  let t := tget 0 s.rings.turn c
  minBy (fun i => (((s.slot i).ring + (if (s.slot i).ring % 16 < t then 16 else 0) : Nat) : Rat)) sl

/-- One candidate of the issue scheduler: cage, slot, cost. -/
abbrev Cand := Nat × Nat × Nat

/-- The cages with an issuable descriptor, in cage order. -/
def issueCands (s : State) : List Cand :=
  let cs := (((List.range 32).filter (fun i => (issuable s i).isSome)).map (fun i => (s.slot i).ring / 16)).eraseDups
  (sortBy (fun a b => decide (a ≤ b)) cs).filterMap (fun c =>
    (cageNext s c).bind (fun i => (issuable s i).map (fun e => (c, i, issueCost e.2))))

/-- The deficit round robin of R208 from the next visit on: each visit adds the cage's weight. -/
def drrGo (s : State) : Nat → List Cand → Tbl Nat → Option (Cand × Tbl Nat)
  | 0, _, _ => none
  | _ + 1, [], _ => none
  | fuel + 1, (c, i, cost) :: rest, df =>
    let d := tget 0 df c + (s.cage c).weight
    if cost ≤ d then some ((c, i, cost), tput 0 df c (d - cost))
    else drrGo s fuel (rest ++ [(c, i, cost)]) (tput 0 df c d)

/-- The descriptor the scheduler issues next, with the deficits after it (R208). -/
def drrPick (s : State) : Option (Cand × Tbl Nat) :=
  let cs := issueCands s
  let df := s.rings.deficit.filter (fun e => cs.any (fun c => c.1 == e.1))
  match (if s.rings.drrOpen then cs.find? (fun c => c.1 == s.rings.drrCage) else none) with
  | some (c, i, cost) =>
    if cost ≤ tget 0 df c then some ((c, i, cost), tput 0 df c (tget 0 df c - cost))
    else drrGo s 70000 (cs.filter (fun e => decide (c < e.1)) ++ cs.filter (fun e => decide (e.1 ≤ c))) df
  | none =>
    let c := s.rings.drrCage
    drrGo s 70000 (cs.filter (fun e => decide (c < e.1)) ++ cs.filter (fun e => decide (e.1 ≤ c))) df

/-- The lowest free context (R211). -/
def freeCtx (s : State) : Nat := ((List.range 512).find? (fun n => (s.ctx n).ph == .free)).getD 0

/-- Track which bound slots are idle or blocked, and since when (R202, R207). -/
def refreshList : List Nat → State → State
  | [], s => s
  | i :: rest, s =>
    let sl := s.slot i
    if sl.st != .bound then refreshList rest s
    else
      let idle := !(s.ring sl.ring).needs
      let blocked := !sl.buf.isEmpty && (issuable s i).isNone
      let (o, s') := nextOrd s
      let sl' := { sl with idleOrd := if idle then (if sl.idleOrd.isSome then sl.idleOrd else some o) else none,
                           blockOrd := if blocked then (if sl.blockOrd.isSome then sl.blockOrd else some o) else none }
      if sl' = sl then refreshList rest s else refreshList rest (s'.modSlot i fun _ => sl')

/-- Bring the idle and blocked marks up to date, then let the scheduler decide (R207). -/
def refresh (s : State) : State := schedule (refreshList (List.range 32) s)

/-- A command ends: everything is done but its completion record (R196). -/
def endCmd (n status detail result : Nat) (s : State) : State :=
  s.modCtx n fun c => { c with ph := .ending, status := status, detail := detail, result := result, pages := [], wrPages := [], pinWait := false, trainWait := false, planned := false }

/-- End a command with status OK. -/
def endOk (n result : Nat) (s : State) : State := endCmd n 0 0 result s

/-- The body of RING_STOPPED (Table RING-8). -/
def ringStoppedRec (k reason : Nat) (s : State) : Rec :=
  let r := s.ring k
  ctlRec 4 [(20, 1, k % 16), (21, 1, reason), (24, 4, r.p.toNat), (28, 4, r.f.toNat), (32, 4, r.w.toNat)] s (k / 16)

/-- Stop a ring: EN cleared, a RING_STOPPED record, the slot released; one stop writes one record (R223, R213). -/
def stopRing (k reason : Nat) (s : State) : State :=
  if !(s.ring k).en then s
  else
    let s := report (k / 16) (ringStoppedRec k reason s) s
    let s := s.modRing k fun r => { r with en := false, waiting := none }
    match slotOf s k with
    | some i => if (s.slot i).st == .swapping then s else swapOut i s
    | none => s

/-- Give the descriptor whose read failed its FETCH_FAIL completion once those before it have issued, then stop the ring (R223). -/
def tryFail (i : Nat) (s : State) : State :=
  let sl := s.slot i
  match sl.failAt, sl.buf with
  | some p, [] =>
    if sl.st != .bound || !ctxRoom s sl.ring then s
    else
      let n := freeCtx s
      let s := s.modCtx n fun _ => { ph := .ending, ring := sl.ring, index := p, status := 0x23 }
      let s := s.modSlot i fun x => { x with failAt := none }
      stopRing sl.ring 3 (s.modRing sl.ring fun r => { r with f := p })
  | _, _ => s

/-- The scheduler's turn, where it is on the head descriptor of ring `r` of function `f`: the candidate, the deficits after it, its index and its bytes (R208). -/
def turnOf (s : State) (f r : Nat) : Option (Cand × Tbl Nat × W32 × Bytes) :=
  if !s.up then none
  else match drrPick s with
    | none => none
    | some (e, df) =>
      match issuable s e.2.1 with
      | none => none
      | some (p, d) => if (s.slot e.2.1).ring = ringKey f r then some (e, df, p, d) else none

/-- The state once the head descriptor has left its slot's buffer for the lowest free context (R211). -/
def took (e : Cand) (df : Tbl Nat) (p : W32) (d : Bytes) (s : State) : State :=
  let k := (s.slot e.2.1).ring
  let n := freeCtx s
  let s := s.modRings fun r => { r with deficit := df, drrCage := e.1, drrOpen := true, turn := tput 0 r.turn e.1 (k % 16 + 1) }
  let s := s.modSlot e.2.1 fun x => { x with buf := x.buf.drop 1 }
  s.modCtx n fun _ => { ph := .prep, ring := k, index := p, tag := BitVec.ofNat 64 (fld d 8 8), op := descOp d, irq := bit (byteAt d 1) 1, desc := d }

/-- Issue the head descriptor of ring `r` of function `f`, if the scheduler's turn is on it and its opcode meets `isOp` (R208): its meaning runs on its context. -/
def issueWhen (isOp : Nat → Bool) (f r : Nat) (body : Nat → State → State) (s : State) : State :=
  match turnOf s f r with
  | none => s
  | some (e, df, p, d) => if isOp (descOp d) then refresh (tryFail e.2.1 (body (freeCtx s) (took e df p d s))) else s

/-! ### The checks before execution (R199) -/

/-- What one opcode's descriptor may hold (Tables RING-2 to RING-4 and the owning chapters). -/
structure OpSpec where
  /-- Only on cage 0 rings (R191). -/
  cage0 : Bool := false
  /-- LENGTH is used (R191). -/
  len : Bool := false
  /-- Operand bytes from 16 on: offset and the bits allowed; every other bit is reserved. -/
  masks : List (Nat × Nat) := []
  /-- Operand bytes that this form of the descriptor leaves reserved after all. -/
  narrow : Bytes → List Nat := fun _ => []
  /-- A form that the issuing cage may not use (check 2). -/
  deny : Nat → Bytes → Bool := fun _ _ => false
  /-- A handle that belongs to another cage (check 2, R439). -/
  denyNow : State → Nat → Bytes → Bool := fun _ _ _ => false
  /-- An operand out of range: the DETAIL of R794. -/
  bad : Nat → Bytes → Option Nat := fun _ _ => none
  /-- An operand out of range in the present state: the DETAIL (R510). -/
  badNow : State → Nat → Bytes → Option Nat := fun _ _ _ => none
  /-- The device ranges named, start and length (R200). -/
  ranges : Bytes → List (Nat × Nat) := fun _ => []
  /-- A range test of the opcode's own: the DETAIL of LEN_OVER (R441). -/
  beyond : State → Nat → Bytes → Option Nat := fun _ _ _ => none
  /-- A quota exceeded: its DETAIL (check 8). -/
  quota : State → Nat → Bytes → Option Nat := fun _ _ _ => none

/-- The bits a descriptor byte may hold under an opcode (R190). -/
def OpSpec.mask (o : OpSpec) (i : Nat) : Nat :=
  if i = 0 then 255 else if i = 1 then 3
  else if 4 ≤ i && i ≤ 6 then (if o.len then 255 else 0)
  else if 8 ≤ i && i ≤ 15 then 255
  else if i < 16 then 0
  else ((o.masks.find? (fun e => e.1 == i)).map (·.2)).getD 0

/-- Offsets from `off` on for `n` bytes, all bits allowed. -/
def allBits (off n : Nat) : List (Nat × Nat) := (List.range n).map (fun i => (off + i, 255))

/-- The first byte with a reserved bit set (R19, Table RING-6). -/
def rsvdAt (o : OpSpec) (d : Bytes) : Option Nat :=
  (List.range 64).find? (fun i => byteAt d i &&& (255 - (if (o.narrow d).contains i then 0 else o.mask i)) != 0)

/-- Whether a page of a cage counts as mapped for a command (R243, R250). -/
def pageMapped (s : State) (c p : Nat) : Bool :=
  let g := tget {} s.cages.pages (65536 * c + p)
  g.remap.isSome || (g.st != .unmapped && !g.claimed)

/-- The number of mapped pages in a row from page `p` on. -/
def runPages (s : State) (c : Nat) : Nat → Nat → Nat
  | 0, _ => 0
  | fuel + 1, p => if p < 65536 && pageMapped s c p then 1 + runPages s c fuel (p + 1) else 0

/-- The bytes of the mapped run from a device address on (R200). -/
def availFrom (s : State) (c a : Nat) : Nat :=
  if a ≥ 2 ^ 37 then 0
  else
    let n := runPages s c 65536 (a / 2 ^ 21)
    if n = 0 then 0 else n * 2 ^ 21 - a % 2 ^ 21

/-- The checks of R199 in order, on the descriptor of cage `c`. -/
def runChecks (o : OpSpec) (c : Nat) (d : Bytes) (s : State) : Option (Nat × Nat) :=
  if (o.cage0 && c != 0) || o.deny c d || o.denyNow s c d then some (0x15, 0)
  else match rsvdAt o d with
    | some i => some (0x11, i)
    | none =>
      if o.len && fld d 4 3 = 0 then some (0x12, 0)
      else match (o.bad c d).orElse (fun _ => o.badNow s c d) with
        | some i => some (0x14, i)
        | none =>
          if (s.cage c).st == .ending then some (0x33, 2)
          else if (s.cage c).st == .dormant && descOp d != 0 then some (0x33, 1)
          else
            let rs := o.ranges d
            if rs.any (fun r => availFrom s c r.1 == 0) then some (0x16, 0)
            else match rs.find? (fun r => availFrom s c r.1 < r.2) with
              | some r => some (0x13, min (availFrom s c r.1) 0xFFFFFFFF)
              | none => match o.beyond s c d with
                | some r => some (0x13, r)
                | none => (o.quota s c d).map (fun q => (0x17, q))

/-- Issue a descriptor of one opcode: the checks of R199, then its own meaning on its context. -/
def issueOp (op : Nat) (o : OpSpec) (f r : Nat) (act : Nat → State → State) (s : State) : State :=
  issueWhen (fun x => x == op) f r (fun n s =>
    match runChecks o (s.ctx n).cage (s.ctx n).desc s with
    | some (st, dt) => endCmd n st dt 0 s
    | none => act n s) s

/-- The opcodes of Table RING-3. -/
def knownOps : List Nat :=
  [0x00, 0x01, 0x02, 0x03, 0x04, 0x05, 0x06, 0x07, 0x08, 0x10, 0x11, 0x12, 0x13, 0x14, 0x18, 0x19, 0x1A,
   0x20, 0x21, 0x22, 0x23, 0x24, 0x30]

/-! ### Completion (R187, R196, R213, R218) -/

/-- The 32 bytes of a completion record (Table RING-5). -/
def renderCpl (c : Ctx) (rt : RowTime) (phase : Nat) : Bytes :=
  packFlds 32 [(0, 8, c.tag.toNat), (8, 2, c.index.toNat), (10, 1, c.status), (12, 4, c.detail), (16, 8, c.result),
    (24, 6, rt.toNat), (31, 1, phase)]

/-- The host address of the next completion record of a ring (R187). -/
def cplAddr (r : Ring) : W64 := r.taken.cq + BitVec.ofNat 64 (32 * (r.w.toNat % 2 ^ r.taken.size))

/-- Count a completion with IRQ towards its ring's interrupt (R218, R219). -/
def ringAnnounce (k : Nat) (s : State) : State :=
  let r := s.ring k
  if r.taken.coalCnt = 0 || r.taken.coalTime = 0 || r.unann + 1 ≥ r.taken.coalCnt + 1 then
    sendMsi (k / 16) r.taken.vector (s.modRing k fun r => { r with unann := 0, coalRun := false })
  else s.modRing k fun r => { r with unann := r.unann + 1, coalRun := true }

/-- The quotas of a descriptor (Table CAGE-2). -/
def quotasOf (d : Bytes) (g : Cage) : Cage :=
  { g with guar := fld d 20 4, limit := fld d 24 4, clusLimit := byteAt d 28, groupLimit := byteAt d 29,
           collLimit := byteAt d 30, shadowOk := bit (byteAt d 31) 0 }

/-- Apply the quotas of a CAGE_QUOTA that ended OK as its completion is written (R234). -/
def applyQuota (n : Nat) (s : State) : State :=
  let c := s.ctx n
  if c.op = 0x1A && c.status = 0 then s.modCage (byteAt c.desc 16) (quotasOf c.desc) else s

/-- Write the completion record of a context at a translated address (R196). -/
def writeCpl (n : Nat) (a : W64) (s : State) : State :=
  let s := applyQuota n s
  let c := s.ctx n
  let r := s.ring c.ring
  let ph := if (r.w.toNat / 2 ^ r.taken.size) % 2 = 0 then 1 else 0
  let s := post (c.ring / 16) a (renderCpl c s.ao.rowTime ph) (some n) s
  let s := s.modRing c.ring fun r => { r with w := r.w + 1 }
  let s := s.modCtx n fun c => { c with ph := .written }
  if c.irq then ringAnnounce c.ring s else s

/-- Free a context (R211). -/
def freeCtxOf (n : Nat) (s : State) : State := s.modCtx n fun _ => {}

/-- A completion write refused by translation: the context is freed and the ring stopped (R213). -/
def cplRefused (n : Nat) (s : State) : State := stopRing (s.ctx n).ring 4 (freeCtxOf n s)

/-- Write the completion of an ended command, or ask for its translation (R146, R160). -/
def tryComplete (n : Nat) (s : State) : State :=
  let c := s.ctx n
  if c.ph != .ending || !(s.fn c.cage).bme || c.after.any (fun m => (s.ctx m).ph.uncompleted) then s
  else match xlate s c.cage (cplAddr (s.ring c.ring)) true with
    | .go a => writeCpl n a (atcTouch c.cage (cplAddr (s.ring c.ring)) s)
    | .miss => pushReq c.cage (cplAddr (s.ring c.ring)) 32 true (.completion n) true (s.modCtx n fun c => { c with ph := .translating })

/-- The contexts a ring, a cage or any other test selects. -/
def ctxsWhere (p : Ctx → Bool) (s : State) : List Nat := (s.usedCtxs.filter (fun e => p e.2)).map (·.1)

/-- Run an operation over a list of numbers, in order. -/
def forEach (l : List Nat) (g : Nat → State → State) (s : State) : State := l.foldl (fun s n => g n s) s

end Sys2Proof.Machine
end

