-- ==== Sys2Proof/Machine/Pages.lean ====
section
/-! DEFINITION. Cages' pages and the frames behind them: translation of device addresses, the planner, eviction and restore. -/

namespace Sys2Proof.Machine

/-- Bytes of a page (R242). -/
def pageBytes : Nat := 2 ^ 21

/-- The key of a cage's page. -/
def pageKey (c p : Nat) : Nat := 65536 * c + p

/-- One page of a cage. -/
def State.page (s : State) (c p : Nat) : Page := tget {} s.cages.pages (pageKey c p)

/-- Change one page of a cage. -/
def State.modPage (s : State) (c p : Nat) (g : Page → Page) : State :=
  s.modCages fun x => { x with pages := tput {} x.pages (pageKey c p) (g (tget {} x.pages (pageKey c p))) }

/-- The state of a frame. -/
def State.frame (s : State) (f : Nat) : FrameSt := tget .dirty s.cages.frames f

/-- Set the state of a frame. -/
def State.setFrame (s : State) (f : Nat) (v : FrameSt) : State :=
  s.modCages fun x => { x with frames := tput .dirty x.frames f v }

/-- The pages of a cage that are listed, with their numbers, lowest first. -/
def cagePages (s : State) (c : Nat) : List (Nat × Page) :=
  (s.cages.pages.filter (fun e => e.1 / 65536 == c)).map (fun e => (e.1 % 65536, e.2))

/-- Pages mapped in a cage, in every state but UNMAPPED; a claimed page counts as UNMAPPED (R250, R264). -/
def mappedCount (s : State) (c : Nat) : Nat := ((cagePages s c).filter (fun e => e.2.remap.isSome || (e.2.st != .unmapped && !e.2.claimed))).length

/-- The page book: clean, dirty, allocated and in-transit frames (R263). -/
def bookClean (s : State) : Nat := (s.cages.frames.filter (fun e => e.2 == .clean)).length
def bookHeld (s : State) : Nat := (s.cages.frames.filter (fun e => match e.2 with | .held _ _ => true | _ => false)).length
def bookTransit (s : State) : Nat := (s.cages.frames.filter (fun e => match e.2 with | .transit _ _ => true | _ => false)).length
def bookDirty (s : State) : Nat := 65536 - (bookClean s + bookHeld s + bookTransit s)

/-! ### Device memory through a cage's page table (R242, R364) -/

/-- Whether a line of device memory holds the poison marker (R375). -/
def linePoisoned (s : State) (a : Nat) : Bool := s.mem.poison.contains (a / 64)

/-- Set or clear the poison marker of a line. -/
def setLinePoison (a : Nat) (on : Bool) (s : State) : State :=
  s.modMem fun m => { m with poison := if on then nadd m.poison (a / 64) else m.poison.filter (fun l => l != a / 64) }

/-- Poison every line of a frame (R262, R378). -/
def poisonFrame (f : Nat) (s : State) : State :=
  s.modMem fun m => { m with poison := naddRange m.poison (f * 32768) 32768 }

/-- Zero a frame: zeros with valid check bits (R253, R377). -/
def zeroFrame (f : Nat) (s : State) : State :=
  s.modMem fun m => { m with mem := mclear m.mem (f * pageBytes) ((f + 1) * pageBytes),
                             poison := ndelRange m.poison (f * 32768) ((f + 1) * 32768) }

/-- The device-memory address behind a cage's device address, where its page holds a frame. -/
def physOf (s : State) (c a : Nat) : Option Nat :=
  let g := s.page c (a / pageBytes)
  if g.st == .resident || g.st == .evicting || g.st == .restoring then some (g.frame * pageBytes + a % pageBytes) else none

/-- The part of a byte range that lies in the line of its first byte. -/
def lineHead (a n : Nat) : Nat := min n (64 - a % 64)

/-- Read a device range line by line: the bytes before the first poisoned line, and that line's address (R376).
A page without a frame reads zeros (R243). -/
def devRead (s : State) (c : Nat) : Nat → Nat → Nat → Bytes × Option Nat
  | 0, _, _ => ([], none)
  | fuel + 1, a, n =>
    if n = 0 then ([], none)
    else
      let k := lineHead a n
      match physOf s c a with
      | none =>
        let (r, e) := devRead s c fuel (a + k) (n - k)
        (List.replicate k 0 ++ r, e)
      | some q =>
        if linePoisoned s q then ([], some a)
        else
          let (r, e) := devRead s c fuel (a + k) (n - k)
          (mrdN s.mem.mem q k ++ r, e)

/-- Write bytes of a command whose device range is [lo, hi), line by line (R367, R376, R377): a line the command covers whole
loses its poison; a poisoned line it covers in part keeps it, the bytes for it are discarded, and its address is answered. -/
def devWrite (c lo hi : Nat) : Nat → Nat → Bytes → State → State × Option Nat
  | 0, _, _, s => (s, none)
  | fuel + 1, a, bs, s =>
    if bs.isEmpty then (s, none)
    else
      let k := lineHead a bs.length
      let whole := decide (lo ≤ a - a % 64) && decide (a - a % 64 + 64 ≤ hi)
      match physOf s c a with
      | none => (s, some a)
      | some q =>
        if linePoisoned s q && !whole then (s, some a)
        else
          let s := s.modMem fun m => { m with mem := mwrN m.mem q (bs.take k) }
          let s := if whole then setLinePoison q false s else s
          let pg := a / pageBytes
          let s := if decide (lo ≤ pg * pageBytes) && decide ((pg + 1) * pageBytes ≤ hi) && decide (a + k = (pg + 1) * pageBytes)
            then s.modPage c pg fun g => { g with poison := false } else s
          devWrite c lo hi fuel (a + k) (bs.drop k) s

/-- Fuel for a line-by-line run over n bytes. -/
def lineFuel (n : Nat) : Nat := n / 64 + 2

/-- The pages a device range touches. -/
def pagesOf (a n : Nat) : List Nat :=
  (List.range ((a + n - 1) / pageBytes + 1 - a / pageBytes)).map (fun i => a / pageBytes + i)

/-- Set the touch time of pages (R246). -/
def touchPages (c : Nat) (ps : List Nat) (s : State) : State :=
  forEach ps (fun p s => s.modPage c p fun g => { g with touch := s.ms }) s

/-! ### Frames (R253, R254) -/

/-- The first dirty frame from a number on, wrapping at 65,536. -/
def dirtyFrom (s : State) : Nat → Nat → Option Nat
  | 0, _ => none
  | fuel + 1, f => if s.frame (f % 65536) == .dirty then some (f % 65536) else dirtyFrom s fuel (f + 1)

/-- Free frames: clean and dirty (R263). -/
def freeFrames (s : State) : Nat := bookClean s + bookDirty s

/-- Choose a frame for a page: a clean one if any, else a dirty one; which of several is left open (log entry 6). -/
def chooseFrame (s : State) : Option (Nat × Bool × State) :=
  let cl := (s.cages.frames.filter (fun e => e.2 == .clean)).map (·.1)
  if cl.length > 0 then
    let (i, s) := drawBelow cl.length s
    some (cl.getD i 0, true, s)
  else
    let (i, s) := drawBelow 65536 s
    match dirtyFrom s (s.cages.frames.length + 1) i with
    | some f => some (f, false, s)
    | none => none

/-! ### Pools and victims (R256 to R259) -/

/-- Pool slots of a cage that are held or reserved. -/
def usedSlots (s : State) (c : Nat) : List Nat := (cagePages s c).filterMap (fun e => e.2.slot)

/-- Free pool slots of a cage. -/
def freeSlots (s : State) (c : Nat) : Nat := (s.cage c).poolSlots - (usedSlots s c).length

/-- The first unused pool slot from a number on. -/
def slotFrom (used : List Nat) (n : Nat) : Nat → Nat → Nat
  | 0, j => j % (if n = 0 then 1 else n)
  | fuel + 1, j => if used.contains (j % (if n = 0 then 1 else n)) then slotFrom used n fuel (j + 1) else j % (if n = 0 then 1 else n)

/-- An issued command is moving the page's data (R256). -/
def pageInUse (s : State) (c p : Nat) : Bool :=
  s.rings.ctxs.any (fun e => e.2.cage == c && e.2.planned && e.2.pages.contains p)

/-- An eviction or restore of the page is planned or running. -/
def pageMoving (s : State) (c p : Nat) : Bool := s.cages.moves.any (fun m => m.cage == c && m.page == p)

/-- Whether a page may be evicted as far as the page itself goes (R256, R257). -/
def pageFree (s : State) (c : Nat) (e : Nat × Page) : Bool :=
  e.2.st == .resident && e.2.pins == 0 && !e.2.sticky && !e.2.claimed && !e.2.zeroing &&
    !pageInUse s c e.1 && !pageMoving s c e.1

/-- Resident pages of a cage, without those already planned as victims (R256, R258). -/
def residentCount (s : State) (c : Nat) : Nat :=
  ((cagePages s c).filter (fun e => e.2.st == .resident && !pageMoving s c e.1)).length

/-- The number of pages evictable from cage `v` for another cage (R256). -/
def evictable (s : State) (v : Nat) : Nat :=
  let g := s.cage v
  if !(s.fn v).bme || g.poolFaulted then 0
  else min (min ((cagePages s v).filter (pageFree s v)).length (residentCount s v - g.guar)) (freeSlots s v)

/-- The frames a request of cage `c` with page set `own` could get (R257, R278). -/
def supplyFor (s : State) (c : Nat) (own : List Nat) : Nat :=
  freeFrames s + (((s.cages.cages.map (·.1)).filter (fun v => v != c)).map (evictable s)).sum +
    min ((cagePages s c).filter (fun e => pageFree s c e && !own.contains e.1)).length (freeSlots s c)

/-- The victim page of R257 for a request of cage `c` whose own set is `own`. -/
def pickVictim (s : State) (c : Nat) (own : List Nat) : Option (Nat × Nat) :=
  let vs := ((s.cages.cages.map (·.1)).filter (fun v => v != c && 0 < evictable s v))
  match minBy (fun v => -(((residentCount s v : Nat) : Rat) - ((s.cage v).guar : Nat))) vs with
  | some v => (minBy (fun e => ((e.2.touch : Nat) : Rat)) ((cagePages s v).filter (pageFree s v))).map (fun e => (v, e.1))
  | none =>
    if freeSlots s c = 0 then none
    else (minBy (fun e => ((e.2.touch : Nat) : Rat))
      ((cagePages s c).filter (fun e => pageFree s c e && !own.contains e.1))).map (fun e => (c, e.1))

/-- Reserve a pool slot for a page and plan its eviction; which free slot is left open (log entry 6). -/
def planEvict (v p plan : Nat) (zeros : Bool) (s : State) : State :=
  let (i, s) := drawBelow (s.cage v).poolSlots s
  let used := usedSlots s v
  let j := slotFrom used (s.cage v).poolSlots used.length i
  let s := s.modPage v p fun g => { g with slot := some j }
  s.modCages fun x => { x with moves := x.moves ++ [{ cage := v, page := p, evict := true, plan := plan, zeros := zeros }] }

/-- Plan `k` victims, or none at all (R258). -/
def planVictims (c plan : Nat) (own : List Nat) : Nat → State → Option State
  | 0, s => some s
  | k + 1, s => match pickVictim s c own with
    | none => none
    | some (v, p) => planVictims c plan own k (planEvict v p plan false s)

/-- Change one plan. -/
def modPlan (id : Nat) (g : Plan → Plan) (s : State) : State :=
  s.modCages fun x => { x with plans := lmap x.plans (fun p => p.id == id) g }

/-- Give a frame to a page: a ZERO page becomes RESIDENT, zeroed on demand if the frame is dirty (R254); an EVICTED page starts its
restore; a page still being evicted keeps the frame until its eviction ends. -/
def giveFrame (c p f plan : Nat) (clean : Bool) (s : State) : State :=
  let g := s.page c p
  match g.st with
  | .evicted =>
    let s := (s.setFrame f (.transit c p)).modPage c p fun g => { g with st := .restoring, frame := f }
    s.modCages fun x => { x with moves := x.moves ++ [{ cage := c, page := p, evict := false, plan := plan }] }
  | .evicting => modPlan plan (fun q => { q with kept := tput 0 q.kept p (f + 1) }) (s.setFrame f (.held c p))
  | _ => (s.setFrame f (.held c p)).modPage c p fun g => { g with st := .resident, frame := f, zeroing := !clean, slot := none }

/-- Hand free frames to the pages of a plan, as many as there are. -/
def handOut (c plan : Nat) : List Nat → State → List Nat × State
  | [], s => ([], s)
  | p :: rest, s => match chooseFrame s with
    | none => (p :: rest, s)
    | some (f, cl, s) => handOut c plan rest (giveFrame c p f plan cl s)

/-! ### Evictions and restores (R259 to R262) -/

/-- Change the moves of one page. -/
def modMove (c p : Nat) (g : Move → Move) (s : State) : State :=
  s.modCages fun x => { x with moves := lmap x.moves (fun m => m.cage == c && m.page == p) g }

/-- The move of one page. -/
def moveOf (s : State) (c p : Nat) : Option Move := s.cages.moves.find? (fun m => m.cage == c && m.page == p)

/-- Drop the moves of one page. -/
def dropMove (c p : Nat) (s : State) : State :=
  s.modCages fun x => { x with moves := x.moves.filter (fun m => !(m.cage == c && m.page == p)) }

/-- The host address of a byte of a page's pool slot (R251). -/
def poolAddr (s : State) (c p off : Nat) : W64 :=
  (s.cage c).poolBase + BitVec.ofNat 64 (((s.page c p).slot.getD 0) * pageBytes + off)

/-- Some line of 4 KiB of a frame is poisoned. -/
def piecePoisoned (s : State) (q : Nat) : Bool := (List.range 64).any (fun i => linePoisoned s (q + 64 * i))

/-- The bytes an eviction writes for one piece: zeros for poisoned lines (R378). -/
def pieceBytes (s : State) (q : Nat) : Bytes :=
  ((List.range 64).map (fun i => if linePoisoned s (q + 64 * i) then List.replicate 64 (0 : Byte) else mrdN s.mem.mem (q + 64 * i) 64)).flatten

/-- Write the pieces of an eviction until all are written or one waits for its translation (R259). -/
def evictStep (c p : Nat) : Nat → State → State
  | 0, s => s
  | fuel + 1, s => match moveOf s c p with
    | none => s
    | some m =>
      if !m.evict || !m.running || m.off ≥ pageBytes || !(s.fn c).bme then s
      else
        let a := poolAddr s c p m.off
        let q := (s.page c p).frame * pageBytes + m.off
        let data := if m.zeros then List.replicate 4096 (0 : Byte) else pieceBytes s q
        match xlate s c a true with
        | .miss => pushReq c a 4096 true (.evict c p) true s
        | .go t =>
          let s := if !m.zeros && piecePoisoned s q then s.modPage c p fun g => { g with poison := true } else s
          let s := postPage c t data (pageKey c p) (atcTouch c a s)
          evictStep c p fuel (modMove c p (fun m => { m with off := m.off + 4096 }) s)

/-- Read the next piece of a restore (R259). -/
def restoreStep (c p : Nat) (s : State) : State :=
  match moveOf s c p with
  | none => s
  | some m => if m.evict || !m.running || m.off ≥ pageBytes || !(s.fn c).bme then s
    else hostRead c (poolAddr s c p m.off) 4096 (.restore c p) s

/-- Start one planned move. -/
def startMove (c p : Nat) (s : State) : State :=
  match moveOf s c p with
  | none => s
  | some m =>
    let s := modMove c p (fun m => { m with running := true }) s
    if m.evict then
      let s := if m.zeros then s else s.setFrame (s.page c p).frame (.transit c p)
      evictStep c p 513 (s.modPage c p fun g => { g with st := .evicting })
    else restoreStep c p s

/-- Start moves while fewer than 32 run (R260). -/
def kickMoves : Nat → State → State
  | 0, s => s
  | fuel + 1, s =>
    if (s.cages.moves.filter (fun m => m.running)).length ≥ 32 then s
    else match s.cages.moves.find? (fun m => !m.running) with
      | none => s
      | some m => kickMoves fuel (startMove m.cage m.page s)

/-- Make a plan for pages of a request (R257, R258): take the free frames, plan the victims, or answer none and move nothing. -/
def makePlan (n c : Nat) (need own : List Nat) (s : State) : Option State :=
  let id := s.cages.nextPlan
  let short := need.length - freeFrames s
  match planVictims c id own short s with
  | none => none
  | some s =>
    let s := s.modCages fun x => { x with nextPlan := id + 1, plans := x.plans ++ [{ id := id, ctx := n, cage := c, need := need }] }
    let (rest, s) := handOut c id need s
    let s := modPlan id (fun q => { q with need := rest }) s
    some (kickMoves 64 s)

/-- Forget the plans that move nothing more. -/
def dropPlans (s : State) : State :=
  s.modCages fun x => { x with plans := x.plans.filter (fun q => !q.need.isEmpty || !q.kept.isEmpty || x.moves.any (fun m => m.plan == q.id)) }

/-- Give a frame that an eviction of a plan freed to the plan's next page; without one it stays dirty. -/
def feedPlan (plan f : Nat) (s : State) : State :=
  match s.cages.plans.find? (fun q => q.id == plan) with
  | none => s
  | some q => match q.need with
    | [] => s
    | p :: rest => giveFrame q.cage p f plan false (modPlan plan (fun q => { q with need := rest }) s)

/-- Release the frame and the pool slot of a page and unmap it (R250, R253). -/
def unmapPage (c p : Nat) (s : State) : State :=
  let g := s.page c p
  let s := if g.st == .resident || g.st == .evicting || g.st == .restoring then
      (match s.frame g.frame with
       | .held c' p' => if c' = c && p' = p then s.setFrame g.frame .dirty else s
       | .transit c' p' => if c' = c && p' = p then s.setFrame g.frame .dirty else s
       | _ => s) else s
  (dropMove c p s).modPage c p fun _ => match g.remap with
    | some sticky => { st := .zero, sticky := sticky, touch := s.ms }
    | none => {}

/-- Withdraw the part of a plan that has not moved yet; what it evicted stays evicted and what it restored stays resident (R267). -/
def cancelPlans (n : Nat) (s : State) : State :=
  let ids := (s.cages.plans.filter (fun q => q.ctx == n)).map (·.id)
  let kept := ((s.cages.plans.filter (fun q => q.ctx == n)).map (fun q => q.kept.map (fun e => e.2 - 1))).flatten
  let idle := s.cages.moves.filter (fun m => ids.contains m.plan && !m.running && m.evict)
  let s := idle.foldl (fun s m => (dropMove m.cage m.page s).modPage m.cage m.page fun g => { g with slot := none }) s
  let s := forEach kept (fun f s => s.setFrame f .dirty) s
  dropPlans (s.modCages fun x => { x with plans := lmap x.plans (fun q => q.ctx == n) (fun q => { q with need := [], kept := [] }) })

/-- Write the PAGES_EVICTED record of a victim once its last eviction of a plan has ended (R285). -/
def evictedRec (plan v : Nat) (s : State) : State :=
  match s.cages.plans.find? (fun q => q.id == plan) with
  | none => s
  | some q =>
    if s.cages.moves.any (fun m => m.plan == plan && m.cage == v && m.evict) then s
    else reportCtl 0x0602 [(20, 4, tget 0 q.evicted v), (24, 4, freeSlots s v)] v s

/-- The last write of an eviction is acknowledged (R259): the page is EVICTED, its frame dirty, and the plan takes the frame. -/
def evictDone (c p : Nat) (s : State) : State :=
  match moveOf s c p with
  | none => s
  | some m =>
    let f := (s.page c p).frame
    let s := dropMove c p s
    let s := s.modPage c p fun g => { g with st := .evicted, frame := 0 }
    let s := if m.zeros then s else s.setFrame f .dirty
    let s := modPlan m.plan (fun q => { q with evicted := tput 0 q.evicted c (tget 0 q.evicted c + 1) }) s
    let s := evictedRec m.plan c s
    let s := if m.zeros then s else feedPlan m.plan f s
    let s := s.cages.plans.foldl (fun s q =>
      if q.cage = c && tget 0 q.kept p != 0 then
        giveFrame c p (tget 0 q.kept p - 1) q.id false (modPlan q.id (fun q => { q with kept := tdel q.kept p }) s) else s) s
    kickMoves 64 (dropPlans s)

/-- The last read of a restore has completed (R259): the page is RESIDENT and the slot released; a poison mark makes every line poisoned (R378). -/
def restoreDone (c p : Nat) (s : State) : State :=
  let g := s.page c p
  let s := dropMove c p s
  let s := (s.setFrame g.frame (.held c p)).modPage c p fun g => { g with st := .resident, slot := none, touch := s.ms }
  let s := if g.poison then reportCtl 0x0604 [(24, 8, p * pageBytes)] c (poisonFrame g.frame s) else s
  kickMoves 64 (dropPlans s)

/-- A restore read failed (R262): the page is RESIDENT with every byte poisoned. -/
def restoreFail (c p : Nat) (s : State) : State :=
  let g := s.page c p
  let s := dropMove c p s
  let s := (s.setFrame g.frame (.held c p)).modPage c p fun g => { g with st := .resident, slot := none }
  kickMoves 64 (dropPlans (reportCtl 0x0604 [(24, 8, p * pageBytes)] c (poisonFrame g.frame s)))

end Sys2Proof.Machine
end

