-- ==== Sys2Proof/Machine/Beat.lean ====
section
/-! DEFINITION. Beat groups: slots, gates, stream transfers, trace capture (R320 to R326, R342 to R360, R723). -/

namespace Sys2Proof.Machine

/-- One beat group. -/
def State.group (s : State) (g : Nat) : Group := tget {} s.beat.groups g

/-- Change one beat group. -/
def State.modGroup (s : State) (g : Nat) (f : Group → Group) : State :=
  s.modBeat fun b => { b with groups := tput {} b.groups g (f (tget {} b.groups g)) }

/-- One cluster. -/
def State.clus (s : State) (c : Nat) : Clus := tget {} s.beat.clusters c

/-- Change one cluster. -/
def State.modClus (s : State) (c : Nat) (f : Clus → Clus) : State :=
  s.modBeat fun b => { b with clusters := tput {} b.clusters c (f (tget {} b.clusters c)) }

/-! ### Trace capture (R723) -/

/-- Put one entry into the trace buffer while capture runs. -/
def traceAdd (event arg g : Nat) (s : State) : State :=
  if !s.mgmt.traceEn || s.mgmt.frozen then s
  else
    let x := s.group g
    let e : TraceEntry := { event := event, arg := arg, group := g, cage := x.cage, beat := x.beat, rowTime := s.ao.rowTime }
    s.modMgmt fun m => { m with trace := (e :: m.trace).take 16384 }

/-- A contract violation freezes the buffer while FREEZE = 1. -/
def traceFreezeNow (s : State) : State :=
  if s.mgmt.traceEn && s.mgmt.traceFreeze then s.modMgmt fun m => { m with frozen := true } else s

/-! ### Slots (R320 to R322) -/

/-- Slot k of a window with bubble count n is a bubble (R321). -/
def isBubble (k n : Nat) : Bool := decide (k * n / 64 < (k + 1) * n / 64)

/-- The gate of the bundle a cluster would issue next holds (R347). -/
def gateCond (c : Clus) : Bool :=
  c.idle != 0 || !bit (bGate c.fetched) 5 || decide (bThreshold c.fetched ≤ (tget 0 c.arrs (bGate c.fetched % 32)).toNat)

/-- Sample the gates of a group's next beat, with the arrival counters as `old` gives them (R347). -/
def sampleGates (g : Nat) (old : Nat → Tbl W32) (s : State) : State :=
  forEach (s.group g).clusters (fun i s => s.modClus i fun c => { c with gateOk := gateCond { c with arrs := old i } }) s

/-! ### Stream transfers (R342, R343) -/

/-- The admission that runs on a beat group. -/
def groupAdm (s : State) (g : Nat) : Option Adm := s.cages.adms.find? (fun a => a.group == g && a.ph == .running)

/-- Logical cluster lc of a group. -/
def physClus (s : State) (g lc : Nat) : Nat := (s.group g).clusters.getD lc 0

/-- The scratchpad lines a transfer writes: logical cluster and base. -/
def Stream.dst (t : Stream) : Option (Nat × Nat) :=
  if t.op = 1 then some (t.lc, t.sp) else if t.op = 3 then some (t.dest, t.x) else none

/-- The scratchpad lines a transfer reads. -/
def Stream.src (t : Stream) : Option (Nat × Nat) := if t.op = 1 then none else some (t.lc, t.sp)

/-- The scratchpad lines of a cluster that pieces in flight will write. -/
def incoming (s : State) (g lc : Nat) : List Nat :=
  (s.beat.streams.map (fun t => match t.dst with
    | some (l, b) => if t.group = g && l = lc then t.left.map (fun p => b + 64 * p) else []
    | none => [])).flatten

/-- Pieces of `a` whose lines, from `ba` on, are among the lines that pieces of `b` still in flight touch from `bb` on. -/
def meeting (a : Stream) (ba : Nat × Nat) (b : Stream) (bb : Nat × Nat) : List Nat :=
  if ba.1 != bb.1 then []
  else a.left.filter (fun p => b.left.any (fun q => ba.2 + 64 * p == bb.2 + 64 * q))

/-- The pieces of `a` that `b` leaves open: lines of `a` that `b` writes, and device lines that one reads and the other writes (R357). -/
def openBy (a b : Stream) : List Nat :=
  (match a.src, b.dst with | some x, some y => meeting a x b y | _, _ => []) ++
  (match a.dst, b.dst with | some x, some y => meeting a x b y | _, _ => []) ++
  (if a.op = 1 && b.op = 2 then meeting a (0, a.x) b (0, b.x) else [])

/-- Take a transfer into flight, marking what it and the others leave open. -/
def addStream (t : Stream) (s : State) : State :=
  s.modBeat fun b =>
    let others := b.streams.filter (fun o => o.group == t.group)
    let t := { t with loose := (others.map (openBy t)).flatten }
    { b with
      nextStream := b.nextStream + 1
      streams := lmap b.streams (fun o => o.group == t.group) (fun o => { o with loose := o.loose ++ openBy o t }) ++ [t] }

/-- Mark as open the pieces in flight whose lines a program store has touched (R357). -/
def looseStores (g lc : Nat) (lines : List Nat) (s : State) : State :=
  let hit := fun (x : Option (Nat × Nat)) (t : Stream) => match x with
    | some (l, b) => if l = lc then t.left.filter (fun p => lines.contains (b + 64 * p)) else []
    | none => []
  if lines.isEmpty then s
  else s.modBeat fun b => { b with
    streams := lmap b.streams (fun t => t.group == g) (fun t => { t with loose := t.loose ++ hit t.src t ++ hit t.dst t }) }

/-- A device address of a piece lies in the spill set of the group's shadow program (R281). -/
def shadowPiece (s : State) (t : Stream) (p : Nat) : Bool :=
  match groupAdm s t.group with
  | some a => a.shadow && t.op != 3 && a.spill.contains ((t.x + 64 * p) / pageBytes)
  | none => false

/-- The bytes of a scratchpad line, and whether a word of it is poisoned. -/
def spLine (c : Clus) (a : Nat) : Bytes × Bool := (mrdN c.sp a 64, wordsPoisoned c a 64)

/-- Change one stream. -/
def modStream (id : Nat) (f : Stream → Stream) (s : State) : State :=
  s.modBeat fun b => { b with streams := lmap b.streams (fun t => t.id == id) f }

/-- Write the bytes of a shadow WR piece to the pool, zeros for a poisoned line with the page's mark set (R281, R378). -/
def shadowPost (t : Stream) (p : Nat) (a : W64) (s : State) : State :=
  let cage := (s.group t.group).cage
  let (bs, psn) := spLine (s.clus (physClus s t.group t.lc)) (t.sp + 64 * p)
  let s := if psn then s.modPage cage ((t.x + 64 * p) / pageBytes) fun g => { g with poison := true } else s
  if t.loose.contains p then
    let (fb, s) := drawBytes 64 s
    post cage a fb none s
  else post cage a (if psn then List.replicate 64 0 else bs) none s

/-- Make the host request of one shadow piece (R281). -/
def shadowRequest (t : Stream) (p : Nat) (s : State) : State :=
  let cage := (s.group t.group).cage
  let d := t.x + 64 * p
  if t.sent.contains p || !shadowPiece s t p || !(s.fn cage).bme then s
  else
    let a := poolAddr s cage (d / pageBytes) (d % pageBytes)
    let s := modStream t.id (fun t => { t with sent := t.sent ++ [p] }) s
    if t.op = 1 then hostRead cage a 64 (.shadowRd t.id p) s
    else match xlate s cage a true with
      | .go h => shadowPost t p h (atcTouch cage a s)
      | .miss => pushReq cage a 64 true (.shadowWr t.id p) true s

/-- Make every host request of shadow pieces that can be made. -/
def kickShadow (s : State) : State :=
  s.beat.streams.foldl (fun s t => forEach t.left (shadowRequest t) s) s

/-- Some page a transfer addresses lies outside W, or above the cage's address space (Table BEAT-13, code 5). -/
def outsideW (s : State) (g x n : Nat) : Bool :=
  match groupAdm s g with
  | none => true
  | some a => decide (2 ^ 37 < x + n) || (pagesOf x n).any (fun p => !a.w.contains p && !a.spill.contains p)

/-- Issue the slot of stream unit u of a logical cluster from the registers it had in the beat; answers the breach code if any (R342, R360). -/
def issueStream (g lc u : Nat) (c : Clus) (s : State) : State × List Nat :=
  let w := bStr c.fetched u
  let op := w % 256
  if op = 0 || 3 < op then (s, [])
  else
    let sp := (c.ar (bits w 16 13)).v.toNat / 64 * 64
    let x := (c.ar (bits w 20 17)).v.toNat / 64 * 64
    let n := bits w 44 29
    let dest := bits w 28 22
    let xOut := if op = 3 then false else outsideW s g x (64 * n)
    let spOut := decide (c.spBytes < sp + 64 * n) ||
      (op = 3 && (decide ((s.group g).clusters.length ≤ dest) || decide ((s.clus (physClus s g dest)).spBytes < x + 64 * n)))
    if n = 0 then (s, [])
    else if xOut || spOut then (s, (if xOut then [5] else []) ++ (if spOut then [6] else []))
    else
      let s := addStream { id := s.beat.nextStream, group := g, lc := lc, op := op, ctr := bits w 12 8, sp := sp, x := x,
                           dest := dest, pieces := n, left := List.range n } s
      (s, [])

/-- Add 1 to an arrival counter (R345). -/
def countArrival (c ctr : Nat) (s : State) : State :=
  s.modClus c fun k => { k with arrs := tput 0 k.arrs ctr (tget 0 k.arrs ctr + 1) }

/-- Write a line into a scratchpad, with the poison of its words. -/
def spWrite (c a : Nat) (bs : Bytes) (psn : List Bool) (s : State) : State :=
  s.modClus c fun k => { k with
    sp := mwrN k.sp a bs
    spPsn := psn.zipIdx.foldl (fun l e => if e.1 then nadd l (a / 8 + e.2) else l.filter (fun j => j != a / 8 + e.2)) k.spPsn }

/-- The data a piece carries, free where a breach has left it open. -/
def pieceData (t : Stream) (p : Nat) (bs : Bytes) (s : State) : Bytes × State :=
  if t.loose.contains p then drawBytes 64 s else (bs, s)

/-- A piece lands: data, poison and the arrival counter (R292, R343, R345, R376, R377). `host` holds what a shadow read returned. -/
def landPiece (t : Stream) (p : Nat) (host : Option Bytes) (s : State) : State :=
  let g := t.group
  let c := physClus s g t.lc
  let cage := (s.group g).cage
  let d := t.x + 64 * p
  let s := modStream t.id (fun t => { t with left := t.left.filter (fun q => q != p) }) (s.modClus c fun k => { k with moved := true })
  let s := match t.op with
    | 1 =>
      match host with
      | some bs => spWrite c (t.sp + 64 * p) bs (List.replicate 8 false) s
      | none => match physOf s cage d with
        | none => spWrite c (t.sp + 64 * p) (List.replicate 64 0) (List.replicate 8 false) s
        | some q =>
          if linePoisoned s q then
            let (bs, s) := drawBytes 64 s
            spWrite c (t.sp + 64 * p) bs (List.replicate 8 true) s
          else
            let (bs, s) := pieceData t p (mrdN s.mem.mem q 64) s
            spWrite c (t.sp + 64 * p) bs (List.replicate 8 false) s
    | 2 =>
      if shadowPiece s t p then s
      else match physOf s cage d with
        | none => s
        | some q =>
          let (bs, psn) := spLine (s.clus c) (t.sp + 64 * p)
          let (bs, s) := pieceData t p bs s
          setLinePoison q psn (s.modMem fun m => { m with mem := mwrN m.mem q bs })
    | _ =>
      let (bs, _) := spLine (s.clus c) (t.sp + 64 * p)
      let psn := (List.range 8).map (fun i => wordsPoisoned (s.clus c) (t.sp + 64 * p + 8 * i) 8)
      let (bs, s) := pieceData t p bs s
      spWrite (physClus s g t.dest) (t.x + 64 * p) bs psn s
  let s := countArrival (if t.op = 3 then physClus s g t.dest else c) t.ctr s
  s.modBeat fun b => { b with streams := b.streams.filter (fun t => !t.left.isEmpty) }

/-- The request of a shadow piece is still out. -/
def shadowPending (s : State) (id p : Nat) : Bool :=
  s.host.reqs.any (fun r => match r.why with
    | .shadowRd i q => i == id && q == p
    | .shadowWr i q => i == id && q == p
    | _ => false)

/-! ### Stopping (R351, R353, R360) -/

/-- The DETAIL of a breach: code, logical cluster and program beat (R360). -/
def breachDetail (code lc beat : Nat) : Nat := code + 256 * lc + 65536 * (beat % 65536)

/-- The lowest code, and within it the lowest logical cluster (R360). -/
def lowestBreach (codes : List (Nat × Nat)) : Option (Nat × Nat) :=
  codes.foldl (fun best e => match best with
    | none => some e
    | some b => if e.1 < b.1 || (e.1 = b.1 && e.2 < b.2) then some e else best) none

/-- Stop a group at the end of its slot. -/
def haltGroup (g : Nat) (s : State) : State :=
  s.modGroup g fun x => { x with st := .stopped, holding := false, endRow := s.ao.rowTime }

/-- Record a breach: the trace holds its code and may freeze (R360, R723). -/
def noteBreach (g detail : Nat) (s : State) : State :=
  traceFreezeNow (traceAdd 4 (detail % 256) g (s.modGroup g fun x => { x with breach := some detail }))

/-- The end of a slot: what ends the program, in the order of R353. -/
def endOfSlot (g : Nat) (done : Bool) (s : State) : State :=
  let x := s.group g
  if done then haltGroup g (s.modGroup g fun x => { x with ended := true, breach := none, shadowFail := none, abort := false })
  else if x.breach.isSome || x.shadowFail.isSome then haltGroup g s
  else if x.abort then haltGroup g (traceAdd 3 0 g s)
  else s

/-! ### Executing a beat -/

/-- One cluster's part of an executed beat: its new state, its breach codes and the lines it stored. -/
def beatOf (g lc : Nat) (last : Bool) (s : State) : State × List (Nat × Nat) :=
  let i := physClus s g lc
  let w := clusterBeat last { c := s.clus i, beat := (s.group g).beat, loose := incoming s g lc, fr := s.free }
  let s := looseStores g lc w.stored ({ s with free := w.fr }.modClus i fun _ => w.c)
  (s, w.codes.map (fun k => (k, lc)))

/-- The beat on every cluster in logical order, then the stream issues, from the registers as the beat found them. -/
def runBeat (g : Nat) (s : State) : State × List (Nat × Nat) :=
  let n := (s.group g).clusters.length
  let last := (s.group g).beat + 1 == (s.group g).beats
  let pre := (s.group g).clusters.map s.clus
  let r := (List.range n).foldl (fun (x : State × List (Nat × Nat)) lc => let y := beatOf g lc last x.1; (y.1, x.2 ++ y.2)) (s, [])
  (List.range (2 * n)).foldl (fun (x : State × List (Nat × Nat)) j =>
    let lc := j / 2
    let c := pre.getD lc {}
    if c.idle = 0 then
      let y := issueStream g lc (j % 2) c x.1
      (y.1, x.2 ++ y.2.map (fun k => (k, lc)))
    else x) r

/-- Count the stream activity since the last slot of each cluster (R34). -/
def countMoved (g : Nat) (s : State) : State :=
  forEach (s.group g).clusters (fun i s => s.modClus i fun c => { c with strBeats := c.strBeats + b2n c.moved, moved := false }) s

/-- A held slot: the hold is traced once it has lasted 1 ms (R348, R723). -/
def heldSlot (g : Nat) (s : State) : State :=
  let x := s.group g
  let s := s.modGroup g fun x => { x with holding := true, holdAt := some (x.holdAt.getD s.now) }
  if !x.holdTold && decide (100000 < s.now - x.holdAt.getD s.now) then traceAdd 5 0 g (s.modGroup g fun x => { x with holdTold := true }) else s

/-- One slot of a running group: a bubble, held, or one program beat on every cluster (R320 to R322, R347, R350, R360). -/
def slotStep (g : Nat) (s : State) : State :=
  let x := s.group g
  let k := x.slot % 64
  let n := if k = 0 then (if s.beat.stale then 60 else x.nNew) else x.nForce
  let s := countMoved g (s.modGroup g fun x => { x with slot := x.slot + 1, nForce := n })
  let old := fun i => (s.clus i).arrs
  if isBubble k n then endOfSlot g false (sampleGates g old s)
  else if !(x.clusters.all (fun i => (s.clus i).gateOk)) then endOfSlot g false (sampleGates g old (heldSlot g s))
  else
    let s := s.modGroup g fun x => { x with holding := false, holdAt := none, holdTold := false }
    let (s, codes) := runBeat g s
    let done := x.beat + 1 == x.beats
    let s := match lowestBreach codes with
      | some (code, lc) => if done then s else noteBreach g (breachDetail code lc x.beat) s
      | none => s
    let s := s.modGroup g fun x => { x with beat := x.beat + 1 }
    endOfSlot g done (kickShadow (sampleGates g old s))

/-- The lowest logical cluster whose gate is unmet (R360). -/
def unmetCluster (s : State) (g : Nat) : Nat :=
  ((List.range (s.group g).clusters.length).find? (fun lc => !gateCond (s.clus (physClus s g lc)))).getD 0

/-- Drop a group's transfers in flight: a device line a dropped WR would have written may or may not hold its data (R351). -/
def dropStreams (g : Nat) (s : State) : State :=
  let s := s.beat.streams.foldl (fun s t =>
    if t.group = g && t.op = 2 then
      forEach t.left (fun p s =>
        let (b, s) := draw 1 s
        if b.getLsbD 0 && !shadowPiece s t p then landPiece t p none s else s) s
    else s) s
  let s := s.modBeat fun b => { b with streams := b.streams.filter (fun t => t.group != g) }
  s.modHost fun h => { h with
    reqs := h.reqs.filter (fun r => match r.why with
    | .shadowRd i _ => s.beat.streams.any (fun t => t.id == i)
    | .shadowWr i _ => s.beat.streams.any (fun t => t.id == i)
    | _ => true) }

end Sys2Proof.Machine
end

