-- ==== Sys2Proof/Machine/Operands.lean ====
section
/-! DEFINITION. Every operand form of the ring opcodes: the fields, reserved bits and ranges of Tables RING-4, CAGE-2, CAGE-5, CAGE-6 and BEAT-11. -/

namespace Sys2Proof.Machine

/-- Bytes 16 to 23 of a descriptor. -/
def opA (d : Bytes) : Nat := fld d 16 8
/-- Bytes 24 to 31 of a descriptor. -/
def opB (d : Bytes) : Nat := fld d 24 8
/-- LENGTH (R190). -/
def opLen (d : Bytes) : Nat := fld d 4 3

/-- A host range that would run past 2^64 − 1 takes part with LENGTH at byte 4 (R201, R794). -/
def hostOver (a n : Nat) : Option Nat := if a + n > 2 ^ 64 then some 4 else none

/-- The first of several out-of-range operands. -/
def firstBad : List (Bool × Nat) → Option Nat
  | [] => none
  | (b, i) :: r => if b then some i else firstBad r

/-- NOP (Table RING-3). -/
def specNop : OpSpec := {}

/-- COPY_H2D (Table RING-4). -/
def specH2d : OpSpec :=
  { len := true, masks := allBits 16 16, bad := fun _ d => hostOver (opA d) (opLen d), ranges := fun d => [(opB d, opLen d)] }

/-- COPY_D2H (Table RING-4). -/
def specD2h : OpSpec :=
  { len := true, masks := allBits 16 16, bad := fun _ d => hostOver (opB d) (opLen d), ranges := fun d => [(opA d, opLen d)] }

/-- COPY_D2D (Table RING-4). -/
def specD2d : OpSpec :=
  { len := true, masks := allBits 16 16, ranges := fun d => [(opA d, opLen d), (opB d, opLen d)] }

/-- FILL (Table RING-4). -/
def specFill : OpSpec := { len := true, masks := allBits 16 16, ranges := fun d => [(opA d, opLen d)] }

/-- EVENT_SIGNAL (Table RING-4). -/
def specSignal : OpSpec :=
  { masks := (16, 255) :: allBits 24 8, bad := fun _ d => firstBad [(decide (63 < byteAt d 16), 16)] }

/-- EVENT_WAIT (Table RING-4). -/
def specWait : OpSpec :=
  { masks := (16, 255) :: (allBits 20 4 ++ allBits 24 8), bad := fun _ d => firstBad [(decide (63 < byteAt d 16), 16)] }

/-- HOST_WRITE (Table RING-4): bits [2:0] of the address are reserved. -/
def specHostWrite : OpSpec := { masks := (16, 0xF8) :: (allBits 17 7 ++ allBits 24 8) }

/-- SCHED_SET (Table RING-4). -/
def specSched : OpSpec :=
  { cage0 := true, masks := allBits 16 4,
    bad := fun _ d => firstBad [(decide (byteAt d 17 = 0), 17), (decide (fld d 18 2 = 0) || decide (512 < fld d 18 2), 18)] }

/-- POLICY: bytes 16 to 63 are judged by the management plane (R195). -/
def specPolicy : OpSpec := { cage0 := true, masks := allBits 16 48 }

/-- CAGE_CREATE and CAGE_QUOTA operand ranges (Table CAGE-2, R232, R794): the lowest operand takes part first. -/
def badQuota (create : Bool) (d : Bytes) : Option Nat :=
  firstBad [(create && decide (byteAt d 16 = 0), 16),
    (decide (65536 < fld d 20 4) || decide (fld d 24 4 < fld d 20 4), 20),
    (decide (65536 < fld d 24 4), 24), (decide (128 < byteAt d 28), 28), (decide (16 < byteAt d 29), 29), (decide (64 < byteAt d 30), 30)]

/-- The sum of PAGE_GUAR that a command would leave (R233). -/
def guarSum (s : State) (c g : Nat) : Nat :=
  ((s.cages.cages.filter (fun e => e.1 != c && e.2.st == .active)).map (fun e => e.2.guar)).sum + g

/-- CAGE_CREATE (Table CAGE-2). -/
def specCreate : OpSpec :=
  { cage0 := true, masks := (16, 255) :: (31, 1) :: allBits 20 11, bad := fun _ d => badQuota true d,
    quota := fun s _ d => if 65536 < guarSum s (byteAt d 16) (fld d 20 4) then some 5 else none }

/-- CAGE_QUOTA (Table CAGE-2). -/
def specQuota : OpSpec :=
  { cage0 := true, masks := (16, 255) :: (31, 1) :: allBits 20 11, bad := fun _ d => badQuota false d,
    quota := fun s _ d => if 65536 < guarSum s (byteAt d 16) (fld d 20 4) then some 5 else none }

/-- CAGE_DESTROY (R230, R232). -/
def specDestroy : OpSpec := { cage0 := true, masks := [(16, 255)], bad := fun _ d => firstBad [(decide (byteAt d 16 = 0), 16)] }

/-- PAGE_MAP and PAGE_UNMAP ranges (R248). -/
def badPages (d : Bytes) : Option Nat :=
  let a := opA d
  let n := fld d 24 4
  firstBad [(decide (a % 2 ^ 21 ≠ 0) || decide (2 ^ 37 ≤ a), 16),
    (decide (n ≤ 65536) && decide (0 < n) && decide (65536 < a / 2 ^ 21 + n), 16), (decide (n = 0) || decide (65536 < n), 24)]

/-- PAGE_MAP (Table CAGE-5). -/
def specMap : OpSpec := { masks := (28, 3) :: allBits 16 12, bad := fun _ d => badPages d }

/-- PAGE_UNMAP (Table CAGE-5). -/
def specUnmap : OpSpec := { masks := allBits 16 12, bad := fun _ d => badPages d }

/-- POOL_SET (Table CAGE-5): bits [11:0] of the pool address are reserved; a pool past 2^64 is out of range (R201). -/
def specPool : OpSpec :=
  { masks := (17, 0xF0) :: (allBits 18 6 ++ allBits 24 4),
    bad := fun _ d => firstBad [(decide (2 ^ 64 < opA d + fld d 24 4 * 2 ^ 21) && decide (fld d 24 4 ≤ 65536), 16), (decide (65536 < fld d 24 4), 24)] }

/-- Beat groups a cage holds, counting admissions between grant and END (R230). -/
def groupsHeld (s : State) (c : Nat) : Nat :=
  (s.cages.adms.filter (fun a => a.cage == c && a.ph != .queued)).length

/-- ADMIT (Table CAGE-6, R266). -/
def specAdmit : OpSpec :=
  { masks := allBits 16 14 ++ [(30, 7)] ++ allBits 32 8 ++ [(40, 0xBF)],
    bad := fun _ d => firstBad [(decide (fld d 16 8 % 4096 ≠ 0), 16), (decide (fld d 24 4 = 0), 24),
      (decide (fld d 28 2 ≠ 0) && (decide (fld d 28 2 < 32) || decide (80 < fld d 28 2)), 28),
      (bit (byteAt d 30) 2 && decide (fld d 32 4 ≠ 0), 30)],
    badNow := fun s c d => if c != 0 && decide (fld d 32 4 ≠ 0) && !s.cages.permits.contains (c, fld d 32 4) then some 32 else none,
    ranges := fun d => [(fld d 16 8, fld d 24 4)],
    quota := fun s c _ => if (s.cage c).groupLimit ≤ groupsHeld s c then some 3 else none }

/-- PROGRAM_ABORT (Table BEAT-11): the reserved bytes depend on MODE. -/
def specAbort : OpSpec :=
  { masks := [(16, 255), (17, 255)] ++ allBits 24 8,
    narrow := fun d => (if byteAt d 16 = 2 then [] else [17]) ++ (if byteAt d 16 = 0 then [] else (List.range 8).map (· + 24)),
    deny := fun c d => c != 0 && byteAt d 16 == 2, bad := fun _ d => firstBad [(decide (2 < byteAt d 16), 16)] }

end Sys2Proof.Machine
end

