-- ==== Sys2Proof/Machine/Copy.lean ====
section
/-! DEFINITION. The transfers of commands: preparing pages, copies in both directions, copies within device memory, fills, and the page, pool and quota commands. -/

namespace Sys2Proof.Machine

/-! ### The first own check of every command that needs device memory (R385) -/

/-- Run a command's own meaning once stack training has ended; refuse it while device memory is offline (R385). -/
def memGate (n : Nat) (act : State → State) (s : State) : State :=
  if s.mem.offline then endCmd n 0x33 10 0 s
  else if !s.mem.trainEnded then s.modCtx n fun c => { c with trainWait := true }
  else act (s.modCtx n fun c => { c with trainWait := false })

/-! ### Pages made ready -/

/-- A page a command uses is ready: RESIDENT and not being zeroed, or ZERO and only read; a claimed page is not (R243, R250, R254). -/
def pageReady (s : State) (c : Nat) (wr : List Nat) (p : Nat) : Bool :=
  let g := s.page c p
  !g.claimed && ((g.st == .resident && !g.zeroing) || (g.st == .zero && !wr.contains p))

/-- A page that still needs a frame: EVICTED or EVICTING, or ZERO and written (R244). -/
def pageNeeds (s : State) (c : Nat) (wr : List Nat) (p : Nat) : Bool :=
  let g := s.page c p
  g.st == .evicted || g.st == .evicting || (g.st == .zero && wr.contains p)

/-- A command waits for a program to end: it writes a pinned page (R217), or needs a page of a running shadow program's spill set (R281). -/
def pinBlocked (s : State) (c : Nat) (pages wr : List Nat) : Bool :=
  wr.any (fun p => decide (0 < (s.page c p).pins)) || pages.any (fun p => (s.page c p).spilled)

/-- Plan the pages of a command, or end it STATE_REFUSED 6 when no frame is obtainable (R244). A page still draining a claim, or pinned
against it, keeps the command waiting without a plan; a page unmapped in the meantime ends it DEV_ADDR_FAULT. -/
def prepare (n : Nat) (s : State) : State :=
  let c := s.ctx n
  if c.pages.any (fun p => (s.page c.cage p).claimed) then s
  else if c.pages.any (fun p => (s.page c.cage p).st == .unmapped) then endCmd n 0x16 0 0 s
  else if pinBlocked s c.cage c.pages c.wrPages then s.modCtx n fun c => { c with pinWait := true }
  else
    let s := s.modCtx n fun c => { c with pinWait := false, planned := true }
    let need := c.pages.filter (pageNeeds s c.cage c.wrPages)
    if need.isEmpty then s
    else match makePlan n c.cage need c.pages s with
      | some s => s
      | none =>
        let short := need.length - supplyFor s c.cage c.pages
        endCmd n 0x33 6 short (if c.op = 0x12 then forEach c.pages (fun p s => s.modPage c.cage p fun _ => {}) s else s)

/-! ### Transfers (R209, R194, R376) -/

/-- The host and device starts of a copy. -/
def copyHost (c : Ctx) : Nat := if c.op = 1 then opA c.desc else opB c.desc
def copyDev (c : Ctx) : Nat := if c.op = 1 then opB c.desc else opA c.desc

/-- The length of the next piece of a copy: up to 4 KiB, within one 4 KiB host page (R209). -/
def pieceLen (c : Ctx) : Nat := min (4096 - (copyHost c + c.moved) % 4096) (opLen c.desc - c.moved)

/-- A copy ends on a failure after `d` bytes; the device makes no promise about the bytes from `d` on: each destination byte in device
memory holds what it held or a byte of the host's (R148). -/
def looseTail (c a n : Nat) (s : State) : State :=
  let (keep, s) := drawBytes n s
  let (data, s) := drawBytes n s
  let old := (List.range n).map (fun i => match physOf s c (a + i) with | some q => mrd s.mem.mem q | none => 0)
  let new := (List.range n).map (fun i => if (keep.getD i 0).getLsbD 0 then data.getD i 0 else old.getD i 0)
  (List.range n).foldl (fun s i => match physOf s c (a + i) with
    | some q => s.modMem fun m => { m with mem := mwr m.mem q (new.getD i 0) }
    | none => s) s

/-- Read the next piece of a COPY_H2D, or end it. -/
def h2dNext (n : Nat) (s : State) : State :=
  let c := s.ctx n
  if opLen c.desc ≤ c.moved then endOk n 0 s
  else if !(s.fn c.cage).bme then s
  else hostRead c.cage (BitVec.ofNat 64 (copyHost c + c.moved)) (pieceLen c) (.copyIn n c.moved) s

/-- Go on with a command, unless its cage is being destroyed: then it ends ABORTED (R236). -/
def endingOr (n : Nat) (go : State → State) (s : State) : State :=
  if (s.cage (s.ctx n).cage).st == .ending then endCmd n 0x31 0 0 s else go s

/-- The data of a COPY_H2D piece arrived: write it to device memory. -/
def h2dData (n off : Nat) (bs : Bytes) (s : State) : State :=
  let c := s.ctx n
  let a := copyDev c
  let (s, e) := devWrite c.cage a (a + opLen c.desc) (lineFuel bs.length) (a + off) bs s
  match e with
  | some l => endCmd n 0x22 (l - a) 0 s
  | none => endingOr n (h2dNext n) (s.modCtx n fun c => { c with moved := off + bs.length })

/-- Move the pieces of a COPY_D2H until it ends or waits for a translation (R209, R376). -/
def d2hRun (n : Nat) : Nat → State → State
  | 0, s => s
  | fuel + 1, s =>
    let c := s.ctx n
    if opLen c.desc ≤ c.moved then endOk n 0 s
    else if !(s.fn c.cage).bme then s
    else
      let k := pieceLen c
      let h := BitVec.ofNat 64 (copyHost c + c.moved)
      match xlate s c.cage h true with
      | .miss => pushReq c.cage h k true (.copyOut n c.moved) true s
      | .go t =>
        let (bs, e) := devRead s c.cage (lineFuel k) (copyDev c + c.moved) k
        let s := if bs.isEmpty then s else post c.cage t bs none (atcTouch c.cage h s)
        match e with
        | some l => endCmd n 0x22 (l - copyDev c) 0 s
        | none => d2hRun n fuel (s.modCtx n fun c => { c with moved := c.moved + k })

/-- COPY_D2D: the whole source is read before any byte is written (R194). -/
def d2dRun (n : Nat) (s : State) : State :=
  let c := s.ctx n
  let len := opLen c.desc
  let src := opA c.desc
  let dst := opB c.desc
  let (bs, e) := devRead s c.cage (lineFuel len) src len
  let (s, w) := devWrite c.cage dst (dst + len) (lineFuel len) dst bs s
  match w, e with
  | some l, _ => endCmd n 0x22 (l - dst) 0 s
  | none, some l => endCmd n 0x22 (l - src) 0 s
  | none, none => endOk n 0 s

/-- FILL: destination byte j receives pattern byte j mod 8 (R192). -/
def fillRun (n : Nat) (s : State) : State :=
  let c := s.ctx n
  let len := opLen c.desc
  let pat := (c.desc.drop 24).take 8
  let bs := (List.range len).map (fun j => pat.getD (j % 8) 0)
  let (s, w) := devWrite c.cage (opA c.desc) (opA c.desc + len) (lineFuel len) (opA c.desc) bs s
  match w with
  | some l => endCmd n 0x22 (l - opA c.desc) 0 s
  | none => endOk n 0 s

/-- Fuel for the pieces of the longest copy. -/
def pieceFuel : Nat := 8200

/-- Begin a command over pages of its cage, some of them written. -/
def beginPages (n : Nat) (pages wr : List Nat) (s : State) : State :=
  prepare n (s.modCtx n fun c => { c with pages := pages, wrPages := wr })

/-- COPY_H2D, COPY_D2H, COPY_D2D and FILL past their checks (R209, R217, R244). -/
def bodyCopy (n : Nat) (s : State) : State :=
  let d := (s.ctx n).desc
  let len := opLen d
  match (s.ctx n).op with
  | 1 => memGate n (beginPages n (pagesOf (opB d) len) (pagesOf (opB d) len)) s
  | 2 => memGate n (beginPages n (pagesOf (opA d) len) []) s
  | 3 => memGate n (beginPages n ((pagesOf (opA d) len ++ pagesOf (opB d) len).eraseDups) (pagesOf (opB d) len)) s
  | _ => memGate n (beginPages n (pagesOf (opA d) len) (pagesOf (opA d) len)) s

/-- A copy's request failed at an offset of its host range: nothing is promised from there on (R148). -/
def copyFail (n off status : Nat) (s : State) : State :=
  let c := s.ctx n
  let s := if c.op = 1 then looseTail c.cage (copyDev c + off) (opLen c.desc - off) s else s
  endingOr n (endCmd n status off 0) s

/-! ### Events and small writes (R192, R193) -/

/-- The event counter of a cage. -/
def State.event (s : State) (c e : Nat) : W64 := tget 0 s.rings.events (64 * c + e)

/-- Set an event counter. -/
def State.setEvent (s : State) (c e : Nat) (v : W64) : State :=
  s.modRings fun r => { r with events := tput 0 r.events (64 * c + e) v }

/-- EVENT_SIGNAL past its checks (R192). -/
def bodySignal (n : Nat) (s : State) : State :=
  let c := s.ctx n
  let e := byteAt c.desc 16
  let v := s.event c.cage e + BitVec.ofNat 64 (opB c.desc)
  endOk n v.toNat (s.setEvent c.cage e v)

/-- The wait of an EVENT_WAIT is over: counter ≥ threshold, unsigned (R193). -/
def waitMet (s : State) (c : Ctx) : Bool := decide (opB c.desc ≤ (s.event c.cage (byteAt c.desc 16)).toNat)

/-- EVENT_WAIT past its checks: it holds its context until the counter reaches the threshold (R193). -/
def bodyWait (n : Nat) (s : State) : State :=
  let c := s.ctx n
  if waitMet s c then endOk n (s.event c.cage (byteAt c.desc 16)).toNat s
  else s.modCtx n fun c => { c with ph := .held }

/-- Write the 8 bytes of a HOST_WRITE, or ask for the translation first (R192). -/
def bodyHostWrite (n : Nat) (s : State) : State :=
  let c := s.ctx n
  let h := BitVec.ofNat 64 (opA c.desc)
  let s := s.modCtx n fun c => { c with ph := .moving }
  if !(s.fn c.cage).bme then s
  else match xlate s c.cage h true with
    | .miss => pushReq c.cage h 8 true (.hostWrite n) true s
    | .go t => endOk n 0 (post c.cage t ((c.desc.drop 24).take 8) none (atcTouch c.cage h s))

/-- SCHED_SET past its checks (R210). -/
def bodySched (n : Nat) (s : State) : State :=
  let d := (s.ctx n).desc
  let t := byteAt d 16
  match (s.cage t).st with
  | .absent => endCmd n 0x33 4 0 s
  | .dormant => endCmd n 0x33 1 0 s
  | .ending => endCmd n 0x33 2 0 s
  | .active => endOk n 0 (s.modCage t fun g => { g with weight := byteAt d 17, ctxLimit := fld d 18 2 })

/-! ### Page commands (R247 to R251) -/

/-- The pages named by PAGE_MAP and PAGE_UNMAP. -/
def pageRange (d : Bytes) : List Nat := (List.range (fld d 24 4)).map (fun i => opA d / pageBytes + i)

/-- Sticky pages of a cage; a claimed page counts no more (R250). -/
def stickyCount (s : State) (c : Nat) : Nat :=
  ((cagePages s c).filter (fun e => match e.2.remap with | some b => b | none => e.2.sticky && !e.2.claimed)).length

/-- Map one page: a page still draining a claim is mapped again when the claim ends (R249, R250). -/
def mapPage (c : Nat) (sticky : Bool) (p : Nat) (s : State) : State :=
  s.modPage c p fun g => if g.claimed then { g with remap := some sticky } else { st := .zero, sticky := sticky, touch := s.ms }

/-- PAGE_MAP past the shared checks: its quotas, its pages, then the frames if asked for (R249). -/
def bodyMap (n : Nat) (s : State) : State :=
  let c := s.ctx n
  let g := s.cage c.cage
  let k := fld c.desc 24 4
  let sticky := bit (byteAt c.desc 28) 0
  let full := sticky || bit (byteAt c.desc 28) 1
  let ps := pageRange c.desc
  memGate n (fun s =>
    if g.limit < mappedCount s c.cage + k then endCmd n 0x17 1 0 s
    else if sticky && decide (g.guar < stickyCount s c.cage + k) then endCmd n 0x17 4 0 s
    else if ps.any (pageMapped s c.cage) then endCmd n 0x33 5 0 s
    else
      let s := forEach ps (mapPage c.cage sticky) s
      if full then beginPages n ps ps s else endOk n 0 s) s

/-- A page of a cage lies inside a registered buffer (R451). -/
def registeredPage (s : State) (c p : Nat) : Bool :=
  s.coll.groups.any (fun e => match e.2 with
    | some g => g.cage == c && g.bufs.any (fun b => (pagesOf b.2.base b.2.len).contains p)
    | none => false)

/-- PAGE_UNMAP past its checks: claim the range, or refuse all of it (R250, R451). -/
def bodyUnmap (n : Nat) (s : State) : State :=
  let c := s.ctx n
  let ps := pageRange c.desc
  if ps.any (fun p => !pageMapped s c.cage p) then endCmd n 0x33 7 0 s
  else if ps.any (fun p => decide (0 < (s.page c.cage p).pins) || registeredPage s c.cage p) then endCmd n 0x33 8 0 s
  else
    let s := forEach ps (fun p s => s.modPage c.cage p fun g => { g with claimed := true, remap := none }) s
    s.modCtx n fun c => { c with ph := .held }

/-- Nothing moves the claimed pages of a PAGE_UNMAP any more (R250). -/
def unmapReady (s : State) (c : Ctx) : Bool :=
  (pageRange c.desc).all (fun p => !pageInUse s c.cage p &&
    !(s.cages.moves.any (fun m => m.cage == c.cage && m.page == p && m.running)))

/-- POOL_SET past its checks (R251, R261). -/
def bodyPool (n : Nat) (s : State) : State :=
  let c := s.ctx n
  if (cagePages s c.cage).any (fun e => e.2.slot.isSome) then endCmd n 0x33 9 0 s
  else
    let k := fld c.desc 24 4
    endOk n 0 (s.modCage c.cage fun g =>
      { g with poolBase := if k = 0 then 0 else BitVec.ofNat 64 (opA c.desc), poolSlots := k, poolFaulted := false })

/-! ### Cage quotas (R229 to R235) -/

/-- CAGE_CREATE past its checks (R229, R235, R193). -/
def bodyCreate (n : Nat) (s : State) : State :=
  let d := (s.ctx n).desc
  let t := byteAt d 16
  match (s.cage t).st with
  | .absent => endCmd n 0x33 4 0 s
  | .active => endCmd n 0x33 3 0 s
  | .ending => endCmd n 0x33 3 0 s
  | .dormant =>
    let s := s.modCage t fun g => quotasOf d { g with st := .active, weight := 16, ctxLimit := 64 }
    endOk n 0 (s.modRings fun r => { r with events := r.events.filter (fun e => e.1 / 64 != t) })

/-- CAGE_QUOTA past its checks; the quotas change when its completion is written (R234, R235). -/
def bodyQuota (n : Nat) (s : State) : State :=
  match (s.cage (byteAt (s.ctx n).desc 16)).st with
  | .absent => endCmd n 0x33 4 0 s
  | .dormant => endCmd n 0x33 1 0 s
  | .ending => endCmd n 0x33 2 0 s
  | .active => endOk n 0 s

/-- POLICY: one A3 message, answered by its acknowledgement (R195). -/
def bodyPolicy (n : Nat) (s : State) : State :=
  let t := s.rings.policyTag
  let s := s.modRings fun r => { r with policyTag := t + 1, policies := r.policies ++ [(t.toNat, n)] }
  a3Up (.policy t (s.ctx n).desc) (s.modCtx n fun c => { c with ph := .held })

end Sys2Proof.Machine
end

