-- ==== Sys2Proof/Machine/Admission.lean ====
section
/-! DEFINITION. Admissions: image check, frequency, clusters, page plan, shadow residency, load, START, END, abort (R265 to R282, R349 to R353). -/

namespace Sys2Proof.Machine

/-! ### Admissions -/

/-- The admission of a context. -/
def State.adm (s : State) (n : Nat) : Option Adm := s.cages.adms.find? (fun a => a.ctx == n)

/-- Change the admission of a context. -/
def State.modAdm (s : State) (n : Nat) (f : Adm → Adm) : State :=
  s.modCages fun x => { x with adms := lmap x.adms (fun a => a.ctx == n) f }

/-- The admission that holds a beat group. -/
def admOfGroup (s : State) (g : Nat) : Option Adm := s.cages.adms.find? (fun a => a.group == g && a.ph != .queued)

/-! ### Clusters and frequency (R270 to R272) -/

/-- A cluster's Fmax in force: the fuse, or the value written in MAKER (R270, R783). -/
def clusterFmax (s : State) (c : Nat) : Nat :=
  match tget none s.beat.fmax c with
  | some f => f
  | none => tget 64 s.mgmt.fuses.fmax c

/-- The usable clusters of the die whose Fmax is at least f (R270). -/
def usableAt (s : State) (f : Nat) : List Nat :=
  (List.range 128).filter (fun c => !s.mgmt.fuses.disabled.contains c && decide (f ≤ clusterFmax s c))

/-- The eligible clusters at f: free, usable and fast enough, in the order R270 takes them. -/
def eligible (s : State) (f : Nat) : List Nat :=
  sortBy (fun a b => decide (clusterFmax s a < clusterFmax s b) || (clusterFmax s a == clusterFmax s b && decide (a ≤ b)))
    ((usableAt s f).filter (fun c => (s.clus c).group.isNone && !(s.clus c).scrubbing))

/-- The highest step from f down to 0.8 GHz at which n usable clusters qualify (R272). -/
def flexF (s : State) (n : Nat) : Nat → Option Nat
  | 0 => none
  | f + 1 => if f + 1 < 32 then none else if n ≤ (usableAt s (f + 1)).length then some (f + 1) else flexF s n f

/-- The clusters a cage's beat groups hold (R271). -/
def clustersHeld (s : State) (c : Nat) : Nat :=
  ((s.cages.adms.filter (fun a => a.cage == c && a.ph != .queued)).map (fun a => a.clusters.length)).sum

/-- The lowest-numbered free beat group (R267). -/
def freeGroup (s : State) : Option Nat := (List.range 16).find? (fun g => (s.group g).st == .free)

/-- Step 3 can be taken: a free group and enough eligible clusters within CLUSTER_LIMIT (R267, R271). -/
def grantable (s : State) (a : Adm) : Option (Nat × List Nat) :=
  match freeGroup s with
  | none => none
  | some g =>
    let e := eligible s a.f
    if a.n ≤ e.length && clustersHeld s a.cage + a.n ≤ (s.cage a.cage).clusLimit then some (g, e.take a.n) else none

/-! ### Releasing what an admission holds -/

/-- A cluster leaves its beat group and is to be zeroed (R241). -/
def releaseCluster (c : Nat) (s : State) : State := s.modClus c fun k => { k with group := none, scrubbing := true }

/-- Free a beat group; a MARGIN request is applied while it is quiescent (R32, R325). -/
def releaseGroup (g : Nat) (s : State) : State :=
  let x := s.group g
  let s := if x.margin != x.marginReq then traceAdd 6 (b2n x.marginReq) g s else s
  s.modGroup g fun x => { nForce := x.nForce, nNew := x.nNew, marginReq := x.marginReq, margin := x.marginReq }

/-- Unpin the pages of W, and end the shadow restriction on S; a program that ran sets their touch time (R245, R246, R281). -/
def unpinPages (a : Adm) (ran : Bool) (s : State) : State :=
  let s := forEach a.w (fun p s => s.modPage a.cage p fun g =>
    { g with pins := g.pins - 1, touch := if ran then s.ms else g.touch }) s
  forEach a.spill (fun p s => s.modPage a.cage p fun g => { g with spilled := false }) s

/-- Whether an admission has pinned its pages. -/
def Adm.pinned (a : Adm) : Bool := a.ph == .loading || a.ph == .running

/-- Release every resource of an admission and forget it (R241, R267). -/
def releaseAdm (a : Adm) (s : State) : State :=
  let s := if a.pinned then unpinPages a (a.ph == .running) s else s
  let s := cancelPlans a.ctx s
  let s := forEach a.clusters releaseCluster s
  let s := if a.ph == .queued then s else releaseGroup a.group (dropStreams a.group s)
  s.modCages fun x => { x with adms := x.adms.filter (fun b => b.ctx != a.ctx) }

/-- Send WITHDRAW for an admission whose OFFER has been sent and which ends before START (R40). -/
def withdraw (a : Adm) (s : State) : State :=
  if a.ph == .loading && (a.offered || a.released) then a3Up (.withdraw a.group) s else s

/-- An admission fails before START: its resources are released and the ADMIT ends (R267, R269). -/
def failAdm (n status detail result : Nat) (s : State) : State :=
  match s.adm n with
  | none => endCmd n status detail result s
  | some a => endCmd n status detail result (releaseAdm a s)

/-! ### The page plan (R278 to R282) -/

/-- A page of W that needs a frame (R278). -/
def wNeeds (g : Page) : Bool := g.st == .zero || g.st == .evicting || g.st == .evicted || g.st == .restoring

/-- The numbers of R278 and R280: need_full, deficit_full, whether shadow is considered, deficit_sh. -/
structure Deficit where
  needFull : Nat
  full : Nat
  shadow : Bool
  sh : Nat
  deriving DecidableEq, Repr

/-- Count a page plan (R278, R280). A page of S that another admission pins, a sticky one, or one a command is moving, cannot be left out of device memory,
so shadow residency is then not considered (log entry 37). -/
def countPlan (s : State) (c : Nat) (wAll spill : List Nat) (flag : Bool) : Deficit :=
  let needs := fun ps => (ps.filter (fun p => wNeeds (s.page c p))).length
  let full := needs wAll - supplyFor s c wAll
  let res := spill.filter (fun p => (s.page c p).st == .resident)
  let movable := spill.filter (fun p => (s.page c p).st == .resident || (s.page c p).st == .zero)
  let ok := decide (0 < full) && flag && (s.cage c).shadowOk && !spill.isEmpty && decide (movable.length ≤ freeSlots s c) &&
    res.all (fun p => (s.page c p).pins == 0 && !(s.page c p).sticky && !pageInUse s c p)
  { needFull := needs wAll, full := full, shadow := ok, sh := (needs wAll - needs spill) - (supplyFor s c wAll + res.length) }

/-- End an admission whose plan cannot be met (R282). -/
def failDeficit (n : Nat) (d : Deficit) (s : State) : State :=
  failAdm n 0x40 (if d.shadow then d.sh else d.full) (d.full + (if d.shadow then d.sh else 0xFFFFFFFF) * 2 ^ 32) s

/-- Evict the pages of S of a shadow plan, its ZERO pages as zeros (R281). -/
def spillPages (c plan : Nat) (ps : List Nat) (s : State) : State :=
  forEach ps (fun p s => match (s.page c p).st with
    | .resident => planEvict c p plan false s
    | .zero => planEvict c p plan true s
    | _ => s) s

/-- Make a plan with spill pages: they free frames for the pages of W that stay (R281). -/
def makeShadowPlan (n c : Nat) (need own spill : List Nat) (s : State) : Option State :=
  let id := s.cages.nextPlan
  let res := (spill.filter (fun p => (s.page c p).st == .resident)).length
  match planVictims c id own (need.length - (freeFrames s + res)) s with
  | none => none
  | some s =>
    let s := spillPages c id spill s
    let s := s.modCages fun x => { x with nextPlan := id + 1, plans := x.plans ++ [{ id := id, ctx := n, cage := c, need := need }] }
    let (rest, s) := handOut c id need s
    some (kickMoves 64 (modPlan id (fun q => { q with need := rest }) s))

/-- Step 4: the residency pages of the image, planned full or shadow, or ADMIT_DEFICIT (R267, R278 to R282). -/
def planPages (n : Nat) (s : State) : State :=
  match s.adm n with
  | none => s
  | some a =>
    let c := a.cage
    let sp := resPages a.image true
    let w := resPages a.image false
    let all := w ++ sp
    if all.any (fun p => !pageMapped s c p) then failAdm n 0x41 5 0 s
    else
      let d := countPlan s c all sp (bit (byteAt (s.ctx n).desc 30) 1)
      if d.full = 0 then
        let s := s.modAdm n fun a => { a with w := all, spill := [], shadow := false }
        let s := s.modCtx n fun x => { x with pages := all, planned := true }
        match makePlan n c (all.filter (fun p => pageNeeds s c all p)) all s with
        | some s => s
        | none => failDeficit n d s
      else if d.shadow && d.sh = 0 then
        let s := s.modAdm n fun a => { a with w := w, spill := sp, shadow := true }
        let s := s.modCtx n fun x => { x with pages := w, planned := true }
        match makeShadowPlan n c (w.filter (fun p => pageNeeds s c w p)) all sp s with
        | some s => s
        | none => failDeficit n d s
      else failDeficit n d s

/-- Take a beat group and clusters for an admission, then plan its pages (R267 steps 3 and 4, R270). -/
def grantAdm (n g : Nat) (cs : List Nat) (s : State) : State :=
  let s := s.modAdm n fun a => { a with ph := .paging, group := g, clusters := cs }
  let s := match s.adm n with
    | none => s
    | some a => s.modGroup g fun x =>
        { x with st := .granted, ctx := n, cage := a.cage, f := a.f, clusters := cs, slot := 0, beat := 0,
                 beats := imgBeats a.image, gateLimit := if imgGateUs a.image = 0 then 1000000 else imgGateUs a.image }
  let s := forEach cs (fun c s => s.modClus c fun _ => { group := some g }) s
  planPages n s

/-! ### ADMIT (R265 to R275) -/

/-- LOCK values disagree in F with another granted or running group (R511). -/
def lockDisagrees (s : State) (lock f : Nat) : Bool :=
  decide (lock ≠ 0) && s.cages.adms.any (fun a => a.ph != .queued && a.lock == lock && a.f != f)

/-- ADMIT from step 1 on, with the image's bytes read (R267). -/
def admitImage (n : Nat) (img : Bytes) (s : State) : State :=
  let c := s.ctx n
  let d := c.desc
  match imageCheck img (fld d 24 4) with
  | some code => endCmd n 0x43 code 0 s
  | none =>
    if 4096 < (manBytes img).length + 8 then endCmd n 0x41 6 0 s
    else
      let want := if fld d 28 2 = 0 then 64 else fld d 28 2
      let cl := imgN img
      let res := if cl ≤ (usableAt s want).length then some want else if bit (byteAt d 30) 2 then flexF s cl want else none
      match res with
      | none => endCmd n 0x41 2 0 s
      | some f =>
        if (s.cage c.cage).clusLimit < cl then endCmd n 0x41 3 0 s
        else if lockDisagrees s (fld d 32 4) f then endCmd n 0x41 7 0 s
        else
          let a : Adm := { ctx := n, cage := c.cage, tag := c.tag, ph := .queued, n := cl, f := f, lowered := f != want,
                           lock := fld d 32 4, startEvent := byteAt d 40, image := img }
          let wait := bit (byteAt d 30) 0
          let s := s.modCtx n fun c => { c with ph := .held, pages := [], planned := false }
          let ahead := s.cages.adms.any (fun b => b.ph == .queued)
          match (if ahead then none else grantable s a) with
          | some (g, cs) => grantAdm n g cs (s.modCages fun x => { x with adms := x.adms ++ [a] })
          | none =>
            if wait then s.modCages fun x => { x with adms := x.adms ++ [a] }
            else endCmd n 0x41 1 0 s

/-- ADMIT past its checks: the image's pages are read like any command's source (R266, R376). -/
def bodyAdmit (n : Nat) (s : State) : State :=
  let d := (s.ctx n).desc
  memGate n (beginPages n (pagesOf (fld d 16 8) (fld d 24 4)) []) s

/-- The image's pages are ready: read it, and admit. -/
def admitRead (n : Nat) (s : State) : State :=
  let c := s.ctx n
  let a := fld c.desc 16 8
  let (img, e) := devRead s c.cage (lineFuel (fld c.desc 24 4)) a (fld c.desc 24 4)
  match e with
  | some l => endCmd n 0x22 (l - a) 0 s
  | none => admitImage n img s

/-- Serve the head of the admission queue if it can be granted (R274). -/
def serveQueue (s : State) : State :=
  match s.cages.adms.find? (fun a => a.ph == .queued) with
  | none => s
  | some a =>
    if lockDisagrees s a.lock a.f then failAdm a.ctx 0x41 7 0 s
    else match grantable s a with
      | some (g, cs) => grantAdm a.ctx g cs s
      | none => s

/-- Steps 4 and 5: every page of W is resident; pin, grant scratchpad, start the load and send OFFER (R267, R273, R276). -/
def residencyComplete (n : Nat) (s : State) : State :=
  match s.adm n with
  | none => s
  | some a =>
    if a.ph != .paging then s
    else if (a.w ++ a.spill).any (fun p => !pageMapped s a.cage p || (s.page a.cage p).claimed) then failAdm n 0x41 5 0 s
    else if !(a.w.all (fun p => (s.page a.cage p).st == .resident && !(s.page a.cage p).zeroing)) ||
      !(a.spill.all (fun p => (s.page a.cage p).st == .evicted)) then s
    else
      let s := forEach a.w (fun p s => s.modPage a.cage p fun g => { g with pins := g.pins + 1 }) s
      let s := forEach a.spill (fun p s => s.modPage a.cage p fun g => { g with spilled := true }) s
      let s := a.clusters.zipIdx.foldl (fun s e => s.modClus e.1 fun k =>
        { k with spBytes := (clusEntry a.image e.2).sp, loadAt := (clusEntry a.image e.2).loadAt }) s
      let s := s.modCtx n fun x => { x with pages := [], planned := false }
      let s := s.modAdm n fun a => { a with ph := .loading, offered := true }
      a3Up (.offer a.group a.cage a.f a.lock (manBytes a.image)) s

/-! ### START and END (R267 step 6, R269, R349, R350) -/

/-- START: the group's first slot is the next one; the record, the message and the event counter (R269, R325, R347, R350, Table CAGE-6). -/
def startProgram (n : Nat) (s : State) : State :=
  match s.adm n with
  | none => s
  | some a =>
    if !(a.ph == .loading && a.loaded && a.released) then s
    else
      let s := s.modAdm n fun a => { a with ph := .running, startAt := s.now }
      let s := s.modGroup a.group fun x => { x with st := .running, slot := 0, beat := 0 }
      let s := sampleGates a.group (fun i => (s.clus i).arrs) s
      let s := traceAdd 1 0 a.group (a3Up (.start a.group s.ao.rowTime) s)
      let s := reportCtl 0x0601 [(20, 1, a.group), (21, 1, a.n), (22, 1, a.f), (23, 1, b2n a.shadow + 2 * b2n a.lowered),
        (24, 8, a.tag.toNat)] a.cage s
      if bit a.startEvent 7 then s.setEvent a.cage (a.startEvent % 64) (s.event a.cage (a.startEvent % 64) + 1) else s

/-- PROGRAM_LOAD_COMPLETE: each cluster holds its stream, zeros elsewhere, and bundle 0 is fetched (R349). -/
def loadComplete (n : Nat) (s : State) : State :=
  match s.adm n with
  | none => s
  | some a =>
    if a.ph != .loading || a.loaded then s
    else
      let s := a.clusters.zipIdx.foldl (fun s e =>
        let en := clusEntry a.image e.2
        let bs := (a.image.drop en.stream).take en.bytes
        s.modClus e.1 fun k => { k with sp := mwrN [] en.loadAt bs, fetched := bs.take 64, pc := 0 }) s
      startProgram n (s.modAdm n fun a => { a with loaded := true })

/-- RESULT of an ADMIT whose program started (R269). -/
def admResult (s : State) (a : Adm) : Nat :=
  a.group + 16 * a.n + 4096 * a.f + 2 ^ 19 * b2n a.shadow + 2 ^ 20 * b2n a.lowered + 2 ^ 32 * min ((s.now - a.startAt) / 100) 0xFFFFFFFF

/-- The status of a program's end (R353, R356, R360). -/
def endStatusOf (x : Group) : Nat × Nat :=
  if x.ended && x.shadowFail.isNone then (0, 0)
  else match x.breach, x.shadowFail with
    | some d, _ => (0x44, d)
    | none, some f => f
    | none, none => (0x31, 0)

/-- END: the message on A3, the resources released, the ADMIT ended (R37, R267 step 7, R350, R351). -/
def endProgram (n : Nat) (s : State) : State :=
  match s.adm n with
  | none => s
  | some a =>
    let x := s.group a.group
    let st := endStatusOf x
    let res := admResult s a
    let s := traceAdd 2 st.1 a.group (a3Up (.finish a.group x.endRow (st.1 != 0)) s)
    endCmd n st.1 st.2 res (releaseAdm a s)

/-- The group's program has done its END beat and every transfer has counted (R350). -/
def programDone (g : Nat) (s : State) : State :=
  let x := s.group g
  if x.st == .stopped && x.ended && x.shadowFail.isNone && !s.beat.streams.any (fun t => t.group == g) then endProgram x.ctx s else s

/-- A stopped group's transfers have drained, or 100 µs have passed (R351). -/
def drainDone (g : Nat) (s : State) : State :=
  let x := s.group g
  if x.st == .stopped && (!x.ended || x.shadowFail.isSome) then endProgram x.ctx (dropStreams g s) else s

/-! ### Abort (R351, R352) -/

/-- End one admission by an abort order; answers whether it counts (R352). -/
def abortAdm (by_ : Nat) (a : Adm) (s : State) : State × Bool :=
  if a.ph == .running then
    let x := s.group a.group
    if x.st == .running && !x.abort then
      (let s := s.modGroup a.group fun x => { x with abort := true }
       s.modCtx by_ fun c => { c with after := c.after ++ [a.ctx] }, true)
    else (s, false)
  else (failAdm a.ctx 0x31 0 0 (withdraw a (s.modCtx by_ fun c => { c with after := c.after ++ [a.ctx] })), true)

/-- Abort a list of admissions, counting. -/
def abortAll (by_ : Nat) : List Adm → State → State × Nat
  | [], s => (s, 0)
  | a :: r, s =>
    let (s, k) := abortAdm by_ a s
    let (s, m) := abortAll by_ r s
    (s, b2n k + m)

/-- PROGRAM_ABORT past its checks (R352). -/
def bodyAbort (n : Nat) (s : State) : State :=
  let c := s.ctx n
  let mode := byteAt c.desc 16
  let cage := if mode = 2 then byteAt c.desc 17 else c.cage
  let hit := s.cages.adms.filter (fun a => a.cage == cage && (mode != 0 || a.tag.toNat == fld c.desc 24 8))
  let (s, k) := abortAll n (if mode = 0 then hit.take 1 else hit) s
  endOk n k s

/-- Drop an admission without a completion, at a reset of its function (R156, R224, R353). -/
def dropAdm (a : Adm) (s : State) : State :=
  if a.ph == .running then
    let x := s.group a.group
    let s := traceAdd 2 1 a.group (traceAdd 3 0 a.group (a3Up (.finish a.group (if x.st == .stopped then x.endRow else s.ao.rowTime) true) s))
    releaseAdm a s
  else releaseAdm a (withdraw a s)

/-! ### Evictions and restores that fail (R261, R262, R283) -/

/-- A plan's request fails for want of frames (R244, R249, R261, R282). -/
def failPlan (q : Plan) (s : State) : State :=
  let c := s.ctx q.ctx
  let short := q.need.length
  match s.adm q.ctx with
  | some _ => failAdm q.ctx 0x40 short (short + 0xFFFFFFFF * 2 ^ 32) s
  | none =>
    let s := cancelPlans q.ctx s
    if c.op = 0x12 then endCmd q.ctx 0x33 6 short (forEach c.pages (fun p s => unmapPage c.cage p s) s)
    else endCmd q.ctx 0x33 6 short s

/-- Find frames for the pages of a plan that lost victims: free frames, then the next victims, else the request fails (R261, R283). -/
def mendPlan (id : Nat) (s : State) : State :=
  match s.cages.plans.find? (fun q => q.id == id) with
  | none => s
  | some q =>
    let coming := (s.cages.moves.filter (fun m => m.plan == id && m.evict && !m.zeros)).length
    if q.need.length ≤ coming then s
    else
      let (rest, s) := handOut q.cage id (q.need.drop coming) s
      let s := modPlan id (fun x => { x with need := q.need.take coming ++ rest }) s
      if rest.isEmpty then dropPlans s
      else match planVictims q.cage id (s.ctx q.ctx).pages rest.length s with
        | some s => kickMoves 64 s
        | none => failPlan { q with need := rest } s

/-- An eviction write was refused: the page is RESIDENT again, the pool faulted, and the plan takes its next victim (R261). -/
def evictFault (c p status : Nat) (s : State) : State :=
  match moveOf s c p with
  | none => s
  | some m =>
    let g := s.page c p
    let off := g.slot.getD 0 * pageBytes + m.off
    let s := dropMove c p s
    let s := if m.zeros then s.modPage c p fun g => { g with st := .zero, slot := none }
      else (s.setFrame g.frame (.held c p)).modPage c p fun g => { g with st := .resident, slot := none }
    let s := s.modCage c fun g => { g with poolFaulted := true }
    let s := reportCtl 0x0603 [(20, 1, status), (24, 8, off)] c s
    let s := match s.cages.plans.find? (fun q => q.id == m.plan) with
      | none => s
      | some q => match s.adm q.ctx with
        | some a => if a.shadow && a.cage = c && a.spill.contains p then failPlan q s else s
        | none => s
    kickMoves 64 (mendPlan m.plan s)

/-- A restore failed: the commands and the admission that needed the page end (R262). -/
def restoreFailed (c p status : Nat) (s : State) : State :=
  let s := restoreFail c p s
  let users := ctxsWhere (fun x => x.cage == c && x.planned && x.pages.contains p && (x.ph == .prep || x.ph == .held)) s
  forEach users (fun n s => failAdm n status 0 0 (cancelPlans n s)) s

end Sys2Proof.Machine
end

