-- ==== Sys2Proof/Machine/Progress.lean ====
section
/-! DEFINITION. What moves on by itself once a step has made it possible: prepared commands, spill pages, stalled transfers. -/

namespace Sys2Proof.Machine

/-- Start the transfers of a command whose pages are ready. -/
def startMoving (n : Nat) (s : State) : State :=
  let c := s.ctx n
  let s := touchPages c.cage c.pages (s.modCtx n fun c => { c with ph := .moving })
  match c.op with
  | 1 => h2dNext n s
  | 2 => d2hRun n pieceFuel s
  | 3 => d2dRun n s
  | 4 => fillRun n s
  | 0x10 => admitRead n s
  | _ => endOk n 0 s

/-- Let a preparing command go on: plan its pages if that is still to be done, start it once they are ready. -/
def advance (n : Nat) (s : State) : State :=
  let c := s.ctx n
  if c.ph != .prep || c.pinWait || c.trainWait || c.pages.isEmpty then s
  else
    let s := if c.planned then s else prepare n s
    let c := s.ctx n
    if c.ph == .prep && c.planned && !c.pinWait && c.pages.all (pageReady s c.cage c.wrPages) then startMoving n s else s

/-- A page of the spill set of an admission still in step 4 that has become resident is evicted after all (R281). -/
def spillLate (s : State) : State :=
  s.cages.adms.foldl (fun s a =>
    if a.ph == .paging && a.shadow then
      let ps := a.spill.filter (fun p => (s.page a.cage p).st == .resident && !pageMoving s a.cage p)
      if ps.isEmpty then s
      else kickMoves 64 (spillPages a.cage (((s.cages.plans.find? (fun q => q.ctx == a.ctx)).map (·.id)).getD s.cages.nextPlan) ps s)
    else s) s

/-- Everything that the step before has made possible. -/
def progress (s : State) : State := spillLate (forEach (ctxsWhere (fun c => c.ph == .prep) s) advance s)

/-- A context has a request to the host outstanding. -/
def ctxPending (s : State) (n : Nat) : Bool :=
  s.host.reqs.any (fun r => match r.why with
    | .copyIn m _ => m == n
    | .copyOut m _ => m == n
    | .hostWrite m => m == n
    | _ => false)

/-- Continue a transfer that waited for Bus Master Enable (R160). -/
def resumeCtx (n : Nat) (s : State) : State :=
  let c := s.ctx n
  if c.ph != .moving || ctxPending s n then s
  else match c.op with
    | 1 => h2dNext n s
    | 2 => d2hRun n pieceFuel s
    | 7 => bodyHostWrite n s
    | _ => s

/-- A move of a page has a request to the host outstanding. -/
def movePending (s : State) (c p : Nat) : Bool :=
  s.host.reqs.any (fun r => match r.why with
    | .restore c' p' => c' == c && p' == p
    | .evict c' p' => c' == c && p' == p
    | _ => false)

/-- Continue a page's move that waited for Bus Master Enable (R160). -/
def resumeMove (m : Move) (s : State) : State :=
  if !m.running || movePending s m.cage m.page then s
  else if m.evict then evictStep m.cage m.page 513 s else restoreStep m.cage m.page s

/-- Continue everything of function `f` that waited for Bus Master Enable, in order (R160). -/
def resumeFn (f : Nat) (s : State) : State :=
  let s := forEach (ctxsWhere (fun c => c.cage == f) s) resumeCtx s
  let s := (s.cages.moves.filter (fun m => m.cage == f)).foldl (fun s m => resumeMove m s) s
  kickShadow (flushReports s)

/-- Send the messages of a function's pending vectors that may go (R142, R160). -/
def flushMsi (f : Nat) (s : State) : State :=
  ((s.fn f).vecs.filter (fun e => e.2.pending)).foldl (fun s e => sendMsi f e.1 s) s

/-! ### The slots' descriptor reads (R203, R223) -/

/-- The descriptors a bound slot may read next: first number and count (R203). -/
def fetchWindow (s : State) (i : Nat) : Nat :=
  let sl := s.slot i
  let r := s.ring sl.ring
  let avail := (r.p - r.f).toNat
  let room := 8 - sl.buf.length
  min (min avail room) (2 ^ r.taken.size - r.f.toNat % 2 ^ r.taken.size)

/-- The host address of a descriptor. -/
def descAddr (r : Ring) (n : W32) : W64 := r.taken.sq + BitVec.ofNat 64 (64 * (n.toNat % 2 ^ r.taken.size))

end Sys2Proof.Machine
end

