-- ==== Sys2Proof/Machine/HostLink.lean ====
section
/-! DEFINITION. The PCIe endpoint: doorbell lines, descriptor reads, translations, completions, configuration, interrupts (R114 to R182, R202 to R219). -/

namespace Sys2Proof.Machine

/-! ### Doorbell reading (R169 to R179, R793) -/

/-- The conditions of R169. -/
def readingCond (s : State) (f : Nat) : Bool :=
  let x := s.fn f
  x.dblEn && x.bme && (List.range 16).any (fun r => (s.ring (ringKey f r)).en)

/-- Start or stop the reading of a function's line (R170). -/
def dblCheck (f : Nat) (s : State) : State :=
  let on := readingCond s f
  s.modFn f fun x =>
    if on && !x.reading then { x with reading := true, interval := if x.hotHold then 1 else 16, quiet := 0, lnRegistered := false }
    else if !on then { x with reading := false, tagWait := none }
    else x

/-- A function uses Lightweight Notification (R175, R178). -/
def usesLn (x : Fn) : Bool := x.lnrEn && decide (1 ≤ x.lnrLimit) && x.dblLn && !x.lnFell

/-- Doorbell-line reads in flight, all functions (R793). -/
def dblTags (s : State) : Nat := (s.host.fns.map (fun e => e.2.readsOut.length)).sum

/-- Issue a doorbell-line read, once its translation and a reserved tag are there (R146, R167, R793). -/
def issueDoorbell (f : Nat) (kind : DblKind) (s : State) : State :=
  let x := s.fn f
  if !x.reading then s
  else if 64 ≤ dblTags s then s.modFn f fun x => { x with tagWait := some kind }
  else match xlate s f x.dblAddr false with
    | .miss => pushReq f x.dblAddr 64 false (.doorbell f kind) true s
    | .go _ =>
      let s := s.modHost fun h => { h with inL1 := false }
      (atcTouch f x.dblAddr s).modFn f fun x => { x with tagWait := none, readsOut := x.readsOut ++ [{ kind := kind, discard := false }] }

/-- Take a new producer index for a ring (R189). -/
def newIndex (k : Nat) (p : W32) (s : State) : State :=
  let r := s.ring k
  let n := 2 ^ r.taken.size
  let s := s.modRing k fun r => { r with p := p }
  if decide (n < (p - r.w).toNat) || decide (n < (p - r.f).toNat) then
    let back := (r.f - p).toNat
    stopRing k (if 1 ≤ back && back ≤ 2 ^ 31 - 1 then 2 else 1) s
  else s

/-- The polling interval after a read without a change (R170). -/
def quietStep (x : Fn) : Fn :=
  if x.quiet + 1 = 16 && decide (x.interval < 16) && !x.hotHold then { x with interval := 2 * x.interval, quiet := 0 }
  else { x with quiet := x.quiet + 1 }

/-- Return a function to polling at 0.5 µs after its fourth LN miss in a second (R178). -/
def lnFallback (f n : Nat) (s : State) : State :=
  let s := s.modFn f fun x => { x with lnFell := true, errLn := true, lnMiss := [], interval := 1, quiet := 0 }
  reportCtl 3 [(20, 1, n)] f s

/-- A doorbell-line read returned the line (R170, R178). -/
def dblData (f : Nat) (kind : DblKind) (bs : Bytes) (s : State) : State :=
  let x := s.fn f
  let idx := fun r => BitVec.ofNat 32 (fld bs (4 * r) 4)
  let changed := (List.range 16).filter (fun r => (s.ring (ringKey f r)).en && idx r != tget 0 x.prev r)
  let s := s.modFn f fun x =>
    let x := { x with fails := 0, prev := (List.range 16).foldl (fun t r => tput 0 t r (idx r)) x.prev, lnRegistered := usesLn x || x.lnRegistered }
    if changed.isEmpty then quietStep x else { x with interval := 1, quiet := 0 }
  let miss := kind == .backstop && !changed.isEmpty && !x.lnAnnounced
  let s := s.modFn f fun x => { x with lnAnnounced := false }
  let s := if !miss then s
    else
      let ms := s.now :: x.lnMiss.filter (fun t => s.now ≤ t + ticksPerSecond)
      let s := s.modFn f fun x => { x with lnMiss := ms }
      if 4 ≤ ms.length then lnFallback f ms.length s else s
  forEach changed (fun r s => newIndex (ringKey f r) (idx r) s) s

/-- A doorbell-line read failed (R174). -/
def dblFailed (f code : Nat) (s : State) : State :=
  let n := (s.fn f).fails + 1
  if 3 ≤ n then
    let s := s.modFn f fun x => { quietStep x with fails := 0, dblEn := false, errDbl := true }
    dblCheck f (reportCtl 2 [(20, 1, code)] f s)
  else s.modFn f fun x => { quietStep x with fails := n }

/-- The oldest doorbell-line read of a function ends; a discarded one has no effect (R138, R156). -/
def popDoorbell (f : Nat) (go : DblKind → State → State) (s : State) : State :=
  match (s.fn f).readsOut with
  | [] => s
  | d :: _ =>
    let s := s.modFn f fun x => { x with readsOut := x.readsOut.drop 1 }
    if d.discard then s else go d.kind s

/-! ### Descriptor reads (R203, R223) -/

/-- Read the next descriptors of a bound slot (R203). -/
def issueDescr (i : Nat) (s : State) : State :=
  let sl := s.slot i
  let f := sl.ring / 16
  let n := fetchWindow s i
  if sl.st != .bound || sl.rd.isSome || sl.failAt.isSome || n = 0 || !(s.ring sl.ring).en || !(s.fn f).bme || s.host.fetchStopped then s
  else
    let r := s.ring sl.ring
    match xlate s f (descAddr r r.f) false with
    | .miss =>
      if s.host.reqs.any (fun q => q.why == .descr i) then s else pushReq f (descAddr r r.f) (64 * n) false (.descr i) true s
    | .go _ =>
      let s := s.modHost fun h => { h with inL1 := false }
      (atcTouch f (descAddr r r.f) s).modSlot i fun x => { x with rd := some (r.f, n) }

/-- Cut a byte string into descriptors numbered from n. -/
def cutDescs : Nat → W32 → Bytes → List (W32 × Bytes)
  | 0, _, _ => []
  | k + 1, n, bs => (n, bs.take 64) :: cutDescs k (n + 1) (bs.drop 64)

/-- Descriptors arrive: the whole ones enter the buffer; a failed read marks the one that holds its first failed byte (R203, R223). -/
def descrArrive (i : Nat) (bs : Bytes) (failed : Bool) (s : State) : State :=
  match (s.slot i).rd with
  | none => s
  | some (first, n) =>
    let k := if failed then min (bs.length / 64) (n - 1) else n
    let s := s.modSlot i fun x =>
      { x with rd := none, buf := x.buf ++ cutDescs k first bs, failAt := if failed then some (first + BitVec.ofNat 32 k) else x.failAt }
    let s := s.modRing (s.slot i).ring fun r => { r with f := first + BitVec.ofNat 32 k }
    tryFail i s

/-! ### Reads of data (R148, R154, R262, R791) -/

/-- Forget a request. -/
def dropReq (id : Nat) (s : State) : State := s.modHost fun h => { h with reqs := h.reqs.filter (fun r => r.id != id) }

/-- A shadow access of a stream failed (R356). -/
def shadowFailed (st p status : Nat) (s : State) : State :=
  match s.beat.streams.find? (fun t => t.id == st) with
  | none => s
  | some t => s.modGroup t.group fun x =>
      { x with shadowFail := some (x.shadowFail.getD (status, (t.x + 64 * p) % pageBytes)) }

/-- The data of a restore read: full lines, which clear poison (R259, R377). -/
def restoreData (c p : Nat) (bs : Bytes) (s : State) : State :=
  match moveOf s c p with
  | none => s
  | some m =>
    let q := (s.page c p).frame * pageBytes + m.off
    let s := s.modMem fun x => { x with mem := mwrN x.mem q bs, poison := ndelRange x.poison (q / 64) (q / 64 + 64) }
    restoreStep c p (modMove c p (fun m => { m with off := m.off + 4096 }) s)

/-- A data read returned its bytes. -/
def readDone (r : HReq) (bs : Bytes) (s : State) : State :=
  match r.why with
  | .copyIn n off => h2dData n off bs s
  | .restore c p => restoreData c p bs s
  | .shadowRd st p => match s.beat.streams.find? (fun t => t.id == st) with
    | some t => landPiece t p (some bs) s
    | none => s
  | _ => s

/-- A data read failed, with a status of Table RING-6. -/
def readFailed (r : HReq) (status : Nat) (s : State) : State :=
  match r.why with
  | .copyIn n off => copyFail n off status s
  | .copyOut n off => copyFail n off status s
  | .restore c p => restoreFailed c p status s
  | .shadowRd st p => shadowFailed st p status s
  | .shadowWr st p => shadowFailed st p status s
  | _ => s

/-- A report write refused by translation: the record is lost and the report ring stops (R220). -/
def rptRefused (f : Nat) (s : State) : State :=
  let s := s.modRings fun g => { g with rptWait := dropFirst (fun e => e.1 == f) g.rptWait }
  if !(s.rpt f).en then s
  else
    let s := s.modRpt f fun q => { q with en := false }
    let moved := (s.rings.rptWait.filter (fun e => e.1 == f)).map (·.2)
    let s := s.modRings fun g => { g with rptWait := g.rptWait.filter (fun e => e.1 != f) }
    let s := if f = 0 then s.modRings fun g => { g with lost := satAdd 65535 g.lost 1 }
      else report 0 (ctlRec 4 [(20, 1, 16), (21, 1, 4)] s f) s
    moved.foldl (fun s r => report f r s) s

/-- A request whose translation has come goes out (R146). -/
def translated (r : HReq) (s : State) : State :=
  match r.why with
  | .copyIn n _ => h2dNext n s
  | .copyOut n _ => d2hRun n pieceFuel s
  | .hostWrite n => endingOr n (bodyHostWrite n) s
  | .completion n => tryComplete n (s.modCtx n fun c => { c with ph := .ending })
  | .report _ => flushReports s
  | .doorbell f k => issueDoorbell f k s
  | .descr i => issueDescr i s
  | .restore c p => restoreStep c p s
  | .evict c p => evictStep c p 513 s
  | .shadowRd st p => kickShadow (modStream st (fun t => { t with sent := t.sent.filter (fun q => q != p) }) s)
  | .shadowWr st p => kickShadow (modStream st (fun t => { t with sent := t.sent.filter (fun q => q != p) }) s)
  | .discarded => s

/-- A request whose translation is refused (R148, R174, R213, R220, R223, R261, R262, R356). -/
def xlRefused (r : HReq) (s : State) : State :=
  match r.why with
  | .hostWrite n => endingOr n (endCmd n 0x20 0 0) s
  | .completion n => cplRefused n s
  | .report f => rptRefused f s
  | .doorbell f _ => dblFailed f 0x20 s
  | .descr i => descrArrive i [] true (s.modSlot i fun x => { x with rd := some ((s.ring x.ring).f, max 1 (fetchWindow s i)) })
  | .evict c p => evictFault c p 0x20 s
  | _ => readFailed r 0x20 s

/-- A Translation Completion (R147, R148). -/
def xlComplete (id : Nat) (res : XlResult) (s : State) : State :=
  match s.host.reqs.find? (fun r => r.id == id && r.xl) with
  | none => s
  | some r =>
    let s := dropReq id s
    match res with
    | .refused => xlRefused r s
    | .granted log2 base rd wr =>
      if (if r.wr then wr else rd) then
        translated r (atcInsert { fn := r.fn, base := r.addr.toNat / 2 ^ log2 * 2 ^ log2, log2 := log2, target := base, rd := rd, wr := wr } s)
      else xlRefused r s

/-- The completion of a data read (R154, R791); a tag not outstanding is an Unexpected Completion (R152). -/
def readComplete (id : Nat) (res : ReadResult) (s : State) : State :=
  match s.host.reqs.find? (fun r => r.id == id && !r.xl && !r.wr) with
  | none => aerUncorrectable 0 .unexpectedCompletion s
  | some r => match res with
    | .data bs => if bs.length = r.len then readDone r bs (dropReq id s) else s
    | .ur => readFailed r 0x21 (dropReq id s)
    | .ca => readFailed r 0x21 (dropReq id s)
    | .poison => readFailed r 0x21 (aerUncorrectable r.fn .poisonedTlp (dropReq id s))

/-- A read fails at the device, by Completion Timeout or because the completion's TLP is discarded; the error is logged in the function that
asked (Table HOST-7). -/
def readLost (e : AerErr) (ref : ReadRef) (s : State) : State :=
  match ref with
  | .data id => match s.host.reqs.find? (fun r => r.id == id && !r.xl && !r.wr) with
    | none => s
    | some r => readFailed r 0x21 (aerUncorrectable r.fn e (dropReq id s))
  | .doorbell f =>
    if (s.fn f).readsOut.isEmpty then s
    else popDoorbell f (fun _ s => dblFailed f 0x21 s) (aerUncorrectable f e s)
  | .descr i bs => match (s.slot i).rd with
    | none => s
    | some _ => descrArrive i bs true (aerUncorrectable ((s.slot i).ring / 16) e s)

/-- A read fails by Completion Timeout (R152). -/
def readTimeout (ref : ReadRef) (s : State) : State := readLost .completionTimeout ref s

/-! ### Acknowledgements (R211, R792) -/

/-- An Ack DLLP covers the n oldest posted writes: contexts whose record it carries are freed (R211). -/
def ackTlps (n : Nat) (s : State) : State :=
  let done := s.host.tx.take n
  let s := s.modHost fun h => { h with tx := h.tx.drop n }
  done.foldl (fun s t => match t.ctx with
    | some k => if (s.ctx k).ph == .written then freeCtxOf k s else s
    | none => s) s

/-- Every write of a page's eviction has been acknowledged (R259). -/
def evictAcked (s : State) (c p : Nat) : Bool := !s.host.tx.any (fun t => t.page == some (pageKey c p))

/-! ### Interrupts (R142, R218) -/

/-- The COAL_TIME of a ring (or of the report ring, number 16) has run out (R218). -/
def coalExpired (f r : Nat) (s : State) : State :=
  if r = 16 then
    if (s.rpt f).coalRun then sendMsi f (s.rpt f).taken.vector (s.modRpt f fun q => { q with unann := 0, coalRun := false }) else s
  else
    let k := ringKey f r
    if (s.ring k).coalRun then sendMsi f (s.ring k).taken.vector (s.modRing k fun q => { q with unann := 0, coalRun := false }) else s

/-! ### Configuration (R121 to R126, R145, R157 to R163) -/

/-- The number of vectors of a function (R139). -/
def vecCount (f : Nat) : Nat := if f = 0 then 2048 else 16

/-- Drop every ATC entry of a function (R150). -/
def dropAtc (f : Nat) (s : State) : State := s.modHost fun h => { h with atc := h.atc.filter (fun e => e.fn != f) }

/-- The effect of a configuration write that has no row of its own (R114, R122, R123, R139, R143, R157, R159, R161, R175). -/
def cfgWrite (f : Nat) (op : CfgOp) (s : State) : State :=
  match op with
  | .read => s
  | .setMse on => s.modFn f fun x => { x with mse := on && !x.flr && !x.d3 }
  | .setMsixEnable on => s.modFn f fun x => { x with msixEn := on }
  | .setFunctionMask on =>
    let s := s.modFn f fun x => { x with fnMask := on }
    if on then s else flushMsi f s
  | .setLnr en lim => s.modFn f fun x => { x with lnrEn := en, lnrLimit := lim % 32 }
  | .setCompletionTimeout us => s.modFn f fun x => { x with cplTimeoutUs := clampN 50 64000000 us }
  | .setAri on => if f = 0 then s.modHost fun h => { h with ari := on } else s
  | .setNumVfs n => if f = 0 && !s.host.vfEn && n ≤ 255 then s.modHost fun h => { h with numVfs := n } else s
  | .setVfMse on => if f = 0 then s.modHost fun h => { h with vfMse := on } else s
  | .setAspmL1 on => if f = 0 then s.modHost fun h => { h with aspmL1 := on } else s
  | .setTags10 on => if f = 0 then s.modHost fun h => { h with tags10 := on } else s
  | .setEcrcCheck on => s.modFn f fun x => { x with ecrc := on }
  | .setD0 => s.modFn f fun x => { x with d3 := false }
  | .clearAer => s.modFn f fun x => { x with aerCor := [], aerUnc := [], aerHdr := [] }

/-- Record how the newest request of the host was answered (R163). -/
def reply (r : CfgReply) (s : State) : State := s.modHost fun h => { h with reply := some r }

/-- A configuration request: RRS until ready, UR for an absent VF, RRS for a VF just enabled, else carried out (R124, R125, R163). -/
def configRequest (f : Nat) (op : CfgOp) (s : State) : State :=
  if !s.host.linkUp then s
  else if !s.host.ready then reply .rrs s
  else if !(s.fn f).present then reply .ur (aerUncorrectable 0 .unsupportedRequest s)
  else if (s.fn f).rrs then reply .rrs s
  else reply .ok (cfgWrite f op s)

/-- VF Enable set: NumVFs VFs appear, or the PF refuses (R121, R123, R125, R126, R228). -/
def vfEnable (s : State) : State :=
  if !s.host.ready || s.host.vfEn then s
  else if decide (7 < s.host.numVfs) && !s.host.ari then s.modFn 0 fun x => { x with errAri := true }
  else
    let s := s.modHost fun h => { h with vfEn := true }
    forEach ((List.range s.host.numVfs).map (· + 1)) (fun v s =>
      let old := s.fn v
      (s.modFn v fun _ => { present := true, rrs := true, flr := old.flr, readsOut := old.readsOut }).modCage v fun _ => { st := .dormant }) s

/-- The VFs complete configuration requests normally once their resets are over (R125, R126). -/
def vfRrsEnd (s : State) : State :=
  if (List.range 255).any (fun i => (s.fn (i + 1)).flr) then s
  else forEach ((List.range 255).map (· + 1)) (fun v s => s.modFn v fun x => { x with rrs := false }) s

/-- Requests of a function that use an invalidated range (R149). -/
def rangeUsed (s : State) (f base log2 : Nat) : Bool :=
  let inside := fun a => decide (base ≤ a) && decide (a < base + 2 ^ log2)
  s.host.reqs.any (fun r => r.fn == f && !r.xl && inside r.addr.toNat) ||
  ((s.fn f).readsOut.any (fun d => !d.discard) && inside (s.fn f).dblAddr.toNat) ||
  (List.range 32).any (fun i => match (s.slot i).rd with
    | some (n, _) => (s.slot i).ring / 16 == f && inside (descAddr (s.ring (s.slot i).ring) n).toNat
    | none => false)

/-- An Invalidate Request: the entries go, and the answer waits for the requests on the range (R149). -/
def invalidate (f base log2 : Nat) (s : State) : State :=
  s.modHost fun h => { h with
    atc := h.atc.filter (fun e => !(e.fn == f && decide (e.base < base + 2 ^ log2) && decide (base < e.base + 2 ^ e.log2)))
    invals := h.invals ++ [{ fn := f, base := base, log2 := log2 }] }

/-- The Invalidate Completion, once no request on the range is out (R149). -/
def invalidateDone (f base log2 : Nat) (s : State) : State :=
  let v : Inval := { fn := f, base := base, log2 := log2 }
  if s.host.invals.contains v && !rangeUsed s f base log2 then s.modHost fun h => { h with invals := h.invals.erase v } else s

/-- The link may enter L1 (R161). -/
def l1Allowed (s : State) : Bool :=
  s.host.linkUp && s.host.aspmL1 && !s.host.fns.any (fun e => e.2.dblEn) && s.host.reqs.isEmpty && s.host.tx.isEmpty &&
    s.host.fns.all (fun e => e.2.readsOut.isEmpty) && (List.range 32).all (fun i => (s.slot i).rd.isNone)

end Sys2Proof.Machine
end

