-- ==== Sys2Proof/Machine/Stacks.lean ====
section
/-! DEFINITION. The memory stacks: line accesses, ECC and poison, patrol, refresh, readouts, training (R362 to R388). -/

namespace Sys2Proof.Machine

/-- One stack. -/
def State.stack (s : State) (i : Nat) : Stack := tget {} s.mem.stks i

/-- Change one stack. -/
def State.modStack (s : State) (i : Nat) (f : Stack → Stack) : State :=
  s.modMem fun m => { m with stks := tput {} m.stks i (f (tget {} m.stks i)) }

/-- The stack that holds a byte of device memory (R364). -/
def stackOf (a : Nat) : Nat :=
  let f := a / pageBytes
  bits a 10 8 ^^^ bits a 13 11 ^^^ f % 8

/-- The pseudo-channel that holds a byte of device memory (R364). -/
def pseudoOf (a : Nat) : Nat :=
  let f := a / pageBytes
  bits a 18 14 ^^^ bits f 7 3

/-- The cage that owns the frame of an address. -/
def ownerOf (s : State) (a : Nat) : Option Nat :=
  match s.frame (a / pageBytes) with
  | .held c _ => some c
  | .transit c _ => some c
  | _ => none

/-- Write the poison marker into a line found uncorrectable, once, and report it (R375). -/
def markLine (a : Nat) (patrol : Bool) (s : State) : State :=
  if linePoisoned s a then s
  else
    let i := stackOf a
    let s := setLinePoison a true (s.modStack i fun k => { k with ue := satAdd 0xFFFFFFFF k.ue 1 })
    report 0 (ctlRec 0x0701 [(20, 1, i), (21, 1, pseudoOf a), (22, 1, b2n patrol), (24, 4, a / pageBytes), (28, 4, a % pageBytes / 64 * 64)]
      s ((ownerOf s a).getD 0)) s

/-- Count what a read of a line found (R374, R380). -/
def countErr (a : Nat) (e : LineErr) (s : State) : State :=
  let i := stackOf a
  match e with
  | .corrected => s.modStack i fun k => { k with ce := satAdd 0xFFFFFFFF k.ce 1, secCount := k.secCount + 1 }
  | .onDie => s.modStack i fun k => { k with odie := satAdd 0xFFFFFFFF k.odie 1, secCount := k.secCount + 1 }
  | _ => s

/-- Count one demand access of a stack (R382). -/
def countAccess (a : Nat) (s : State) : State := s.modStack (stackOf a) fun k => { k with access := satAdd 0xFFFFFFFF k.access 1 }

/-- One line access at a controller (R367, R374 to R377). -/
def lineAccess (line : Nat) (op : LineOp) (e : LineErr) (s : State) : State :=
  let a := 64 * line
  let s := countAccess a s
  match op with
  | .write d => setLinePoison a false (s.modMem fun m => { m with mem := mwrN m.mem a (d.take 64 ++ List.replicate (64 - d.length) 0) })
  | .read => if e == .uncorrectable then markLine a false s else countErr a e s
  | .modify off d =>
    if e == .uncorrectable then markLine a false s
    else
      let s := countErr a e s
      if linePoisoned s a then s else s.modMem fun m => { m with mem := mwrN m.mem (a + off % 64) (d.take (64 - off % 64)) }

/-- The n-th line of a stack in the order patrol takes them: frame by frame, block by block (R364, R365). -/
def patrolAddr (i n : Nat) : Nat :=
  let f := n / 4096
  let b := n % 4096 / 4
  f * pageBytes + b * 2048 + (i ^^^ b % 8 ^^^ f % 8) * 256 + n % 4 * 64

/-- Lines of one stack. -/
def stackLines : Nat := 2 ^ 28

/-- Patrol reads the next line of a stack (R379): a correction is counted, and its write-back changes no data; an uncorrectable line is
marked in an allocated frame, zeroed in a free one. -/
def patrolRead (i : Nat) (e : LineErr) (s : State) : State :=
  let a := patrolAddr i (s.stack i).patrol
  let s := s.modStack i fun k => { k with patrol := (k.patrol + 1) % stackLines }
  if e == .uncorrectable || linePoisoned s a then
    if (ownerOf s a).isSome then markLine a true s
    else setLinePoison a false (s.modMem fun m => { m with mem := mclear m.mem (a / 64 * 64) (a / 64 * 64 + 64) })
  else countErr a e s

/-- Change the refresh rate of a stack, with its record (R381). -/
def setRefresh (i : Nat) (twice : Bool) (code : Nat) (s : State) : State :=
  if (s.stack i).refresh2x == twice then s
  else
    let s := s.modStack i fun k => { k with refresh2x := twice }
    reportCtl 0x0703 [(20, 1, i), (21, 1, if twice then 2 else 1), (22, 2, code)] 0 s

/-- A temperature readout of a stack, in sixteenths of a degree, none where both tries failed (R381 to R383, R386). -/
def stackReadout (i : Nat) (r : Option Int) (s : State) : State :=
  match (if (s.stack i).train = 2 then none else r) with
  | none =>
    let s := s.modStack i fun k => { k with temp := none, tempInvalid := true, coolRun := 0 }
    setRefresh i true 0x8000 (reportCtl 0x0705 [(20, 1, i)] 0 s)
  | some t =>
    let s := s.modStack i fun k => { k with temp := some t, tempInvalid := false, coolRun := if t ≤ 1328 then k.coolRun + 1 else 0 }
    if 1360 < t then setRefresh i true (twos 16 t) s
    else if 51 ≤ (s.stack i).coolRun then setRefresh i false (twos 16 t) s
    else s

/-- The 1 s judgement of a stack's corrections (R380). -/
def ceRate (i : Nat) (s : State) : State :=
  let k := s.stack i
  let beyond := decide (1000 < k.secCount)
  let s := if beyond && !k.rateTold then reportCtl 0x0702 [(20, 1, i), (24, 4, k.secCount)] 0 s else s
  s.modStack i fun k => { k with secCount := 0, rateTold := beyond || (k.rateTold && decide (1000 ≤ k.secCount)) }

/-- Stack training ends; `failed` holds a bit for each stack that did not train (R385). -/
def trainingEnd (failed : Nat) (s : State) : State :=
  let s := forEach (List.range 8) (fun i s => s.modStack i fun k => { k with train := if bit failed i then 2 else 1, refresh2x := false }) s
  let off := failed % 256 != 0
  let s := s.modMem fun m => { m with trainEnded := true, offline := off }
  if off then reportCtl 0x0704 [(20, 1, failed % 256)] 0 s else s

/-- A value written to PERIOD (R379). -/
def clampPeriod (p : Nat) : Nat := if p = 0 then 0 else clampN 6 72 p

/-- The STACK.SCRUB_CTL register after a write; discarded once LOCK is set (R387, R779). -/
def scrubWrite (v : Nat) (s : State) : State :=
  if s.mem.lock then s else s.modMem fun m => { m with period := clampPeriod (v % 128), lock := bit v 7 }

end Sys2Proof.Machine
end

