-- ==== Sys2Proof/Machine/Links.lean ====
section
/-! DEFINITION. The Galbi links: training, flits, replay, virtual channels, credits, audits, reset, and the target side of VC-MEM (R389 to R432). -/

namespace Sys2Proof.Machine

/-- One link. -/
def State.link (s : State) (k : Nat) : Lk := tget {} s.links k

/-- Change one link. -/
def State.modLink (s : State) (k : Nat) (f : Lk → Lk) : State := { s with links := tput {} s.links k (f (tget {} s.links k)) }

/-- The transmit side of a VC. -/
def Lk.vtx (l : Lk) (v : Nat) : VcTx := tget {} l.tx v

/-- The receive side of a VC. -/
def Lk.vrx (l : Lk) (v : Nat) : VcRx := tget {} l.rx v

/-- Change the transmit side of a VC. -/
def Lk.modTx (l : Lk) (v : Nat) (f : VcTx → VcTx) : Lk := { l with tx := tput {} l.tx v (f (l.vtx v)) }

/-- Change the receive side of a VC. -/
def Lk.modRx (l : Lk) (v : Nat) (f : VcRx → VcRx) : Lk := { l with rx := tput {} l.rx v (f (l.vrx v)) }

/-- The grant of a VC in flits (Table LINK-5). -/
def grantOf (v : Nat) : Nat := if v = 0 then 32 else 2048

/-- The weight of a VC (R410, R431). -/
def Lk.weight (l : Lk) (v : Nat) : Nat := if v = 1 then l.wColl else if v = 2 then l.wBulk else l.wMem

/-- A difference of sequence numbers or counts, modulo 2^16. -/
def seqSub (a b : Nat) : Nat := (a + 65536 - b % 65536) % 65536

/-! ### Flits and messages (R400 to R402, R417 to R419) -/

/-- A flit's first word (Table LINK-3). -/
def flitWord (f : Bytes) : Nat := fld f 0 4
def flitKind (f : Bytes) : Nat := bits (flitWord f) 1 0
def flitVc (f : Bytes) : Nat := bits (flitWord f) 3 2
def flitSom (f : Bytes) : Bool := bit (flitWord f) 4
def flitEom (f : Bytes) : Bool := bit (flitWord f) 5
def flitSeq (f : Bytes) : Nat := bits (flitWord f) 21 6
def flitPayload (f : Bytes) : Bytes := (f.drop 4).take 56

/-- A flit is 64 bytes and its CRC is good (R400). -/
def flitGood (f : Bytes) : Bool := f.length == 64 && fld f 60 4 == crc32c (f.take 60)

/-- Close 60 bytes of a flit with its CRC (R400). -/
def sealFlit (b : Bytes) : Bytes := b ++ toLe 4 (crc32c b)

/-- A DATA flit (Table LINK-3). -/
def dataFlit (v seq : Nat) (som eom : Bool) (payload : Bytes) : Bytes :=
  sealFlit (toLe 4 (1 + 4 * v + 16 * b2n som + 32 * b2n eom + 64 * (seq % 65536)) ++ (payload ++ List.replicate 56 0).take 56)

/-- Message header fields (Table LINK-7). -/
def msgType (m : Bytes) : Nat := byteAt m 0
def msgFlits (m : Bytes) : Nat := byteAt m 1
def msgLines (m : Bytes) : Nat := byteAt m 2
def msgAckReq (m : Bytes) : Bool := bit (byteAt m 3) 0
def msgStatus (m : Bytes) : Nat := byteAt m 3 / 16
def msgTag (m : Bytes) : Nat := fld m 4 4
def msgKey (m : Bytes) : Nat := fld m 8 4
def msgOffset (m : Bytes) : Nat := fld m 12 4

/-- FLITS of a message that carries L lines (R420, R478). -/
def flitsFor (l : Nat) : Nat := (16 + 64 * l + 55) / 56

/-- A message: header, then its data. -/
def mkMsg (ty lines flags tag key off : Nat) (data : Bytes) : Bytes :=
  [BitVec.ofNat 8 ty, BitVec.ofNat 8 (flitsFor lines), BitVec.ofNat 8 lines, BitVec.ofNat 8 flags] ++
    toLe 4 tag ++ toLe 4 key ++ toLe 4 off ++ data

/-- A message of one flit whose body of up to 40 bytes follows the header. -/
def mkShort (ty flags tag key off : Nat) (body : Bytes) : Bytes :=
  [BitVec.ofNat 8 ty, 1, 0, BitVec.ofNat 8 flags] ++ toLe 4 tag ++ toLe 4 key ++ toLe 4 off ++ body

/-- The payloads a message travels in. -/
def payloads : Nat → Bytes → List Bytes
  | 0, _ => []
  | n + 1, m => m.take 56 :: payloads n (m.drop 56)

/-- MTYPEs allocated to a VC (Table LINK-8, R478, R513, R678). -/
def typeOnVc (v ty : Nat) : Bool :=
  if v = 0 then ty == 0x40 || ty == 0x41 || ty == 0x42 || ty == 0x50
  else if v = 3 then decide (1 ≤ ty) && decide (ty ≤ 4)
  else decide (0x10 ≤ ty) && decide (ty ≤ 0x19)

/-- The FLITS a message's type requires (R418, R420, R478). -/
def flitsOk (m : Bytes) : Bool :=
  let l := msgLines m
  let data := decide (1 ≤ l) && decide (l ≤ 16) && msgFlits m == flitsFor l
  let ty := msgType m
  if ty = 1 || ty = 0x10 || ty = 0x11 then data
  else if ty = 3 then data || (l == 0 && msgFlits m == 1 && msgStatus m != 0)
  else if ty = 2 then msgFlits m == 1 && decide (1 ≤ l) && decide (l ≤ 16)
  else msgFlits m == 1

/-- Put a message into a VC's queue (R394); VC-CTL messages wait in A5 instead. -/
def sendOn (k v : Nat) (m : Bytes) (s : State) : State := s.modLink k fun l => l.modTx v fun t => { t with queue := t.queue ++ [m] }

/-! ### Reports and states -/

/-- Report a record of the links on the PF ring (R432). -/
def linkRec (kind : Nat) (body : List Fld) (s : State) : State := reportCtl kind body 0 s

/-- Forget the link-layer state: SEQ restarts and credits are granted afresh at UP (R403, R429); queued messages stay. -/
def Lk.restart (l : Lk) : Lk :=
  { l with
    hello := false, pings := [], helloOwed := false, nextSeq := 0, replay := [], resend := [], sameStart := 0,
    tx := (List.range 4).foldl (fun t v => tput {} t v { queue := (l.vtx v).queue }) [],
    drrVc := 1, drrOpen := false, tokens := 0, slots := 0, nakPending := false, auditDue := false, newReport := false,
    dataSince := 0, slotsSince := 0, lastAcc := 65535, anyAcc := false, nakSent := false, rx := [], audit := none,
    memReqs := [], resps := [], fault := none }

/-- Begin full training (R395). -/
def train (k : Nat) (s : State) : State := s.modLink k fun l => { l.restart with st := .training }

/-- A training has failed (R396, R397): the record at the first failure of a series or when the reason changes; after three in a row the
next try waits for the 1 s timer, else it begins at once. -/
def trainFail (k reason lanes : Nat) (s : State) : State :=
  let l := s.link k
  let tell := l.lastReason != reason
  let s := s.modLink k fun l => { l.restart with st := .down, fails := l.fails + 1, lastReason := reason }
  let s := if tell then linkRec 0x0721 [(20, 1, k), (21, 1, reason), (22, 1, lanes)] s else s
  if (s.link k).fails < 3 then train k s else s

/-- Messages of a VC with at least one flit sent and not all known accepted (R429). -/
def lostOn (l : Lk) (v : Nat) : Nat :=
  let fs := l.replay.filter (fun f => flitVc f == v)
  let heads := (fs.filter flitSom).length
  let cut := match fs with | f :: _ => b2n (!flitSom f) | [] => b2n (!(l.vtx v).rest.isEmpty)
  heads + cut

/-- A link reset (R427, R429): reason 4 leads to DOWN, 5 to DISABLED, the others to full training. -/
def linkReset (k reason vc : Nat) (s : State) : State :=
  let l := s.link k
  let s := linkRec 0x0722 ([(20, 1, k), (21, 1, reason), (22, 1, vc)] ++ (List.range 4).map (fun v => (24 + 2 * v, 2, lostOn l v))) s
  let s := s.modLink k fun l => { l.restart with st := if reason = 5 then .disabled else if reason = 4 then .down else .training, fails := 0, lastReason := 0 }
  if reason = 4 then linkRec 0x0721 [(20, 1, k), (21, 1, 6)] (s.modLink k fun l => { l with lastReason := 6 })
  else if reason = 5 then linkRec 0x0721 [(20, 1, k), (21, 1, 7)] s else s

/-- Call for a link reset at the end of the command in work. -/
def Lk.fail (l : Lk) (reason vc : Nat) : Lk := { l with fault := some (l.fault.getD (reason, vc)) }

/-! ### Training (R392, R395 to R398) -/

/-- Lane start-up has ended; `failed` has a bit for each failed lane (R392). -/
def laneDone (k failed : Nat) (s : State) : State :=
  let l := s.link k
  if l.st != .training || l.hello then s
  else if failed % 256 = 0 then s.modLink k fun l => { l with hello := true, x4 := false, highHalf := false }
  else if l.allowX4 && failed % 16 = 0 then s.modLink k fun l => { l with hello := true, x4 := true, highHalf := false }
  else if l.allowX4 && failed % 256 / 16 = 0 then s.modLink k fun l => { l with hello := true, x4 := true, highHalf := true }
  else trainFail k 2 (failed % 256) s

/-- The local time in ns, modulo 2^32. -/
def localNs (s : State) : Nat := s.now * 10 % 2 ^ 32

/-- A HELLO arrives (R395, R396, R398). -/
def helloIn (k : Nat) (f : Bytes) (s : State) : State :=
  let l := s.link k
  if l.st != .training || !l.hello || !flitGood f || flitKind f != 0 || !bit (byteAt f 6) 3 then s
  else
    let s := s.modLink k fun l => { l with peerPing := fld f 36 4 }
    if !l.pings.contains (fld f 40 4) then s
    else
      let rtt := (localNs s + 2 ^ 32 - fld f 40 4) % 2 ^ 32
      if byteAt f 32 != 1 then trainFail k 3 0 s
      else if fld f 20 8 = s.mgmt.fuses.dsn then trainFail k 4 0 s
      else if 1200 < rtt then trainFail k 5 0 s
      else
        let s := s.modLink k fun l => (List.range 4).foldl (fun l v => l.modTx v fun t => { t with held := grantOf v })
          { l with st := .up, hello := false, helloOwed := true, rtt := rtt, fails := 0, lastReason := 0, peerDsn := fld f 20 8,
                   peerLink := byteAt f 28 % 16, peerRack := byteAt f 29, peerSlot := byteAt f 30, peerVariant := byteAt f 31 }
        linkRec 0x0720 [(20, 1, k), (21, 1, if l.x4 then 4 else 8), (22, 1, byteAt f 28), (23, 1, byteAt f 31), (24, 8, fld f 20 8),
          (32, 1, byteAt f 29), (33, 1, byteAt f 30), (36, 4, rtt)] s

/-! ### Transmission (R406, R408, R410, R411) -/

/-- The LCTL of a link: the cumulative counts, and a HELLO or an audit (Table LINK-4). -/
def lctlFlit (s : State) (k : Nat) (helloOn auditOn : Bool) : Bytes :=
  let l := s.link k
  let base : List Fld := [(0, 4, 0), (4, 2, l.lastAcc), (6, 1, b2n l.anyAcc + 2 * b2n l.nakPending + 4 * b2n auditOn + 8 * b2n helloOn)] ++
    (List.range 4).map (fun v => (8 + 2 * v, 2, (l.vrx v).ret))
  let more : List Fld :=
    if helloOn then [(20, 8, s.mgmt.fuses.dsn), (28, 1, k), (29, 1, s.ao.rackId), (30, 1, s.ao.slotId), (31, 1, s.mgmt.fuses.variant),
      (32, 1, 1), (36, 4, localNs s), (40, 4, l.peerPing)]
    else if auditOn then [(16, 2, seqSub l.nextSeq 1)] ++ (List.range 4).map (fun v => (20 + 2 * v, 2, (l.vtx v).sent)) ++
      (List.range 4).map (fun v => (28 + 2 * v, 2, (l.vtx v).seen)) ++ (List.range 4).map (fun v => (36 + 2 * v, 2, (l.vtx v).held))
    else []
  sealFlit (packFlds 60 (base ++ more))

/-- Send an LCTL. -/
def sendLctl (k : Nat) (helloOn : Bool) (s : State) : State :=
  let auditOn := !helloOn && (s.link k).auditDue
  let f := lctlFlit s k helloOn auditOn
  s.modLink k fun l =>
    { l with
      lastFlit := f, dataSince := 0, slotsSince := 0, nakPending := false, newReport := false,
      auditDue := if auditOn then false else l.auditDue,
      helloOwed := if helloOn then false else l.helloOwed,
      pings := if helloOn && !l.pings.contains (localNs s) then localNs s :: l.pings else l.pings }

/-- Flit slots of 0.5 µs at the link's width (R391, R408). -/
def Lk.halfMicro (l : Lk) : Nat := if l.x4 then 390 else 781

/-- An LCTL is due (R408). -/
def lctlDue (l : Lk) : Bool :=
  l.nakPending || l.auditDue || (l.newReport && decide (32 ≤ l.dataSince)) || decide (l.halfMicro ≤ l.slotsSince + 1)

/-- A DATA flit has gone. -/
def countData (f : Bytes) (l : Lk) : Lk := { l with lastFlit := f, dataSince := l.dataSince + 1, slotsSince := l.slotsSince + 1 }

/-- Send the next new flit of a VC, taking one credit (R411, R413). -/
def sendNew (k v : Nat) (s : State) : State :=
  let l := s.link k
  let t := l.vtx v
  let go := fun (som : Bool) (p : Bytes) (rest : List Bytes) (s : State) =>
    let f := dataFlit v l.nextSeq som rest.isEmpty p
    s.modLink k fun l => countData f { (l.modTx v fun t => { t with rest := rest, held := t.held - 1, sent := (t.sent + 1) % 65536 }) with
      nextSeq := (l.nextSeq + 1) % 65536, replay := l.replay ++ [f] }
  match t.rest with
  | p :: rest => go false p rest s
  | [] =>
    if v = 0 then
      match s.adit.a5out.find? (fun e => e.1 == k) with
      | none => s
      | some e => go true e.2 [] (s.modAdit fun a => { a with a5out := dropFirst (fun x => x.1 == k) a.a5out })
    else match t.queue with
      | [] => s
      | m :: r => match payloads (msgFlits m) m with
        | [] => s
        | p :: rest => go true p rest (s.modLink k fun l => l.modTx v fun t => { t with queue := r })

/-- A VC has a flit and a credit; a message starts only with credits for all its flits (R410, R411). -/
def vcCan (s : State) (k v : Nat) : Bool :=
  let t := (s.link k).vtx v
  if v = 0 then s.adit.a5out.any (fun e => e.1 == k) && decide (1 ≤ t.held)
  else if !t.rest.isEmpty then decide (1 ≤ t.held)
  else match t.queue with
    | [] => false
    | m :: _ => decide (msgFlits m ≤ t.held)

/-- The deficit round robin over VC 1 to 3 (R410): the VC that sends, with the link after the visits. -/
def vcDrr (can : Nat → Bool) : Nat → Lk → Option (Nat × Lk)
  | 0, _ => none
  | fuel + 1, l =>
    let v := l.drrVc
    let l := if !can v then l.modTx v fun t => { t with deficit := 0 }
      else if l.drrOpen then l else l.modTx v fun t => { t with deficit := t.deficit + l.weight v }
    if can v && decide (1 ≤ (l.vtx v).deficit) then
      some (v, { (l.modTx v fun t => { t with deficit := t.deficit - 1 }) with drrOpen := true })
    else vcDrr can fuel { l with drrVc := if v = 3 then 1 else v + 1, drrOpen := false }

/-- One flit slot of an UP link (R410); replayed flits go before new ones (R406). -/
def upSlot (k : Nat) (s : State) : State :=
  let l := s.link k
  if l.helloOwed then sendLctl k true s
  else if lctlDue l then sendLctl k false s
  else match l.resend with
    | f :: r => s.modLink k fun l => countData f { l with resend := r }
    | [] =>
      if 4096 ≤ l.replay.length then sendLctl k false s
      else if vcCan s k 0 && decide (1 ≤ l.tokens) then sendNew k 0 (s.modLink k fun l => { l with tokens := l.tokens - 1 })
      else match vcDrr (vcCan s k) 4 l with
        | some (v, l') => sendNew k v (s.modLink k fun _ => l')
        | none => sendLctl k false (s.modLink k fun l => { l with drrOpen := false, tx := l.tx.map (fun e => (e.1, { e.2 with deficit := 0 })) })

/-- One token every 50 flit slots, 64 at most (R410). -/
def slotTokens (l : Lk) : Lk :=
  if l.slots + 1 = 50 then { l with slots := 0, tokens := min 64 (l.tokens + 1) } else { l with slots := l.slots + 1 }

/-- One flit slot (R394, R395, R410): HELLOs during initialisation, nothing while not UP. -/
def flitSlot (k : Nat) (s : State) : State :=
  let l := s.link k
  if l.st == .training && l.hello then sendLctl k true s
  else if l.st == .up then (upSlot k s).modLink k slotTokens
  else s

/-! ### Replay (R406, R407) -/

/-- Replay everything not acknowledged, in the original order; the eighth from one SEQ resets the link (R407). -/
def startReplay (l : Lk) : Lk :=
  if l.replay.isEmpty then l
  else if 8 ≤ l.sameStart + 1 then ({ l with sameStart := l.sameStart + 1, replays := l.replays + 1 }).fail 2 0
  else { l with resend := l.replay, sameStart := l.sameStart + 1, replays := l.replays + 1 }

/-- An ACK_SEQ or NAK names a SEQ (R407): it must have been sent and lie at most 4,096 behind the newest. -/
def ackValid (l : Lk) (q : Nat) : Bool := decide (seqSub (seqSub l.nextSeq 1) q ≤ 4096)

/-- Drop what an ACK_SEQ covers from the replay buffer (R403). -/
def takeAck (q : Nat) (l : Lk) : Lk :=
  let n := ((l.replay.takeWhile (fun f => flitSeq f != q)).length)
  if l.replay.any (fun f => flitSeq f == q) then
    let rest := l.replay.drop (n + 1)
    { l with replay := rest, sameStart := 0, resend := l.resend.filter (fun f => rest.contains f) }
  else l

/-- An LCTL's acknowledgement, NAK and returned credits (R402, R406, R407, R413). -/
def takeLctl (f : Bytes) (l : Lk) : Lk :=
  let fl := byteAt f 6
  let q := fld f 4 2
  let l := (List.range 4).foldl (fun l v => l.modTx v fun t =>
    let r := fld f (8 + 2 * v) 2
    { t with held := t.held + seqSub r t.seen, seen := r }) l
  if bit fl 0 && !ackValid l q then l.fail 2 0
  else
    let l := if bit fl 0 then takeAck q l else l
    if bit fl 1 then startReplay l else l

/-! ### Credits and audits (R413 to R416) -/

/-- RET as it stood at a time in tenths of µs (R416). -/
def retAt (now : Nat) : List (Nat × Nat) → Nat → Nat
  | [], v => v
  | (t, r) :: rest, v => if t ≤ now then r else retAt now rest v

/-- Keep the RET samples of the last 4 µs and one before them. -/
def keepSamples (now : Nat) : List (Nat × Nat) → List (Nat × Nat)
  | [] => []
  | (t, r) :: rest => if t + 40 < now then [(t, r)] else (t, r) :: keepSamples now rest

/-- Free n flits of a VC and return their credits (R413). -/
def freeFlits (k v n : Nat) (s : State) : State :=
  s.modLink k fun l => { (l.modRx v fun r =>
    { r with buf := r.buf - n, ret := (r.ret + n) % 65536, samples := keepSamples (s.now / 10) ((s.now / 10, (r.ret + n) % 65536) :: r.samples) }) with
    newReport := true }

/-- The VC of the first failed check of Table LINK-6, if any. -/
def auditFault (l : Lk) (a : Audit) : Option Nat :=
  (List.range 4).find? (fun v =>
    let r := l.vrx v
    let sent := a.sent.getD v 0
    let seen := a.seen.getD v 0
    !(r.acc == sent && a.held.getD v 0 + seqSub sent seen == grantOf v &&
      decide (seqSub seen (a.low.getD v 0) ≤ seqSub (a.high.getD v 0) (a.low.getD v 0)) && (r.ret + r.buf) % 65536 == r.acc))

/-- AT_SEQ has been accepted. -/
def atAccepted (l : Lk) (q : Nat) : Bool := decide (seqSub l.lastAcc q < 32768)

/-- Check the audit held once AT_SEQ has been accepted (R415, R416). -/
def auditCheck (l : Lk) : Lk :=
  match l.audit with
  | none => l
  | some a =>
    if !atAccepted l a.atSeq then l
    else
      let l := { l with audit := none }
      match auditFault l a with
      | some v => l.fail 1 v
      | none => l

/-- An audit arrives; a newer one replaces one held (R415). -/
def takeAudit (now : Nat) (f : Bytes) (l : Lk) : Lk :=
  let four := fun o => (List.range 4).map (fun v => fld f (o + 2 * v) 2)
  let low := (List.range 4).map (fun v => retAt (now / 10 - (2 * l.rtt + 99) / 100) (l.vrx v).samples 0)
  auditCheck { l with audit := some { atSeq := fld f 16 2, sent := four 20, seen := four 28, held := four 36, low := low,
                                      high := (List.range 4).map (fun v => (l.vrx v).ret) } }

/-- An LCTL arrives (R402); a HELLO has a command of its own. -/
def lctlIn (k : Nat) (f : Bytes) (s : State) : State :=
  let l := s.link k
  if l.st != .up then s
  else if !flitGood f then s.modLink k fun l => { l with crcDiscards := l.crcDiscards + 1 }
  else if flitKind f != 0 || bit (byteAt f 6) 3 then s
  else s.modLink k fun l =>
    let l := takeLctl f l
    if bit (byteAt f 6) 2 && l.fault.isNone then takeAudit s.now f l else l

/-! ### Reception (R404, R405, R419) -/

/-- Ask for a replay, once (R404). -/
def nakOnce (l : Lk) : Lk := if l.nakSent then l else { l with nakSent := true, nakPending := true }

/-- Count a malformed message, free its flits and discard up to the next SOM (R419). -/
def dropMsg (k v n : Nat) (s : State) : State :=
  freeFlits k v n (s.modLink k fun l => { (l.modRx v fun r => { r with part := none, skip := true }) with malformed := l.malformed + 1 })

/-- Hand a complete message on: VC-CTL to the A5 gateway, which drops it when full (R47, R412, R414); the others wait for their unit. -/
def deliver (k v n : Nat) (m : Bytes) (s : State) : State :=
  let s := s.modLink k fun l => l.modRx v fun r => { r with part := none }
  if v = 0 then
    let s := s.modAdit fun a => if a.a5in.length < 64 then { a with a5in := a.a5in ++ [(k, m)] } else { a with a5Dropped := a.a5Dropped + 1 }
    freeFlits k v n s
  else s.modLink k fun l => l.modRx v fun r => { r with inbox := r.inbox ++ [m] }

/-- The message so far, with the flit just accepted, `n` flits in all. -/
def growMsg (k v n : Nat) (m : Bytes) (eom : Bool) (s : State) : State :=
  let beyond := eom != (n == msgFlits m)
  if beyond then dropMsg k v n s
  else if eom then deliver k v n m s
  else s.modLink k fun l => l.modRx v fun r => { r with part := some (n, m) }

/-- An accepted DATA flit joins its message (R419). -/
def takeFlit (k : Nat) (f : Bytes) (s : State) : State :=
  let v := flitVc f
  let s := s.modLink k fun l => l.modRx v fun r => { r with acc := (r.acc + 1) % 65536, buf := r.buf + 1 }
  let r := (s.link k).vrx v
  if flitSom f then
    let s := match r.part with
      | some (n, _) => dropMsg k v n s
      | none => s
    let s := s.modLink k fun l => l.modRx v fun r => { r with skip := false }
    let m := flitPayload f
    if !typeOnVc v (msgType m) || !flitsOk m || 32 < msgFlits m then dropMsg k v 1 s else growMsg k v 1 m (flitEom f) s
  else match r.part with
    | some (n, m) => growMsg k v (n + 1) (m ++ flitPayload f) (flitEom f) s
    | none => if r.skip then freeFlits k v 1 s else dropMsg k v 1 s

/-- A DATA flit arrives (R404): in order it is accepted, otherwise discarded. -/
def dataIn (k : Nat) (f : Bytes) (s : State) : State :=
  let l := s.link k
  if l.st != .up then s
  else if !flitGood f then s.modLink k fun l => nakOnce { l with crcDiscards := l.crcDiscards + 1 }
  else if flitKind f = 0 then s
  else if flitKind f != 1 then s.modLink k fun l => { l with malformed := l.malformed + 1 }
  else
    let ahead := seqSub (flitSeq f) ((l.lastAcc + 1) % 65536)
    if ahead = 0 then
      let s := s.modLink k fun l => { l with lastAcc := flitSeq f, anyAcc := true, nakSent := false, newReport := true }
      (takeFlit k f s).modLink k auditCheck
    else if ahead < 32768 then s.modLink k nakOnce
    else s

/-- An uncorrectable codeword pair: its 20 flits are discarded, and a NAK goes out (R404, R405). -/
def pairLost (k : Nat) (s : State) : State :=
  if (s.link k).st != .up then s else s.modLink k fun l => nakOnce { l with badPairs := l.badPairs + 1 }

/-- A fast retrain completes: the transmitter replays from the last ACK_SEQ (R428). -/
def retrainDone (k : Nat) (s : State) : State :=
  if (s.link k).st != .retrain then s else s.modLink k fun l => startReplay { l with st := .up }

/-! ### Messages waiting for their unit -/

/-- The message at the head of a VC's inbox. -/
def inboxHead (s : State) (k v : Nat) : Option Bytes := ((s.link k).vrx v).inbox.head?

/-- Take the head of a VC's inbox and free its flits (R413). -/
def popInbox (k v : Nat) (s : State) : State :=
  match inboxHead s k v with
  | none => s
  | some m => freeFlits k v (msgFlits m) (s.modLink k fun l => l.modRx v fun r => { r with inbox := r.inbox.drop 1 })

/-- Act on the head of a VC's inbox if it is of the type expected. -/
def withMsg (k v ty : Nat) (act : Bytes → State → State) (s : State) : State :=
  match inboxHead s k v with
  | none => s
  | some m => if msgType m = ty then act m (popInbox k v s) else s

/-! ### VC-MEM at the target (R420 to R424) -/

/-- The cage and device extent of a region key (R448). -/
def keyExtent (s : State) (key : Nat) : Option (Nat × Nat × Nat) :=
  match tget none s.coll.keys key with
  | none => none
  | some (h, i) => match tget none s.coll.groups h with
    | none => none
    | some g => (g.bufs.find? (fun e => e.1 == i)).map (fun e => (g.cage, e.2.base, e.2.len))

/-- The status of a request: key first, then range (R422). -/
def memStatus (s : State) (m : Bytes) : Nat :=
  match keyExtent s (msgKey m) with
  | none => 1
  | some (_, _, len) => if len < 64 * msgOffset m + 64 * msgLines m then 2 else 0

/-- Responses a target holds for a link: those in work and those waiting to be sent (R424). -/
def respUsed (l : Lk) : Nat := l.resps.length + ((l.vtx 3).queue.filter (fun m => msgType m == 3 || msgType m == 4)).length

/-- A MACK. -/
def mackMsg (m : Bytes) (status : Nat) : Bytes := mkShort 4 (16 * status) (msgTag m) 0 0 []

/-- MWRITE at the target (R422): a write that passes is written in 64 B lines. -/
def mwriteIn (k : Nat) (m : Bytes) (s : State) : State :=
  let drop := s.modLink k fun l => { l with memDrops := l.memDrops + 1 }
  if msgAckReq m && decide (64 ≤ respUsed (s.link k)) then drop
  else
    let st := memStatus s m
    if st != 0 then (if msgAckReq m then sendOn k 3 (mackMsg m st) s else drop)
    else match keyExtent s (msgKey m) with
      | none => s
      | some (c, base, _) =>
        let a := base + 64 * msgOffset m
        let n := 64 * msgLines m
        let (s, _) := devWrite c a (a + n) (lineFuel n) a ((m.drop 16).take n) s
        if msgAckReq m then s.modLink k fun l => { l with resps := l.resps ++ [{ read := false, msg := mackMsg m 0 }] } else s

/-- The lines of a device range, with the poison mask; the data of a poisoned line is open. -/
def readLines (c a : Nat) : Nat → State → Bytes × List Bool × State
  | 0, s => ([], [], s)
  | n + 1, s =>
    let (bs, psn, s) := match physOf s c a with
      | none => (List.replicate 64 (0 : Byte), false, s)
      | some q =>
        if linePoisoned s q then
          let (fb, s) := drawBytes 64 s
          (fb, true, s)
        else (mrdN s.mem.mem q 64, false, s)
    let (r, ps, s) := readLines c (a + 64) n s
    (bs ++ r, psn :: ps, s)

/-- A poison mask as a number, line 0 in bit 0. -/
def maskNum : List Bool → Nat
  | [] => 0
  | b :: r => b2n b + 2 * maskNum r

/-- MREAD at the target: it takes effect now, in order with the MWRITEs; its response goes out when the lines have been read (R422, R423). -/
def mreadIn (k : Nat) (m : Bytes) (s : State) : State :=
  if 64 ≤ respUsed (s.link k) then s.modLink k fun l => { l with memDrops := l.memDrops + 1 }
  else
    let st := memStatus s m
    if st != 0 then sendOn k 3 (mkShort 3 (16 * st) (msgTag m) 0 0 []) s
    else match keyExtent s (msgKey m) with
      | none => s
      | some (c, base, _) =>
        let (bs, ps, s) := readLines c (base + 64 * msgOffset m) (msgLines m) s
        let r := mkMsg 3 (msgLines m) (if ps.any id then 48 else 0) (msgTag m) 0 (maskNum ps) bs
        s.modLink k fun l => { l with resps := l.resps ++ [{ read := true, msg := r }] }

/-- The oldest response of a kind is ready: it goes to the transmit queue (R420, R422). -/
def respReady (k : Nat) (rd : Bool) (s : State) : State :=
  match (s.link k).resps.find? (fun r => r.read == rd) with
  | none => s
  | some r => sendOn k 3 r.msg (s.modLink k fun l => { l with resps := dropFirst (fun x => x.read == rd) l.resps })

/-! ### The second's record (R432) -/

/-- LINK_ERR_RATE of a link with any count in the second; `corrected` symbols were corrected. -/
def linkErrRate (k corrected : Nat) (s : State) : State :=
  let l := s.link k
  let s := if corrected + l.badPairs + l.crcDiscards + l.replays + l.malformed + l.memDrops = 0 then s
    else linkRec 0x0723 [(20, 1, k), (24, 4, corrected), (28, 4, l.badPairs), (32, 4, l.crcDiscards), (36, 4, l.replays),
      (40, 4, l.malformed), (44, 4, l.memDrops)] s
  s.modLink k fun l => { l with badPairs := 0, crcDiscards := 0, replays := 0, malformed := 0, memDrops := 0 }

end Sys2Proof.Machine
end

