-- ==== Sys2Proof/Machine/Coll.lean ====
section
/-! DEFINITION. The collective engine: groups, keys, operations, chunks, reductions, failures (R433 to R484). -/

namespace Sys2Proof.Machine

/-! ### Operands (Table COLL-1, R437 to R442) -/

/-- COLL_GROUP_CREATE (Table COLL-1, R438). -/
def collSucc (d : Bytes) (j : Nat) : Nat := byteAt d (32 + 2 * j)
def collPred (d : Bytes) (j : Nat) : Nat := byteAt d (33 + 2 * j)

/-- The out-of-range operand of a COLL_GROUP_CREATE with the lowest offset (R438, R794). -/
def badCollCreate (d : Bytes) : Option Nat :=
  let p := fld d 24 2
  let js := List.range (min (byteAt d 28) 4)
  firstBad ([(decide (fld d 16 8 = 0), 16), (decide (p < 2) || decide (1024 < p) || decide (p ≤ fld d 26 2), 24),
    (decide (2 < p) && js.any (fun j => collSucc d j == collPred d j), 24),
    (decide (byteAt d 28 < 1) || decide (4 < byteAt d 28), 28), (decide (byteAt d 29 < 12) || decide (20 < byteAt d 29), 29)] ++
    (js.map (fun j => [(decide (15 < collSucc d j) || js.any (fun k => decide (j < k) && collSucc d j == collSucc d k), 32 + 2 * j),
      (decide (15 < collPred d j), 33 + 2 * j)])).flatten)

/-- Groups a cage holds (R434). -/
def groupsOf (s : State) (c : Nat) : Nat :=
  (s.coll.groups.filter (fun e => match e.2 with | some g => g.cage == c | none => false)).length

/-- The descriptor of COLL_GROUP_CREATE. -/
def specCollCreate : OpSpec :=
  { masks := allBits 16 14 ++ [(30, 1)] ++ allBits 32 12,
    narrow := fun d => ((List.range 4).filter (fun j => byteAt d 28 ≤ j)).flatMap (fun j => [32 + 2 * j, 33 + 2 * j]),
    bad := fun _ d => badCollCreate d,
    quota := fun s c _ => if (s.cage c).collLimit ≤ groupsOf s c then some 6 else if 64 ≤ s.coll.groups.length then some 7 else none }

/-- One group. -/
def State.grp (s : State) (h : Nat) : Option CollGroup := tget none s.coll.groups h

/-- Change one group. -/
def State.modGrp (s : State) (h : Nat) (f : CollGroup → CollGroup) : State :=
  s.modColl fun x => { x with groups := tput none x.groups h ((tget none x.groups h).map f) }

/-- The handle belongs to another cage (R439). -/
def foreign (s : State) (c : Nat) (d : Bytes) : Bool :=
  match s.grp (byteAt d 16) with
  | some g => g.cage != c
  | none => false

/-- The descriptor of COLL_GROUP_DESTROY. -/
def specCollDestroy : OpSpec :=
  { masks := [(16, 255)], bad := fun _ d => firstBad [(decide (63 < byteAt d 16), 16)], denyNow := foreign }

/-- The buffer registered under an INDEX. -/
def CollGroup.buf (g : CollGroup) (i : Nat) : Option CollBuf := (g.bufs.find? (fun e => e.1 == i)).map (·.2)

/-- REMOVE with an ADDR or LENGTH that differs from the registration (R450). -/
def badRemove (s : State) (d : Bytes) : Option Nat :=
  if !bit (byteAt d 18) 0 then none
  else match (s.grp (byteAt d 16)).bind (fun g => g.buf (byteAt d 17)) with
    | none => none
    | some b => firstBad [(decide (opLen d ≠ b.len), 4), (decide (opB d ≠ b.base), 24)]

/-- The descriptor of COLL_BUF_REGISTER. -/
def specCollReg : OpSpec :=
  { len := true, masks := [(16, 255), (17, 255), (18, 1)] ++ allBits 24 8,
    bad := fun _ d => firstBad [(decide (63 < byteAt d 16), 16), (decide (15 < byteAt d 17), 17), (decide (opB d % 64 ≠ 0), 24)],
    badNow := fun s _ d => badRemove s d, denyNow := foreign, ranges := fun d => [(opB d, opLen d)] }

/-- Bytes of an element (Table COLL-1). -/
def dtypeSize (t : Nat) : Nat := if t = 0 || t = 3 then 4 else if t = 4 then 1 else 2

/-- Operands of REDUCE_SCATTER and ALL_GATHER. -/
def opAcc32 (d : Bytes) : Bool := bit (byteAt d 20) 0
def opBind (d : Bytes) : Bool := bit (byteAt d 20) 2
def opBlock (d : Bytes) : Nat := fld d 28 4 * dtypeSize (byteAt d 18)

/-- The operand out of range with the lowest offset (R438, R794). -/
def badCollOp (rs : Bool) (d : Bytes) : Option Nat :=
  let t := byteAt d 18
  firstBad [(decide (63 < byteAt d 16), 16), (decide (15 < byteAt d 17), 17), (decide (4 < t) || (rs && decide (t = 4)), 18),
    (opAcc32 d && decide (t ≠ 1) && decide (t ≠ 2), 18), (decide (opBlock d % 64 ≠ 0), 18), (rs && decide (2 < byteAt d 19), 19),
    (opAcc32 d && !rs, 20), (decide (byteAt d 21 ≠ 0) && (decide (byteAt d 21 < 12) || decide (20 < byteAt d 21)), 21),
    (decide (fld d 24 4 % 64 ≠ 0), 24), (opBind d && decide (127 < byteAt d 41), 41), (opBind d && decide (127 < byteAt d 43), 43)]

/-- A chunk too large for the group (Table COLL-1, R461). -/
def badChunk (s : State) (d : Bytes) : Option Nat :=
  match s.grp (byteAt d 16) with
  | none => none
  | some g => firstBad [(opAcc32 d && decide (g.chunkMax ≤ byteAt d 21), 20), (decide (g.chunkMax < byteAt d 21), 21)]

/-- The operation's blocks exceed the registered buffer: the DETAIL of LEN_OVER (R441). -/
def overBuf (s : State) (d : Bytes) : Option Nat :=
  match s.grp (byteAt d 16) with
  | none => none
  | some g => match g.buf (byteAt d 17) with
    | none => none
    | some b => if b.len < fld d 24 4 + g.p * opBlock d then some (b.len - fld d 24 4) else none

/-- The descriptors of REDUCE_SCATTER and ALL_GATHER. -/
def specCollOp (rs : Bool) : OpSpec :=
  { masks := allBits 16 4 ++ [(20, 7), (21, 255)] ++ allBits 24 16 ++ [(40, 31), (41, 255), (42, 31), (43, 255)] ++ allBits 44 4,
    narrow := fun d => (if rs then [] else [19]) ++ (if opBind d then [] else (List.range 16).map (· + 32)),
    bad := fun _ d => badCollOp rs d, badNow := fun s _ d => badChunk s d, denyNow := foreign, beyond := fun s _ d => overBuf s d }

/-! ### Group messages (R478) -/

/-- Both neighbours' links on strand 0. -/
def CollGroup.near (g : CollGroup) : List Nat := [g.succ.getD 0 0, g.pred.getD 0 0]

/-- A group-level message on VC-COLL (R476). -/
def groupMsg (k ty : Nat) (body : List Fld) (s : State) : State := sendOn k 1 (mkShort ty 0 0 0 0 (packFlds 40 body)) s

/-- GROUP_HELLO to the successor on strand j (R443). -/
def sendHello (g : CollGroup) (j : Nat) (s : State) : State :=
  groupMsg (g.succ.getD j 0) 0x16 [(0, 8, g.gid), (8, 2, g.p), (10, 2, g.rank), (12, 1, g.strands), (13, 1, g.chunkMax), (14, 1, b2n g.agOnly), (15, 1, j)] s

/-- GROUP_BYE to both neighbours (R482). -/
def sendBye (g : CollGroup) (s : State) : State := forEach g.near (fun k s => groupMsg k 0x19 [(0, 8, g.gid)] s) s

/-- KEY_OFFER to both neighbours on strand 0 (R448, R450). -/
def offerKey (g : CollGroup) (i key : Nat) (s : State) : State :=
  forEach g.near (fun k s => groupMsg k 0x18 [(0, 8, g.gid), (8, 1, i), (12, 4, key)] s) s

/-- The neighbour's key for an INDEX. -/
def CollGroup.keyTo (g : CollGroup) (toSucc : Bool) (i : Nat) : Nat := tget 0 (if toSucc then g.keysSucc else g.keysPred) i

/-- An operation's message to a neighbour; those that carry no chunk travel on VC-COLL. -/
def opMsg (g : CollGroup) (o : CollOp) (k ty flags off : Nat) (toSucc : Bool) (body : List Fld) (s : State) : State :=
  sendOn k 1 (mkShort ty flags o.seq (g.keyTo toSucc o.index) off (packFlds 40 body)) s

/-- Count a message discarded (R444, R479). -/
def collDiscard (s : State) : State := s.modColl fun x => { x with discarded := x.discarded + 1 }

/-- The group that holds a GID (R433). -/
def gidOf (s : State) (gid : Nat) : Option (Nat × CollGroup) :=
  s.coll.groups.findSome? (fun e => match e.2 with | some g => if g.gid = gid then some (e.1, g) else none | none => none)

/-! ### Shape of an operation (R453, R457, R459, R463) -/

/-- Wire lines per line of the buffer: two under ACC32 (R459). -/
def CollOp.wl (o : CollOp) : Nat := if o.acc32 then 2 else 1

/-- BLOCK in bytes. -/
def CollOp.block (o : CollOp) : Nat := o.count * dtypeSize o.dtype

/-- C in bytes of the element format. -/
def CollOp.chunk (o : CollOp) : Nat := 2 ^ o.logC

/-- Chunks of a block. -/
def CollOp.chunks (o : CollOp) : Nat := (o.block + o.chunk - 1) / o.chunk

/-- Chunks of a block on strand j of S. -/
def CollOp.perStrand (o : CollOp) (strands j : Nat) : Nat := (o.chunks + strands - 1 - j) / strands

/-- Bytes of chunk i in the element format. -/
def CollOp.chunkLen (o : CollOp) (i : Nat) : Nat := min o.chunk (o.block - i * o.chunk)

/-- One position of the sequence of a strand: its step, its block and its chunk. -/
structure Pos where
  step : Nat
  block : Nat
  i : Nat
  deriving DecidableEq, Repr

/-- The q-th chunk a strand sends (`recv` false) or receives (R457, R463). -/
def posOf (g : CollGroup) (o : CollOp) (j q : Nat) (recv : Bool) : Pos :=
  let nj := o.perStrand g.strands j
  let s := q / nj
  let back := s + b2n recv + b2n o.rs
  { step := s, block := (g.rank + 2 * g.p - back % g.p) % g.p, i := j + g.strands * (q % nj) }

/-- Chunks a strand sends, and receives, in all. -/
def totalOf (g : CollGroup) (o : CollOp) (j : Nat) : Nat := (g.p - 1) * o.perStrand g.strands j

/-- First wire line of a chunk, from the start of block 0. -/
def firstLine (o : CollOp) (p : Pos) : Nat := (p.block * o.block + p.i * o.chunk) * o.wl / 64

/-- Wire lines of a chunk. -/
def chunkLines (o : CollOp) (p : Pos) : Nat := o.chunkLen p.i * o.wl / 64

/-- Device address of a chunk in the own buffer. -/
def chunkAddr (g : CollGroup) (o : CollOp) (p : Pos) : Nat :=
  ((g.buf o.index).map (·.base)).getD 0 + o.offset + p.block * o.block + p.i * o.chunk

/-- The VC of an operation's data (R476). -/
def CollOp.vc (o : CollOp) : Nat := if o.bulk then 2 else 1

/-- The running operation of a group (R453). -/
def CollGroup.cur (g : CollGroup) : Option CollOp := match g.ops with | o :: _ => if o.started then some o else none | [] => none

/-- Change the running operation. -/
def modOp (h : Nat) (f : CollOp → CollOp) (s : State) : State :=
  s.modGrp h fun g => { g with ops := match g.ops with | o :: r => if o.started then f o :: r else o :: r | [] => [] }

/-- One strand of the running operation. -/
def CollOp.strand (o : CollOp) (j : Nat) : Strand := tget {} o.strands j

/-- Change one strand. -/
def modStrand (h j : Nat) (f : Strand → Strand) (s : State) : State :=
  modOp h (fun o => { o with strands := tput {} o.strands j (f (o.strand j)) }) s

/-- Whether an OPSEQ is that of the current (true) or the next (false) operation (R479). -/
def seqRole (g : CollGroup) (q : Nat) : Option Bool :=
  match g.cur with
  | some o => if q = o.seq then some true else if q = (o.seq + 1) % 65536 then some false else none
  | none => if q = (match g.ops with | o :: _ => o.seq | [] => g.opSeq) then some false else none

/-! ### Element arithmetic (Table COLL-4) -/

/-- Addition in a float format: one rounding to nearest even, canonical NaN, x + (−x) = +0. -/
def addFmt (k : Fmt) (x y : Nat) : Nat :=
  match k.decode x, k.decode y with
  | .nan, _ => k.canon
  | _, .nan => k.canon
  | .inf p, .inf q => if p = q then k.infBits p else k.canon
  | .inf p, _ => k.infBits p
  | _, .inf q => k.infBits q
  | .fin p m e, .fin q m' e' =>
    if m = 0 && m' = 0 then (k.round .rne false (p && q) 0 0).1
    else
      let g := min e e'
      let (n, r) := signMag (unitsOf p m e g + unitsOf q m' e' g)
      if r = 0 then 0 else (k.round .rne false n r g).1

/-- MAX or MIN in a float format: a number wins over a NaN, +0 above −0. -/
def pickFmt (k : Fmt) (wantMin : Bool) (x y : Nat) : Nat :=
  let a := k.decode x
  let b := k.decode y
  if a.isNan && b.isNan then k.canon
  else if a.isNan then y
  else if b.isNan then x
  else
    let less := if eqFV a b then bit x (k.eb + k.mb) && !bit y (k.eb + k.mb) else ltFV a b
    if less = wantMin then x else y

/-- One element of a reduction. -/
def reduceElem (dtype op x y : Nat) : Nat :=
  if dtype = 3 then
    if op = 0 then (x + y) % 2 ^ 32
    else if decide (sext 32 x < sext 32 y) = decide (op = 2) then x else y
  else
    let k := if dtype = 0 then fmtFP32 else if dtype = 1 then fmtBF16 else fmtFP16
    if op = 0 then addFmt k x y else pickFmt k (op == 2) x y

/-- The elements of a line. -/
def elems (w : Nat) : Nat → Bytes → List Nat
  | 0, _ => []
  | n + 1, bs => le (bs.take w) :: elems w n (bs.drop w)

/-- The type of the elements on the wire: FP32 under ACC32 (R459). -/
def CollOp.wireType (o : CollOp) : Nat := if o.acc32 then 0 else o.dtype

/-- The reduction of two lines; a poisoned input makes the whole line poisoned (R468). -/
def reduceLine (o : CollOp) (a b : CLine) : CLine :=
  let w := dtypeSize o.wireType
  { bs := (List.zipWith (fun x y => toLe w (reduceElem o.wireType o.op x y)) (elems w (64 / w) a.bs) (elems w (64 / w) b.bs)).flatten,
    psn := a.psn || b.psn }

/-- Widen one element exactly to FP32 (R313). -/
def widenElem (dtype x : Nat) : Nat := (widenLane (if dtype = 1 then 2 else 3) (BitVec.ofNat 32 x)).1.toNat

/-- Narrow an FP32 result to the element format, nearest even, SAT = 0 (Table COLL-4). -/
def narrowElem (dtype x : Nat) : Nat := (narrowF (if dtype = 1 then fmtBF16 else fmtFP16) .rne false (f32 (BitVec.ofNat 32 x))).1

/-- A buffer line as wire lines. -/
def toWire (o : CollOp) (l : CLine) : List CLine :=
  if o.acc32 then
    let ws := ((elems 2 32 l.bs).map (fun x => toLe 4 (widenElem o.dtype x))).flatten
    [{ bs := ws.take 64, psn := l.psn }, { bs := ws.drop 64, psn := l.psn }]
  else [l]

/-- Result wire lines as buffer lines. -/
def fromWire (o : CollOp) : List CLine → List CLine
  | a :: b :: r =>
    if o.acc32 then
      { bs := ((elems 4 16 a.bs ++ elems 4 16 b.bs).map (fun x => toLe 2 (narrowElem o.dtype x))).flatten, psn := a.psn || b.psn } :: fromWire o r
    else a :: b :: fromWire o r
  | l => l

/-- Read a chunk of the own buffer as wire lines. -/
def readChunk (g : CollGroup) (o : CollOp) (p : Pos) (s : State) : List CLine × State :=
  let n := o.chunkLen p.i / 64
  let (bs, ps, s) := readLines g.cage (chunkAddr g o p) n s
  (((List.range n).map (fun i => toWire o { bs := (bs.drop (64 * i)).take 64, psn := ps.getD i false })).flatten, s)

/-- Write whole lines with their poison marks (R377, R468). -/
def writeLines (c : Nat) : Nat → List CLine → State → State
  | _, [], s => s
  | a, l :: r, s =>
    let s := match physOf s c a with
      | some q => setLinePoison q l.psn (s.modMem fun m => { m with mem := mwrN m.mem q l.bs })
      | none => s
    writeLines c (a + 64) r s

/-- Note the lowest poisoned line an operation wrote or reduced, in bytes from block 0 (R468). -/
def notePoison (h at_ step : Nat) (ls : List CLine) (s : State) : State :=
  match (List.range ls.length).find? (fun i => ((ls.map (·.psn)).getD i false)) with
  | none => s
  | some i => modOp h (fun o => { o with poison := some (match o.poison with | some x => min x (at_ + step * i) | none => at_ + step * i) }) s

/-! ### Ends of operations (R455, R468, R480, R481) -/

/-- DETAIL of COLL_PEER_LOST (R481). -/
def lostDetail (rank link cause : Nat) : Nat := rank + 65536 * link + 2 ^ 24 * cause

/-- RESULT of an operation (R455). -/
def opResult (o : CollOp) (s : State) : Nat := o.seq + 65536 * b2n o.dropped + 2 ^ 32 * min ((s.now - o.issueAt) / 100) 0xFFFFFFFF

/-- Write OP_ABORT towards a neighbour (R480). -/
def sendAbort (g : CollGroup) (o : CollOp) (toSucc : Bool) (status detail origin : Nat) (s : State) : State :=
  opMsg g o (if toSucc then g.succ.getD 0 0 else g.pred.getD 0 0) 0x15 0 0 toSucc [(0, 1, status), (4, 4, detail), (8, 2, origin)] s

/-- The running operation ends with a failure: both neighbours hear of it, and it waits for its writes (R480). -/
def collEnd (h status detail : Nat) (s : State) : State :=
  match s.grp h with
  | none => s
  | some g => match g.cur with
    | none => s
    | some o =>
      if o.ending.isSome then s
      else
        let s := modOp h (fun o => { o with ending := some (status, detail) }) (s.modColl fun x => { x with failed := x.failed + 1 })
        sendAbort g o false status detail g.rank (sendAbort g o true status detail g.rank s)

/-- The running operation loses a neighbour (R481). -/
def peerLost (h link cause : Nat) (s : State) : State :=
  match s.grp h with
  | none => s
  | some g => collEnd h 0x52 (lostDetail g.rank link cause) s

/-- Forget a group with its keys and its staging (R482). -/
def dropGroup (h : Nat) (s : State) : State :=
  s.modColl fun x => { x with groups := tput none x.groups h none, keys := x.keys.filter (fun e => match e.2 with | some (g, _) => g != h | none => true) }

/-- Drop the recovery reads of a group. -/
def dropReads (h : Nat) (s : State) : State :=
  forEach (List.range 16) (fun k s => s.modLink k fun l => { l with memReqs := l.memReqs.filter (fun r => r.h != h) }) s

/-- A group being destroyed has no operation left: it goes, and the command ends OK (R482). -/
def finishDestroy (h : Nat) (s : State) : State :=
  match s.grp h with
  | none => s
  | some g =>
    if !g.destroying || g.cur.isSome then s
    else
      let s := dropGroup h (dropReads h s)
      match g.destroyCtx with
      | some n => endOk n 0 s
      | none => s

/-- The running operation's completion (R455, R468), and the group's next. -/
def closeOp (h status detail : Nat) (s : State) : State :=
  match s.grp h with
  | none => s
  | some g => match g.cur with
    | none => s
    | some o =>
      let s := dropReads h (s.modGrp h fun g => { g with ops := g.ops.drop 1, early := g.early.filter (fun e => e.seq != o.seq) })
      finishDestroy h (endCmd o.ctx status detail (opResult o s) s)

/-- Every chunk of the running operation has been sent and counted, and a reduce-scatter's chunks acknowledged (R457, R460, R463). -/
def opComplete (g : CollGroup) (o : CollOp) : Bool :=
  (List.range g.strands).all (fun j =>
    let t := totalOf g o j
    let st := o.strand j
    st.sent == t && st.recv == t && (!o.rs || st.acked == t)) &&
  o.counted == (if o.rs then o.chunks else (g.p - 1) * o.chunks)

/-- End the running operation if it is complete. -/
def checkDone (h : Nat) (s : State) : State :=
  match s.grp h with
  | none => s
  | some g => match g.cur with
    | none => s
    | some o =>
      if o.ending.isSome || !opComplete g o then s
      else match o.poison with
        | some d => closeOp h 0x22 d s
        | none => closeOp h 0 0 s

/-! ### Groups (R443 to R446, R482) -/

/-- Staging bytes a group reserves (R443). -/
def CollGroup.staging (g : CollGroup) : Nat := if g.agOnly then 0 else 4 * g.strands * 2 ^ g.chunkMax

/-- Free staging of a quarter. -/
def stagingFree (s : State) (q : Nat) : Nat :=
  2 ^ 23 - (s.coll.groups.map (fun e => match e.2 with | some g => if g.quarter = q then g.staging else 0 | none => 0)).sum

/-- COLL_GROUP_CREATE past its checks (R435, R440, R443). -/
def bodyCollCreate (n : Nat) (s : State) : State :=
  let c := s.ctx n
  let d := c.desc
  if (gidOf s (fld d 16 8)).isSome then endCmd n 0x33 18 0 s
  else
    let q := ((List.range 4).foldl (fun b i => if stagingFree s b < stagingFree s i then i else b) 0)
    let k := byteAt d 28
    let g : CollGroup :=
      { cage := c.cage, gid := fld d 16 8, p := fld d 24 2, rank := fld d 26 2, strands := k, chunkMax := byteAt d 29, agOnly := bit (byteAt d 30) 0,
        succ := (List.range k).map (collSucc d), pred := (List.range k).map (collPred d),
        waitUs := if fld d 40 4 = 0 then 1000000 else fld d 40 4, quarter := q, createCtx := some n }
    if stagingFree s q < g.staging then endCmd n 0x33 11 0 s
    else
      let h := ((List.range 64).find? (fun i => (s.grp i).isNone)).getD 0
      let s := s.modColl fun x => { x with groups := tput none x.groups h (some g) }
      forEach (List.range k) (fun j s => sendHello g j s) (s.modCtx n fun c => { c with ph := .held })

/-- A create fails: the handle and the staging are released (R445). -/
def failCreate (h status detail : Nat) (s : State) : State :=
  match s.grp h with
  | none => s
  | some g => match g.createCtx with
    | none => s
    | some n => endCmd n status detail 0 (dropGroup h s)

/-- A create completes once every strand has been accepted both ways (R445). -/
def checkCreate (h : Nat) (s : State) : State :=
  match s.grp h with
  | none => s
  | some g => match g.createCtx with
    | none => s
    | some n =>
      if (List.range g.strands).all (fun j => g.succOk.contains j && g.predOk.contains j) then
        endOk n (h + 64 * g.quarter) (s.modGrp h fun g => { g with createCtx := none })
      else s

/-- The checks of Table COLL-3 on a GROUP_HELLO that came on link k. -/
def helloCode (g : CollGroup) (k : Nat) (m : Bytes) : Nat :=
  if fld m 26 2 != (g.rank + g.p - 1) % g.p then 1
  else if fld m 24 2 != g.p then 2
  else if byteAt m 28 != g.strands || byteAt m 29 != g.chunkMax || bit (byteAt m 30) 0 != g.agOnly then 3
  else if !(decide (byteAt m 31 < g.strands) && g.pred.getD (byteAt m 31) 0 == k) then 4
  else 0

/-- GROUP_HELLO received (R444, R445). -/
def helloMsg (k : Nat) (m : Bytes) (s : State) : State :=
  match gidOf s (fld m 16 8) with
  | none => collDiscard s
  | some (h, g) =>
    let code := helloCode g k m
    let s := groupMsg k 0x17 [(0, 8, g.gid), (8, 1, byteAt m 31), (9, 1, code)] s
    if code = 0 then checkCreate h (s.modGrp h fun g => { g with predOk := nadd g.predOk (byteAt m 31) })
    else failCreate h 0x53 code s

/-- GROUP_ACK received (R445). -/
def ackMsg (k : Nat) (m : Bytes) (s : State) : State :=
  match gidOf s (fld m 16 8) with
  | none => collDiscard s
  | some (h, g) =>
    let j := byteAt m 24
    if g.strands ≤ j || g.succ.getD j 0 != k then collDiscard s
    else if byteAt m 25 != 0 then failCreate h 0x53 (byteAt m 25) s
    else checkCreate h (s.modGrp h fun g => { g with succOk := nadd g.succOk j })

/-- The HELLOs of a group that are not acknowledged go out again (R443). -/
def helloAgain (h : Nat) (s : State) : State :=
  match s.grp h with
  | none => s
  | some g => forEach ((List.range g.strands).filter (fun j => !g.succOk.contains j)) (fun j s => sendHello g j s) s

/-- Begin to destroy a group (R482): queued operations, registrations and a create end ABORTED, the running operation after its drain. -/
def destroyGroup (h : Nat) (by_ : Option Nat) (s : State) : State :=
  match s.grp h with
  | none => s
  | some g =>
    let queued := (g.ops.filter (fun o => !o.started))
    let s := queued.foldl (fun s o => endCmd o.ctx 0x31 0 (opResult o s) s) s
    let s := (g.regs.map (·.2) ++ g.createCtx.toList).foldl (fun s n => endCmd n 0x31 0 0 s) s
    let s := sendBye g (s.modGrp h fun g => { g with ops := g.ops.filter (fun o => o.started), regs := [], createCtx := none, destroying := true, destroyCtx := by_ })
    let s := s.modColl fun x => { x with keys := x.keys.filter (fun e => match e.2 with | some (i, _) => i != h | none => true) }
    let s := match g.cur with
      | some o =>
        let s := if o.ending.isSome then s
          else sendAbort g o false 0x52 (lostDetail g.rank 0xFF 4) g.rank (sendAbort g o true 0x52 (lostDetail g.rank 0xFF 4) g.rank s)
        modOp h (fun o => { o with ending := some (0x31, 0) }) s
      | none => s
    finishDestroy h s

/-- COLL_GROUP_DESTROY past its checks (R440, R482). -/
def bodyCollDestroy (n : Nat) (s : State) : State :=
  let h := byteAt (s.ctx n).desc 16
  match s.grp h with
  | none => endCmd n 0x33 12 0 s
  | some g =>
    if g.destroying then endCmd n 0x33 12 0 s
    else destroyGroup h (some n) (s.modCtx n fun c => { c with ph := .held })

/-- A group of a cage goes without completions, at a reset of its function (R482). -/
def forgetGroup (h : Nat) (s : State) : State :=
  match s.grp h with
  | none => s
  | some g => dropGroup h (dropReads h (sendBye g s))

/-- The handles of a cage's groups. -/
def handlesOf (s : State) (c : Nat) : List Nat :=
  s.coll.groups.filterMap (fun e => match e.2 with | some g => if g.cage = c then some e.1 else none | none => none)

/-- A group breaks (R482). -/
def breakGroup (h cause link : Nat) (s : State) : State :=
  match s.grp h with
  | none => s
  | some g =>
    if g.broken.isSome then s
    else
      let s := reportCtl 0x0741 [(20, 1, h), (21, 1, cause), (22, 1, link), (24, 8, g.gid)] g.cage (s.modGrp h fun g => { g with broken := some (cause, link) })
      peerLost h link cause s

/-- GROUP_BYE received (R482). -/
def byeMsg (k : Nat) (m : Bytes) (s : State) : State :=
  match gidOf s (fld m 16 8) with
  | none => collDiscard s
  | some (h, _) => breakGroup h 3 k s

/-- A link reset on a strand's link (R429, R482); a create still waiting goes on, its HELLOs being repeated. -/
def collLinkReset (k : Nat) (s : State) : State :=
  forEach ((s.coll.groups.filter (fun e => match e.2 with
    | some g => g.createCtx.isNone && (g.succ.contains k || g.pred.contains k)
    | none => false)).map (·.1)) (fun h s => breakGroup h 2 k s) s

/-- Reset a link: its own state, then the groups whose strands it carries (R427, R429, R482). -/
def resetLink (k reason vc : Nat) (s : State) : State := collLinkReset k (linkReset k reason vc s)

/-- Carry out the link reset that the command in work has called for (R407, R416). -/
def linkSettle (k : Nat) (s : State) : State :=
  match (s.link k).fault with
  | some (reason, vc) => resetLink k reason vc s
  | none => s

/-! ### Buffers and keys (R447 to R452) -/

/-- A key is withdrawn from the key table (R450). -/
def withdrawKey (key : Nat) (s : State) : State := s.modColl fun x => { x with keys := tput none x.keys key none }

/-- The key to issue, key 0 skipped, and the counter after it (R448). -/
def takeKey (s : State) : Nat × State :=
  let k := if s.coll.keyNext = 0 then 1 else s.coll.keyNext
  (k.toNat, s.modColl fun x => { x with keyNext := k + 1 })

/-- Registrations complete once both neighbours' keys are held (R449). -/
def checkRegs (h : Nat) (s : State) : State :=
  match s.grp h with
  | none => s
  | some g => g.regs.foldl (fun s e =>
      if g.keyTo true e.1 != 0 && g.keyTo false e.1 != 0 then
        endOk e.2 (((g.buf e.1).map (·.key)).getD 0) (s.modGrp h fun g => { g with regs := g.regs.filter (fun x => x != e) })
      else s) s

/-- COLL_BUF_REGISTER past its checks (R440, R447 to R450); it touches no device memory, so it waits for no training (R385, log entry 91). -/
def bodyCollReg (n : Nat) (s : State) : State :=
  let c := s.ctx n
  let d := c.desc
  let h := byteAt d 16
  let i := byteAt d 17
  match s.grp h with
    | none => endCmd n 0x33 12 0 s
    | some g =>
      if g.destroying then endCmd n 0x33 12 0 s
      else if bit (byteAt d 18) 0 then
        match g.buf i with
        | none => endCmd n 0x33 16 0 s
        | some b =>
          if g.ops.any (fun o => o.index == i) then endCmd n 0x33 15 0 s
          else
            let s := s.modGrp h fun g => { g with bufs := g.bufs.filter (fun e => e.1 != i), regs := g.regs.filter (fun e => e.1 != i) }
            let s := (g.regs.filter (fun e => e.1 == i)).foldl (fun s e => endCmd e.2 0x31 0 0 s) s
            endOk n 0 (offerKey g i 0 (withdrawKey b.key s))
      else if (g.buf i).isSome then endCmd n 0x33 14 0 s
      else if (pagesOf (opB d) (opLen d)).any (fun p => !(s.page c.cage p).sticky) then endCmd n 0x33 13 0 s
      else
        let (key, s) := takeKey s
        let s := s.modGrp h fun g => { g with bufs := tins g.bufs i { base := opB d, len := opLen d, key := key }, regs := g.regs ++ [(i, n)] }
        let s := s.modColl fun x => { x with keys := tput none x.keys key (some (h, i)) }
        checkRegs h (offerKey g i key (s.modCtx n fun c => { c with ph := .held }))

/-- KEY_OFFER received (R449, R450). -/
def keyMsg (k : Nat) (m : Bytes) (s : State) : State :=
  match gidOf s (fld m 16 8) with
  | none => collDiscard s
  | some (h, _) =>
    checkRegs h (s.modGrp h fun g =>
      { g with keysSucc := if g.succ.getD 0 0 = k then tput 0 g.keysSucc (byteAt m 24) (fld m 28 4) else g.keysSucc,
               keysPred := if g.pred.getD 0 0 = k then tput 0 g.keysPred (byteAt m 24) (fld m 28 4) else g.keysPred })

/-! ### Operations: issue and start (R442, R453 to R456, R473) -/

/-- log2 of the chunk size chosen automatically (R477). -/
def autoChunk (g : CollGroup) (block : Nat) (acc32 : Bool) : Nat :=
  min (g.chunkMax - b2n acc32) (max 12 (Nat.log2 (block / (4 * g.strands))))

/-- The binding of an operation at issue: the earliest-issued admission with the tag (R473). -/
def bindAt (s : State) (c : Nat) (d : Bytes) : Option Nat :=
  match s.cages.adms.find? (fun a => a.cage == c && a.tag.toNat == fld d 32 8) with
  | none => none
  | some a => if a.n ≤ byteAt d 41 || a.n ≤ byteAt d 43 then none else some a.ctx

/-- REDUCE_SCATTER and ALL_GATHER past their checks (R440, R442, R453). -/
def bodyCollOp (rs : Bool) (n : Nat) (s : State) : State :=
  let c := s.ctx n
  let d := c.desc
  let h := byteAt d 16
  let i := byteAt d 17
  memGate n (fun s => match s.grp h with
    | none => endCmd n 0x33 12 0 s
    | some g =>
      if g.destroying then endCmd n 0x33 12 0 s
      else if (g.buf i).isNone || g.keyTo true i == 0 || g.keyTo false i == 0 then endCmd n 0x33 16 0 s
      else if rs && g.agOnly then endCmd n 0x33 17 0 s
      else if fld d 28 4 = 0 then endOk n 0 s
      else
        let b := if opBind d then bindAt s c.cage d else none
        let o : CollOp :=
          { ctx := n, seq := g.opSeq, rs := rs, index := i, dtype := byteAt d 18, op := byteAt d 19, acc32 := opAcc32 d, bulk := bit (byteAt d 20) 1,
            logC := if byteAt d 21 = 0 then autoChunk g (opBlock d) (opAcc32 d) else byteAt d 21, offset := fld d 24 4, count := fld d 28 4,
            issueAt := s.now, bound := b, dropped := opBind d && b.isNone, ctr := byteAt d 40 % 32, cl := byteAt d 41,
            srcCtr := byteAt d 42 % 32, srcCl := byteAt d 43, srcThresh := fld d 44 4 }
        (s.modGrp h fun g => { g with opSeq := (g.opSeq + 1) % 65536, ops := g.ops ++ [o] }).modCtx n fun c => { c with ph := .held }) s

/-- The device range of an operation. -/
def opPages (g : CollGroup) (o : CollOp) : List Nat :=
  pagesOf (((g.buf o.index).map (·.base)).getD 0 + o.offset) (g.p * o.block)

/-- OP_READY is held back: a running program other than the one bound to pins a page of the buffer (R456), or the bound admission has
not started (R473). -/
def readyHeld (s : State) (g : CollGroup) (o : CollOp) : Bool :=
  s.cages.adms.any (fun a => a.cage == g.cage && a.ph == .running && o.bound != some a.ctx && a.w.any (fun p => (opPages g o).contains p)) ||
  (match o.bound with
   | some n => !s.cages.adms.any (fun a => a.ctx == n && a.ph == .running)
   | none => false)

/-- Chunks granted at the start: 4, or 8 where a bound reduce-scatter finds four further buffers in the group's scratchpads (R460, R462). -/
def grantStart (s : State) (g : CollGroup) (o : CollOp) : Nat :=
  match o.rs, o.bound.bind (fun n => s.adm n) with
  | true, some a =>
    let room := (a.clusters.map (fun c => 2 ^ 21 - (s.clus c).spBytes)).sum
    if 4 * g.strands * (o.chunk * o.wl) ≤ room then 8 else 4
  | _, _ => 4

/-- The signature in an OP_READY, with the grant (R453, Table COLL-6). -/
def readyBody (o : CollOp) (grant : Nat) : List Fld :=
  [(0, 1, if o.rs then 0x23 else 0x24), (1, 1, o.dtype), (2, 1, o.op), (3, 1, b2n o.acc32), (4, 1, o.logC), (5, 1, grant), (8, 4, o.count)]

/-- An OP_READY for the running operation on strand j: the signature, then the grant (R453). -/
def takeReady (h j : Nat) (m : Bytes) (s : State) : State :=
  match s.grp h with
  | none => s
  | some g => match g.cur with
    | none => s
    | some o =>
      if (m.drop 16).take 5 != (packFlds 40 (readyBody o 0)).take 5 || fld m 24 4 != o.count then collEnd h 0x53 5 s
      else if (o.strand j).ready then s
      else modStrand h j (fun st => { st with ready := true, grant := byteAt m 21 }) s

/-- Send OP_READY on every strand once nothing holds it back, then take those that came early (R453, R456, R473). -/
def tryReady (h : Nat) (s : State) : State :=
  match s.grp h with
  | none => s
  | some g => match g.cur with
    | none => s
    | some o =>
      if o.readySent || o.ending.isSome || readyHeld s g o then s
      else
        let k := grantStart s g o
        let s := modOp h (fun o => { o with readySent := true }) s
        let s := forEach (List.range g.strands) (fun j s =>
          modStrand h j (fun st => { st with given := k }) (opMsg g o (g.pred.getD j 0) 0x14 0 0 false (readyBody o k) s)) s
        (g.early.filter (fun e => e.seq == o.seq)).foldl (fun s e => takeReady h e.strand e.body s) s

/-- The next operation of a group starts (R453); one already aborted, or of a broken group, ends at once (R480, R482). -/
def opStart (h : Nat) (s : State) : State :=
  match s.grp h with
  | none => s
  | some g => match g.ops with
    | [] => s
    | o :: _ =>
      if o.started || g.createCtx.isSome || g.destroying then s
      else
        let s := s.modGrp h fun g =>
          { g with ops := match g.ops with | o :: r => { o with started := true, gate := o.bound.isNone } :: r | [] => [], aborts := g.aborts.filter (fun a => a.seq != o.seq) }
        match g.broken, g.aborts.find? (fun a => a.seq == o.seq) with
        | some (cause, link), _ => peerLost h link cause s
        | none, some a => modOp h (fun o => { o with ending := some (a.status, a.detail) }) (s.modColl fun x => { x with failed := x.failed + 1 })
        | none, none => tryReady h s

/-- The bound admission of an operation has ended (R473): the operation runs on unbound. -/
def dropBind (o : CollOp) : CollOp := { o with bound := none, dropped := true, gate := o.gate || o.started }

/-! ### Chunks (R457 to R477) -/

/-- The messages of a chunk: its data, then CHUNK_END (R465, R478). -/
def chunkData (ty seq key : Nat) : Nat → Nat → List CLine → List Bytes
  | 0, _, _ => []
  | fuel + 1, first, ls =>
    if ls.isEmpty then []
    else
      let part := ls.take 16
      mkMsg ty part.length 0 (seq + 65536 * maskNum (part.map (·.psn))) key first (part.map (·.bs)).flatten ::
        chunkData ty seq key fuel (first + part.length) (ls.drop 16)

/-- The CRC of lines in order (R465). -/
def linesCrc (ls : List CLine) : Nat := crc32c (ls.map (·.bs)).flatten

/-- All messages of a chunk towards the successor. -/
def chunkMsgs (g : CollGroup) (o : CollOp) (p : Pos) (crc : Nat) (ls : List CLine) : List Bytes :=
  let key := g.keyTo true o.index
  chunkData (if o.rs then 0x11 else 0x10) o.seq key (ls.length + 1) (firstLine o p) ls ++
    [mkShort 0x12 0 o.seq key (firstLine o p) (packFlds 40 [(0, 4, crc), (4, 4, ls.length)])]

/-- The next chunk of a strand may start (R453, R457, R463, R472). -/
def canStart (g : CollGroup) (o : CollOp) (j : Nat) : Bool :=
  let st := o.strand j
  let nj := o.perStrand g.strands j
  o.ending.isNone && o.readySent && st.ready && decide (st.sent < totalOf g o j) && decide (st.sent < st.grant) &&
    (if st.sent < nj then o.gate
     else if o.rs then o.gate && (st.staged.any (fun e => e.1 == st.sent - nj)) else decide (st.sent - nj < st.recv))

/-- Start the next chunk of a strand: its lines, its messages, its place in staging (R457, R460, R463, R464). -/
def startChunk (h j : Nat) (s : State) : State :=
  match s.grp h with
  | none => s
  | some g => match g.cur with
    | none => s
    | some o =>
      let st := o.strand j
      let q := st.sent
      let nj := o.perStrand g.strands j
      let p := posOf g o j q false
      let (loc, s) := readChunk g o p s
      let part := (st.staged.find? (fun e => e.1 == q - nj)).map (·.2)
      let ls := match o.rs && decide (nj ≤ q), part with
        | true, some ps => List.zipWith (reduceLine o) ps loc
        | _, _ => loc
      let crc := if o.rs || decide (q < nj) then linesCrc ls else tget 0 st.crcs (q - nj)
      let s := if o.rs && decide (nj ≤ q) then notePoison h (firstLine o p * 64 / o.wl) (64 / o.wl) ls s else s
      let ms := chunkMsgs g o p crc ls
      let s := ms.foldl (fun s m => sendOn (g.succ.getD j 0) o.vc m s) s
      checkDone h (modStrand h j (fun st =>
        { st with sent := q + 1, staged := if o.rs && decide (nj ≤ q) then st.staged.filter (fun e => e.1 != q - nj) else st.staged,
                  heldOut := if o.rs then tins st.heldOut q ms else st.heldOut }) s)

/-- Strands of a group that may start a chunk. -/
def startable (s : State) (h : Nat) : List Nat :=
  match s.grp h with
  | none => []
  | some g => match g.cur with
    | none => []
    | some o => (List.range g.strands).filter (canStart g o)

/-- The groups of a quarter with work of a class (R475). -/
def collWork (s : State) (q : Nat) (bnd : Bool) : List (Nat × Nat) :=
  s.coll.groups.filterMap (fun e => match e.2 with
    | some g => match g.cur with
      | some o => if g.quarter = q && o.bound.isSome == bnd && !(startable s e.1).isEmpty then some (e.1, g.cage) else none
      | none => none
    | none => none)

/-- The next group of a cage in handle order (R475). -/
def nextGroup (s : State) (c : Nat) (ws : List (Nat × Nat)) : Nat :=
  let hs := (ws.filter (fun e => e.2 == c)).map (·.1)
  let t := tget 0 s.coll.groupTurn c
  ((hs.find? (fun h => decide (t ≤ h))).orElse (fun _ => hs.head?)).getD 0

/-- Bytes of the chunk a group would start. -/
def chunkCost (s : State) (h : Nat) : Nat :=
  match (s.grp h).bind (·.cur) with
  | some o => o.chunk * o.wl
  | none => 1

/-- Deficit round robin of R475 over cages: cage and cost in order from the one after the cage served last; answers the cage served and the deficits. -/
def collDrr (s : State) (base : Nat) (cs : List (Nat × Nat)) : Option (Nat × Tbl Nat) :=
  let df := fun c => tget 0 s.coll.deficit (base + c)
  let visits := fun (e : Nat × Nat) => let w := max 1 (s.cage e.1).weight; max 1 ((e.2 - df e.1 + w - 1) / w)
  match minBy (fun e => ((visits e : Nat) : Rat)) cs with
  | none => none
  | some b =>
    let r := visits b
    let before := cs.takeWhile (fun e => e.1 != b.1)
    let upd := cs.foldl (fun (t : Tbl Nat) e =>
      let n := if e.1 = b.1 || before.contains e then r else r - 1
      let v := df e.1 + n * (max 1 (s.cage e.1).weight)
      tput 0 t (base + e.1) (if e.1 = b.1 then v - e.2 else v)) s.coll.deficit
    some (b.1, upd)

/-- Serve one chunk start of a quarter from a class of work (R475). -/
def serveClass (q : Nat) (bnd : Bool) (ws : List (Nat × Nat)) (s : State) : State :=
  let cls := 2 * q + b2n bnd
  let cages := sortBy (fun a b => decide (a ≤ b)) (ws.map (·.2)).eraseDups
  let cs := cages.map (fun c => (c, chunkCost s (nextGroup s c ws)))
  let last := tget 0 s.coll.cageTurn cls
  let keep := cs.find? (fun e => e.1 + 1 == last && decide (e.2 ≤ tget 0 s.coll.deficit (256 * cls + e.1)))
  let pick := match keep with
    | some e => some (e.1, tput 0 s.coll.deficit (256 * cls + e.1) (tget 0 s.coll.deficit (256 * cls + e.1) - e.2))
    | none => collDrr s (256 * cls) (cs.filter (fun e => decide (last ≤ e.1)) ++ cs.filter (fun e => decide (e.1 < last)))
  match pick with
  | none => s
  | some (c, df) =>
    let h := nextGroup s c ws
    let (i, s) := drawBelow (startable s h).length s
    let j := (startable s h).getD i 0
    let s := s.modColl fun x =>
      { x with deficit := df, cageTurn := tput 0 x.cageTurn cls (c + 1), groupTurn := tput 0 x.groupTurn c (h + 1),
               starts := tput [] x.starts q ((bnd :: tget [] x.starts q).take 4) }
    startChunk h j s

/-- CHUNK_START of a quarter: bound work first, engine-run work at least one start in four (R475). -/
def chunkStart (q : Nat) (s : State) : State :=
  let bw := collWork s q true
  let uw := collWork s q false
  let recent := ((tget [] s.coll.starts q).filter id).length
  if !bw.isEmpty && (uw.isEmpty || decide (recent < 3)) then serveClass q true bw s
  else if uw.isEmpty then s else serveClass q false uw s

/-- Count the chunks of the arrival sequence that have landed, feeding the arrival counter (R470, R471). -/
def countLanded (h : Nat) : Nat → State → State
  | 0, s => s
  | fuel + 1, s =>
    match (s.grp h).bind (·.cur) with
    | none => s
    | some o =>
      if !o.landed.contains o.counted then s
      else
        let s := match o.bound.bind (fun n => s.adm n) with
          | some a => countArrival (a.clusters.getD o.cl 0) o.ctr s
          | none => s
        countLanded h fuel (modOp h (fun x => { x with counted := x.counted + 1, landed := x.landed.filter (fun i => i != o.counted) }) s)

/-- Write the result chunks that have passed, once the source gate lets local data be read (R457, R472). -/
def flushFinals (h : Nat) (s : State) : State :=
  match s.grp h with
  | none => s
  | some g => match g.cur with
    | none => s
    | some o =>
      if !o.rs || !o.gate then s
      else
        let s := forEach (List.range g.strands) (fun j s =>
          let nj := o.perStrand g.strands j
          ((o.strand j).staged.filter (fun e => decide ((g.p - 2) * nj ≤ e.1))).foldl (fun s e =>
            let p := posOf g o j e.1 true
            let (loc, s) := readChunk g o p s
            let out := fromWire o (List.zipWith (reduceLine o) e.2 loc)
            let s := writeLines g.cage (chunkAddr g o p) out s
            let s := notePoison h (p.block * o.block + p.i * o.chunk) 64 out s
            modOp h (fun x => { x with landed := nadd x.landed p.i, written := x.written + 1 })
              (modStrand h j (fun st => { st with staged := st.staged.filter (fun x => x.1 != e.1) }) s)) s) s
        checkDone h (countLanded h (o.chunks + 1) s)

/-- The chunk with a receive number, as far as it has come. -/
def Strand.got (st : Strand) (q : Nat) : RxChunk := tget {} st.rx q

/-- Change the chunk with a receive number. -/
def Strand.modGot (st : Strand) (q : Nat) (f : RxChunk → RxChunk) : Strand := { st with rx := tput {} st.rx q (f (st.got q)) }

/-- The next chunk to be checked on a strand is whole: CHUNK_END is in and every line has come. -/
def rxWhole (g : CollGroup) (o : CollOp) (j : Nat) : Bool :=
  let st := o.strand j
  (st.got st.recv).crc.isSome && (st.got st.recv).lines.length == chunkLines o (posOf g o j st.recv true)

/-- Acknowledge a chunk to the predecessor: OK, or RESEND (R460, R466). -/
def sendChunkAck (g : CollGroup) (o : CollOp) (j : Nat) (p : Pos) (again : Bool) (s : State) : State :=
  opMsg g o (g.pred.getD j 0) 0x13 (16 * b2n again) (firstLine o p) false [] s

/-- Ask for the next lines of a recovery read, at most 64 requests a link (R424, R466). -/
def askLines (h j : Nat) : Nat → State → State
  | 0, s => s
  | fuel + 1, s =>
    match s.grp h with
    | none => s
    | some g => match g.cur with
      | none => s
      | some o =>
        let st := o.strand j
        let k := g.pred.getD j 0
        let p := posOf g o j st.recv true
        let n := chunkLines o p
        let l := s.link k
        if n ≤ (st.got st.recv).asked || 64 ≤ l.memReqs.length then s
        else
          let c := min 16 (n - (st.got st.recv).asked)
          let m : Bytes := [2, 1, BitVec.ofNat 8 c, 0] ++ toLe 4 l.memTag ++ toLe 4 (g.keyTo false o.index) ++
            toLe 4 (o.offset / 64 + firstLine o p + (st.got st.recv).asked)
          let s := s.modLink k fun l => { l with memTag := (l.memTag + 1) % 2 ^ 32, memReqs := l.memReqs ++ [{ tag := l.memTag, h := h, strand := j, line := (st.got st.recv).asked, n := c }] }
          askLines h j fuel (modStrand h j (fun st => st.modGot st.recv fun x => { x with asked := x.asked + c }) (sendOn k 3 m s))

/-- A chunk has failed its CRC: recover once, then COLL_CRC (R466). -/
def chunkFailed (h j : Nat) (s : State) : State :=
  match s.grp h with
  | none => s
  | some g => match g.cur with
    | none => s
    | some o =>
      let st := o.strand j
      if (st.got st.recv).retried then collEnd h 0x50 g.rank s
      else
        let s := s.modColl fun x => { x with recoveries := x.recoveries + 1 }
        if o.rs then
          sendChunkAck g o j (posOf g o j st.recv true) true (modStrand h j (fun st => st.modGot st.recv fun _ => { retried := true }) s)
        else askLines h j 64 (modStrand h j (fun st => st.modGot st.recv fun x => { crc := x.crc, retried := true }) s)

/-- A chunk has passed: it is acknowledged and granted for, staged or counted (R460, R465, R470). -/
def chunkPassed (h j : Nat) (s : State) : State :=
  match s.grp h with
  | none => s
  | some g => match g.cur with
    | none => s
    | some o =>
      let st := o.strand j
      let q := st.recv
      let p := posOf g o j q true
      let ls := ((st.got q).lines).map (·.2)
      let s := sendChunkAck g o j p false (modStrand h j (fun st =>
        { st with recv := q + 1, given := st.given + 1, rx := tdel st.rx q, crcs := if o.rs then st.crcs else tput 0 st.crcs q ((st.got q).crc.getD 0),
                  staged := if o.rs then tins st.staged q ls else st.staged }) s)
      if o.rs then flushFinals h s
      else checkDone h (countLanded h ((g.p - 1) * o.chunks + 1) (modOp h (fun x => { x with landed := nadd x.landed (p.step * o.chunks + p.i) }) s))

/-- CHUNK_CHECK on a strand, with the residue mismatches its additions met (R465 to R467). -/
def chunkCheck (h j mism : Nat) (s : State) : State :=
  match s.grp h with
  | none => s
  | some g => match g.cur with
    | none => s
    | some o =>
      let rx := (o.strand j).got (o.strand j).recv
      if o.ending.isSome || !rxWhole g o j then s
      else if linesCrc (rx.lines.map (·.2)) != rx.crc.getD 0 then chunkFailed h j s
      else
        let s := if o.rs && mism != 0 then s.modColl fun x => { x with recomputed := x.recomputed + 1 } else s
        if o.rs && decide (2 ≤ mism) then collEnd h 0x51 g.rank s else chunkPassed h j s

/-- The group, the strand and the role of an operation's message that came on a link of the named side; none where R479 discards it. -/
def opTarget (s : State) (k : Nat) (fromSucc : Bool) (m : Bytes) : Option (Nat × CollGroup × Nat × Bool) :=
  match tget none s.coll.keys (msgKey m) with
  | none => none
  | some (h, _) => match s.grp h with
    | none => none
    | some g =>
      match seqRole g (msgTag m % 65536), (List.range g.strands).find? (fun j => (if fromSucc then g.succ else g.pred).getD j 0 == k) with
      | some r, some j => some (h, g, j, r)
      | _, _ => none

/-- OP_READY received (R453). -/
def readyMsg (k : Nat) (m : Bytes) (s : State) : State :=
  match opTarget s k true m with
  | none => collDiscard s
  | some (h, g, j, cur) =>
    match (if cur then g.cur else none) with
    | some o => if o.ending.isSome then s
      else if o.readySent then takeReady h j m s
      else s.modGrp h fun g => { g with early := g.early ++ [{ strand := j, seq := msgTag m % 65536, body := m }] }
    | none => s.modGrp h fun g => { g with early := g.early ++ [{ strand := j, seq := msgTag m % 65536, body := m }] }

/-- The receive number, within the grant, of the chunk that a line of the wire belongs to (R460, R479). -/
def chunkOf (g : CollGroup) (o : CollOp) (j line : Nat) : Option Nat :=
  let st := o.strand j
  ((List.range (min st.given (totalOf g o j) - st.recv)).map (· + st.recv)).find? (fun q =>
    let p := posOf g o j q true
    decide (firstLine o p ≤ line) && decide (line < firstLine o p + chunkLines o p))

/-- AG_DATA or RS_DATA received (R463, R465, R468, R479): within the grant, the next lines of their chunk. -/
def dataMsg (k : Nat) (m : Bytes) (s : State) : State :=
  match opTarget s k false m with
  | none => collDiscard s
  | some (h, g, j, _) => match g.cur with
    | none => collDiscard s
    | some o => match chunkOf g o j (msgOffset m) with
      | none => collDiscard s
      | some q =>
        let x := (o.strand j).got q
        let p := posOf g o j q true
        let at_ := msgOffset m - firstLine o p
        if o.seq != msgTag m % 65536 || o.ending.isSome || at_ != x.lines.length || chunkLines o p < at_ + msgLines m ||
            (msgType m == 0x11) != o.rs || x.crc.isSome then collDiscard s
        else
          let ls := (List.range (msgLines m)).map (fun i => ({ bs := (m.drop (16 + 64 * i)).take 64, psn := bit (msgTag m) (16 + i) } : CLine))
          let s := modStrand h j (fun st => st.modGot q fun x => { x with lines := x.lines ++ ls.zipIdx.map (fun e => (at_ + e.2, e.1)) }) s
          if o.rs then s
          else notePoison h (msgOffset m * 64) 64 ls (writeLines g.cage (chunkAddr g o p + 64 * at_) ls s)

/-- Take the data message at the head of a VC's inbox. -/
def collDataIn (k v : Nat) (s : State) : State :=
  match inboxHead s k v with
  | none => s
  | some m => if msgType m = 0x10 || msgType m = 0x11 then dataMsg k m (popInbox k v s) else s

/-- CHUNK_END received (R465). -/
def chunkEndMsg (k : Nat) (m : Bytes) (s : State) : State :=
  match opTarget s k false m with
  | none => collDiscard s
  | some (h, g, j, _) => match g.cur with
    | none => collDiscard s
    | some o => match chunkOf g o j (msgOffset m) with
      | none => collDiscard s
      | some q =>
        let p := posOf g o j q true
        if o.seq != msgTag m % 65536 || o.ending.isSome || msgOffset m != firstLine o p || fld m 20 4 != chunkLines o p || ((o.strand j).got q).crc.isSome
        then collDiscard s
        else modStrand h j (fun st => st.modGot q fun x => { x with crc := some (fld m 16 4) }) s

/-- CHUNK_ACK received (R453, R460, R466). -/
def chunkAckMsg (k : Nat) (m : Bytes) (s : State) : State :=
  match opTarget s k true m with
  | none => collDiscard s
  | some (h, g, j, _) => match g.cur with
    | none => collDiscard s
    | some o =>
      let st := o.strand j
      if o.seq != msgTag m % 65536 || o.ending.isSome || st.sent ≤ st.acked then collDiscard s
      else if msgStatus m = 0 then
        checkDone h (modStrand h j (fun st => { st with acked := st.acked + 1, grant := st.grant + 1, heldOut := st.heldOut.filter (fun e => e.1 != st.acked) }) s)
      else match st.heldOut.find? (fun e => e.1 == st.acked) with
        | some e => e.2.foldl (fun s m => sendOn k o.vc m s) s
        | none => collDiscard s

/-- OP_ABORT received (R480): the first for an OPSEQ counts, and travels on. -/
def abortMsg (k : Nat) (m : Bytes) (s : State) : State :=
  let onSucc := opTarget s k true m
  match onSucc.orElse (fun _ => opTarget s k false m) with
  | none => collDiscard s
  | some (h, g, _, cur) =>
    let st := byteAt m 16
    let dt := fld m 20 4
    let q := msgTag m % 65536
    let pass := fun (o : CollOp) (s : State) => if g.p = 2 then s else sendAbort g o onSucc.isNone st dt (fld m 24 2) s
    if cur then match g.cur with
      | some o => if o.ending.isSome then s
        else pass o (modOp h (fun o => { o with ending := some (st, dt) }) (s.modColl fun x => { x with failed := x.failed + 1 }))
      | none => s
    else if g.aborts.any (fun a => a.seq == q) then s
    else
      let i := ((tget none s.coll.keys (msgKey m)).map (·.2)).getD 0
      let o : CollOp := { ctx := 0, seq := q, rs := false, index := i, dtype := 0, op := 0, acc32 := false, bulk := false, logC := 12, offset := 0, count := 0, issueAt := 0 }
      pass o (s.modGrp h fun g => { g with aborts := g.aborts ++ [{ seq := q, status := st, detail := dt }] })

/-! ### VC-MEM responses (R425, R426, R466) -/

/-- Forget a recovery request. -/
def dropMemReq (k tag : Nat) (s : State) : State := s.modLink k fun l => { l with memReqs := l.memReqs.filter (fun r => r.tag != tag) }

/-- MDATA at the requester (R425, R466): the lines land, poisoned ones marked; an unknown TAG is discarded. -/
def mdataIn (k : Nat) (m : Bytes) (s : State) : State :=
  match (s.link k).memReqs.find? (fun r => r.tag == msgTag m) with
  | none => s
  | some r =>
    let s := dropMemReq k r.tag s
    if msgStatus m = 1 || msgStatus m = 2 then collEnd r.h 0x53 6 s
    else match s.grp r.h with
      | none => s
      | some g => match g.cur with
        | none => s
        | some o =>
          let p := posOf g o r.strand (o.strand r.strand).recv true
          let ls := (List.range (min r.n (msgLines m))).map (fun i => ({ bs := (m.drop (16 + 64 * i)).take 64, psn := bit (msgOffset m) i } : CLine))
          let s := notePoison r.h ((firstLine o p + r.line) * 64) 64 ls (writeLines g.cage (chunkAddr g o p + 64 * r.line) ls s)
          askLines r.h r.strand 64 (modStrand r.h r.strand (fun st =>
            st.modGot st.recv fun x => { x with lines := ls.zipIdx.foldl (fun t e => tins t (r.line + e.2) e.1) x.lines }) s)

/-- MACK at the requester: this engine sends no MWRITE, so no request waits for it and it is discarded (R426, R466). -/
def mackIn (k : Nat) (m : Bytes) (s : State) : State := dropMemReq k (msgTag m) s

/-- A VC-MEM request has had no response in 1 ms (R426, R466). -/
def memTimeout (k tag : Nat) (s : State) : State :=
  match (s.link k).memReqs.find? (fun r => r.tag == tag) with
  | none => s
  | some r => peerLost r.h k 1 (dropMemReq k tag s)

/-! ### Timers, bindings, cages -/

/-- WAIT_US has elapsed for a create (0), for the registration of an INDEX (1), or for the first OP_READY (2) (R445, R449, R454). -/
def waitExpired (h what i : Nat) (s : State) : State :=
  match s.grp h with
  | none => s
  | some g =>
    if what = 0 then failCreate h 0x52 (lostDetail g.rank 0xFF 1) s
    else if what = 1 then
      match g.regs.find? (fun e => e.1 == i), g.buf i with
      | some e, some b =>
        let s := s.modGrp h fun g => { g with regs := g.regs.filter (fun x => x != e), bufs := g.bufs.filter (fun x => x.1 != i) }
        endCmd e.2 0x52 (lostDetail g.rank 0xFF 1) 0 (offerKey g i 0 (withdrawKey b.key s))
      | _, _ => s
    else match g.cur with
      | none => s
      | some o => match (List.range g.strands).find? (fun j => !(o.strand j).ready) with
        | some j => peerLost h (g.succ.getD j 0) 1 s
        | none => s

/-- TIMEOUT_MS has passed without a message from the neighbour on a link, with data flowing (R454). -/
def progressTimeout (h k : Nat) (s : State) : State :=
  match s.grp h with
  | none => s
  | some g => match g.cur with
    | none => s
    | some o =>
      let flowing := (List.range g.strands).any (fun j => (o.strand j).sent != 0 || (o.strand j).recv != 0 || !(o.strand j).rx.isEmpty)
      if flowing && (g.succ.contains k || g.pred.contains k) then peerLost h k 1 s else s

/-- An ending operation has drained (R480). -/
def collDrained (h : Nat) (s : State) : State :=
  match (s.grp h).bind (·.cur) with
  | none => s
  | some o => match o.ending with
    | some (st, dt) => closeOp h st dt s
    | none => s

/-- The bound operation's admission has started, or is gone (R473). -/
def bindWaitEnd (h : Nat) (s : State) : State :=
  match (s.grp h).bind (·.cur) with
  | none => s
  | some o => match o.bound with
    | none => s
    | some n => tryReady h (if (s.adm n).isNone then modOp h dropBind s else s)

/-- The source gate is met (R472). -/
def sourceGate (h : Nat) (s : State) : State :=
  match (s.grp h).bind (·.cur) with
  | none => s
  | some o => match o.bound.bind (fun n => s.adm n) with
    | none => s
    | some a =>
      if a.ph == .running && decide (o.srcThresh ≤ (tget 0 (s.clus (a.clusters.getD o.srcCl 0)).arrs o.srcCtr).toNat) then
        flushFinals h (modOp h (fun o => { o with gate := true }) s)
      else s

/-- Operations whose admission has ended run on unbound, and OP_READYs held back by programs that have ended go out (R456, R473). -/
def collRefresh (s : State) : State :=
  forEach (s.coll.groups.map (·.1)) (fun h s =>
    let s := s.modGrp h fun g => { g with
      ops := g.ops.map (fun o => match o.bound with
      | some n => if (s.adm n).isNone then dropBind o else o
      | none => o) }
    match (s.grp h).bind (·.cur) with
    | some o => if o.dropped && o.gate then flushFinals h (if o.bound.isNone then tryReady h s else s) else if o.bound.isNone then tryReady h s else s
    | none => s) s

/-- The second's record (R484). -/
def collErrCount (s : State) : State :=
  let x := s.coll
  let s := if x.recoveries + x.recomputed + x.failed + x.discarded = 0 then s
    else reportCtl 0x0740 [(20, 4, x.recoveries), (24, 4, x.recomputed), (28, 4, x.failed), (32, 4, x.discarded)] 0 s
  s.modColl fun x => { x with recoveries := 0, recomputed := 0, failed := 0, discarded := 0 }

end Sys2Proof.Machine
end

