-- ==== Sys2Proof/Machine/Node.lean ====
section
/-! DEFINITION. The module as a node of the rack and row buses: node identities, frames, sending, sleep, and the warden in command (R594 to R604, R611 to R613, R619, R620, R626). -/

namespace Sys2Proof.Machine

/-- One bus: 0 rack, 1 row. -/
def State.onBus (s : State) (b : Nat) : Bus := if b = 0 then s.bus.rack else s.bus.row

/-- Change one bus. -/
def State.modBus (s : State) (b : Nat) (f : Bus → Bus) : State :=
  s.modBuses fun x => if b = 0 then { x with rack := f x.rack } else { x with row := f x.row }

/-- This module's node ID on a bus (Table BUS-1). -/
def nodeId (s : State) (b : Nat) : Nat := if b = 0 then s.ao.slotId else 2 * s.ao.rackId + s.ward.side

/-- The controller of a bus is enabled: the rack controller always, the row controller on a commissioned rack warden (R596). -/
def busEnabled (s : State) (b : Nat) : Bool := b == 0 || s.ward.rackRole

/-! ### Frames (Tables BUS-4 and BUS-5) -/

def Frame.cls (f : Frame) : Nat := bits f.id 28 26
def Frame.msg (f : Frame) : Nat := bits f.id 25 18
def Frame.addr (f : Frame) : Bool := bit f.id 12
def Frame.dest (f : Frame) : Nat := bits f.id 11 6
def Frame.src (f : Frame) : Nat := bits f.id 5 0
def Frame.len (f : Frame) : Nat := byteAt f.data 0
def Frame.seq (f : Frame) : Nat := byteAt f.data 1
def Frame.version (f : Frame) : Nat := byteAt f.data 2 % 16

/-- The body; bytes beyond the data read 0. -/
def Frame.body (f : Frame) : Bytes := (f.data.drop 4).take f.len

/-- The smallest CAN FD data length that holds n bytes (R620). -/
def canLen (n : Nat) : Nat := ([0, 1, 2, 3, 4, 5, 6, 7, 8, 12, 16, 20, 24, 32, 48, 64].find? (fun l => decide (n ≤ l))).getD 64

/-- A Palaux frame of this module (R619, R620). -/
def mkFrame (s : State) (b msg : Nat) (dest : Option Nat) (seq : Nat) (body : Bytes) : Frame :=
  let n := canLen (4 + body.length)
  { id := msg / 16 * 2 ^ 26 + msg * 2 ^ 18 + (if dest.isSome then 2 ^ 12 else 0) + dest.getD 0 % 64 * 64 + nodeId s b % 64,
    data := ([BitVec.ofNat 8 body.length, BitVec.ofNat 8 seq, 1, 0] ++ body ++ List.replicate (n - 4 - body.length) 0) }

/-! ### Records of the buses (Table BUS-14) -/

def busJoinRec (b result : Nat) (s : State) : State :=
  a6Rec 0x0401 [(20, 1, b), (21, 1, nodeId s b), (22, 1, result), (23, 1, (s.onBus b).srcs.length)] s

def busErrRec (b event : Nat) (s : State) : State :=
  a6Rec 0x0402 [(20, 1, b), (21, 1, event), (22, 1, min 255 (s.onBus b).txErr), (23, 1, min 255 (s.onBus b).rxErr)] s

def busSleepRec (b event : Nat) (s : State) : State := a6Rec 0x0405 [(20, 1, b), (21, 1, event)] s

/-! ### Sending (R600 to R603, R612) -/

/-- A one-shot frame that a newer one of the same MSG and DEST supersedes; the ALLOC frames of one cycle differ in FIRST and stand beside each other
(log entry 53). -/
def TxBuf.superseded (t : TxBuf) (f : Frame) : Bool :=
  t.waiting && !t.tx.retried && t.tx.frame.msg == f.msg && t.tx.frame.dest == f.dest && (f.msg != 0x31 || byteAt t.tx.frame.data 4 == byteAt f.data 4)

/-- Put a frame where it waits to be sent: in place of the one it supersedes, else in the lowest free transmit buffer, else behind them. -/
def pushFrame (b : Nat) (t : TxFrame) (s : State) : State :=
  s.modBus b fun x =>
    let buf := fun i => tget none x.tx i
    let set := fun i (x : Bus) => { x with tx := tput none x.tx i (some { tx := t, waiting := true }) }
    match (List.range 12).find? (fun i => ((buf i).map (fun q => q.superseded t.frame)).getD false) with
    | some i => set i { x with txExpiry := x.txExpiry + 1 }
    | none => match (List.range 12).find? (fun i => !((buf i).map (·.waiting)).getD false) with
      | some i => set i x
      | none => { x with more := x.more ++ [t] }

/-- Queue a message of this module, numbered by its own count; nothing is queued on a bus that is not joined or sleeps (R602, R605, R610). -/
def queueMsg (b msg : Nat) (dest : Option Nat) (retried : Bool) (body : Bytes) (s : State) : State :=
  let x := s.onBus b
  if !s.stew || x.join != .joined || x.asleep then s
  else
    let q := tget 0 x.seqs msg
    let f := mkFrame s b msg dest q body
    pushFrame b { frame := f, retried := retried } (s.modBus b fun x => { x with seqs := tput 0 x.seqs msg ((q + 1) % 256) })

/-- Wake a sleeping transceiver: by the bus (event 2), or locally (event 3), which sends BUS_WAKE first and nothing else for 20 ms (R611, R612). -/
def wakeBus (b event : Nat) (s : State) : State :=
  if !(s.onBus b).asleep then s
  else
    let s := busSleepRec b event (s.modBus b fun x => { x with asleep := false })
    if event = 3 then queueMsg b 0x63 none true [] (s.modBus b fun x => { x with quiet := s.now + 2000000 }) else s

/-- Queue a message of class 0, waking the bus first (R611). -/
def queueAlert (b msg : Nat) (body : Bytes) (s : State) : State := queueMsg b msg none true body (wakeBus b 3 s)

/-- The waiting transmit buffers that may be sent now, with their frames. -/
def sendable (s : State) (b : Nat) : List (Nat × TxFrame) :=
  let x := s.onBus b
  (x.tx.filterMap (fun e => match e.2 with
    | some t => if t.waiting then some (e.1, t.tx) else none
    | none => none)).filter (fun e => decide (x.quiet ≤ s.now) || e.2.frame.msg == 0x63)

/-- Move a waiting frame into a transmit buffer that has become free. -/
def refillTx (i : Nat) (x : Bus) : Bus :=
  match x.more with
  | [] => x
  | t :: r => { x with more := r, tx := tput none x.tx i (some { tx := t, waiting := true }) }

/-- A transmit buffer no longer waits. -/
def clearTx (i : Nat) (x : Bus) : Bus := { x with tx := tput none x.tx i ((tget none x.tx i).map (fun t => { t with waiting := false })) }

/-- FRAME_SENT: the lowest identifier waiting has been sent and is stamped at its start of frame (R602, R613). -/
def frameSent (b : Nat) (s : State) : State :=
  let x := s.onBus b
  if x.join != .joined || x.asleep || x.busOff then s
  else match minBy (fun (e : Nat × TxFrame) => ((e.2.frame.id : Nat) : Rat)) (sendable s b) with
    | none => s
    | some (i, t) => s.modBus b fun x =>
        refillTx i { clearTx i x with sent := some (t.frame, s.ao.rowTime), syncStamp := if t.frame.msg = 0x22 then some s.ao.rowTime else x.syncStamp }

/-- TX_EXPIRY: a frame that has waited too long is withdrawn and counted (R603). -/
def txExpire (b i : Nat) (s : State) : State :=
  match tget none (s.onBus b).tx i with
  | some t => if t.waiting then s.modBus b fun x => refillTx i { clearTx i x with txExpiry := x.txExpiry + 1 } else s
  | none => s

/-! ### The warden in command (R626) -/

/-- Rank of a claim: the higher claim, and between equal claims the lower node ID. -/
def outranks (c1 n1 c2 n2 : Nat) : Bool := decide (c2 < c1) || (c1 == c2 && decide (n1 < n2))

/-- This module's own heartbeat, while it is active in a bus's role. -/
def ownHeard (s : State) (b : Nat) : List Heard :=
  if s.ward.active && (b == 0 || s.ward.rowRole) then
    [{ src := nodeId s b, claim := if b = 0 then s.ward.rackClaim else s.ward.rowClaim, flags := s.ward.side + 2 * b + 4, rack := s.ao.rackId, dsn := s.mgmt.fuses.dsn, at_ := s.now }]
  else []

/-- The warden in command of a bus: the active sender of the role with the highest claim heard within the last 100 ms. -/
def inCommand (s : State) (b : Nat) : Option Heard :=
  let l := ((s.onBus b).hbs ++ ownHeard s b).filter (fun h => decide (s.now - h.at_ ≤ 10000000) && bit h.flags 2 && bits h.flags 1 1 == b && h.claim != 0)
  l.foldl (fun best h => match best with
    | none => some h
    | some k => if outranks h.claim h.src k.claim k.src then some h else some k) none

/-- The node in command of a bus is the sender given. -/
def fromCommand (s : State) (b src : Nat) : Bool := (inCommand s b).any (fun h => h.src == src)

end Sys2Proof.Machine
end

