-- ==== Sys2Proof/Machine/Policy.lean ====
section
/-! DEFINITION. POLICY commands as the management plane judges and acknowledges them (R195, R526). -/

namespace Sys2Proof.Machine

/-- Send POLICY_ACK for the command in work (R195). -/
def policyAck (tag : BitVec 16) (status detail : Nat) (s : State) : State := a3Down (.ack tag status detail) s

/-- The first byte of 18 to 63 with a bit the command leaves reserved (R195). -/
def policyRsvd (masks : List (Nat × Nat)) (d : Bytes) : Option Nat :=
  (List.range 46).find? (fun i => byteAt d (18 + i) &&& (255 - ((masks.find? (fun e => e.1 == 18 + i)).map (·.2)).getD 0) != 0) |>.map (· + 18)

/-- What a command answers: status, DETAIL and the state it leaves. -/
abbrev PolicyOut := Nat × Nat × State

/-- Carry out one class command that POLICY_MESSAGE has dispatched: reserved bits, then ranges, then its own refusals and its effect (R195). -/
def policyRun (cls cmd : Nat) (masks : List (Nat × Nat)) (bad : Bytes → Option Nat) (act : Bytes → State → PolicyOut) (s : State) : State :=
  match s.mgmt.disp with
  | none => s
  | some (tag, d) =>
    if byteAt d 16 != cls || byteAt d 17 != cmd then s
    else
      let s := s.modMgmt fun m => { m with disp := none }
      match policyRsvd masks d with
      | some i => policyAck tag 0x11 i s
      | none => match bad d with
        | some i => policyAck tag 0x14 i s
        | none =>
          let (st, dt, s) := act d s
          policyAck tag st dt s

/-- The commands of each class (Tables PWR-7, HEAT-5, PUMP-4, WARD-6, MGMT-10 and START-3). -/
def policyCmds (cls : Nat) : Nat :=
  if cls = 1 then 5 else if cls = 2 then 3 else if cls = 3 then 8 else if cls = 4 then 12 else if cls = 5 then 4 else if cls = 6 then 1 else 0

/-- A setting of the power-policy record has changed (R503). -/
def powerChanged (s : State) : State := s.modMgmt fun m => { m with powerDirty := true }

end Sys2Proof.Machine
end

