-- ==== Sys2Proof/Machine/Power.lean ====
section
/-! DEFINITION. The power controller: measurement, calibration, cap, bubble demand, lock groups, throttle reasons (R485 to R528). -/

namespace Sys2Proof.Machine

/-! ### The core rail (R490, R491, Table PWR-1) -/

/-- Linear interpolation between two points of Table PWR-1, in units of 5 µV. -/
def railStep (f f0 v0 slope : Nat) : Nat := v0 + (f - f0) * slope

/-- V_nom(F) in units of 5 µV, F in 25 MHz units. -/
def vNom (f : Nat) : Nat :=
  if f ≤ 32 then 124000
  else if f ≤ 48 then railStep f 32 124000 1000
  else if f ≤ 56 then railStep f 48 140000 1125
  else if f ≤ 64 then railStep f 56 149000 1375
  else if f ≤ 72 then railStep f 64 160000 1500
  else railStep (min f 80) 72 172000 1750

/-- 40 mV in units of 5 µV. -/
def marginStep : Nat := 8000

/-- The OFFERs and running groups the management plane knows, with their beat groups. -/
def State.mgs (s : State) : List (Nat × MGroup) := s.heat.groups.filterMap (fun e => e.2.map (fun g => (e.1, g)))

/-- One of them. -/
def State.mg (s : State) (j : Nat) : Option MGroup := tget none s.heat.groups j

/-- Change one of them. -/
def State.modMg (s : State) (j : Nat) (f : MGroup → MGroup) : State :=
  s.modHeat fun h => { h with groups := tput none h.groups j ((tget none h.groups j).map f) }

/-- The running groups. -/
def runningMgs (s : State) : List (Nat × MGroup) := s.mgs.filter (fun e => e.2.st == .running)

/-- The rail level one group needs (R490). -/
def railNeed (s : State) (j : Nat) (g : MGroup) : Nat :=
  vNom g.f + (if (if g.st == .running then (s.group j).margin else s.power.margin) then marginStep else 0)

/-- The rail level in force for the granted groups (R490). -/
def railTarget (s : State) : Nat :=
  if !s.sup.regs then 0 else s.mgs.foldl (fun v e => max v (railNeed s e.1 e.2)) 124000

/-- One tick of the rail: 10 mV/µs up, 2 mV/µs down (R490). -/
def railTick (s : State) : State :=
  let t := railTarget s
  s.modPower fun p => { p with rail := if p.rail < t then min t (p.rail + 20) else max t (p.rail - 4) }

/-! ### Measurement (R485, R486, R798) -/

/-- Measured power in W: the six READ_PIN values. -/
def measured (s : State) : Rat := ((s.power.regs.map (·.pin)).sum : Nat) / 1000

/-- The mean measured main input voltage in V. -/
def inputV (s : State) : Rat := ((s.power.regs.map (·.vin)).sum : Nat) / 6000

/-- PWR_CAL (Table PWR-9). -/
def pwrCal (event reg : Nat) (s : State) : State := a6Rec 0x0107 [(20, 1, event), (21, 1, reg)] s

/-- Take one regulator's read: its input power in mW and input voltage in mV, none where the read failed. -/
def takeRead (r : Regulator) (x : Option (Nat × Nat)) : Regulator :=
  match x with
  | some (p, v) => { fails := 0, pin := p, vin := v }
  | none => { r with fails := r.fails + 1 }

/-- PMBUS_READ: the reads of all regulators, and the fault they start or end (R486). -/
def pmbusRead (reads : List (Option (Nat × Nat))) (s : State) : State :=
  let regs := s.power.regs.zipIdx.map (fun e => takeRead e.1 (reads.getD e.2 none))
  let all := regs.all (fun r => r.fails == 0)
  let s := s.modPower fun p => { p with regs := regs, goodRun := if p.fault && all then p.goodRun + 1 else 0 }
  match s.power.fault, regs.findIdx? (fun r => 3 ≤ r.fails) with
  | false, some i => pwrCal 1 i (s.modPower fun p => { p with fault := true, faultReg := i, goodRun := 0 })
  | true, _ =>
    if 10 ≤ s.power.goodRun then pwrCal 2 s.power.faultReg (s.modPower fun p => { p with fault := false, goodRun := 0 }) else s
  | false, none => s

/-! ### The cap (R501) -/

/-- c_in in W (Table PWR-3). -/
def cIn (s : State) : Rat := 35 * inputV s

/-- The base of R501. -/
def capBase (s : State) : Rat := min (min ((s.power.cSet : Nat) : Rat) ((s.power.cRow : Nat) : Rat)) (min s.power.cZone (cIn s))

/-- cap_eff in W (R501). -/
def capEff (s : State) : Rat := max 200 ((capBase s - s.power.derate) * (if s.power.fault then 9 / 10 else 1))

/-! ### Calibration (R497 to R499) -/

/-- Hold a rational within two ends. -/
def clampR (lo hi x : Rat) : Rat := if x < lo then lo else if hi < x then hi else x

/-- The mean of a list. -/
def meanR (l : List Rat) : Rat := if l.isEmpty then 0 else l.sum / (l.length : Nat)

/-- The least-squares line through (r, m) pairs: gain and offset. -/
def fitLine (h : List (Rat × Rat)) : Rat × Rat :=
  let n : Rat := (h.length : Nat)
  let sr := (h.map (·.1)).sum
  let sm := (h.map (·.2)).sum
  let srr := (h.map (fun e => e.1 * e.1)).sum
  let srm := (h.map (fun e => e.1 * e.2)).sum
  let g := (n * srm - sr * sm) / (n * srr - sr * sr)
  (g, (sm - g * sr) / n)

/-- Spread of the r values of the history. -/
def spreadR (h : List (Rat × Rat)) : Rat :=
  match h.map (·.1) with
  | [] => 0
  | x :: r => r.foldl max x - r.foldl min x

/-- Report a calibration value that has reached an end of its range, once per stay there (R497). -/
def calEnds (s : State) : State :=
  let p := s.power
  let g := p.gCal = 4 / 5 || p.gCal = 5 / 4
  let o := p.oCal = -100 || p.oCal = 100
  let s := if g && !p.gEnd then pwrCal 3 0xFF s else s
  let s := if o && !p.oEnd then pwrCal 4 0xFF s else s
  s.modPower fun p => { p with gEnd := g, oEnd := o }

/-- Calibrate the estimate against the measurement m (R497). -/
def calibrate (m : Rat) (s : State) : State :=
  let p := s.power
  let h := ((meanR (p.wins.map (·.r)), m) :: p.history).take 32
  let (gf, off) := if 50 ≤ spreadR h then fitLine h else (p.gCal, meanR (h.map (·.2)) - p.gCal * meanR (h.map (·.1)))
  calEnds (s.modPower fun p =>
    { p with
      history := h
      gCal := clampR (4 / 5) (5 / 4) (p.gCal + clampR (-(1 / 200)) (1 / 200) (gf - p.gCal))
      oCal := clampR (-100) 100 (p.oCal + clampR (-5) 5 (off - p.oCal)) })

/-- PWR_UNMEETABLE (Table PWR-9). -/
def unmeetRec (raised : Bool) (s : State) : State :=
  let c := capEff s
  let m := measured s
  let f := ((runningMgs s).map (fun e => e.2.f)).foldl max 0
  a6Rec 0x0104 [(20, 1, b2n raised), (22, 2, codeS 16 1 (m - c)), (24, 2, codeU 16 1 c), (26, 2, codeU 16 1 m), (28, 1, f), (29, 1, b2n (decide (32 < f)))] s

/-- Judge CAP_UNMEETABLE at an outer update (R508). -/
def judgeFloor (s : State) : State :=
  let p := s.power
  let rs := runningMgs s
  let beyond := decide (capEff s < measured s)
  if p.unmeetable then
    let run := if beyond then 0 else p.meetRun + 1
    if rs.isEmpty || 10 ≤ run then unmeetRec false (s.modPower fun p => { p with unmeetable := false, meetRun := 0, unmeetRun := 0 })
    else s.modPower fun p => { p with meetRun := run }
  else
    let run := if beyond && !rs.isEmpty && rs.all (fun e => e.2.n == 60) then p.unmeetRun + 1 else 0
    if 10 ≤ run then unmeetRec true (s.modPower fun p => { p with unmeetable := true, meetRun := 0, unmeetRun := 0 })
    else s.modPower fun p => { p with unmeetRun := run }

/-- OUTER_UPDATE, every 1 ms (R497, R499, R508); the measurement also feeds the module cycle's mean (R571). -/
def outerUpdate (s : State) : State :=
  let m := measured s
  let s := if s.power.framed then (if s.power.fault then s else calibrate m s) else s.modPower fun p => { p with pEst := m }
  let s := s.modPower fun p => { p with noA2 := !p.framed, framed := false }
  let s := s.modPump fun q => { q with powSum := q.powSum + (if s.power.fault then s.power.pEst else m), powN := q.powN + 1 }
  judgeFloor s

/-- DERATE_UPDATE, every 50 ms, from the inlet readings of the last 50 ms (R504). -/
def derateUpdate (s : State) : State :=
  let l := s.heat.inlet50
  let on := if s.power.derating then !(!l.isEmpty && l.all (fun t => t ≤ 38)) else !l.isEmpty && l.all (fun t => 40 < t)
  s.modPower fun p => { p with derating := on, derate := if on then (if l.isEmpty then p.derate else max 0 (25 * (meanR l - 40))) else 0 }

/-! ### Lock groups (R510 to R521) -/

/-- LOCK values with a running group on this module, with their F (R512). -/
def memberLocks (s : State) : List (Nat × Nat) :=
  ((runningMgs s).filterMap (fun e => if e.2.lock = 0 then none else some (e.2.lock, e.2.f))).foldr
    (fun e l => if l.any (fun x => x.1 == e.1) then l else e :: l) []

/-- The F of a LOCK on this module, 0 when it is no member. -/
def lockF (s : State) (l : Nat) : Nat := (((memberLocks s).find? (fun e => e.1 == l)).map (·.2)).getD 0

/-- n_lock(L) (R517). -/
def nLock (s : State) (l : Nat) : Nat :=
  (s.power.locks.filter (fun e => e.lock == l && e.counts)).foldl (fun v e => max v e.n) s.power.nOwn

/-- PWR_LOCK_EVENT (Table PWR-9). -/
def lockEvent (event lock f dsn : Nat) (s : State) : State :=
  a6Rec 0x0105 [(20, 1, event), (21, 1, lockF s lock), (22, 1, f), (24, 4, lock), (28, 8, dsn)] s

/-- Fields of a lock message (Table PWR-4). -/
def lockOf (m : Bytes) : Nat := fld m 16 4
def lockOrigin (m : Bytes) : Nat := fld m 24 8

/-- Links that are UP. -/
def upLinks (s : State) : List Nat := (List.range 16).filter (fun k => (s.link k).st == .up)

/-- Put a lock message into a link's queue: it replaces the waiting one of its pair and keeps its place (R520). -/
def queueLock (m : Bytes) (k : Nat) (s : State) : State :=
  let q := tget [] s.power.lockQ k
  let same := fun x => lockOf x == lockOf m && lockOrigin x == lockOrigin m
  s.modPower fun p => { p with lockQ := tput [] p.lockQ k (if q.any same then lmap q same (fun _ => m) else q ++ [m]) }

/-- Send the module's own lock message on every UP link (R512, R513). -/
def sendLock (kind lock f n : Nat) (s : State) : State :=
  let q := tget 0 s.power.lockSeq lock
  let m := mkShort kind 0 0 0 0 (packFlds 40 [(0, 4, lock), (4, 1, f), (5, 1, n), (6, 1, 4), (7, 1, b2n s.power.unmeetable),
    (8, 8, s.mgmt.fuses.dsn), (16, 2, q), (18, 6, s.ao.rowTime.toNat)])
  forEach (upLinks s) (queueLock m) (s.modPower fun p => { p with lockSeq := tput 0 p.lockSeq lock ((q + 1) % 65536) })

/-- Room for a new entry: 8 LOCK values and 512 origins (R519). -/
def lockRoom (s : State) (lock origin : Nat) : Bool :=
  let ls := (s.power.locks.map (·.lock)).eraseDups
  let os := (s.power.locks.map (·.origin)).eraseDups
  (ls.contains lock || decide (ls.length < 8)) && (os.contains origin || decide (os.length < 512))

/-- A lock message with its HOPS reduced by one. -/
def oneHopLess (m : Bytes) : Bytes := putAt m 22 [BitVec.ofNat 8 (byteAt m 22 - 1)]

/-- Take a lock message that came on link k (R514, R517 to R519). -/
def takeLock (k : Nat) (m : Bytes) (s : State) : State :=
  let l := lockOf m
  let o := lockOrigin m
  let old := s.power.locks.find? (fun e => e.lock == l && e.origin == o)
  let fresh := match old with
    | none => true
    | some e => decide (1 ≤ seqSub (fld m 32 2) e.seq) && decide (seqSub (fld m 32 2) e.seq ≤ 32767)
  if o = s.mgmt.fuses.dsn || !fresh then s
  else if old.isNone && !lockRoom s l o then
    let sec := s.now / ticksPerSecond
    if s.power.fullAt == some sec then s else lockEvent 5 l (byteAt m 20) o (s.modPower fun p => { p with fullAt := some sec })
  else
    let left := msgType m == 0x42
    let own := lockF s l
    let was := (old.map (·.counts)).getD false
    let told := (old.map (·.told)).getD false
    let clash := own != 0 && byteAt m 20 != own && !told
    let e : LockEntry := { lock := l, origin := o, seq := fld m 32 2, n := min 60 (byteAt m 21), f := byteAt m 20, capFlag := bit (byteAt m 23) 0,
                           counts := !left, left := left, told := told || clash }
    let s := s.modPower fun p => { p with locks := p.locks.filter (fun x => !(x.lock == l && x.origin == o)) ++ [e] }
    let s := if own != 0 && !left && !was then lockEvent 6 l e.f o s else s
    let s := if clash then lockEvent 4 l e.f o s else s
    if 1 < byteAt m 22 then forEach ((upLinks s).filter (fun j => j != k)) (queueLock (oneHopLess m)) s else s

/-- Act on the head of the inbound A5 buffer if it is of the type expected (R46). -/
def withA5 (ty : Nat) (act : Nat → Bytes → State → State) (s : State) : State :=
  match s.adit.a5in with
  | [] => s
  | (k, m) :: _ => if msgType m = ty then act k m (s.modAdit fun a => { a with a5in := a.a5in.drop 1 }) else s

/-- An origin unheard for 30 µs no longer counts (R517). -/
def lockSilent (lock origin : Nat) (s : State) : State :=
  match s.power.locks.find? (fun e => e.lock == lock && e.origin == origin && e.counts) with
  | none => s
  | some e =>
    let s := s.modPower fun p => { p with locks := lmap p.locks (fun x => x.lock == lock && x.origin == origin) (fun x => { x with counts := false }) }
    if lockF s lock != 0 then lockEvent 3 lock e.f origin s else s

/-- An entry is forgotten (R514). -/
def lockForget (lock origin : Nat) (s : State) : State :=
  s.modPower fun p => { p with locks := p.locks.filter (fun x => !(x.lock == lock && x.origin == origin)) }

/-- The first waiting lock message of a link enters A5 (R47, R520). -/
def lockSend (k : Nat) (s : State) : State :=
  match tget [] s.power.lockQ k with
  | [] => s
  | m :: r => if 64 ≤ s.adit.a5out.length || (s.link k).st != .up then s else a5Out k m (s.modPower fun p => { p with lockQ := tput [] p.lockQ k r })

/-! ### Throttle reasons (R522 to R524) -/

/-- The body of PWR_EPISODE, without REPLAY (Table PWR-9). -/
def episodeBody (code : Nat) (r : Reason) : List Fld :=
  let us := (r.stop - r.start).toNat / 100
  [(20, 1, code), (22, 1, r.peakN), (23, 1, codeU 8 (1 / 4) ((r.sumN : Nat) / (max 1 r.steps : Nat))), (24, 6, r.start.toNat), (30, 6, r.stop.toNat),
    (36, 4, min us 0xFFFFFFFF), (40, 2, r.lowCap), (42, 2, r.groups), (44, 2, twos 16 (clampI (-32768) 32767 r.peakOver))]

/-- What a step shows a reason: largest N of the running groups, cap_eff, p_est − cap_eff, and the bitmap of running groups. -/
structure StepView where
  n : Nat
  cap : Nat
  beyond : Int
  groups : Nat

/-- One step of a reason (R522, R523): credit it, open or extend its episode, or let an episode run out. -/
def reasonStep (code : Nat) (active : Bool) (us : Rat) (v : StepView) (s : State) : State :=
  let r := tget {} s.power.reasons code
  let put := fun (r : Reason) (s : State) => s.modPower fun p => { p with reasons := tput {} p.reasons code r }
  if active then
    let r := if r.active then r else { r with active := true, start := s.ao.rowTime, peakN := 0, sumN := 0, steps := 0, lowCap := v.cap, groups := 0, peakOver := v.beyond }
    put { r with us := r.us + us, idle := 0, peakN := max r.peakN v.n, sumN := r.sumN + v.n, steps := r.steps + 1, lowCap := min r.lowCap v.cap,
                 groups := r.groups ||| v.groups, peakOver := max r.peakOver v.beyond } s
  else if !r.active then s
  else
    let r := { r with stop := if r.idle = 0 then s.ao.rowTime else r.stop, idle := r.idle + 1 }
    if r.idle < 100 then put r s
    else
      let b := episodeBody code r
      a6Rec 0x0102 b (put { r with active := false, idle := 0, log := (b :: r.log).take 256 } s)

/-- THROTTLE_COUNTERS: four records of four counters each (R524). -/
def throttleCounters (telemetry : Bool) (s : State) : State :=
  forEach [0, 4, 8, 12] (fun c s =>
    a6Rec 0x0103 ((20, 1, c) :: (List.range 4).map (fun i => (24 + 8 * i, 8, ((tget {} s.power.reasons (c + i)).us.floor).toNat))) s telemetry) s

/-- A reason's log again, oldest first, with REPLAY = 1 (Table PWR-7). -/
def logReplay (code : Nat) (s : State) : State :=
  ((tget {} s.power.reasons code).log.reverse).foldl (fun s b => a6Rec 0x0102 (b ++ [(21, 1, 1)]) s) s

/-! ### Records (R528) -/

/-- The largest thermal or breach demand. -/
def heatDemand (s : State) : Nat := max (max s.heat.nDie s.heat.nStack) (max s.heat.nCoolant s.heat.nBreach)

/-- PWR_STATUS (Table PWR-9). -/
def pwrStatus (s : State) : State :=
  let p := s.power
  let flags := b2n p.fault + 2 * b2n s.mgmt.silent + 4 * b2n p.unmeetable + 8 * b2n p.noA2 + 16 * b2n p.derating + 32 * b2n (inCommand s 0).isNone
  let s := a6Rec 0x0101 [(20, 2, codeU 16 1 (capEff s)), (22, 2, p.cSet), (24, 2, codeU 16 1 (measured s)), (26, 2, codeU 16 1 p.pEst),
    (28, 2, codeU 16 (1 / 16384) p.gCal), (30, 2, codeS 16 1 p.oCal), (32, 1, p.nCap), (33, 1, heatDemand s), (34, 1, flags), (35, 1, b2n p.margin),
    (36, 2, p.lastReasons), (38, 2, codeU 16 1 (((p.rail : Nat) : Rat) / 200)), (40, 4, min s.adit.a2Overrun 0xFFFFFFFF),
    (44, 4, min s.adit.a5Dropped 0xFFFFFFFF), (48, 2, min s.adit.a1Clamped 0xFFFF)] s true
  s.modAdit fun a => { a with a2Overrun := 0, a5Dropped := 0, a1Clamped := 0 }

/-- PWR_LOCK_STATUS for each LOCK with a local member group (Table PWR-9). -/
def pwrLockStatus (s : State) : State :=
  (memberLocks s).foldl (fun s e =>
    a6Rec 0x0106 [(20, 2, (s.power.locks.filter (fun x => x.lock == e.1 && x.counts)).length), (22, 1, nLock s e.1), (23, 1, s.power.nOwn), (24, 4, e.1)] s true) s

/-- PWR_DROOP, in a second with a margin exceedance (R493). -/
def pwrDroop (s : State) : State :=
  if s.power.exceed = 0 then s
  else a6Rec 0x0108 [(20, 4, s.power.exceed), (24, 2, s.power.exceedGroups)] (s.modPower fun p => { p with exceed := 0, exceedGroups := 0 })

/-- A cluster's supply crosses below the droop threshold: one stretch event, or one exceedance in margin mode (R34, R492, R493). -/
def droop (c : Nat) (s : State) : State :=
  match (s.clus c).group with
  | none => s
  | some g =>
    if (s.group g).margin then s.modPower fun p => { p with exceed := p.exceed + 1, exceedGroups := p.exceedGroups ||| 2 ^ g }
    else s.modClus c fun k => { k with stretch := min 255 (k.stretch + 1) }

/-! ### Power policy commands (Table PWR-7) -/

/-- Set c_set, held within 350 to 1,400 W (R502); answers the status. -/
def setCapTo (w : Nat) (s : State) : Nat × State :=
  (if w < 350 || 1400 < w then 1 else 0, powerChanged (s.modPower fun p => { p with cSet := clampN 350 1400 w }))

/-- SET_CAP. -/
def polSetCap (s : State) : State :=
  policyRun 1 1 (allBits 24 2) (fun _ => none) (fun d s => let (st, s) := setCapTo (fld d 24 2) s; (st, 0, s)) s

/-- SET_MODE (R495). -/
def polSetMode (s : State) : State :=
  policyRun 1 2 [(24, 255)] (fun d => firstBad [(decide (1 < byteAt d 24), 24)])
    (fun d s => (0, 0, powerChanged (s.modPower fun p => { p with margin := byteAt d 24 == 1 }))) s

/-- LOCK_PERMIT (R510): the control plane updates its table when the acknowledgement returns OK. -/
def polLockPermit (s : State) : State :=
  policyRun 1 3 ([(24, 255), (25, 1)] ++ allBits 28 4) (fun d => firstBad [(decide (byteAt d 24 = 0), 24), (decide (fld d 28 4 = 0), 28)])
    (fun d s =>
      if byteAt d 25 = 0 && decide (64 ≤ s.cages.permits.length) && !s.cages.permits.contains (byteAt d 24, fld d 28 4) then (0x33, 0, s) else (0, 0, s)) s

/-- COUNTERS_NOW. -/
def polCounters (s : State) : State := policyRun 1 4 [] (fun _ => none) (fun _ s => (0, 0, throttleCounters false s)) s

/-- LOG_REPLAY. -/
def polLogReplay (s : State) : State :=
  policyRun 1 5 [(24, 255)] (fun d => firstBad [(decide (15 < byteAt d 24), 24)]) (fun d s => (0, 0, logReplay (byteAt d 24) s)) s

end Sys2Proof.Machine
end

