-- ==== Sys2Proof/Machine/Sensors.lean ====
section
/-! DEFINITION. Heat sensing: sensors, validation, zones, firmware thresholds, thermal demands and the dew margin (R529 to R543). -/

namespace Sys2Proof.Machine

/-- One sensor of Table HEAT-1. -/
def State.sensor (s : State) (i : Nat) : Sensor := tget {} s.heat.sensors i

/-- The newest raw code of a sensor. -/
def Sensor.raw (q : Sensor) : Option Int := q.hist.head?

/-- The valid reading of a sensor; a sensor that has not been read yet has none (log entry 45). -/
def sensorVal (s : State) (i : Nat) : Option Int := if (s.sensor i).valid then (s.sensor i).raw else none

/-! ### Validation (Table HEAT-2) -/

/-- The limits of Table HEAT-2 in the sensor's own units: range, rate, samples a rate is judged against, identical samples that make a reading stuck
(0: not checked), and samples that make 1 s (R531). Temperatures in sixteenths of a degree, flows in 0.01 L/min, pressure in kPa, humidity in %RH. -/
structure Limits where
  lo : Int
  hi : Int
  rate : Int
  win : Nat
  stuck : Nat
  sec : Nat

def limitsOf (i : Nat) : Limits :=
  if i < 16 then { lo := -640, hi := 2400, rate := 320, win := 1, stuck := 10000, sec := 1000 }
  else if i < 24 then { lo := -640, hi := 2000, rate := 80, win := 1, stuck := 30000, sec := 1000 }
  else if i < 28 then { lo := 0, hi := 1440, rate := 80, win := 10, stuck := 30000, sec := 100 }
  else if i < 30 then { lo := -500, hi := 800, rate := 200, win := 10, stuck := 30000, sec := 100 }
  else if i = 30 then { lo := -50, hi := 500, rate := 100, win := 10, stuck := 0, sec := 100 }
  else if i = 31 then { lo := 0, hi := 100, rate := 0, win := 0, stuck := 0, sec := 1 }
  else { lo := -32768, hi := 32767, rate := 0, win := 0, stuck := 0, sec := 1 }

/-- Whether the reference quantity of the stuck check has moved far enough over the run of identical codes: 100 W in mW for a die sensor,
50 % for a stack's access count, 1.0 K for the other element of a probe, 0.2 L/min for the other flow sensor. -/
def refMoved (i : Nat) (lo hi : Int) : Bool :=
  if i < 16 then decide (100000 < hi - lo)
  else if i < 24 then decide (3 * lo < 2 * hi)
  else if i < 28 then decide (16 < hi - lo)
  else decide (20 < hi - lo)

/-- SENSOR_FAULT (Table HEAT-6). -/
def sensorFault (i kind : Nat) (s : State) : State :=
  a6Rec 0x0202 [(20, 1, i), (21, 1, kind), (24, 2, twos 16 (((s.sensor i).raw).getD 0))] s

/-- Change one sensor. -/
def modSensor (i : Nat) (f : Sensor → Sensor) (s : State) : State :=
  s.modHeat fun h => { h with sensors := tput {} h.sensors i (f (tget {} h.sensors i)) }

/-- Which check a sample fails: 0 none, 1 range, 2 rate. -/
def badSample (i : Nat) (q : Sensor) (v : Int) : Nat :=
  let l := limitsOf i
  if v < l.lo || l.hi < v then 1
  else if (q.hist.take l.win).any (fun h => decide (l.rate < v - h) || decide (l.rate < h - v)) then 2 else 0

/-- A sensor after a read that answered. -/
def readSensor (i : Nat) (ref : Option Int) (v : Int) (q : Sensor) : Sensor :=
  let l := limitsOf i
  let bad := badSample i q v
  let same := q.raw == some v
  let q := if same then { q with same := q.same + 1, lo := min q.lo (ref.getD q.lo), hi := max q.hi (ref.getD q.hi) }
    else { q with same := 1, lo := ref.getD 0, hi := ref.getD 0, stuck := false }
  let stuck := q.stuck || (decide (l.stuck ≠ 0) && decide (l.stuck ≤ q.same) && refMoved i q.lo q.hi)
  let rr := q.rr || bad != 0
  { q with hist := (v :: q.hist).take 10, stuck := stuck, rr := rr, passRun := if bad != 0 then 0 else q.passRun + 1, valid := !stuck && !rr }

/-- Take one sample of a sensor, none where the read failed, with the reference quantity of its stuck check (R530, R531). -/
def takeSample (i : Nat) (x ref : Option Int) (s : State) : State :=
  let q := s.sensor i
  match x with
  | none =>
    let s := modSensor i (fun q => { q with valid := false, passRun := 0 }) s
    if q.valid then sensorFault i 4 s else s
  | some v =>
    let bad := badSample i q v
    let s := modSensor i (readSensor i ref v) s
    let now := (s.sensor i).valid
    if q.valid && !now then sensorFault i (if bad != 0 then bad else 3) s
    else if !q.valid && now then sensorFault i 6 s else s

/-- SENSOR_VALID_AGAIN: 1 s of passing samples has run (R531). -/
def sensorAgain (i : Nat) (s : State) : State :=
  let q := s.sensor i
  if q.rr && decide ((limitsOf i).sec ≤ q.passRun) then
    let s := modSensor i (fun q => { q with rr := false, valid := !q.stuck }) s
    if q.stuck then s else sensorFault i 6 s
  else s

/-! ### Zones (R533 to R535) -/

/-- The sensors of a zone: 0 DIE, 1 STACK_L, 2 STACK_R, 3 INLET, 4 OUTLET, 5 FLOW (Table HEAT-3). -/
def zoneSensors (z : Nat) : List Nat :=
  if z = 0 then List.range 16
  else if z = 1 then [16, 17, 18, 19]
  else if z = 2 then [20, 21, 22, 23]
  else if z = 3 then [24, 25] else if z = 4 then [26, 27] else [28, 29]

def State.zone (s : State) (z : Nat) : Zone := tget {} s.heat.zones z

def modZone (z : Nat) (f : Zone → Zone) (s : State) : State :=
  s.modHeat fun h => { h with zones := tput {} h.zones z (f (tget {} h.zones z)) }

/-- Valid sensors of a zone. -/
def zoneValid (s : State) (z : Nat) : Nat := ((zoneSensors z).filter (fun i => (s.sensor i).valid)).length

/-- Some zone is faulted. -/
def anyFaulted (s : State) : Bool := (List.range 6).any (fun z => (s.zone z).faulted)

/-- ZONE_FAULT (Table HEAT-6). -/
def zoneRec (z : Nat) (on : Bool) (s : State) : State :=
  a6Rec 0x0203 [(20, 1, z), (21, 1, b2n on), (22, 1, zoneValid s z), (24, 2, codeU 16 1 s.power.cZone)] s

/-- A zone is judged: fewer than 2 valid sensors fault it, and the first fault sets c_zone (R534, R535). -/
def judgeZone (z : Nat) (s : State) : State :=
  if (z = 1 || z = 2) && !s.sup.planes then s
  else if zoneValid s z < 2 then
    if (s.zone z).faulted then modZone z (fun q => { q with holds := false }) s
    else
      let cap := capEff s
      let first := !anyFaulted s
      let s := modZone z (fun _ => { faulted := true, holds := false }) s
      zoneRec z true (if first then s.modPower fun p => { p with cZone := 3 / 5 * cap } else s)
  else if (s.zone z).faulted then modZone z (fun q => { q with holds := true }) s else s

/-- A zone is no longer faulted; with none left c_zone returns to 1,400 W (R535). -/
def zoneClear (z : Nat) (s : State) : State :=
  let s := modZone z (fun _ => {}) s
  zoneRec z false (if anyFaulted s then s else s.modPower fun p => { p with cZone := 1400 })

/-- ZONE_RECOVERY: 2 valid sensors have been held for 5 s (R534). -/
def zoneRecover (z : Nat) (s : State) : State :=
  if (s.zone z).faulted && (s.zone z).holds && decide (2 ≤ zoneValid s z) then zoneClear z s else s

/-- The stack zones are not judged while MAIN is off (R534). -/
def stackZonesOff (s : State) : State := forEach [1, 2] (fun z s => if (s.zone z).faulted then zoneClear z s else s) s

/-- The largest of a list. -/
def maxI : List Int → Option Int
  | [] => none
  | a :: r => some (r.foldl max a)

/-- The valid readings of a set of sensors. -/
def readings (s : State) (l : List Nat) : List Int := l.filterMap (sensorVal s)

/-- The DIE zone value (Table HEAT-3). -/
def dieVal (s : State) : Option Int := maxI (readings s (List.range 16))

/-- The INLET or OUTLET zone value in °C, from the probe whose first element is sensor `i`: the mean, or the higher element under R532. -/
def probeVal (s : State) (i : Nat) : Option Rat :=
  match sensorVal s i, sensorVal s (i + 1) with
  | some a, some b => some (if tget false s.heat.disagree i then ((max a b : Int) : Rat) / 16 else ((a + b : Int) : Rat) / 32)
  | some a, none => some ((a : Rat) / 16)
  | none, some b => some ((b : Rat) / 16)
  | none, none => none

/-- The INLET zone value in °C. -/
def inletVal (s : State) : Option Rat := probeVal s 24

/-- The OUTLET zone value in °C. -/
def outletVal (s : State) : Option Rat := probeVal s 26

/-! ### Firmware thresholds (R537, R538) -/

def State.thr (s : State) (t : Nat) : Thr := tget {} s.heat.thrs t

def modThr (t : Nat) (f : Thr → Thr) (s : State) : State :=
  s.modHeat fun h => { h with thrs := tput {} h.thrs t (f (tget {} h.thrs t)) }

/-- The level of a threshold in °C (Table HEAT-4); thresholds 2 to 9 are the eight STACK_THROTTLE. -/
def thrLevel (t : Nat) : Rat := if t = 0 then 95 else if t = 1 then 105 else if t < 10 then 85 else if t = 10 then 60 else 40

/-- The value a threshold judges, none while no valid sensor of its zone reads (R536). -/
def thrValue (s : State) (t : Nat) : Option Rat :=
  if t < 2 then (dieVal s).map (fun v => (v : Rat) / 16)
  else if t < 10 then (sensorVal s (14 + t)).map (fun v => (v : Rat) / 16)
  else if t = 10 then outletVal s else inletVal s

/-- Judge a threshold at a new sample: the run towards a change begins, goes on or breaks; an invalid sample does neither (R537). -/
def judgeThr (t : Nat) (s : State) : State :=
  match thrValue s t with
  | none => s
  | some v => modThr t (fun q =>
      if q.active then { q with run := if v ≤ thrLevel t - 2 then .down else .none }
      else { q with run := if thrLevel t ≤ v then .up else .none }) s

/-- THRESHOLD_EVENT (Table HEAT-6). -/
def thrRec (t : Nat) (s : State) : State :=
  let q := s.thr t
  let code := if t < 2 then t else if t < 10 then 2 else t - 7
  a6Rec 0x0201 [(20, 1, code), (21, 1, if code = 2 then t - 2 else 0), (22, 1, b2n q.active), (24, 2, codeT ((thrValue s t).getD 0)),
    (28, 4, q.crossings), (32, 4, q.chatter)] s

/-- THRESHOLD_DWELL_EXPIRY: the run has lasted 50 ms (R537, R538). -/
def thrDwell (t : Nat) (s : State) : State :=
  match (s.thr t).run with
  | .none => s
  | .up =>
    let near := match (s.thr t).offAt with
      | some o => decide (s.now - o ≤ ticksPerSecond)
      | none => false
    thrRec t (modThr t (fun q => { q with active := true, run := .none, crossings := satAdd 0xFFFFFFFF q.crossings 1,
                                          chatter := satAdd 0xFFFFFFFF q.chatter (b2n near) }) s)
  | .down => thrRec t (modThr t (fun q => { q with active := false, run := .none, offAt := some s.now }) s)

/-- The threshold a THRESHOLD_EVENT code and stack name. -/
def thrIndex (code stack : Nat) : Nat := if code < 2 then code else if code = 2 then 2 + stack % 8 else code + 7

/-! ### Thermal bubble demands (R539, R540) -/

/-- One step of a demand: T and the setpoint in °C. -/
def demandStep (active : Bool) (t p : Rat) (n : Nat) : Nat :=
  if active && decide (p < t) then min 60 (n + ((t - p) * 2).ceil.toNat) else n - 1

/-- The hottest stack among those whose STACK_THROTTLE is active, in °C. -/
def hotStack (s : State) : Option Int := maxI (readings s (((List.range 8).filter (fun i => (s.thr (2 + i)).active)).map (· + 16)))

/-- THERMAL_DEMAND_UPDATE, every 1 ms; a demand without a valid reading keeps its value (R536, R539). -/
def thermalDemand (s : State) : State :=
  let die := match dieVal s with
    | some v => demandStep (s.thr 0).active ((v : Rat) / 16) 94 s.heat.nDie
    | none => s.heat.nDie
  let any := (List.range 8).any (fun i => (s.thr (2 + i)).active)
  let stk := match any, hotStack s with
    | true, some v => demandStep true ((v : Rat) / 16) 84 s.heat.nStack
    | true, none => s.heat.nStack
    | false, _ => s.heat.nStack - 1
  s.modHeat fun h => { h with nDie := die, nStack := stk }

/-! ### Samples (Table HEAT-1) -/

/-- Measured module power in mW, the reference of the die sensors' stuck check. -/
def measuredMw (s : State) : Int := ((s.power.regs.map (·.pin)).sum : Nat)

/-- DIE_SENSOR_SAMPLE: the 16 die diodes, none where a read failed. -/
def dieSample (xs : List (Option Int)) (s : State) : State :=
  let s := forEach (List.range 16) (fun i s => takeSample i (xs.getD i none) (some (measuredMw s)) s) s
  forEach [0, 1] judgeThr (judgeZone 0 s)

/-- The stack records of an A2 frame as samples of sensors 16 to 23 (R382, R383). -/
def stackSample (rs : List (Nat × Nat)) (s : State) : State :=
  let s := rs.zipIdx.foldl (fun s e =>
    takeSample (16 + e.2) (if e.1.1 = 0x8000 then none else some (sext 16 e.1.1)) (some ((e.1.2 : Nat) : Int)) s) s
  forEach ((List.range 8).map (· + 2)) judgeThr (forEach [1, 2] judgeZone s)

/-- Whether the elements of a probe differ by more than 2.0 K while both are valid (R532). -/
def judgeProbe (i : Nat) (s : State) : State :=
  let d := match sensorVal s i, sensorVal s (i + 1) with
    | some a, some b => decide (32 < a - b) || decide (32 < b - a)
    | _, _ => false
  s.modHeat fun h => { h with differ := tput false h.differ i d, disagree := if d then h.disagree else tput false h.disagree i false }

/-- PROBE_DISAGREE: the elements have differed for 1 s (R532). -/
def probeDisagree (i : Nat) (s : State) : State :=
  if tget false s.heat.differ i && !tget false s.heat.disagree i then
    sensorFault i 5 (s.modHeat fun h => { h with disagree := tput false h.disagree i true })
  else s

/-- Judge the dew margin at a new inlet value (R543). -/
def judgeDew (s : State) : State :=
  match inletVal s, s.heat.dewPoint with
  | some t, some d =>
    let dp : Rat := (d : Rat) / 16
    s.modHeat fun h => { h with dewRun := if h.dew then (if dp + 4 ≤ t then .down else .none) else (if t < dp + 2 then .up else .none) }
  | _, _ => s

/-- DEW_MARGIN_DWELL: the run has lasted 50 ms; the module takes no other action (R543). -/
def dewDwell (s : State) : State :=
  match s.heat.dewRun with
  | .none => s
  | r =>
    let on := r == .up
    a6Rec 0x0206 [(20, 1, b2n on), (22, 2, codeT (((s.heat.dewPoint.getD 0 : Int) : Rat) / 16)), (24, 2, codeT ((inletVal s).getD 0))]
      (s.modHeat fun h => { h with dew := on, dewRun := .none })

/-- HUMIDITY_SAMPLE: relative humidity with the dew point, and the air temperature. -/
def humiditySample (rh dew air : Option Int) (s : State) : State :=
  let s := takeSample 32 air none (takeSample 31 rh none s)
  if (s.sensor 31).valid then s.modHeat fun h => { h with dewPoint := if dew.isSome then dew else h.dewPoint } else s

/-- The coolant sensors read and validated, their zones and thresholds judged, the flows kept for the mass balance (R529, R582). -/
def coolantRead (x : CoolantIn) (s : State) : State :=
  let s := takeSample 25 x.tinB x.tinA (takeSample 24 x.tinA x.tinB s)
  let s := takeSample 27 x.toutB x.toutA (takeSample 26 x.toutA x.toutB s)
  let s := takeSample 29 x.qout x.qin (takeSample 28 x.qin x.qout s)
  let s := takeSample 30 x.dp none s
  let s := forEach [24, 26] judgeProbe s
  let s := forEach [3, 4, 5] judgeZone s
  let s := judgeDew (forEach [10, 11] judgeThr s)
  let s := s.modHeat fun h => { h with
    inlet50 := match inletVal s with
    | some t => (t :: h.inlet50).take 5
    | none => h.inlet50 }
  s.modPump fun q => { q with flows := q.flows ++ [(sensorVal s 28, sensorVal s 29)] }

end Sys2Proof.Machine
end

