-- ==== Sys2Proof/Machine/Coolant.lean ====
section
/-! DEFINITION. The pump as the coolant loop sees it: speed, skip bands, modes, AT_LIMIT, flow target and ratio step (R557 to R577). -/

namespace Sys2Proof.Machine

/-! ### Records and stores -/

/-- Queue a record store; one that waits for the same kind is replaced (R709). -/
def queueStore (kind : Nat) (body : List Int) (s : State) : State :=
  s.modMgmt fun m =>
    let same := fun j : StoreJob => j.kind == kind
    { m with jobs := if m.jobs.any same then lmap m.jobs same (fun j => { j with body := body }) else m.jobs ++ [{ kind := kind, body := body }] }

/-- LOOP_EVENT (Table PUMP-6). -/
def loopEvent (event : Nat) (v : Int) (s : State) : State := a6Rec 0x0305 [(20, 1, event), (22, 2, twos 16 v)] s

/-- PUMP_FAULT (Table PUMP-6). -/
def pumpFault (kind phase : Nat) (s : State) : State :=
  a6Rec 0x0302 [(20, 1, kind), (21, 1, phase), (22, 1, min 255 s.pump.attempts), (24, 2, s.pump.duty)] s

/-! ### Speed (R557, R564, R565) -/

/-- The measured speed in rpm, over one mechanical revolution of 12 zero crossings (R557). -/
def sMeas (s : State) : Rat :=
  let l := s.pump.crossings.take 12
  let sum := l.foldl (· + ·) 0
  if sum = 0 then 0 else (60000000000 * l.length : Nat) / (12 * sum : Nat)

/-- Edges of a skip band field (Table PUMP-3). -/
def bandLow (w : Nat) : Nat := bits w 15 0
def bandHigh (w : Nat) : Nat := bits w 31 16

/-- A band's own limits (R564). -/
def bandShape (w : Nat) : Bool :=
  decide (500 ≤ bandLow w) && decide (bandHigh w ≤ 6000) && decide (bandLow w + 50 ≤ bandHigh w) && decide (bandHigh w ≤ bandLow w + 300)

/-- Two bands overlap. -/
def bandMeets (a b : Nat) : Bool := decide (bandLow a < bandHigh b) && decide (bandLow b < bandHigh a)

/-- The valid bands, in order; of two that overlap the first holds (R564, log entry 47). -/
def validBands (l : List Nat) : List Nat := l.foldl (fun v w => if bandShape w && !v.any (bandMeets w) then v ++ [w] else v) []

/-- The bands that are ignored, as PUMP.INFO shows them (R564, Table PUMP-5). -/
def badBands (l : List Nat) : Nat :=
  (l.zipIdx.map (fun e => if e.1 != 0 && !(validBands l).contains e.1 then 2 ^ e.2 else 0)).sum

/-- Apply the skip bands to a speed: one strictly inside a band becomes its HIGH_RPM; also whether it was replaced (R565). -/
def skipBand (s : State) (x : Nat) : Nat × Bool :=
  match (validBands s.pump.skips).find? (fun w => decide (bandLow w < x) && decide (x < bandHigh w)) with
  | some w => (bandHigh w, true)
  | none => (x, false)

/-- Round a reference to 10 rpm, hold it within 500 to 6,000 rpm and apply the skip bands (R572). -/
def normSpeed (s : State) (x : Rat) : Nat × Bool := skipBand s (clampN 500 6000 (10 * (rne (x / 10)).toNat))

/-- The speed of the baseline point in progress (R577). -/
def captureSpeed (s : State) (c : Capture) : Nat := (skipBand s (2000 * (c.done.length + 1))).1

/-- The speed the ramp heads for: a capture's point, the set speed in SPEED mode, s_ref in FLOW mode (R570, R577); during the heat dump at least 4,500 rpm (R739). -/
def speedRef (s : State) : Nat :=
  let r := match s.pump.capture with
    | some c => captureSpeed s c
    | none => if s.pump.speedMode then (skipBand s s.pump.setSpeed).1 else s.pump.sRef
  if s.sup.dump == .run then (skipBand s (max 4500 r)).1 else r

/-- DIAG_DEFERRED: below 8 % duty in RUN, and throughout STALLED (R567). -/
def diagDeferred (s : State) : Bool := s.pump.st == .stalled || (s.pump.st == .run && decide (s.pump.duty < 320))

/-- Some phase has an open-phase verdict. -/
def phaseOpen (s : State) : Bool := s.pump.phases.any (·.open_)

/-- The measured speed is within 2 % of the speed target (R572, R575). -/
def nearTarget (s : State) : Bool :=
  let t := s.pump.target
  decide (sMeas s - t ≤ t / 50) && decide (t - sMeas s ≤ t / 50)

/-- The speed target is the highest the pump may hold (R575). -/
def topTarget (s : State) : Bool :=
  decide (s.pump.target = 6000) || (validBands s.pump.skips).any (fun w => bandHigh w == 6000 && decide (s.pump.target = ((bandLow w : Nat) : Rat)))

/-- AT_LIMIT (R575). -/
def atLimit (s : State) : Bool :=
  s.pump.st != .run || phaseOpen s || (topTarget s && nearTarget s) || decide (100 ≤ s.pump.limitMs) || s.pump.qTarget == s.pump.qMax || s.pump.speedMode

/-- A pump alarm stands (R569). -/
def pumpAlarm (s : State) : Bool := s.pump.st == .stalled || phaseOpen s || s.pump.ageLevel == 2

/-! ### Modes (R574) -/

/-- Put a control mode into force. -/
def applyMode (speed : Bool) (s : State) : State :=
  if s.pump.speedMode == speed then s
  else if speed then s.modPump fun q => { q with speedMode := true, target := sMeas s }
  else
    let r := normSpeed s (sMeas s)
    s.modPump fun q => { q with speedMode := false, sRef := r.1, atEdge := r.2 }

/-- Order a control mode; during KICK or STALLED it waits for RUN. -/
def setMode (speed : Bool) (s : State) : State :=
  if s.pump.st == .kick || s.pump.st == .stalled then s.modPump fun q => { q with modeWait := some speed } else applyMode speed s

/-- Abort a baseline capture: the mode before it resumes and the old baseline stays (R578). -/
def abortCapture (s : State) : State :=
  match s.pump.capture with
  | none => s
  | some c => setMode c.modeBefore (loopEvent 6 c.done.length (s.modPump fun q => { q with capture := none }))

/-- A coolant-policy value has changed (R503, R591). -/
def coolantChanged (s : State) : State := s.modMgmt fun m => { m with coolDirty := true }

/-! ### The flow target (R571, R572) -/

/-- C_v in kJ/(L·K) of the fluid selected (R550, R571). -/
def cvOf (fluid : Nat) : Rat := if fluid = 0 then 3978 / 1000 else 4160 / 1000

/-- The temperature rise allowed for, from ADMIT_DT and the inlet; without an inlet value ADMIT_DT alone (log entry 48). -/
def deltaT (s : State) (admitDt : Nat) : Rat :=
  match inletVal s with
  | some t => max 1 (min ((admitDt : Nat) : Rat) (58 - t))
  | none => max 1 ((admitDt : Nat) : Rat)

/-- The flow in 0.01 L/min that carries a power in W. -/
def flowFor (s : State) (dt w : Rat) : Rat := 6 * w / (cvOf s.pump.fluid * dt)

/-- The highest bin of a forecast. -/
def peakOf (l : List Nat) : Nat := l.foldl max 0

/-- q_target in 0.01 L/min (R571). -/
def flowTarget (s : State) : Nat :=
  let dt := deltaT s s.heat.admitDt
  let p := s.pump
  let m := if p.powN = 0 then (if s.power.fault then s.power.pEst else measured s) else p.powSum / (p.powN : Nat)
  let fc := (flowFor s dt ((peakOf s.heat.forecast : Nat) : Rat)).ceil.toNat
  let fb := (flowFor s dt (m - 30)).ceil.toNat
  let boost := if (s.thr 10).active || s.power.unmeetable then p.qMax else 0
  min p.qMax (max p.qMin (max fc (max fb (max p.qWard boost))))

/-- The ratio step of R572, in FLOW mode and RUN. -/
def ratioStep (s : State) : State :=
  let p := s.pump
  if p.speedMode || p.st != .run || !nearTarget s then s
  else match sensorVal s 28 with
    | none => s
    | some q =>
      let put := fun (x : Rat) => let r := normSpeed s x; s.modPump fun p => { p with sRef := r.1, atEdge := r.2 }
      if q < 20 then put ((p.sRef : Nat) + 1000)
      else
        let e : Rat := (p.qTarget : Nat) - (q : Rat)
        let dead : Rat := 3 * (p.qTarget : Nat) / 100
        if (e ≤ dead && -e ≤ dead) || (p.atEdge && decide (e < 0)) then s
        else
          let m := sMeas s
          put (clampR (m / 2) (2 * m) (m * (p.qTarget : Nat) / (q : Rat)))

/-- Compute q_target and take the ratio step. -/
def coolantControl (s : State) : State := ratioStep (s.modPump fun p => { p with qTarget := flowTarget s })

end Sys2Proof.Machine
end

