-- ==== Sys2Proof/Machine/Forecast.lean ====
section
/-! DEFINITION. Heat manifests, the forecast, thermal admission, breach policing and the A3 messages the management plane takes (R40, R544 to R554). -/

namespace Sys2Proof.Machine

/-! ### The manifest (Table BEAT-4, R545, R547) -/

/-- Segments of a manifest: BEATS and MEAN_W. -/
def segsOf (m : Bytes) : List (Nat × Nat) :=
  (List.range (fld m 0 2)).map (fun j => (fld m (16 + 12 * j) 6, fld m (22 + 12 * j) 2))

/-- HOLD_W of a manifest. -/
def holdW (m : Bytes) : Nat := fld m 4 2

/-- σ of a group (R545). -/
def sigma (g : MGroup) : Rat :=
  let mf := byteAt g.man 2
  let v : Rat := ((vNom g.f : Nat) : Rat) / ((vNom mf : Nat) : Rat)
  ((g.f : Nat) : Rat) / ((mf : Nat) : Rat) * v * v

/-- The segment a position lies in, in 1/128 beats; past the last segment, the last. -/
def segAt (pos : Nat) : Nat → Nat → List (Nat × Nat) → Nat
  | _, i, [] => i - 1
  | base, i, (b, _) :: r => if pos < 128 * (base + b) || r.isEmpty then i else segAt pos (base + b) (i + 1) r

/-- s(t) of a group. -/
def MGroup.seg (g : MGroup) (pos : Nat) : Nat := segAt pos 0 0 (segsOf g.man)

/-- The largest MEAN_W over segments a to b. -/
def meanOver (g : MGroup) (a b : Nat) : Nat := (((segsOf g.man).drop a).take (b + 1 - a)).foldl (fun v e => max v e.2) 0

/-! ### The forecast (R548) -/

/-- Program beats per ms in 1/128 beats, at the N applied (R547). -/
def beatRate (g : MGroup) : Nat := 12500 * g.f * (64 - g.n)

/-- Overlap of two ranges. -/
def spanOverlap (lo hi a b : Nat) : Nat := min hi b - max lo a

/-- The mean power of one group over the positions from lo to hi (R548): nothing after its modelled END. -/
def spanWatts (g : MGroup) (lo hi : Nat) : Nat → List (Nat × Nat) → Rat
  | _, [] => 0
  | base, (b, w) :: r =>
    let x : Rat := ((spanOverlap lo hi (128 * base) (128 * (base + b)) : Nat) : Rat) / ((hi - lo : Nat) : Rat)
    let mean : Rat := (if g.breach then 115 / 100 else 1) * ((w : Nat) : Rat)
    x * sigma g * (mean * ((64 - g.n : Nat) : Rat) / 64 + ((holdW g.man : Nat) : Rat) * ((g.n : Nat) : Rat) / 64) + spanWatts g lo hi (base + b) r

/-- One group's part of bin i. -/
def binWatts (g : MGroup) (i : Nat) : Rat :=
  let v := beatRate g
  spanWatts g (g.pos + 20 * i * v) (g.pos + 20 * (i + 1) * v) 0 (segsOf g.man)

/-- A forecast of the groups given: 25 bins of 20 ms, rounded up to whole watts (R548). -/
def forecastOf (s : State) (gs : List MGroup) : List Nat :=
  (List.range 25).map (fun i => (s.power.pFix + (gs.map (fun g => binWatts g i)).sum).ceil.toNat)

/-- An OFFER not yet released. -/
def MGroup.unreleased (g : MGroup) : Bool := g.st == .held || g.st == .ready

/-- The groups a forecast counts: every running group and every OFFER not yet released, refused or withdrawn (R548). -/
def counted (s : State) : List MGroup := (s.mgs.map (·.2)).filter (fun g => g.st == .running || g.unreleased)

/-! ### Readiness (R550) -/

/-- P_pk of an OFFER: running groups, and this and earlier unreleased OFFERs. -/
def pPk (s : State) (g : MGroup) : Nat :=
  peakOf (forecastOf s ((counted s).filter (fun x => x.st == .running || decide (x.ord ≤ g.ord))))

/-- Q_need of an OFFER in 0.01 L/min. -/
def qNeed (s : State) (g : MGroup) : Rat := max 120 (flowFor s (deltaT s g.dt) ((pPk s g : Nat) : Rat))

/-- Cooling readiness of an OFFER (R550). -/
def coolingReady (s : State) (g : MGroup) : Bool :=
  !anyFaulted s && s.heat.nDie == 0 && s.heat.nStack == 0 && s.heat.nCoolant == 0 &&
  (match sensorVal s 28, sensorVal s 29 with
   | some a, some b => decide (qNeed s g ≤ (a : Rat)) && decide (qNeed s g ≤ (b : Rat))
   | _, _ => false)

/-- The rail is at the level an OFFER needs (R491). -/
def railReady (s : State) (j : Nat) (g : MGroup) : Bool := decide (railNeed s j g ≤ s.power.rail)

/-- ADMIT_HOLD (Table HEAT-6). -/
def admitHold (j outcome : Nat) (g : MGroup) (s : State) : State :=
  a6Rec 0x0205 [(20, 1, j), (21, 1, outcome), (24, 4, min ((s.now - g.at_) / 100) 0xFFFFFFFF), (28, 2, min (pPk s g) 0xFFFF),
    (30, 2, codeS 16 1 (qNeed s g))] s false g.cage

/-- Send RELEASE for an OFFER; one that was held for cooling is recorded (R491, R551). -/
def releaseOffer (j : Nat) (s : State) : State :=
  match s.mg j with
  | none => s
  | some g =>
    let s := if g.hold then admitHold j (if g.timedOut then 2 else 1) g s else s
    a3Down (.release j) (s.modMg j fun g => { g with st := .released })

/-- An OFFER has become cooling-ready: RELEASE now, or once the rail is at its level (R491). -/
def nowReady (j : Nat) (timedOut : Bool) (s : State) : State :=
  let s := s.modMg j fun g => { g with st := .ready, timedOut := timedOut }
  match s.mg j with
  | none => s
  | some g => if railReady s j g then releaseOffer j s else s

/-- The order numbers of held OFFERs, with their groups, oldest first. -/
def heldGroups (s : State) : List (Nat × MGroup) :=
  sortBy (fun a b => decide (a.2.ord ≤ b.2.ord)) (s.mgs.filter (fun e => e.2.st == .held))

/-- Evaluate every held OFFER (R551). -/
def evalOffers (s : State) : State :=
  (heldGroups s).foldl (fun s e => match s.mg e.1 with
    | some g => if g.st == .held && coolingReady s g then nowReady e.1 false s else s
    | none => s) s

/-- Recompute the forecast, pass it to coolant control, and evaluate the held OFFERs (R549, R551, R571). -/
def deliverForecast (s : State) : State :=
  evalOffers (coolantControl (s.modHeat fun h => { h with forecast := forecastOf s (counted s) }))

/-! ### A3 messages to the management plane (R37, R40, R547, R551) -/

/-- Take the head of A3 when the test of a row recognises it. -/
def takeA3 {α : Type} (p : A3Msg → Option α) (act : α → State → State) (s : State) : State :=
  if !s.stew then s
  else match s.adit.a3up with
    | [] => s
    | m :: r => match p m with
      | some x => act x (s.modAdit fun a => { a with a3up := r })
      | none => s

/-- The content of an OFFER. -/
structure OfferMsg where
  group : Nat
  cage : Nat
  f : Nat
  lock : Nat
  man : Bytes

def isOffer : A3Msg → Option OfferMsg
  | .offer g c f l m => some { group := g, cage := c, f := f, lock := l, man := m }
  | _ => none

/-- Set one entry of the management plane's group table. -/
def setMg (j : Nat) (g : Option MGroup) (s : State) : State :=
  s.modHeat fun h => { h with groups := tput none h.groups j g }

/-- OFFER: a baseline capture aborts, the forecast is recomputed, and HOLD or RELEASE answers (R549, R551, R578). -/
def takeOffer (o : OfferMsg) (s : State) : State :=
  let h := s.heat
  let g : MGroup := { st := .held, cage := o.cage, f := o.f, lock := o.lock, man := o.man, ord := h.ord, at_ := s.now,
                      timeout := h.timeout, action := h.action, dt := h.admitDt }
  let s := setMg o.group (some g) ((abortCapture s).modHeat fun h => { h with ord := h.ord + 1 })
  let ready := g.timeout == 0 || coolingReady s g
  let s := s.modMg o.group fun g => { g with st := if ready then .ready else .held, hold := !ready }
  let s := if ready && railReady s o.group g then releaseOffer o.group s else a3Down (.hold o.group) s
  deliverForecast s

def isWithdraw : A3Msg → Option Nat
  | .withdraw g => some g
  | _ => none

/-- WITHDRAW: the OFFER is discarded; one the management plane does not hold is ignored (R40). -/
def takeWithdraw (j : Nat) (s : State) : State :=
  match s.mg j with
  | none => s
  | some g => if g.st == .running then s else deliverForecast (setMg j none s)

def isStart : A3Msg → Option (Nat × RowTime)
  | .start g t => some (g, t)
  | _ => none

/-- START: the manifest model begins at segment 0; the first running group of a LOCK joins it (R512, R547, R549). -/
def takeStart (j : Nat) (s : State) : State :=
  match s.mg j with
  | none => s
  | some g =>
    let first := g.lock != 0 && lockF s g.lock == 0
    let s := s.modMg j fun g => { g with st := .running, pos := 0, windows := 0, n := 0, past := [] }
    let s := if first then lockEvent 1 g.lock g.f s.mgmt.fuses.dsn (sendLock 0x40 g.lock g.f s.power.nOwn s) else s
    deliverForecast s

def isFinish : A3Msg → Option Nat
  | .finish g _ _ => some g
  | _ => none

/-- The breach action of a cage: 1 throttle, 0 report only (R554). -/
def breachAction (s : State) (c : Nat) : Nat := if s.heat.reportOnly.contains c then 0 else 1

/-- MANIFEST_BREACH (Table HEAT-6). -/
def breachRec (j : Nat) (on : Bool) (g : MGroup) (s : State) : State :=
  a6Rec 0x0204 [(20, 1, j), (21, 1, b2n on), (22, 1, min 255 (g.seg g.pos)), (23, 1, breachAction s g.cage), (24, 2, codeU 16 1 g.mean),
    (26, 2, codeU 16 1 g.allow), (28, 1, s.heat.nBreach)] s false g.cage

/-- A started program ends for the management plane: its breach clears, its LOCK membership may end (R38, R512, R552). -/
def dropMg (j : Nat) (s : State) : State :=
  match s.mg j with
  | none => s
  | some g =>
    let s := if g.breach then breachRec j false g s else s
    let s := setMg j none s
    if g.st == .running && g.lock != 0 && lockF s g.lock == 0 then
      lockEvent 2 g.lock g.f s.mgmt.fuses.dsn (sendLock 0x42 g.lock g.f 0 s)
    else s

/-- END: the group leaves the forecast and its lock group (R37, R512, R549). -/
def takeFinish (j : Nat) (s : State) : State := deliverForecast (dropMg j s)

/-- Every started program ends and every OFFER is discarded, at a compute-plane reset or when A3 goes idle (R38). -/
def endManifests (s : State) : State := deliverForecast (forEach (s.mgs.map (·.1)) dropMg s)

/-- THERMAL_TIMEOUT: a held OFFER has waited THERMAL_TIMEOUT (R551). -/
def thermalTimeout (j : Nat) (s : State) : State :=
  match s.mg j with
  | none => s
  | some g =>
    if g.st != .held then s
    else if coolingReady s g then nowReady j false s
    else if g.action = 0 then nowReady j true s
    else deliverForecast (setMg j none (a3Down (.refuse j) (admitHold j 3 g s)))

/-- RAIL_AT_LEVEL: VDD_CORE has reached what a cooling-ready OFFER needs (R491). -/
def railAtLevel (j : Nat) (s : State) : State :=
  match s.mg j with
  | none => s
  | some g => if g.st == .ready then releaseOffer j (s.modPower fun p => { p with rail := max p.rail (railNeed s j g) }) else s

/-! ### Breach checks (R552) -/

/-- Check one running group against its manifest allowance; the sums restart. -/
def checkGroup (j : Nat) (s : State) : State :=
  match s.mg j with
  | none => s
  | some g =>
    let now := g.seg g.pos
    let from_ := match g.past[9]? with
      | some p => g.seg p
      | none => 0
    let fresh := fun (g : MGroup) => { g with past := (g.pos :: g.past).take 10, dSum := 0, nSum := 0, wCount := 0 }
    if g.windows < 1000 || g.wCount = 0 then s.modMg j fresh
    else
      let ref := sigma g * ((meanOver g from_ now : Nat) : Rat)
      let nbar : Rat := ((g.nSum : Nat) : Rat) / ((g.wCount : Nat) : Rat)
      let mean := g.dSum / ((g.wCount : Nat) : Rat)
      let allow := 115 / 100 * (ref * (64 - nbar) / 64 + sigma g * ((holdW g.man : Nat) : Rat) * nbar / 64)
      let bad := decide (allow < mean)
      let g := fresh { g with ref := ref, mean := mean, allow := allow, passes := if bad then 0 else g.passes + 1 }
      if bad && !g.breach then
        let g := { g with breach := true }
        deliverForecast (breachRec j true g (setMg j (some g) s))
      else if g.breach && decide (10 ≤ g.passes) then
        let g := { g with breach := false }
        deliverForecast (breachRec j false g (setMg j (some g) s))
      else setMg j (some g) s

/-- BREACH_CHECK, every 10 ms. -/
def breachCheck (s : State) : State := forEach ((runningMgs s).map (·.1)) checkGroup s

/-! ### Heat policy commands and status (Tables HEAT-5 and HEAT-6) -/

/-- SET_ADMIT. -/
def polSetAdmit (s : State) : State :=
  policyRun 2 1 (allBits 24 4) (fun d => firstBad [(decide (1000 < fld d 24 2), 24), (decide (1 < byteAt d 26), 26), (decide (byteAt d 27 < 4 ∨ 20 < byteAt d 27), 27)])
    (fun d s => (0, 0, powerChanged (s.modHeat fun h => { h with timeout := fld d 24 2, action := byteAt d 26, admitDt := byteAt d 27 }))) s

/-- SET_BREACH. -/
def polSetBreach (s : State) : State :=
  policyRun 2 2 (allBits 24 2) (fun d => firstBad [(decide (1 < byteAt d 25), 25)])
    (fun d s => (0, 0, powerChanged (s.modHeat fun h =>
      { h with reportOnly := if byteAt d 25 = 0 then nadd h.reportOnly (byteAt d 24) else h.reportOnly.filter (fun c => c != byteAt d 24) }))) s

/-- The code of an optional temperature in °C; none is 0x8000 as R383 gives an invalid value. -/
def tempCode (x : Option Rat) : Nat := match x with
  | some t => codeT t
  | none => 0x8000

/-- The code of an optional signed reading; none is 0x8000 (log entry 49). -/
def readCode (x : Option Int) : Nat := match x with
  | some v => twos 16 (clampI (-32767) 32767 v)
  | none => 0x8000

/-- HEAT_STATUS (Table HEAT-6). -/
def heatStatus (telemetry : Bool) (s : State) : State :=
  let q := fun (x : Option Int) => tempCode (x.map (fun v => (v : Rat) / 16))
  let h := s.heat
  a6Rec 0x0207 [(20, 2, q (dieVal s)), (22, 2, q (maxI (readings s ((List.range 8).map (· + 16))))), (24, 2, tempCode (inletVal s)),
    (26, 2, tempCode (outletVal s)), (28, 2, readCode (sensorVal s 28)), (30, 2, readCode (sensorVal s 29)), (32, 2, readCode (sensorVal s 30)),
    (34, 2, q h.dewPoint), (36, 1, h.nDie), (37, 1, h.nStack), (38, 1, h.nCoolant), (39, 1, h.nBreach), (40, 2, min (peakOf h.forecast) 0xFFFF),
    (42, 1, ((List.range 6).map (fun z => if (s.zone z).faulted then 2 ^ z else 0)).sum), (43, 1, b2n h.dew)] s telemetry

/-- HEAT_NOW. -/
def polHeatNow (s : State) : State := policyRun 2 3 [] (fun _ => none) (fun _ s => (0, 0, heatStatus false s)) s

/-! ### Coolant demand and samples that evaluate OFFERs (R540, R551) -/

/-- COOLANT_DEMAND_UPDATE, every 20 ms; without a valid outlet reading the demand keeps its value (R536, R540). -/
def coolantDemand (s : State) : State :=
  match outletVal s with
  | none => s
  | some t => s.modHeat fun h => { h with nCoolant := demandStep ((s.thr 10).active && atLimit s) t 59 h.nCoolant }

/-- COOLANT_SENSOR_SAMPLE: the sensors, then every held OFFER (R551). -/
def coolantSample (x : CoolantIn) (s : State) : State := evalOffers (coolantRead x s)

end Sys2Proof.Machine
end

