-- ==== Sys2Proof/Machine/Inner.lean ====
section
/-! DEFINITION. The inner step: estimate, cap demand, attribution, breach demand, own demand, lock demands and A1 (R496, R505 to R507, R512, R517, R522, R546, R553). -/

namespace Sys2Proof.Machine

/-- What a window shows of one running group. -/
structure GView where
  j : Nat
  /-- a[j] in W. -/
  a : Rat
  /-- N applied in the window. -/
  n : Nat
  str : Nat
  clusters : Nat

/-- The cluster records of a group in a frame. -/
def A2Frame.ofGroup (fr : A2Frame) (j : Nat) : List A2Rec := fr.recs.filter (fun r => r.assigned && r.group == j)

/-- s of Table PWR-2, from the rail voltage. -/
def railScale (s : State) : Rat := let v : Rat := ((s.power.rail : Nat) : Rat) / 160000; v * v

/-- The view of a running group (R496): nanojoules over 10 µs. -/
def groupView (fr : A2Frame) (s : State) (e : Nat × MGroup) : GView :=
  let rs := fr.ofGroup e.1
  let nj : Nat := (rs.map (fun r => 28 * r.mx + 5 * r.vec + 6 * r.str)).sum
  { j := e.1, a := railScale s * ((nj : Nat) : Rat) / 20000, n := e.2.n, str := (rs.map (·.str)).sum, clusters := rs.length }

/-- d[j] (R546); where no group has a STR_BEAT or a cluster in the window, its share of k is left open (log entry 88). -/
def attributed (s : State) (vs : List GView) (v : GView) : Rat :=
  let all := (vs.map (·.str)).sum
  let cl := (vs.map (·.clusters)).sum
  let share : Rat := if all = 0 then (if cl = 0 then (((Config.zeroRatio 1 v.j).toNat : Nat) : Rat) / 255 else ((v.clusters : Nat) : Rat) / ((cl : Nat) : Rat)) else ((v.str : Nat) : Rat) / ((all : Nat) : Rat)
  s.power.gCal * (v.a + s.power.kStack * share)

/-- Take the stack part of a frame: k, and the stack sensors (R35, R496, R529). -/
def takeStacks (fr : A2Frame) (s : State) : State :=
  match fr.stks with
  | none => s
  | some rs => stackSample rs (s.modPower fun p => { p with kStack := 16 * (((rs.map (·.2)).sum : Nat) : Rat) / 10000000 })

/-- The share of bubbles of one window; with no power in its groups the ratio is left open (R496, log entry 88). -/
def Win.ratio (x : Win) : Rat := if x.a = 0 then (((Config.zeroRatio 0 0).toNat % 61 : Nat) : Rat) else x.an / x.a

/-- The estimate (R496). -/
def estimate (vs : List GView) (s : State) : State :=
  let sa := (vs.map (·.a)).sum
  let w : Win := { an := (vs.map (fun v => v.a * ((v.n : Nat) : Rat))).sum, a := sa, r := sa + s.power.kStack + 140 }
  s.modPower fun p =>
    let wins := (w :: p.wins).take 100
    let nbar := meanR (wins.map Win.ratio)
    let fix := p.gCal * 140 + p.oCal
    let u := (vs.map (fun v => v.a * 64 / (64 - ((v.n : Nat) : Rat)))).sum
    { p with wins := wins, framed := true, noA2 := false, pFix := fix, pEst := fix + p.gCal * (sa + p.kStack), pDyn0 := p.gCal * (u + p.kStack * 64 / (64 - nbar)) }

/-- The bubbles that bring the estimate to a cap (R505). -/
def capTarget (s : State) (cap : Rat) : Nat :=
  (clampI 0 60 (64 * (s.power.pFix + s.power.pDyn0 - cap) / s.power.pDyn0).ceil).toNat

/-- n_cap (R505). -/
def capDemand (s : State) : Nat :=
  if (runningMgs s).isEmpty || decide (s.power.pDyn0 = 0) then 0
  else
    let t := capTarget s (capEff s)
    if s.power.nCap < t then t
    else if capTarget s (98 / 100 * capEff s) < s.power.nCap then s.power.nCap - 1 else s.power.nCap

/-- A running group after a window: position, attribution and sums (R546, R547, R552). -/
def MGroup.window (d : Rat) (g : MGroup) : MGroup :=
  { g with pos := g.pos + 125 * g.f * (64 - g.n), windows := g.windows + 1, d := d, dSum := g.dSum + d, nSum := g.nSum + g.n, wCount := g.wCount + 1 }

/-- target[j] of a group under breach (R553): a group that draws nothing needs none, and one whose reference is 0 as well has a target left open (log entry 88). -/
def breachTarget (g : MGroup) : Nat :=
  let d0 := g.d * 64 / (64 - ((g.n : Nat) : Rat))
  if d0 = 0 then (if g.ref = 0 then (Config.zeroRatio 2 0).toNat % 61 else 0)
  else (clampI 0 60 (64 * (d0 - 115 / 100 * g.ref) / d0).ceil).toNat

/-- n_breach (R553). -/
def breachDemand (s : State) : Nat :=
  let under := ((runningMgs s).map (·.2)).filter (·.breach)
  let ts := (under.filter (fun g => breachAction s g.cage == 1)).map breachTarget
  let top := ts.foldl max 0
  let n := s.heat.nBreach
  if under.isEmpty then 0 else if n < top then top else if ts.all (fun t => decide (t < n)) then n - 1 else n

/-- N of a running group (R506): 60 while CAP_UNMEETABLE stands (R509). -/
def groupN (s : State) (g : MGroup) : Nat := if s.power.unmeetable then 60 else min 60 (if g.lock = 0 then s.power.nOwn else nLock s g.lock)

/-- The A1 word: N for each running group and the module's droop mode for every group (R29, R495, R506). -/
def a1Word (s : State) : BitVec 112 :=
  BitVec.ofNat 112 (((List.range 16).map (fun j =>
    let n := match s.mg j with
      | some g => if g.st == .running then groupN s g else 0
      | none => 0
    (n + 64 * b2n s.power.margin) * 2 ^ (7 * j))).sum)

/-- The reasons of Table PWR-5 that are judged at a step, with what each adds in µs. -/
def stepReasons (fr : A2Frame) (gap : Rat) (s : State) : List (Nat × Bool × Rat) :=
  let p := s.power
  let ns := (runningMgs s).map (fun e => groupN s e.2)
  let cap := decide (1 ≤ p.nCap) && ns.contains p.nCap
  let th := fun n => decide (1 ≤ n) && ns.contains n
  let base := capBase s
  let stretch : Rat := ((runningMgs s).map (fun e => (((fr.ofGroup e.1).map (·.stretch)).sum : Nat) * (6 / 100 : Rat) / ((e.2.f : Nat) : Rat))).sum
  [ (0, cap && decide (((p.cSet : Nat) : Rat) = base), 10),
    (1, cap && decide (((p.cRow : Nat) : Rat) = base), 10),
    (2, cap && decide (p.cZone = base), 10),
    (3, cap && decide (cIn s = base), 10),
    (4, cap && decide (0 < p.derate), 10),
    (5, cap && p.fault, 10),
    (6, th s.heat.nDie, 10),
    (7, th s.heat.nStack, 10),
    (8, th s.heat.nCoolant, 10),
    (9, th s.heat.nBreach, 10),
    (10, (runningMgs s).any (fun e => e.2.lock != 0 && decide (p.nOwn < nLock s e.2.lock)), 10),
    (11, decide (0 < gap), gap),
    (12, p.unmeetable, 10),
    (13, decide (0 < stretch), stretch),
    (14, s.mgs.any (fun e => e.2.st == .held), 10),
    (15, s.mgs.any (fun e => e.2.st == .ready), 10) ]

/-- INNER_STEP on an A2 frame: the estimate and every demand, then A1, the lock demands and the throttle reasons. -/
def innerFrame (fr : A2Frame) (s : State) : State :=
  let s := takeStacks fr s
  let vs := (runningMgs s).map (groupView fr s)
  let s := estimate vs s
  let s := vs.foldl (fun s v => s.modMg v.j (fun g => g.window (attributed s vs v))) s
  let s := s.modPower fun p => { p with nCap := capDemand s }
  let s := s.modHeat fun h => { h with nBreach := breachDemand s }
  let s := s.modPower fun p => { p with nOwn := min 60 (max p.nCap (heatDemand s)) }
  let gap : Rat := match s.power.lastA1 with
    | none => 0
    | some t => let d := (s.ao.rowTime - t).toNat; if d ≤ 10000 then 0 else ((d - 10000 : Nat) : Rat) / 100
  let rs := stepReasons fr gap s
  let view : StepView := { n := ((runningMgs s).map (fun e => groupN s e.2)).foldl max 0, cap := codeU 16 1 (capEff s), beyond := rne (s.power.pEst - capEff s),
                           groups := ((runningMgs s).map (fun e => 2 ^ e.1)).sum }
  let s := rs.foldl (fun s r => reasonStep r.1 r.2.1 r.2.2 view s) s
  let s := s.modPower fun p => { p with lastReasons := (rs.map (fun r => if r.2.1 then 2 ^ r.1 else 0)).sum, lastA1 := some s.ao.rowTime, cycleN := max p.cycleN view.n }
  let w := a1Word s
  let s := (runningMgs s).foldl (fun s e => s.modMg e.1 (fun g => { g with n := groupN s g })) s
  let s := s.modAdit fun a => { a with a1 := some w }
  (memberLocks s).foldl (fun s e => sendLock 0x41 e.1 e.2 s.power.nOwn s) s

/-- INNER_STEP: the management plane takes the newest A2 frame (R36, R505). -/
def innerStep (s : State) : State :=
  if !s.stew || s.adit.a2Taken then s
  else match s.adit.a2 with
    | none => s
    | some fr => innerFrame fr (s.modAdit fun a => { a with a2Taken := true, a1Clamped := satAdd 65535 a.a1Clamped fr.clamped })

end Sys2Proof.Machine
end

