-- ==== Sys2Proof/Machine/Pump.lean ====
section
/-! DEFINITION. The pump drive, its diagnosis, the ageing index, the mass balance and the coolant policy commands (R557 to R593). -/

namespace Sys2Proof.Machine

/-! ### Drive states (R559 to R562) -/

/-- Start a kick: full duty, forced commutation. -/
def startKick (s : State) : State :=
  s.modPump fun q => { q with st := .kick, duty := 4000, zcRun := 0, zcSeen := false, crossings := [] }

/-- Enter STALLED: the bridge goes off and PUMP_FAULT is written with the duty at the event (R561). -/
def enterStalled (kind : Nat) (s : State) : State :=
  let s := abortCapture (pumpFault kind 0 s)
  s.modPump fun q => { q with st := .stalled, duty := 0, crossings := [], zcRun := 0, zcSeen := false, slow := false, runMs := 0, limitMs := 0,
                              span := { q.span with spoilt := true } }

/-- RUN begins after a successful kick: the duty of R560, a ramp from the measured speed, and a mode that waited (R574). -/
def runBegins (s : State) : State :=
  let s := s.modPump fun q => { q with st := .run, duty := q.duty500.getD 600, target := sMeas s, runMs := 0, limitMs := 0, zcSeen := true, slow := false }
  let s := pumpFault 4 0 s
  match s.pump.modeWait with
  | none => s
  | some m => applyMode m (s.modPump fun q => { q with modeWait := none })

/-! ### Open phases (R566 to R568) -/

/-- One check of a phase, with its current in mA. -/
def checkPhase (i ma : Nat) (s : State) : State :=
  let p := s.pump.phases.getD i {}
  if ma < 100 then
    let s := s.modPump fun q => { q with phases := lmod q.phases i (fun p => { p with bad := p.bad + 1, good := 0 }) }
    if !p.open_ && decide (3 ≤ p.bad + 1) then
      pumpFault 5 i (s.modPump fun q => { q with phases := lmod q.phases i (fun p => { p with open_ := true }) })
    else s
  else
    let s := s.modPump fun q => { q with phases := lmod q.phases i (fun p => { p with bad := 0, good := if p.open_ then p.good + 1 else 0 }) }
    if p.open_ && decide (10 ≤ p.good + 1) then
      pumpFault 6 i (s.modPump fun q => { q with phases := lmod q.phases i (fun p => { p with open_ := false, good := 0 }) })
    else s

/-- The undriven phase of each commutation step. -/
def undriven (step : Nat) : Nat := [2, 1, 0, 2, 1, 0].getD (step % 6) 0

/-- BEMF_ZERO_CROSSING: a crossing `ns` after the one before, with the phase currents in mA at the end of the step's on-time. It commutates, measures speed,
ends a kick at the sixth in a row (R557, R560), and checks the driven phases while the on-time is at least 2 µs (R566). -/
def zeroCrossing (ns : Nat) (ma : List Nat) (s : State) : State :=
  if s.pump.st != .kick && s.pump.st != .run then s
  else
    let un := undriven s.pump.step
    let s := s.modPump fun q => { q with crossings := (ns :: q.crossings).take 12, zcRun := q.zcRun + 1, zcSeen := true, step := (q.step + 1) % 6 }
    let s := if 320 ≤ s.pump.duty then forEach ((List.range 3).filter (fun i => i != un)) (fun i s => checkPhase i (ma.getD i 0) s) s else s
    let s := s.modPump fun q => { q with slow := decide (sMeas s < 300) }
    if s.pump.st == .kick && decide (6 ≤ s.pump.zcRun) then runBegins s else s

/-- KICK_TIMEOUT: 400 ms without 6 valid crossings (R560). -/
def kickTimeout (s : State) : State := if s.pump.st == .kick then enterStalled 3 s else s

/-- STALL_DETECT: no crossing for 50 ms, or a speed below 300 rpm for 100 ms (R561). -/
def stallDetect (s : State) : State :=
  if s.pump.st != .run then s
  else if !s.pump.zcSeen || s.pump.slow then enterStalled 1 s
  else s.modPump fun q => { q with zcSeen := false }

/-- PUMP_OVERCURRENT: the bridge goes off; RUN or KICK ends (R557, R561). -/
def pumpOvercurrent (s : State) : State := if s.pump.st == .run || s.pump.st == .kick then enterStalled 2 s else s

/-- STALL_RETRY (R562). -/
def stallRetry (s : State) : State :=
  if s.pump.st == .stalled then startKick (s.modPump fun q => { q with attempts := q.attempts + 1 }) else s

/-- DIAG_PULSE: one diagnostic pulse to each phase in turn, with its current (R567). -/
def diagPulse (ma : List Nat) (s : State) : State :=
  if diagDeferred s then forEach (List.range 3) (fun i s => checkPhase i (ma.getD i 0) s) s else s

/-! ### The speed loop (R573, R577, R579, R795) -/

/-- The mean inlet temperature of a baseline. -/
def baseInlet (l : List BasePoint) : Rat := meanR (l.map (·.inlet))

/-- Whether the inlet and the fluid are those an ageing evaluation asks for (R579). -/
def ageingFits (s : State) : Bool :=
  match inletVal s with
  | some t => let b := baseInlet s.pump.baseline
              decide (t - b ≤ 5) && decide (b - t ≤ 5) && s.pump.baseline.all (fun p => p.fluid == s.pump.fluid)
  | none => false

/-- One millisecond of a capture: the last 10 s of the 15 s at the point's speed are averaged. -/
def captureMs (s : State) (c : Capture) : Capture :=
  if s.pump.target != ((captureSpeed s c : Nat) : Rat) then c
  else
    let c := { c with ms := c.ms + 1 }
    if c.ms ≤ 5000 then c
    else match inletVal s with
      | some t => { c with dutySum := c.dutySum + s.pump.duty, inletSum := c.inletSum + t, inletN := c.inletN + 1 }
      | none => { c with dutySum := c.dutySum + s.pump.duty }

/-- One millisecond of the ageing span. -/
def spanMs (s : State) (a : AgeSpan) : AgeSpan :=
  let v := (sMeas s).floor.toNat
  { n := a.n + 1, speedSum := a.speedSum + v, speedMin := if a.n = 0 then v else min a.speedMin v, speedMax := max a.speedMax v,
    dutySum := a.dutySum + s.pump.duty, spoilt := a.spoilt || !ageingFits s }

/-- SPEED_LOOP in RUN: the target ramps, and the duty takes a value within 0 to 4,000 that the spec leaves to the law (R795).
`limited` says that the RUN current limit acted in every PWM period of the last 1 ms (R575). -/
def speedLoop (limited : Bool) (s : State) : State :=
  if s.pump.st != .run || !s.stew then s
  else
    let (d, s) := drawBelow 4001 s
    let r : Rat := ((speedRef s : Nat) : Rat)
    let s := s.modPump fun q =>
      let t := q.target
      let t := if t < r then min r (t + ((q.up : Nat) : Rat) / 1000) else max r (t - ((q.down : Nat) : Rat) / 1000)
      { q with target := t, duty := d, duty500 := if t = 500 then some d else q.duty500, limitMs := if limited then q.limitMs + 1 else 0,
               runMs := min 60000 (q.runMs + 1), attempts := if 60000 ≤ q.runMs + 1 then 0 else q.attempts }
    s.modPump fun q => { q with capture := q.capture.map (captureMs s), span := spanMs s q.span }

/-! ### Ageing (R579, R580) -/

/-- The expected duty at a speed, between the neighbouring baseline points. -/
def expectedDuty : List BasePoint → Rat → Option Rat
  | a :: b :: r, v =>
    if ((a.rpm : Nat) : Rat) ≤ v && v ≤ ((b.rpm : Nat) : Rat) then
      some (a.duty + (b.duty - a.duty) * (v - ((a.rpm : Nat) : Rat)) / (((b.rpm : Nat) : Rat) - ((a.rpm : Nat) : Rat)))
    else expectedDuty (b :: r) v
  | _, _ => none

/-- The ageing index, none before an evaluation. -/
def ageIndex (s : State) : Option Rat := if s.pump.evals.isEmpty then none else some (meanR s.pump.evals)

/-- The level an index leads to (R580). -/
def ageLevelOf (level : Nat) (x : Rat) : Nat :=
  if (30 : Rat) / 100 ≤ x || (level == 2 && decide ((28 : Rat) / 100 ≤ x)) then 2
  else if (15 : Rat) / 100 ≤ x || (level != 0 && decide ((13 : Rat) / 100 ≤ x)) then 1 else 0

/-- PUMP_AGEING (Table PUMP-6). -/
def pumpAgeing (s : State) : State :=
  a6Rec 0x0303 [(20, 1, s.pump.ageLevel), (22, 2, codeS 16 (1 / 1000) ((ageIndex s).getD 0)), (24, 2, s.pump.ageSpeed)] s

/-- Measured duty over expected duty (R579); a baseline duty of 0 leaves the ratio open (log entry 88). -/
def dutyRatio (m e : Rat) : Rat := if e = 0 then (((Config.zeroRatio 3 0).toNat : Nat) : Rat) else m / e

/-- AGEING_EVALUATION, every 10 s: a span that qualifies gives an evaluation (R579, R580). -/
def ageingEval (s : State) : State :=
  let a := s.pump.span
  let s := s.modPump fun q => { q with span := {} }
  let mean : Rat := ((a.speedSum : Nat) : Rat) / ((a.n : Nat) : Rat)
  if a.n = 0 || a.spoilt || s.pump.st != .run || decide (((a.speedMax : Nat) : Rat) > mean * 101 / 100) || decide (((a.speedMin : Nat) : Rat) < mean * 99 / 100) then s
  else match expectedDuty s.pump.baseline mean with
    | none => s
    | some e =>
      let s := s.modPump fun q => { q with evals := ((dutyRatio (((a.dutySum : Nat) : Rat) / ((a.n : Nat) : Rat)) e - 1) :: q.evals).take 16, ageSpeed := (rne mean).toNat }
      let l := ageLevelOf s.pump.ageLevel ((ageIndex s).getD 0)
      if l = s.pump.ageLevel then s else pumpAgeing (s.modPump fun q => { q with ageLevel := l })

/-- The pump-baseline record: each point's speed, duty, inlet and fluid, rationals as numerator and denominator. -/
def baselineBody (l : List BasePoint) : List Int :=
  l.flatMap (fun p => [((p.rpm : Nat) : Int), p.duty.num, (p.duty.den : Int), p.inlet.num, (p.inlet.den : Int), ((p.fluid : Nat) : Int)])

/-- BASELINE_POINT: 15 s at a point have run; after the third the baseline is in force and stored (R577). -/
def baselinePoint (s : State) : State :=
  match s.pump.capture with
  | none => s
  | some c =>
    if c.ms < 15000 then s
    else
      let p : BasePoint := { rpm := captureSpeed s c, duty := ((c.dutySum : Nat) : Rat) / 10000,
                             inlet := if c.inletN = 0 then 0 else c.inletSum / ((c.inletN : Nat) : Rat), fluid := s.pump.fluid }
      let done := c.done ++ [p]
      if done.length < 3 then s.modPump fun q => { q with capture := some { done := done, modeBefore := c.modeBefore } }
      else
        let s := s.modPump fun q => { q with capture := none, baseline := done, evals := [] }
        setMode c.modeBefore (loopEvent 5 3 (queueStore 3 (baselineBody done) s))

/-! ### Flows and the mass balance (R582 to R589) -/

/-- Both flows read below −0.05 L/min. -/
def flowsReverse (s : State) : Bool :=
  match sensorVal s 28, sensorVal s 29 with
  | some a, some b => decide (a < -5) && decide (b < -5)
  | _, _ => false

/-- REVERSE_FLOW_DETECT: 2 s have run (R588). -/
def reverseDetect (s : State) : State :=
  if flowsReverse s && !s.pump.reverse then loopEvent 1 ((sensorVal s 28).getD 0) (s.modPump fun q => { q with reverse := true }) else s

/-- The inlet flow lies below 0.9 × q_min. -/
def flowLow (s : State) : Bool :=
  match sensorVal s 28 with
  | some a => decide (10 * a < 9 * ((s.pump.qMin : Nat) : Int))
  | none => false

/-- LOW_FLOW_DETECT: 5 s have run at AT_LIMIT (R589). -/
def lowFlowDetect (s : State) : State :=
  if flowLow s && atLimit s && !s.pump.lowTold then loopEvent 2 ((sensorVal s 28).getD 0) (s.modPump fun q => { q with lowTold := true, lowOk := 0 }) else s

/-- The inlet flow is valid and at or above q_min. -/
def flowOk (s : State) : Bool :=
  match sensorVal s 28 with
  | some a => decide (((s.pump.qMin : Nat) : Int) ≤ a)
  | none => false

/-- LEAK_BLIND follows the tape fault and the suspension; each change is recorded (R585). -/
def judgeBlind (s : State) : State :=
  let b := s.pump.tapeFault && s.pump.suspended
  if b == s.pump.blind then s else loopEvent (if b then 3 else 4) 0 (s.modPump fun q => { q with blind := b })

/-- The tolerance of R582 in 0.01 L/min. -/
def massTolerance (qin : Rat) : Rat := 3 / 100 * (if qin < 0 then -qin else qin) + 5

/-- The two flow means of a module cycle, none where a sample is invalid or missing (R582, R583). -/
def cycleFlows (s : State) : Option (Rat × Rat) :=
  let l := s.pump.flows
  if l.isEmpty || l.any (fun e => e.1.isNone || e.2.isNone) then none
  else some (meanR (l.map (fun e => ((e.1.getD 0 : Int) : Rat))), meanR (l.map (fun e => ((e.2.getD 0 : Int) : Rat))))

/-- LEAK_VERDICT (Table PUMP-6). -/
def leakRec (source : Nat) (on : Bool) (s : State) : State :=
  a6Rec 0x0304 [(20, 1, source), (21, 1, b2n on), (22, 2, readCode (sensorVal s 28)), (24, 2, readCode (sensorVal s 29)),
    (26, 2, codeU 16 1 (massTolerance (((sensorVal s 28).getD 0 : Int) : Rat)))] s

/-- Latch a leak verdict, write it to the store and record it; a verdict that stands stays (R581, R586). -/
def latchLeak (source : Nat) (s : State) : State :=
  if s.pump.leak != 0 then s
  else leakRec source true (queueStore 4 [((source : Nat) : Int)] (abortCapture (s.modPump fun q => { q with leak := source })))

/-- The mass balance of a module cycle: the counts of R582, R583 and R586. The 100th cycle in a row that exceeds tolerance latches the verdict,
and the steward asserts the leak trip source. -/
def massBalance (s : State) : State :=
  match cycleFlows s with
  | none => judgeBlind (s.modPump fun q => { q with overRun := 0, okRun := 0, suspended := true, flows := [] })
  | some (a, b) =>
    let beyond := decide (massTolerance a < a - b) || decide (massTolerance a < b - a)
    let s := judgeBlind (s.modPump fun q =>
      { q with overRun := if beyond then q.overRun + 1 else 0, okRun := if beyond then 0 else min 100 (q.okRun + 1), suspended := false, flows := [] })
    if beyond && decide (100 ≤ s.pump.overRun) && !(s.zone 5).faulted then
      (latchLeak 2 s).modAo fun a => { a with massTrip := true }
    else s

/-- What the pump block does at a module cycle: the forecast delivery with the mean power of the cycle, the mass balance, and the runs of R588 and R589. -/
def pumpCycle (s : State) : State :=
  let s := deliverForecast s
  let s := s.modPower fun p => { p with lastN := p.cycleN, cycleN := 0 }
  let s := massBalance (s.modPump fun q => { q with powSum := 0, powN := 0, powMean := if q.powN = 0 then q.powMean else q.powSum / ((q.powN : Nat) : Rat) })
  let s := s.modPump fun q => { q with reverse := q.reverse && flowsReverse s, lowOk := if flowOk s then min 250 (q.lowOk + 1) else 0 }
  s.modPump fun q => { q with lowTold := q.lowTold && decide (q.lowOk < 250) }

/-- TAPE_LOOP_CHECK, every 100 ms (R92, R585). -/
def tapeCheck (open_ : Bool) (s : State) : State :=
  if open_ == s.pump.tapeFault then s
  else judgeBlind (loopEvent (if open_ then 8 else 9) 0 (s.modPump fun q => { q with tapeFault := open_ }))

/-! ### Coolant policy commands (Table PUMP-4) -/

/-- SET_PUMP_MODE. -/
def polPumpMode (s : State) : State :=
  policyRun 3 1 (allBits 24 1) (fun d => firstBad [(decide (1 < byteAt d 24), 24)])
    (fun d s => (0, 0, coolantChanged (setMode (byteAt d 24 == 1) (abortCapture s)))) s

/-- SET_SPEED. -/
def polSetSpeed (s : State) : State :=
  policyRun 3 2 (allBits 24 2) (fun d => firstBad [(decide (fld d 24 2 < 500 ∨ 6000 < fld d 24 2), 24)])
    (fun d s => (0, 0, coolantChanged ((abortCapture s).modPump fun q => { q with setSpeed := fld d 24 2 }))) s

/-- SET_FLOW_LIMITS. -/
def polFlowLimits (s : State) : State :=
  policyRun 3 3 (allBits 24 4)
    (fun d => firstBad [(decide (fld d 24 2 < 120 ∨ 350 < fld d 24 2 ∨ fld d 26 2 < fld d 24 2), 24), (decide (fld d 26 2 < 120 ∨ 350 < fld d 26 2), 26)])
    (fun d s => (0, 0, coolantChanged (s.modPump fun q => { q with qMin := fld d 24 2, qMax := fld d 26 2 }))) s

/-- SET_RAMP. -/
def polSetRamp (s : State) : State :=
  policyRun 3 4 (allBits 24 4)
    (fun d => firstBad [(decide (fld d 24 2 < 1000 ∨ 30000 < fld d 24 2), 24), (decide (fld d 26 2 < 500 ∨ 10000 < fld d 26 2), 26)])
    (fun d s => (0, 0, coolantChanged (s.modPump fun q => { q with up := fld d 24 2, down := fld d 26 2 }))) s

/-- SET_FLUID; a change is recorded. -/
def polSetFluid (s : State) : State :=
  policyRun 3 5 (allBits 24 1) (fun d => firstBad [(decide (1 < byteAt d 24), 24)])
    (fun d s =>
      let t := coolantChanged (s.modPump fun q => { q with fluid := byteAt d 24 })
      (0, 0, if byteAt d 24 = s.pump.fluid then t else loopEvent 7 (byteAt d 24) t)) s

/-- What refuses a BASELINE (R578): a granted group, a held OFFER, a drive not in RUN, an open phase. -/
def baselineBarred (s : State) : Bool := !s.mgs.isEmpty || s.pump.st != .run || phaseOpen s

/-- BASELINE: the capture starts in SPEED mode (R577, R578). -/
def polBaseline (s : State) : State :=
  policyRun 3 6 [] (fun _ => none)
    (fun _ s =>
      if baselineBarred s then (0x33, 0, s)
      else
        let s := abortCapture s
        let m := s.pump.speedMode
        (0, 0, (applyMode true s).modPump fun q => { q with capture := some { modeBefore := m } })) s

/-- CLEAR_LEAK (R586). -/
def polClearLeak (s : State) : State :=
  policyRun 3 7 [] (fun _ => none)
    (fun _ s =>
      if s.ao.tapeWet || decide (s.pump.okRun < 100) then (0x33, 0, s)
      else if s.pump.leak = 0 then (0, 0, s)
      else
        let src := s.pump.leak
        let s := (s.modPump fun q => { q with leak := 0 }).modAo fun a => { a with massTrip := false }
        (0, 0, leakRec src false (queueStore 4 [0] s))) s

/-- The number of a drive state (Table PUMP-6). -/
def DriveSt.code : DriveSt → Nat
  | .stopped => 0
  | .kick => 1
  | .run => 2
  | .stalled => 3

/-- PUMP_STATUS (Table PUMP-6). -/
def pumpStatus (telemetry : Bool) (s : State) : State :=
  let p := s.pump
  let flags := b2n (atLimit s) + 2 * b2n (diagDeferred s) + 4 * b2n s.mgmt.silent + 8 * b2n (inCommand s 0).isNone + 16 * b2n p.blind + 32 * b2n p.tapeFault +
    64 * b2n p.reverse + 128 * b2n (p.leak != 0)
  a6Rec 0x0301 [(20, 1, p.st.code), (21, 1, b2n p.speedMode), (22, 2, codeU 16 1 p.target), (24, 2, codeU 16 1 (sMeas s)), (26, 2, p.duty), (28, 2, p.qTarget),
    (30, 2, readCode (sensorVal s 28)), (32, 2, readCode (sensorVal s 29)), (34, 2, p.qWard), (36, 2, codeS 16 (1 / 1000) ((ageIndex s).getD 0)), (38, 1, p.ageLevel),
    (39, 1, flags), (40, 2, readCode (sensorVal s 30)), (42, 1, p.fluid)] s telemetry

/-- PUMP_NOW. -/
def polPumpNow (s : State) : State := policyRun 3 8 [] (fun _ => none) (fun _ s => (0, 0, pumpStatus false s)) s

end Sys2Proof.Machine
end

