-- ==== Sys2Proof/Machine/Bus.lean ====
section
/-! DEFINITION. The CAN FD controllers: receiving, joining, errors, sleep, row-time synchronisation, the mailbox and the module's own messages (R597 to R633). -/

namespace Sys2Proof.Machine

/-! ### Receiving (R600, R621, R622) -/

/-- The least body length of a message (Table BUS-6), none for a MSG outside the catalogue. -/
def minLen (msg : Nat) (body : Bytes) : Option Nat :=
  if msg = 0x01 then some 6 else if msg = 0x02 then some 4 else if msg = 0x03 then some 6 else if msg = 0x04 then some 10
  else if msg = 0x10 then some (8 + 2 * byteAt body 3) else if msg = 0x20 then some 16 else if msg = 0x21 then some (8 + 4 * byteAt body 5)
  else if msg = 0x22 then some 8 else if msg = 0x30 then some 43 else if msg = 0x31 then some (4 + 4 * byteAt body 1) else if msg = 0x32 then some 41
  else if msg = 0x40 then some 20 else if msg = 0x41 then some 12 else if msg = 0x50 then some 4 else if msg = 0x60 then some 16
  else if msg = 0x61 || msg = 0x62 || msg = 0x63 then some 0
  else if 0x70 ≤ msg && msg ≤ 0x7F then some 0 else none

/-- Messages sent retried (Table BUS-6). -/
def retriedMsg (msg : Nat) : Bool := [0x01, 0x02, 0x03, 0x04, 0x22, 0x50, 0x60, 0x61, 0x62, 0x63].contains msg

/-- Why a frame is dropped (R621). -/
inductive DropWhy where
  | foreign
  | silent
  | malformed
  | innerOver
  deriving DecidableEq, Repr

/-- The receive checks, in order; `fd` says that the frame is an FD frame in extended format. -/
def frameCheck (s : State) (b : Nat) (fd : Bool) (f : Frame) : Option DropWhy :=
  if !fd then some .foreign
  else if f.addr && f.dest != nodeId s b then some .silent
  else if f.data.length < 4 then some .malformed
  else if f.data.length < 4 + f.len then some .innerOver
  else if f.version != 1 then some .malformed
  else if f.msg / 16 != f.cls then some .malformed
  else match minLen f.msg f.body with
    | none => some .malformed
    | some n => if f.len < n then some .malformed else if f.cls == 7 && s.mgmt.fuses.lc != .maker then some .silent else none

/-- Count a dropped frame. -/
def countDrop (b : Nat) (w : DropWhy) (s : State) : State :=
  s.modBus b fun x => match w with
    | .foreign => { x with foreign := x.foreign + 1 }
    | .silent => x
    | .malformed => { x with malformed := x.malformed + 1 }
    | .innerOver => { x with innerOver := x.innerOver + 1 }

/-- The controller receives: enabled, in operation and awake. -/
def canHear (s : State) (b : Nat) : Bool :=
  let x := s.onBus b
  s.stew && busEnabled s b && x.join != .off && !x.busOff && !x.asleep

/-- Store a frame in the receive FIFO. -/
def storeRx (f : Frame) (x : Bus) : Bus :=
  { x with rx := tput none x.rx (12 + x.next) (some f), next := (x.next + 1) % 20, fill := x.fill + 1 }

/-- A frame with this node's own ID that it did not send: in the listen it is counted among those heard; after the join it ends the join (R605, R607). -/
def ownIdHeard (b : Nat) (s : State) : State :=
  if (s.onBus b).join == .joined then
    busJoinRec b 4 (s.modBus b fun x => { x with join := .listening, conflict := true, result := 4, srcs := [] })
  else s

/-- A frame that has passed the checks and stands in the FIFO takes effect: not a duplicate, and in restricted operation only SYNC, WARDEN_HB and ALLOC (R608, R622). -/
def takeFrame (b : Nat) (f : Frame) (act : Frame → State → State) (s : State) : State :=
  let x := s.onBus b
  let key := 256 * f.src + f.msg
  let dup := retriedMsg f.msg && (match tget none x.last key with
    | some (q, t) => q == f.seq && decide (s.now - t ≤ ticksPerSecond)
    | none => false)
  if dup then s.modBus b fun x => { x with dups := x.dups + 1 }
  else
    let s := s.modBus b fun x => { x with last := if retriedMsg f.msg then tput none x.last key (some (f.seq, s.now)) else x.last }
    if x.join == .joined || f.msg == 0x22 || f.msg == 0x20 || f.msg == 0x31 then act f s else s

/-- A frame of the message `msg` arrives on bus `b`: the checks, the FIFO, the listen, then its effect. A full FIFO takes nothing: RX_OVERFLOW tells of that. -/
def busIn (b msg : Nat) (f : Frame) (act : Frame → State → State) (s : State) : State :=
  if !canHear s b || f.msg != msg || decide (20 ≤ (s.onBus b).fill) then s
  else match frameCheck s b true f with
    | some w => countDrop b w s
    | none =>
      let s := s.modBus b fun x => storeRx f { x with srcs := if x.join == .listening then nadd x.srcs f.src else x.srcs }
      if f.src == nodeId s b then ownIdHeard b s else takeFrame b f act s

/-- MALFORMED_FRAME: a frame that fails the receive checks is dropped and counted (R621). -/
def malformedFrame (b : Nat) (fd : Bool) (f : Frame) (s : State) : State :=
  if !canHear s b then s
  else match frameCheck s b fd f with
    | some w => countDrop b w s
    | none => s

/-- RX_FIFO_DRAIN (R601). -/
def rxDrain (b : Nat) (s : State) : State := if s.stew then s.modBus b fun x => { x with fill := 0 } else s

/-- RX_OVERFLOW (R600). -/
def rxOverflow (b : Nat) (s : State) : State :=
  if canHear s b && decide (20 ≤ (s.onBus b).fill) then s.modBus b fun x => { x with rxOver := x.rxOver + 1 } else s

/-- BUS_COUNTS_TIMER: each second with any count (Table BUS-14). -/
def busCounts (b : Nat) (s : State) : State :=
  let x := s.onBus b
  if x.foreign + x.malformed + x.innerOver + x.rxOver + x.txExpiry + x.dups = 0 then s
  else
    let m := fun (n : Nat) => min n 0xFFFF
    a6Rec 0x0403 [(20, 1, b), (24, 2, m x.foreign), (26, 2, m x.malformed), (28, 2, m x.innerOver), (30, 2, m x.rxOver), (32, 2, m x.txExpiry), (34, 2, m x.dups)]
      (s.modBus b fun x => { x with foreign := 0, malformed := 0, innerOver := 0, rxOver := 0, txExpiry := 0, dups := 0 })

/-! ### Errors (R604) -/

/-- CAN_ERROR: a bus error has moved the error counters to these values. -/
def canError (b txErr rxErr : Nat) (s : State) : State :=
  let x := s.onBus b
  if !s.stew || !busEnabled s b || x.join == .off || x.busOff then s
  else
    let off := decide (256 ≤ txErr)
    let pass := decide (128 ≤ txErr) || decide (128 ≤ rxErr)
    let s := s.modBus b fun x => { x with
      txErr := txErr, rxErr := rxErr, passive := pass && !off, busOff := off, recovering := false,
      offs := if off then (s.now :: x.offs).filter (fun t => decide (s.now - t ≤ 60 * ticksPerSecond)) else x.offs }
    if off then busErrRec b 3 s
    else if pass && !x.passive then busErrRec b 1 s
    else if !pass && x.passive then busErrRec b 2 s else s

/-- BUS_OFF_WAIT_EXPIRY: 100 ms, or 10 s after the fifth bus-off within 60 s, have passed; recovery begins. -/
def busOffWait (b : Nat) (s : State) : State :=
  let x := s.onBus b
  if x.busOff && !x.recovering then busErrRec b 4 (s.modBus b fun x => { x with recovering := true }) else s

/-- BUS_OFF_RECOVERED. -/
def busRecovered (b : Nat) (s : State) : State :=
  let x := s.onBus b
  if x.busOff && x.recovering then busErrRec b 5 (s.modBus b fun x => { x with busOff := false, recovering := false, txErr := 0, rxErr := 0, passive := false }) else s

/-! ### Joining (R605, R606) -/

/-- Begin the join of a bus: listen in restricted operation. -/
def startListen (b : Nat) (s : State) : State := s.modBus b fun x => { x with join := .listening, srcs := [], result := 0 }

/-- The running firmware slot. -/
def runningFw (s : State) : FwSlot := if s.mgmt.running = 0 then s.mgmt.slot0 else s.mgmt.slot1

/-- The warden record was found torn at start (R711). -/
def wardTorn (s : State) : Bool := tget .absent s.mgmt.regions 5 == .torn

/-- The body of NODE_ANNOUNCE (Table BUS-11). -/
def announceBody (s : State) : Bytes :=
  let w := s.ward
  packFlds 16 [(0, 1, 1), (1, 1, s.mgmt.fuses.variant), (2, 1, s.ao.rackId), (3, 1, s.ao.slotId), (4, 8, s.mgmt.fuses.dsn),
    (12, 1, b2n (s.mgmt.fuses.variant == 2) + 2 * b2n w.rackRole + 4 * b2n w.rowRole + 8 * b2n ((w.rackRole && w.rackClaim == 0) || wardTorn s)), (13, 1, (runningFw s).version / 256 % 256)]

/-- Send NODE_ANNOUNCE. -/
def announce (b : Nat) (s : State) : State := queueMsg b 0x60 none true (announceBody s) s

/-- WARD_ROLE (Table WARD-12). -/
def wardRole (event : Nat) (s : State) : State :=
  a6Rec 0x0421 [(20, 1, event), (22, 2, s.ward.rackClaim), (24, 2, s.ward.rowClaim), (26, 2, fld (s.ward.peer.getD []) 4 2)] s

/-- JOIN_LISTEN_END: the 200 ms listen has ended; the bus is joined, or the join fails (R605, R606). -/
def joinListenEnd (b : Nat) (s : State) : State :=
  let x := s.onBus b
  if !s.stew || x.join != .listening || !busEnabled s b then s
  else
    let res := if x.srcs.contains (nodeId s b) then 2 else if 96 ≤ x.rxErr then 3 else 1
    if res = 1 then
      let s := busJoinRec b 1 (s.modBus b fun x => { x with join := .joined, conflict := false, result := 1 })
      let s := announce b s
      if b = 0 then
        let s := s.modSup fun u => { u with wardenAtJoin := (inCommand s 0).isSome, allocSince := false }
        let s := if s.ward.rackRole && s.bus.row.join == .off then startListen 1 s else s
        if s.ward.rackRole && s.ward.rackClaim == 0 && !s.ward.zeroTold then wardRole 7 (s.modWard fun w => { w with zeroTold := true }) else s
      else s
    else
      let s := if x.result = res then s else busJoinRec b res s
      s.modBus b fun x => { x with conflict := x.conflict || res == 2, result := res, srcs := [] }

/-! ### Row time (R615, R616) -/

/-- BUS_TIME (Table BUS-14). -/
def busTime (event : Nat) (step : Int) (s : State) : State :=
  let c := s.bus.clock
  let src := c.source.getD (0, 0)
  a6Rec 0x0404 [(20, 1, event), (21, 1, src.2), (22, 1, src.1), (24, 4, twos 32 (clampI (-2147483648) 2147483647 (10 * step))), (28, 2, codeS 16 (1 / 100000000) c.trim)] s

/-- The bus whose commander this module follows, none for the commanding row warden itself (R615). -/
def syncBus (s : State) : Option Nat :=
  if s.ward.rackRole then (if (inCommand s 1).any (fun h => h.src == nodeId s 1 && s.ward.active) then none else some 1) else some 0

/-- The rate trim of a list of pairs, newest first (R616). -/
def trimOf (l : List (RowTime × RowTime)) : Rat :=
  let rs := (l.zip (l.drop 1)).map (fun e => (((e.1.1 - e.2.1).toNat : Nat) : Rat) / (((e.1.2 - e.2.2).toNat : Nat) : Rat) - 1)
  clampR (-(1 / 5000)) (1 / 5000) (meanR rs)

/-- Correct the row-time counter by e ticks (R616). -/
def correctTime (e : Int) (s : State) : State :=
  let c := s.bus.clock
  let setClock := fun (f : Clock → Clock) (s : State) => s.modBuses fun x => { x with clock := f x.clock }
  let step := fun (s : State) =>
    let s := s.modAo fun a => { a with rowTime := a.rowTime + BitVec.ofInt 48 e }
    (s.modBus 0 fun x => { x with syncStamp := none }).modBus 1 fun x => { x with syncStamp := none }
  if !c.synced || 100000000 < e || e < -100000000 || 5000 < e then
    let s := setClock (fun c => { c with slew := none, hold := 0 }) (step s)
    if 5000 < e || e < -5000 then busTime 2 e s else s
  else if e < -5000 then busTime 2 e (setClock (fun c => { c with slew := none, hold := e.natAbs }) s)
  else if e = 0 then s
  else
    let n := 100000000 / e.natAbs
    setClock (fun c => { c with hold := 0, slew := some (n, n, 100000000, decide (0 < e)) }) s

/-- A SYNC from the source (R616). -/
def syncFrom (b src seq : Nat) (body : Bytes) (s : State) : State :=
  let setClock := fun (f : Clock → Clock) (s : State) => s.modBuses fun x => { x with clock := f x.clock }
  let r := s.ao.rowTime
  let c := s.bus.clock
  let s := if c.source == some (b, src) then s
    else
      let s := setClock (fun c => { c with source := some (b, src), last := none, pairs := [] }) s
      if c.source.isSome then busTime 5 0 s else s
  let s := if c.holdover then busTime 4 0 (setClock (fun c => { c with holdover := false }) s) else s
  let s := match s.bus.clock.last with
    | some (q, rp) =>
      if bit (byteAt body 6) 0 && seq == (q + 1) % 256 then
        let tp : RowTime := BitVec.ofNat 48 (fld body 0 6)
        let s := correctTime ((tp - rp).toInt) s
        let first := !s.bus.clock.synced
        let s := setClock (fun c =>
          let ps := ((tp, rp) :: c.pairs).take 8
          { c with synced := true, pairs := ps, trim := if ps.length < 2 then c.trim else trimOf ps }) s
        if first then busTime 1 0 s else s
      else s
    | none => s
  setClock (fun c => { c with last := some (seq, r) }) s

/-- SYNC: taken only from the module's source, the warden in command of its bus (R615, R627). -/
def syncIn (b : Nat) (f : Frame) (s : State) : State :=
  if syncBus s == some b && fromCommand s b f.src then syncFrom b f.src f.seq f.body s else s

/-- SYNC_HOLDOVER: no SYNC from the source for 3 s (R615). -/
def syncHoldover (s : State) : State :=
  if s.bus.clock.synced && !s.bus.clock.holdover then
    busTime 3 0 (s.modBuses fun x => { x with clock := { x.clock with holdover := true, since := s.now } })
  else s

/-- The advance of the row-time counter in one tick, with the clock after it (R616). -/
def clockStep (c : Clock) : Nat × Clock :=
  if 0 < c.hold then (0, { c with hold := c.hold - 1 })
  else
    let (d, c) := match c.slew with
      | none => ((0 : Int), c)
      | some (n, k, left, add) =>
        let hit := decide (k ≤ 1)
        (if hit then (if add then 1 else -1) else 0,
         { c with slew := if left ≤ 1 then none else some (n, if hit then n else k - 1, left - 1, add) })
    let acc := c.trimAcc + c.trim
    let t : Int := if 1 ≤ acc then 1 else if acc ≤ -1 then -1 else 0
    ((1 + d + t).toNat, { c with trimAcc := acc - (t : Rat) })

/-! ### Sleep (R609 to R612) -/

/-- Whether a BUS_SLEEP may be followed (R610). -/
def sleepAllowed (s : State) (b : Nat) : Bool :=
  !s.sup.mainEn && !s.ao.latch && s.pump.leak == 0 && !pumpAlarm s &&
  (if b = 0 then !s.ward.rackRole
   else s.ward.slots.all (fun e => match e.2.at_ with
     | some t => decide (10000000 < s.now - t) || !bit (byteAt e.2.body 16) 6
     | none => true))

/-- BUS_SLEEP from the warden in command (R609, R610). -/
def sleepIn (b : Nat) (f : Frame) (s : State) : State :=
  if !fromCommand s b f.src then s
  else if sleepAllowed s b then busSleepRec b 1 (s.modBus b fun x => { x with asleep := true })
  else busSleepRec b 4 s

/-- BUS_WAKE: a wake-up frame, broadcast or addressed to this node, wakes the rack transceiver; on a bus that is awake it has no effect (R611). -/
def busWake (b : Nat) (f : Frame) (s : State) : State :=
  if b = 0 && s.stew && (s.onBus 0).asleep && f.msg == 0x63 && (!f.addr || f.dest == nodeId s 0) then wakeBus 0 2 s
  else busIn b 0x63 f (fun _ s => s) s

/-- ROW_BUS_DOMINANT_WAKE (R611). -/
def rowWake (s : State) : State := if s.stew then wakeBus 1 2 s else s

/-! ### The mailbox (R628 to R631) -/

/-- The 18 words of a buffer (Table BUS-13). -/
def mailboxWords (s : State) (b i : Nat) : List W32 :=
  let x := s.onBus b
  let f : Option Frame := if !busEnabled s b then none else if i < 12 then (tget none x.tx i).map (fun t => t.tx.frame) else tget none x.rx i
  let g := f.getD { id := 0, data := [] }
  let w0 := i + 32 * b + 64 * b2n f.isSome + 128 * b2n (decide (i < 12)) + 256 * g.data.length
  [BitVec.ofNat 32 w0, BitVec.ofNat 32 (g.id % 2 ^ 29)] ++ (List.range 16).map (fun k => BitVec.ofNat 32 (fld g.data (4 * k) 4))

/-- The five bytes of a block read (Table BUS-12). -/
def mailboxAnswer (w : W32) (locked : Bool) (count : Nat) : Bytes := toLe 4 w.toNat ++ toLe 1 (128 * b2n locked + count)

/-- MBX_SELECT: ignored while locked. -/
def mbxSelect (v : Nat) (s : State) : State :=
  if !s.stew then s
  else s.modBuses fun x => if x.mbx.snap.isSome then x else { x with mbx := { x.mbx with buffer := v % 32, bus := v / 32 % 2 } }

/-- MBX_WORD0_READ: a snapshot, and the lock. -/
def mbxWord0 (s : State) : State :=
  if !s.stew then s
  else
    let ws := mailboxWords s s.bus.mbx.bus s.bus.mbx.buffer
    s.modBuses fun x =>
      let n := (x.mbx.count + 1) % 128
      { x with mbx := { x.mbx with snap := some ws, count := n, answer := mailboxAnswer (ws.getD 0 0) true n } }

/-- MBX_WORD17_READ: the word, then the mailbox unlocks; an unlocked mailbox reads 0. -/
def mbxWord17 (s : State) : State :=
  if !s.stew then s
  else s.modBuses fun x =>
    let m := x.mbx
    { x with
      mbx := { m with
      snap := none, answer := match m.snap with
      | some ws => mailboxAnswer (ws.getD 17 0) true m.count
      | none => mailboxAnswer 0 false m.count } }

/-- MBX_LOCK_TIMEOUT. -/
def mbxTimeout (s : State) : State := s.modBuses fun x => { x with mbx := { x.mbx with snap := none } }

/-! ### Bodies of the module's own messages (Tables BUS-7, BUS-10 and BUS-11) -/

/-- A reading of a flow, 0 where it is invalid. -/
def flowCode (x : Option Int) : Nat := match x with
  | some v => twos 16 v
  | none => 0

/-- The flow request of R576 in 0.01 L/min. -/
def flowRequest (s : State) : Nat :=
  match sensorVal s 28 with
  | some q => if atLimit s && decide (q < ((s.pump.qTarget : Nat) : Int)) then (((s.pump.qTarget : Nat) : Int) - q).toNat else 0
  | none => 0

/-- MODULE_BUDGET (Table BUS-10). -/
def budgetBody (s : State) : Bytes :=
  let flags := b2n (atLimit s) + 2 * b2n s.power.unmeetable + 4 * b2n (anyFaulted s) + 8 * b2n (s.pump.leak != 0) + 16 * b2n s.mgmt.silent +
    32 * b2n (inCommand s 0).isNone + 64 * b2n s.sup.regs + 128 * b2n s.heat.dew
  packFlds 43 ([(0, 2, s.pump.qTarget), (2, 2, flowCode (sensorVal s 28)), (4, 2, flowRequest s), (6, 2, s.power.cSet), (8, 2, codeU 16 1 (capEff s)),
    (10, 2, codeU 16 1 s.pump.powMean), (12, 2, tempCode (inletVal s)), (14, 2, tempCode (outletVal s)), (16, 1, flags), (17, 1, s.power.lastN)] ++
    (List.range 25).map (fun i => (18 + i, 1, min 255 ((s.heat.forecast.getD i 0 + 7) / 8))))

/-- MODULE_TELEM (Table BUS-10). -/
def telemBody (s : State) : Bytes :=
  let q := fun (x : Option Int) => tempCode (x.map (fun v => (v : Rat) / 16))
  packFlds 20 [(0, 2, q (dieVal s)), (2, 2, q (maxI (readings s ((List.range 8).map (· + 16))))), (4, 2, codeU 16 1 (sMeas s)), (6, 2, s.pump.duty),
    (8, 2, codeS 16 (1 / 1000) ((ageIndex s).getD 0)), (10, 1, s.pump.ageLevel), (11, 1, s.pump.st.code), (12, 2, readCode (sensorVal s 30)),
    (14, 2, q s.heat.dewPoint), (16, 2, flowCode (sensorVal s 29)),
    (18, 1, b2n s.pump.tapeFault + 2 * b2n s.pump.blind + 4 * b2n (pumpAlarm s) + 8 * b2n (diagDeferred s)), (19, 1, s.mgmt.fuses.variant)]

/-- LEAK_ALERT (Table BUS-7). -/
def leakBody (source : Nat) (on : Bool) (s : State) : Bytes :=
  packFlds 6 [(0, 1, source), (1, 1, b2n on), (2, 2, flowCode (sensorVal s 28)), (4, 2, flowCode (sensorVal s 29))]

/-- Send LEAK_ALERT for a verdict reached or cleared, with two more sendings owed (Table BUS-6, R587). -/
def leakAlert (source : Nat) (on : Bool) (s : State) : State :=
  (queueAlert 0 0x01 (leakBody source on s) s).modBuses fun x => { x with leakSends := 2, leakSource := source }

/-- TRIP_NOTICE (Table BUS-7). -/
def tripNotice (cause : Nat) (on : Bool) (temp : Nat) (s : State) : State :=
  queueAlert 0 0x02 (packFlds 4 [(0, 1, cause), (1, 1, b2n on), (2, 2, temp)]) s

/-- SYNC (Table BUS-11). -/
def syncBody (s : State) (b : Nat) : Bytes :=
  let t := (s.onBus b).syncStamp
  packFlds 8 [(0, 6, (t.getD 0).toNat), (6, 1, b2n t.isSome + 2 * b2n s.bus.clock.holdover + 4 * b2n (b == 0))]

end Sys2Proof.Machine
end

