-- ==== Sys2Proof/Machine/Book.lean ====
section
/-! DEFINITION. The warden's books: slots and racks, stages and maps, allocation, control laws and the frames it sends (R640 to R646, R656, R657, R663 to R675). -/

namespace Sys2Proof.Machine

/-! ### Tables -/

def State.slotBook (s : State) (i : Nat) : Alloc := tget {} s.ward.slots i
def State.rackBook (s : State) (r : Nat) : Alloc := tget {} s.ward.racks r
def modSlotBook (i : Nat) (f : Alloc → Alloc) (s : State) : State := s.modWard fun w => { w with slots := tput {} w.slots i (f (tget {} w.slots i)) }
def modRackBook (r : Nat) (f : Alloc → Alloc) (s : State) : State := s.modWard fun w => { w with racks := tput {} w.racks r (f (tget {} w.racks r)) }

/-- An output stage of a bus. -/
def State.stage (s : State) (b n : Nat) : Stage := tget {} (if b = 0 then s.ward.rackStages else s.ward.rowStages) n
def modStage (b n : Nat) (f : Stage → Stage) (s : State) : State :=
  s.modWard fun w => if b = 0 then { w with rackStages := tput {} w.rackStages n (f (tget {} w.rackStages n)) }
    else { w with rowStages := tput {} w.rowStages n (f (tget {} w.rowStages n)) }

/-- The stage map of a role: 0 rack, 1 row. -/
def stageMap (s : State) (b : Nat) : List MapEntry := if b = 0 then s.ward.pol.rackMap else s.ward.pol.rowMap

/-- An entry that is commanded (Table WARD-4). -/
def MapEntry.commanded (e : MapEntry) : Bool := [1, 2, 3, 16, 17, 18].contains e.fn

/-- One commanded channel of a role by map index. -/
def outAt (s : State) (b i : Nat) : Chan := tget {} (if b = 0 then s.ward.rackOut else s.ward.rowOut) i
def setOut (b i : Nat) (c : Chan) (s : State) : State :=
  s.modWard fun w => if b = 0 then { w with rackOut := tput {} w.rackOut i c } else { w with rowOut := tput {} w.rowOut i c }

/-- The claim of a role. -/
def claimOf (s : State) (b : Nat) : Nat := if b = 0 then s.ward.rackClaim else s.ward.rowClaim

/-- This warden is active in a role. -/
def activeIn (s : State) (b : Nat) : Bool := s.ward.active && (b == 0 || s.ward.rowRole)

/-- The nodes a role commands, each once, rising. -/
def commandedNodes (s : State) (b : Nat) : List Nat :=
  ((stageMap s b).filter MapEntry.commanded).foldl (fun l e => nadd l e.node) (if b = 1 then ((stageMap s 1).filter (fun e => e.fn == 21)).foldl (fun l e => nadd l e.node) [] else [])

/-- A body of the module came within `ms` milliseconds. -/
def heardWithin (s : State) (ms : Nat) (t : Option Nat) : Bool := match t with
  | some t => decide (s.now - t ≤ ms * 100000)
  | none => false

/-- A slot is heard: a MODULE_BUDGET within the last 100 ms. -/
def slotHeard (s : State) (i : Nat) : Bool := heardWithin s 100 (s.slotBook i).at_

/-- A rack is heard: a RACK_BUDGET within the last 300 ms. -/
def rackHeard (s : State) (r : Nat) : Bool := heardWithin s 300 (s.rackBook r).at_

def heardSlots (s : State) : List Nat := (List.range 32).filter (slotHeard s)
def heardRacks (s : State) : List Nat := (List.range 16).filter (rackHeard s)

/-- A field of the last MODULE_BUDGET of a slot, or RACK_BUDGET of a rack. -/
def slotFld (s : State) (i off len : Nat) : Nat := fld (s.slotBook i).body off len
def rackFld (s : State) (r off len : Nat) : Nat := fld (s.rackBook r).body off len

/-- Sum of allocations. -/
def slotSum (s : State) : Nat := ((List.range 32).map (fun i => (s.slotBook i).cap)).sum
def rackSum (s : State) : Nat := ((List.range 16).map (fun r => (s.rackBook r).cap)).sum

/-! ### Water-filling (R664, R670) -/

/-- The level at which demands fill a pool; none when the pool covers them all. -/
def fillLevel : Nat → Rat → List Nat → Option Rat
  | 0, _, _ => some 0
  | n + 1, pool, ds =>
    if ((ds.sum : Nat) : Rat) ≤ pool then none
    else
      let l := pool / ((ds.length : Nat) : Rat)
      let low := ds.filter (fun d => decide (((d : Nat) : Rat) ≤ l))
      if low.isEmpty then some l else fillLevel n (pool - ((low.sum : Nat) : Rat)) (ds.filter (fun d => !decide (((d : Nat) : Rat) ≤ l)))

/-- A target under a level: floor(min(d, l)). -/
def fillTarget (l : Option Rat) (d : Nat) : Nat := match l with
  | none => d
  | some l => (min ((d : Nat) : Rat) l).floor.toNat

/-- Lower-first: allocations above their target are lowered and marked; raises wait until every earlier lowering is confirmed (R664, R671). -/
def lowerFirst (keys : List Nat) (get : State → Nat → Alloc) (upd : Nat → (Alloc → Alloc) → State → State) (target : Nat → Nat) (room : State → Nat) (s : State) : State :=
  let clear := keys.all (fun i => !(get s i).lowered)
  let s := forEach keys (fun i s => if target i < (get s i).cap then upd i (fun a => { a with cap := target i, lowered := true, told := false }) s else s) s
  if clear then forEach keys (fun i s => if (get s i).cap < target i then upd i (fun a => { a with cap := min (target i) (a.cap + room s) }) s else s) s else s

/-- Rack allocation (R664): c_set of heard slots water-fills what the book leaves of A. -/
def rackAllocate (s : State) : State :=
  let hs := heardSlots s
  let fixed := ((List.range 32).filter (fun i => !slotHeard s i)).map (fun i => (s.slotBook i).cap)
  let d := fun i => slotFld s i 6 2
  let l := fillLevel 33 (((s.ward.a : Nat) : Rat) - ((fixed.sum : Nat) : Rat)) (hs.map d)
  let t := fun i => if s.ward.pol.rackResp != .none then 0 else if slotHeard s i then fillTarget l (d i) else (s.slotBook i).cap
  lowerFirst (List.range 32) State.slotBook modSlotBook t (fun s => s.ward.a - slotSum s) s

/-- c_flow of a rack in W (R670). -/
def rackFlowCap (s : State) (r : Nat) : Nat :=
  let q : Rat := ((rackFld s r 10 2 : Nat) : Rat) / 100
  let t : Rat := ((sext 16 (fld (s.rackBook r).telem 4 2) : Int) : Rat) / 16
  (cvOf s.pump.fluid * 1000 * q / 60 * max 1 (58 - t) + 30 * ((byteAt (s.rackBook r).telem 8 : Nat) : Rat)).floor.toNat

/-- Every CDU pump stands at its SP_MAX and some rack is AT_LIMIT, or exchange mode 1: flow limits the racks (R670). -/
def flowLimited (s : State) : Bool :=
  let pumps := (stageMap s 1).zipIdx.filter (fun e => e.1.fn == 16)
  s.ward.pol.exchange == 1 ||
  (!pumps.isEmpty && pumps.all (fun e => (outAt s 1 e.2).sp == some e.1.spMax) && (heardRacks s).any (fun r => bit (rackFld s r 15 1) 0))

/-- Row allocation (R669 to R671). -/
def rowAllocate (s : State) : State :=
  let p := s.ward.pol
  let hs := heardRacks s
  let lim := flowLimited s
  let fixed := ((List.range 16).filter (fun r => !rackHeard s r)).map (fun r => (s.rackBook r).cap)
  let d := fun r => if lim then min (rackFld s r 0 2) (rackFlowCap s r) else rackFld s r 0 2
  let avail := p.budget - p.rMin
  let l := fillLevel 17 (((avail : Nat) : Rat) - ((fixed.sum : Nat) : Rat)) (hs.map d)
  let t := fun r => if p.rowResp != .none then 0 else if rackHeard s r then fillTarget l (d r) else (s.rackBook r).cap
  let s := s.modWard fun w => { w with limited := lim }
  lowerFirst (List.range 16) State.rackBook modRackBook t (fun s => avail - rackSum s) s

/-! ### Control laws (R667, R668, R673, R674) -/

/-- The step of a flow law: SLEW at the limit, 0 within 3 %, else 2,000 × e held within SLEW. -/
def flowStep (slew : Nat) (limit : Bool) (dem have_ : Rat) : Rat :=
  let e := (dem - have_) / max dem 100
  let m : Rat := ((slew : Nat) : Rat)
  if limit then m else if -3 / 100 ≤ e && e ≤ 3 / 100 then 0 else clampR (-m) m (2000 * e)

/-- Hold a loop state within the ranges of the entries of the functions given. -/
def holdIn (l : List MapEntry) (fns : List Nat) (x : Rat) : Rat :=
  (l.filter (fun e => fns.contains e.fn)).foldl (fun x e => clampR ((e.spMin : Nat) : Rat) ((e.spMax : Nat) : Rat) x) (clampR 0 10000 x)

/-- A signed 16-bit sum field of flows. -/
def flowSum (l : List Nat) : Rat := ((l.map (fun x => sext 16 x)).sum : Int)

/-- The rack valve law (R667). -/
def rackLaw (s : State) : State :=
  let hs := heardSlots s
  let dem := flowSum (hs.map (fun i => slotFld s i 0 2))
  let q := flowSum (hs.map (fun i => slotFld s i 2 2))
  let lim := hs.any (fun i => bit (slotFld s i 16 1) 0 && slotFld s i 4 2 != 0)
  s.modWard fun w => { w with v := holdIn w.pol.rackMap [1, 2] (w.v + flowStep w.pol.slew lim dem q) }

/-- The row laws: CDU pumps and the facility-water valve (R673, R674). -/
def rowLaw (s : State) : State :=
  let hs := heardRacks s
  let dem : Rat := (((hs.map (fun r => rackFld s r 6 2)).sum : Nat) : Rat)
  let q := flowSum (hs.map (fun r => rackFld s r 10 2))
  let lim := hs.any (fun r => bit (rackFld s r 15 1) 0)
  let ts := meanR (hs.map (fun r => ((sext 16 (fld (s.rackBook r).telem 4 2) : Int) : Rat) / 16))
  s.modWard fun w =>
    let p := w.pol
    let m : Rat := ((p.slew : Nat) : Rat)
    let u := holdIn p.rowMap [16] (w.u + flowStep p.slew lim dem q)
    let df : Rat := if hs.isEmpty then 0 else clampR (-m) m (400 * (ts - ((p.supply : Nat) : Rat) / 16))
    { w with u := if p.exchange = 1 then min u ((p.eco : Nat) : Rat) else u, f := holdIn p.rowMap [17] (w.f + df) }

/-- A setpoint from a loop state. -/
def spOf (x : Rat) : Nat := clampN 0 10000 (rne x).toNat

/-- The warden's own output for a map entry, and whether a leak response sets it, exempt from the slew (R657, R668, R676). -/
def ownOutput (w : Warden) (e : MapEntry) : Nat × Bool :=
  let p := w.pol
  if e.fn = 1 || e.fn = 2 then (if p.rackResp == .done then (0, true) else (clampN e.spMin e.spMax (spOf w.v), false))
  else if e.fn = 3 then (if p.leakShut.contains e.arg then (0, true) else (if p.valveShut.contains e.arg then 0 else 10000, false))
  else if e.fn = 16 then (if p.rowResp == .done && p.rowTarget == 16 then (0, true) else (clampN e.spMin e.spMax (spOf w.u), false))
  else if e.fn = 17 then (if p.rowResp == .done && p.rowTarget == 17 then (0, true) else (clampN e.spMin e.spMax (spOf w.f), false))
  else (clampN e.spMin e.spMax (10000 - spOf w.f), false)

/-- A channel's next setpoint: its stage's applied value where it has none, one SLEW at most while it slews, else its own output (R656, R657). -/
def nextOut (s : State) (b : Nat) (e : MapEntry) (c : Chan) (move : Bool) : Chan :=
  let (t, leak) := ownOutput s.ward e
  if leak then { sp := some t, slewing := false }
  else match c.sp with
    | none => match tget none (s.stage b e.node).applied e.channel with
      | some v => { sp := some v, slewing := true }
      | none => c
    | some v =>
      let d := s.ward.pol.slew
      if !move then c
      else if !c.slewing then { c with sp := some t }
      else
        let n := if v < t then min t (v + d) else max t (v - d)
        { sp := some n, slewing := n != t }

/-- Every commanded channel of a role: at a role cycle it moves; out of phase only leak responses act. -/
def driveOutputs (b : Nat) (move : Bool) (s : State) : State :=
  (stageMap s b).zipIdx.foldl (fun s e => if e.1.commanded then setOut b e.2 (nextOut s b e.1 (outAt s b e.2) move) s else s) s

/-- Some channel still slews (WARDEN_HB flag [4]). -/
def slewing (s : State) : Bool :=
  ((stageMap s 0).zipIdx.any (fun e => (outAt s 0 e.2).slewing)) || (s.ward.rowRole && (stageMap s 1).zipIdx.any (fun e => (outAt s 1 e.2).slewing))

/-! ### CLAIM_CMD (R646) -/

/-- The setpoint commanded to a channel of a node: the map's, the facility demand, else the stage's last applied setpoint. -/
def cmdFor (s : State) (b n ch : Nat) : Nat :=
  match (stageMap s b).zipIdx.find? (fun e => e.1.node == n && e.1.channel == ch && e.1.commanded) with
  | some e => ((outAt s b e.2).sp).getD ((tget none (s.stage b n).applied ch).getD 0)
  | none =>
    if b = 1 && ch = 0 && (stageMap s 1).any (fun e => e.fn == 21 && e.node == n) then spOf s.ward.f
    else (tget none (s.stage b n).applied ch).getD 0

/-- The commanded channels of a node. -/
def cmdChannels (s : State) (b n : Nat) : List Nat :=
  ((stageMap s b).filter (fun e => e.node == n && e.commanded)).map (·.channel) ++
  (if b = 1 && (stageMap s 1).any (fun e => e.fn == 21 && e.node == n) then [0] else [])

/-- Whether every commanded channel of a node has a setpoint to send (R656). -/
def cmdReady (s : State) (b n : Nat) : Bool :=
  (stageMap s b).zipIdx.all (fun e => e.1.node != n || !e.1.commanded || (outAt s b e.2).sp.isSome)

/-- CLAIM_CMD to one stage (Table BUS-8). -/
def claimCmd (b n : Nat) (s : State) : State :=
  let cs := cmdChannels s b n
  if cs.isEmpty || !cmdReady s b n then s
  else
    let lo := cs.foldl min 23
    let hi := cs.foldl max 0
    let k := min 24 (hi + 1 - lo)
    queueMsg b 0x10 (some n) false (packFlds (8 + 2 * k) ([(0, 2, claimOf s b), (2, 1, lo), (3, 1, k), (4, 1, b)] ++
      (List.range k).map (fun i => (8 + 2 * i, 2, cmdFor s b n (lo + i))))) s

/-- CLAIM_CMD to every commanded stage of a role. -/
def claimAll (b : Nat) (s : State) : State := forEach (commandedNodes s b) (claimCmd b) s

/-! ### Heartbeats, ALLOC, budgets and telemetry of a warden (Table BUS-8) -/

/-- The warden link is up (R648). -/
def linkUpW (s : State) : Bool := s.ward.lanes.any (·.up)

/-- WARDEN_HB; a standby sends it with ACTIVE = 0, and a claim of 0 never counts (R636, R639). -/
def heartbeat (b : Nat) (s : State) : State :=
  let w := s.ward
  queueMsg b 0x20 none false (packFlds 16 [(0, 2, claimOf s b), (2, 1, w.side + 2 * b + 4 * b2n w.active + 8 * b2n (linkUpW s) + 16 * b2n (slewing s)), (3, 1, s.ao.rackId),
    (4, 4, (if b = 0 then w.rackCycle else w.rowCycle).toNat), (8, 8, s.mgmt.fuses.dsn)]) s

/-- Take an allocation for this module: c_row and q_ward (R627). -/
def takeOwnAlloc (cap flow : Nat) (s : State) : State :=
  ((s.modPower fun p => { p with cRow := min 1400 cap }).modPump fun q => { q with qWard := flow }).modSup fun u => { u with allocSince := true }

/-- Take the row's allocation for this rack: A and the FLOW (R663). -/
def takeRackAlloc (cap flow : Nat) (s : State) : State := s.modWard fun w => { w with a := cap, aFlow := flow, aHeld := false }

/-- The FLOW a slot is sent (R664). -/
def slotFlow (s : State) (i : Nat) : Nat := if slotHeard s i && bit (slotFld s i 16 1) 6 then s.ward.aFlow else 0

/-- One ALLOC frame of `k` entries from `first` on. -/
def allocFrame (b first k : Nat) (cap flow : Nat → Nat) (s : State) : State :=
  queueMsg b 0x31 none false (packFlds (4 + 4 * k) ([(0, 1, first), (1, 1, k), (2, 1, b)] ++
    (List.range k).flatMap (fun i => [(4 + 4 * i, 2, min 65535 (cap (first + i))), (6 + 4 * i, 2, min 32767 (flow (first + i)))]))) s

/-- ALLOC of a role: the rack's 32 slots in three frames, the row's 16 racks in two; this module's own entry acts on itself (R664, R672). -/
def sendAlloc (b : Nat) (s : State) : State :=
  if b = 0 then
    let cap := fun i => (s.slotBook i).cap
    let s' := allocFrame 0 28 4 cap (slotFlow s) (allocFrame 0 14 14 cap (slotFlow s) (allocFrame 0 0 14 cap (slotFlow s) s))
    let s' := forEach (List.range 32) (fun i s => modSlotBook i (fun a => { a with told := a.lowered }) s) s'
    if (inCommand s 0).any (fun h => h.src == nodeId s 0) then takeOwnAlloc (cap s.ao.slotId) (slotFlow s s.ao.slotId) s' else s'
  else
    let cap := fun r => (s.rackBook r).cap
    let fl := fun _ => s.ward.pol.floor
    let s' := allocFrame 1 14 2 cap fl (allocFrame 1 0 14 cap fl s)
    let s' := forEach (List.range 16) (fun r s => modRackBook r (fun a => { a with told := a.lowered }) s) s'
    if (inCommand s 1).any (fun h => h.src == nodeId s 1) then takeRackAlloc (cap s.ao.rackId) s.ward.pol.floor s' else s'

/-- Take a MODULE_BUDGET into the slot book; it confirms a lowering that an ALLOC has carried (R664, R665). -/
def takeBudget (i : Nat) (body : Bytes) (s : State) : State :=
  let s := s.modWard fun w => { w with pol := { w.pol with released := w.pol.released.filter (fun j => j != i) } }
  modSlotBook i (fun a => { a with body := body.take 43, at_ := some s.now, lowered := a.lowered && !(a.told && decide (fld body 8 2 ≤ a.cap)) }) s

/-- Take a RACK_BUDGET into the row book (R671). -/
def takeRackBudget (r : Nat) (body : Bytes) (s : State) : State :=
  modRackBook r (fun a => { a with body := body.take 41, at_ := some s.now, lowered := a.lowered && !(a.told && decide (fld body 2 2 ≤ a.cap)) }) s

/-- RACK_BUDGET (Table BUS-8). -/
def rackBudgetBody (s : State) : Bytes :=
  let hs := heardSlots s
  let sum := fun off => (hs.map (fun i => slotFld s i off 2)).sum
  let sat := fun n => min n 0xFFFF
  let out := hs.foldl (fun (m : Int) i => max m (sext 16 (slotFld s i 14 2))) (-32768)
  let any := fun k => hs.any (fun i => bit (slotFld s i 16 1) k)
  packFlds 41 ([(0, 2, sat (sum 6)), (2, 2, sat (sum 8)), (4, 2, sat (sum 10)), (6, 2, sat (sum 0)), (8, 2, sat (sum 4)),
    (10, 2, twos 16 (clampI (-32768) 32767 ((hs.map (fun i => sext 16 (slotFld s i 2 2))).sum))), (12, 2, twos 16 out), (14, 1, hs.length),
    (15, 1, b2n (any 0) + 2 * b2n (any 1) + 4 * b2n (any 3) + 8 * b2n (s.ward.aHeld || (inCommand s 1).isNone))] ++
    (List.range 25).map (fun i => (16 + i, 1, min 255 ((8 * (hs.map (fun j => slotFld s j (18 + i) 1)).sum + 255) / 256))))

/-- RACK_TELEM (Table BUS-8). -/
def rackTelemBody (s : State) : Bytes :=
  let hs := heardSlots s
  let top := fun off => hs.foldl (fun (m : Int) i => max m (sext 16 (fld (s.slotBook i).telem off 2))) (-32768)
  let ins := (hs.map (fun i => sext 16 (slotFld s i 12 2))).filter (fun t => t != -32768)
  let n := fun (p : Nat → Bool) => (hs.filter p).length
  packFlds 12 [(0, 2, twos 16 (top 0)), (2, 2, twos 16 (top 2)), (4, 2, twos 16 (rne (meanR (ins.map (fun (t : Int) => (t : Rat)))))),
    (6, 1, n (fun i => bit (byteAt (s.slotBook i).telem 18) 2)), (7, 1, n (fun i => bit (slotFld s i 16 1) 2)), (8, 1, n (fun i => bit (slotFld s i 16 1) 6)),
    (9, 1, ((List.range 32).filter (fun i => (s.slotBook i).at_.isSome && !slotHeard s i)).length),
    (10, 2, ((List.range 16).map (fun k => if (s.stage 0 (32 + k)).alarms.isEmpty then 0 else 2 ^ k)).sum)]

/-- Queue this module's MODULE_BUDGET; a warden takes its own into its book (R637). -/
def sendBudget (s : State) : State :=
  let b := budgetBody s
  let s := queueMsg 0 0x30 none false b s
  if s.ward.rackRole then takeBudget s.ao.slotId b s else s

/-- Queue this module's MODULE_TELEM; a warden takes its own. -/
def sendTelem (s : State) : State :=
  let b := telemBody s
  let s := queueMsg 0 0x40 none false b s
  if s.ward.rackRole then modSlotBook s.ao.slotId (fun a => { a with telem := b }) s else s

/-- Queue RACK_BUDGET; a row warden takes its own rack's. -/
def sendRackBudget (s : State) : State :=
  let b := rackBudgetBody s
  let s := queueMsg 1 0x32 none false b s
  if s.ward.rowRole then takeRackBudget s.ao.rackId b s else s

/-- Queue RACK_TELEM; a row warden takes its own rack's. -/
def sendRackTelem (s : State) : State :=
  let b := rackTelemBody s
  let s := queueMsg 1 0x41 none false b s
  if s.ward.rowRole then modRackBook s.ao.rackId (fun a => { a with telem := b }) s else s

/-- BUS_MESSAGE_PHASE: the period and phase of a periodic message have come (R623, R636). -/
def messagePhase (b msg : Nat) (s : State) : State :=
  if !s.stew then s
  else if msg = 0x30 && b = 0 then sendBudget s
  else if msg = 0x40 && b = 0 then sendTelem s
  else if msg = 0x01 && b = 0 then
    if s.pump.leak != 0 || s.bus.leakSends != 0 then
      (queueAlert 0 0x01 (leakBody s.bus.leakSource (s.pump.leak != 0) s) s).modBuses fun x => { x with leakSends := x.leakSends - 1 }
    else s
  else if msg = 0x20 then if s.ward.rackRole && (b == 0 || s.ward.rowRole) then heartbeat b s else s
  else if !activeIn s b && !(s.ward.active && b == 1 && (msg == 0x32 || msg == 0x41)) then s
  else if msg = 0x10 then claimAll b s
  else if msg = 0x22 then queueMsg b 0x22 none true (syncBody s b) s
  else if msg = 0x31 then sendAlloc b s
  else if msg = 0x32 && b = 1 then sendRackBudget s
  else if msg = 0x41 && b = 1 then sendRackTelem s
  else s

end Sys2Proof.Machine
end

