-- ==== Sys2Proof/Machine/Warden.lean ====
section
/-! DEFINITION. Wardens: becoming active and standby, the warden link, mirroring, hand-over, cycles, leak responses, received messages and the warden policy commands (R634 to R681). -/

namespace Sys2Proof.Machine

/-! ### The warden record and mirror blocks (R638, R651, Table WARD-7) -/

/-- A bitmap of the slots of a list. -/
def slotMask (l : List Nat) : Nat := ((List.range 32).filter (fun i => l.contains i)).foldl (fun m i => m + 2 ^ i) 0

/-- The slots of a bitmap. -/
def maskSlots (m : Nat) : List Nat := (List.range 32).filter (fun i => bit m i)

/-- The bytes of a stage map entry (Table WARD-3). -/
def entryBytes (e : MapEntry) : Bytes := packFlds 8 [(0, 1, e.node), (1, 1, e.channel), (2, 1, e.fn), (3, 1, e.arg), (4, 2, e.spMin), (6, 2, e.spMax)]

/-- A stage map entry at an offset. -/
def entryAt (d : Bytes) (o : Nat) : MapEntry :=
  { node := byteAt d o, channel := byteAt d (o + 1), fn := byteAt d (o + 2), arg := byteAt d (o + 3), spMin := fld d (o + 4) 2, spMax := fld d (o + 6) 2 }

def Resp9.code : Resp9 → Nat
  | .none => 0
  | .caps => 1
  | .done => 2

def Resp9.ofCode (n : Nat) : Resp9 := if n = 0 then .none else if n = 1 then .caps else .done

/-- The content of a mirror block, in the model's own layout (log entry 54). -/
def blockBytes (p : WardPolicy) (b : Nat) : Bytes :=
  if b = 1 then toLe 2 p.rackVer ++ toLe 1 p.rackMap.length ++ p.rackMap.flatMap entryBytes
  else if b = 2 then toLe 2 p.rowVer ++ toLe 1 p.rowMap.length ++ p.rowMap.flatMap entryBytes
  else if b = 3 then packFlds 15 [(0, 4, p.budget), (4, 4, p.rMin), (8, 1, p.exchange), (9, 2, p.eco), (11, 2, p.floor), (13, 2, p.supply)]
  else if b = 4 then packFlds 15 [(0, 1, p.rackAction), (1, 1, p.rackDelay), (2, 1, p.rowAction), (3, 1, p.rowDelay), (4, 1, p.rackResp.code), (5, 1, p.rowResp.code),
    (6, 1, p.rowTarget), (7, 4, slotMask p.leakShut), (11, 1, p.rackBy.1), (12, 1, p.rackBy.2), (13, 1, p.rowBy.1), (14, 1, p.rowBy.2)]
  else packFlds 10 [(0, 2, p.slew), (2, 4, slotMask p.valveShut), (6, 4, slotMask p.released)]

/-- Take the content of a mirror block. -/
def takeBlock (p : WardPolicy) (b : Nat) (d : Bytes) : WardPolicy :=
  let entries := (List.range (byteAt d 2)).map (fun i => entryAt d (3 + 8 * i))
  if b = 1 then { p with rackVer := fld d 0 2, rackMap := entries }
  else if b = 2 then { p with rowVer := fld d 0 2, rowMap := entries }
  else if b = 3 then { p with budget := fld d 0 4, rMin := fld d 4 4, exchange := byteAt d 8, eco := fld d 9 2, floor := fld d 11 2, supply := fld d 13 2 }
  else if b = 4 then { p with
    rackAction := byteAt d 0, rackDelay := byteAt d 1, rowAction := byteAt d 2, rowDelay := byteAt d 3, rackResp := .ofCode (byteAt d 4),
    rowResp := .ofCode (byteAt d 5), rowTarget := byteAt d 6, leakShut := maskSlots (fld d 7 4),
    rackBy := (byteAt d 11, byteAt d 12), rowBy := (byteAt d 13, byteAt d 14) }
  else if b = 5 then { p with slew := fld d 0 2, valveShut := maskSlots (fld d 2 4), released := maskSlots (fld d 6 4) }
  else p

/-- The warden record: role, side, claims and the blocks of Table WARD-7, each with its length. -/
def wardBody (w : Warden) : List Int :=
  [((b2n w.rackRole : Nat) : Int), ((b2n w.rowRole : Nat) : Int), ((w.side : Nat) : Int), ((w.rackClaim : Nat) : Int), ((w.rowClaim : Nat) : Int)] ++
  [1, 2, 3, 4, 5].flatMap (fun b => let d := blockBytes w.pol b; ((d.length : Nat) : Int) :: d.map (fun x => ((x.toNat : Nat) : Int)))

/-- Read blocks back from a warden record. -/
def readBlocks : List Nat → List Int → WardPolicy → WardPolicy
  | [], _, p => p
  | _, [], p => p
  | b :: bs, n :: r, p => readBlocks bs (r.drop n.toNat) (takeBlock p b ((r.take n.toNat).map (fun x => BitVec.ofInt 8 x)))

/-- The warden that a record describes (R638). -/
def wardOf (l : List Int) (w : Warden) : Warden :=
  let n := fun i => (l.getD i 0).toNat
  { w with rackRole := n 0 == 1, rowRole := n 1 == 1, side := n 2, rackClaim := n 3, rowClaim := n 4, pol := readBlocks [1, 2, 3, 4, 5] (l.drop 5) {} }

/-- Write the warden record to the store. -/
def storeWard (s : State) : State := queueStore 5 (wardBody s.ward) s

/-- A block has changed: it is stored and to be mirrored (R651, R679). -/
def wardChanged (b : Nat) (s : State) : State := storeWard (s.modWard fun w => { w with mirrorDue := nadd w.mirrorDue b })

/-! ### The warden link (R647 to R650) -/

/-- Send a frame on the warden link. -/
def wlSend (type : Nat) (payload : Bytes) (s : State) : State :=
  if !s.ward.rackRole then s
  else s.modWard fun w => { w with wlOut := (w.wlOut ++ [(w.wlNext, ({ type := type, payload := payload } : WlFrame))]).drop (w.wlOut.length - 15), wlNext := (w.wlNext + 1) % 65536 }

/-- WARD_LINK (Table WARD-12). -/
def wardLink (s : State) : State :=
  a6Rec 0x0423 [(20, 1, b2n ((s.ward.lanes.getD 0 {}).up)), (21, 1, b2n ((s.ward.lanes.getD 1 {}).up)), (24, 4, min s.ward.wlDropped 0xFFFFFFFF)] s

/-- A good frame has arrived on a lane: the third in a row takes it up (R648). -/
def laneGood (lane : Nat) (s : State) : State :=
  let l := s.ward.lanes.getD lane {}
  let s := s.modWard fun w => { w with lanes := lmod w.lanes lane (fun l => { up := l.up || decide (3 ≤ l.good + 1), good := min 3 (l.good + 1) }) }
  if !l.up && decide (3 ≤ l.good + 1) && decide (lane < 2) then wardLink s else s

/-- WL_LANE_DOWN: no good frame for 10 ms (R648). -/
def laneDown (lane : Nat) (s : State) : State :=
  if (s.ward.lanes.getD lane {}).up then wardLink (s.modWard fun w => { w with lanes := lmod w.lanes lane (fun _ => {}) }) else s

/-- A frame arrives on a lane of the warden link: bad ones are dropped and counted, the copy on the other lane is discarded (R647). -/
def wlIn (lane seq maxLen : Nat) (good : Bool) (payload : Bytes) (act : Bytes → State → State) (s : State) : State :=
  if !s.stew || !s.ward.rackRole || decide (2 ≤ lane) then s
  else if !good || decide (maxLen < payload.length) then s.modWard fun w => { w with wlDropped := w.wlDropped + 1 }
  else
    let s := laneGood lane s
    if !(s.ward.lanes.getD lane {}).up || s.ward.wlSeq == some seq then s
    else act payload (s.modWard fun w => { w with wlSeq := some seq })

/-- Byte 8 of STATE (Table WARD-6). -/
def stateByte8 (s : State) : Nat :=
  let w := s.ward
  b2n w.active + 2 * b2n w.rowRole + 4 * b2n (s.bus.rack.join == .joined) + 8 * b2n (s.bus.row.join == .joined) + 16 * b2n s.bus.clock.synced +
    32 * b2n (w.rackClaim != 0) + 64 * b2n (slewing s) + 128 * b2n (w.pol.rackResp != .none || w.pol.rowResp != .none || !w.pol.leakShut.isEmpty)

/-- Byte 9 of STATE (Table WARD-6). -/
def stateByte9 (s : State) : Nat := b2n s.bus.rack.busOff + 2 * b2n s.bus.row.busOff + 4 * b2n s.mgmt.storeFault + 8 * b2n s.ward.notInForce

/-- The setpoint of a channel as STATE carries it. -/
def outSp (c : Chan) : Nat := c.sp.getD 0

/-- The STATE payload (Table WARD-6). -/
def statePayload (s : State) : Bytes :=
  let w := s.ward
  let head : List Fld := [(0, 4, w.rackCycle.toNat), (4, 2, w.rackClaim), (6, 2, w.rowClaim), (8, 1, stateByte8 s), (9, 1, stateByte9 s), (10, 2, w.pol.rackVer), (12, 2, w.pol.rowVer)]
  if !w.active then packFlds 512 head
  else
    let wait := (List.range 16).any (fun r => (s.rackBook r).lowered)
    packFlds 512 (head ++ (List.range 64).map (fun i => (16 + 2 * i, 2, outSp (outAt s 0 i))) ++
      (List.range 32).flatMap (fun i => [(144 + 4 * i, 2, min 65535 (s.slotBook i).cap), (146 + 4 * i, 2, min 65535 (slotFlow s i))]) ++ [(272, 4, twos 32 (rne w.v))] ++
      (List.range 32).map (fun i => (336 + 2 * i, 2, outSp (outAt s 1 i))) ++
      (List.range 16).flatMap (fun r => [(400 + 4 * r, 2, min 65535 (s.rackBook r).cap), (402 + 4 * r, 2, w.pol.floor)]) ++
      [(464, 4, twos 32 (rne w.u)), (468, 4, twos 32 (rne w.f)), (496, 4, w.pol.budget), (500, 4, w.pol.rMin), (504, 4, if wait then w.rowCycle.toNat else 0xFFFFFFFF)])

/-- STATE from the peer (R650, R653). -/
def takeState (d : Bytes) (s : State) : State :=
  let act := bit (byteAt d 8) 0
  s.modWard fun w =>
    let w := { w with peer := some d }
    if act then { w with peerHeard := true, activeAt := some s.now, copy := if w.active then w.copy else some d, copyAt := if w.active then w.copyAt else some s.now } else w

/-! ### Mirroring (R651) -/

/-- The blocks this warden mirrors. -/
def mirrorBlocks (s : State) : List Nat := if s.ward.rowRole then [1, 2, 3, 4, 5] else [1, 3, 4, 5]

/-- The peer's node on the rack bus: the other side of this rack. -/
def peerNode (s : State) : Option Nat :=
  (s.bus.rack.hbs.find? (fun h => h.rack == s.ao.rackId && bits h.flags 0 0 != s.ward.side)).map (·.src)

/-- Send a block: on the link while it is up, else in segments of 56 bytes to the peer on the rack bus. -/
def mirrorBlock (b : Nat) (s : State) : State :=
  let d := blockBytes s.ward.pol b
  if linkUpW s then wlSend 2 ([BitVec.ofNat 8 b, 0, 1, 0] ++ d) s
  else match peerNode s with
    | none => s
    | some n =>
      let k := max 1 ((d.length + 55) / 56)
      forEach (List.range k) (fun i s => queueMsg 0 0x50 (some n) true ([BitVec.ofNat 8 b, BitVec.ofNat 8 i, BitVec.ofNat 8 k, 0] ++ (d.drop (56 * i)).take 56) s) s

/-- MIRROR_TIMER: 60 s, or 1 s after a change. -/
def mirrorTimer (s : State) : State :=
  if !s.stew || !s.ward.active then s
  else forEach (mirrorBlocks s) mirrorBlock (s.modWard fun w => { w with mirrorDue := [] })

/-- A segment of a block; a standby stores the block when every segment has arrived. A segment that has arrived before belongs to a newer sending of
the block, whose segments start afresh: a stored block is of one version (R651, log entry 90). -/
def takeMirror (d : Bytes) (s : State) : State :=
  if s.ward.active then s
  else
    let b := byteAt d 0
    let k := byteAt d 2
    let old := match s.ward.mirrorIn with
      | some (b', k', t) => if b' = b && k' = k then t else []
      | none => []
    let t := tins (if old.any (fun e => e.1 == byteAt d 1) then [] else old) (byteAt d 1) (d.drop 4)
    if (List.range k).all (fun i => t.any (fun e => e.1 == i)) then
      storeWard (s.modWard fun w => { w with pol := takeBlock w.pol b (t.flatMap (·.2)), mirrorIn := none })
    else s.modWard fun w => { w with mirrorIn := some (b, k, t) }

/-! ### Becoming active, yielding (R640, R641, R652 to R656) -/

/-- Claims in force heard for a role within the last 100 ms. -/
def claimsHeard (s : State) (b : Nat) : List Nat :=
  (((s.onBus b).hbs.filter (fun h => decide (s.now - h.at_ ≤ 10000000) && bits h.flags 1 1 == b)).map (·.claim)) ++
  ((if b = 0 then s.ward.rackStages else s.ward.rowStages).filter (fun e => heardWithin s 100 e.2.at_)).map (fun e => e.2.claim)

/-- The claim a warden takes when it becomes active. -/
def nextClaim (s : State) (b : Nat) : Nat := (claimsHeard s b).foldl max (claimOf s b) + 1

/-- FABRIC_ALERT on every UP link (R678). -/
def fabricAlert (event : Nat) (s : State) : State :=
  let m := mkShort 0x50 0 0 0 0 (packFlds 40 [(0, 8, s.mgmt.fuses.dsn), (8, 1, event), (9, 1, s.ao.rackId), (10, 1, s.ao.slotId), (12, 6, s.ao.rowTime.toNat)])
  forEach (upLinks s) (fun k s => a5Out k m s) s

/-- The first output of a commanded channel: the newer of the STATE copy and the stage's applied setpoint (R656). -/
def firstOut (s : State) (b i : Nat) (e : MapEntry) : Chan :=
  let st := s.stage b e.node
  let applied := tget none st.applied e.channel
  let copied := s.ward.copy.map (fun d => fld d ((if b = 0 then 16 else 336) + 2 * i) 2)
  let sp := match copied, applied with
    | some c, some a => if st.at_.getD 0 ≤ s.ward.copyAt.getD 0 then some c else some a
    | some c, none => some c
    | none, a => a
  { sp := sp, slewing := true }

/-- First outputs of every commanded channel of a role. -/
def firstOuts (b : Nat) (s : State) : State :=
  (stageMap s b).zipIdx.foldl (fun s e => if e.1.commanded then setOut b e.2 (firstOut s b e.2 e.1) s else s) s

/-- Allocation books, loop states and budget from the STATE copy (R656, R658). -/
def takeCopy (s : State) : State :=
  match s.ward.copy with
  | none => s
  | some d =>
    let s := forEach (List.range 32) (fun i s => modSlotBook i (fun a => { a with cap := fld d (144 + 4 * i) 2 }) s) s
    let s := s.modWard fun w => { w with v := ((sext 32 (fld d 272 4) : Int) : Rat) }
    if !s.ward.rowRole then s
    else
      let s := forEach (List.range 16) (fun r s => modRackBook r (fun a => { a with cap := fld d (400 + 4 * r) 2, lowered := fld d 504 4 != 0xFFFFFFFF, told := false }) s) s
      s.modWard fun w => { w with u := ((sext 32 (fld d 464 4) : Int) : Rat), f := ((sext 32 (fld d 468 4) : Int) : Rat),
                                  pol := { w.pol with budget := fld d 496 4, rMin := fld d 500 4 } }

/-- The roles of an active warden. -/
def myRoles (s : State) : List Nat := if s.ward.rowRole then [0, 1] else [0]

/-- A heartbeat and a CLAIM_CMD to every commanded stage, outside the phases (R655). -/
def commandNow (s : State) : State := forEach (myRoles s) (fun b s => claimAll b (heartbeat b s)) s

/-- A warden becomes active in its roles (R640, R641, R655, R656). -/
def becomeActive (event : Nat) (s : State) : State :=
  let c0 := nextClaim s 0
  let c1 := nextClaim s 1
  let s := takeCopy (s.modWard fun w => { w with
    active := true, rackClaim := min 0xFFFE c0, rowClaim := if w.rowRole then min 0xFFFE c1 else w.rowClaim, misses := 0, handover := none, notMine := 0, notInForce := false,
    roleAt := s.ao.rowTime })
  let s := forEach (myRoles s) firstOuts s
  let s := (s.modBus 0 fun x => { x with syncStamp := none }).modBus 1 fun x => { x with syncStamp := none }
  let s := wardRole event s
  let s := if 0xFFFF ≤ c0 || (s.ward.rowRole && decide (0xFFFF ≤ c1)) then wardRole 6 s else s
  storeWard (fabricAlert 4 (commandNow s))

/-- Messages only an active warden sends (R636). -/
def activeMsgs : List Nat := [0x04, 0x10, 0x22, 0x31, 0x32, 0x41, 0x50, 0x62]

/-- Stop sending what only an active warden sends. -/
def stopSending (s : State) : State :=
  let stop := fun (x : Bus) => { x with
    tx := x.tx.map (fun e => (e.1, e.2.map (fun t => if activeMsgs.contains t.tx.frame.msg then { t with waiting := false } else t))),
    more := x.more.filter (fun t => !activeMsgs.contains t.frame.msg) }
  (s.modBus 0 stop).modBus 1 stop

/-- A warden becomes standby in its roles (R654, R659). -/
def becomeStandby (event : Nat) (s : State) : State :=
  wardRole event (stopSending (s.modWard fun w => { w with active := false, canary := false, handover := none, peerHeard := true, misses := 0, roleAt := s.ao.rowTime }))

/-- WARDEN_START_ACTIVE: after its join no active warden has been heard for 60 ms as A, 120 ms as B (R652). -/
def startActive (s : State) : State :=
  let w := s.ward
  let wait := if w.side = 0 then 60 else 120
  if !s.stew || !w.rackRole || w.active || s.bus.rack.join != .joined || w.rackClaim == 0 || heardWithin s wait w.activeAt then s
  else becomeActive 1 s

/-- STANDBY_EVALUATION, at phase 17.0 ms of each rack cycle (R653). -/
def standbyEval (s : State) : State :=
  let w := s.ward
  if !s.stew || !w.rackRole || w.active then s
  else
    let n := if w.peerHeard then 0 else w.misses + 1
    let s := s.modWard fun w => { w with misses := n, peerHeard := false }
    if 3 ≤ n && w.rackClaim != 0 then becomeActive 2 s else s

/-- WARDEN_HB: the heartbeat is noted; an active warden that is outranked yields (R626, R652 to R654). -/
def takeHb (b : Nat) (f : Frame) (s : State) : State :=
  let d := f.body
  let h : Heard := { src := f.src, claim := fld d 0 2, flags := byteAt d 2, rack := byteAt d 3, dsn := fld d 8 8, at_ := s.now }
  let s := s.modBus b fun x => { x with hbs := x.hbs.filter (fun k => k.src != f.src) ++ [h] }
  let act := bit h.flags 2
  let role := bits h.flags 1 1
  let peer := h.rack == s.ao.rackId && bits h.flags 0 0 != s.ward.side
  let s := if act && b = 0 && role = 0 then s.modWard fun w => { w with activeAt := some s.now, peerHeard := w.peerHeard || peer } else s
  if activeIn s b && act && role == b && h.claim != 0 && outranks h.claim h.src (claimOf s b) (nodeId s b) then becomeStandby 3 s else s

/-! ### Hand-over and canary swap (R659 to R662) -/

/-- A commanded stage reports another claim than this warden's; stages in local manual control are left out. -/
def notMineAt (s : State) (b n : Nat) : Bool := (s.stage b n).at_.isSome && (s.stage b n).claim != claimOf s b

/-- The commanded stages that are not in local manual control, by bus and node. -/
def judgedStages (s : State) : List (Nat × Nat) :=
  (myRoles s).flatMap (fun b => ((commandedNodes s b).filter (fun n => !bit (s.stage b n).flags 3)).map (fun n => (b, n)))

/-- Send HANDOVER (R659). -/
def sendHandover (canary : Bool) (s : State) : State :=
  wlSend 3 (toLe 4 s.ward.rackCycle.toNat) (s.modWard fun w => { w with handover := some canary })

/-- The peer's STATE shows claims non-zero and both bus controllers not bus-off. -/
def peerFit (s : State) : Bool := match s.ward.peer with
  | some d => bit (byteAt d 8) 5 && byteAt d 9 % 4 == 0
  | none => false

/-- CANARY_RESULT (Table WARD-12). -/
def canaryResult (outcome mask : Nat) (s : State) : State := a6Rec 0x0422 [(20, 1, outcome), (24, 8, mask)] s

/-- HANDOVER: the standby answers and becomes active (R659); straight back from a failed canary it is recorded as such (R662). -/
def takeHandover (s : State) : State :=
  if s.ward.active || s.ward.rackClaim == 0 then s
  else
    let back := heardWithin s 2000 s.ward.canaryAt
    let self := match s.ward.peer with
      | some d => bit (byteAt d 9) 3
      | none => false
    let s := wlSend 4 (toLe 4 s.ward.rackCycle.toNat) s
    let s := becomeActive (if back then 5 else 4) s
    s.modWard fun w => { w with canary := !back && !self, canaryAt := none }

/-- HANDOVER_ACK: the former active becomes standby (R659). -/
def takeHandoverAck (s : State) : State :=
  match s.ward.handover with
  | none => s
  | some c => (becomeStandby 4 s).modWard fun w => { w with canaryAt := if c then some s.now else none }

/-- HANDOVER_TIMEOUT: 10 ms without HANDOVER_ACK; the active warden stays (R659). -/
def handoverTimeout (s : State) : State :=
  match s.ward.handover with
  | none => s
  | some c =>
    let s := s.modWard fun w => { w with handover := none }
    if c then canaryResult 3 0 s else s

/-- CANARY_TEST_EXPIRY: every commanded stage must report this warden's claim; else it hands straight back (R662). -/
def canaryExpiry (s : State) : State :=
  if !s.ward.active || !s.ward.canary then s
  else
    let bad := (judgedStages s).filter (fun e => (s.stage e.1 e.2).claim != claimOf s e.1)
    let s := s.modWard fun w => { w with canary := false }
    if bad.isEmpty then canaryResult 1 0 s
    else sendHandover false (canaryResult 3 ((bad.foldl (fun l e => nadd l (e.2 % 64)) []).foldl (fun m n => m + 2 ^ n) 0) s)

/-- The judgement of R660 at a rack cycle. -/
def judgeInForce (s : State) : State :=
  let js := judgedStages s
  let all := !js.isEmpty && js.all (fun e => notMineAt s e.1 e.2)
  let n := if all then s.ward.notMine + 1 else 0
  let s := s.modWard fun w => { w with notMine := n, notInForce := w.notInForce && all }
  if n < 5 || s.ward.handover.isSome then s
  else
    let s := s.modWard fun w => { w with notInForce := true }
    if peerFit s then sendHandover false s else s

/-! ### Cycles (R663 to R675) -/

/-- STAGE_EVENT (Table WARD-12). -/
def stageEvent (n event ch v : Nat) (s : State) : State := a6Rec 0x0427 [(20, 1, n), (21, 1, event), (22, 1, ch), (24, 2, v)] s

/-- Report the commanded stages unheard for 300 ms (Table WARD-12). -/
def stagesUnheard (b : Nat) (s : State) : State :=
  forEach (commandedNodes s b) (fun n s =>
    let t := s.stage b n
    if t.at_.isSome && !heardWithin s 300 t.at_ && !t.lostTold then stageEvent n 8 0 0 (modStage b n (fun t => { t with lostTold := true }) s) else s) s

/-- RACK_CYCLE, at phase 16.0 ms: the active warden allocates and drives the rack's stages; both wardens send STATE. -/
def rackCycle (s : State) : State :=
  if !s.stew || !s.ward.rackRole then s
  else
    let s := s.modWard fun w => { w with rackCycle := w.rackCycle + 1 }
    let s := if s.ward.active then judgeInForce (stagesUnheard 0 (driveOutputs 0 true (rackLaw (rackAllocate s)))) else s
    wlSend 1 (statePayload s) s

/-- ROW_BOOK (Table WARD-12). -/
def rowBookRec (s : State) : State :=
  let p := s.ward.pol
  a6Rec 0x0425 [(20, 4, p.budget), (24, 4, rackSum s), (28, 4, p.budget - rackSum s), (32, 1, ((List.range 16).filter (fun r => (s.rackBook r).lowered)).length),
    (33, 1, b2n s.ward.limited + 2 * p.exchange), (34, 2, spOf s.ward.u)] s true

/-- ROW_CYCLE, at phase 60 ms. -/
def rowCycle (s : State) : State :=
  if !s.stew || !activeIn s 1 then s
  else rowBookRec (stagesUnheard 1 (driveOutputs 1 true (rowLaw (rowAllocate (s.modWard fun w => { w with rowCycle := w.rowCycle + 1 })))))

/-- ROW_ALLOC_SILENCE: no row ALLOC for 300 ms (R675). -/
def rowAllocSilence (s : State) : State := if s.ward.rackRole then s.modWard fun w => { w with aHeld := true } else s

/-! ### Leak responses (R676, R677) -/

/-- LEAK_RESPONSE (Table WARD-12). -/
def leakResponse (step src alarm place : Nat) (s : State) : State := a6Rec 0x0424 [(20, 1, step), (21, 1, src), (22, 1, alarm), (23, 1, place)] s

/-- The commands of a leak response, out of phase. -/
def respondNow (b : Nat) (s : State) : State := claimAll b (driveOutputs b false s)

/-- RACK_ALERT on the row bus for a class 0 frame of the rack bus (Table BUS-6). -/
def relayAlert (f : Frame) (s : State) : State :=
  if s.ward.active then queueMsg 1 0x04 none true (packFlds 10 [(0, 1, s.ao.rackId), (1, 1, f.src), (2, 1, f.msg)] |>.take 4 |> (· ++ f.body.take 6 ++ List.replicate (6 - (f.body.take 6).length) 0)) s
  else s

/-- LEAK_ALERT from a module: its slot is isolated (Table WARD-9). -/
def takeLeakAlert (f : Frame) (s : State) : State :=
  let i := f.src
  if !bit (byteAt f.body 1) 0 then relayAlert f s
  else
    let s := relayAlert f (modSlotBook i (fun a => { a with leakAt := some s.now, leakSrc := byteAt f.body 0 }) s)
    if !s.ward.active || s.ward.pol.leakShut.contains i then s
    else
      let s := wardChanged 4 (s.modWard fun w => { w with pol := { w.pol with leakShut := nadd w.pol.leakShut i } })
      respondNow 0 (leakResponse 1 i (byteAt f.body 0) i s)

/-- TRIP_NOTICE is recorded and relayed (Table WARD-9). -/
def takeTrip (f : Frame) (s : State) : State :=
  relayAlert f (if s.ward.rackRole then s.modWard fun w => { w with trips := tput [] w.trips f.src (f.body.take 4) } else s)

/-- RACK_ALERT on the row bus is recorded. -/
def takeRackAlert (f : Frame) (s : State) : State :=
  if s.ward.rowRole then s.modWard fun w => { w with rackAlerts := tput [] w.rackAlerts (byteAt f.body 0) (f.body.take 10) } else s

/-- The map function of a stage's channel. -/
def fnAt (s : State) (b n ch : Nat) : Nat := (((stageMap s b).find? (fun e => e.node == n && e.channel == ch)).map (·.fn)).getD 0

/-- Begin the rack response: every slot's allocation to 0 at once. -/
def beginRack (n alarm : Nat) (s : State) : State :=
  if s.ward.pol.rackResp != .none then s
  else
    let s := rackAllocate (wardChanged 4 (s.modWard fun w => { w with pol := { w.pol with rackResp := .caps, rackBy := (n, alarm) } }))
    sendAlloc 0 (leakResponse 2 n alarm s.ao.rackId s)

/-- Begin the row response: every rack's allocation to 0 at once. -/
def beginRow (n alarm target : Nat) (s : State) : State :=
  if s.ward.pol.rowResp != .none then s
  else
    let s := rowAllocate (wardChanged 4 (s.modWard fun w => { w with pol := { w.pol with rowResp := .caps, rowTarget := target, rowBy := (n, alarm) } }))
    sendAlloc 1 (leakResponse 2 n alarm 0 s)

/-- STAGE_ALARM: noted, relayed from the rack bus, and answered as Table WARD-9 gives. -/
def takeStageAlarm (b : Nat) (f : Frame) (s : State) : State :=
  if !s.ward.rackRole then s
  else
    let d := f.body
    let n := f.src
    let ch := byteAt d 1
    let al := byteAt d 2
    let on := bit (byteAt d 3) 0
    let key := 256 * al + ch
    let s := modStage b n (fun t => { t with alarms := if on then nadd t.alarms key else t.alarms.filter (fun k => k != key) }) s
    let s := stageEvent n (if on then 1 else 2) ch (fld d 4 2) s
    let s := if b = 0 then relayAlert f s else s
    let fn := fnAt s b n ch
    if !on || !activeIn s b then s
    else if b = 0 then (if al = 1 && fn = 4 && s.ward.pol.rackAction = 0 then beginRack n al s else s)
    else if s.ward.pol.rowAction != 0 then s
    else if (al = 1 && fn = 20) || (al = 3 && fn = 19) then beginRow n al 16 s
    else if al = 4 && fn = 19 then beginRow n al 17 s
    else s

/-- LEAK_RESPONSE_DELAY: RACK_DELAY or ROW_DELAY has passed (R676). -/
def leakDelay (b : Nat) (s : State) : State :=
  if !activeIn s b then s
  else if b = 0 then
    if s.ward.pol.rackResp != .caps then s
    else respondNow 0 (leakResponse 3 s.ward.pol.rackBy.1 s.ward.pol.rackBy.2 s.ao.rackId (wardChanged 4 (s.modWard fun w => { w with pol := { w.pol with rackResp := .done } })))
  else
    if s.ward.pol.rowResp != .caps then s
    else
      let s := wardChanged 4 (s.modWard fun w => { w with pol := { w.pol with rowResp := .done } })
      respondNow 1 (leakResponse (if s.ward.pol.rowTarget = 16 then 4 else 5) s.ward.pol.rowBy.1 s.ward.pol.rowBy.2 0 s)

/-- The alarm behind a response still stands: rack rope wet, or row rope wet, sump low or sump high. -/
def alarmStands (s : State) (b : Nat) : Bool :=
  (stageMap s b).any (fun e => (s.stage b e.node).alarms.any (fun k =>
    let al := k / 256
    k % 256 == e.channel && (if b = 0 then e.fn == 4 && al == 1 else (e.fn == 20 && al == 1) || (e.fn == 19 && (al == 3 || al == 4)))))

/-- STAGE_STATUS (Table BUS-9). -/
def takeStatus (b : Nat) (f : Frame) (s : State) : State :=
  if !s.ward.rackRole then s
  else
    let d := f.body
    let n := f.src
    let old := s.stage b n
    let fl := byteAt d 3
    let lo := byteAt d 4
    let k := byteAt d 5
    let s := modStage b n (fun t => { t with
      claim := fld d 0 2, type := byteAt d 2, flags := fl, commander := byteAt d 6, at_ := some s.now, lostTold := false,
      applied := (List.range k).foldl (fun m i => tput none m (lo + i) (some (fld d (8 + 4 * i) 2))) t.applied,
      measured := (List.range k).foldl (fun m i => tput none m (lo + i) (some (fld d (10 + 4 * i) 2))) t.measured }) s
    let s := if bit fl 1 && !bit old.flags 1 then stageEvent n 3 0 0 s else s
    let s := if bit fl 0 != bit old.flags 0 then stageEvent n (if bit fl 0 then 4 else 5) 0 0 s else s
    if bit fl 3 != bit old.flags 3 then stageEvent n (if bit fl 3 then 6 else 7) 0 0 s else s

/-- ALLOC from the warden in command: this module's own entry on the rack bus, this rack's on the row bus (R627, R663). -/
def takeAlloc (b : Nat) (f : Frame) (s : State) : State :=
  let d := f.body
  let me := if b = 0 then s.ao.slotId else s.ao.rackId
  let i := me - byteAt d 0
  if !fromCommand s b f.src || bits (byteAt d 2) 0 0 != b || decide (me < byteAt d 0) || decide (byteAt d 1 ≤ i) then s
  else
    let cap := fld d (4 + 4 * i) 2
    let flow := fld d (6 + 4 * i) 2
    if b = 0 then takeOwnAlloc cap flow s else if s.ward.rackRole then takeRackAlloc cap flow s else s

/-- MODULE_BUDGET and MODULE_TELEM for a rack warden, RACK_BUDGET and RACK_TELEM for a row warden. -/
def takeModuleBudget (f : Frame) (s : State) : State := if s.ward.rackRole then takeBudget f.src f.body s else s
def takeModuleTelem (f : Frame) (s : State) : State := if s.ward.rackRole then modSlotBook f.src (fun a => { a with telem := f.body.take 20 }) s else s
def takeRackBudgetMsg (f : Frame) (s : State) : State := if s.ward.rowRole then takeRackBudget (f.src / 2) f.body s else s
def takeRackTelem (f : Frame) (s : State) : State := if s.ward.rowRole then modRackBook (f.src / 2) (fun a => { a with telem := f.body.take 12 }) s else s

/-- ANNOUNCE_REQ is answered with NODE_ANNOUNCE (Table BUS-6). -/
def takeAnnounceReq (b : Nat) (_f : Frame) (s : State) : State := announce b s

/-- FABRIC_ALERT: recorded and not relayed (R678). -/
def takeFabric (k : Nat) (m : Bytes) (s : State) : State :=
  a6Rec 0x0426 [(20, 1, byteAt m 24), (21, 1, k), (24, 8, fld m 16 8), (32, 1, byteAt m 25), (33, 1, byteAt m 26)] s

/-! ### Warden policy commands (Table WARD-11) -/

/-- The module is warden-capable (R5, R6). -/
def capable (s : State) : Bool := s.mgmt.fuses.variant == 2

/-- An active warden has been heard in this rack within the last 100 ms. -/
def pairActive (s : State) : Bool := s.ward.active || heardWithin s 100 s.ward.activeAt

/-- A command marked active, in a role, is accepted: by the active warden, or by either while neither is active (R679). -/
def accepts (s : State) (b : Nat) : Bool := capable s && s.ward.rackRole && (b == 0 || s.ward.rowRole) && (s.ward.active || !pairActive s)

/-- STATE_REFUSED. -/
def refused33 (s : State) : PolicyOut := (0x33, 0, s)

/-- The row controller cannot join: it is enabled and its listen has failed (R679). -/
def rowCannotJoin (s : State) : Bool := s.ward.rackRole && s.bus.row.join == .listening && decide (2 ≤ s.bus.row.result)

/-- COMMISSION (R638, R679). -/
def polCommission (s : State) : State :=
  policyRun 4 1 ([(24, 255), (25, 1)] ++ allBits 26 4)
    (fun d => firstBad [(decide (1 < byteAt d 24), 24), (bit (byteAt d 25) 0 == decide (fld d 28 2 = 0), 25),
      (decide (fld d 26 2 = 0 ∨ fld d 26 2 = 0xFFFF), 26), (decide (fld d 28 2 = 0xFFFF), 28)])
    (fun d s =>
      let row := bit (byteAt d 25) 0
      if !capable s || s.ward.active || (row && rowCannotJoin s) then refused33 s
      else
        let s := s.modWard fun w => { w with rackRole := true, rowRole := row, side := byteAt d 24, rackClaim := fld d 26 2, rowClaim := fld d 28 2 }
        (0, 0, storeWard (if s.bus.row.join == .off && s.ao.strapsOk then startListen 1 s else s))) s

/-- DECOMMISSION. -/
def polDecommission (s : State) : State :=
  policyRun 4 2 [] (fun _ => none)
    (fun _ s =>
      if !capable s || s.ward.active then refused33 s
      else (0, 0, storeWard ((s.modWard fun w => { w with rackRole := false, rowRole := false, rackClaim := 0, rowClaim := 0 }).modBus 1 fun _ => {}))) s

/-- The functions of a map (Table WARD-4). -/
def mapFns (row : Nat) : List Nat := if row = 0 then [1, 2, 3, 4] else [16, 17, 18, 19, 20, 21]

/-- A map entry that breaks Table WARD-3. -/
def badEntry (row : Nat) (e : MapEntry) : Bool :=
  decide (e.node < 32) || decide (63 < e.node) || decide (23 < e.channel) || !(mapFns row).contains e.fn || (e.fn == 3 && decide (31 < e.arg)) ||
  (e.fn != 3 && e.fn != 16 && e.arg != 0) || decide (10000 < e.spMin) || decide (e.spMax < e.spMin) || decide (10000 < e.spMax)

/-- An empty map entry, for positions a longer map has not been given yet. -/
def noEntry : MapEntry := { node := 0, channel := 0, fn := 0, arg := 0, spMin := 0, spMax := 0 }

/-- SET_STAGE_MAP. -/
def polStageMap (s : State) : State :=
  policyRun 4 3 (allBits 24 36)
    (fun d =>
      let row := byteAt d 24
      let n := byteAt d 26
      let bad := (List.range (min n 4)).find? (fun i => badEntry row (entryAt d (28 + 8 * i)))
      firstBad [(decide (1 < row), 24), (decide (byteAt d 27 < byteAt d 25 + n), 25), (decide (4 < n), 26), (decide ((if row = 0 then 64 else 32) < byteAt d 27), 27),
        (bad.isSome, 28 + 8 * bad.getD 0)])
    (fun d s =>
      let row := byteAt d 24
      if !accepts s row then refused33 s
      else
        let m := stageMap s row
        let put := fun (i : Nat) => if byteAt d 25 ≤ i && i < byteAt d 25 + byteAt d 26 then entryAt d (28 + 8 * (i - byteAt d 25)) else m.getD i noEntry
        let m' := (List.range (byteAt d 27)).map put
        let s := s.modWard fun w =>
          if row = 0 then { w with pol := { w.pol with rackMap := m', rackVer := (w.pol.rackVer + 1) % 65536 } }
          else { w with pol := { w.pol with rowMap := m', rowVer := (w.pol.rowVer + 1) % 65536 } }
        (0, 0, wardChanged (1 + row) s)) s

/-- SET_BUDGET. -/
def polSetBudget (s : State) : State :=
  policyRun 4 4 (allBits 24 8) (fun d => firstBad [(decide (fld d 24 4 < fld d 28 4), 24)])
    (fun d s => if !accepts s 1 then refused33 s
      else (0, 0, wardChanged 3 (s.modWard fun w => { w with pol := { w.pol with budget := fld d 24 4, rMin := fld d 28 4 } }))) s

/-- SET_EXCHANGE. -/
def polExchange (s : State) : State :=
  policyRun 4 5 (allBits 24 7)
    (fun d => firstBad [(decide (1 < byteAt d 24), 24), (decide (10000 < fld d 25 2), 25), (decide (350 < fld d 27 2), 27), (decide (fld d 29 2 < 320 ∨ 720 < fld d 29 2), 29)])
    (fun d s => if !accepts s 1 then refused33 s
      else (0, 0, wardChanged 3 (s.modWard fun w => { w with pol := { w.pol with exchange := byteAt d 24, eco := fld d 25 2, floor := fld d 27 2, supply := fld d 29 2 } }))) s

/-- SET_SLEW. -/
def polSlew (s : State) : State :=
  policyRun 4 6 (allBits 24 2) (fun d => firstBad [(decide (fld d 24 2 < 100 ∨ 10000 < fld d 24 2), 24)])
    (fun d s => if !accepts s 0 then refused33 s else (0, 0, wardChanged 5 (s.modWard fun w => { w with pol := { w.pol with slew := fld d 24 2 } }))) s

/-- SET_LEAK. -/
def polLeak (s : State) : State :=
  policyRun 4 7 (allBits 24 4)
    (fun d => firstBad [(decide (1 < byteAt d 24), 24), (decide (30 < byteAt d 25), 25), (decide (1 < byteAt d 26), 26), (decide (60 < byteAt d 27), 27)])
    (fun d s => if !accepts s 0 then refused33 s
      else (0, 0, wardChanged 4 (s.modWard fun w => { w with pol := { w.pol with rackAction := byteAt d 24, rackDelay := byteAt d 25, rowAction := byteAt d 26, rowDelay := byteAt d 27 } }))) s

/-- SLOT_VALVE (R668). -/
def polSlotValve (s : State) : State :=
  policyRun 4 8 (allBits 24 2) (fun d => firstBad [(decide (31 < byteAt d 24), 24), (decide (1 < byteAt d 25), 25)])
    (fun d s =>
      let i := byteAt d 24
      if !accepts s 0 then refused33 s
      else if byteAt d 25 = 0 then (0, 0, wardChanged 5 (s.modWard fun w => { w with pol := { w.pol with valveShut := nadd w.pol.valveShut i } }))
      else if heardWithin s 2000 (s.slotBook i).leakAt then refused33 s
      else
        let was := s.ward.pol.leakShut.contains i
        let s := wardChanged 4 (wardChanged 5 (s.modWard fun w =>
          { w with pol := { w.pol with valveShut := w.pol.valveShut.filter (fun j => j != i), leakShut := w.pol.leakShut.filter (fun j => j != i) } }))
        (0, 0, if was then leakResponse 7 i (s.slotBook i).leakSrc i s else s)) s

/-- SLOT_RELEASE (R665). -/
def polSlotRelease (s : State) : State :=
  policyRun 4 9 (allBits 24 1) (fun d => firstBad [(decide (31 < byteAt d 24), 24)])
    (fun d s =>
      let i := byteAt d 24
      if !accepts s 0 || heardWithin s 10000 (s.slotBook i).at_ then refused33 s
      else (0, 0, wardChanged 5 (modSlotBook i (fun a => { a with cap := 0, lowered := false }) (s.modWard fun w => { w with pol := { w.pol with released := nadd w.pol.released i } })))) s

/-- What refuses a CANARY_SWAP (R662). -/
def canaryBarred (s : State) : Bool :=
  !capable s || !s.ward.active || !linkUpW s || slewing s || s.ward.pol.rackResp != .none || s.ward.pol.rowResp != .none || !s.ward.pol.leakShut.isEmpty || !peerFit s

/-- CANARY_SWAP. -/
def polCanary (s : State) : State :=
  policyRun 4 10 [] (fun _ => none) (fun _ s => if canaryBarred s then refused33 (canaryResult 2 0 s) else (0, 0, sendHandover true s)) s

/-- LEAK_RESET (R677). -/
def polLeakReset (s : State) : State :=
  policyRun 4 11 (allBits 24 1) (fun d => firstBad [(decide (1 < byteAt d 24), 24)])
    (fun d s =>
      let b := byteAt d 24
      if !accepts s b || alarmStands s b then refused33 s
      else if (if b = 0 then s.ward.pol.rackResp else s.ward.pol.rowResp) == .none then (0, 0, s)
      else
        let o := if b = 0 then s.ward.pol.rackBy else s.ward.pol.rowBy
        let s := s.modWard fun w => { w with pol := if b = 0 then { w.pol with rackResp := .none } else { w.pol with rowResp := .none, rowTarget := 0 } }
        (0, 0, leakResponse 6 o.1 o.2 (if b = 0 then s.ao.rackId else 0) (wardChanged 4 s))) s

/-- WARD_STATUS, with RACK_BOOK from an active rack warden (Table WARD-12). -/
def wardStatus (timer : Bool) (s : State) : State :=
  let w := s.ward
  let p := w.peer.getD []
  let all := (myRoles s).flatMap (fun b => (commandedNodes s b).map (fun n => (b, n)))
  let s := a6Rec 0x0420 [(20, 1, stateByte8 s), (21, 1, stateByte9 s), (22, 2, w.rackClaim), (24, 2, w.rowClaim), (26, 2, fld p 4 2), (28, 2, w.pol.rackVer), (30, 2, fld p 10 2),
    (32, 2, w.pol.rowVer), (34, 2, fld p 12 2), (36, 1, all.length), (37, 1, (all.filter (fun e => (s.stage e.1 e.2).claim == claimOf s e.1)).length), (38, 6, w.roleAt.toNat)] s timer
  if timer && w.active then
    a6Rec 0x0428 [(20, 2, w.a), (22, 2, min 65535 (slotSum s)), (24, 1, (heardSlots s).length), (25, 1, ((List.range 32).filter (fun i => (s.slotBook i).lowered)).length),
      (26, 2, spOf w.v)] s true
  else s

/-- WARD_NOW. -/
def polWardNow (s : State) : State := policyRun 4 12 [] (fun _ => none) (fun _ s => (0, 0, wardStatus false s)) s

end Sys2Proof.Machine
end

