-- ==== Sys2Proof/Machine/Settle.lean ====
section
/-! DEFINITION. What follows by itself from a command, and the operations that end with it. -/

namespace Sys2Proof.Machine

/-- Everything that a command has made possible: prepared commands, slots, operations of collective groups. -/
def settle (s : State) : State := collRefresh (refresh (progress s))

/-- Bus Master Enable becomes 1: completions, records and messages go out in order, and everything else that waited goes on (R160). -/
def busMasterOn (f : Nat) (s : State) : State :=
  let s := s.modFn f fun x => { x with bme := true }
  let s := forEach (ctxsWhere (fun c => c.cage == f && c.ph == .ending) s) tryComplete s
  settle (dblCheck f (flushMsi f (resumeFn f s)))


/-- Issue a descriptor of one opcode, with what follows (R208). -/
def ringOp (op : Nat) (o : OpSpec) (f r : Nat) (act : Nat → State → State) (s : State) : State := settle (issueOp op o f r act s)

/-- Issue a descriptor whose opcode is not in Table RING-3: it ends BAD_OPCODE (R191). -/
def ringUnknown (f r : Nat) (s : State) : State :=
  settle (issueWhen (fun x => !knownOps.contains x) f r (fun n s => endCmd n 0x10 0 0 s) s)

end Sys2Proof.Machine
end

