-- ==== Sys2Proof/Machine/Reset.lean ====
section
/-! DEFINITION. The four reset scopes, the main kill and what they reset and keep (R41 to R45, R58 to R65, R126, R156 to R159, R224, R283, R284, R705, R739, R742 to R749). -/

namespace Sys2Proof.Machine

/-! ### The reset-cause record (R60, R705) -/

/-- The kill causes as byte 22 of RESET_NOTICE holds them. -/
def KillCauses.code (k : KillCauses) : Nat := b2n k.die + 2 * b2n k.stack + 4 * b2n k.tape + 8 * b2n k.mass + 16 * b2n k.ext

/-- The body of RESET_NOTICE. -/
def noticeBody (c : ResetCause) : List Fld := [(20, 1, c.scope), (21, 1, c.trigger), (22, 1, c.kill.code), (24, 6, c.rowTime.toNat)]

/-- Keep the cause of a reset. -/
def keepCause (scope trigger : Nat) (s : State) : State :=
  s.modAo fun a => { a with cause := { scope := scope, trigger := trigger, kill := a.causes, rowTime := a.rowTime } }

/-- Keep the cause of a compute-plane reset and queue its notice. -/
def noteReset (trigger : Nat) (s : State) : State :=
  let s := keepCause 1 trigger s
  a6Rec 1 (noticeBody s.ao.cause) s

/-- START_EVENT (Table START-8). -/
def startEvent (event unmet : Nat) (s : State) : State :=
  a6Rec 0x0510 [(20, 1, event), (21, 1, min 255 s.sup.fails), (22, 2, unmet), (24, 6, s.ao.rowTime.toNat)] s

/-! ### Function reset (R156 to R159, R224, R283) -/

/-- The rings of a function: slots are released, registers return to their reset values, waiting records go (R224). -/
def resetRings (f : Nat) (s : State) : State :=
  let s := forEach ((List.range 32).filter (fun i => (s.slot i).st != .free && (s.slot i).st != .swapping && (s.slot i).ring / 16 == f)) swapOut s
  s.modRings fun r => { r with
    rings := r.rings.filter (fun e => e.1 / 16 != f)
    rpts := tdel r.rpts f
    rptWait := r.rptWait.filter (fun e => e.1 != f && e.2.cage != f)
    events := r.events.filter (fun e => e.1 / 64 != f)
    policies := r.policies.filter (fun e => (tget {} r.ctxs e.2).cage != f)
    ctxs := r.ctxs.map (fun e => if e.2.cage == f && e.2.ph != .free then (e.1, { ph := .dropped, ring := e.2.ring }) else e) }

/-- Requests of a function: translations are forgotten, completions of reads will be discarded, acknowledgements free no context (R156, R224). -/
def resetReqs (f : Nat) (s : State) : State :=
  let mine := fun (n : Nat) => (s.ctx n).cage == f
  s.modHost fun h => { h with
    reqs := (h.reqs.filter (fun r => !(r.fn == f && r.xl))).map (fun r => if r.fn == f then { r with why := .discarded } else r)
    tx := h.tx.map (fun t => match t.ctx with
      | some n => if mine n then { t with ctx := none } else t
      | none => t)
    atc := h.atc.filter (fun e => e.fn != f) }

/-- The pages of a cage: every page is unmapped, its frame dirty, its moves stopped; plans of other cages that counted its pages recount (R283). -/
def resetPages (c : Nat) (s : State) : State :=
  let plans := (s.cages.moves.filter (fun m => m.cage == c && m.evict)).map (·.plan)
  let s := forEach ((cagePages s c).map (·.1)) (fun p s => (unmapPage c p s).modPage c p fun _ => {}) s
  let s := s.modCages fun x => { x with moves := x.moves.filter (fun m => m.cage != c), permits := x.permits.filter (fun e => c != 0 && e.1 != c) }
  let s := s.modCage c fun g => { g with poolBase := 0, poolSlots := 0, poolFaulted := false }
  forEach plans.eraseDups mendPlan s

/-- The configuration and HOST registers of a function after its reset; AER is kept, as PCI Express keeps sticky bits (log entry 60). -/
def Fn.reset (x : Fn) (d3 : Bool) : Fn :=
  { present := x.present, rrs := x.rrs, flr := true, d3Pending := d3, ecrc := x.ecrc, aerCor := x.aerCor, aerUnc := x.aerUnc, aerHdr := x.aerHdr,
    readsOut := x.readsOut.map (fun d => { d with discard := true }) }

/-- The effects of a function reset on function and cage f, apart from its notice. -/
def funcEffects (f : Nat) (d3 : Bool) (s : State) : State :=
  let s := (s.cages.adms.filter (fun a => a.cage == f)).foldl (fun s a => dropAdm a s) s
  let s := forEach (handlesOf s f) forgetGroup s
  let s := forEach (ctxsWhere (fun c => c.cage == f) s) cancelPlans s
  let s := resetPages f (resetRings f (resetReqs f s))
  s.modFn f fun x => x.reset d3

/-- The RESET_NOTICE of a function reset, written by the control plane on the PF ring (R705, Table CAGE-9). -/
def funcNotice (f trigger : Nat) (s : State) : State :=
  let s := keepCause 0 trigger s
  report 0 (ctlRec 1 (noticeBody s.ao.cause) s f) s

/-- A VF's function reset (R156): one already under way goes on (R158). -/
def funcReset (f trigger : Nat) (d3 : Bool) (s : State) : State :=
  if (s.fn f).flr then s else settle (funcNotice f trigger (funcEffects f d3 s))

/-- The VFs that exist. -/
def vfsOf (s : State) : List Nat := ((List.range 255).map (· + 1)).filter (fun v => (s.fn v).present)

/-- Every VF is reset and ceases to exist; its cage is ABSENT and its quotas are forgotten (R126, R284). -/
def endVfs (s : State) : State :=
  let s := forEach (vfsOf s) (fun v s => if (s.fn v).flr then s else funcEffects v false s) s
  let s := forEach (vfsOf s) (fun v s => (s.modFn v fun x => { x with present := false }).modCage v fun _ => {}) s
  s.modHost fun h => { h with vfEn := false }

/-- VF_ENABLE_CLEAR (R126). -/
def vfDisable (s : State) : State :=
  if !s.host.ready || !s.host.vfEn then s else settle (funcNotice 0 3 (endVfs s))

/-- The PF's function reset: it clears VF Enable, and so resets all functions; cage 0 returns to R231 (R58, R284). -/
def pfReset (trigger : Nat) (d3 : Bool) (s : State) : State :=
  if (s.fn 0).flr then s
  else
    let s := funcEffects 0 d3 (endVfs s)
    let s := s.modHost fun h => { h with ari := false, numVfs := 0, vfMse := false, tags10 := false }
    let s := s.modCages fun x => { x with cages := ({} : Cages).cages, permits := [] }
    settle (funcNotice 0 trigger s)

/-- FLR and D3hot entry (R156, R159): D3hot during a running reset is entered when that reset completes. -/
def flr (f : Nat) (d3 : Bool) (s : State) : State :=
  if !(s.fn f).present || !s.host.ready then s
  else if (s.fn f).flr then (if d3 then s.modFn f fun x => { x with d3Pending := true } else s)
  else if f = 0 then pfReset (if d3 then 4 else 2) d3 s
  else funcReset f (if d3 then 4 else 1) d3 s

/-- FLR_COMPLETE: the contexts of the cage are freed (R224). -/
def flrComplete (f : Nat) (s : State) : State :=
  if !(s.fn f).flr then s
  else
    let s := s.modRings fun r => { r with ctxs := r.ctxs.filter (fun e => !(e.2.cage == f && e.2.ph == .dropped)) }
    settle (s.modFn f fun x => { x with flr := false, d3 := x.d3Pending, d3Pending := false })

/-! ### Compute-plane reset (R38, R58, R64) -/

/-- All state of the MAIN planes returns to its reset value; the trace buffer keeps its contents while MAIN-core stays powered (R58, R64, R723).
No command shows the contents of device memory afterwards before they are zeroed (R253), so they are listed as empty (log entry 61). -/
def wipeMain (s : State) : State :=
  let s := { s with host := {}, rings := {}, cages := {}, beat := {}, mem := {}, links := [], coll := {} }
  let s := s.modAdit fun a => { a with a1 := none, a2Taken := true, a3up := [], a3down := [], a5out := [], mirrors := [] }
  s.modMgmt fun m => { m with traceEn := false, traceFreeze := true, frozen := false }

/-- What the management plane does when the MAIN planes go down (R38, R499, R507, R534, R549). -/
def mainGone (s : State) : State :=
  let s := s.modPower fun p => { p with noA2 := true, framed := false, lockQ := [] }
  stackZonesOff (endManifests s)

/-- A compute-plane reset with MAIN power on (triggers 10 to 13 and 16); without MAIN power there is nothing to reset. -/
def computeReset (trigger : Nat) (s : State) : State :=
  if !s.ao.aux || !s.sup.regs then s
  else
    let s := mainGone (wipeMain s)
    noteReset trigger (s.modSup fun u => { u with planes := false, modReady := false })

/-- MAIN_EN is released and the MAIN domains lose power, with a compute-plane reset; a trigger is noted (R53, R58, R723). -/
def mainDown (trigger : Option Nat) (s : State) : State :=
  let was := s.sup.mainEn || s.sup.regs
  let s := if was then mainGone (wipeMain s) else s
  let s := (s.modSup fun u => { u with mainEn := false, mainIn := false, regs := false, planes := false, modReady := false, offPending := false }).modPower fun p => { p with rail := 0 }
  let s := (s.modMgmt fun m => { m with trace := [] }).modAo fun a => { a with stackTrip := false }
  match was, trigger with
  | true, some t => noteReset t s
  | _, _ => s

/-! ### Heat dump (R739, R740) -/

/-- A heat dump begins; one that runs already is not restarted. -/
def dumpStart (s : State) : State :=
  if !s.stew || s.sup.dump != .none then s else startEvent 8 0 (s.modSup fun u => { u with dump := .run })

/-- A leak stops the pump at once. -/
def leakStop (s : State) : State :=
  if s.sup.dump == .leak then s
  else
    let s := abortCapture (s.modSup fun u => { u with dump := .leak })
    let s := s.modPump fun q => { q with st := .stopped, duty := 0, crossings := [], zcRun := 0, zcSeen := false, slow := false, runMs := 0, limitMs := 0 }
    startEvent 8 0 s

/-- The drive may be kicked: life cycle MAKER or FIELD, no leak verdict, a dry tape (R726 step 4, Table START-4). -/
def kickAllowed (s : State) : Bool :=
  s.stew && (s.mgmt.fuses.lc == .maker || s.mgmt.fuses.lc == .field) && s.pump.leak == 0 && !s.ao.tapeWet

/-- After a leak stop: a kick once no leak verdict is latched and the tape reads dry (Table START-4). -/
def leakLifted (s : State) : State :=
  if s.sup.dump == .leak && kickAllowed s then startKick (s.modSup fun u => { u with dump := .none }) else s

/-- HEAT_DUMP_END: the mode in force resumes (R574, R739). -/
def dumpEnd (s : State) : State :=
  if s.sup.dump == .run then
    let s := startEvent 9 0 (s.modSup fun u => { u with dump := .none })
    if s.pump.speedMode || s.pump.st != .run then s
    else let r := normSpeed s (sMeas s); s.modPump fun q => { q with sRef := r.1, atEdge := r.2 }
  else s

/-! ### The kill latch (R41 to R44, R742 to R746) -/

/-- Some trip source of this module reads asserted (R742). -/
def ownSource (s : State) : Bool := s.ao.dieTrip || (s.ao.stackTrip && s.sup.regs) || s.ao.tapeWet || s.ao.massTrip

/-- The temperature of TRIP_NOTICE: the die's, the hottest stack's, else none. -/
def tripTemp (cause : Nat) (s : State) : Nat :=
  if cause = 1 then readCode (dieVal s) else if cause = 2 then readCode (maxI (readings s ((List.range 8).map (· + 16)))) else 0

/-- A trip line is asserted: the latch sets, MAIN power goes, TRIP_N is driven low (R41 to R43). `cause` is that of TRIP_NOTICE (Table BUS-7). -/
def kill (cause : Nat) (s : State) : State :=
  let leak := cause == 3 || cause == 4
  let s := s.modAo fun a => { a with
    clean := false, released := false, tripDrive := true
    causes := { die := a.causes.die || cause == 1, stack := a.causes.stack || cause == 2, tape := a.causes.tape || cause == 3, mass := a.causes.mass || cause == 4,
                ext := a.causes.ext || cause == 5 } }
  if s.ao.latch then (if leak then leakStop s else s)
  else
    let temp := tripTemp cause s
    let ks := s.now :: s.ao.kills.filter (fun t => decide (s.now - t ≤ 3600 * ticksPerSecond))
    let full := decide (3 ≤ ks.length) && !s.ao.suspended
    let s := s.modAo fun a => { a with latch := true, kills := ks, suspended := a.suspended || full }
    let was := s.sup.mainEn
    let s := fabricAlert 2 s
    let s := mainDown (some 14) s
    let s := if full then startEvent 10 0 s else s
    let s := if s.stew then tripNotice cause true temp s else s
    if leak then leakStop s else if was then dumpStart s else s

/-- The latch clears: the module resumes at step 7 (R746). -/
def clearLatch (s : State) : State :=
  let cause := if s.ao.causes.die then 1 else if s.ao.causes.stack then 2 else if s.ao.causes.tape then 3 else if s.ao.causes.mass then 4 else 5
  let s := s.modAo fun a => { a with latch := false, causes := {}, tripStacks := [], tripDrive := false, released := false, clean := false }
  startEvent 7 0 (if s.stew then tripNotice cause false (tripTemp cause s) s else s)

/-- Row time is unsynced, or has been in holdover for more than 10 s (R744). -/
def releasedMode (s : State) : Bool :=
  !s.bus.clock.synced || (s.bus.clock.holdover && decide (10 * ticksPerSecond < s.now - s.bus.clock.since))

/-- TRIP_SOURCES_CLEAN: every own source has read deasserted for 10 s (R742, R744). -/
def sourcesClean (s : State) : State :=
  if !s.ao.latch || ownSource s then s
  else if releasedMode s then s.modAo fun a => { a with clean := true, released := true, tripDrive := false }
  else s.modAo fun a => { a with clean := true }

/-- TRIP_RELEASE_WINDOW: the 50 µs window of a clean, synced module, with the level sampled (R743, R745). -/
def releaseWindow (high : Bool) (s : State) : State :=
  if s.ao.latch && s.ao.clean && !s.ao.released && !releasedMode s && !s.ao.suspended && high then clearLatch s else s

/-- RELEASED_MODE_CLEAR: TRIP_N has read high for 20 µs (R744, R745). -/
def releasedClear (s : State) : State :=
  if s.ao.latch && s.ao.clean && s.ao.released && !s.ao.suspended then clearLatch s else s

/-! ### Module and cold reset (R58 to R61, R65, R738, R740, R747) -/

/-- Ask for a module reset; the always-on block carries it out once no store is in progress (R59). -/
def askReset (trigger : Nat) (s : State) : State :=
  if s.ao.aux && s.ao.resetDue.isNone then s.modAo fun a => { a with resetDue := some trigger } else s

/-- What the steward, the controllers and the adits lose in a module reset; what the always-on block, the fuses, the store and the drive keep (R58, R65, R563). -/
def wipeSteward (s : State) : State :=
  let m := s.mgmt
  let p := s.pump
  { s with
    mgmt := { fuses := m.fuses, slot0 := m.slot0, slot1 := m.slot1, running := m.running, fresh := m.fresh, eidSmbus := m.eidSmbus, eidVdm := m.eidVdm, out := m.out,
              regions := m.regions, seqs := m.seqs }
    pump := { st := p.st, duty := p.duty, crossings := p.crossings, step := p.step, duty500 := p.duty500, qWard := p.qWard }
    power := { cRow := s.power.cRow }
    heat := {}
    bus := { clock := { s.bus.clock with last := none } }
    ward := { a := s.ward.a, aFlow := s.ward.aFlow }
    adit := {}
    sup := { perstHigh := s.sup.perstHigh } }

/-- The straps are read (R76, R77). -/
def readStraps (slot rack par : Nat) (s : State) : State :=
  let ones := ((List.range 5).map (fun i => b2n (bit slot i))).sum + ((List.range 4).map (fun i => b2n (bit rack i))).sum + par % 2
  s.modAo fun a => { a with slotId := slot % 32, rackId := rack % 16, strapsOk := ones % 2 == 1 }

/-- MODULE_RESET: the reset asked for, once no store is in progress (R59, R60, R76). -/
def moduleReset (slot rack par : Nat) (s : State) : State :=
  match s.ao.resetDue with
  | none => s
  | some t =>
    if s.mgmt.storing.isSome then s
    else
      let s := wipeSteward (mainDown none s)
      let s := keepCause 2 t (s.modAo fun a => { a with resetDue := none, noticeDue := true })
      if s.mgmt.fuses.lc == .blank then s else readStraps slot rack par s

/-- A store in progress when AUX goes is torn (R58, R710). -/
def tearStore (m : Mgmt) : Tbl StoreRec := match m.storing with
  | some j => tins m.regions j.kind .torn
  | none => m.regions

/-- Everything but the fuses and the store (R58). -/
def coldWipe (s : State) : State :=
  let m := s.mgmt
  { pending := s.pending, free := s.free, now := s.now,
    sup := { perstHigh := s.sup.perstHigh },
    mgmt := { fuses := m.fuses, slot0 := m.slot0, slot1 := m.slot1, fresh := m.fresh, out := m.out, regions := tearStore m, seqs := m.seqs } }

/-- AUX_APPLIED: cold reset and the straps; trigger 31 when AUX returns from a brown-out without having been removed (R58, R705, R726). -/
def auxApplied (slot rack par : Nat) (removed : Bool) (s : State) : State :=
  if s.ao.aux then s
  else
    let t := if s.ao.cause.trigger == 31 && !removed then 31 else 30
    let s := keepCause 3 t (coldWipe s)
    if s.mgmt.fuses.lc == .blank then s else readStraps slot rack par s

/-- AUX_BROWN_OUT: everything is off, and a store in progress is torn (R53, R756). -/
def brownOut (s : State) : State :=
  if !s.ao.aux then s
  else
    let s := coldWipe s
    keepCause 3 31 (s.modAo fun a => { a with aux := false })

end Sys2Proof.Machine
end

