-- ==== Sys2Proof/Machine/Mgmt.lean ====
section
/-! DEFINITION. Management: life-cycle codes, sensors as PLDM shows them, mirror registers, cooling health, host silence, the store and POLICY class 5 (R692 to R711, R776). -/

namespace Sys2Proof.Machine

/-- The number of a life-cycle state (Table MGMT-18). -/
def LifeCycle.code : LifeCycle → Nat
  | .blank => 0
  | .maker => 1
  | .field => 2
  | .returned => 3
  | .retired => 4

/-- RETURNED or RETIRED: the module has no PCIe function and joins no bus (Table MGMT-13). -/
def outOfUse (s : State) : Bool := s.mgmt.fuses.lc == .returned || s.mgmt.fuses.lc == .retired

/-! ### Sensors (Tables MGMT-4 and MGMT-5) -/

/-- The state listed last among those that hold; state 1 when none of the others does (R694). -/
def lastState (l : List Bool) : Nat := l.zipIdx.foldl (fun n e => if e.1 then e.2 + 2 else n) 1

/-- Sensor 112: Idle, Held, Busy, Fault. -/
def storeState (s : State) : Nat := lastState [s.mgmt.hold, s.mgmt.storing.isSome, s.mgmt.storeFault]

/-- No warden is in command of the rack bus. -/
def wardenSilent (s : State) : Bool := (inCommand s 0).isNone

/-- The warden needs commissioning: its record was torn, or its claims are 0 (R639, R711). -/
def commNeeded (s : State) : Bool := wardTorn s || (s.ward.rackRole && s.ward.rackClaim == 0)

/-- The state of a state sensor (Table MGMT-5). -/
def stateSensor (s : State) (id : Nat) : Nat :=
  let p := s.pump
  if id = 101 then s.mgmt.health + 1
  else if id = 102 then lastState [(s.thr 0).active, (s.thr 1).active, s.ao.dieTrip || (s.ao.latch && s.ao.causes.die)]
  else if id = 103 then lastState [p.tapeFault, p.blind, p.leak != 0]
  else if id = 104 then p.st.code + 1
  else if id = 105 then lastState [p.ageLevel != 0, phaseOpen s, p.ageLevel == 2, p.st == .stalled]
  else if id = 106 then lastState [s.power.nCap != 0, s.power.fault, s.power.unmeetable]
  else if id = 107 then lastState [s.sup.mainEn, s.sup.unsolicited, s.ao.latch]
  else if id = 108 then lastState [!s.ao.strapsOk, s.bus.rack.conflict || s.bus.row.conflict]
  else if id = 109 then lastState [wardenSilent s, s.mgmt.silent, wardenSilent s && s.mgmt.silent]
  else if id = 110 then lastState [capable s, capable s && commNeeded s, s.ward.rackRole && !s.ward.active, s.ward.active]
  else if id = 111 then s.mgmt.fuses.lc.code
  else if id = 112 then storeState s
  else lastState [s.heat.dew]

/-- The threshold state of a numeric sensor: 1 normal, 2 warning, 3 critical, 4 fatal (R693). -/
def numState (s : State) (id : Nat) : Nat :=
  let on := fun t => (s.thr t).active
  if id = 1 then lastState [on 0, on 1, s.ao.latch && s.ao.causes.die]
  else if id = 2 then lastState [(List.range 8).any (fun i => on (2 + i)), false, s.ao.latch && s.ao.causes.stack]
  else if 3 ≤ id && id ≤ 10 then lastState [on (id - 1), false, s.ao.latch && s.ao.tripStacks.contains (id - 3)]
  else if id = 11 then lastState [on 11]
  else if id = 12 then lastState [on 10]
  else if id = 22 then s.pump.ageLevel + 1
  else 1

/-- The reading of a numeric sensor in its resolution, none while its source is invalid or unpowered (R692). -/
def numReading (s : State) (id : Nat) : Option Int :=
  let powered := fun (x : Option Int) => if s.sup.regs then x else none
  if id = 1 then dieVal s
  else if id = 2 then powered (maxI (readings s ((List.range 8).map (· + 16))))
  else if 3 ≤ id && id ≤ 10 then powered (sensorVal s (13 + id))
  else if id = 11 then (inletVal s).map (fun t => rne (16 * t))
  else if id = 12 then (outletVal s).map (fun t => rne (16 * t))
  else if id = 13 then sensorVal s 28
  else if id = 14 then sensorVal s 29
  else if id = 15 then sensorVal s 30
  else if id = 16 then s.heat.dewPoint
  else if id = 17 then sensorVal s 31
  else if id = 18 then (if s.power.fault then none else powered (some (rne (measured s))))
  else if id = 19 then some (rne (capEff s))
  else if id = 20 then (if s.power.fault then none else powered (some (rne (100 * inputV s))))
  else if id = 21 then some (rne (sMeas s / 10))
  else if id = 22 then (ageIndex s).map (fun x => rne (1000 * x))
  else if id = 23 then powered (some ((((runningMgs s).map (fun e => e.2.n)).foldl max 0 : Nat) : Int))
  else some ((peakOf s.heat.forecast : Nat) : Int)

/-- Put an event into the PLDM event queue, while a receiver is named; a full queue displaces its oldest (R698, R699). -/
def pldmEvent (e : PldmEvent) (s : State) : State :=
  match s.mgmt.receiver with
  | none => s
  | some (b, _) => s.modMgmt fun m =>
      let m := if m.events.length < 32 then { m with events := m.events ++ [e] }
        else { m with events := m.events.drop 1 ++ [e], eventDrops := m.eventDrops + 1, eventSent := false, eventTries := 0 }
      { m with alertLow := m.alertLow || b == .smbus }

/-- The sensors whose changes send events. -/
def eventSensors : List Nat := [1, 2, 3, 4, 5, 6, 7, 8, 9, 10, 11, 12, 22, 101, 102, 103, 104, 105, 106, 107, 108, 109, 110, 111, 112, 113]

/-- Follow one sensor (R693, R694, R698). -/
def watchSensor (id : Nat) (s : State) : State :=
  let v := if id < 100 then numState s id else stateSensor s id
  let old := tget 1 s.mgmt.sensors id
  if v = old then s
  else pldmEvent { sensor := id, numeric := decide (id < 100), state := v, prev := old } (s.modMgmt fun m => { m with sensors := tput 1 m.sensors id v })

/-! ### Mirror registers (R776) -/

/-- PUMP.INFO (Table PUMP-5). -/
def pumpInfo (s : State) : Nat := 2 + 60 * 2 ^ 4 + (validBands s.pump.skips).length * 2 ^ 12 + badBands s.pump.skips * 2 ^ 15

/-- BUS.INFO (R632). -/
def busInfo (s : State) : Nat :=
  nodeId s 0 % 64 + (if busEnabled s 1 then nodeId s 1 % 64 else 0) * 2 ^ 6 + b2n (busEnabled s 1) * 2 ^ 12 + b2n (s.bus.rack.join == .joined) * 2 ^ 13 +
    b2n (s.bus.row.join == .joined) * 2 ^ 14 + b2n s.bus.clock.synced * 2 ^ 15

/-- WARD.INFO (R680). -/
def wardInfo (s : State) : Nat :=
  let w := s.ward
  if !capable s then 0
  else 1 + b2n w.rackRole * 2 + b2n w.rowRole * 4 + w.side % 2 * 8 + b2n w.active * 16 + b2n (linkUpW s) * 32 + w.rackClaim % 65536 * 2 ^ 16

/-- MGMT.INFO (Table MGMT-18). -/
def mgmtInfo (s : State) : Nat :=
  (runningFw s).version % 65536 + s.mgmt.running % 2 * 2 ^ 16 + b2n s.mgmt.silent * 2 ^ 17 + b2n s.mgmt.storeFault * 2 ^ 18

/-- LC.STATUS (Table MGMT-18). -/
def lcStatus (s : State) : Nat :=
  let f := s.mgmt.fuses
  f.lc.code + f.returns % 4 * 8 + f.returns % 4 * 32 + b2n (f.enrolled.contains f.returns) * 128 + b2n s.mgmt.unlocked * 256

/-- The mirror registers by offset, with their values (R776). -/
def mirrorValues (s : State) : List (Nat × Nat) :=
  [(0x1700, pumpInfo s)] ++ (List.range 4).map (fun k => (0x1710 + 4 * k, s.pump.skips.getD k 0)) ++
  [(0x1800, busInfo s), (0x1900, wardInfo s), (0x1A00, mgmtInfo s), (0x1B00, lcStatus s)]

/-- Send one mirror value. -/
def mirrorSend (e : Nat × Nat) (s : State) : State := a6Push (.mirror e.1 e.2) (s.modMgmt fun m => { m with mirrored := tput 0 m.mirrored e.1 e.2 })

/-- Send the mirror values that have changed (R776). -/
def mirrorChanges (s : State) : State :=
  (mirrorValues s).foldl (fun t e => if tget 0 t.mgmt.mirrored e.1 = e.2 then t else mirrorSend e t) s

/-- Send every mirror value, every 100 ms (R776). -/
def mirrorAll (s : State) : State := (mirrorValues s).foldl (fun t e => mirrorSend e t) s

/-- SERVICE_N is driven low: a leak verdict, a pump alarm, a tape fault or a strap fault (R71, R77, R92, R569, R606). -/
def serviceWanted (s : State) : Bool :=
  s.pump.leak != 0 || pumpAlarm s || s.pump.tapeFault || !s.ao.strapsOk || s.bus.rack.conflict || s.bus.row.conflict

/-- What the management plane does after every command that touches it: PLDM sensors, SERVICE_N and the mirror registers follow the state. -/
def watch (s : State) : State :=
  if !s.stew then s
  else
    let s := forEach eventSensors watchSensor s
    mirrorChanges (s.modMgmt fun m => { m with serviceLow := serviceWanted s })

/-! ### Cooling health (R700, R701) -/

/-- The conditions of Table MGMT-7 that hold. -/
def coolBits (s : State) : Nat :=
  let p := s.pump
  let zones := ((List.range 6).filter (fun z => (s.zone z).faulted)).length
  let c := s.ao.causes
  ([p.ageLevel == 1, p.tapeFault, p.blind, decide (3000 ≤ s.mgmt.diagRun), zones == 1, s.heat.dew, p.qWard != 0 && wardenSilent s, decide (500 ≤ s.mgmt.limitRun),
    bit s.power.lastReasons 8, pumpAlarm s, p.leak != 0, s.power.unmeetable, (s.thr 10).active, decide (2 ≤ zones),
    s.ao.latch && (c.die || c.stack || c.tape || c.mass)].zipIdx.map (fun e => if e.1 then 2 ^ e.2 else 0)).sum

/-- The level that a set of conditions gives. -/
def coolLevel (b : Nat) : Nat := if 512 ≤ b then 2 else if 0 < b then 1 else 0

/-- Judge COOLING_HEALTH at a module cycle: a rise at once, a fall after the lower level has held for 10 s (R700, R701). -/
def coolHealth (s : State) : State :=
  let s := s.modMgmt fun m => { m with
    diagRun := if diagDeferred s then min 3000 (m.diagRun + 1) else 0
    limitRun := if atLimit s && flowRequest s != 0 then min 500 (m.limitRun + 1) else 0 }
  let b := coolBits s
  let l := coolLevel b
  let s := s.modMgmt fun m => { m with healthZero := if l = 0 then min 500 (m.healthZero + 1) else 0, healthRun := if l ≤ 1 then min 500 (m.healthRun + 1) else 0 }
  let old := s.mgmt.health
  let new := if old ≤ l then l else if 500 ≤ s.mgmt.healthZero then 0 else if old = 2 && decide (500 ≤ s.mgmt.healthRun) then 1 else old
  if new = old then s
  else a6Rec 0x0503 [(20, 1, new), (21, 1, old), (22, 2, b)] (s.modMgmt fun m => { m with health := new })

/-! ### Host silence (R702) -/

/-- HOST_SILENT (Table MGMT-19). -/
def hostSilent (began : Bool) (s : State) : State := a6Rec 0x0502 [(20, 1, b2n began), (24, 6, s.mgmt.lastHost.toNat)] s

/-- Host activity: a host that was silent is so no more. -/
def hostActive (s : State) : State :=
  let s := if s.mgmt.silent then hostSilent false (s.modMgmt fun m => { m with silent := false }) else s
  s.modMgmt fun m => { m with lastHost := s.ao.rowTime }

/-- HOST_SILENCE_TIMEOUT: the period has passed without host activity. -/
def hostTimeout (s : State) : State := if !s.stew || s.mgmt.silent then s else hostSilent true (s.modMgmt fun m => { m with silent := true })

/-! ### The store (R707 to R711) -/

/-- STORE_EVENT (Table MGMT-19). -/
def storeEvent (event kind : Nat) (s : State) : State := a6Rec 0x0504 [(20, 1, event), (21, 1, kind)] s

/-- Whether a job may start: not while the hold is set, but for the leak verdict (R710). -/
def jobReady (m : Mgmt) (j : StoreJob) : Bool := !m.hold || j.kind == 4

/-- STORE_START: one store at a time; none while a module reset waits (R59, R708 to R710). -/
def storeStart (s : State) : State :=
  if !s.stew || s.mgmt.storing.isSome || s.ao.resetDue.isSome then s
  else match s.mgmt.jobs.find? (jobReady s.mgmt) with
    | none => s
    | some j => s.modMgmt fun m => { m with storing := some j, jobs := dropFirst (jobReady m) m.jobs }

/-- STORE_COMPLETE: the read-back has passed, or the store is retried once and then sets the store fault (R709). -/
def storeDone (ok : Bool) (s : State) : State :=
  match s.mgmt.storing with
  | none => s
  | some j =>
    let n := (tget 0 s.mgmt.seqs j.kind + 1) % 2 ^ 32
    let s := s.modMgmt fun m => { m with seqs := tput 0 m.seqs j.kind n }
    if ok then s.modMgmt fun m => { m with storing := none, regions := tput .absent m.regions j.kind (.valid n j.body) }
    else if !j.retried then storeEvent 2 j.kind (s.modMgmt fun m => { m with storing := some { j with retried := true } })
    else storeEvent 3 j.kind (s.modMgmt fun m => { m with storing := none, storeFault := true, regions := tput .absent m.regions j.kind .torn })

/-- The power-policy record: c_set, module mode, SET_ADMIT, the host-silence period, and the cages whose breach action is report only (R503, R554, R702). -/
def powerBody (s : State) : List Int :=
  ([s.power.cSet, b2n s.power.margin, s.heat.timeout, s.heat.action, s.heat.admitDt, s.mgmt.silentPeriod] ++ s.heat.reportOnly).map (fun n => ((n : Nat) : Int))

/-- Take the power-policy record. -/
def takePower (l : List Int) (s : State) : State :=
  let n := fun i => (l.getD i 0).toNat
  let s := s.modPower fun p => { p with cSet := n 0, margin := n 1 == 1 }
  let s := s.modHeat fun h => { h with timeout := n 2, action := n 3, admitDt := n 4, reportOnly := (l.drop 6).map (·.toNat) }
  s.modMgmt fun m => { m with silentPeriod := n 5 }

/-- The control mode ordered: the one that waits for RUN, the one a capture will restore, else the one in force. -/
def orderedMode (s : State) : Bool := s.pump.modeWait.getD (match s.pump.capture with | some c => c.modeBefore | none => s.pump.speedMode)

/-- The coolant-policy record (R591). -/
def coolBody (s : State) : List Int :=
  [b2n (orderedMode s), s.pump.setSpeed, s.pump.qMin, s.pump.qMax, s.pump.up, s.pump.down, s.pump.fluid].map (fun n => ((n : Nat) : Int))

/-- Take the coolant-policy record. -/
def takeCool (l : List Int) (s : State) : State :=
  let n := fun i => (l.getD i 0).toNat
  s.modPump fun q => { q with speedMode := n 0 == 1, setSpeed := n 1, qMin := n 2, qMax := n 3, up := n 4, down := n 5, fluid := n 6 }

/-- Baseline points of a pump-baseline record. -/
def basePoints : Nat → List Int → List BasePoint
  | 0, _ => []
  | n + 1, l =>
    let q := fun (i : Nat) => ((l.getD i 0 : Int) : Rat) / ((l.getD (i + 1) 1 : Int) : Rat)
    { rpm := (l.getD 0 0).toNat, duty := q 1, inlet := q 3, fluid := (l.getD 5 0).toNat } :: basePoints n (l.drop 6)

/-- 10 s have passed since the last store of a record began. -/
def storeDue (s : State) (t : Option Nat) : Bool := match t with
  | none => true
  | some t => decide (10 * ticksPerSecond ≤ s.now - t)

/-- POWER_POLICY_STORE: the power-policy and coolant-policy records are written after a change, at most once per 10 s (R503, R591). -/
def policyStore (s : State) : State :=
  if !s.stew then s
  else
    let s := if s.mgmt.powerDirty && storeDue s s.mgmt.powerStoredAt then
        (queueStore 1 (powerBody s) s).modMgmt fun m => { m with powerDirty := false, powerStoredAt := some s.now }
      else s
    if s.mgmt.coolDirty && storeDue s s.mgmt.coolStoredAt then
      (queueStore 2 (coolBody s) s).modMgmt fun m => { m with coolDirty := false, coolStoredAt := some s.now }
    else s

/-! ### Class 5 (Table MGMT-8) -/

/-- Set the host-silence period. -/
def setSilence (p : Nat) (s : State) : State := powerChanged (s.modMgmt fun m => { m with silentPeriod := p })

/-- Set or release the store hold; each change is recorded (R710). -/
def setHold (on : Bool) (s : State) : State :=
  let t := s.modMgmt fun m => { m with hold := on }
  if s.mgmt.hold == on then t else storeEvent (if on then 4 else 5) 0 t

/-- Order a bus to sleep or to wake; answers whether the order is accepted (R704). -/
def busOrder (wake : Bool) (b node : Nat) (s : State) : Bool × State :=
  if wake then (if (s.onBus b).join == .joined then (true, wakeBus b 3 s) else (false, s))
  else if activeIn s b && fromCommand s b (nodeId s b) then (true, queueMsg b 0x62 (if node = 0xFF then none else some node) true [] s)
  else (false, s)

/-- MGMT_STATUS (Table MGMT-19). -/
def mgmtStatus (telemetry : Bool) (s : State) : State :=
  a6Rec 0x0501 [(20, 1, storeState s), (21, 1, s.mgmt.events.length), (22, 1, b2n s.mgmt.silent + 2 * b2n s.mgmt.hold), (24, 2, s.mgmt.silentPeriod),
    (26, 1, s.mgmt.fuses.lc.code)] s telemetry

/-- MGMT_STATUS_TIMER, every 10 s, with PLDM_EVENT_DROP where events were lost (R698, R725). -/
def mgmtTimer (s : State) : State :=
  if !s.stew then s
  else
    let s := mgmtStatus true s
    if s.mgmt.eventDrops = 0 then s
    else a6Rec 0x0507 [(20, 2, min s.mgmt.eventDrops 0xFFFF)] (s.modMgmt fun m => { m with eventDrops := 0 })

/-- SET_HOST_SILENT. -/
def polHostSilent (s : State) : State :=
  policyRun 5 1 (allBits 24 2) (fun d => firstBad [(decide (fld d 24 2 < 5 ∨ 3600 < fld d 24 2), 24)]) (fun d s => (0, 0, setSilence (fld d 24 2) s)) s

/-- STORE_HOLD. -/
def polStoreHold (s : State) : State :=
  policyRun 5 2 (allBits 24 1) (fun d => firstBad [(decide (1 < byteAt d 24), 24)]) (fun d s => (0, 0, setHold (byteAt d 24 == 1) s)) s

/-- BUS_ORDER. -/
def polBusOrder (s : State) : State :=
  policyRun 5 3 (allBits 24 3)
    (fun d => firstBad [(decide (1 < byteAt d 24), 24), (decide (1 < byteAt d 25), 25), (decide (63 < byteAt d 26 ∧ byteAt d 26 ≠ 0xFF), 26)])
    (fun d s => let (ok, s) := busOrder (byteAt d 24 == 1) (byteAt d 25) (byteAt d 26) s; (if ok then 0 else 0x33, 0, s)) s

/-- MGMT_NOW. -/
def polMgmtNow (s : State) : State := policyRun 5 4 [] (fun _ => none) (fun _ s => (0, 0, mgmtStatus false s)) s

end Sys2Proof.Machine
end

