-- ==== Sys2Proof/Machine/Mctp.lean ====
section
/-! DEFINITION. The MCTP endpoint, PLDM and the vendor commands: firmware update, life cycle, debug (R682 to R699, R712 to R723). -/

namespace Sys2Proof.Machine

/-! ### The endpoint (R685 to R689) -/

/-- The EID of a binding. -/
def eidOf (m : Mgmt) (b : Binding) : Nat := if b == .smbus then m.eidSmbus else m.eidVdm

/-- The number Arveard's PCI vendor ID (R119). -/
def vendorId : Nat := 0x1E9A

/-- Message fields: the message type, and the request bit of control and PLDM messages. -/
def mType (m : Bytes) : Nat := byteAt m 0 % 128
def mRequest (m : Bytes) : Bool := bit (byteAt m 1) 7

/-- The vendor commands of Table MGMT-15. -/
def vendorCmds : List Nat := [0x01, 0x02, 0x03, 0x10, 0x11, 0x12, 0x13, 0x14, 0x15]

/-- A message the endpoint supports: control, PLDM, or a vendor message that carries Arveard's vendor ID (R687). -/
def mSupported (m : Bytes) : Bool := mType m == 0 || mType m == 1 || (mType m == 0x7E && fld m 1 2 == vendorId)

/-- A response to a control request, a PLDM request and a vendor request, in the forms of DSP0236, DSP0240 and R718 (log entry 70). -/
def ctlReply (m : Bytes) (cc : Nat) (data : Bytes) : Bytes := toLe 1 0 ++ toLe 1 (byteAt m 1 % 128) ++ toLe 1 (byteAt m 2) ++ toLe 1 cc ++ data
def pldmReply (m : Bytes) (cc : Nat) (data : Bytes) : Bytes :=
  toLe 1 1 ++ toLe 1 (byteAt m 1 % 128) ++ toLe 1 (byteAt m 2) ++ toLe 1 (byteAt m 3) ++ toLe 1 cc ++ data
def venReply (m : Bytes) (status : Nat) (data : Bytes) : Bytes := toLe 1 0x7E ++ toLe 2 vendorId ++ toLe 1 (byteAt m 3) ++ toLe 1 status ++ data

/-- Send a message on a binding. -/
def mctpSend (b : Binding) (body : Bytes) (s : State) : State := s.modMgmt fun m => { m with out := m.out ++ [{ binding := b, body := body }] }

/-- A complete message has arrived (R686 to R688, R702). -/
def takeMessage (b : Binding) (m : Bytes) (s : State) : State :=
  let s := hostActive s
  if !mSupported m then s.modMgmt fun x => { x with typeDrops := x.typeDrops + 1 }
  else if (mType m != 0x7E && !mRequest m) || (mType m == 0x7E && !vendorCmds.contains (byteAt m 3)) then s
  else if eidOf s.mgmt b = 0 && mType m != 0 then s
  else if 4 ≤ s.mgmt.reqs.length then
    (if mType m = 0 then mctpSend b (ctlReply m 4 []) s else if mType m = 1 then mctpSend b (pldmReply m 4 []) s else s)
  else s.modMgmt fun x => { x with reqs := x.reqs ++ [{ binding := b, body := m }] }

/-- A packet, from its MCTP transport header on, is assembled into a message of up to 1,024 bytes; a message out of sequence or too long is discarded (R688). -/
def mctpPacket (b : Binding) (p : Bytes) (s : State) : State :=
  let dest := byteAt p 1
  let fl := byteAt p 3
  let seq := bits fl 5 4
  if dest != 0 && dest != eidOf s.mgmt b then s
  else
    let set := fun (a : Option (Nat × Bytes)) (s : State) => s.modMgmt fun m => if b == .smbus then { m with asmSmbus := a } else { m with asmVdm := a }
    let have_ := if b == .smbus then s.mgmt.asmSmbus else s.mgmt.asmVdm
    let whole := if bit fl 7 then some (p.drop 4) else match have_ with
      | some (n, bs) => if n = seq then some (bs ++ p.drop 4) else none
      | none => none
    match whole with
    | none => set none s
    | some bs =>
      if 1024 < bs.length then set none s
      else if bit fl 6 then takeMessage b bs (set none s)
      else set (some ((seq + 1) % 4, bs)) s

/-- MCTP_SMBUS_PACKET: while the steward is in reset the target NAKs the write (R689). -/
def smbusPacket (p : Bytes) (s : State) : State :=
  if !s.ao.aux then s
  else if !s.sup.steward then s.modMgmt fun m => { m with naks := m.naks + 1 }
  else watch (mctpPacket .smbus p s)

/-- The answer to a request that arrives while customer regions are being erased (R719). -/
def busyReply (m : Bytes) : Bytes := if mType m = 0 then ctlReply m 4 [] else if mType m = 1 then pldmReply m 4 [] else venReply m 5 []

/-- What a request is answered with. -/
abbrev Reply := Bytes × State

/-- Answer the first waiting request of a kind, on its own binding. -/
def answer (p : Bytes → Bool) (act : MctpReq → State → Reply) (s : State) : State :=
  if !s.stew then s
  else match s.mgmt.reqs.find? (fun r => p r.body) with
    | none => s
    | some r =>
      let s := s.modMgmt fun m => { m with reqs := dropFirst (fun r => p r.body) m.reqs }
      if s.mgmt.erasing && !(mType r.body == 0x7E && byteAt r.body 3 == 0x10) then mctpSend r.binding (busyReply r.body) s
      else
        let (out, s) := act r s
        watch (mctpSend r.binding out s)

/-! ### MCTP control (R687) -/

/-- A control request of one command. -/
def isCtl (cmd : Nat) (m : Bytes) : Bool := mType m == 0 && byteAt m 2 == cmd

/-- Answer a control request. -/
def ctl (cmd : Nat) (act : MctpReq → State → Nat × Bytes × State) (s : State) : State :=
  answer (isCtl cmd) (fun r s => let (cc, d, s) := act r s; (ctlReply r.body cc d, s)) s

/-- SET_ENDPOINT_ID: the bus owner sets or forces the EID of its binding (R686). -/
def setEid (s : State) : State :=
  ctl 1 (fun r s =>
    let e := byteAt r.body 4
    if byteAt r.body 3 % 4 > 1 || e < 8 || e = 255 then (2, [], s)
    else (0, toLe 1 0 ++ toLe 1 e ++ toLe 1 0, s.modMgmt fun m => if r.binding == .smbus then { m with eidSmbus := e } else { m with eidVdm := e })) s

/-- GET_ENDPOINT_ID. -/
def getEid (s : State) : State := ctl 2 (fun r s => (0, toLe 1 (eidOf s.mgmt r.binding) ++ toLe 2 0, s)) s

/-- GET_ENDPOINT_UUID. -/
def getUuid (s : State) : State := ctl 3 (fun _ s => (0, toLe 16 (Config.uuid s.mgmt.fuses.dsn).toNat, s)) s

/-- GET_MCTP_VERSION_SUPPORT. -/
def getVersions (s : State) : State := ctl 4 (fun r s => (0, Config.mctpVersions (byteAt r.body 3), s)) s

/-- GET_MESSAGE_TYPE_SUPPORT. -/
def getTypes (s : State) : State := ctl 5 (fun _ s => (0, [2, 1, 0x7E], s)) s

/-- Every other control command. -/
def ctlUnsupported (s : State) : State :=
  answer (fun m => mType m == 0 && !(decide (1 ≤ byteAt m 2) && decide (byteAt m 2 ≤ 5))) (fun r s => (ctlReply r.body 5 [], s)) s

/-! ### PLDM (R690 to R699) -/

/-- A PLDM request of one type and command. -/
def isPldm (ty cmd : Nat) (m : Bytes) : Bool := mType m == 1 && byteAt m 2 % 64 == ty && byteAt m 3 == cmd

/-- Answer a PLDM request. -/
def pldm (ty cmd : Nat) (act : MctpReq → State → Nat × Bytes × State) (s : State) : State :=
  answer (isPldm ty cmd) (fun r s => let (cc, d, s) := act r s; (pldmReply r.body cc d, s)) s

/-- The commands answered of each PLDM type (Table MGMT-2). -/
def pldmCmds (ty : Nat) : List Nat := if ty = 0 then [1, 2, 3, 4, 5] else if ty = 2 then [0x04, 0x11, 0x21, 0x31, 0x32, 0x39, 0x3A, 0x50, 0x51] else []

/-- A bitmap of n bytes. -/
def bitmap (n : Nat) (l : List Nat) : Bytes := toLe n ((l.map (fun i => 2 ^ i)).sum)

def getTid (s : State) : State := pldm 0 2 (fun _ s => (0, toLe 1 s.mgmt.tid, s)) s

def setTid (s : State) : State :=
  pldm 0 1 (fun r s =>
    let t := byteAt r.body 4
    if t = 0 || t = 255 then (2, [], s) else (0, [], s.modMgmt fun m => { m with tid := t })) s

def getPldmVersion (s : State) : State :=
  pldm 0 3 (fun r s =>
    let ty := byteAt r.body 9
    if ty = 0 || ty = 2 then (0, toLe 4 0 ++ toLe 1 5 ++ Config.pldmVersions ty, s) else (0x83, [], s)) s

def getPldmTypes (s : State) : State := pldm 0 4 (fun _ s => (0, bitmap 8 [0, 2], s)) s

def getPldmCommands (s : State) : State :=
  pldm 0 5 (fun r s =>
    let ty := byteAt r.body 4
    if ty = 0 || ty = 2 then (0, bitmap 32 (pldmCmds ty), s) else (0x83, [], s)) s

/-- Any other PLDM command or type (R690). -/
def pldmUnsupported (s : State) : State :=
  answer (fun m => mType m == 1 && !(pldmCmds (byteAt m 2 % 64)).contains (byteAt m 3))
    (fun r s => (pldmReply r.body (if byteAt r.body 2 % 64 = 0 || byteAt r.body 2 % 64 = 2 then 5 else 0x20) [], s)) s

/-- SET_EVENT_RECEIVER: names the receiver, or none (R698). -/
def setReceiver (s : State) : State :=
  pldm 2 4 (fun r s =>
    let en := byteAt r.body 4
    if en = 0 then (0, [], s.modMgmt fun m => { m with receiver := none, events := [], eventSent := false, eventTries := 0, alertLow := false })
    else if en = 1 && byteAt r.body 5 = 0 then (0, [], s.modMgmt fun m => { m with receiver := some (r.binding, byteAt r.body 6) })
    else (2, [], s)) s

/-- The effecters present: 306 on an ICN-7740-W only (R691). -/
def numEffecters : List Nat := [201, 202, 203, 204, 205]
def stateEffecters (s : State) : List Nat := if capable s then [301, 302, 303, 304, 305, 306] else [301, 302, 303, 304, 305]

/-- The PDRs: a Terminus Locator for each binding with an EID, one for each sensor and effecter, and the OEM PDR (R691). -/
def pdrCount (s : State) : Nat :=
  b2n (s.mgmt.eidSmbus != 0) + b2n (s.mgmt.eidVdm != 0) + 24 + 13 + numEffecters.length + (stateEffecters s).length + 1

/-- The Arveard identity of the OEM PDR (R691), in the order the rule lists it (log entry 70). -/
def oemIdentity (s : State) : Bytes :=
  let f := s.mgmt.fuses
  let other := if s.mgmt.running = 0 then s.mgmt.slot1 else s.mgmt.slot0
  toLe 1 f.variant ++ toLe 1 f.dieRev ++ toLe 8 f.dsn ++ toLe 1 f.lc.code ++ toLe 1 f.returns ++ toLe 2 (runningFw s).version ++ toLe 2 other.version ++
    toLe 1 s.ao.rackId ++ toLe 1 s.ao.slotId

def getPdrInfo (s : State) : State := pldm 2 0x50 (fun _ s => (0, toLe 1 0 ++ toLe 26 0 ++ toLe 4 (pdrCount s), s)) s

/-- GET_PDR: records are numbered from 1, the OEM PDR last; handle 0 names the first. -/
def getPdr (s : State) : State :=
  pldm 2 0x51 (fun r s =>
    let h := max 1 (fld r.body 4 4)
    let n := pdrCount s
    if n < h then (0x82, [], s)
    else (0, toLe 4 (if h = n then 0 else h + 1) ++ toLe 4 0 ++ toLe 1 5 ++ Config.pdrBytes h ++ (if h = n then oemIdentity s else []), s)) s

/-- The PLDM code of a threshold state. -/
def pldmState (n : Nat) : Nat := if n = 1 then 1 else if n = 2 then 8 else if n = 3 then 9 else 10

/-- GET_SENSOR_READING (R692). -/
def getSensor (s : State) : State :=
  pldm 2 0x11 (fun r s =>
    let id := fld r.body 4 2
    if id < 1 || 24 < id then (0x80, [], s)
    else
      let st := pldmState (numState s id)
      match numReading s id with
      | some v => (0, toLe 1 5 ++ toLe 1 0 ++ toLe 1 0 ++ toLe 1 st ++ toLe 1 st ++ toLe 1 st ++ toLe 4 (twos 32 v), s)
      | none => (0, toLe 1 5 ++ toLe 1 2 ++ toLe 1 0 ++ toLe 1 0 ++ toLe 1 0 ++ toLe 1 0 ++ toLe 4 0, s)) s

/-- GET_STATE_SENSOR_READINGS (R694). -/
def getStateSensor (s : State) : State :=
  pldm 2 0x21 (fun r s =>
    let id := fld r.body 4 2
    if id < 101 || 113 < id then (0x80, [], s)
    else
      let v := stateSensor s id
      (0, toLe 1 1 ++ toLe 1 0 ++ toLe 1 v ++ toLe 1 v ++ toLe 1 v, s)) s

/-- The value in force of a numeric effecter (R696). -/
def numEffecter (s : State) (id : Nat) : Nat :=
  if id = 201 then s.power.cSet else if id = 202 then s.pump.setSpeed else if id = 203 then s.pump.qMin else if id = 204 then s.pump.qMax else s.mgmt.silentPeriod

/-- Write a numeric effecter: it acts as the command it mirrors (R695); answers the completion code. -/
def putNumeric (id v : Nat) (s : State) : Nat × State :=
  if !numEffecters.contains id then (0x80, s)
  else if outOfUse s then (4, s)
  else if id = 201 then (0, (setCapTo v s).2)
  else if id = 202 then (if v < 500 || 6000 < v then (2, s) else (0, coolantChanged ((abortCapture s).modPump fun q => { q with setSpeed := v })))
  else if id = 203 then (if v < 120 || s.pump.qMax < v then (2, s) else (0, coolantChanged (s.modPump fun q => { q with qMin := v })))
  else if id = 204 then (if v < s.pump.qMin || 350 < v then (2, s) else (0, coolantChanged (s.modPump fun q => { q with qMax := v })))
  else if v < 5 || 3600 < v then (2, s) else (0, setSilence v s)

/-- SET_NUMERIC_EFFECTER_VALUE; the value takes 1, 2 or 4 bytes. -/
def setNumeric (s : State) : State :=
  pldm 2 0x31 (fun r s =>
    let k := byteAt r.body 6
    let (cc, s) := putNumeric (fld r.body 4 2) (fld r.body 7 (if k < 2 then 1 else if k < 4 then 2 else 4)) s
    (cc, [], s)) s

def getNumeric (s : State) : State :=
  pldm 2 0x32 (fun r s =>
    let id := fld r.body 4 2
    if !numEffecters.contains id then (0x80, [], s)
    else
      let v := numEffecter s id
      (0, toLe 1 4 ++ toLe 1 1 ++ toLe 4 v ++ toLe 4 v, s)) s

/-- The state in force of a state effecter (Table MGMT-6); 304 and 306 read None. -/
def stateEffecter (s : State) (id : Nat) : Nat :=
  if id = 301 then 1 + b2n s.power.margin else if id = 302 then 1 + b2n s.pump.speedMode else if id = 303 then 1 + s.pump.fluid
  else if id = 305 then 1 + b2n s.mgmt.hold else 1

/-- Change the fluid, with its record. -/
def setFluidTo (v : Nat) (s : State) : State :=
  let t := coolantChanged (s.modPump fun q => { q with fluid := v })
  if v = s.pump.fluid then t else loopEvent 7 v t

/-- The number of states of a state effecter. -/
def effecterStates (id : Nat) : Nat := if id = 304 then 3 else if id = 306 then 5 else 2

/-- Write a state effecter (R695 to R697, R704); answers the completion code. -/
def putState (id v : Nat) (s : State) : Nat × State :=
  if !(stateEffecters s).contains id then (0x80, s)
  else if outOfUse s then (4, s)
  else if v < 1 || effecterStates id < v then (2, s)
  else if id = 301 then (0, powerChanged (s.modPower fun p => { p with margin := v == 2 }))
  else if id = 302 then (0, coolantChanged (setMode (v == 2) (abortCapture s)))
  else if id = 303 then (0, setFluidTo (v - 1) s)
  else if id = 304 then (0, if v = 2 then computeReset 13 s else if v = 3 then askReset 21 s else s)
  else if id = 305 then (0, setHold (v == 2) s)
  else if v = 1 then (0, s)
  else
    let (ok, s) := busOrder (decide (4 ≤ v)) (v % 2) 0xFF s
    (if ok then 0 else 4, s)

/-- SET_STATE_EFFECTER_STATES: one composite state, with its set request. -/
def setState (s : State) : State :=
  pldm 2 0x39 (fun r s =>
    if byteAt r.body 6 != 1 then (2, [], s)
    else if byteAt r.body 7 = 0 then (0, [], s)
    else
      let (cc, s) := putState (fld r.body 4 2) (byteAt r.body 8) s
      (cc, [], s)) s

def getState (s : State) : State :=
  pldm 2 0x3A (fun r s =>
    let id := fld r.body 4 2
    if !(stateEffecters s).contains id then (0x80, [], s)
    else
      let v := stateEffecter s id
      (0, toLe 1 1 ++ toLe 1 1 ++ toLe 1 v ++ toLe 1 v, s)) s

/-- A PlatformEventMessage with a sensorEvent (R698). -/
def eventMessage (s : State) (e : PldmEvent) : Bytes :=
  let code := fun n => if e.numeric then pldmState n else n
  toLe 1 1 ++ toLe 1 0x80 ++ toLe 1 2 ++ toLe 1 0x0A ++ toLe 1 1 ++ toLe 1 s.mgmt.tid ++ toLe 1 0 ++ toLe 2 e.sensor ++ toLe 1 (if e.numeric then 2 else 1) ++
    toLe 1 0 ++ toLe 1 (code e.state) ++ toLe 1 (code e.prev)

/-- Send the head event. -/
def sendHead (s : State) : State := match s.mgmt.receiver, s.mgmt.events with
  | some (b, _), e :: _ => mctpSend b (eventMessage s e) s
  | _, _ => s

/-- Take the head event off the queue; an empty queue releases SMB_ALERT_N (R699). -/
def popEvent (m : Mgmt) : Mgmt := { m with events := m.events.drop 1, eventSent := false, eventTries := 0, alertLow := m.alertLow && decide (1 < m.events.length) }

/-- PLDM_EVENT_SEND. -/
def eventSend (s : State) : State :=
  if !s.stew || s.mgmt.receiver.isNone || s.mgmt.events.isEmpty || s.mgmt.eventSent then s
  else sendHead (s.modMgmt fun m => { m with eventSent := true, eventTries := 0 })

/-- PLDM_EVENT_RESPONSE: the response is MCTP traffic, so it is host activity (R702). -/
def eventResponse (s : State) : State :=
  if !s.stew || !s.mgmt.eventSent then s else watch (hostActive (s.modMgmt popEvent))

/-- PLDM_EVENT_RETRY: up to 3 sendings again, then the event is discarded. -/
def eventRetry (s : State) : State :=
  if !s.stew || !s.mgmt.eventSent then s
  else if s.mgmt.eventTries < 3 then sendHead (s.modMgmt fun m => { m with eventTries := m.eventTries + 1 })
  else s.modMgmt fun m => { popEvent m with eventDrops := m.eventDrops + 1 }

/-- SMBUS_ALERT_RESPONSE (R699). -/
def alertResponse (s : State) : State := if !s.stew then s else s.modMgmt fun m => { m with alertLow := false }

/-! ### Vendor commands (R718) -/

/-- Answer a vendor command: its status, then its data. -/
def vendor (cmd : Nat) (act : Bytes → State → Nat × Bytes × State) (s : State) : State :=
  answer (fun m => mType m == 0x7E && byteAt m 3 == cmd) (fun r s => let (st, d, s) := act (r.body.drop 1) s; (venReply r.body st d, s)) s

/-- The slot that does not run (R683). -/
def inactiveSlot (s : State) : FwSlot := if s.mgmt.running = 0 then s.mgmt.slot1 else s.mgmt.slot0

/-- Set the slot that does not run. -/
def setInactive (x : FwSlot) (s : State) : State := s.modMgmt fun m => if m.running = 0 then { m with slot1 := x } else { m with slot0 := x }

/-- FW_EVENT (Table MGMT-19). -/
def fwEvent (event version : Nat) (s : State) : State := a6Rec 0x0506 [(20, 1, event), (22, 2, version % 65536)] s

/-- Firmware update is permitted in MAKER and FIELD (Table MGMT-15). -/
def inUse (s : State) : Bool := s.mgmt.fuses.lc == .maker || s.mgmt.fuses.lc == .field

/-- A slot's content has changed: what the boot ROM finds in it (R683). -/
def reread (x : FwSlot) : FwSlot :=
  { x with valid := Config.imageGood x.image, seq := Config.imageSeq x.image, version := Config.imageVersion x.image, verified := false }

/-- FW_WRITE: at offset 0 it first invalidates the slot's image (R683). -/
def fwWrite (s : State) : State :=
  vendor 0x01 (fun v s =>
    let off := fld v 4 4
    let data := v.drop 8
    if !inUse s then (7, [], s)
    else if data.isEmpty || 1008 < data.length || 2 ^ 24 < off + data.length then (6, [], s)
    else
      let x := inactiveSlot s
      let x := reread { x with image := mwrN (if off = 0 then [] else x.image) off data }
      (0, [], fwEvent 1 x.version (setInactive x s))) s

/-- FW_VERIFY: the signature of an image of the length given (R682, R683). -/
def fwVerify (s : State) : State :=
  vendor 0x02 (fun v s =>
    let n := fld v 4 4
    let x := inactiveSlot s
    if !inUse s then (7, [], s)
    else if n = 0 || 2 ^ 24 < n then (6, [], s)
    else if Config.imageGood x.image && Config.imageLength x.image == n then (0, [], fwEvent 2 x.version (setInactive { x with verified := true } s))
    else (2, [], fwEvent 3 x.version (setInactive { x with verified := false } s))) s

/-- FW_ACTIVATE: refused unless FW_VERIFY has passed since the last FW_WRITE; a module reset follows (R683). -/
def fwActivate (s : State) : State :=
  vendor 0x03 (fun _ s =>
    if !inUse s then (7, [], s)
    else if !(inactiveSlot s).verified then (1, [], s)
    else (0, [], askReset 23 (fwEvent 4 (inactiveSlot s).version (s.modMgmt fun m => { m with fresh := some (1 - m.running) })))) s

/-- LC_EVENT (Table MGMT-19). -/
def lcEvent (event status : Nat) (s : State) : State :=
  a6Rec 0x0505 [(20, 1, event), (21, 1, status), (22, 1, s.mgmt.fuses.lc.code), (23, 1, s.mgmt.fuses.returns)] s

/-- GET_NONCE: 16 random bytes (R717). -/
def getNonce (s : State) : State :=
  vendor 0x10 (fun _ s =>
    let (n, s) := draw 128 s
    (0, toLe 16 n.toNat, s.modMgmt fun m => { m with nonce := some n })) s

/-- NONCE_EXPIRY. -/
def nonceExpiry (s : State) : State := s.modMgmt fun m => { m with nonce := none }

/-- Change the fuses. -/
def fuse (f : Fuses → Fuses) (s : State) : State := s.modMgmt fun m => { m with fuses := f m.fuses }

/-- OWNER_ENROL: only in FIELD and only while the open slot is empty (R715). -/
def ownerEnrol (s : State) : State :=
  vendor 0x11 (fun v s =>
    let f := s.mgmt.fuses
    if f.lc != .field then (7, [], s)
    else if v.length != 101 then (6, [], s)
    else if f.enrolled.contains f.returns then (1, [], s)
    else (0, [], lcEvent 1 0 (fuse (fun f => { f with owners := tput 0 f.owners f.returns (Config.sha384 ((v.drop 4).take 97)), enrolled := nadd f.enrolled f.returns }) s))) s

/-- The checks of R716, in order: the status of the first that fails. -/
def signedCheck (maker : Bool) (v : Bytes) (s : State) : Nat :=
  let f := s.mgmt.fuses
  let key := (v.drop 63).take 97
  let known := if maker then Config.sha384 key == f.makerKey else f.enrolled.contains f.returns && Config.sha384 key == tget 0 f.owners f.returns
  if !known then 2
  else if fld v 4 8 != f.dsn || byteAt v 12 != f.lc.code || byteAt v 13 != f.returns then 1
  else if !(s.mgmt.nonce.any (fun n => toLe 16 n.toNat == (v.drop 16).take 16)) then 3
  else if !Config.p384Verify key (Config.sha384 (v.take 160)) ((v.drop 160).take 96) then 2 else 0

/-- A signed request: where it is permitted and with which key, its own conditions, its effect. A refused one changes nothing and is recorded; an accepted one spends the nonce (R716, R717). -/
def signed (cmd : Nat) (permit : LifeCycle → Option Bool) (cond : Bytes → State → Nat) (act : Bytes → State → State) (s : State) : State :=
  vendor cmd (fun v s =>
    let st := match permit s.mgmt.fuses.lc with
      | none => 7
      | some maker => if v.length != 256 then 6 else
          let c := signedCheck maker v s
          if c != 0 then c else cond v s
    if st != 0 then (st, [], lcEvent 3 st s)
    else (0, [], act v (s.modMgmt fun m => { m with nonce := none }))) s

/-- The owner's key in FIELD, the maker's in MAKER and RETURNED (Tables MGMT-14 and MGMT-15). -/
def keyFor (l : List LifeCycle) (c : LifeCycle) : Option Bool := if l.contains c then some (c != .field) else none

/-- Erase every customer region of the store (Table MGMT-10). -/
def eraseRegions (s : State) : State := s.modMgmt fun m => { m with regions := m.regions.filter (fun e => e.1 == 0), jobs := [] }

/-- A transition: its fuses, its records, and the module reset that ends it (R713). -/
def transition (c : LifeCycle) (s : State) : State := askReset 22 (lcEvent 5 0 (fuse (fun f => { f with lc := c }) (lcEvent 4 0 s)))

/-- RETURN_REQUEST (R719, R720): the fuses are blown before the erasure begins. -/
def returnRequest (s : State) : State :=
  signed 0x12 (keyFor [.field]) (fun _ s => if 2 ≤ s.mgmt.fuses.returns then 4 else if s.sup.mainEn then 1 else 0)
    (fun _ s => (fuse (fun f => { f with lc := .returned, returns := f.returns + 1 }) (lcEvent 4 0 s)).modMgmt fun m => { m with erasing := true }) s

/-- RETURN_ERASE_COMPLETE. -/
def eraseDone (s : State) : State :=
  if !s.stew || !s.mgmt.erasing then s
  else askReset 22 (lcEvent 5 0 (eraseRegions (s.modMgmt fun m => { m with erasing := false })))

/-- RETIRE_REQUEST. -/
def retireRequest (s : State) : State :=
  signed 0x13 (keyFor [.field, .maker, .returned]) (fun _ s => if s.mgmt.fuses.lc == .field && s.sup.mainEn then 1 else 0) (fun _ s => transition .retired s) s

/-- DEBUG_UNLOCK. -/
def debugUnlock (s : State) : State :=
  signed 0x14 (keyFor [.field, .returned]) (fun _ _ => 0) (fun _ s => lcEvent 2 0 (s.modMgmt fun m => { m with unlocked := true })) s

/-- The transitions of Table MGMT-14 that the maker's key orders: from, and target code. -/
def makerMoves (c : LifeCycle) (target : Nat) : Bool :=
  (c == .maker && (target == 2 || target == 4)) || (c == .returned && (target == 1 || target == 4))

/-- MAKER_TRANSITION; to FIELD it erases every customer region (Table MGMT-14). -/
def makerTransition (s : State) : State :=
  signed 0x15 (keyFor [.maker, .returned]) (fun v s => if makerMoves s.mgmt.fuses.lc (byteAt v 44) then 0 else 7)
    (fun v s => if byteAt v 44 = 2 then transition .field (eraseRegions s) else transition (if byteAt v 44 = 1 then .maker else .retired) s) s

end Sys2Proof.Machine
end

