-- ==== Sys2Proof/Machine/Start.lean ====
section
/-! DEFINITION. Start, stop and the sources that trip the module (R27, R42, R52, R75, R91, R106, R541, R683, R684, R711, R722, R726 to R749). -/

namespace Sys2Proof.Machine

/-! ### Boot (R683, R684, R711, R726 steps 3 to 5, R731, R732, R748) -/

/-- The slot the boot ROM boots: the valid image with the higher sequence number, but the other valid one while the boot-failure count stands at 2 for it (R683, R684). -/
def bootSlot (s : State) : Option Nat :=
  let m := s.mgmt
  if m.slot0.valid && m.slot1.valid then
    let best := if m.slot0.seq < m.slot1.seq then 1 else 0
    some (if 2 ≤ s.ao.bootFails && m.fresh == some best then 1 - best else best)
  else if m.slot0.valid then some 0 else if m.slot1.valid then some 1 else none

/-- Take one record region at start (Table MGMT-12). -/
def loadRegion (k : Nat) (s : State) : State :=
  match tget .absent s.mgmt.regions k with
  | .absent => s
  | .torn =>
    let s := storeEvent 1 k s
    if k = 4 then s.modPump fun q => { q with leak := 2 } else s
  | .valid _ l =>
    let q := fun (i : Nat) => ((l.getD i 0 : Int) : Rat) / ((l.getD (i + 1) 1 : Int) : Rat)
    if k = 0 then s.modPower fun p => { p with gCal := q 0, oCal := q 2 }
    else if k = 1 then takePower l s
    else if k = 2 then takeCool l s
    else if k = 3 then s.modPump fun p => { p with baseline := basePoints 3 l }
    else if k = 4 then s.modPump fun p => { p with leak := (l.getD 0 0).toNat }
    else s.modWard fun w => wardOf l w

/-- A leak verdict restored from the store keeps the mass-balance source asserted (R586, R731); a wet tape is a verdict of its own (R91). -/
def bootLeak (s : State) : State :=
  let s := if s.pump.leak = 0 then s else kill 4 (s.modAo fun a => { a with massTrip := true })
  if s.ao.tapeWet then kill 3 (latchLeak 1 s) else s

/-- Step 4: a drive that turns goes on from the held duty, one that does not is kicked (R563, R748). -/
def bootPump (s : State) : State :=
  if !kickAllowed s then s
  else if s.pump.st == .run && decide (6 ≤ s.pump.zcRun) then
    let r := normSpeed s (sMeas s)
    s.modPump fun q => { q with target := sMeas s, sRef := r.1, atEdge := r.2, zcSeen := true }
  else startKick s

/-- STEWARD_BOOT_COMPLETE: firmware runs, the reset notice goes first, the records are read, and the start goes on as the life-cycle state allows. -/
def boot (s : State) : State :=
  if !s.ao.aux || s.sup.steward || s.mgmt.fuses.lc == .blank then s
  else match bootSlot s with
    | none => s
    | some k =>
      let back := s.mgmt.fresh == some s.mgmt.running && s.mgmt.running != k && decide (2 ≤ s.ao.bootFails)
      let old := (runningFw s).version
      let s := (s.modSup fun u => { u with steward := true }).modMgmt fun m => { m with running := k, bootAt := s.now }
      let s := if s.ao.noticeDue then a6Rec 1 (noticeBody s.ao.cause) (s.modAo fun a => { a with noticeDue := false }) else s
      let s := if back then fwEvent 5 old s else s
      let s := bootLeak (forEach (List.range 6) loadRegion s)
      if outOfUse s then
        (if s.mgmt.fuses.lc == .returned && s.mgmt.regions.any (fun e => e.1 != 0) then s.modMgmt fun m => { m with erasing := true } else s)
      else
        let s := bootPump s
        if s.ao.strapsOk then startListen 0 s else s

/-- STEWARD_WATCHDOG_EXPIRY: a module reset is asked for; one within 10 s of the boot of a newly activated image is counted (R58, R684). -/
def watchdog (s : State) : State :=
  if !s.stew then s
  else
    let early := s.mgmt.fresh == some s.mgmt.running && decide (s.now - s.mgmt.bootAt ≤ 10 * ticksPerSecond)
    askReset 20 (if early then s.modAo fun a => { a with bootFails := a.bootFails + 1 } else s)

/-! ### Trip sources (R42, R44, R75, R91, R541, R742) -/

/-- DIE_TRIP. -/
def dieTrip (s : State) : State := if !s.ao.aux || s.ao.dieTrip then s else kill 1 (s.modAo fun a => { a with dieTrip := true })

/-- DIE_COMPARATOR_DEASSERT. -/
def dieClear (s : State) : State := s.modAo fun a => { a with dieTrip := false }

/-- LEAK_TAPE_WET: the trip line, and the verdict with its alerts while the steward runs. -/
def tapeIsWet (s : State) : State :=
  if !s.ao.aux || s.ao.tapeWet then s
  else
    let s := s.modAo fun a => { a with tapeWet := true }
    let s := if s.stew && s.pump.leak == 0 then leakAlert 1 true (fabricAlert 3 (latchLeak 1 s)) else s
    kill 3 s

/-- LEAK_TAPE_DRY. -/
def tapeIsDry (s : State) : State := leakLifted (s.modAo fun a => { a with tapeWet := false })

/-- EXTERNAL_TRIP: a low level on TRIP_N of this many ns; from 250 ns to 1 µs it may or may not trip (R75). While the latch is set the module drives the line itself. -/
def externalTrip (ns : Nat) (s : State) : State :=
  if !s.ao.aux || s.ao.latch || decide (ns < 250) then s
  else if 1000 ≤ ns then kill 5 s
  else
    let (d, s) := draw 1 s
    if d = 1 then kill 5 s else s

/-- What a stack readout means for the stack trip line (R42, R384). -/
def stackTripLine (i : Nat) (r : Option Int) (s : State) : State :=
  if !s.sup.regs then s
  else
    let hot := match r with
      | some t => decide (1600 ≤ t)
      | none => false
    let any := (List.range 8).any (fun j => match (s.stack j).temp with
      | some t => decide (1600 ≤ t)
      | none => false)
    let s := s.modAo fun a => { a with stackTrip := any }
    if hot then kill 2 (s.modAo fun a => { a with tripStacks := nadd a.tripStacks i }) else s

/-! ### Main power (R106, R726 to R734, R749) -/

/-- UNSOLICITED_MAIN. -/
def unsolicitedMain (s : State) : State :=
  if !s.ao.aux || s.sup.mainEn || s.sup.unsolicited then s
  else
    let s := s.modSup fun u => { u with unsolicited := true }
    if s.stew then a6Rec 0x0005 [] s else s

/-- MAIN_SUPPLY_IN_RATING. -/
def mainInRating (s : State) : State := if s.ao.aux && s.sup.mainEn && !s.ao.latch then s.modSup fun u => { u with mainIn := true } else s

/-- REGULATORS_IN_REGULATION: VDD_CORE stands at 0.620 V (R490). -/
def regsUp (s : State) : State :=
  if s.sup.mainIn && !s.sup.regs && !s.ao.latch then (s.modSup fun u => { u with regs := true }).modPower fun p => { p with rail := 124000 } else s

/-- MAIN_PLANES_READY: MOD_READY is released, link training and Galbi training begin, and the collective engine draws its first key (R162, R395, R448, R728, R733, R734). -/
def planesReady (s : State) : State :=
  if !s.sup.regs || s.sup.planes || s.ao.tapHold || s.ao.latch then s
  else
    let s := s.modSup fun u => { u with planes := true, modReady := true, fails := 0 }
    let (k, s) := draw 32 s
    let s := s.modColl fun c => { c with keyNext := k }
    let s := s.modHost fun h => { h with linkUp := s.sup.perstHigh }
    let s := forEach ((List.range 16).filter (fun k => (s.link k).en)) train s
    startEvent 5 0 s

/-- A failure of main power or of the regulators (R728). -/
def mainFailure (event : Nat) (trigger : Option Nat) (s : State) : State :=
  let s := mainDown trigger (s.modSup fun u => { u with fails := u.fails + 1, retryWait := true })
  dumpStart (startEvent event 0 s)

/-- MAIN_SUPPLY_TIMEOUT. -/
def mainTimeout (s : State) : State := if s.stew && s.sup.mainEn && !s.sup.regs then mainFailure (if s.sup.mainIn then 4 else 3) none s else s

/-- MAIN_RETRY_TIMER. -/
def mainRetry (s : State) : State := s.modSup fun u => { u with retryWait := false }

/-- MAIN_LOST (R749). -/
def mainLost (s : State) : State := if s.stew && s.sup.mainEn && s.sup.mainIn then mainFailure 3 (some 15) s else s

/-- What refuses an orderly MAIN_OFF (R736). -/
def offBarred (s : State) : Bool :=
  s.beat.groups.any (fun e => e.2.st != .free) || s.cages.adms.any (fun a => a.ph == .queued) || s.mgs.any (fun e => e.2.st == .held)

/-- MAIN_OFF (R736, R737). -/
def polMainOff (s : State) : State :=
  policyRun 6 1 (allBits 24 1) (fun d => firstBad [(decide (1 < byteAt d 24), 24)])
    (fun d s =>
      if !s.sup.mainEn then (0, 0, s)
      else if byteAt d 24 = 0 && offBarred s then (0x33, 0, s)
      else (0, 0, s.modSup fun u => { u with offInForce := true, offPending := true })) s

/-- MAIN_OFF_RELEASE, 10 ms later. -/
def mainOffRelease (s : State) : State :=
  if s.stew && s.sup.mainEn && s.sup.offPending then dumpStart (startEvent 6 0 (mainDown (some 15) s)) else s

/-! ### PCIe resets and the test access port (R27, R58, R79, R162, R164, R722) -/

/-- PCIE_PERST_ASSERT. -/
def perstLow (s : State) : State := if !s.sup.perstHigh then s else computeReset 10 (s.modSup fun u => { u with perstHigh := false })

/-- PCIE_PERST_DEASSERT: training starts once MOD_READY is released as well. -/
def perstRise (s : State) : State :=
  if s.sup.perstHigh then s
  else
    let s := s.modSup fun u => { u with perstHigh := true }
    if s.sup.modReady then s.modHost fun h => { h with linkUp := true } else s

/-- HOT_RESET and DL_DOWN. -/
def pcieReset (trigger : Nat) (s : State) : State := if s.host.linkUp then computeReset trigger s else s

/-- CONTROL_PLANE_READY (R163). -/
def controlReady (s : State) : State := if s.up && s.host.linkUp then s.modHost fun h => { h with ready := true } else s

/-- Whether a TAP instruction is permitted (Table MGMT-17); "unlocked" means FIELD or RETURNED after DEBUG_UNLOCK. -/
def tapPermitted (s : State) (i : Nat) : Bool :=
  let c := s.mgmt.fuses.lc
  let early := c == .blank || c == .maker
  if i ≤ 1 then true
  else if i ≤ 4 then early || (s.mgmt.unlocked && (c == .field || c == .returned))
  else if i ≤ 6 then early else false

/-- TAP_INSTRUCTION: one that is not permitted acts as BYPASS; a permitted one other than BYPASS or IDCODE holds the MAIN planes in compute-plane reset. -/
def tapInstruction (i : Nat) (s : State) : State :=
  let e := if tapPermitted s i then i else 0
  let hold := decide (2 ≤ e)
  let s := if hold && !s.ao.tapHold then computeReset 16 s else s
  s.modAo fun a => { a with tapInstr := e, tapHold := hold }

/-! ### The module cycle (R571, R572, R582, R586, R700, R729) -/

/-- The conditions of Table START-2 that are not met, as a bitmap. -/
def unmetStart (s : State) : Nat :=
  let warm := match inletVal s with
    | some t => decide (45 < t)
    | none => true
  ([!inUse s, !s.ao.strapsOk, s.ao.latch, s.bus.rack.join != .joined || s.bus.rack.conflict, s.pump.st != .run, decide (s.sup.flowRun < 25),
    (s.zone 0).faulted || (s.zone 3).faulted || (s.zone 4).faulted || (s.zone 5).faulted, warm, s.sup.wardenAtJoin && !s.sup.allocSince,
    s.sup.offInForce || decide (3 ≤ s.sup.fails)].zipIdx.map (fun e => if e.1 then 2 ^ e.2 else 0)).sum

/-- Evaluate the start conditions while MAIN_EN is low: a change of the unmet set is recorded, and with none unmet MAIN_EN is asserted (R729, R730). -/
def startCheck (s : State) : State :=
  if s.sup.mainEn || s.sup.retryWait || outOfUse s then s
  else
    let u := unmetStart s
    if u = 0 then startEvent 1 0 (s.modSup fun x => { x with mainEn := true, unmet := none, unsolicited := false })
    else if s.sup.unmet == some u then s
    else startEvent 2 u (s.modSup fun x => { x with unmet := some u })

/-- Both flows of every sample of the module cycle are valid and at or above q_min (Table START-2, bit 5). -/
def flowsMet (s : State) : Bool :=
  let ok := fun (x : Option Int) => match x with
    | some v => decide (((s.pump.qMin : Nat) : Int) ≤ v)
    | none => false
  !s.pump.flows.isEmpty && s.pump.flows.all (fun e => ok e.1 && ok e.2)

/-- MODULE_CYCLE, every 20 ms. A mass-balance verdict asserts the leak trip and is told on the buses and the links (R582, R623, R678). -/
def moduleCycle (s : State) : State :=
  if !s.stew then s
  else
    let was := s.ao.massTrip
    let s := s.modSup fun u => { u with flowRun := if flowsMet s then min 25 (u.flowRun + 1) else 0 }
    let s := pumpCycle s
    let s := if s.ao.massTrip && !was then kill 4 (leakAlert 2 true (fabricAlert 3 s)) else s
    startCheck (coolHealth s)

/-- CLEAR_LEAK with what follows: LEAK_ALERT for the verdict cleared, and a kick once nothing bars it (R586, Table BUS-7, Table START-4). -/
def clearLeak (s : State) : State :=
  let src := s.pump.leak
  let t := polClearLeak s
  if src != 0 && t.pump.leak == 0 then leakLifted (leakAlert src false t) else t

end Sys2Proof.Machine
end

