-- ==== Sys2Proof/Machine/Planes.lean ====
section
/-! DEFINITION. The adits as the planes use them: A1, A2, A3 messages at either end, A6 deliveries and mirrors (R29 to R51, R180 to R182, R195, R276, R277, R776). -/

namespace Sys2Proof.Machine

/-! ### A1 (R29 to R33) -/

/-- The entry of a beat group in an A1 word (Table PLANE-3). -/
def a1Entry (w : BitVec 112) (g : Nat) : Nat := (w.toNat >>> (7 * g)) % 128

/-- An applied change of MARGIN, which only a quiescent group takes (R32, R723). -/
def applyMargin (g : Nat) (s : State) : State :=
  let x := s.group g
  if x.st == .running || x.margin == x.marginReq then s
  else (traceAdd 6 (b2n x.marginReq) g s).modGroup g fun x => { x with margin := x.marginReq }

/-- A1_WORD: the newest N and MARGIN of each group; N from 61 to 63 is taken as 60 and the word counted (R30, R31). -/
def a1In (w : BitVec 112) (s : State) : State :=
  if !s.dataUp then s
  else
    let beyond := (List.range 16).any (fun g => decide (60 < a1Entry w g % 64))
    let s := s.modBeat fun b => { b with stale := false, clamped := if beyond then satAdd 255 b.clamped 1 else b.clamped }
    forEach (List.range 16) (fun g s =>
      applyMargin g (s.modGroup g fun x => { x with nNew := min 60 (a1Entry w g % 64), marginReq := bit (a1Entry w g) 6 })) s

/-- A1_STALE_TIMEOUT: no word for 100 µs; every window that opens takes N = 60 until words resume (R33). -/
def a1Stale (s : State) : State := if s.dataUp then s.modBeat fun b => { b with stale := true } else s

/-! ### A2 (R34 to R36) -/

/-- The record of a cluster. -/
def a2Rec (s : State) (c : Nat) : A2Rec :=
  let k := s.clus c
  { mx := k.mxBeats, vec := k.vecBeats, str := k.strBeats, stretch := k.stretch, group := k.group.getD 0, assigned := k.group.isSome }

/-- The stack record of a stack: temperature code and accesses of the preceding 1 ms. -/
def a2Stack (s : State) (i : Nat) : Nat × Nat := (readCode (s.stack i).temp, (s.stack i).access)

/-- The frame of the window that closes; every 100th carries the stack records. -/
def a2Frame (s : State) : A2Frame :=
  { recs := (List.range 128).map (a2Rec s), modes := (List.range 16).map (fun g => (s.group g).margin), clamped := s.beat.clamped,
    stks := if (s.beat.a2Count + 1) % 100 = 0 then some ((List.range 8).map (a2Stack s)) else none }

/-- A2_WINDOW_CLOSE: a frame not yet taken is replaced and counted. -/
def a2Close (s : State) : State :=
  if !s.dataUp then s
  else
    let fr := a2Frame s
    let s := s.modAdit fun a => { a with a2 := some fr, a2Taken := false, a2Overrun := if a.a2Taken then a.a2Overrun else satAdd 65535 a.a2Overrun 1 }
    let s := s.modBeat fun b => { b with clamped := 0, a2Count := b.a2Count + 1 }
    let s := forEach (s.beat.clusters.map (·.1)) (fun c s => s.modClus c fun k => { k with mxBeats := 0, vecBeats := 0, strBeats := 0, stretch := 0 }) s
    if fr.stks.isSome then forEach (List.range 8) (fun i s => s.modStack i fun k => { k with access := 0 }) s else s

/-! ### A6 (R49 to R51, R776) -/

/-- A report record waiting in the gateway. -/
def A6Item.asReport : A6Item → Option Rec
  | .report r _ => some r
  | .mirror _ _ => none

/-- A mirror refresh waiting in the gateway. -/
def A6Item.asMirror : A6Item → Option (Nat × Nat)
  | .report _ _ => none
  | .mirror off v => some (off, v)

/-- A6_RECORD_DELIVERED: the oldest record goes to the PF report ring with the count of those displaced; a manifest breach or an admission hold goes
to its cage's ring as well (R50, R51, R556). -/
def a6Deliver (s : State) : State :=
  if !s.dataUp || !(s.rpt 0).en then s
  else match s.adit.a6.findSome? A6Item.asReport with
    | none => s
    | some r =>
      let d := s.adit.a6Displaced
      let s := s.modAdit fun a => { a with a6 := dropFirst (fun i => i.asReport.isSome) a.a6, a6Displaced := 0 }
      let s := report 0 r (s.modRings fun x => { x with a6Displaced := satAdd 65535 x.a6Displaced d })
      if (r.kind == 0x0204 || r.kind == 0x0205) && r.cage != 0 && (s.rpt r.cage).en then report r.cage r s else s

/-- MIRROR_REGISTER_REFRESH: the oldest mirror entry enters the control plane's copy. -/
def mirrorIn (s : State) : State :=
  if !s.dataUp then s
  else match s.adit.a6.findSome? A6Item.asMirror with
    | none => s
    | some (off, v) => s.modAdit fun a => { a with a6 := dropFirst (fun i => i.asMirror.isSome) a.a6, mirrors := tput 0 a.mirrors off v }

/-! ### A3 towards the control plane (R37, R195, R267, R276, R277) -/

/-- Take the head of A3 towards the control plane when the test of a row recognises it. -/
def takeDown {α : Type} (p : A3Msg → Option α) (act : α → State → State) (s : State) : State :=
  if !s.dataUp then s
  else match s.adit.a3down with
    | [] => s
    | m :: r => match p m with
      | some x => act x (s.modAdit fun a => { a with a3down := r })
      | none => s

def isHold : A3Msg → Option Nat
  | .hold g => some g
  | _ => none

def isRelease : A3Msg → Option Nat
  | .release g => some g
  | _ => none

def isRefuse : A3Msg → Option Nat
  | .refuse g => some g
  | _ => none

/-- The content of POLICY_ACK. -/
structure AckMsg where
  tag : BitVec 16
  status : Nat
  detail : Nat

def isAck : A3Msg → Option AckMsg
  | .ack t st d => some { tag := t, status := st, detail := d }
  | _ => none

/-- The admission of a beat group whose OFFER is out. -/
def offeredAdm (s : State) (g : Nat) : Option Adm := s.cages.adms.find? (fun a => a.group == g && a.ph == .loading && a.offered)

/-- HOLD: the resources stay held. -/
def takeHold (s : State) : State := takeDown isHold (fun _ s => s) s

/-- RELEASE: START follows once the load is complete. -/
def takeRelease (s : State) : State :=
  takeDown isRelease (fun g s => match offeredAdm s g with
    | none => s
    | some a => settle (startProgram a.ctx (s.modAdm a.ctx fun a => { a with released := true, offered := false }))) s

/-- REFUSE: the admission ends, with its resources released and no WITHDRAW, since the management plane holds the OFFER no more. -/
def takeRefuse (s : State) : State :=
  takeDown isRefuse (fun g s => match offeredAdm s g with
    | none => s
    | some a => settle (failAdm a.ctx 0x42 0 0 (s.modAdm a.ctx fun a => { a with offered := false }))) s

/-- OFFER_BACKSTOP: 1,100 ms without an answer (R277). -/
def offerBackstop (n : Nat) (s : State) : State :=
  match s.adm n with
  | none => s
  | some a => if a.ph == .loading && a.offered then settle (failAdm n 0x42 0 0 (withdraw a s)) else s

/-- A LOCK_PERMIT that returns OK changes the permit table (R510). -/
def takePermit (d : Bytes) (s : State) : State :=
  let e := (byteAt d 24, fld d 28 4)
  if byteAt d 16 != 1 || byteAt d 17 != 3 then s
  else s.modCages fun x => { x with permits := if byteAt d 25 = 0 then (if x.permits.contains e then x.permits else x.permits ++ [e]) else x.permits.filter (fun q => q != e) }

/-- POLICY_ACK: the POLICY completes with the status and DETAIL of its acknowledgement; a late one is discarded (R195). -/
def takePolicyAck (s : State) : State :=
  takeDown isAck (fun m s => match s.rings.policies.find? (fun e => e.1 == m.tag.toNat) with
    | none => s
    | some (t, n) =>
      let s := s.modRings fun r => { r with policies := r.policies.filter (fun e => e.1 != t) }
      let s := if m.status = 0 then takePermit (s.ctx n).desc s else s
      settle (endCmd n m.status m.detail 0 s)) s

/-- POLICY_TIMEOUT (R195). -/
def policyTimeout (n : Nat) (s : State) : State :=
  if s.rings.policies.any (fun e => e.2 == n) then
    settle (endCmd n 0x32 0 0 (s.modRings fun r => { r with policies := r.policies.filter (fun e => e.2 != n) }))
  else s

/-! ### A3 towards the management plane (R180, R195, R702, R783) -/

/-- A POLICY message of any of its three contents. -/
inductive PolicyMsg where
  | cmd (tag : BitVec 16) (desc : Bytes)
  | packet (p : Bytes)
  | band (k value : Nat)

def isPolicy : A3Msg → Option PolicyMsg
  | .policy t d => some (.cmd t d)
  | .mctp p => some (.packet p)
  | .skipBand k v => some (.band k v)
  | _ => none

/-- POLICY_MESSAGE: an undefined class or command is answered; any other waits for its own command; an MCTP packet is assembled; a skip band is taken. -/
def takePolicy (s : State) : State :=
  if s.mgmt.disp.isSome then s
  else takeA3 isPolicy (fun m s => match m with
    | .packet p => mctpPacket .vdm p s
    | .band k v => s.modPump fun q => { q with skips := lmod q.skips k (fun _ => v) }
    | .cmd t d =>
      let s := hostActive s
      if policyCmds (byteAt d 16) = 0 then policyAck t 0x14 16 s
      else if byteAt d 17 = 0 || policyCmds (byteAt d 16) < byteAt d 17 then policyAck t 0x14 17 s
      else s.modMgmt fun x => { x with disp := some (t, d) }) s

/-- OFFER, START and END are host activity as the management plane takes them (R702). -/
def offerIn (s : State) : State := takeA3 isOffer (fun o s => takeOffer o (hostActive s)) s
def startIn (s : State) : State := takeA3 isStart (fun m s => takeStart m.1 (hostActive s)) s
def finishIn (s : State) : State := takeA3 isFinish (fun g s => takeFinish g (hostActive s)) s
def withdrawIn (s : State) : State := takeA3 isWithdraw takeWithdraw s

/-- MCTP_VDM: the PF passes the packet over A3; while the management plane is in reset it is dropped and counted; a VF discards it (R180 to R182). -/
def mctpVdm (f : Nat) (p : Bytes) (s : State) : State :=
  if !s.up || f != 0 then s
  else if !s.sup.steward then s.modRings fun r => { r with mctpDropped := satAdd 65535 r.mctpDropped 1 }
  else a3Up (.mctp p) s

end Sys2Proof.Machine
end

