-- ==== Sys2Proof/Machine/Regs.lean ====
section
/-! DEFINITION. The set-up registers: what each offset of a window reads as, and what a write does (Set-up Register Index). -/

namespace Sys2Proof.Machine

/-! ### Which memory requests reach a window -/

/-- Memory requests of the host reach the windows of a function: the PF by Memory Space Enable, a VF by the SR-IOV capability's (R122, R157). -/
def windowOpen (s : State) (f : Nat) : Bool :=
  (s.fn f).present && (if f = 0 then (s.fn 0).mse else s.host.vfMse) && !(s.fn f).flr && !(s.fn f).d3

/-- A memory request of the host to a window: one that no window takes is an Unsupported Request (Table HOST-7); any request leaves L1 (R161). -/
def windowAccess (f : Nat) (act : State → State) (s : State) : State :=
  if !s.up then s
  else
    let s := s.modHost fun h => { h with inL1 := false }
    if windowOpen s f then act s else aerUncorrectable (if (s.fn f).present then f else 0) .unsupportedRequest s

/-- An address of a function's BAR0 that lies in its set-up window (Tables HOST-4 and HOST-5). -/
def inSetup (f off : Nat) : Bool := if f = 0 then decide (off < 0x100000) else decide (off < 0x1000)

/-- Where the MSI-X table of a function begins (Tables HOST-4 and HOST-5). -/
def msixBase (f : Nat) : Nat := if f = 0 then 0x100000 else 0x2000

/-- Size and alignment that the set-up windows take (R130). -/
def sizeOk (off size : Nat) : Bool := (size == 4 || size == 8) && off % size == 0

/-- A naturally aligned access of a wrong size or alignment sets SETUP_ERR.SIZE (R130). -/
def badSize (f : Nat) (s : State) : State := s.modFn f fun x => { x with errSize := true }

/-! ### Reads (R772 to R778) -/

/-- The word of four bytes of a number that an offset selects. -/
def word4 (x : Nat) (hi : Bool) : Nat := if hi then x / 2 ^ 32 % 2 ^ 32 else x % 2 ^ 32

/-- A CFG register (Table RING-1). -/
def cfgWord (en : Bool) (c : RingCfg) : Nat :=
  b2n en + 2 * (c.size % 32) + 64 * (c.vector % 2048) + 2 ^ 17 * (c.coalCnt % 64) + 2 ^ 23 * (c.coalTime % 512)

/-- The registers every function holds (Table REG-2). -/
def readFn (s : State) (f off : Nat) : Nat :=
  let x := s.fn f
  let q := s.rpt f
  if off = 0 then s.mgmt.fuses.variant % 16 + 16 * (s.mgmt.fuses.dieRev % 256) + 4096 * (f % 256)
  else if off = 0x008 then word4 x.dblAddr.toNat false
  else if off = 0x00C then word4 x.dblAddr.toNat true
  else if off = 0x010 then b2n x.dblEn + 2 * b2n x.dblLn + 4 * b2n x.hotHold
  else if off = 0x014 then b2n x.errSize + 2 * b2n x.errDbl + 4 * b2n x.errLn + 8 * b2n x.errAri
  else if off = 0x100 then b2n q.errSize + 2 * b2n q.errVector + 4 * b2n q.errBase
  else if off = 0x108 then word4 q.reg.sq.toNat false
  else if off = 0x10C then word4 q.reg.sq.toNat true
  else if off = 0x110 then cfgWord q.en q.reg
  else if 0x200 ≤ off && off < 0x400 then
    let r := s.ring (ringKey f ((off - 0x200) / 32))
    let o := off % 32
    if o = 0 then word4 r.reg.sq.toNat false
    else if o = 4 then word4 r.reg.sq.toNat true
    else if o = 8 then word4 r.reg.cq.toNat false
    else if o = 12 then word4 r.reg.cq.toNat true
    else if o = 16 then cfgWord r.en r.reg
    else 0
  else 0

/-- The codes of the link states (Table LINK-12). -/
def LinkSt.code : LinkSt → Nat
  | .disabled => 0
  | .down => 1
  | .training => 2
  | .up => 3
  | .retrain => 4

/-- The Fmax of every cluster in force. -/
def fmaxAll (s : State) : List Nat := (List.range 128).map (clusterFmax s)

/-- PWR.INFO (Table PWR-8). -/
def pwrInfo (s : State) : Nat :=
  let l := fmaxAll s
  let lo := l.foldl min 255
  let hi := l.foldl max 0
  (l.filter (fun x => decide (64 ≤ x))).length % 256 + 256 * ((l.filter (fun x => decide (56 ≤ x))).length % 256) + 65536 * lo + 2 ^ 24 * hi

/-- Offsets of the mirror registers (R776). -/
def isMirror (off : Nat) : Bool := [0x1700, 0x1710, 0x1714, 0x1718, 0x171C, 0x1800, 0x1900, 0x1A00, 0x1B00].contains off

/-- The registers only the PF holds (Table REG-3). -/
def readPf (s : State) (off : Nat) : Nat :=
  if off = 0x1000 then 0x00081080
  else if off = 0x1004 then s.beat.eccCe
  else if off = 0x1100 then 0x000C8410
  else if off = 0x1200 then 0x00050108
  else if 0x1210 ≤ off && off < 0x1230 then
    let t := s.stack ((off - 0x1210) / 4)
    t.train % 4 + 4 * b2n t.refresh2x + 8 * b2n t.tempInvalid
  else if 0x1230 ≤ off && off < 0x1250 then (s.stack ((off - 0x1230) / 4)).ce
  else if 0x1250 ≤ off && off < 0x1270 then (s.stack ((off - 0x1250) / 4)).odie
  else if 0x1270 ≤ off && off < 0x1290 then (s.stack ((off - 0x1270) / 4)).ue
  else if off = 0x1290 then s.mem.period % 128 + 128 * b2n s.mem.lock
  else if off = 0x1300 then 0x110
  else if 0x1340 ≤ off && off < 0x1380 then
    let l := s.link ((off - 0x1340) / 4)
    b2n l.en + 2 * b2n l.allowX4 + 4 * (l.wColl % 16) + 64 * (l.wBulk % 16) + 1024 * (l.wMem % 16)
  else if 0x1380 ≤ off && off < 0x13C0 then
    let l := s.link ((off - 0x1380) / 4)
    l.st.code + 8 * b2n l.x4 + 16 * b2n l.highHalf + 32 * (l.peerLink % 16)
  else if off = 0x1400 then 0x2204
  else if off = 0x1404 then s.coll.timeoutMs % 1024
  else if off = 0x1500 then pwrInfo s
  else if 0x1580 ≤ off && off < 0x1600 then
    let c := off - 0x1580
    clusterFmax s c % 256 + 256 * (clusterFmax s (c + 1) % 256) + 65536 * (clusterFmax s (c + 2) % 256) + 2 ^ 24 * (clusterFmax s (c + 3) % 256)
  else if off = 0x1600 then 0xD0
  else if isMirror off then tget 0 s.adit.mirrors off
  else if off = 0x1A04 then b2n s.mgmt.traceEn + 2 * b2n s.mgmt.traceFreeze + 4 * b2n s.mgmt.frozen
  else 0

/-- One MSI-X table word (R139, R142). -/
def readMsix (s : State) (f rel : Nat) : Nat :=
  let v := (s.fn f).vec (rel / 16)
  if vecCount f ≤ rel / 16 then 0
  else match rel % 16 / 4 with
    | 0 => word4 v.addr.toNat false
    | 1 => word4 v.addr.toNat true
    | 2 => v.data.toNat
    | _ => b2n v.masked

/-- One word of the pending-bit array, 32 vectors (R142). -/
def readPba (s : State) (f rel : Nat) : Nat :=
  (List.range 32).foldl (fun a i => if ((s.fn f).vec (8 * rel + i)).pending && decide (8 * rel + i < vecCount f) then a + 2 ^ i else a) 0

/-- The four bytes of BAR0 of a function at a multiple of 4 (R772 to R778, R785, R786); no read of a window has an effect (R131). -/
def readReg (s : State) (f off : Nat) : Nat :=
  if inSetup f off then (if off < 0x400 then readFn s f off else if f = 0 then readPf s off else 0)
  else if msixBase f ≤ off && off < msixBase f + 16 * vecCount f then readMsix s f (off - msixBase f)
  else if f = 0 && 0x108000 ≤ off && off < 0x108100 then readPba s f (off - 0x108000)
  else if f != 0 && off = 0x3000 then readPba s f 0
  else 0

/-! ### Writes (R779 to R784) -/

/-- A 64-bit register after the write of one of its halves. -/
def putHalf (x : W64) (hi : Bool) (v : W32) : W64 :=
  if hi then BitVec.ofNat 64 (x.toNat % 2 ^ 32 + 2 ^ 32 * v.toNat) else BitVec.ofNat 64 (x.toNat / 2 ^ 32 * 2 ^ 32 + v.toNat)

/-- Clear the low bits of an address, which are reserved (R18). -/
def alignTo (n : Nat) (x : W64) : W64 := BitVec.ofNat 64 (x.toNat / n * n)

/-- The fields of a CFG register but EN. -/
def takeCfg (c : RingCfg) (v : Nat) : RingCfg :=
  { c with size := bits v 5 1, vector := bits v 16 6, coalCnt := bits v 22 17, coalTime := bits v 31 23 }

/-- HOST.DBL_CTL: LN and HOT_HOLD in set-up; a write of LN that is stored ends the return to polling (R178, R779); then EN (R137, R138). -/
def writeDblCtl (f : Nat) (v : Nat) (s : State) : State :=
  let on := (s.fn f).dblEn
  let s := if on then s else s.modFn f fun x => { x with dblLn := bit v 1, hotHold := bit v 2, lnFell := false }
  if bit v 0 && !on then
    if (s.fn f).dblAddr = 0 then s.modFn f fun x => { x with errDbl := true }
    else dblCheck f (s.modFn f fun x => { x with dblEn := true, prev := [], fails := 0 })
  else if !bit v 0 && on then
    dblCheck f (s.modFn f fun x => { x with dblEn := false, readsOut := x.readsOut.map (fun d => { d with discard := true }) })
  else s

/-- Setting EN of a command ring: the checks, then the set-up values are taken and the ring begins afresh (R184 to R186). -/
def ringEnable (f i : Nat) (s : State) : State :=
  let k := ringKey f i
  let c := (s.ring k).reg
  let eSize := decide (c.size < 6) || decide (16 < c.size)
  let eVec := decide (vecCount f ≤ c.vector)
  let eBase := decide (c.sq = 0) || decide (c.cq = 0)
  if eSize || eVec || eBase then
    s.modRpt f fun q => { q with errSize := q.errSize || eSize, errVector := q.errVector || eVec, errBase := q.errBase || eBase }
  else
    let s := s.modRing k fun r => { r with en := true, taken := c, f := 0, w := 0, p := 0 }
    dblCheck f (s.modFn f fun x => { x with prev := tput 0 x.prev i 0 })

/-- Clearing EN of a command ring: nothing more issues, and the ring leaves its slot (R186). -/
def ringDisable (f i : Nat) (s : State) : State :=
  let k := ringKey f i
  let s := s.modRing k fun r => { r with en := false, waiting := none }
  let s := match slotOf s k with
    | some j => if (s.slot j).st == .swapping then s else swapOut j s
    | none => s
  settle (dblCheck f s)

/-- A ring's CFG register: its fields in set-up, then EN (R780). -/
def writeRingCfg (f i : Nat) (v : Nat) (s : State) : State :=
  let k := ringKey f i
  let on := (s.ring k).en
  let s := if on then s else s.modRing k fun r => { r with reg := takeCfg r.reg v }
  if bit v 0 && !on then ringEnable f i s
  else if !bit v 0 && on then ringDisable f i s
  else s

/-- Setting EN of the report ring (R184 to R186, R220). -/
def rptEnable (f : Nat) (s : State) : State :=
  let c := (s.rpt f).reg
  let eSize := decide (c.size < 6) || decide (16 < c.size)
  let eVec := decide (vecCount f ≤ c.vector)
  let eBase := decide (c.sq = 0)
  s.modRpt f fun q =>
    if eSize || eVec || eBase then { q with errSize := q.errSize || eSize, errVector := q.errVector || eVec, errBase := q.errBase || eBase }
    else { q with en := true, taken := c, seq := 0 }

/-- Clearing EN of the report ring: records that wait for it go where its records now go (R186, R221). -/
def rptDisable (f : Nat) (s : State) : State :=
  let s := s.modRpt f fun q => { q with en := false }
  let moved := (s.rings.rptWait.filter (fun e => e.1 == f)).map (·.2)
  let s := s.modRings fun g => { g with rptWait := g.rptWait.filter (fun e => e.1 != f) }
  moved.foldl (fun s r => report r.cage r s) s

/-- RING.RPT_CFG: its fields in set-up, then EN (R780). -/
def writeRptCfg (f : Nat) (v : Nat) (s : State) : State :=
  let on := (s.rpt f).en
  let s := if on then s else s.modRpt f fun q => { q with reg := takeCfg q.reg v }
  if bit v 0 && !on then rptEnable f s
  else if !bit v 0 && on then rptDisable f s
  else s

/-- A weight written as 0 is stored as 1 (R431). -/
def weightOf (w : Nat) : Nat := max 1 w

/-- LINK.CTLk: its fields while EN = 0, then EN: DISABLED to DOWN and training, or a reset to DISABLED (R394, R395, R427, R431). -/
def writeLinkCtl (k : Nat) (v : Nat) (s : State) : State :=
  let on := (s.link k).en
  let s := if on then s else s.modLink k fun l =>
    { l with allowX4 := bit v 1, wColl := weightOf (bits v 5 2), wBulk := weightOf (bits v 9 6), wMem := weightOf (bits v 13 10) }
  if bit v 0 && !on then
    let s := s.modLink k fun l => { l with en := true, st := .down, fails := 0, lastReason := 0 }
    if s.dataUp then train k s else s
  else if !bit v 0 && on then
    let was := (s.link k).st
    let s := s.modLink k fun l => { l with en := false }
    if was = .up || was = .retrain then resetLink k 5 0 s
    else linkRec 0x0721 [(20, 1, k), (21, 1, 7)] (s.modLink k fun l => { l.restart with st := .disabled })
  else s

/-- MGMT.TRACE_CTL: FREEZE in set-up, then EN; capture that starts afresh is not frozen (R723, R724). -/
def writeTraceCtl (v : Nat) (s : State) : State :=
  s.modMgmt fun m =>
    { m with
      traceFreeze := if m.traceEn then m.traceFreeze else bit v 1
      traceEn := bit v 0
      frozen := if bit v 0 && !m.traceEn then false else m.frozen }

/-- COLL.CTL: in set-up while no group exists; held within 1 to 1,000 (R483). -/
def writeCollCtl (v : Nat) (s : State) : State :=
  if s.coll.groups.any (fun e => e.2.isSome) then s else s.modColl fun c => { c with timeoutMs := clampN 1 1000 (v % 1024) }

/-- HOST.SETUP_ERR and RING.SETUP_ERR: a 1 clears its bit (R16). -/
def writeW1c (f off : Nat) (v : Nat) (s : State) : State :=
  if off = 0x014 then s.modFn f fun x =>
    { x with
      errSize := x.errSize && !bit v 0, errDbl := x.errDbl && !bit v 1, errLn := x.errLn && !bit v 2, errAri := x.errAri && !bit v 3 }
  else if off = 0x100 then s.modRpt f fun q =>
    { q with errSize := q.errSize && !bit v 0, errVector := q.errVector && !bit v 1, errBase := q.errBase && !bit v 2 }
  else s

/-- The LOCKED registers of the PF window (Table REG-3): in MAKER only, PWR.FMAXj for the next admissions, PUMP.SKIPk over A3 (R783). -/
def writeLocked (off : Nat) (v : Nat) (s : State) : State :=
  if s.mgmt.fuses.lc != .maker then s
  else if 0x1580 ≤ off && off < 0x1600 then
    forEach [0, 1, 2, 3] (fun i s => s.modBeat fun b => { b with fmax := tput none b.fmax (off - 0x1580 + i) (some (v / 256 ^ i % 256)) }) s
  else if off = 0x1710 || off = 0x1714 || off = 0x1718 || off = 0x171C then a3Up (.skipBand ((off - 0x1710) / 4) v) s
  else s

/-- A write of four bytes at a multiple of 4 of a set-up window (R779 to R785). -/
def writeSetup (f off : Nat) (v : W32) (s : State) : State :=
  let n := v.toNat
  if off = 0x008 || off = 0x00C then
    if (s.fn f).dblEn then s else s.modFn f fun x => { x with dblAddr := alignTo 64 (putHalf x.dblAddr (off == 0x00C) v) }
  else if off = 0x010 then writeDblCtl f n s
  else if off = 0x014 || off = 0x100 then writeW1c f off n s
  else if off = 0x108 || off = 0x10C then
    if (s.rpt f).en then s else s.modRpt f fun q => { q with reg := { q.reg with sq := alignTo 4096 (putHalf q.reg.sq (off == 0x10C) v) } }
  else if off = 0x110 then writeRptCfg f n s
  else if 0x200 ≤ off && off < 0x400 then
    let i := (off - 0x200) / 32
    let o := off % 32
    if o = 0 || o = 4 then
      if (s.ring (ringKey f i)).en then s else s.modRing (ringKey f i) fun r => { r with reg := { r.reg with sq := alignTo 4096 (putHalf r.reg.sq (o == 4) v) } }
    else if o = 8 || o = 12 then
      if (s.ring (ringKey f i)).en then s else s.modRing (ringKey f i) fun r => { r with reg := { r.reg with cq := alignTo 4096 (putHalf r.reg.cq (o == 12) v) } }
    else if o = 16 then writeRingCfg f i n s
    else s
  else if f != 0 then s
  else if off = 0x1290 then scrubWrite n s
  else if 0x1340 ≤ off && off < 0x1380 then writeLinkCtl ((off - 0x1340) / 4) n s
  else if off = 0x1404 then writeCollCtl n s
  else if off = 0x1A04 then writeTraceCtl n s
  else writeLocked off n s

/-- A write of four bytes to a function's MSI-X table; a vector that is no longer masked sends the message it owes (R142). -/
def writeMsix (f rel : Nat) (v : W32) (s : State) : State :=
  let i := rel / 16
  if vecCount f ≤ i then s
  else match rel % 16 / 4 with
    | 0 => modVec f i (fun x => { x with addr := putHalf x.addr false v }) s
    | 1 => modVec f i (fun x => { x with addr := putHalf x.addr true v }) s
    | 2 => modVec f i (fun x => { x with data := v }) s
    | _ => flushMsi f (modVec f i (fun x => { x with masked := bit v.toNat 0 }) s)

/-- A write of four bytes to BAR0 of a function (R132, R785): the set-up window, the MSI-X table, or nothing. -/
def write4 (f off : Nat) (v : W32) (s : State) : State :=
  if inSetup f off then writeSetup f off v s
  else if msixBase f ≤ off && off < msixBase f + 16 * vecCount f then writeMsix f (off - msixBase f) v s
  else s

/-- A write to BAR0 of a function: eight bytes are two writes of four, the lower address first (R130, R131, R781). -/
def writeReg (f off size : Nat) (v : W64) (s : State) : State :=
  windowAccess f (fun s =>
    if sizeOk off size then
      let s := write4 f off (BitVec.ofNat 32 v.toNat) s
      if size = 8 then write4 f (off + 4) (BitVec.ofNat 32 (v.toNat / 2 ^ 32)) s else s
    else if inSetup f off then badSize f s
    else s) s

/-- A register row of the set-up window with the value that it writes there. -/
def writeRow (f off : Nat) (v : Nat) (s : State) : State := windowAccess f (write4 f off (BitVec.ofNat 32 v)) s

end Sys2Proof.Machine
end

