-- ==== Sys2Proof/Machine/Turn.lean ====
section
/-! DEFINITION. What every command's meaning is built around: which part of the module it meets, and what follows by itself from its effect.
A command whose part is not running leaves the state as it is (log entry 1). -/

namespace Sys2Proof.Machine

/-- A command that the management plane takes: while firmware runs, with what the management plane then sees to. -/
def mgmtTurn (act : State → State) (s : State) : State := if s.stew then watch (act s) else s

/-- A command at the module's edge or in its always-on block, with what the management plane then sees to. -/
def edgeTurn (act : State → State) (s : State) : State := watch (act s)

/-- A command that the control plane takes, with what it makes possible. -/
def ctlTurn (act : State → State) (s : State) : State := if s.up then settle (act s) else s

/-- A command of the data plane, with what it makes possible. -/
def dataTurn (act : State → State) (s : State) : State := if s.dataUp then settle (act s) else s

/-- A command of one Galbi link, with the link reset it may have called for (R389, R407, R416). -/
def linkTurn (k : Nat) (act : State → State) (s : State) : State := if k < 16 then dataTurn (fun s => linkSettle k (act s)) s else s

/-- A configuration write to one function that has a row of its own: answered like any configuration request (R124, R125, R163). -/
def cfgTurn (f : Nat) (act : State → State) (s : State) : State :=
  if !s.host.linkUp then s
  else if !s.host.ready then reply .rrs s
  else if !(s.fn f).present then reply .ur (aerUncorrectable 0 .unsupportedRequest s)
  else if (s.fn f).rrs then reply .rrs s
  else settle (reply .ok (act s))

/-- Act only where a test of the state holds. -/
def onlyIf (c : State → Bool) (act : State → State) (s : State) : State := if c s then act s else s

end Sys2Proof.Machine
end

