-- ==== Sys2Proof/Machine/StartCmds.lean ====
section
/-! DEFINITION. Meanings of commands: Start, resets, trips and main power (R42 to R92, R541, R683, R719, R726 to R749). -/

namespace Sys2Proof.Machine

/-- AUX comes within rating: a cold reset, with the straps as they read (R58, R76, R726); `removed` says that AUX had gone altogether. -/
def execAuxApplied (slot rack par : Nat) (removed : Bool) (s : State) : Out := .next (edgeTurn (auxApplied slot rack par removed) s)

/-- AUX falls below 10.80 V (R53, R58, R756). -/
def execAuxBrownOut (s : State) : Out := .next (edgeTurn brownOut s)

/-- The steward watchdog expires (R58, R684). -/
def execStewardWatchdogExpiry (s : State) : Out := .next (edgeTurn watchdog s)

/-- The module reset that was asked for is carried out, and the straps are read (R58 to R60, R76). -/
def execModuleReset (slot rack par : Nat) (s : State) : Out := .next (edgeTurn (moduleReset slot rack par) s)

/-- Firmware runs (R683, R684, R711, R726 step 3, R731). -/
def execStewardBootComplete (s : State) : Out := .next (edgeTurn boot s)

/-- The erasure after a return ends (R719). -/
def execReturnEraseComplete (s : State) : Out := .next (mgmtTurn eraseDone s)

/-- PCIE_PERST_N goes low (R58, R79). -/
def execPciePerstAssert (s : State) : Out := .next (edgeTurn perstLow s)

/-- PCIE_PERST_N goes high (R79, R162). -/
def execPciePerstDeassert (s : State) : Out := .next (edgeTurn perstRise s)

/-- A PCIe hot reset (R58, R164). -/
def execHotReset (s : State) : Out := .next (edgeTurn (pcieReset 11) s)

/-- The data link goes down (R58, R164). -/
def execDlDown (s : State) : Out := .next (edgeTurn (pcieReset 12) s)

/-- A TAP instruction is loaded (R27, R78, R722). -/
def execTapInstruction (code : Nat) (s : State) : Out := .next (edgeTurn (tapInstruction code) s)

/-- The die comparator trips (R42, R541). -/
def execDieTrip (s : State) : Out := .next (edgeTurn dieTrip s)

/-- The leak tape reads wet (R91, R586). -/
def execLeakTapeWet (s : State) : Out := .next (edgeTurn tapeIsWet s)

/-- TRIP_N is driven low from outside for so many ns (R75). -/
def execExternalTrip (lowNs : Nat) (s : State) : Out := .next (edgeTurn (externalTrip lowNs) s)

/-- The die comparator reads below its release level (R541). -/
def execDieComparatorDeassert (s : State) : Out := .next (edgeTurn dieClear s)

/-- The 50 µs release window of a whole second, with the level sampled (R743). -/
def execTripReleaseWindow (high : Bool) (s : State) : Out := .next (edgeTurn (releaseWindow high) s)

/-- TRIP_N has read high for 20 µs in released mode (R744, R745). -/
def execReleasedModeClear (s : State) : Out := .next (edgeTurn releasedClear s)

/-- MAIN_48V is present while MAIN_EN is low (R106). -/
def execUnsolicitedMain (s : State) : Out := .next (edgeTurn unsolicitedMain s)

/-- MAIN_48V reaches 40 V (R727). -/
def execMainSupplyInRating (s : State) : Out := .next (edgeTurn mainInRating s)

/-- Main power or the regulators are late (R728). -/
def execMainSupplyTimeout (s : State) : Out := .next (edgeTurn mainTimeout s)

/-- The MAIN regulators reach regulation (R490, R726 step 10). -/
def execRegulatorsInRegulation (s : State) : Out := .next (edgeTurn regsUp s)

/-- The MAIN planes reach the state of step 11 (R726, R733). -/
def execMainPlanesReady (s : State) : Out := .next (edgeTurn planesReady s)

/-- The 10 s after a main failure have passed (R728). -/
def execMainRetryTimer (s : State) : Out := .next (edgeTurn mainRetry s)

/-- MAIN_48V falls below 36 V for 1 ms (R749). -/
def execMainLost (s : State) : Out := .next (edgeTurn mainLost s)

/-- MAIN_OFF of policy class 6 (R736, R737). -/
def execMainOff (s : State) : Out := .next (mgmtTurn polMainOff s)

/-- MAIN_EN is released 10 ms after MAIN_OFF (R737). -/
def execMainOffRelease (s : State) : Out := .next (edgeTurn mainOffRelease s)

/-- The 30 s of a heat dump have passed (R574, R739). -/
def execHeatDumpEnd (s : State) : Out := .next (mgmtTurn dumpEnd s)

/-- The leak tape reads dry again (R742). -/
def execLeakTapeDry (s : State) : Out := .next (edgeTurn tapeIsDry s)

/-- Every own trip source has read deasserted for 10 s (R742, R744). -/
def execTripSourcesClean (s : State) : Out := .next (edgeTurn sourcesClean s)

end Sys2Proof.Machine
end

