-- ==== Sys2Proof/Machine/AditCmds.lean ====
section
/-! DEFINITION. Meanings of commands: The adits A1, A2, A3 and A6 (R28 to R51, R195, R267, R505, R776). -/

namespace Sys2Proof.Machine

/-- A bubble-port word reaches the beat fabric (R29 to R32). -/
def execA1Word (w : BitVec 112) (s : State) : Out := .next (dataTurn (a1In w) s)

/-- No A1 word for 100 µs (R33). -/
def execA1StaleTimeout (s : State) : Out := .next (dataTurn a1Stale s)

/-- An activity window closes (R34 to R36). -/
def execA2WindowClose (s : State) : Out := .next (dataTurn a2Close s)

/-- The power controller steps on an A2 frame (R496, R505, R506). -/
def execInnerStep (s : State) : Out := .next (mgmtTurn innerStep s)

/-- A record held in the A6 gateway is delivered (R50, R51). -/
def execA6RecordDelivered (s : State) : Out := .next (ctlTurn a6Deliver s)

/-- A mirror entry enters the control plane copy (R776). -/
def execMirrorRegisterRefresh (s : State) : Out := .next (dataTurn mirrorIn s)

/-- The management plane takes OFFER (R37, R550, R551). -/
def execOffer (s : State) : Out := .next (mgmtTurn offerIn s)

/-- The control plane takes HOLD (R37, R276). -/
def execHold (s : State) : Out := .next (dataTurn takeHold s)

/-- The control plane takes RELEASE (R267). -/
def execRelease (s : State) : Out := .next (dataTurn takeRelease s)

/-- The control plane takes REFUSE (R267, R551). -/
def execRefuse (s : State) : Out := .next (dataTurn takeRefuse s)

/-- The management plane takes WITHDRAW (R40). -/
def execWithdraw (s : State) : Out := .next (mgmtTurn withdrawIn s)

/-- The management plane takes START (R512, R547). -/
def execStartMessage (s : State) : Out := .next (mgmtTurn startIn s)

/-- The management plane takes END (R37, R512). -/
def execEndMessage (s : State) : Out := .next (mgmtTurn finishIn s)

/-- The management plane takes POLICY (R195). -/
def execPolicyMessage (s : State) : Out := .next (mgmtTurn takePolicy s)

/-- The control plane takes POLICY_ACK (R195). -/
def execPolicyAck (s : State) : Out := .next (dataTurn takePolicyAck s)

/-- A POLICY of context n has had no acknowledgement for 100 ms (R195). -/
def execPolicyTimeout (n : Nat) (s : State) : Out := .next (dataTurn (policyTimeout n) s)

end Sys2Proof.Machine
end

