-- ==== Sys2Proof/Machine/HostCmds.lean ====
section
/-! DEFINITION. Meanings of commands: The host link: configuration, translation, reads, errors and doorbells (R114 to R182, R791 to R793). -/

namespace Sys2Proof.Machine

/-- A change of ATS Enable (R150). -/
def setAts (f : Nat) (on : Bool) (s : State) : State := dropAtc f (s.modFn f fun x => { x with atsEn := on })

/-- Bus Master Enable becomes 0: reading of the line stops, and every new request waits (R160, R169). -/
def busMasterOff (f : Nat) (s : State) : State := dblCheck f (s.modFn f fun x => { x with bme := false })

/-- Bus Master Enable becomes 1; a function in reset or in D3hot takes no such write. -/
def busMasterSet (f : Nat) (s : State) : State := if (s.fn f).flr || (s.fn f).d3 then s else busMasterOn f s

/-- An error of a request to a function: logged there if the function exists, else in the PF (R152). -/
def windowError (f : Nat) (e : AerErr) (s : State) : State := aerUncorrectable (if (s.fn f).present then f else 0) e s

/-- A failing ECRC while checking is enabled: the TLP is discarded, and a read that it completes fails (Table HOST-7). -/
def ecrcFail (f : Nat) (ref : Option ReadRef) (s : State) : State :=
  if !(s.fn f).ecrc then s
  else match ref with
    | none => windowError f .ecrcError s
    | some r => readLost .ecrcError r s

/-- An uncorrectable error of the control plane: nothing is fetched until the compute plane is reset (Table HOST-7). -/
def fatalInternal (s : State) : State := (aerUncorrectable 0 .uncorrectableInternal s).modHost fun h => { h with fetchStopped := true }

/-- The link enters L1 where R161 allows it. -/
def enterL1 (s : State) : State := if l1Allowed s then s.modHost fun h => { h with inL1 := true } else s

/-- A vector is unmasked: a message still pending goes out (R142). -/
def msixUnmask (f v : Nat) (s : State) : State :=
  if v < vecCount f then flushMsi f (modVec f v (fun x => { x with masked := false }) s) else s

/-- A poll of the line, by a function that does not use Lightweight Notification (R172, R175). -/
def dblPoll (f : Nat) (s : State) : State := if usesLn (s.fn f) then s else issueDoorbell f .poll s

/-- An LN Message for a registered line: a fresh LN Read follows (R176). -/
def lnMessage (f : Nat) (s : State) : State :=
  if usesLn (s.fn f) && (s.fn f).lnRegistered then issueDoorbell f .lnMessage (s.modFn f fun x => { x with lnAnnounced := true }) else s

/-- The backstop read of a function that uses Lightweight Notification (R176). -/
def lnBackstop (f : Nat) (s : State) : State := if usesLn (s.fn f) then issueDoorbell f .backstop s else s

/-- A doorbell read that waited for a reserved tag goes out (R793). -/
def dblTagFree (f : Nat) (s : State) : State :=
  match (s.fn f).tagWait with
  | none => s
  | some k => if dblTags s < 64 then issueDoorbell f k s else s

/-- The oldest doorbell-line read of a function ends (R154, R170, R174). -/
def dblComplete (f : Nat) (res : ReadResult) (s : State) : State :=
  if (s.fn f).readsOut.isEmpty then s
  else match res with
    | .data bs => if bs.length = 64 then popDoorbell f (fun k s => dblData f k bs s) s else s
    | .poison => popDoorbell f (fun _ s => dblFailed f 0x21 s) (aerUncorrectable f .poisonedTlp s)
    | _ => popDoorbell f (fun _ s => dblFailed f 0x21 s) s

/-- A configuration request without a row of its own (R124, R125, R163). -/
def execConfigRequest (f : Nat) (op : CfgOp) (s : State) : Out := .next (settle (configRequest f op s))

/-- The control plane is ready (R163). -/
def execControlPlaneReady (s : State) : Out := .next (controlReady s)

/-- VF Enable is set (R122 to R126). -/
def execVfEnableSet (s : State) : Out := .next (cfgTurn 0 vfEnable s)

/-- VF Enable is cleared (R126). -/
def execVfEnableClear (s : State) : Out := .next (cfgTurn 0 vfDisable s)

/-- The VFs complete configuration requests normally (R125, R126). -/
def execVfRrsEnd (s : State) : Out := .next (ctlTurn vfRrsEnd s)

/-- Initiate Function Level Reset (R156, R158, R224). -/
def execFlr (f : Nat) (s : State) : Out := .next (cfgTurn f (flr f false) s)

/-- A function reset completes (R156, R224). -/
def execFlrComplete (f : Nat) (s : State) : Out := .next (ctlTurn (flrComplete f) s)

/-- A function enters D3hot (R159). -/
def execD3hotEntry (f : Nat) (s : State) : Out := .next (cfgTurn f (flr f true) s)

/-- Bus Master Enable becomes 0 (R160). -/
def execBusMasterEnableClear (f : Nat) (s : State) : Out := .next (cfgTurn f (busMasterOff f) s)

/-- Bus Master Enable becomes 1 (R160). -/
def execBusMasterEnableSet (f : Nat) (s : State) : Out := .next (cfgTurn f (busMasterSet f) s)

/-- ATS Enable changes (R150). -/
def execAtsEnableChange (f : Nat) (on : Bool) (s : State) : Out := .next (cfgTurn f (setAts f on) s)

/-- A Translation Completion (R147, R148). -/
def execTranslationCompletion (id : Nat) (res : XlResult) (s : State) : Out := .next (ctlTurn (xlComplete id res) s)

/-- An ATS Invalidate Request (R149). -/
def execInvalidateRequest (f base log2 : Nat) (s : State) : Out := .next (ctlTurn (invalidate f base log2) s)

/-- The device completes an invalidation (R149). -/
def execInvalidateComplete (f base log2 : Nat) (s : State) : Out := .next (ctlTurn (invalidateDone f base log2) s)

/-- The completion of a data read (R154, R791). -/
def execHostReadCompletion (id : Nat) (res : ReadResult) (s : State) : Out := .next (ctlTurn (readComplete id res) s)

/-- A read ends by Completion Timeout (R152). -/
def execCompletionTimeout (ref : ReadRef) (s : State) : Out := .next (ctlTurn (readTimeout ref) s)

/-- An Ack DLLP covers the n oldest posted writes (R211, R792). -/
def execAckDllp (n : Nat) (s : State) : Out := .next (ctlTurn (ackTlps n) s)

/-- A request that the device answers with UR (R152). -/
def execUnsupportedRequest (f : Nat) (s : State) : Out := .next (ctlTurn (windowError f .unsupportedRequest) s)

/-- A poisoned write to a window is discarded (R152). -/
def execPoisonedWindowWrite (f : Nat) (s : State) : Out := .next (ctlTurn (onlyIf (fun s => windowOpen s f) (windowError f .poisonedTlp)) s)

/-- An uncorrectable error of the control plane (R152). -/
def execUncorrectableInternalError (s : State) : Out := .next (ctlTurn fatalInternal s)

/-- Vector v of function f is unmasked (R142). -/
def execMsixUnmask (f v : Nat) (s : State) : Out := .next (windowAccess f (msixUnmask f v) s)

/-- COAL_TIME has run out for ring r of function f, 16 its report ring (R218). -/
def execCoalTimeExpiry (f r : Nat) (s : State) : Out := .next (ctlTurn (coalExpired f r) s)

/-- The link enters L1 (R161). -/
def execAspmL1Entry (s : State) : Out := .next (ctlTurn enterL1 s)

/-- An MCTP vendor-defined message (R180 to R182). -/
def execMctpVdm (f : Nat) (packet : Bytes) (s : State) : Out := .next (ctlTurn (mctpVdm f packet) s)

/-- HOST.DBL_CTL is written with EN = 1 (R137, R169, R780). -/
def execDblCtlEnSet (f : Nat) (v : W32) (s : State) : Out := .next (writeRow f 0x010 (v ||| 1).toNat s)

/-- HOST.DBL_CTL is written with EN = 0 (R138, R780). -/
def execDblCtlEnClear (f : Nat) (v : W32) (s : State) : Out := .next (writeRow f 0x010 (v &&& ~~~1).toNat s)

/-- A doorbell-line read falls due (R171, R172). -/
def execDoorbellPoll (f : Nat) (s : State) : Out := .next (ctlTurn (dblPoll f) s)

/-- A reserved tag is free for a waiting doorbell read (R793). -/
def execDoorbellTagFree (f : Nat) (s : State) : Out := .next (ctlTurn (dblTagFree f) s)

/-- A doorbell-line read ends (R170, R174, R178, R189). -/
def execDoorbellReadComplete (f : Nat) (res : ReadResult) (s : State) : Out := .next (ctlTurn (dblComplete f res) s)

/-- An LN Message for a registered line (R176). -/
def execLnMessage (f : Nat) (s : State) : Out := .next (ctlTurn (lnMessage f) s)

/-- The 64 µs of a backstop read have passed (R176). -/
def execLnBackstop (f : Nat) (s : State) : Out := .next (ctlTurn (lnBackstop f) s)

/-- An error that the link layer recovers (R152). -/
def execReceiverError (s : State) : Out := .next (ctlTurn (aerCorrectable 0 .receiverError) s)

/-- A corrected error in control-plane memory (R152). -/
def execCorrectedInternalError (s : State) : Out := .next (ctlTurn (aerCorrectable 0 .correctedInternal) s)

/-- A TLP of function f fails its ECRC check; `ref` names the read it completes, if any (R152). -/
def execEcrcError (f : Nat) (ref : Option ReadRef) (s : State) : Out := .next (ctlTurn (ecrcFail f ref) s)

/-- A fault of the link partner (R152). -/
def execMalformedTlp (s : State) : Out := .next (ctlTurn (aerUncorrectable 0 .malformedTlp) s)

end Sys2Proof.Machine
end

