-- ==== Sys2Proof/Machine/RingCmds.lean ====
section
/-! DEFINITION. Meanings of commands: Rings, slots, commands and completions (R183 to R226). -/

namespace Sys2Proof.Machine

/-- A slot's write-back completes: it is free (R204). -/
def swapDone (i : Nat) (s : State) : State := if (s.slot i).st == .swapping then s.modSlot i fun _ => {} else s

/-- A bound ring's state has been loaded (R204). -/
def slotLoaded (i : Nat) (s : State) : State := if (s.slot i).st == .loading then s.modSlot i fun x => { x with st := .bound } else s

/-- A ring has been idle for 20 µs (R205). -/
def idleOut (i : Nat) (s : State) : State := if (s.slot i).st == .bound && (s.slot i).idleOrd.isSome then swapOut i s else s

/-- A ring has been bound for 50 µs (R207). -/
def boundLong (i : Nat) (s : State) : State := if (s.slot i).st == .bound then s.modSlot i fun x => { x with fifty := true } else s

/-- A slot's descriptor read ends: with `bs` whole, or failed after `bs` (R152, R203, R223). -/
def descrComplete (i : Nat) (bs : Bytes) (fail : Option ReadFail) (s : State) : State :=
  match (s.slot i).rd with
  | none => s
  | some (_, n) => match fail with
    | none => if bs.length = 64 * n then descrArrive i bs false s else s
    | some .poison => descrArrive i bs true (aerUncorrectable ((s.slot i).ring / 16) .poisonedTlp s)
    | some _ => descrArrive i bs true s

/-- A context that holds an EVENT_WAIT. -/
def waiting (s : State) (n : Nat) : Bool := (s.ctx n).ph == .held && (s.ctx n).op == 6

/-- The counter an EVENT_WAIT watches. -/
def waitCounter (s : State) (n : Nat) : Nat := (s.event (s.ctx n).cage (byteAt (s.ctx n).desc 16)).toNat

/-- An EVENT_WAIT's counter has reached its threshold (R193). -/
def waitReached (n : Nat) (s : State) : State := if waiting s n && waitMet s (s.ctx n) then endOk n (waitCounter s n) s else s

/-- An EVENT_WAIT's timeout has passed (R193). -/
def waitTimeout (n : Nat) (s : State) : State := if waiting s n && !waitMet s (s.ctx n) then endCmd n 0x30 0 (waitCounter s n) s else s

/-- A write that waited for a pinned page goes on (R217). -/
def pinResume (n : Nat) (s : State) : State :=
  let c := s.ctx n
  if c.ph == .prep && c.pinWait && !pinBlocked s c.cage c.pages c.wrPages then s.modCtx n fun c => { c with pinWait := false } else s

/-- The write-back of slot i completes (R204). -/
def execSwapOutComplete (i : Nat) (s : State) : Out := .next (ctlTurn (swapDone i) s)

/-- The state of the ring bound to slot i is loaded (R204). -/
def execSlotStateLoaded (i : Nat) (s : State) : Out := .next (ctlTurn (slotLoaded i) s)

/-- The ring in slot i has been idle for 20 µs (R205). -/
def execRingIdleTimeout (i : Nat) (s : State) : Out := .next (ctlTurn (idleOut i) s)

/-- The ring in slot i has been bound for 50 µs (R207). -/
def execRingBound50us (i : Nat) (s : State) : Out := .next (ctlTurn (boundLong i) s)

/-- RING.CFGi is written with EN = 1 (R184 to R186, R780). -/
def execRingEnSet (f i : Nat) (v : W32) (s : State) : Out := .next (writeRow f (0x210 + 0x20 * (i % 16)) (v ||| 1).toNat s)

/-- RING.CFGi is written with EN = 0 (R186, R780). -/
def execRingEnClear (f i : Nat) (v : W32) (s : State) : Out := .next (writeRow f (0x210 + 0x20 * (i % 16)) (v &&& ~~~1).toNat s)

/-- RING.RPT_CFG is written with EN = 1 (R184, R220). -/
def execRptCfgEnSet (f : Nat) (v : W32) (s : State) : Out := .next (writeRow f 0x110 (v ||| 1).toNat s)

/-- RING.RPT_CFG is written with EN = 0 (R186, R221). -/
def execRptCfgEnClear (f : Nat) (v : W32) (s : State) : Out := .next (writeRow f 0x110 (v &&& ~~~1).toNat s)

/-- Slot i reads its next descriptors (R203). -/
def execDescriptorFetch (i : Nat) (s : State) : Out := .next (ctlTurn (issueDescr i) s)

/-- The descriptor read of slot i ends (R203, R223). -/
def execDescriptorReadComplete (i : Nat) (bs : Bytes) (fail : Option ReadFail) (s : State) : Out := .next (ctlTurn (descrComplete i bs fail) s)

/-- A descriptor whose opcode is not in Table RING-3 (R191). -/
def execUndefinedOpcode (f r : Nat) (s : State) : Out := .next (ringUnknown f r s)

/-- NOP (Table RING-3). -/
def execNop (f r : Nat) (s : State) : Out := .next (ringOp 0x00 specNop f r (fun n s => endOk n 0 s) s)

/-- COPY_H2D (R192, R209). -/
def execCopyH2d (f r : Nat) (s : State) : Out := .next (ringOp 0x01 specH2d f r bodyCopy s)

/-- COPY_D2H (R192, R209, R376). -/
def execCopyD2h (f r : Nat) (s : State) : Out := .next (ringOp 0x02 specD2h f r bodyCopy s)

/-- COPY_D2D (R192, R194). -/
def execCopyD2d (f r : Nat) (s : State) : Out := .next (ringOp 0x03 specD2d f r bodyCopy s)

/-- FILL (R192). -/
def execFill (f r : Nat) (s : State) : Out := .next (ringOp 0x04 specFill f r bodyCopy s)

/-- EVENT_SIGNAL (R192, R193). -/
def execEventSignal (f r : Nat) (s : State) : Out := .next (ringOp 0x05 specSignal f r bodySignal s)

/-- EVENT_WAIT (R192, R193). -/
def execEventWait (f r : Nat) (s : State) : Out := .next (ringOp 0x06 specWait f r bodyWait s)

/-- The counter of the EVENT_WAIT of context n reaches its threshold (R193). -/
def execEventWaitMet (n : Nat) (s : State) : Out := .next (ctlTurn (waitReached n) s)

/-- The EVENT_WAIT of context n times out (R193). -/
def execEventWaitTimeout (n : Nat) (s : State) : Out := .next (ctlTurn (waitTimeout n) s)

/-- HOST_WRITE (R192). -/
def execHostWrite (f r : Nat) (s : State) : Out := .next (ringOp 0x07 specHostWrite f r bodyHostWrite s)

/-- SCHED_SET (R210). -/
def execSchedSet (f r : Nat) (s : State) : Out := .next (ringOp 0x08 specSched f r bodySched s)

/-- POLICY (R195). -/
def execPolicy (f r : Nat) (s : State) : Out := .next (ringOp 0x30 specPolicy f r bodyPolicy s)

/-- The pages that context n writes are pinned no more (R217). -/
def execPinnedWriteResume (n : Nat) (s : State) : Out := .next (ctlTurn (pinResume n) s)

/-- The completion record of context n is written (R196, R211). -/
def execCommandComplete (n : Nat) (s : State) : Out := .next (ctlTurn (tryComplete n) s)

end Sys2Proof.Machine
end

