-- ==== Sys2Proof/Machine/CageCmds.lean ====
section
/-! DEFINITION. Meanings of commands: Cages, pages, admission and programs (R227 to R285, R320 to R361). -/

namespace Sys2Proof.Machine

/-- End the issued commands of a cage that is being destroyed, those with transfers in flight once these have completed (R236). -/
def endCageCmds (c : Nat) (s : State) : State :=
  forEach (ctxsWhere (fun x => x.cage == c) s) (fun n s =>
    let x := s.ctx n
    if x.ph == .prep || (x.ph == .held && (x.op == 6 || x.op == 0x13)) || (x.ph == .moving && !ctxPending s n) then endCmd n 0x31 0 0 (cancelPlans n s) else s) s

/-- CAGE_DESTROY past its checks (R235, R236). -/
def bodyDestroy (n : Nat) (s : State) : State :=
  let t := byteAt (s.ctx n).desc 16
  match (s.cage t).st with
  | .absent => endCmd n 0x33 4 0 s
  | .dormant => endCmd n 0x33 1 0 s
  | .ending => endCmd n 0x33 2 0 s
  | .active =>
    let s := (s.modCage t fun g => { g with st := .ending, destroyCtx := some n }).modCtx n fun c => { c with ph := .held }
    let s := (abortAll n (s.cages.adms.filter (fun a => a.cage == t)) s).1
    let s := endCageCmds t s
    forEach (handlesOf s t) (fun h s => destroyGroup h none s) s

/-- Nothing of a cage under destruction runs any more (R236). -/
def destroyReady (s : State) (c : Nat) : Bool :=
  !s.cages.adms.any (fun a => a.cage == c) && (handlesOf s c).isEmpty && !s.cages.moves.any (fun m => m.cage == c && m.running) &&
    (ctxsWhere (fun x => x.cage == c && (x.ph == .prep || x.ph == .moving || x.ph == .held)) s).isEmpty

/-- Unmap every page of a cage and forget its pool; plans that counted on its pages are mended (R236, R253, R258). -/
def destroyPages (c : Nat) (s : State) : State :=
  let plans := (s.cages.moves.filter (fun m => m.cage == c && m.evict)).map (·.plan)
  let s := forEach ((cagePages s c).map (·.1)) (fun p s => (unmapPage c p s).modPage c p fun _ => {}) s
  let s := s.modCages fun x => { x with moves := x.moves.filter (fun m => m.cage != c) }
  forEach plans.eraseDups mendPlan s

/-- CAGE_DESTROY has been carried out: the cage is DORMANT and the command ends (R236). -/
def destroyDone (c : Nat) (s : State) : State :=
  if (s.cage c).st == .ending && destroyReady s c then
    match (s.cage c).destroyCtx with
    | none => s
    | some n =>
      let s := destroyPages c s
      endOk n 0 (s.modCage c fun g => { g with st := .dormant, poolBase := 0, poolSlots := 0, poolFaulted := false, destroyCtx := none })
  else s

/-- WAIT_US of a queued admission has expired (R274). -/
def queueExpired (n : Nat) (s : State) : State :=
  match s.adm n with
  | none => s
  | some a => if a.ph == .queued then failAdm n 0x41 4 0 s else s

/-- A released cluster's scratchpad and state are zero (R241). -/
def clusterScrubbed (c : Nat) (s : State) : State := if (s.clus c).scrubbing then s.modClus c fun _ => {} else s

/-- A claimed range is free of transfers: every page is unmapped (R250). -/
def unmapDone (n : Nat) (s : State) : State :=
  let c := s.ctx n
  if c.ph == .held && c.op == 0x13 && unmapReady s c then endOk n (pageRange c.desc).length (forEach (pageRange c.desc) (unmapPage c.cage) s) else s

/-- The background scrubber has zeroed a dirty frame (R253). -/
def frameScrubbed (f : Nat) (s : State) : State :=
  if f < 65536 && s.frame f == .dirty then (zeroFrame f s).setFrame f .clean else s

/-- Zeroing on demand of the frame of a page ends (R254). -/
def demandZeroed (c p : Nat) (s : State) : State :=
  if (s.page c p).zeroing then (zeroFrame (s.page c p).frame s).modPage c p fun g => { g with zeroing := false } else s

/-- The last write of an eviction has been acknowledged (R259). -/
def evictEnd (c p : Nat) (s : State) : State :=
  match moveOf s c p with
  | none => s
  | some m => if m.evict && m.running && decide (pageBytes ≤ m.off) && evictAcked s c p then evictDone c p s else s

/-- The last read of a restore has completed (R259). -/
def restoreEnd (c p : Nat) (s : State) : State :=
  match moveOf s c p with
  | none => s
  | some m => if !m.evict && m.running && decide (pageBytes ≤ m.off) then restoreDone c p s else s

/-- Pages that a program pins. -/
def bookPinned (s : State) : Nat := (s.cages.pages.filter (fun e => decide (0 < e.2.pins))).length

/-- PAGE_BOOK (R264). -/
def pageBook (s : State) : State :=
  reportCtl 0x0605 [(20, 4, bookClean s), (24, 4, bookDirty s), (28, 4, bookHeld s), (32, 4, bookTransit s), (36, 4, bookPinned s),
    (40, 4, ((s.cages.cages.filter (fun e => e.2.st == .active)).map (fun e => e.2.guar)).sum)] 0 s

/-- A piece of a stream lands, unless its host request under shadow residency is still to be made or answered (R281, R343, R345). -/
def pieceLanded (id p : Nat) (s : State) : State :=
  match s.beat.streams.find? (fun t => t.id == id) with
  | none => s
  | some t =>
    if !t.left.contains p then s
    else if shadowPiece s t p then (if t.op = 2 && t.sent.contains p && !shadowPending s id p then landPiece t p none s else s)
    else landPiece t p none s

/-- A shadow access has failed: the program ends (R356). -/
def shadowStop (g : Nat) (s : State) : State :=
  if (s.group g).st == .running && (s.group g).shadowFail.isSome then haltGroup g s else s

/-- A gate has been held beyond GATE_LIMIT_US: breach code 4 (R348, R360). -/
def gateExpired (g : Nat) (s : State) : State :=
  let x := s.group g
  if x.st == .running && x.holding then haltGroup g (noteBreach g (breachDetail 4 (unmetCluster s g) x.beat) s) else s

/-- ADMIT (R265 to R274). -/
def execAdmitCmd (f r : Nat) (s : State) : Out := .next (ringOp 0x10 specAdmit f r bodyAdmit s)

/-- The head of the admission queue is served (R274). -/
def execAdmitQueueServed (s : State) : Out := .next (ctlTurn serveQueue s)

/-- WAIT_US of the queued ADMIT of context n expires (R274). -/
def execAdmitWaitExpiry (n : Nat) (s : State) : Out := .next (ctlTurn (queueExpired n) s)

/-- The pages of the ADMIT of context n are resident (R267, R273, R276). -/
def execAdmitResidencyComplete (n : Nat) (s : State) : Out := .next (ctlTurn (residencyComplete n) s)

/-- The program of the ADMIT of context n is loaded (R267, R349). -/
def execProgramLoadComplete (n : Nat) (s : State) : Out := .next (ctlTurn (loadComplete n) s)

/-- The OFFER of context n has had no answer for 1,100 ms (R277). -/
def execOfferBackstop (n : Nat) (s : State) : Out := .next (ctlTurn (offerBackstop n) s)

/-- PROGRAM_ABORT (R352). -/
def execProgramAbort (f r : Nat) (s : State) : Out := .next (ringOp 0x11 specAbort f r bodyAbort s)

/-- The transfers of stopped group g have drained (R351). -/
def execAbortDrainComplete (g : Nat) (s : State) : Out := .next (dataTurn (drainDone g) s)

/-- A released cluster has been zeroed (R241). -/
def execClusterScrubComplete (c : Nat) (s : State) : Out := .next (dataTurn (clusterScrubbed c) s)

/-- PAGE_MAP (R248, R249). -/
def execPageMap (f r : Nat) (s : State) : Out := .next (ringOp 0x12 specMap f r bodyMap s)

/-- PAGE_UNMAP (R248, R250). -/
def execPageUnmap (f r : Nat) (s : State) : Out := .next (ringOp 0x13 specUnmap f r bodyUnmap s)

/-- The range claimed by context n is free of transfers (R250). -/
def execPageUnmapComplete (n : Nat) (s : State) : Out := .next (ctlTurn (unmapDone n) s)

/-- POOL_SET (R251, R261). -/
def execPoolSet (f r : Nat) (s : State) : Out := .next (ringOp 0x14 specPool f r bodyPool s)

/-- CAGE_CREATE (R229, R233, R235). -/
def execCageCreate (f r : Nat) (s : State) : Out := .next (ringOp 0x18 specCreate f r bodyCreate s)

/-- CAGE_DESTROY (R235, R236). -/
def execCageDestroy (f r : Nat) (s : State) : Out := .next (ringOp 0x19 specDestroy f r bodyDestroy s)

/-- All of a CAGE_DESTROY is done (R236). -/
def execCageDestroyComplete (c : Nat) (s : State) : Out := .next (ctlTurn (destroyDone c) s)

/-- CAGE_QUOTA (R233 to R235). -/
def execCageQuota (f r : Nat) (s : State) : Out := .next (ringOp 0x1A specQuota f r bodyQuota s)

/-- The scrubber has zeroed frame f (R253). -/
def execFrameScrubbed (f : Nat) (s : State) : Out := .next (dataTurn (frameScrubbed f) s)

/-- The frame of page p of cage c has been zeroed on demand (R254). -/
def execDemandZeroComplete (c p : Nat) (s : State) : Out := .next (dataTurn (demandZeroed c p) s)

/-- The eviction of page p of cage c ends (R259). -/
def execEvictionComplete (c p : Nat) (s : State) : Out := .next (ctlTurn (evictEnd c p) s)

/-- The restore of page p of cage c ends (R259). -/
def execRestoreComplete (c p : Nat) (s : State) : Out := .next (ctlTurn (restoreEnd c p) s)

/-- The second of PAGE_BOOK has passed (R264). -/
def execPageBookTimer (s : State) : Out := .next (ctlTurn pageBook s)

/-- One slot of running group g (R320 to R347). -/
def execBeatSlot (g : Nat) (s : State) : Out := .next (dataTurn (onlyIf (fun s => (s.group g).st == .running) (slotStep g)) s)

/-- A piece of a stream transfer lands (R342 to R345). -/
def execStreamPieceLanded (id piece : Nat) (s : State) : Out := .next (dataTurn (pieceLanded id piece) s)

/-- The program of group g has ended (R350). -/
def execProgramEnd (g : Nat) (s : State) : Out := .next (dataTurn (programDone g) s)

/-- Group g has been held beyond its gate limit (R348). -/
def execGateLimitExpiry (g : Nat) (s : State) : Out := .next (dataTurn (gateExpired g) s)

/-- The supply of cluster c crosses the droop threshold (R492, R493). -/
def execDroopCrossing (c : Nat) (s : State) : Out := .next (dataTurn (droop c) s)

/-- A shadow access of group g has failed (R356). -/
def execShadowAccessFail (g : Nat) (s : State) : Out := .next (dataTurn (shadowStop g) s)

end Sys2Proof.Machine
end

