-- ==== Sys2Proof/Machine/StackCmds.lean ====
section
/-! DEFINITION. Meanings of commands: Memory stacks (R362 to R387). -/

namespace Sys2Proof.Machine

/-- A stack readout with the refresh rate, the record and the trip line (R381 to R384). -/
def stackRead (i : Nat) (t : Option Int) (s : State) : State :=
  if i < 8 && s.sup.regs then stackTripLine i t (stackReadout i t s) else s

/-- A line access of a trained stack (R367). -/
def lineTurn (line : Nat) (op : LineOp) (e : LineErr) (s : State) : State :=
  if (s.stack (stackOf (64 * line))).train = 1 then lineAccess line op e s else s

/-- Patrol reads of a trained stack while PERIOD is not 0 (R379). -/
def patrolTurn (i : Nat) (e : LineErr) (s : State) : State :=
  if i < 8 && (s.stack i).train = 1 && s.mem.period != 0 then patrolRead i e s else s

/-- A command that waited for stack training reaches its first own check again (R385). -/
def trainResume (n : Nat) (s : State) : State :=
  match (s.ctx n).op with
  | 0x10 => bodyAdmit n s
  | 0x12 => bodyMap n s
  | 0x23 => bodyCollOp true n s
  | 0x24 => bodyCollOp false n s
  | _ => bodyCopy n s

/-- Stack training ends, and the commands that waited for it go on in the order they were issued (R385). -/
def trainedAll (failed : Nat) (s : State) : State :=
  if s.mem.trainEnded then s
  else
    let s := trainingEnd failed s
    forEach (ctxsWhere (fun c => c.ph == .prep && c.trainWait) s) trainResume s

/-- A controller serves one 64-byte line (R367, R374 to R377). -/
def execStackLineAccess (line : Nat) (op : LineOp) (e : LineErr) (s : State) : Out := if line < 2 ^ 31 then .next (dataTurn (lineTurn line op e) s) else .fault .noSuchLine

/-- The temperature of stack i in sixteenths of a degree is read, or both tries fail (R381 to R384). -/
def execStackReadout (i : Nat) (t : Option Int) (s : State) : Out := .next (edgeTurn (stackRead i t) s)

/-- Patrol reads the next line of stack i (R379). -/
def execPatrolScrubRead (i : Nat) (e : LineErr) (s : State) : Out := .next (dataTurn (patrolTurn i e) s)

/-- The second of corrections of stack i has passed (R380). -/
def execStackCeRateTimer (i : Nat) (s : State) : Out := .next (dataTurn (onlyIf (fun _ => i < 8) (ceRate i)) s)

/-- STACK.SCRUB_CTL is written with LOCK = 1 (R379, R387). -/
def execScrubCtlLock (v : W32) (s : State) : Out := .next (writeRow 0 0x1290 (v ||| 0x80).toNat s)

/-- Stack training ends; `failed` has a bit for each stack that did not train (R385). -/
def execStackTrainingEnd (failed : Nat) (s : State) : Out := .next (ctlTurn (trainedAll failed) s)

end Sys2Proof.Machine
end

