-- ==== Sys2Proof/Machine/LinkCmds.lean ====
section
/-! DEFINITION. Meanings of commands: Galbi links and memory messages (R389 to R432). -/

namespace Sys2Proof.Machine

/-- Full training has not completed within 500 ms (R395 to R397). -/
def trainTimeout (k : Nat) (s : State) : State := if (s.link k).st == .training then trainFail k 1 0 s else s

/-- The 1 s before the next try has passed (R397). -/
def trainAgain (k : Nat) (s : State) : State := if (s.link k).en && (s.link k).st == .down then train k s else s

/-- No advance of ACK_SEQ for 4 µs with flits unacknowledged (R406). -/
def replayNow (k : Nat) (s : State) : State :=
  if (s.link k).st == .up && !(s.link k).replay.isEmpty then s.modLink k startReplay else s

/-- A further NAK may be sent (R404). -/
def nakAgain (k : Nat) (s : State) : State := if (s.link k).st == .up then s.modLink k fun l => { l with nakSent := false } else s

/-- The audit of this millisecond falls due (R415). -/
def auditNow (k : Nat) (s : State) : State := if (s.link k).st == .up then s.modLink k fun l => { l with auditDue := true } else s

/-- Lane lock or deskew is lost, or too many pairs are bad: a fast retrain (R427). -/
def laneLost (k : Nat) (s : State) : State := if (s.link k).st == .up then s.modLink k fun l => { l with st := .retrain } else s

/-- A fast retrain has not completed in 2 ms (R427). -/
def retrainLate (k : Nat) (s : State) : State := if (s.link k).st == .retrain then resetLink k 3 0 s else s

/-- The peer has been silent for 2 ms (R427). -/
def peerSilent (k : Nat) (s : State) : State :=
  if (s.link k).st == .up || (s.link k).st == .retrain then resetLink k 4 0 s else s

/-- LINK.CTLk is written with EN = 1 (R394, R431). -/
def execLinkEnSet (k : Nat) (v : W32) (s : State) : Out := .next (writeRow 0 (0x1340 + 4 * (k % 16)) (v ||| 1).toNat s)

/-- LINK.CTLk is written with EN = 0 (R427, R431). -/
def execLinkEnClear (k : Nat) (v : W32) (s : State) : Out := .next (writeRow 0 (0x1340 + 4 * (k % 16)) (v &&& ~~~1).toNat s)

/-- Lane start-up ends; `failed` has a bit for each failed lane (R392, R395). -/
def execLaneStartupComplete (k failed : Nat) (s : State) : Out := .next (linkTurn k (laneDone k failed) s)

/-- A HELLO arrives (R395, R396, R398). -/
def execHello (k : Nat) (flit : Bytes) (s : State) : Out := .next (linkTurn k (helloIn k flit) s)

/-- Full training has taken 500 ms (R395, R397). -/
def execLinkTrainingTimeout (k : Nat) (s : State) : Out := .next (linkTurn k (trainTimeout k) s)

/-- The retry second of link k has passed (R397). -/
def execLinkRetryTimer (k : Nat) (s : State) : Out := .next (linkTurn k (trainAgain k) s)

/-- A codeword pair cannot be corrected (R405). -/
def execCodewordPairUncorrectable (k : Nat) (s : State) : Out := .next (linkTurn k (pairLost k) s)

/-- A DATA flit arrives (R404, R419). -/
def execDataFlitReceived (k : Nat) (flit : Bytes) (s : State) : Out := .next (linkTurn k (dataIn k flit) s)

/-- An LCTL other than a HELLO arrives (R402, R406, R413, R415). -/
def execLctlReceived (k : Nat) (flit : Bytes) (s : State) : Out := .next (linkTurn k (lctlIn k flit) s)

/-- The replay timer of link k expires (R406). -/
def execReplayTimeout (k : Nat) (s : State) : Out := .next (linkTurn k (replayNow k) s)

/-- 4 µs have passed since a NAK (R404). -/
def execNakHoldoffExpiry (k : Nat) (s : State) : Out := .next (linkTurn k (nakAgain k) s)

/-- One flit slot of link k (R410). -/
def execFlitSlotTransmit (k : Nat) (s : State) : Out := .next (linkTurn k (flitSlot k) s)

/-- The millisecond of the audit has passed (R415). -/
def execAuditSend (k : Nat) (s : State) : Out := .next (linkTurn k (auditNow k) s)

/-- Link k loses lane lock or deskew (R427). -/
def execLaneLockLost (k : Nat) (s : State) : Out := .next (linkTurn k (laneLost k) s)

/-- A fast retrain completes (R428). -/
def execFastRetrainComplete (k : Nat) (s : State) : Out := .next (linkTurn k (retrainDone k) s)

/-- A fast retrain has taken 2 ms (R427). -/
def execFastRetrainTimeout (k : Nat) (s : State) : Out := .next (linkTurn k (retrainLate k) s)

/-- The peer has been silent for 2 ms (R427). -/
def execPeerSilentTimeout (k : Nat) (s : State) : Out := .next (linkTurn k (peerSilent k) s)

/-- The target takes an MWRITE (R422). -/
def execMwrite (k : Nat) (s : State) : Out := .next (linkTurn k (withMsg k 3 0x01 (mwriteIn k)) s)

/-- The lines of the oldest MWRITE are acknowledged (R422). -/
def execMwriteLinesAcked (k : Nat) (s : State) : Out := .next (linkTurn k (respReady k false) s)

/-- The target takes an MREAD (R422). -/
def execMread (k : Nat) (s : State) : Out := .next (linkTurn k (withMsg k 3 0x02 (mreadIn k)) s)

/-- The lines of the oldest MREAD are read (R420, R422). -/
def execMreadDataReady (k : Nat) (s : State) : Out := .next (linkTurn k (respReady k true) s)

/-- The requester takes an MDATA (R425, R466). -/
def execMdata (k : Nat) (s : State) : Out := .next (linkTurn k (withMsg k 3 0x03 (mdataIn k)) s)

/-- The requester takes a MACK (R426). -/
def execMack (k : Nat) (s : State) : Out := .next (linkTurn k (withMsg k 3 0x04 (mackIn k)) s)

/-- A memory request has had no response for 1 ms (R426). -/
def execVcMemTimeout (k tag : Nat) (s : State) : Out := .next (linkTurn k (memTimeout k tag) s)

/-- The second of link error counts has passed; `corrected` symbols were corrected in it (R432). -/
def execLinkErrRateTimer (k corrected : Nat) (s : State) : Out := .next (linkTurn k (linkErrRate k corrected) s)

end Sys2Proof.Machine
end

