-- ==== Sys2Proof/Machine/CollCmds.lean ====
section
/-! DEFINITION. Meanings of commands: Collectives (R433 to R484). -/

namespace Sys2Proof.Machine

/-- COLL_GROUP_CREATE (R435 to R445). -/
def execCollGroupCreate (f r : Nat) (s : State) : Out := .next (ringOp 0x20 specCollCreate f r bodyCollCreate s)

/-- COLL_GROUP_DESTROY (R482). -/
def execCollGroupDestroy (f r : Nat) (s : State) : Out := .next (ringOp 0x21 specCollDestroy f r bodyCollDestroy s)

/-- COLL_BUF_REGISTER (R447 to R450). -/
def execCollBufRegister (f r : Nat) (s : State) : Out := .next (ringOp 0x22 specCollReg f r bodyCollReg s)

/-- REDUCE_SCATTER (R440, R453, R457). -/
def execReduceScatter (f r : Nat) (s : State) : Out := .next (ringOp 0x23 (specCollOp true) f r (bodyCollOp true) s)

/-- ALL_GATHER (R440, R453, R463). -/
def execAllGather (f r : Nat) (s : State) : Out := .next (ringOp 0x24 (specCollOp false) f r (bodyCollOp false) s)

/-- GROUP_HELLO is received (R444, R445). -/
def execGroupHello (k : Nat) (s : State) : Out := .next (linkTurn k (withMsg k 1 0x16 (helloMsg k)) s)

/-- Unacknowledged HELLOs of group h are sent again (R443). -/
def execGroupHelloResend (h : Nat) (s : State) : Out := .next (dataTurn (helloAgain h) s)

/-- GROUP_ACK is received (R445). -/
def execGroupAck (k : Nat) (s : State) : Out := .next (linkTurn k (withMsg k 1 0x17 (ackMsg k)) s)

/-- KEY_OFFER is received (R449, R450). -/
def execKeyOffer (k : Nat) (s : State) : Out := .next (linkTurn k (withMsg k 1 0x18 (keyMsg k)) s)

/-- GROUP_BYE is received (R482). -/
def execGroupBye (k : Nat) (s : State) : Out := .next (linkTurn k (withMsg k 1 0x19 (byeMsg k)) s)

/-- WAIT_US has passed for a create (0), for the registration of INDEX i (1) or for the first OP_READY (R445, R449, R453). -/
def execCollWaitExpiry (h what i : Nat) (s : State) : Out := .next (dataTurn (waitExpired h what i) s)

/-- The next operation of group h starts (R453). -/
def execCollOpStart (h : Nat) (s : State) : Out := .next (dataTurn (opStart h) s)

/-- The admission that the operation of group h is bound to has started, or is gone (R473). -/
def execBindStartWaitEnd (h : Nat) (s : State) : Out := .next (dataTurn (bindWaitEnd h) s)

/-- The source gate of group h is met (R472). -/
def execBindSourceGateMet (h : Nat) (s : State) : Out := .next (dataTurn (sourceGate h) s)

/-- OP_READY is received (R453). -/
def execOpReady (k : Nat) (s : State) : Out := .next (linkTurn k (withMsg k 1 0x14 (readyMsg k)) s)

/-- Engine quarter q starts a chunk (R475). -/
def execChunkStart (q : Nat) (s : State) : Out := .next (dataTurn (onlyIf (fun _ => q < 4) (chunkStart q)) s)

/-- AG_DATA or RS_DATA is received on VC-COLL (0) or VC-BULK (1) (R457, R463). -/
def execCollData (k vc : Nat) (s : State) : Out := .next (linkTurn k (collDataIn k (vc % 2 + 1)) s)

/-- CHUNK_END is received on VC-COLL (0) or VC-BULK (1) (R465). -/
def execChunkEnd (k vc : Nat) (s : State) : Out := .next (linkTurn k (withMsg k (vc % 2 + 1) 0x12 (chunkEndMsg k)) s)

/-- The chunk received on strand j of group h is checked; `mism` residues mismatched (R465 to R467). -/
def execChunkCheck (h j mism : Nat) (s : State) : Out := .next (dataTurn (chunkCheck h j mism) s)

/-- CHUNK_ACK is received (R460, R466). -/
def execChunkAck (k : Nat) (s : State) : Out := .next (linkTurn k (withMsg k 1 0x13 (chunkAckMsg k)) s)

/-- OP_ABORT is received (R480). -/
def execOpAbort (k : Nat) (s : State) : Out := .next (linkTurn k (withMsg k 1 0x15 (abortMsg k)) s)

/-- The neighbour of group h on link k has been silent for TIMEOUT_MS (R454). -/
def execCollProgressTimeout (h k : Nat) (s : State) : Out := .next (dataTurn (progressTimeout h k) s)

/-- The ending operation of group h has drained (R480). -/
def execCollDrainComplete (h : Nat) (s : State) : Out := .next (dataTurn (collDrained h) s)

/-- The second of collective error counts has passed (R484). -/
def execCollErrCountTimer (s : State) : Out := .next (dataTurn collErrCount s)

end Sys2Proof.Machine
end

