-- ==== Sys2Proof/Machine/PowerCmds.lean ====
section
/-! DEFINITION. Meanings of commands: Power capping, rails and lock groups (R485 to R528). -/

namespace Sys2Proof.Machine

/-- The MAIN regulators are read: input power in mW and input voltage in mV of each, none where a read fails (R485, R486, R798). -/
def execPmbusRead (reads : List (Option (Nat × Nat))) (s : State) : Out := .next (mgmtTurn (pmbusRead reads) s)

/-- The outer update of 1 ms (R497, R499, R508). -/
def execOuterUpdate (s : State) : Out := .next (mgmtTurn outerUpdate s)

/-- The derate update of 50 ms (R504). -/
def execDerateUpdate (s : State) : Out := .next (mgmtTurn derateUpdate s)

/-- VDD_CORE has reached what the OFFER of beat group j needs (R491). -/
def execRailAtLevel (j : Nat) (s : State) : Out := .next (mgmtTurn (railAtLevel j) s)

/-- SET_CAP of policy class 1 (R502). -/
def execSetCap (s : State) : Out := .next (mgmtTurn polSetCap s)

/-- SET_MODE of policy class 1 (R495). -/
def execSetMode (s : State) : Out := .next (mgmtTurn polSetMode s)

/-- LOCK_PERMIT of policy class 1 (R510). -/
def execLockPermit (s : State) : Out := .next (mgmtTurn polLockPermit s)

/-- COUNTERS_NOW of policy class 1 (R524). -/
def execCountersNow (s : State) : Out := .next (mgmtTurn polCounters s)

/-- LOG_REPLAY of policy class 1 (R522, R526). -/
def execLogReplay (s : State) : Out := .next (mgmtTurn polLogReplay s)

/-- A changed policy record falls due for its store (R503, R591). -/
def execPowerPolicyStore (s : State) : Out := .next (mgmtTurn policyStore s)

/-- A LOCK_JOIN is taken from A5 (R514, R517 to R519). -/
def execLockJoin (s : State) : Out := .next (mgmtTurn (withA5 0x40 takeLock) s)

/-- A LOCK_DEMAND is taken from A5 (R514, R517 to R519). -/
def execLockDemand (s : State) : Out := .next (mgmtTurn (withA5 0x41 takeLock) s)

/-- A LOCK_LEAVE is taken from A5 (R514, R517). -/
def execLockLeave (s : State) : Out := .next (mgmtTurn (withA5 0x42 takeLock) s)

/-- An origin of a LOCK has been unheard for 30 µs (R517). -/
def execLockOriginSilent (lock origin : Nat) (s : State) : Out := .next (mgmtTurn (lockSilent lock origin) s)

/-- 100 ms have passed since an entry was last heard (R514). -/
def execLockEntryExpiry (lock origin : Nat) (s : State) : Out := .next (mgmtTurn (lockForget lock origin) s)

/-- A waiting lock message enters A5 for link k (R47, R520). -/
def execLockQueueSend (k : Nat) (s : State) : Out := .next (mgmtTurn (lockSend k) s)

/-- The 100 ms of PWR_STATUS, and of the mirror refresh, have passed (R528, R776). -/
def execPwrStatusTimer (s : State) : Out := .next (mgmtTurn (fun s => mirrorAll (pwrStatus s)) s)

/-- The 100 ms of PWR_LOCK_STATUS have passed (R528). -/
def execPwrLockStatusTimer (s : State) : Out := .next (mgmtTurn pwrLockStatus s)

/-- The second of THROTTLE_COUNTERS has passed (R524). -/
def execThrottleCountersTimer (s : State) : Out := .next (mgmtTurn (throttleCounters true) s)

/-- The second of PWR_DROOP has passed (R493). -/
def execPwrDroopTimer (s : State) : Out := .next (mgmtTurn pwrDroop s)

end Sys2Proof.Machine
end

