-- ==== Sys2Proof/Machine/HeatCmds.lean ====
section
/-! DEFINITION. Meanings of commands: Heat sensing, thresholds and forecast (R529 to R556). -/

namespace Sys2Proof.Machine

/-- The 16 die diodes are read, none where a read fails (R529 to R531). -/
def execDieSensorSample (xs : List (Option Int)) (s : State) : Out := .next (mgmtTurn (dieSample xs) s)

/-- The coolant sensors are read (R529, R551). -/
def execCoolantSensorSample (x : CoolantIn) (s : State) : Out := .next (mgmtTurn (coolantSample x) s)

/-- Humidity, dew point and air temperature are read (R529). -/
def execHumiditySample (rh dew air : Option Int) (s : State) : Out := .next (mgmtTurn (humiditySample rh dew air) s)

/-- Sensor i has passed its checks for 1 s (R531). -/
def execSensorValidAgain (i : Nat) (s : State) : Out := .next (mgmtTurn (sensorAgain i) s)

/-- The elements of the probe at sensor i have differed for 1 s (R532). -/
def execProbeDisagree (i : Nat) (s : State) : Out := .next (mgmtTurn (probeDisagree i) s)

/-- Faulted zone z has held 2 valid sensors for 5 s (R534, R535). -/
def execZoneRecovery (z : Nat) (s : State) : Out := .next (mgmtTurn (zoneRecover z) s)

/-- The dwell of threshold t has passed (R537, R538). -/
def execThresholdDwellExpiry (t : Nat) (s : State) : Out := .next (mgmtTurn (thrDwell t) s)

/-- The thermal demand update of 1 ms (R539). -/
def execThermalDemandUpdate (s : State) : Out := .next (mgmtTurn thermalDemand s)

/-- The coolant demand update of 20 ms (R540). -/
def execCoolantDemandUpdate (s : State) : Out := .next (mgmtTurn coolantDemand s)

/-- The dwell of DEW_MARGIN has passed (R543). -/
def execDewMarginDwell (s : State) : Out := .next (mgmtTurn dewDwell s)

/-- The manifest check of 10 ms (R552, R553). -/
def execBreachCheck (s : State) : Out := .next (mgmtTurn breachCheck s)

/-- The OFFER of beat group j has been held for THERMAL_TIMEOUT (R551). -/
def execThermalTimeout (j : Nat) (s : State) : Out := .next (mgmtTurn (thermalTimeout j) s)

/-- SET_ADMIT of policy class 2 (R554). -/
def execSetAdmit (s : State) : Out := .next (mgmtTurn polSetAdmit s)

/-- SET_BREACH of policy class 2 (R554). -/
def execSetBreach (s : State) : Out := .next (mgmtTurn polSetBreach s)

/-- HEAT_NOW of policy class 2 (R554, R556). -/
def execHeatNow (s : State) : Out := .next (mgmtTurn polHeatNow s)

/-- The 100 ms of HEAT_STATUS have passed (R556). -/
def execHeatStatusTimer (s : State) : Out := .next (mgmtTurn (heatStatus true) s)

end Sys2Proof.Machine
end

