-- ==== Sys2Proof/Machine/PumpCmds.lean ====
section
/-! DEFINITION. Meanings of commands: Module pump and coolant loop (R557 to R593, R795 to R797). -/

namespace Sys2Proof.Machine

/-- A change of WL_DETECT_N on a warden-capable module (R89); the report of it has no record in the spec. -/
def plugSeen (seated : Bool) (s : State) : State := if capable s then s.modSup fun u => { u with plugged := seated } else s

/-- The module cycle of 20 ms (R571, R572, R582, R586, R700, R729). -/
def execModuleCycle (s : State) : Out := .next (mgmtTurn moduleCycle s)

/-- A zero crossing comes `ns` after the one before, with the phase currents in mA (R557, R560, R566, R796). -/
def execBemfZeroCrossing (ns : Nat) (ma : List Nat) (s : State) : Out := .next (mgmtTurn (zeroCrossing ns ma) s)

/-- A kick has run for 400 ms (R560). -/
def execKickTimeout (s : State) : Out := .next (mgmtTurn kickTimeout s)

/-- The speed loop of 1 ms; `limited` says that the current limit acted in every period (R573, R575, R795). -/
def execSpeedLoop (limited : Bool) (s : State) : Out := .next (mgmtTurn (speedLoop limited) s)

/-- A stall check falls due (R561). -/
def execStallDetect (s : State) : Out := .next (mgmtTurn stallDetect s)

/-- A phase current exceeds 4.0 A (R557, R561). -/
def execPumpOvercurrent (s : State) : Out := .next (mgmtTurn pumpOvercurrent s)

/-- A retry of the kick falls due (R562). -/
def execStallRetry (s : State) : Out := .next (mgmtTurn stallRetry s)

/-- The diagnostic pulses of 100 ms, with the current of each phase in mA (R567). -/
def execDiagPulse (ma : List Nat) (s : State) : Out := .next (mgmtTurn (diagPulse ma) s)

/-- The 10 s of an ageing evaluation have passed (R579, R580). -/
def execAgeingEvaluation (s : State) : Out := .next (mgmtTurn ageingEval s)

/-- A baseline point has run for 15 s (R577). -/
def execBaselinePoint (s : State) : Out := .next (mgmtTurn baselinePoint s)

/-- Both flows have read reversed for 2 s (R588). -/
def execReverseFlowDetect (s : State) : Out := .next (mgmtTurn reverseDetect s)

/-- The flow has been low at the limit for 5 s (R589). -/
def execLowFlowDetect (s : State) : Out := .next (mgmtTurn lowFlowDetect s)

/-- The continuity loop of the leak tape is checked (R92, R585). -/
def execTapeLoopCheck (isOpen : Bool) (s : State) : Out := .next (mgmtTurn (tapeCheck isOpen) s)

/-- WL_DETECT_N is sampled (R89). -/
def execWlDetectSample (seated : Bool) (s : State) : Out := .next (mgmtTurn (plugSeen seated) s)

/-- SET_PUMP_MODE of policy class 3 (R574). -/
def execSetPumpMode (s : State) : Out := .next (mgmtTurn polPumpMode s)

/-- SET_SPEED of policy class 3 (R591). -/
def execSetSpeed (s : State) : Out := .next (mgmtTurn polSetSpeed s)

/-- SET_FLOW_LIMITS of policy class 3 (R591). -/
def execSetFlowLimits (s : State) : Out := .next (mgmtTurn polFlowLimits s)

/-- SET_RAMP of policy class 3 (R573, R591). -/
def execSetRamp (s : State) : Out := .next (mgmtTurn polSetRamp s)

/-- SET_FLUID of policy class 3 (R591). -/
def execSetFluid (s : State) : Out := .next (mgmtTurn polSetFluid s)

/-- BASELINE of policy class 3 (R577, R578). -/
def execBaseline (s : State) : Out := .next (mgmtTurn polBaseline s)

/-- CLEAR_LEAK of policy class 3 (R586). -/
def execClearLeak (s : State) : Out := .next (mgmtTurn clearLeak s)

/-- PUMP_NOW of policy class 3 (R591, R593). -/
def execPumpNow (s : State) : Out := .next (mgmtTurn polPumpNow s)

/-- The 100 ms of PUMP_STATUS have passed (R593). -/
def execPumpStatusTimer (s : State) : Out := .next (mgmtTurn (pumpStatus true) s)

end Sys2Proof.Machine
end

