-- ==== Sys2Proof/Machine/BusCmds.lean ====
section
/-! DEFINITION. Meanings of commands: Rack and row buses, row time and the mailbox (R594 to R633). -/

namespace Sys2Proof.Machine

/-- A message that only one bus carries takes effect there alone (Table BUS-6). -/
def onBusOnly (only b : Nat) (act : Frame → State → State) (fr : Frame) (s : State) : State := if b = only then act fr s else s

/-- A class 7 frame: taken in MAKER, where the spec gives it no effect beyond the FIFO; dropped elsewhere (R621). -/
def makerFrame (b : Nat) (fr : Frame) (s : State) : State := if fr.msg / 16 = 7 then busIn b fr.msg fr (fun _ s => s) s else s

/-- A MIRROR segment on the bus (R651). -/
def mirrorSegment (fr : Frame) (s : State) : State := takeMirror (fr.body.take fr.len) s

/-- The 200 ms listen of bus b ends (R605, R606). -/
def execJoinListenEnd (b : Nat) (s : State) : Out := .next (mgmtTurn (joinListenEnd b) s)

/-- The steward drains the receive FIFO of bus b (R601). -/
def execRxFifoDrain (b : Nat) (s : State) : Out := .next (mgmtTurn (rxDrain b) s)

/-- A frame arrives while the receive FIFO of bus b is full (R600). -/
def execRxOverflow (b : Nat) (s : State) : Out := .next (mgmtTurn (rxOverflow b) s)

/-- The phase of a periodic message has come (R623). -/
def execBusMessagePhase (b msg : Nat) (s : State) : Out := .next (mgmtTurn (messagePhase b msg) s)

/-- A frame has been sent on bus b (R613, R614). -/
def execFrameSent (b : Nat) (s : State) : Out := .next (mgmtTurn (frameSent b) s)

/-- The frame in transmit buffer i of bus b has waited too long (R603). -/
def execTxExpiry (b i : Nat) (s : State) : Out := .next (mgmtTurn (txExpire b i) s)

/-- A bus error has moved the error counters of bus b to these values (R604). -/
def execCanError (b txErr rxErr : Nat) (s : State) : Out := .next (mgmtTurn (canError b txErr rxErr) s)

/-- The wait after bus-off ends (R604). -/
def execBusOffWaitExpiry (b : Nat) (s : State) : Out := .next (mgmtTurn (busOffWait b) s)

/-- The bus-off recovery of bus b completes (R604). -/
def execBusOffRecovered (b : Nat) (s : State) : Out := .next (mgmtTurn (busRecovered b) s)

/-- LEAK_ALERT is received (R668, R676). -/
def execLeakAlert (b : Nat) (fr : Frame) (s : State) : Out := .next (mgmtTurn (busIn b 0x01 fr (onBusOnly 0 b takeLeakAlert)) s)

/-- TRIP_NOTICE is received (R676). -/
def execTripNotice (b : Nat) (fr : Frame) (s : State) : Out := .next (mgmtTurn (busIn b 0x02 fr (onBusOnly 0 b takeTrip)) s)

/-- STAGE_ALARM is received (R676). -/
def execStageAlarm (b : Nat) (fr : Frame) (s : State) : Out := .next (mgmtTurn (busIn b 0x03 fr (takeStageAlarm b)) s)

/-- RACK_ALERT is received (R676). -/
def execRackAlert (b : Nat) (fr : Frame) (s : State) : Out := .next (mgmtTurn (busIn b 0x04 fr (onBusOnly 1 b takeRackAlert)) s)

/-- CLAIM_CMD is received: a module takes no action on it (R623). -/
def execClaimCmd (b : Nat) (fr : Frame) (s : State) : Out := .next (mgmtTurn (busIn b 0x10 fr (fun _ s => s)) s)

/-- WARDEN_HB is received (R626, R652 to R654). -/
def execWardenHb (b : Nat) (fr : Frame) (s : State) : Out := .next (mgmtTurn (busIn b 0x20 fr (takeHb b)) s)

/-- STAGE_STATUS is received (R656, R660). -/
def execStageStatus (b : Nat) (fr : Frame) (s : State) : Out := .next (mgmtTurn (busIn b 0x21 fr (takeStatus b)) s)

/-- SYNC is received (R615 to R618). -/
def execSync (b : Nat) (fr : Frame) (s : State) : Out := .next (mgmtTurn (busIn b 0x22 fr (syncIn b)) s)

/-- No SYNC from the source for 3 s (R615). -/
def execSyncHoldover (s : State) : Out := .next (mgmtTurn syncHoldover s)

/-- MODULE_BUDGET is received (R664). -/
def execModuleBudget (b : Nat) (fr : Frame) (s : State) : Out := .next (mgmtTurn (busIn b 0x30 fr (onBusOnly 0 b takeModuleBudget)) s)

/-- ALLOC is received (R590, R627, R663). -/
def execAlloc (b : Nat) (fr : Frame) (s : State) : Out := .next (mgmtTurn (busIn b 0x31 fr (takeAlloc b)) s)

/-- RACK_BUDGET is received (R670, R671). -/
def execRackBudget (b : Nat) (fr : Frame) (s : State) : Out := .next (mgmtTurn (busIn b 0x32 fr (onBusOnly 1 b takeRackBudgetMsg)) s)

/-- MODULE_TELEM is received (R623). -/
def execModuleTelem (b : Nat) (fr : Frame) (s : State) : Out := .next (mgmtTurn (busIn b 0x40 fr (onBusOnly 0 b takeModuleTelem)) s)

/-- RACK_TELEM is received (R670). -/
def execRackTelem (b : Nat) (fr : Frame) (s : State) : Out := .next (mgmtTurn (busIn b 0x41 fr (onBusOnly 1 b takeRackTelem)) s)

/-- MIRROR is received (R651). -/
def execMirror (b : Nat) (fr : Frame) (s : State) : Out := .next (mgmtTurn (busIn b 0x50 fr (mirrorSegment)) s)

/-- NODE_ANNOUNCE is received: the module takes no action on it (R623). -/
def execNodeAnnounce (b : Nat) (fr : Frame) (s : State) : Out := .next (mgmtTurn (busIn b 0x60 fr (fun _ s => s)) s)

/-- ANNOUNCE_REQ is received (R623). -/
def execAnnounceReq (b : Nat) (fr : Frame) (s : State) : Out := .next (mgmtTurn (busIn b 0x61 fr (takeAnnounceReq b)) s)

/-- BUS_SLEEP is received (R609, R610). -/
def execBusSleep (b : Nat) (fr : Frame) (s : State) : Out := .next (mgmtTurn (busIn b 0x62 fr (sleepIn b)) s)

/-- BUS_WAKE is received; on a sleeping rack bus it is a wake-up frame (R611, R612). -/
def execBusWake (b : Nat) (fr : Frame) (s : State) : Out := .next (mgmtTurn (busWake b fr) s)

/-- A frame wakes the row transceiver (R611). -/
def execRowBusDominantWake (s : State) : Out := .next (mgmtTurn rowWake s)

/-- A class 7 frame is received (R621). -/
def execMakerFrame (b : Nat) (fr : Frame) (s : State) : Out := .next (mgmtTurn (makerFrame b fr) s)

/-- The second of BUS_COUNTS of bus b has passed (R633). -/
def execBusCountsTimer (b : Nat) (s : State) : Out := .next (mgmtTurn (busCounts b) s)

/-- The mailbox selector is written (R628). -/
def execMbxSelect (v : Nat) (s : State) : Out := .next (mgmtTurn (mbxSelect v) s)

/-- Word 0 of the mailbox is read (R630). -/
def execMbxWord0Read (s : State) : Out := .next (mgmtTurn mbxWord0 s)

/-- Word 17 of the mailbox is read (R630). -/
def execMbxWord17Read (s : State) : Out := .next (mgmtTurn mbxWord17 s)

/-- The mailbox has been locked for 50 ms (R630). -/
def execMbxLockTimeout (s : State) : Out := .next (mgmtTurn mbxTimeout s)

/-- A frame fails the receive checks; `fd` says that it is an FD frame in extended format (R621). -/
def execMalformedFrame (b : Nat) (fd : Bool) (fr : Frame) (s : State) : Out := .next (mgmtTurn (malformedFrame b fd fr) s)

end Sys2Proof.Machine
end

