-- ==== Sys2Proof/Machine/WardCmds.lean ====
section
/-! DEFINITION. Meanings of commands: Wardens (R634 to R681). -/

namespace Sys2Proof.Machine

/-- A warden that has joined has heard no active warden (R640, R652). -/
def execWardenStartActive (s : State) : Out := .next (mgmtTurn startActive s)

/-- The standby evaluates its peer (R653). -/
def execStandbyEvaluation (s : State) : Out := .next (mgmtTurn standbyEval s)

/-- The rack cycle of 20 ms (R660, R664 to R668). -/
def execRackCycle (s : State) : Out := .next (mgmtTurn rackCycle s)

/-- The row cycle of 100 ms (R669 to R674). -/
def execRowCycle (s : State) : Out := .next (mgmtTurn rowCycle s)

/-- No row ALLOC for 300 ms (R675). -/
def execRowAllocSilence (s : State) : Out := .next (mgmtTurn rowAllocSilence s)

/-- RACK_DELAY (0) or ROW_DELAY (1) has passed (R676). -/
def execLeakResponseDelay (b : Nat) (s : State) : Out := .next (mgmtTurn (leakDelay b) s)

/-- A STATE frame of the warden link (R650). -/
def execWlState (lane seq : Nat) (good : Bool) (payload : Bytes) (s : State) : Out := .next (mgmtTurn (wlIn lane seq 512 good payload (takeState)) s)

/-- A MIRROR frame of the warden link (R651). -/
def execWlMirror (lane seq : Nat) (good : Bool) (payload : Bytes) (s : State) : Out := .next (mgmtTurn (wlIn lane seq 1024 good payload (takeMirror)) s)

/-- HANDOVER is received (R659). -/
def execHandover (lane seq : Nat) (good : Bool) (payload : Bytes) (s : State) : Out := .next (mgmtTurn (wlIn lane seq 4 good payload (fun _ s => takeHandover s)) s)

/-- HANDOVER_ACK is received (R659). -/
def execHandoverAck (lane seq : Nat) (good : Bool) (payload : Bytes) (s : State) : Out := .next (mgmtTurn (wlIn lane seq 4 good payload (fun _ s => takeHandoverAck s)) s)

/-- HANDOVER has had no answer for 10 ms (R659). -/
def execHandoverTimeout (s : State) : Out := .next (mgmtTurn handoverTimeout s)

/-- A KEEPALIVE frame (R648). -/
def execKeepalive (lane seq : Nat) (good : Bool) (payload : Bytes) (s : State) : Out := .next (mgmtTurn (wlIn lane seq 0 good payload (fun _ s => s)) s)

/-- A lane has brought no good frame for 10 ms (R648). -/
def execWlLaneDown (lane : Nat) (s : State) : Out := .next (mgmtTurn (laneDown lane) s)

/-- The blocks fall due to be mirrored (R651). -/
def execMirrorTimer (s : State) : Out := .next (mgmtTurn mirrorTimer s)

/-- The second of the canary test has passed (R662). -/
def execCanaryTestExpiry (s : State) : Out := .next (mgmtTurn canaryExpiry s)

/-- A FABRIC_ALERT is taken from A5 (R678). -/
def execFabricAlert (s : State) : Out := .next (mgmtTurn (withA5 0x50 takeFabric) s)

/-- COMMISSION of policy class 4 (R638, R679, R750). -/
def execCommission (s : State) : Out := .next (mgmtTurn polCommission s)

/-- DECOMMISSION of policy class 4 (R679). -/
def execDecommission (s : State) : Out := .next (mgmtTurn polDecommission s)

/-- SET_STAGE_MAP of policy class 4 (R645, R679). -/
def execSetStageMap (s : State) : Out := .next (mgmtTurn polStageMap s)

/-- SET_BUDGET of policy class 4 (R669, R679). -/
def execSetBudget (s : State) : Out := .next (mgmtTurn polSetBudget s)

/-- SET_EXCHANGE of policy class 4 (R673, R679). -/
def execSetExchange (s : State) : Out := .next (mgmtTurn polExchange s)

/-- SET_SLEW of policy class 4 (R657, R679). -/
def execSetSlew (s : State) : Out := .next (mgmtTurn polSlew s)

/-- SET_LEAK of policy class 4 (R676, R679). -/
def execSetLeak (s : State) : Out := .next (mgmtTurn polLeak s)

/-- SLOT_VALVE of policy class 4 (R668, R679). -/
def execSlotValve (s : State) : Out := .next (mgmtTurn polSlotValve s)

/-- SLOT_RELEASE of policy class 4 (R665, R679). -/
def execSlotRelease (s : State) : Out := .next (mgmtTurn polSlotRelease s)

/-- CANARY_SWAP of policy class 4 (R662, R679). -/
def execCanarySwap (s : State) : Out := .next (mgmtTurn polCanary s)

/-- LEAK_RESET of policy class 4 (R677, R679). -/
def execLeakReset (s : State) : Out := .next (mgmtTurn polLeakReset s)

/-- WARD_NOW of policy class 4 (R679, R681). -/
def execWardNow (s : State) : Out := .next (mgmtTurn polWardNow s)

/-- The second of WARD_STATUS has passed (R681). -/
def execWardStatusTimer (s : State) : Out := .next (mgmtTurn (wardStatus true) s)

end Sys2Proof.Machine
end

