-- ==== Sys2Proof/Machine/MgmtCmds.lean ====
section
/-! DEFINITION. Meanings of commands: Management, store and life cycle (R682 to R725). -/

namespace Sys2Proof.Machine

/-- An MCTP packet over SMBus (R688, R689). -/
def execMctpSmbusPacket (packet : Bytes) (s : State) : Out := .next (edgeTurn (smbusPacket packet) s)

/-- Set Endpoint ID is answered (R686). -/
def execSetEndpointId (s : State) : Out := .next (mgmtTurn setEid s)

/-- Get Endpoint ID is answered (R687). -/
def execGetEndpointId (s : State) : Out := .next (mgmtTurn getEid s)

/-- Get Endpoint UUID is answered (R687). -/
def execGetEndpointUuid (s : State) : Out := .next (mgmtTurn getUuid s)

/-- Get MCTP Version Support is answered (R687). -/
def execGetMctpVersionSupport (s : State) : Out := .next (mgmtTurn getVersions s)

/-- Get Message Type Support is answered (R687). -/
def execGetMessageTypeSupport (s : State) : Out := .next (mgmtTurn getTypes s)

/-- Any other MCTP control command is answered (R687). -/
def execUnsupportedMctpControl (s : State) : Out := .next (mgmtTurn ctlUnsupported s)

/-- GetTID is answered (R690). -/
def execGetTid (s : State) : Out := .next (mgmtTurn getTid s)

/-- SetTID is answered (R690). -/
def execSetTid (s : State) : Out := .next (mgmtTurn setTid s)

/-- GetPLDMVersion is answered (R690). -/
def execGetPldmVersion (s : State) : Out := .next (mgmtTurn getPldmVersion s)

/-- GetPLDMTypes is answered (R690). -/
def execGetPldmTypes (s : State) : Out := .next (mgmtTurn getPldmTypes s)

/-- GetPLDMCommands is answered (R690). -/
def execGetPldmCommands (s : State) : Out := .next (mgmtTurn getPldmCommands s)

/-- SetEventReceiver is answered (R698). -/
def execSetEventReceiver (s : State) : Out := .next (mgmtTurn setReceiver s)

/-- GetPDRRepositoryInfo is answered (R691). -/
def execGetPdrRepositoryInfo (s : State) : Out := .next (mgmtTurn getPdrInfo s)

/-- GetPDR is answered (R691). -/
def execGetPdr (s : State) : Out := .next (mgmtTurn getPdr s)

/-- GetSensorReading is answered (R692, R693). -/
def execGetSensorReading (s : State) : Out := .next (mgmtTurn getSensor s)

/-- GetStateSensorReadings is answered (R694). -/
def execGetStateSensorReadings (s : State) : Out := .next (mgmtTurn getStateSensor s)

/-- SetNumericEffecterValue is answered (R695). -/
def execSetNumericEffecterValue (s : State) : Out := .next (mgmtTurn setNumeric s)

/-- GetNumericEffecterValue is answered (R696). -/
def execGetNumericEffecterValue (s : State) : Out := .next (mgmtTurn getNumeric s)

/-- SetStateEffecterStates is answered (R695 to R697, R704). -/
def execSetStateEffecterStates (s : State) : Out := .next (mgmtTurn setState s)

/-- GetStateEffecterStates is answered (R696). -/
def execGetStateEffecterStates (s : State) : Out := .next (mgmtTurn getState s)

/-- Any other PLDM command or type is answered (R690). -/
def execUnsupportedPldm (s : State) : Out := .next (mgmtTurn pldmUnsupported s)

/-- A queued event is sent (R698). -/
def execPldmEventSend (s : State) : Out := .next (mgmtTurn eventSend s)

/-- The receiver answers an event (R698). -/
def execPldmEventResponse (s : State) : Out := .next (mgmtTurn eventResponse s)

/-- An event has had no response for 250 ms (R698). -/
def execPldmEventRetry (s : State) : Out := .next (mgmtTurn eventRetry s)

/-- The Alert Response Address is answered (R699). -/
def execSmbusAlertResponse (s : State) : Out := .next (mgmtTurn alertResponse s)

/-- FW_WRITE (R683). -/
def execFwWrite (s : State) : Out := .next (mgmtTurn fwWrite s)

/-- FW_VERIFY (R682, R683). -/
def execFwVerify (s : State) : Out := .next (mgmtTurn fwVerify s)

/-- FW_ACTIVATE (R683, R684). -/
def execFwActivate (s : State) : Out := .next (mgmtTurn fwActivate s)

/-- GET_NONCE (R717). -/
def execGetNonce (s : State) : Out := .next (mgmtTurn getNonce s)

/-- A nonce has stood for 60 s (R717). -/
def execNonceExpiry (s : State) : Out := .next (mgmtTurn nonceExpiry s)

/-- OWNER_ENROL (R715). -/
def execOwnerEnrol (s : State) : Out := .next (mgmtTurn ownerEnrol s)

/-- RETURN_REQUEST (R716, R719, R720). -/
def execReturnRequest (s : State) : Out := .next (mgmtTurn returnRequest s)

/-- RETIRE_REQUEST (R713, R716). -/
def execRetireRequest (s : State) : Out := .next (mgmtTurn retireRequest s)

/-- DEBUG_UNLOCK (R716, R721). -/
def execDebugUnlock (s : State) : Out := .next (mgmtTurn debugUnlock s)

/-- MAKER_TRANSITION (R713, R716). -/
def execMakerTransition (s : State) : Out := .next (mgmtTurn makerTransition s)

/-- SET_HOST_SILENT of policy class 5 (R702). -/
def execSetHostSilent (s : State) : Out := .next (mgmtTurn polHostSilent s)

/-- STORE_HOLD of policy class 5 (R710). -/
def execStoreHold (s : State) : Out := .next (mgmtTurn polStoreHold s)

/-- BUS_ORDER of policy class 5 (R609, R704). -/
def execBusOrder (s : State) : Out := .next (mgmtTurn polBusOrder s)

/-- MGMT_NOW of policy class 5 (R703, R725). -/
def execMgmtNow (s : State) : Out := .next (mgmtTurn polMgmtNow s)

/-- The host has shown no activity for the period (R702). -/
def execHostSilenceTimeout (s : State) : Out := .next (mgmtTurn hostTimeout s)

/-- A queued record store starts (R708 to R710). -/
def execStoreStart (s : State) : Out := .next (mgmtTurn storeStart s)

/-- The read-back of a store has passed or failed (R709). -/
def execStoreComplete (ok : Bool) (s : State) : Out := .next (mgmtTurn (storeDone ok) s)

/-- The 10 s of MGMT_STATUS have passed (R725). -/
def execMgmtStatusTimer (s : State) : Out := .next (mgmtTurn mgmtTimer s)

end Sys2Proof.Machine
end

