-- ==== Sys2Proof/Machine/RegCmds.lean ====
section
/-! DEFINITION. Meanings of commands: Set-up register writes (R130, R772 to R787). -/

namespace Sys2Proof.Machine

/-- An access of a wrong size or alignment to the set-up window (R130). -/
def wrongSize (f off size : Nat) (s : State) : State := if inSetup f off && !sizeOk off size then badSize f s else s

/-- MGMT.TRACE_CTL is written (R723, R724). -/
def execTraceCtlEnWrite (v : W32) (s : State) : Out := .next (writeRow 0 0x1A04 v.toNat s)

/-- HOST.SETUP_ERR or RING.SETUP_ERR is written (R16, R782). -/
def execW1cWrite (f off : Nat) (v : W32) (s : State) : Out := .next (windowAccess f (writeW1c f off v.toNat) s)

/-- A LOCKED register of the PF window is written (R16, R783). -/
def execLockedWrite (off : Nat) (v : W32) (s : State) : Out := .next (windowAccess 0 (writeLocked off v.toNat) s)

/-- A set-up window is accessed with a wrong size or alignment (R130). -/
def execBadSizeWindowAccess (f off size : Nat) (s : State) : Out := .next (windowAccess f (wrongSize f off size) s)

/-- A register of BAR0 is written (R130 to R132, R779 to R785). -/
def execRegisterWrite (f off size : Nat) (v : W64) (s : State) : Out := .next (writeReg f off size v s)

end Sys2Proof.Machine
end

