-- ==== Sys2Proof/Machine/Dispatch.lean ====
section
/-! DEFINITION. Which meaning each command has. -/

namespace Sys2Proof.Machine

/-- The effect of a command on everything but the queue. -/
def exec (i : Instr) (s : State) : Host.Outcome State Fault Refusal :=
  match i with
  | .auxApplied a1 a2 a3 a4 => Sys2Proof.Machine.execAuxApplied a1 a2 a3 a4 s
  | .auxBrownOut => Sys2Proof.Machine.execAuxBrownOut s
  | .stewardWatchdogExpiry => Sys2Proof.Machine.execStewardWatchdogExpiry s
  | .moduleReset a1 a2 a3 => Sys2Proof.Machine.execModuleReset a1 a2 a3 s
  | .stewardBootComplete => Sys2Proof.Machine.execStewardBootComplete s
  | .returnEraseComplete => Sys2Proof.Machine.execReturnEraseComplete s
  | .pciePerstAssert => Sys2Proof.Machine.execPciePerstAssert s
  | .pciePerstDeassert => Sys2Proof.Machine.execPciePerstDeassert s
  | .hotReset => Sys2Proof.Machine.execHotReset s
  | .dlDown => Sys2Proof.Machine.execDlDown s
  | .tapInstruction a1 => Sys2Proof.Machine.execTapInstruction a1 s
  | .dieTrip => Sys2Proof.Machine.execDieTrip s
  | .leakTapeWet => Sys2Proof.Machine.execLeakTapeWet s
  | .externalTrip a1 => Sys2Proof.Machine.execExternalTrip a1 s
  | .dieComparatorDeassert => Sys2Proof.Machine.execDieComparatorDeassert s
  | .tripReleaseWindow a1 => Sys2Proof.Machine.execTripReleaseWindow a1 s
  | .releasedModeClear => Sys2Proof.Machine.execReleasedModeClear s
  | .unsolicitedMain => Sys2Proof.Machine.execUnsolicitedMain s
  | .mainSupplyInRating => Sys2Proof.Machine.execMainSupplyInRating s
  | .mainSupplyTimeout => Sys2Proof.Machine.execMainSupplyTimeout s
  | .regulatorsInRegulation => Sys2Proof.Machine.execRegulatorsInRegulation s
  | .mainPlanesReady => Sys2Proof.Machine.execMainPlanesReady s
  | .mainRetryTimer => Sys2Proof.Machine.execMainRetryTimer s
  | .mainLost => Sys2Proof.Machine.execMainLost s
  | .mainOff => Sys2Proof.Machine.execMainOff s
  | .mainOffRelease => Sys2Proof.Machine.execMainOffRelease s
  | .heatDumpEnd => Sys2Proof.Machine.execHeatDumpEnd s
  | .a1Word a1 => Sys2Proof.Machine.execA1Word a1 s
  | .a1StaleTimeout => Sys2Proof.Machine.execA1StaleTimeout s
  | .a2WindowClose => Sys2Proof.Machine.execA2WindowClose s
  | .innerStep => Sys2Proof.Machine.execInnerStep s
  | .a6RecordDelivered => Sys2Proof.Machine.execA6RecordDelivered s
  | .mirrorRegisterRefresh => Sys2Proof.Machine.execMirrorRegisterRefresh s
  | .offer => Sys2Proof.Machine.execOffer s
  | .hold => Sys2Proof.Machine.execHold s
  | .release => Sys2Proof.Machine.execRelease s
  | .refuse => Sys2Proof.Machine.execRefuse s
  | .withdraw => Sys2Proof.Machine.execWithdraw s
  | .startMessage => Sys2Proof.Machine.execStartMessage s
  | .endMessage => Sys2Proof.Machine.execEndMessage s
  | .policyMessage => Sys2Proof.Machine.execPolicyMessage s
  | .policyAck => Sys2Proof.Machine.execPolicyAck s
  | .policyTimeout a1 => Sys2Proof.Machine.execPolicyTimeout a1 s
  | .configRequest a1 a2 => Sys2Proof.Machine.execConfigRequest a1 a2 s
  | .controlPlaneReady => Sys2Proof.Machine.execControlPlaneReady s
  | .vfEnableSet => Sys2Proof.Machine.execVfEnableSet s
  | .vfEnableClear => Sys2Proof.Machine.execVfEnableClear s
  | .vfRrsEnd => Sys2Proof.Machine.execVfRrsEnd s
  | .flr a1 => Sys2Proof.Machine.execFlr a1 s
  | .flrComplete a1 => Sys2Proof.Machine.execFlrComplete a1 s
  | .d3hotEntry a1 => Sys2Proof.Machine.execD3hotEntry a1 s
  | .busMasterEnableClear a1 => Sys2Proof.Machine.execBusMasterEnableClear a1 s
  | .busMasterEnableSet a1 => Sys2Proof.Machine.execBusMasterEnableSet a1 s
  | .atsEnableChange a1 a2 => Sys2Proof.Machine.execAtsEnableChange a1 a2 s
  | .translationCompletion a1 a2 => Sys2Proof.Machine.execTranslationCompletion a1 a2 s
  | .invalidateRequest a1 a2 a3 => Sys2Proof.Machine.execInvalidateRequest a1 a2 a3 s
  | .invalidateComplete a1 a2 a3 => Sys2Proof.Machine.execInvalidateComplete a1 a2 a3 s
  | .hostReadCompletion a1 a2 => Sys2Proof.Machine.execHostReadCompletion a1 a2 s
  | .completionTimeout a1 => Sys2Proof.Machine.execCompletionTimeout a1 s
  | .ackDllp a1 => Sys2Proof.Machine.execAckDllp a1 s
  | .unsupportedRequest a1 => Sys2Proof.Machine.execUnsupportedRequest a1 s
  | .poisonedWindowWrite a1 => Sys2Proof.Machine.execPoisonedWindowWrite a1 s
  | .uncorrectableInternalError => Sys2Proof.Machine.execUncorrectableInternalError s
  | .msixUnmask a1 a2 => Sys2Proof.Machine.execMsixUnmask a1 a2 s
  | .coalTimeExpiry a1 a2 => Sys2Proof.Machine.execCoalTimeExpiry a1 a2 s
  | .aspmL1Entry => Sys2Proof.Machine.execAspmL1Entry s
  | .mctpVdm a1 a2 => Sys2Proof.Machine.execMctpVdm a1 a2 s
  | .dblCtlEnSet a1 a2 => Sys2Proof.Machine.execDblCtlEnSet a1 a2 s
  | .dblCtlEnClear a1 a2 => Sys2Proof.Machine.execDblCtlEnClear a1 a2 s
  | .doorbellPoll a1 => Sys2Proof.Machine.execDoorbellPoll a1 s
  | .doorbellTagFree a1 => Sys2Proof.Machine.execDoorbellTagFree a1 s
  | .doorbellReadComplete a1 a2 => Sys2Proof.Machine.execDoorbellReadComplete a1 a2 s
  | .swapOutComplete a1 => Sys2Proof.Machine.execSwapOutComplete a1 s
  | .slotStateLoaded a1 => Sys2Proof.Machine.execSlotStateLoaded a1 s
  | .ringIdleTimeout a1 => Sys2Proof.Machine.execRingIdleTimeout a1 s
  | .ringBound50us a1 => Sys2Proof.Machine.execRingBound50us a1 s
  | .lnMessage a1 => Sys2Proof.Machine.execLnMessage a1 s
  | .lnBackstop a1 => Sys2Proof.Machine.execLnBackstop a1 s
  | .ringEnSet a1 a2 a3 => Sys2Proof.Machine.execRingEnSet a1 a2 a3 s
  | .ringEnClear a1 a2 a3 => Sys2Proof.Machine.execRingEnClear a1 a2 a3 s
  | .rptCfgEnSet a1 a2 => Sys2Proof.Machine.execRptCfgEnSet a1 a2 s
  | .rptCfgEnClear a1 a2 => Sys2Proof.Machine.execRptCfgEnClear a1 a2 s
  | .descriptorFetch a1 => Sys2Proof.Machine.execDescriptorFetch a1 s
  | .descriptorReadComplete a1 a2 a3 => Sys2Proof.Machine.execDescriptorReadComplete a1 a2 a3 s
  | .undefinedOpcode a1 a2 => Sys2Proof.Machine.execUndefinedOpcode a1 a2 s
  | .nop a1 a2 => Sys2Proof.Machine.execNop a1 a2 s
  | .copyH2d a1 a2 => Sys2Proof.Machine.execCopyH2d a1 a2 s
  | .copyD2h a1 a2 => Sys2Proof.Machine.execCopyD2h a1 a2 s
  | .copyD2d a1 a2 => Sys2Proof.Machine.execCopyD2d a1 a2 s
  | .fill a1 a2 => Sys2Proof.Machine.execFill a1 a2 s
  | .eventSignal a1 a2 => Sys2Proof.Machine.execEventSignal a1 a2 s
  | .eventWait a1 a2 => Sys2Proof.Machine.execEventWait a1 a2 s
  | .eventWaitMet a1 => Sys2Proof.Machine.execEventWaitMet a1 s
  | .eventWaitTimeout a1 => Sys2Proof.Machine.execEventWaitTimeout a1 s
  | .hostWrite a1 a2 => Sys2Proof.Machine.execHostWrite a1 a2 s
  | .schedSet a1 a2 => Sys2Proof.Machine.execSchedSet a1 a2 s
  | .policy a1 a2 => Sys2Proof.Machine.execPolicy a1 a2 s
  | .pinnedWriteResume a1 => Sys2Proof.Machine.execPinnedWriteResume a1 s
  | .commandComplete a1 => Sys2Proof.Machine.execCommandComplete a1 s
  | .admitCmd a1 a2 => Sys2Proof.Machine.execAdmitCmd a1 a2 s
  | .admitQueueServed => Sys2Proof.Machine.execAdmitQueueServed s
  | .admitWaitExpiry a1 => Sys2Proof.Machine.execAdmitWaitExpiry a1 s
  | .admitResidencyComplete a1 => Sys2Proof.Machine.execAdmitResidencyComplete a1 s
  | .programLoadComplete a1 => Sys2Proof.Machine.execProgramLoadComplete a1 s
  | .offerBackstop a1 => Sys2Proof.Machine.execOfferBackstop a1 s
  | .programAbort a1 a2 => Sys2Proof.Machine.execProgramAbort a1 a2 s
  | .abortDrainComplete a1 => Sys2Proof.Machine.execAbortDrainComplete a1 s
  | .clusterScrubComplete a1 => Sys2Proof.Machine.execClusterScrubComplete a1 s
  | .pageMap a1 a2 => Sys2Proof.Machine.execPageMap a1 a2 s
  | .pageUnmap a1 a2 => Sys2Proof.Machine.execPageUnmap a1 a2 s
  | .pageUnmapComplete a1 => Sys2Proof.Machine.execPageUnmapComplete a1 s
  | .poolSet a1 a2 => Sys2Proof.Machine.execPoolSet a1 a2 s
  | .cageCreate a1 a2 => Sys2Proof.Machine.execCageCreate a1 a2 s
  | .cageDestroy a1 a2 => Sys2Proof.Machine.execCageDestroy a1 a2 s
  | .cageDestroyComplete a1 => Sys2Proof.Machine.execCageDestroyComplete a1 s
  | .cageQuota a1 a2 => Sys2Proof.Machine.execCageQuota a1 a2 s
  | .frameScrubbed a1 => Sys2Proof.Machine.execFrameScrubbed a1 s
  | .demandZeroComplete a1 a2 => Sys2Proof.Machine.execDemandZeroComplete a1 a2 s
  | .evictionComplete a1 a2 => Sys2Proof.Machine.execEvictionComplete a1 a2 s
  | .restoreComplete a1 a2 => Sys2Proof.Machine.execRestoreComplete a1 a2 s
  | .pageBookTimer => Sys2Proof.Machine.execPageBookTimer s
  | .beatSlot a1 => Sys2Proof.Machine.execBeatSlot a1 s
  | .streamPieceLanded a1 a2 => Sys2Proof.Machine.execStreamPieceLanded a1 a2 s
  | .programEnd a1 => Sys2Proof.Machine.execProgramEnd a1 s
  | .gateLimitExpiry a1 => Sys2Proof.Machine.execGateLimitExpiry a1 s
  | .droopCrossing a1 => Sys2Proof.Machine.execDroopCrossing a1 s
  | .shadowAccessFail a1 => Sys2Proof.Machine.execShadowAccessFail a1 s
  | .stackLineAccess a1 a2 a3 => Sys2Proof.Machine.execStackLineAccess a1 a2 a3 s
  | .stackReadout a1 a2 => Sys2Proof.Machine.execStackReadout a1 a2 s
  | .patrolScrubRead a1 a2 => Sys2Proof.Machine.execPatrolScrubRead a1 a2 s
  | .stackCeRateTimer a1 => Sys2Proof.Machine.execStackCeRateTimer a1 s
  | .scrubCtlLock a1 => Sys2Proof.Machine.execScrubCtlLock a1 s
  | .stackTrainingEnd a1 => Sys2Proof.Machine.execStackTrainingEnd a1 s
  | .linkEnSet a1 a2 => Sys2Proof.Machine.execLinkEnSet a1 a2 s
  | .linkEnClear a1 a2 => Sys2Proof.Machine.execLinkEnClear a1 a2 s
  | .laneStartupComplete a1 a2 => Sys2Proof.Machine.execLaneStartupComplete a1 a2 s
  | .hello a1 a2 => Sys2Proof.Machine.execHello a1 a2 s
  | .linkTrainingTimeout a1 => Sys2Proof.Machine.execLinkTrainingTimeout a1 s
  | .linkRetryTimer a1 => Sys2Proof.Machine.execLinkRetryTimer a1 s
  | .codewordPairUncorrectable a1 => Sys2Proof.Machine.execCodewordPairUncorrectable a1 s
  | .dataFlitReceived a1 a2 => Sys2Proof.Machine.execDataFlitReceived a1 a2 s
  | .lctlReceived a1 a2 => Sys2Proof.Machine.execLctlReceived a1 a2 s
  | .replayTimeout a1 => Sys2Proof.Machine.execReplayTimeout a1 s
  | .nakHoldoffExpiry a1 => Sys2Proof.Machine.execNakHoldoffExpiry a1 s
  | .flitSlotTransmit a1 => Sys2Proof.Machine.execFlitSlotTransmit a1 s
  | .auditSend a1 => Sys2Proof.Machine.execAuditSend a1 s
  | .laneLockLost a1 => Sys2Proof.Machine.execLaneLockLost a1 s
  | .fastRetrainComplete a1 => Sys2Proof.Machine.execFastRetrainComplete a1 s
  | .fastRetrainTimeout a1 => Sys2Proof.Machine.execFastRetrainTimeout a1 s
  | .peerSilentTimeout a1 => Sys2Proof.Machine.execPeerSilentTimeout a1 s
  | .mwrite a1 => Sys2Proof.Machine.execMwrite a1 s
  | .mwriteLinesAcked a1 => Sys2Proof.Machine.execMwriteLinesAcked a1 s
  | .mread a1 => Sys2Proof.Machine.execMread a1 s
  | .mreadDataReady a1 => Sys2Proof.Machine.execMreadDataReady a1 s
  | .mdata a1 => Sys2Proof.Machine.execMdata a1 s
  | .mack a1 => Sys2Proof.Machine.execMack a1 s
  | .vcMemTimeout a1 a2 => Sys2Proof.Machine.execVcMemTimeout a1 a2 s
  | .linkErrRateTimer a1 a2 => Sys2Proof.Machine.execLinkErrRateTimer a1 a2 s
  | .collGroupCreate a1 a2 => Sys2Proof.Machine.execCollGroupCreate a1 a2 s
  | .collGroupDestroy a1 a2 => Sys2Proof.Machine.execCollGroupDestroy a1 a2 s
  | .collBufRegister a1 a2 => Sys2Proof.Machine.execCollBufRegister a1 a2 s
  | .reduceScatter a1 a2 => Sys2Proof.Machine.execReduceScatter a1 a2 s
  | .allGather a1 a2 => Sys2Proof.Machine.execAllGather a1 a2 s
  | .groupHello a1 => Sys2Proof.Machine.execGroupHello a1 s
  | .groupHelloResend a1 => Sys2Proof.Machine.execGroupHelloResend a1 s
  | .groupAck a1 => Sys2Proof.Machine.execGroupAck a1 s
  | .keyOffer a1 => Sys2Proof.Machine.execKeyOffer a1 s
  | .groupBye a1 => Sys2Proof.Machine.execGroupBye a1 s
  | .collWaitExpiry a1 a2 a3 => Sys2Proof.Machine.execCollWaitExpiry a1 a2 a3 s
  | .collOpStart a1 => Sys2Proof.Machine.execCollOpStart a1 s
  | .bindStartWaitEnd a1 => Sys2Proof.Machine.execBindStartWaitEnd a1 s
  | .bindSourceGateMet a1 => Sys2Proof.Machine.execBindSourceGateMet a1 s
  | .opReady a1 => Sys2Proof.Machine.execOpReady a1 s
  | .chunkStart a1 => Sys2Proof.Machine.execChunkStart a1 s
  | .collData a1 a2 => Sys2Proof.Machine.execCollData a1 a2 s
  | .chunkEnd a1 a2 => Sys2Proof.Machine.execChunkEnd a1 a2 s
  | .chunkCheck a1 a2 a3 => Sys2Proof.Machine.execChunkCheck a1 a2 a3 s
  | .chunkAck a1 => Sys2Proof.Machine.execChunkAck a1 s
  | .opAbort a1 => Sys2Proof.Machine.execOpAbort a1 s
  | .collProgressTimeout a1 a2 => Sys2Proof.Machine.execCollProgressTimeout a1 a2 s
  | .collDrainComplete a1 => Sys2Proof.Machine.execCollDrainComplete a1 s
  | .collErrCountTimer => Sys2Proof.Machine.execCollErrCountTimer s
  | .pmbusRead a1 => Sys2Proof.Machine.execPmbusRead a1 s
  | .outerUpdate => Sys2Proof.Machine.execOuterUpdate s
  | .derateUpdate => Sys2Proof.Machine.execDerateUpdate s
  | .railAtLevel a1 => Sys2Proof.Machine.execRailAtLevel a1 s
  | .setCap => Sys2Proof.Machine.execSetCap s
  | .setMode => Sys2Proof.Machine.execSetMode s
  | .lockPermit => Sys2Proof.Machine.execLockPermit s
  | .countersNow => Sys2Proof.Machine.execCountersNow s
  | .logReplay => Sys2Proof.Machine.execLogReplay s
  | .powerPolicyStore => Sys2Proof.Machine.execPowerPolicyStore s
  | .lockJoin => Sys2Proof.Machine.execLockJoin s
  | .lockDemand => Sys2Proof.Machine.execLockDemand s
  | .lockLeave => Sys2Proof.Machine.execLockLeave s
  | .lockOriginSilent a1 a2 => Sys2Proof.Machine.execLockOriginSilent a1 a2 s
  | .lockEntryExpiry a1 a2 => Sys2Proof.Machine.execLockEntryExpiry a1 a2 s
  | .lockQueueSend a1 => Sys2Proof.Machine.execLockQueueSend a1 s
  | .pwrStatusTimer => Sys2Proof.Machine.execPwrStatusTimer s
  | .pwrLockStatusTimer => Sys2Proof.Machine.execPwrLockStatusTimer s
  | .throttleCountersTimer => Sys2Proof.Machine.execThrottleCountersTimer s
  | .pwrDroopTimer => Sys2Proof.Machine.execPwrDroopTimer s
  | .dieSensorSample a1 => Sys2Proof.Machine.execDieSensorSample a1 s
  | .coolantSensorSample a1 => Sys2Proof.Machine.execCoolantSensorSample a1 s
  | .humiditySample a1 a2 a3 => Sys2Proof.Machine.execHumiditySample a1 a2 a3 s
  | .sensorValidAgain a1 => Sys2Proof.Machine.execSensorValidAgain a1 s
  | .probeDisagree a1 => Sys2Proof.Machine.execProbeDisagree a1 s
  | .zoneRecovery a1 => Sys2Proof.Machine.execZoneRecovery a1 s
  | .thresholdDwellExpiry a1 => Sys2Proof.Machine.execThresholdDwellExpiry a1 s
  | .thermalDemandUpdate => Sys2Proof.Machine.execThermalDemandUpdate s
  | .coolantDemandUpdate => Sys2Proof.Machine.execCoolantDemandUpdate s
  | .dewMarginDwell => Sys2Proof.Machine.execDewMarginDwell s
  | .breachCheck => Sys2Proof.Machine.execBreachCheck s
  | .thermalTimeout a1 => Sys2Proof.Machine.execThermalTimeout a1 s
  | .setAdmit => Sys2Proof.Machine.execSetAdmit s
  | .setBreach => Sys2Proof.Machine.execSetBreach s
  | .heatNow => Sys2Proof.Machine.execHeatNow s
  | .heatStatusTimer => Sys2Proof.Machine.execHeatStatusTimer s
  | .moduleCycle => Sys2Proof.Machine.execModuleCycle s
  | .bemfZeroCrossing a1 a2 => Sys2Proof.Machine.execBemfZeroCrossing a1 a2 s
  | .kickTimeout => Sys2Proof.Machine.execKickTimeout s
  | .speedLoop a1 => Sys2Proof.Machine.execSpeedLoop a1 s
  | .stallDetect => Sys2Proof.Machine.execStallDetect s
  | .pumpOvercurrent => Sys2Proof.Machine.execPumpOvercurrent s
  | .stallRetry => Sys2Proof.Machine.execStallRetry s
  | .diagPulse a1 => Sys2Proof.Machine.execDiagPulse a1 s
  | .ageingEvaluation => Sys2Proof.Machine.execAgeingEvaluation s
  | .baselinePoint => Sys2Proof.Machine.execBaselinePoint s
  | .reverseFlowDetect => Sys2Proof.Machine.execReverseFlowDetect s
  | .lowFlowDetect => Sys2Proof.Machine.execLowFlowDetect s
  | .tapeLoopCheck a1 => Sys2Proof.Machine.execTapeLoopCheck a1 s
  | .wlDetectSample a1 => Sys2Proof.Machine.execWlDetectSample a1 s
  | .setPumpMode => Sys2Proof.Machine.execSetPumpMode s
  | .setSpeed => Sys2Proof.Machine.execSetSpeed s
  | .setFlowLimits => Sys2Proof.Machine.execSetFlowLimits s
  | .setRamp => Sys2Proof.Machine.execSetRamp s
  | .setFluid => Sys2Proof.Machine.execSetFluid s
  | .baseline => Sys2Proof.Machine.execBaseline s
  | .clearLeak => Sys2Proof.Machine.execClearLeak s
  | .pumpNow => Sys2Proof.Machine.execPumpNow s
  | .pumpStatusTimer => Sys2Proof.Machine.execPumpStatusTimer s
  | .joinListenEnd a1 => Sys2Proof.Machine.execJoinListenEnd a1 s
  | .rxFifoDrain a1 => Sys2Proof.Machine.execRxFifoDrain a1 s
  | .rxOverflow a1 => Sys2Proof.Machine.execRxOverflow a1 s
  | .busMessagePhase a1 a2 => Sys2Proof.Machine.execBusMessagePhase a1 a2 s
  | .frameSent a1 => Sys2Proof.Machine.execFrameSent a1 s
  | .txExpiry a1 a2 => Sys2Proof.Machine.execTxExpiry a1 a2 s
  | .canError a1 a2 a3 => Sys2Proof.Machine.execCanError a1 a2 a3 s
  | .busOffWaitExpiry a1 => Sys2Proof.Machine.execBusOffWaitExpiry a1 s
  | .busOffRecovered a1 => Sys2Proof.Machine.execBusOffRecovered a1 s
  | .leakAlert a1 a2 => Sys2Proof.Machine.execLeakAlert a1 a2 s
  | .tripNotice a1 a2 => Sys2Proof.Machine.execTripNotice a1 a2 s
  | .stageAlarm a1 a2 => Sys2Proof.Machine.execStageAlarm a1 a2 s
  | .rackAlert a1 a2 => Sys2Proof.Machine.execRackAlert a1 a2 s
  | .claimCmd a1 a2 => Sys2Proof.Machine.execClaimCmd a1 a2 s
  | .wardenHb a1 a2 => Sys2Proof.Machine.execWardenHb a1 a2 s
  | .stageStatus a1 a2 => Sys2Proof.Machine.execStageStatus a1 a2 s
  | .sync a1 a2 => Sys2Proof.Machine.execSync a1 a2 s
  | .syncHoldover => Sys2Proof.Machine.execSyncHoldover s
  | .moduleBudget a1 a2 => Sys2Proof.Machine.execModuleBudget a1 a2 s
  | .alloc a1 a2 => Sys2Proof.Machine.execAlloc a1 a2 s
  | .rackBudget a1 a2 => Sys2Proof.Machine.execRackBudget a1 a2 s
  | .moduleTelem a1 a2 => Sys2Proof.Machine.execModuleTelem a1 a2 s
  | .rackTelem a1 a2 => Sys2Proof.Machine.execRackTelem a1 a2 s
  | .mirror a1 a2 => Sys2Proof.Machine.execMirror a1 a2 s
  | .nodeAnnounce a1 a2 => Sys2Proof.Machine.execNodeAnnounce a1 a2 s
  | .announceReq a1 a2 => Sys2Proof.Machine.execAnnounceReq a1 a2 s
  | .busSleep a1 a2 => Sys2Proof.Machine.execBusSleep a1 a2 s
  | .busWake a1 a2 => Sys2Proof.Machine.execBusWake a1 a2 s
  | .rowBusDominantWake => Sys2Proof.Machine.execRowBusDominantWake s
  | .makerFrame a1 a2 => Sys2Proof.Machine.execMakerFrame a1 a2 s
  | .busCountsTimer a1 => Sys2Proof.Machine.execBusCountsTimer a1 s
  | .mbxSelect a1 => Sys2Proof.Machine.execMbxSelect a1 s
  | .mbxWord0Read => Sys2Proof.Machine.execMbxWord0Read s
  | .mbxWord17Read => Sys2Proof.Machine.execMbxWord17Read s
  | .mbxLockTimeout => Sys2Proof.Machine.execMbxLockTimeout s
  | .wardenStartActive => Sys2Proof.Machine.execWardenStartActive s
  | .standbyEvaluation => Sys2Proof.Machine.execStandbyEvaluation s
  | .rackCycle => Sys2Proof.Machine.execRackCycle s
  | .rowCycle => Sys2Proof.Machine.execRowCycle s
  | .rowAllocSilence => Sys2Proof.Machine.execRowAllocSilence s
  | .leakResponseDelay a1 => Sys2Proof.Machine.execLeakResponseDelay a1 s
  | .wlState a1 a2 a3 a4 => Sys2Proof.Machine.execWlState a1 a2 a3 a4 s
  | .wlMirror a1 a2 a3 a4 => Sys2Proof.Machine.execWlMirror a1 a2 a3 a4 s
  | .handover a1 a2 a3 a4 => Sys2Proof.Machine.execHandover a1 a2 a3 a4 s
  | .handoverAck a1 a2 a3 a4 => Sys2Proof.Machine.execHandoverAck a1 a2 a3 a4 s
  | .handoverTimeout => Sys2Proof.Machine.execHandoverTimeout s
  | .keepalive a1 a2 a3 a4 => Sys2Proof.Machine.execKeepalive a1 a2 a3 a4 s
  | .wlLaneDown a1 => Sys2Proof.Machine.execWlLaneDown a1 s
  | .mirrorTimer => Sys2Proof.Machine.execMirrorTimer s
  | .canaryTestExpiry => Sys2Proof.Machine.execCanaryTestExpiry s
  | .fabricAlert => Sys2Proof.Machine.execFabricAlert s
  | .commission => Sys2Proof.Machine.execCommission s
  | .decommission => Sys2Proof.Machine.execDecommission s
  | .setStageMap => Sys2Proof.Machine.execSetStageMap s
  | .setBudget => Sys2Proof.Machine.execSetBudget s
  | .setExchange => Sys2Proof.Machine.execSetExchange s
  | .setSlew => Sys2Proof.Machine.execSetSlew s
  | .setLeak => Sys2Proof.Machine.execSetLeak s
  | .slotValve => Sys2Proof.Machine.execSlotValve s
  | .slotRelease => Sys2Proof.Machine.execSlotRelease s
  | .canarySwap => Sys2Proof.Machine.execCanarySwap s
  | .leakReset => Sys2Proof.Machine.execLeakReset s
  | .wardNow => Sys2Proof.Machine.execWardNow s
  | .wardStatusTimer => Sys2Proof.Machine.execWardStatusTimer s
  | .mctpSmbusPacket a1 => Sys2Proof.Machine.execMctpSmbusPacket a1 s
  | .setEndpointId => Sys2Proof.Machine.execSetEndpointId s
  | .getEndpointId => Sys2Proof.Machine.execGetEndpointId s
  | .getEndpointUuid => Sys2Proof.Machine.execGetEndpointUuid s
  | .getMctpVersionSupport => Sys2Proof.Machine.execGetMctpVersionSupport s
  | .getMessageTypeSupport => Sys2Proof.Machine.execGetMessageTypeSupport s
  | .unsupportedMctpControl => Sys2Proof.Machine.execUnsupportedMctpControl s
  | .getTid => Sys2Proof.Machine.execGetTid s
  | .setTid => Sys2Proof.Machine.execSetTid s
  | .getPldmVersion => Sys2Proof.Machine.execGetPldmVersion s
  | .getPldmTypes => Sys2Proof.Machine.execGetPldmTypes s
  | .getPldmCommands => Sys2Proof.Machine.execGetPldmCommands s
  | .setEventReceiver => Sys2Proof.Machine.execSetEventReceiver s
  | .getPdrRepositoryInfo => Sys2Proof.Machine.execGetPdrRepositoryInfo s
  | .getPdr => Sys2Proof.Machine.execGetPdr s
  | .getSensorReading => Sys2Proof.Machine.execGetSensorReading s
  | .getStateSensorReadings => Sys2Proof.Machine.execGetStateSensorReadings s
  | .setNumericEffecterValue => Sys2Proof.Machine.execSetNumericEffecterValue s
  | .getNumericEffecterValue => Sys2Proof.Machine.execGetNumericEffecterValue s
  | .setStateEffecterStates => Sys2Proof.Machine.execSetStateEffecterStates s
  | .getStateEffecterStates => Sys2Proof.Machine.execGetStateEffecterStates s
  | .unsupportedPldm => Sys2Proof.Machine.execUnsupportedPldm s
  | .pldmEventSend => Sys2Proof.Machine.execPldmEventSend s
  | .pldmEventResponse => Sys2Proof.Machine.execPldmEventResponse s
  | .pldmEventRetry => Sys2Proof.Machine.execPldmEventRetry s
  | .smbusAlertResponse => Sys2Proof.Machine.execSmbusAlertResponse s
  | .fwWrite => Sys2Proof.Machine.execFwWrite s
  | .fwVerify => Sys2Proof.Machine.execFwVerify s
  | .fwActivate => Sys2Proof.Machine.execFwActivate s
  | .getNonce => Sys2Proof.Machine.execGetNonce s
  | .nonceExpiry => Sys2Proof.Machine.execNonceExpiry s
  | .ownerEnrol => Sys2Proof.Machine.execOwnerEnrol s
  | .returnRequest => Sys2Proof.Machine.execReturnRequest s
  | .retireRequest => Sys2Proof.Machine.execRetireRequest s
  | .debugUnlock => Sys2Proof.Machine.execDebugUnlock s
  | .makerTransition => Sys2Proof.Machine.execMakerTransition s
  | .setHostSilent => Sys2Proof.Machine.execSetHostSilent s
  | .storeHold => Sys2Proof.Machine.execStoreHold s
  | .busOrder => Sys2Proof.Machine.execBusOrder s
  | .mgmtNow => Sys2Proof.Machine.execMgmtNow s
  | .hostSilenceTimeout => Sys2Proof.Machine.execHostSilenceTimeout s
  | .storeStart => Sys2Proof.Machine.execStoreStart s
  | .storeComplete a1 => Sys2Proof.Machine.execStoreComplete a1 s
  | .mgmtStatusTimer => Sys2Proof.Machine.execMgmtStatusTimer s
  | .traceCtlEnWrite a1 => Sys2Proof.Machine.execTraceCtlEnWrite a1 s
  | .w1cWrite a1 a2 a3 => Sys2Proof.Machine.execW1cWrite a1 a2 a3 s
  | .lockedWrite a1 a2 => Sys2Proof.Machine.execLockedWrite a1 a2 s
  | .badSizeWindowAccess a1 a2 a3 => Sys2Proof.Machine.execBadSizeWindowAccess a1 a2 a3 s
  | .registerWrite a1 a2 a3 a4 => Sys2Proof.Machine.execRegisterWrite a1 a2 a3 a4 s
  | .leakTapeDry => Sys2Proof.Machine.execLeakTapeDry s
  | .tripSourcesClean => Sys2Proof.Machine.execTripSourcesClean s
  | .receiverError => Sys2Proof.Machine.execReceiverError s
  | .correctedInternalError => Sys2Proof.Machine.execCorrectedInternalError s
  | .ecrcError a1 a2 => Sys2Proof.Machine.execEcrcError a1 a2 s
  | .malformedTlp => Sys2Proof.Machine.execMalformedTlp s
  | .malformedFrame a1 a2 a3 => Sys2Proof.Machine.execMalformedFrame a1 a2 a3 s

end Sys2Proof.Machine
end

