-- ==== Sys2Proof/Machine/Tick.lean ====
section
/-! DEFINITION. What the module's own 100 MHz clock does at a tick: what step answers on an empty queue (log entry 3). -/

namespace Sys2Proof.Machine

/-- The row-time counter advances with AUX in rating, as row-time synchronisation lets it (R58, R613, R616). -/
def tickRow (s : State) : State :=
  if s.ao.aux then
    let r := clockStep s.bus.clock
    { s with ao := { s.ao with rowTime := s.ao.rowTime + BitVec.ofNat 48 r.1 }, bus := { s.bus with clock := r.2 } }
  else s

/-- Each millisecond a commissioned warden sends a KEEPALIVE on the warden link (R648). -/
def tickKeepalive (s : State) : State :=
  if s.now % 100000 = 0 && s.stew && s.ward.rackRole then wlSend 5 [] s else s

/-- One tick of 10 ns: the clock, the row time, the ramp of VDD_CORE and the KEEPALIVE. -/
def tick (s : State) : State := tickKeepalive (railTick (tickRow { s with now := s.now + 1 }))

end Sys2Proof.Machine
end

