-- ==== Sys2Proof/Safety.lean ====
section
/-! DEFINITION. What a safe run is, what one command may touch, and what it is to carry a command out, in the terms claims use. -/

namespace Sys2Proof.Machine

/-- A step goes on: neither a fault nor a refusal. -/
def goesOn (s : State) : Prop := ∃ t, step s = .next t

/-- A run of n steps goes on throughout. -/
def runsFor : Nat → State → Prop
  | 0, _ => True
  | n + 1, s => ∃ t, step s = .next t ∧ runsFor n t

/-- The parts of the state. -/
inductive Blk where
  | pending
  | free
  | now
  | ao
  | sup
  | adit
  | host
  | rings
  | cages
  | beat
  | mem
  | mgmt
  | links
  | coll
  | power
  | heat
  | pump
  | bus
  | ward
  deriving DecidableEq, Repr

/-- Two states agree on one part. -/
def Agree (b : Blk) (s t : State) : Prop :=
  match b with
  | .pending => t.pending = s.pending
  | .free => t.free = s.free
  | .now => t.now = s.now
  | .ao => t.ao = s.ao
  | .sup => t.sup = s.sup
  | .adit => t.adit = s.adit
  | .host => t.host = s.host
  | .rings => t.rings = s.rings
  | .cages => t.cages = s.cages
  | .beat => t.beat = s.beat
  | .mem => t.mem = s.mem
  | .mgmt => t.mgmt = s.mgmt
  | .links => t.links = s.links
  | .coll => t.coll = s.coll
  | .power => t.power = s.power
  | .heat => t.heat = s.heat
  | .pump => t.pump = s.pump
  | .bus => t.bus = s.bus
  | .ward => t.ward = s.ward

/-- From s to t nothing but the parts listed has changed. -/
def Only (W : List Blk) (s t : State) : Prop := ∀ b, W.contains b = false → Agree b s t

/-- Every part of the first list stands in the second. -/
def sub (V W : List Blk) : Bool := V.all (fun b => W.contains b)

end Sys2Proof.Machine
end

