-- ==== Sys2Proof/Claims.lean ====
section
/-! DEFINITION. The words that the statements are made of: what it is to carry a command out, and to change one numbered part alone. -/

namespace Sys2Proof.Machine

/-- Command c at s is carried out: it answers the state that `fin` (what follows by itself) makes of a state of which P holds. -/
def Effects (fin : State → State) (c : Sys2Proof.Instr) (s : State) (P : State → Prop) : Prop := ∃ u, exec c s = .next (fin u) ∧ P u

/-- Function f carries out configuration requests: the link is up, the module ready, the function there and past its RRS answers (R124, R125, R163). -/
def Answers (s : State) (f : Nat) : Prop := s.host.linkUp = true ∧ s.host.ready = true ∧ (s.fn f).present = true ∧ (s.fn f).rrs = false

/-- What follows a configuration write: it is answered, and what it makes possible happens. -/
def answered (s : State) : State := settle (reply .ok s)

/-- From s to u nothing but the registers of function f has changed. -/
def FnOnly (f : Nat) (s u : State) : Prop := Only [.host] s u ∧ { u.host with fns := s.host.fns } = s.host ∧ ∀ g, g ≠ f → u.fn g = s.fn g

/-- The configuration of a function: what configuration requests and resets alone set. -/
def cfgOf (x : Fn) : List Bool × Nat × Nat := ([x.present, x.mse, x.bme, x.msixEn, x.fnMask, x.atsEn, x.lnrEn, x.ecrc, x.d3, x.flr, x.d3Pending, x.rrs], x.lnrLimit, x.cplTimeoutUs)

/-- The configuration of the link and of the PF's capabilities. -/
def linkCfg (h : HostLink) : List Bool × Nat := ([h.ari, h.vfEn, h.vfMse, h.aspmL1, h.tags10, h.linkUp, h.ready], h.numVfs)

/-- A memory request of the host to a window of function f is taken (R122, R157). -/
def Reaches (s : State) (f : Nat) : Prop := s.up = true ∧ windowOpen s f = true

/-- The state once the link has left L1, as any request makes it (R161). -/
def awake (s : State) : State := s.modHost fun h => { h with inL1 := false }

/-- The function an error of function f is logged in: f itself, or the PF where f does not exist (R152). -/
def loggedAt (s : State) (f : Nat) : Nat := if (s.fn f).present then f else 0

/-- The read of host data with this number is in flight. -/
def ReadOut (s : State) (id : Nat) (r : HReq) : Prop := s.host.reqs.find? (fun r => r.id == id && !r.xl && !r.wr) = some r

/-- The translation with this number is asked for. -/
def XlOut (s : State) (id : Nat) (r : HReq) : Prop := s.host.reqs.find? (fun r => r.id == id && r.xl) = some r

/-- From s to u the request with this number has gone, and nothing else. -/
def Dropped (id : Nat) (s u : State) : Prop := u = s.modHost fun h => { h with reqs := h.reqs.filter (fun r => r.id != id) }

/-- The oldest doorbell-line read of function f is taken out of flight. -/
def popped (f : Nat) (s : State) : State := s.modFn f fun x => { x with readsOut := x.readsOut.drop 1 }

/-- The index that a doorbell line holds for ring r (R169). -/
def lineIndex (bs : Bytes) (r : Nat) : W32 := BitVec.ofNat 32 (fld bs (4 * r) 4)

/-- A part of the rings that no record touches: everything but the report rings, the waiting records and the loss counts. -/
def ringCore (r : Rings) : Rings := { r with rpts := [], rptWait := [], lost := 0, a6Displaced := 0, mctpDropped := 0 }

/-- The scheduler's turn is on ring r of function f, whose head descriptor d of number p has opcode op and passes the checks of R199. -/
def Taken (o : OpSpec) (op f r : Nat) (s : State) (e : Cand) (df : Tbl Nat) (p : W32) (d : Bytes) : Prop :=
  turnOf s f r = some (e, df, p, d) ∧ descOp d = op ∧ runChecks o ((s.slot e.2.1).ring / 16) d (took e df p d s) = none

/-- What follows a command's own meaning once it has issued from the slot of candidate e. -/
def ran (e : Cand) (s : State) : State := settle (refresh (tryFail e.2.1 s))

/-- From s to u nothing but context n has changed. -/
def CtxOnly (n : Nat) (s u : State) : Prop := Only [.rings] s u ∧ { u.rings with ctxs := s.rings.ctxs } = s.rings ∧ ∀ m, m ≠ n → u.ctx m = s.ctx m

/-- From s to u the command of context n ends, its completion record still to be written (R196), and nothing else changes. -/
def Ended (n status detail result : Nat) (s u : State) : Prop :=
  (u.ctx n).ph = .ending ∧ (u.ctx n).status = status ∧ (u.ctx n).detail = detail ∧ (u.ctx n).result = result ∧
  (u.ctx n).ring = (s.ctx n).ring ∧ (u.ctx n).index = (s.ctx n).index ∧ (u.ctx n).tag = (s.ctx n).tag ∧ CtxOnly n s u

/-- A page of a cage can be used at once, for reading or for writing. -/
def PageReady (s : State) (c p : Nat) : Prop :=
  (s.page c p).st = .resident ∧ (s.page c p).claimed = false ∧ (s.page c p).zeroing = false ∧ (s.page c p).pins = 0 ∧ (s.page c p).spilled = false

/-- From s to u context n has its pages ready and its transfer may run. -/
def Begun (n : Nat) (pages wr : List Nat) (s u : State) : Prop :=
  (u.ctx n).ph = (s.ctx n).ph ∧ (u.ctx n).pages = pages ∧ (u.ctx n).wrPages = wr ∧ (u.ctx n).planned = true ∧ (u.ctx n).moved = (s.ctx n).moved ∧
  (u.ctx n).desc = (s.ctx n).desc ∧ CtxOnly n s u

/-- From s to u nothing but ring k has changed. -/
def RingOnly (k : Nat) (s u : State) : Prop := Only [.rings] s u ∧ { u.rings with rings := s.rings.rings } = s.rings ∧ ∀ j, j ≠ k → u.ring j = s.ring j

/-- From s to u nothing but slot i has changed. -/
def SlotOnly (i : Nat) (s u : State) : Prop := Only [.rings] s u ∧ { u.rings with slots := s.rings.slots } = s.rings ∧ ∀ j, j ≠ i → u.slot j = s.slot j

/-- From s to u nothing but cage c's own entry has changed. -/
def CageOnly (c : Nat) (s u : State) : Prop := Only [.cages] s u ∧ { u.cages with cages := s.cages.cages } = s.cages ∧ ∀ j, j ≠ c → u.cage j = s.cage j

/-- Every command that a ring issues, with its opcode and what its descriptor may hold (Tables RING-2 to RING-4). -/
def ringTable : List (Nat × OpSpec × (Nat → Nat → Sys2Proof.Instr)) :=
  [(0x00, specNop, .nop), (0x01, specH2d, .copyH2d), (0x02, specD2h, .copyD2h), (0x03, specD2d, .copyD2d), (0x04, specFill, .fill),
   (0x05, specSignal, .eventSignal), (0x06, specWait, .eventWait), (0x07, specHostWrite, .hostWrite), (0x08, specSched, .schedSet),
   (0x10, specAdmit, .admitCmd), (0x11, specAbort, .programAbort), (0x12, specMap, .pageMap), (0x13, specUnmap, .pageUnmap), (0x14, specPool, .poolSet),
   (0x18, specCreate, .cageCreate), (0x19, specDestroy, .cageDestroy), (0x1A, specQuota, .cageQuota), (0x20, specCollCreate, .collGroupCreate),
   (0x21, specCollDestroy, .collGroupDestroy), (0x22, specCollReg, .collBufRegister), (0x23, specCollOp true, .reduceScatter),
   (0x24, specCollOp false, .allGather), (0x30, specPolicy, .policy)]

/-- What a command does twice over when its own meaning already carries on what it makes possible. -/
def settle2 (s : State) : State := settle (settle s)

/-- What carrying out a CAGE_DESTROY of cage t goes on with (R236): admissions end, issued commands end, groups are destroyed. -/
def destroyFollows (n t : Nat) (s : State) : State :=
  let u := endCageCmds t (abortAll n (s.cages.adms.filter (fun a => a.cage == t)) s).1
  forEach (handlesOf u t) (fun h v => destroyGroup h none v) u

/-- The page being moved is the only one on the move, and no plan waits for frames. -/
def LoneMove (s : State) (m : Move) : Prop := s.cages.moves = [m] ∧ ∀ q ∈ s.cages.plans, q.need = [] ∧ q.kept = []

/-- The number of bubbles of the window that slot k of group g lies in (R30, R320, R321). -/
def bubblesAt (s : State) (g : Nat) : Nat :=
  if (s.group g).slot % 64 = 0 then (if s.beat.stale then 60 else (s.group g).nNew) else (s.group g).nForce

/-- From s to u nothing but group g has changed. -/
def GroupOnly (g : Nat) (s u : State) : Prop := Only [.beat] s u ∧ { u.beat with groups := s.beat.groups } = s.beat ∧ ∀ j, j ≠ g → u.group j = s.group j

/-- The head of A3 towards the control plane is m, with r behind it. -/
def DownHead (s : State) (m : A3Msg) (r : List A3Msg) : Prop := s.dataUp = true ∧ s.adit.a3down = m :: r

/-- The head of A3 towards the management plane is m, with r behind it. -/
def UpHead (s : State) (m : A3Msg) (r : List A3Msg) : Prop := s.stew = true ∧ s.adit.a3up = m :: r

/-- From s to u nothing but stack i's own counters and readings has changed. -/
def StackOnly (i : Nat) (s u : State) : Prop := Only [.mem] s u ∧ { u.mem with stks := s.mem.stks } = s.mem ∧ ∀ j, j ≠ i → u.stack j = s.stack j

/-- The device-memory controller serves lines of a trained stack (R367, R385). -/
def Trained (s : State) (line : Nat) : Prop := s.dataUp = true ∧ line < 2 ^ 31 ∧ (s.stack (stackOf (64 * line))).train = 1

/-- What follows an event of link k: the link reset it called for, and what it makes possible (R389, R407, R416). -/
def linkFin (k : Nat) (s : State) : State := settle (linkSettle k s)

/-- Link k of a running data plane. -/
def LinkRuns (k : Nat) (s : State) : Prop := k < 16 ∧ s.dataUp = true

/-- From s to u nothing but link k has changed. -/
def LinkOnly (k : Nat) (s u : State) : Prop := Only [.links] s u ∧ ∀ j, j ≠ k → u.link j = s.link j

/-- From s to u link k alone has changed, and what its change reports. -/
def LinkTold (k : Nat) (s u : State) : Prop := Only [.host, .rings, .links] s u ∧ ∀ j, j ≠ k → u.link j = s.link j

/-- From s to u a training of link k has failed for a reason (R397). -/
def TrainFailed (k reason : Nat) (s u : State) : Prop :=
  (u.link k).fails = (s.link k).fails + 1 ∧ (u.link k).lastReason = reason ∧ (u.link k).hello = false ∧
  (u.link k).st = (if (s.link k).fails < 2 then .training else .down) ∧ LinkTold k s u

/-- From s to u link k has been reset to a state, its flits and messages under way lost, its queued messages kept (R427, R429). -/
def LinkCleared (k : Nat) (st : LinkSt) (s u : State) : Prop :=
  (u.link k).st = st ∧ (u.link k).replay = [] ∧ (u.link k).nextSeq = 0 ∧ (u.link k).fault = none ∧ (u.link k).memReqs = [] ∧ (u.link k).resps = [] ∧
  (∀ v, v < 4 → ((u.link k).vtx v).queue = ((s.link k).vtx v).queue ∧ ((u.link k).vtx v).rest = [] ∧ ((u.link k).vrx v).inbox = []) ∧ LinkTold k s u

/-- A DATA flit is the next in order on link k (R404). -/
def NextFlit (s : State) (k : Nat) (f : Bytes) : Prop :=
  LinkRuns k s ∧ (s.link k).st = .up ∧ flitGood f = true ∧ flitKind f = 1 ∧ flitSeq f = ((s.link k).lastAcc + 1) % 65536

/-- What accepting a flit of VC v sets on link k whatever the flit says (R404, R413). -/
def FlitTaken (k : Nat) (f : Bytes) (s u : State) : Prop :=
  (u.link k).lastAcc = flitSeq f ∧ (u.link k).anyAcc = true ∧ (u.link k).nakSent = false ∧ (u.link k).newReport = true ∧
  ((u.link k).vrx (flitVc f)).acc = (((s.link k).vrx (flitVc f)).acc + 1) % 65536 ∧ ∀ j, j ≠ k → u.link j = s.link j

/-- The message m at the head of the inbox of a VC, of the type that a command takes. -/
def Waits (s : State) (k v ty : Nat) (m : Bytes) : Prop := LinkRuns k s ∧ inboxHead s k v = some m ∧ msgType m = ty

/-- A VC-MEM request lies within the region that its key opens (R422). -/
def Opens (s : State) (m : Bytes) (c base : Nat) : Prop := ∃ len, keyExtent s (msgKey m) = some (c, base, len) ∧ 64 * msgOffset m + 64 * msgLines m ≤ len

/-- From s to u nothing but group h has changed. -/
def GrpOnly (h : Nat) (s u : State) : Prop := Only [.coll] s u ∧ { u.coll with groups := s.coll.groups } = s.coll ∧ ∀ j, j ≠ h → u.grp j = s.grp j

/-- The message m goes to the queue of VC v on link k. -/
def Sent (k v : Nat) (m : Bytes) (s u : State) : Prop := ((u.link k).vtx v).queue = ((s.link k).vtx v).queue ++ [m]

/-- The quarter of the staging a new group takes: the one with the most free (R443). -/
def quarterFor (s : State) : Nat := (List.range 4).foldl (fun b i => if stagingFree s b < stagingFree s i then i else b) 0

/-- The group a COLL_GROUP_CREATE of context n makes for cage c (R438, R443). -/
def groupFor (n c : Nat) (d : Bytes) (s : State) : CollGroup :=
  { cage := c, gid := fld d 16 8, p := fld d 24 2, rank := fld d 26 2, strands := byteAt d 28, chunkMax := byteAt d 29, agOnly := bit (byteAt d 30) 0,
    succ := (List.range (byteAt d 28)).map (collSucc d), pred := (List.range (byteAt d 28)).map (collPred d),
    waitUs := if fld d 40 4 = 0 then 1000000 else fld d 40 4, quarter := quarterFor s, createCtx := some n }

/-- The lowest handle that no group holds (R438). -/
def freeHandle (s : State) : Nat := ((List.range 64).find? (fun i => (s.grp i).isNone)).getD 0

/-- The GROUP_HELLO of a group on strand j (R443, R478). -/
def helloOf (g : CollGroup) (j : Nat) : Bytes :=
  mkShort 0x16 0 0 0 0 (packFlds 40 [(0, 8, g.gid), (8, 2, g.p), (10, 2, g.rank), (12, 1, g.strands), (13, 1, g.chunkMax), (14, 1, b2n g.agOnly), (15, 1, j)])

/-- The GROUP_ACK of a group (R445, R478). -/
def ackOf (gid j code : Nat) : Bytes := mkShort 0x17 0 0 0 0 (packFlds 40 [(0, 8, gid), (8, 1, j), (9, 1, code)])

/-- Operation o of group h runs and is not ending. -/
def Runs (s : State) (h : Nat) (g : CollGroup) (o : CollOp) : Prop := s.grp h = some g ∧ g.cur = some o ∧ o.ending = none

/-- A message for the running operation o of group h on its strand j, at the head of the inbox of a VC. -/
def OpWaits (s : State) (k v ty : Nat) (fromSucc : Bool) (m : Bytes) (h : Nat) (g : CollGroup) (o : CollOp) (j : Nat) : Prop :=
  Waits s k v ty m ∧ opTarget s k fromSucc m = some (h, g, j, true) ∧ Runs s h g o

/-- From s to u the strand j of the running operation of group h becomes `st`, and the groups are otherwise as they were. -/
def StrandSet (h j : Nat) (st : Strand) (s u : State) : Prop := u.coll.groups = (modStrand h j (fun _ => st) s).coll.groups

/-- The lines of a message that carries data, with their poison marks (R465, R468). -/
def linesOf (m : Bytes) : List CLine := (List.range (msgLines m)).map (fun i => { bs := (m.drop (16 + 64 * i)).take 64, psn := bit (msgTag m) (16 + i) })

/-- The link and the context of an error of Table LINK-13: what follows the end of an operation with a lost neighbour. -/
def lostFin (h link cause : Nat) (s : State) : State := settle (peerLost h link cause s)

/-- Device memory can be used: its stacks have trained (R385). -/
def MemReady (s : State) : Prop := s.mem.offline = false ∧ s.mem.trainEnded = true

/-- Handle h is a group that is not being destroyed. -/
def Stands (s : State) (h : Nat) (g : CollGroup) : Prop := s.grp h = some g ∧ g.destroying = false

/-- The CHUNK_ACK of a chunk on strand j, OK or RESEND (R460, R466, R478). -/
def chunkAckOf (g : CollGroup) (o : CollOp) (p : Pos) (again : Bool) : Bytes :=
  mkShort 0x13 (16 * b2n again) o.seq (g.keyTo false o.index) (firstLine o p) (packFlds 40 [])

/-- The strand of an operation whose next chunk to check is whole, with its CRC good or not (R465). -/
def Whole (s : State) (h : Nat) (g : CollGroup) (o : CollOp) (j : Nat) (good : Bool) : Prop :=
  s.dataUp = true ∧ Runs s h g o ∧ rxWhole g o j = true ∧
  decide (linesCrc (((o.strand j).got (o.strand j).recv).lines.map (·.2)) = (((o.strand j).got (o.strand j).recv).crc.getD 0)) = good

/-- A record of a kind, with fields of its body, waits in the report gateway. -/
def Recorded (kind : Nat) (body : List Fld) (u : State) : Prop := ∃ r t, A6Item.report r t ∈ u.adit.a6 ∧ r.kind = kind ∧ r.source = 1 ∧ ∀ x ∈ body, x ∈ r.body

/-- The MAIN planes stand as after a reset (R58, R64). -/
def MainWiped (u : State) : Prop :=
  u.host.ready = false ∧ u.host.linkUp = false ∧ u.rings = {} ∧ u.cages = {} ∧ u.beat = {} ∧ u.mem = {} ∧ u.links = [] ∧ u.coll = {} ∧ u.host = {} ∧
  u.sup.planes = false ∧ u.sup.modReady = false ∧ u.mgmt.traceEn = false ∧ u.mgmt.frozen = false ∧ u.adit.a3up = [] ∧ u.adit.a5out = []

/-- From s to u a compute-plane reset of this trigger is carried out and noted (R38, R58, R705). -/
def ComputeReset (trigger : Nat) (s u : State) : Prop :=
  MainWiped u ∧ u.ao.cause = { scope := 1, trigger := trigger, kill := s.ao.causes, rowTime := s.ao.rowTime } ∧ u.sup.regs = true ∧ u.sup.mainEn = s.sup.mainEn ∧
  Recorded 1 [(20, 1, 1), (21, 1, trigger)] u ∧ Only [.ao, .sup, .adit, .host, .rings, .cages, .beat, .mem, .mgmt, .links, .coll, .power, .heat, .pump] s u

/-- MAIN power is off (R53, R58). -/
def MainOff (u : State) : Prop := u.sup.mainEn = false ∧ u.sup.mainIn = false ∧ u.sup.regs = false ∧ u.sup.planes = false ∧ u.sup.modReady = false ∧ u.power.rail = 0

/-- From s to u the kill latch has set for a new cause (R41 to R44, R740). -/
def Killed (s u : State) : Prop :=
  u.ao.latch = true ∧ u.ao.tripDrive = true ∧ u.ao.clean = false ∧ u.ao.released = false ∧ MainOff u ∧
  u.ao.kills = s.now :: s.ao.kills.filter (fun t => decide (s.now - t ≤ 3600 * ticksPerSecond)) ∧
  (3 ≤ u.ao.kills.length → u.ao.suspended = true) ∧ ((s.sup.mainEn = true ∨ s.sup.regs = true) → MainWiped u ∧ u.ao.cause.scope = 1 ∧ u.ao.cause.trigger = 14)

/-- From s to u the kill latch has cleared (R746). -/
def Cleared (u : State) : Prop :=
  u.ao.latch = false ∧ u.ao.causes = {} ∧ u.ao.tripStacks = [] ∧ u.ao.tripDrive = false ∧ u.ao.released = false ∧ u.ao.clean = false ∧ Recorded 0x0510 [(20, 1, 7)] u

/-- What a cold reset leaves of everything but the always-on block and the management plane (R58). -/
def ColdWiped (s u : State) : Prop :=
  u.host = {} ∧ u.rings = {} ∧ u.cages = {} ∧ u.beat = {} ∧ u.mem = {} ∧ u.links = [] ∧ u.coll = {} ∧ u.power = {} ∧ u.heat = {} ∧ u.pump = {} ∧ u.bus = {} ∧ u.ward = {} ∧
  u.adit = {} ∧ u.sup = { perstHigh := s.sup.perstHigh } ∧ u.mgmt.fuses = s.mgmt.fuses ∧ u.mgmt.slot0 = s.mgmt.slot0 ∧ u.mgmt.slot1 = s.mgmt.slot1 ∧
  u.mgmt.regions = (match s.mgmt.storing with | some j => tins s.mgmt.regions j.kind .torn | none => s.mgmt.regions) ∧ u.mgmt.storing = none ∧
  u.pending = s.pending ∧ u.now = s.now

/-- The number of ones in the low n bits. -/
def ones (n x : Nat) : Nat := ((List.range n).filter (fun i => bit x i)).length

/-- What a class command of POLICY is: its class and number, the bits of its operands, and the offset of the operand out of range (Tables PWR-7,
HEAT-5, PUMP-4, WARD-11, MGMT-8 and START-5). -/
structure PolSpec where
  cls : Nat
  cmd : Nat
  masks : List (Nat × Nat) := []
  bad : Bytes → Option Nat := fun _ => none

/-- The commands of the policy classes. -/
def policyOf (i : Sys2Proof.Instr) : Option PolSpec :=
  match i with
  | .setCap => some { cls := 1, cmd := 1, masks := allBits 24 2 }
  | .setMode => some { cls := 1, cmd := 2, masks := [(24, 255)], bad := fun d => firstBad [(decide (1 < byteAt d 24), 24)] }
  | .lockPermit => some
    { cls := 1, cmd := 3, masks := [(24, 255), (25, 1)] ++ allBits 28 4,
      bad := fun d => firstBad [(decide (byteAt d 24 = 0), 24), (decide (fld d 28 4 = 0), 28)] }
  | .countersNow => some { cls := 1, cmd := 4 }
  | .logReplay => some { cls := 1, cmd := 5, masks := [(24, 255)], bad := fun d => firstBad [(decide (15 < byteAt d 24), 24)] }
  | .setAdmit => some
    { cls := 2, cmd := 1, masks := allBits 24 4,
      bad := fun d => firstBad [(decide (1000 < fld d 24 2), 24), (decide (1 < byteAt d 26), 26), (decide (byteAt d 27 < 4 ∨ 20 < byteAt d 27), 27)] }
  | .setBreach => some { cls := 2, cmd := 2, masks := allBits 24 2, bad := fun d => firstBad [(decide (1 < byteAt d 25), 25)] }
  | .heatNow => some { cls := 2, cmd := 3 }
  | .setPumpMode => some { cls := 3, cmd := 1, masks := allBits 24 1, bad := fun d => firstBad [(decide (1 < byteAt d 24), 24)] }
  | .setSpeed => some { cls := 3, cmd := 2, masks := allBits 24 2, bad := fun d => firstBad [(decide (fld d 24 2 < 500 ∨ 6000 < fld d 24 2), 24)] }
  | .setFlowLimits => some
    { cls := 3, cmd := 3, masks := allBits 24 4,
      bad := fun d => firstBad [(decide (fld d 24 2 < 120 ∨ 350 < fld d 24 2 ∨ fld d 26 2 < fld d 24 2), 24), (decide (fld d 26 2 < 120 ∨ 350 < fld d 26 2), 26)] }
  | .setRamp => some
    { cls := 3, cmd := 4, masks := allBits 24 4,
      bad := fun d => firstBad [(decide (fld d 24 2 < 1000 ∨ 30000 < fld d 24 2), 24), (decide (fld d 26 2 < 500 ∨ 10000 < fld d 26 2), 26)] }
  | .setFluid => some { cls := 3, cmd := 5, masks := allBits 24 1, bad := fun d => firstBad [(decide (1 < byteAt d 24), 24)] }
  | .baseline => some { cls := 3, cmd := 6 }
  | .clearLeak => some { cls := 3, cmd := 7 }
  | .pumpNow => some { cls := 3, cmd := 8 }
  | .commission => some
    { cls := 4, cmd := 1, masks := [(24, 255), (25, 1)] ++ allBits 26 4,
      bad := fun d => firstBad [(decide (1 < byteAt d 24), 24), (bit (byteAt d 25) 0 == decide (fld d 28 2 = 0), 25),
        (decide (fld d 26 2 = 0 ∨ fld d 26 2 = 0xFFFF), 26), (decide (fld d 28 2 = 0xFFFF), 28)] }
  | .decommission => some { cls := 4, cmd := 2 }
  | .setStageMap => some
    { cls := 4, cmd := 3, masks := allBits 24 36,
      bad := fun d => firstBad [(decide (1 < byteAt d 24), 24), (decide (byteAt d 27 < byteAt d 25 + byteAt d 26), 25), (decide (4 < byteAt d 26), 26),
        (decide ((if byteAt d 24 = 0 then 64 else 32) < byteAt d 27), 27),
        (((List.range (min (byteAt d 26) 4)).find? (fun i => badEntry (byteAt d 24) (entryAt d (28 + 8 * i)))).isSome,
         28 + 8 * ((List.range (min (byteAt d 26) 4)).find? (fun i => badEntry (byteAt d 24) (entryAt d (28 + 8 * i)))).getD 0)] }
  | .setBudget => some { cls := 4, cmd := 4, masks := allBits 24 8, bad := fun d => firstBad [(decide (fld d 24 4 < fld d 28 4), 24)] }
  | .setExchange => some
    { cls := 4, cmd := 5, masks := allBits 24 7,
      bad := fun d => firstBad [(decide (1 < byteAt d 24), 24), (decide (10000 < fld d 25 2), 25), (decide (350 < fld d 27 2), 27), (decide (fld d 29 2 < 320 ∨ 720 < fld d 29 2), 29)] }
  | .setSlew => some { cls := 4, cmd := 6, masks := allBits 24 2, bad := fun d => firstBad [(decide (fld d 24 2 < 100 ∨ 10000 < fld d 24 2), 24)] }
  | .setLeak => some
    { cls := 4, cmd := 7, masks := allBits 24 4,
      bad := fun d => firstBad [(decide (1 < byteAt d 24), 24), (decide (30 < byteAt d 25), 25), (decide (1 < byteAt d 26), 26), (decide (60 < byteAt d 27), 27)] }
  | .slotValve => some { cls := 4, cmd := 8, masks := allBits 24 2, bad := fun d => firstBad [(decide (31 < byteAt d 24), 24), (decide (1 < byteAt d 25), 25)] }
  | .slotRelease => some { cls := 4, cmd := 9, masks := allBits 24 1, bad := fun d => firstBad [(decide (31 < byteAt d 24), 24)] }
  | .canarySwap => some { cls := 4, cmd := 10 }
  | .leakReset => some { cls := 4, cmd := 11, masks := allBits 24 1, bad := fun d => firstBad [(decide (1 < byteAt d 24), 24)] }
  | .wardNow => some { cls := 4, cmd := 12 }
  | .setHostSilent => some { cls := 5, cmd := 1, masks := allBits 24 2, bad := fun d => firstBad [(decide (fld d 24 2 < 5 ∨ 3600 < fld d 24 2), 24)] }
  | .storeHold => some { cls := 5, cmd := 2, masks := allBits 24 1, bad := fun d => firstBad [(decide (1 < byteAt d 24), 24)] }
  | .busOrder => some
    { cls := 5, cmd := 3, masks := allBits 24 3,
      bad := fun d => firstBad [(decide (1 < byteAt d 24), 24), (decide (1 < byteAt d 25), 25), (decide (63 < byteAt d 26 ∧ byteAt d 26 ≠ 0xFF), 26)] }
  | .mgmtNow => some { cls := 5, cmd := 4 }
  | .mainOff => some { cls := 6, cmd := 1, masks := allBits 24 1, bad := fun d => firstBad [(decide (1 < byteAt d 24), 24)] }
  | _ => none

/-- The management plane has been given command i of a policy class, with its tag and descriptor. -/
def Given (i : Sys2Proof.Instr) (p : PolSpec) (s : State) (tag : BitVec 16) (d : Bytes) : Prop :=
  s.stew = true ∧ policyOf i = some p ∧ s.mgmt.disp = some (tag, d) ∧ byteAt d 16 = p.cls ∧ byteAt d 17 = p.cmd

/-- ... and the checks that every class command passes first are passed (R195). -/
def Asked (i : Sys2Proof.Instr) (s : State) (tag : BitVec 16) (d : Bytes) : Prop := ∃ p, Given i p s tag d ∧ policyRsvd p.masks d = none ∧ p.bad d = none

/-- The class command in work has been acknowledged (R195). -/
def Acked (tag : BitVec 16) (status detail : Nat) (s u : State) : Prop := u.adit.a3down = s.adit.a3down ++ [.ack tag status detail] ∧ u.mgmt.disp = none

/-- A lock message heads the inbound A5 buffer. -/
def LockHeard (ty : Nat) (k : Nat) (m : Bytes) (s : State) : Prop := s.stew = true ∧ (∃ r, s.adit.a5in = (k, m) :: r) ∧ msgType m = ty

/-- From s to u the sensor i alone of the heat sensors has changed, beside zones, thresholds and what they report. -/
def SensorsKept (l : List Nat) (s u : State) : Prop := ∀ i, i ∉ l → u.sensor i = s.sensor i

/-- From s to u bus b alone of the two has changed, and neither row time nor the mailbox. -/
def BusOnly (b : Nat) (s u : State) : Prop :=
  { u.bus with rack := s.bus.rack, row := s.bus.row } = s.bus ∧ (b = 0 → u.bus.row = s.bus.row) ∧ (b ≠ 0 → u.bus.rack = s.bus.rack)

/-- What waits to be sent on bus b: the waiting transmit buffers, then what stands behind them (R600). -/
def waitingFrames (s : State) (b : Nat) : List Frame :=
  (List.range 12).filterMap (fun i => match tget none (s.onBus b).tx i with
    | some t => if t.waiting then some t.tx.frame else none
    | none => none) ++ (s.onBus b).more.map (·.frame)

/-- A message of this module waits to be sent on bus b, built from the counts of s (R600, R602, R619, R620). -/
def Queued (b msg : Nat) (dest : Option Nat) (body : Bytes) (s u : State) : Prop := mkFrame s b msg dest (tget 0 (s.onBus b).seqs msg) body ∈ waitingFrames u b

/-- Bus b carries what this module sends: the steward runs, and the bus is joined and awake (R602, R605, R610). -/
def MaySend (s : State) (b : Nat) : Prop := s.stew = true ∧ (s.onBus b).join = .joined ∧ (s.onBus b).asleep = false

/-- Frame f arrives on bus b as the message msg: the controller receives, the FIFO has room, the receive checks pass (R600, R621). -/
def Hears (s : State) (b msg : Nat) (f : Frame) : Prop := canHear s b = true ∧ f.msg = msg ∧ (s.onBus b).fill < 20 ∧ frameCheck s b true f = none

/-- A frame of a retried message that repeats the SEQ its sender last used, within a second (R622). -/
def Repeats (s : State) (b : Nat) (f : Frame) : Prop :=
  retriedMsg f.msg = true ∧ ∃ t, tget none (s.onBus b).last (256 * f.src + f.msg) = some (f.seq, t) ∧ s.now - t ≤ ticksPerSecond

/-- ... and takes its effect: not this node's own, no repeat, and on a bus that is not joined only SYNC, WARDEN_HB and ALLOC (R608, R622). -/
def Takes (s : State) (b msg : Nat) (f : Frame) : Prop :=
  Hears s b msg f ∧ f.src ≠ nodeId s b ∧ ¬ Repeats s b f ∧ ((s.onBus b).join = .joined ∨ msg = 0x22 ∨ msg = 0x20 ∨ msg = 0x31)

/-- Frame f stands in the receive FIFO of bus b, and its sender counts among those heard in the listen (R600, R605). -/
def stored (b : Nat) (f : Frame) (s : State) : State :=
  s.modBus b fun x => { x with
    rx := tput none x.rx (12 + x.next) (some f), next := (x.next + 1) % 20, fill := x.fill + 1, srcs := if x.join = .listening then nadd x.srcs f.src else x.srcs }

/-- ... and the SEQ and time of a retried message are kept (R622). -/
def received (b : Nat) (f : Frame) (s : State) : State :=
  (stored b f s).modBus b fun x => { x with last := if retriedMsg f.msg then tput none x.last (256 * f.src + f.msg) (some (f.seq, s.now)) else x.last }

/-- The commands that bring a frame, with the message each brings (Table BUS-6). -/
def frameCmds : List (Nat × (Nat → Frame → Sys2Proof.Instr)) :=
  [(0x01, .leakAlert), (0x02, .tripNotice), (0x03, .stageAlarm), (0x04, .rackAlert), (0x10, .claimCmd), (0x20, .wardenHb), (0x21, .stageStatus), (0x22, .sync),
   (0x30, .moduleBudget), (0x31, .alloc), (0x32, .rackBudget), (0x40, .moduleTelem), (0x41, .rackTelem), (0x50, .mirror), (0x60, .nodeAnnounce),
   (0x61, .announceReq), (0x62, .busSleep), (0x63, .busWake)]

/-- The body of WARDEN_HB (Table BUS-8). -/
def hbBody (s : State) (b : Nat) : Bytes :=
  packFlds 16 [(0, 2, claimOf s b), (2, 1, s.ward.side + 2 * b + 4 * b2n s.ward.active + 8 * b2n (linkUpW s) + 16 * b2n (slewing s)), (3, 1, s.ao.rackId),
    (4, 4, (if b = 0 then s.ward.rackCycle else s.ward.rowCycle).toNat), (8, 8, s.mgmt.fuses.dsn)]

/-- A SYNC that completes a pair with the one before it, with the stamp sent and the own stamp kept (R616). -/
def Pair (s : State) (b : Nat) (f : Frame) (r : RowTime) : Prop :=
  Takes s b 0x22 f ∧ syncBus s = some b ∧ fromCommand s b f.src = true ∧ s.bus.clock.source = some (b, f.src) ∧ bit (byteAt f.body 6) 0 = true ∧
  ∃ q, s.bus.clock.last = some (q, r) ∧ f.seq = (q + 1) % 256

/-- The correction that a pair calls for, in ticks (R616). -/
def pairStep (f : Frame) (r : RowTime) : Int := (BitVec.ofNat 48 (fld f.body 0 6) - r).toInt

/-- The warden record of the module as it stands waits for the store (R638, R709). -/
def WardStored (u : State) : Prop := ∃ j ∈ u.mgmt.jobs, j.kind = 5 ∧ j.body = wardBody u.ward

/-- A block of Table WARD-7 has changed: it is stored, and to be mirrored (R651, R679). -/
def WardBlock (b : Nat) (u : State) : Prop := b ∈ u.ward.mirrorDue ∧ WardStored u

/-- A frame of this type and payload has gone out on the warden link (R647). -/
def WlSent (type : Nat) (payload : Bytes) (u : State) : Prop := ∃ e ∈ u.ward.wlOut, e.2.type = type ∧ e.2.payload = payload

/-- From s to u the warden has become active in its roles, for the reason that event gives (R640, R641, R655, R656, R678). -/
def BecameActive (event : Nat) (s u : State) : Prop :=
  u.ward.active = true ∧ u.ward.rackClaim = min 0xFFFE (nextClaim s 0) ∧
  u.ward.rowClaim = (if s.ward.rowRole then min 0xFFFE (nextClaim s 1) else s.ward.rowClaim) ∧ u.ward.misses = 0 ∧ u.ward.handover = none ∧ u.ward.notMine = 0 ∧
  u.ward.notInForce = false ∧ u.ward.roleAt = s.ao.rowTime ∧ Recorded 0x0421 [(20, 1, event), (22, 2, u.ward.rackClaim)] u ∧
  (0xFFFF ≤ nextClaim s 0 → Recorded 0x0421 [(20, 1, 6)] u) ∧
  (∀ d, s.ward.copy = some d → (∀ i, i < 32 → (u.slotBook i).cap = fld d (144 + 4 * i) 2) ∧ u.ward.v = ((sext 32 (fld d 272 4) : Int) : Rat)) ∧
  (∀ e ∈ (stageMap s 0).zipIdx, e.1.commanded = true → outAt u 0 e.2 = firstOut s 0 e.2 e.1) ∧
  (MaySend s 0 → Queued 0 0x20 none (hbBody u 0) s u) ∧ WardStored u ∧ (s.adit.a5out = [] → (upLinks s).length ≤ 64 → u.adit.a5out.map (·.1) = upLinks s) ∧
  Only [.adit, .bus, .ward, .mgmt] s u

/-- From s to u the warden has become standby, for the reason that event gives (R654, R659). -/
def BecameStandby (event : Nat) (s u : State) : Prop :=
  u.ward.active = false ∧ u.ward.canary = false ∧ u.ward.handover = none ∧ u.ward.misses = 0 ∧ u.ward.pol = s.ward.pol ∧ u.ward.rackClaim = s.ward.rackClaim ∧
  Recorded 0x0421 [(20, 1, event)] u ∧
  (∀ b i t, b < 2 → tget none (u.onBus b).tx i = some t → t.waiting = true → t.tx.frame.msg ∉ [0x04, 0x10, 0x22, 0x31, 0x32, 0x41, 0x50, 0x62])

/-- The copy of a link frame that counts: the lane is up and the SEQ new, the payload within its length (R647, R648). -/
def LinkTakes (s : State) (lane seq maxLen : Nat) (payload : Bytes) : Prop :=
  s.stew = true ∧ s.ward.rackRole = true ∧ lane < 2 ∧ payload.length ≤ maxLen ∧ (s.ward.lanes.getD lane {}).up = true ∧ s.ward.wlSeq ≠ some seq

/-- What such a frame leaves whatever it says. -/
def linkTook (lane seq : Nat) (s : State) : State :=
  s.modWard fun w => { w with lanes := lmod w.lanes lane (fun l => { up := true, good := min 3 (l.good + 1) }), wlSeq := some seq }

/-- The commands that bring a frame of the warden link, with the length each may have (Table WARD-5). -/
def wlCmds : List (Nat × (Nat → Nat → Bool → Bytes → Sys2Proof.Instr)) :=
  [(512, .wlState), (1024, .wlMirror), (4, .handover), (4, .handoverAck), (0, .keepalive)]

/-- Node n's entry of a stage table, and its other nodes' (R656). -/
def StageOnly (b n : Nat) (s u : State) : Prop := ∀ m, m ≠ n → u.stage b m = s.stage b m

/-- The segments of a block that have come so far, with this one among them (R651). -/
def segsWith (s : State) (d : Bytes) : Tbl Bytes :=
  tins (match s.ward.mirrorIn with
    | some (b, k, t) => if b = byteAt d 0 ∧ k = byteAt d 2 ∧ ¬ t.any (fun e => e.1 == byteAt d 1) then t else []
    | none => []) (byteAt d 1) (d.drop 4)

/-- All segments of the block that d is one of have come. -/
def SegsAll (s : State) (d : Bytes) : Prop := ∀ i, i < byteAt d 2 → ∃ e ∈ segsWith s d, e.1 = i

/-- What a standby takes from a mirror segment (R651). -/
def MirrorTaken (d : Bytes) (s u : State) : Prop :=
  (SegsAll s d → u.ward.pol = takeBlock s.ward.pol (byteAt d 0) ((segsWith s d).flatMap (·.2)) ∧ u.ward.mirrorIn = none ∧ WardStored u) ∧
  (¬ SegsAll s d → u.ward.pol = s.ward.pol ∧ u.ward.mirrorIn = some (byteAt d 0, byteAt d 2, segsWith s d) ∧ u.mgmt = s.mgmt)

/-- Policy commands that a role's active warden alone takes, with the role each is for (R679). -/
def activeCmds : List (Sys2Proof.Instr × (Bytes → Nat)) :=
  [(.setStageMap, fun d => byteAt d 24), (.setBudget, fun _ => 1), (.setExchange, fun _ => 1), (.setSlew, fun _ => 0), (.setLeak, fun _ => 0), (.slotValve, fun _ => 0),
   (.slotRelease, fun _ => 0), (.leakReset, fun d => byteAt d 24)]

/-- What follows a request's answer: what the management plane sees to, once for the effect and once for the command. -/
def watch2 (s : State) : State := watch (watch s)

/-- Every command that answers a request of the endpoint, with the requests it answers (Tables MGMT-1, MGMT-2 and MGMT-15). -/
def reqCmds : List (Sys2Proof.Instr × (Bytes → Bool)) :=
  [(.setEndpointId, isCtl 1), (.getEndpointId, isCtl 2), (.getEndpointUuid, isCtl 3), (.getMctpVersionSupport, isCtl 4), (.getMessageTypeSupport, isCtl 5),
   (.unsupportedMctpControl, fun m => mType m == 0 && !(decide (1 ≤ byteAt m 2) && decide (byteAt m 2 ≤ 5))),
   (.getTid, isPldm 0 2), (.setTid, isPldm 0 1), (.getPldmVersion, isPldm 0 3), (.getPldmTypes, isPldm 0 4), (.getPldmCommands, isPldm 0 5),
   (.unsupportedPldm, fun m => mType m == 1 && !(pldmCmds (byteAt m 2 % 64)).contains (byteAt m 3)),
   (.setEventReceiver, isPldm 2 4), (.getPdrRepositoryInfo, isPldm 2 0x50), (.getPdr, isPldm 2 0x51), (.getSensorReading, isPldm 2 0x11),
   (.getStateSensorReadings, isPldm 2 0x21), (.setNumericEffecterValue, isPldm 2 0x31), (.getNumericEffecterValue, isPldm 2 0x32),
   (.setStateEffecterStates, isPldm 2 0x39), (.getStateEffecterStates, isPldm 2 0x3A),
   (.fwWrite, fun m => mType m == 0x7E && byteAt m 3 == 0x01), (.fwVerify, fun m => mType m == 0x7E && byteAt m 3 == 0x02),
   (.fwActivate, fun m => mType m == 0x7E && byteAt m 3 == 0x03), (.getNonce, fun m => mType m == 0x7E && byteAt m 3 == 0x10),
   (.ownerEnrol, fun m => mType m == 0x7E && byteAt m 3 == 0x11), (.returnRequest, fun m => mType m == 0x7E && byteAt m 3 == 0x12),
   (.retireRequest, fun m => mType m == 0x7E && byteAt m 3 == 0x13), (.debugUnlock, fun m => mType m == 0x7E && byteAt m 3 == 0x14),
   (.makerTransition, fun m => mType m == 0x7E && byteAt m 3 == 0x15)]

/-- Request r is the oldest that command i answers. -/
def Requested (i : Sys2Proof.Instr) (s : State) (r : MctpReq) : Prop := s.stew = true ∧ ∃ p, (i, p) ∈ reqCmds ∧ s.mgmt.reqs.find? (fun r => p r.body) = some r

/-- ... and the endpoint is not erasing, so that it is carried out (R719). -/
def Open (i : Sys2Proof.Instr) (s : State) (r : MctpReq) : Prop := Requested i s r ∧ s.mgmt.erasing = false

/-- From s to u the message `out` has been sent in answer to r, and the request is done with (R688). -/
def Replied (r : MctpReq) (out : Bytes) (s u : State) : Prop :=
  u.mgmt.out = s.mgmt.out ++ [{ binding := r.binding, body := out }] ∧ u.mgmt.reqs.length + 1 = s.mgmt.reqs.length ∧ (∀ q ∈ u.mgmt.reqs, q ∈ s.mgmt.reqs)

/-- ... and nothing else has changed. -/
def RepliedOnly (r : MctpReq) (out : Bytes) (s u : State) : Prop :=
  Replied r out s u ∧ { u.mgmt with out := s.mgmt.out, reqs := s.mgmt.reqs } = s.mgmt ∧ Only [.mgmt] s u

/-- The payload of a vendor request, from its vendor ID on (R718). -/
def venData (r : MctpReq) : Bytes := r.body.drop 1

/-- The signed requests: their command, the key each takes in each life-cycle state, and their own conditions (Tables MGMT-14 and MGMT-15, R720). -/
def signedCmds : List (Sys2Proof.Instr × (LifeCycle → Option Bool) × (Bytes → State → Nat)) :=
  [(.returnRequest, keyFor [.field], fun _ s => if 2 ≤ s.mgmt.fuses.returns then 4 else if s.sup.mainEn then 1 else 0),
   (.retireRequest, keyFor [.field, .maker, .returned], fun _ s => if s.mgmt.fuses.lc = .field ∧ s.sup.mainEn = true then 1 else 0),
   (.debugUnlock, keyFor [.field, .returned], fun _ _ => 0),
   (.makerTransition, keyFor [.maker, .returned], fun v s => if makerMoves s.mgmt.fuses.lc (byteAt v 44) then 0 else 7)]

/-- The checks of R716 give this status for a request with payload v. -/
def SignedStatus (permit : LifeCycle → Option Bool) (cond : Bytes → State → Nat) (v : Bytes) (s : State) (st : Nat) : Prop :=
  match permit s.mgmt.fuses.lc with
  | none => st = 7
  | some maker => if v.length ≠ 256 then st = 6 else if signedCheck maker v s ≠ 0 then st = signedCheck maker v s else st = cond v s

/-- A signed request is accepted (R716). -/
def Signed (i : Sys2Proof.Instr) (s : State) (r : MctpReq) : Prop := Open i s r ∧ ∃ permit cond, (i, permit, cond) ∈ signedCmds ∧ SignedStatus permit cond (venData r) s 0

/-- From s to u the module goes to life-cycle state c: its fuses and the module reset that ends it (R713). -/
def Transits (c : LifeCycle) (s u : State) : Prop :=
  u.mgmt.fuses = { s.mgmt.fuses with lc := c } ∧ u.ao = { s.ao with resetDue := some 22 } ∧ u.mgmt.nonce = none ∧ Recorded 0x0505 [(20, 1, 4), (21, 1, 0)] u ∧ Recorded 0x0505 [(20, 1, 5), (21, 1, 0)] u

/-- A packet on SMBus that is a whole message for this endpoint, to m (R686, R688). -/
def WholeMessage (p m : Bytes) (s : State) : Prop :=
  s.stew = true ∧ (byteAt p 1 = 0 ∨ byteAt p 1 = s.mgmt.eidSmbus) ∧ bit (byteAt p 3) 7 = true ∧ bit (byteAt p 3) 6 = true ∧ m = p.drop 4 ∧ m.length ≤ 1024

/-- A message the endpoint takes as a request (R686, R687). -/
def TakenAsRequest (m : Bytes) (s : State) : Prop :=
  mSupported m = true ∧ (mType m ≠ 0x7E → mRequest m = true) ∧ (mType m = 0x7E → byteAt m 3 ∈ vendorCmds) ∧ (s.mgmt.eidSmbus ≠ 0 ∨ mType m = 0)

/-- From s to u the host has shown activity (R702). -/
def HostSeen (s u : State) : Prop := u.mgmt.lastHost = s.ao.rowTime ∧ u.mgmt.silent = false ∧ (s.mgmt.silent = true → Recorded 0x0502 [(20, 1, 0)] u) ∧ (s.mgmt.silent = false → u.adit = s.adit)

/-- The commands that may change what configuration requests and resets set: those requests, function resets, and what takes the compute plane down or brings it up. -/
def setsConfig (c : Sys2Proof.Instr) : Bool :=
  match c with
  | .configRequest _ _ | .controlPlaneReady | .vfEnableSet | .vfEnableClear | .vfRrsEnd | .flr _ | .flrComplete _ | .d3hotEntry _
  | .busMasterEnableClear _ | .busMasterEnableSet _ | .atsEnableChange _ _ | .setStateEffecterStates | .moduleCycle | .stackReadout _ _
  | .auxApplied _ _ _ _ | .auxBrownOut | .moduleReset _ _ _ | .stewardBootComplete | .pciePerstAssert | .pciePerstDeassert | .hotReset | .dlDown
  | .tapInstruction _ | .dieTrip | .leakTapeWet | .externalTrip _ | .mainSupplyTimeout | .mainPlanesReady | .mainLost | .mainOffRelease => true
  | _ => false

/-- The commands that meet both sides of the module at once: resets, trips, MAIN power, function resets, VDD_CORE droops and stack readings. -/
def couples (c : Sys2Proof.Instr) : Bool :=
  match c with
  | .auxApplied _ _ _ _ | .auxBrownOut | .moduleReset _ _ _ | .stewardBootComplete | .pciePerstAssert | .pciePerstDeassert | .hotReset | .dlDown
  | .tapInstruction _ | .dieTrip | .leakTapeWet | .externalTrip _ | .mainSupplyTimeout | .mainPlanesReady | .mainLost | .mainOffRelease | .vfEnableClear
  | .flr _ | .d3hotEntry _ | .droopCrossing _ | .stackReadout _ _ | .moduleCycle | .setStateEffecterStates => true
  | _ => false

end Sys2Proof.Machine
end

