-- ==== Sys2Proof/Certificates/Slice0/Obligations.lean ====
section
/-! DEFINITION. The statements. -/

open Sys2Proof Sys2Proof.Machine

/-! ### The host link -/

/-- R124, R125, R152, R163: how a configuration request is answered, and what each write of the configuration space sets.
The model's own choices in it: log entries 1, 4, 9, 12, 13. -/
def Obligations.ConfigRequestsAnswered : Prop :=
  (∀ s f op, Answers s f → Effects answered (.configRequest f op) s fun u =>
    match op with
    | .read => u = s
    | .setMse on => u = s.modFn f fun x => { x with mse := on && !x.flr && !x.d3 }
    | .setMsixEnable on => u = s.modFn f fun x => { x with msixEn := on }
    | .setFunctionMask on => (on = true → u = s.modFn f fun x => { x with fnMask := true }) ∧ (u.fn f).fnMask = on ∧ Only [.host] s u
    | .setLnr en lim => u = s.modFn f fun x => { x with lnrEn := en, lnrLimit := lim % 32 }
    | .setCompletionTimeout us => u = s.modFn f fun x => { x with cplTimeoutUs := max 50 (min us 64000000) }
    | .setAri on => u = if f = 0 then s.modHost fun h => { h with ari := on } else s
    | .setNumVfs n => u = if f = 0 ∧ s.host.vfEn = false ∧ n ≤ 255 then s.modHost fun h => { h with numVfs := n } else s
    | .setVfMse on => u = if f = 0 then s.modHost fun h => { h with vfMse := on } else s
    | .setAspmL1 on => u = if f = 0 then s.modHost fun h => { h with aspmL1 := on } else s
    | .setTags10 on => u = if f = 0 then s.modHost fun h => { h with tags10 := on } else s
    | .setEcrcCheck on => u = s.modFn f fun x => { x with ecrc := on }
    | .setD0 => u = s.modFn f fun x => { x with d3 := false }
    | .clearAer => u = s.modFn f fun x => { x with aerCor := [], aerUnc := [], aerHdr := [] }) ∧
  (∀ s f op, s.host.linkUp = true → s.host.ready = false → exec (.configRequest f op) s = .next (settle (reply .rrs s))) ∧
  (∀ s f op, s.host.linkUp = true → s.host.ready = true → (s.fn f).present = false →
    Effects (fun u => settle (reply .ur u)) (.configRequest f op) s fun u => .unsupportedRequest ∈ (u.fn 0).aerUnc ∧ FnOnly 0 s u) ∧
  (∀ s f op, s.host.linkUp = true → s.host.ready = true → (s.fn f).present = true → (s.fn f).rrs = true →
    exec (.configRequest f op) s = .next (settle (reply .rrs s)))

/-- R121 to R126, R150, R160, R163, R169: the rows of the configuration space that are commands of their own.
The model's own choices in it: log entries 1, 4, 9, 13. -/
def Obligations.ConfigurationCommands : Prop :=
  (∀ s, s.up = true → s.host.linkUp = true → exec .controlPlaneReady s = .next (s.modHost fun h => { h with ready := true })) ∧
  (∀ s f, Answers s f → Effects answered (.busMasterEnableClear f) s fun u =>
    u.fn f = { s.fn f with bme := false, reading := false, tagWait := none } ∧ FnOnly f s u) ∧
  (∀ s f, Answers s f → (s.fn f).flr = false → (s.fn f).d3 = false →
    Effects (fun u => answered (settle u)) (.busMasterEnableSet f) s fun u =>
      cfgOf (u.fn f) = cfgOf { s.fn f with bme := true } ∧ ∀ g, g ≠ f → cfgOf (u.fn g) = cfgOf (s.fn g)) ∧
  (∀ s f on, Answers s f → Effects answered (.atsEnableChange f on) s fun u =>
    u.fn f = { s.fn f with atsEn := on } ∧ u.host.atc = s.host.atc.filter (fun e => e.fn != f) ∧ (∀ g, g ≠ f → u.fn g = s.fn g) ∧ Only [.host] s u) ∧
  (∀ s, Answers s 0 → s.host.vfEn = false → (s.host.numVfs ≤ 7 ∨ s.host.ari = true) → Effects answered .vfEnableSet s fun u =>
    u.host.vfEn = true ∧ (∀ v, 1 ≤ v → v ≤ s.host.numVfs →
      (u.fn v).present = true ∧ (u.fn v).rrs = true ∧ (u.fn v).bme = false ∧ (u.fn v).flr = (s.fn v).flr ∧ (u.cage v).st = .dormant) ∧
    u.fn 0 = s.fn 0 ∧ Only [.host, .cages] s u) ∧
  (∀ s, Answers s 0 → s.host.vfEn = false → 7 < s.host.numVfs → s.host.ari = false → Effects answered .vfEnableSet s fun u =>
    u = s.modFn 0 fun x => { x with errAri := true }) ∧
  (∀ s, Answers s 0 → s.host.vfEn = true → Effects (fun u => answered (settle u)) .vfEnableClear s fun u =>
    u.host.vfEn = false ∧ u.ao.cause.scope = 0 ∧ u.ao.cause.trigger = 3 ∧ u.ao.cause.rowTime = s.ao.rowTime) ∧
  (∀ s, s.up = true → (∀ v, 1 ≤ v → v ≤ 255 → (s.fn v).flr = false) → Effects settle .vfRrsEnd s fun u =>
    (∀ v, 1 ≤ v → v ≤ 255 → u.fn v = { s.fn v with rrs := false }) ∧ u.fn 0 = s.fn 0 ∧ Only [.host] s u)

/-- R156 to R159, R224, R705: a function reset takes a function's configuration back to its reset values, keeps its cause, and ends with FLR_COMPLETE.
The model's own choices in it: log entries 1, 4, 9, 13, 14, 60. -/
def Obligations.FunctionResets : Prop :=
  (∀ s f, Answers s f → f ≠ 0 → (s.fn f).flr = false → Effects (fun u => answered (settle u)) (.flr f) s fun u =>
    cfgOf (u.fn f) = cfgOf { present := true, flr := true, ecrc := (s.fn f).ecrc } ∧
    u.ao.cause.scope = 0 ∧ u.ao.cause.trigger = 1 ∧ u.ao.cause.rowTime = s.ao.rowTime) ∧
  (∀ s f, Answers s f → f ≠ 0 → (s.fn f).flr = false → Effects (fun u => answered (settle u)) (.d3hotEntry f) s fun u =>
    cfgOf (u.fn f) = cfgOf { present := true, flr := true, d3Pending := true, ecrc := (s.fn f).ecrc } ∧
    u.ao.cause.scope = 0 ∧ u.ao.cause.trigger = 4 ∧ u.ao.cause.rowTime = s.ao.rowTime) ∧
  (∀ s, Answers s 0 → (s.fn 0).flr = false → Effects (fun u => answered (settle u)) (.flr 0) s fun u =>
    cfgOf (u.fn 0) = cfgOf { present := true, flr := true, ecrc := (s.fn 0).ecrc } ∧ u.host.vfEn = false ∧ u.host.numVfs = 0 ∧
    u.ao.cause.scope = 0 ∧ u.ao.cause.trigger = 2 ∧ u.ao.cause.rowTime = s.ao.rowTime) ∧
  (∀ s f, Answers s f → (s.fn f).flr = true → exec (.flr f) s = .next (answered s)) ∧
  (∀ s f, Answers s f → (s.fn f).flr = true → Effects answered (.d3hotEntry f) s fun u => u = s.modFn f fun x => { x with d3Pending := true }) ∧
  (∀ s f, s.up = true → (s.fn f).flr = true → Effects (fun u => settle (settle u)) (.flrComplete f) s fun u =>
    u.fn f = { s.fn f with flr := false, d3 := (s.fn f).d3Pending, d3Pending := false } ∧ (∀ g, g ≠ f → u.fn g = s.fn g) ∧
    u.rings = { s.rings with ctxs := s.rings.ctxs.filter (fun e => !(e.2.cage == f && e.2.ph == .dropped)) } ∧ Only [.host, .rings] s u)

/-- R152, R154: errors are logged in the AER capability of the function they concern.
The model's own choices in it: log entries 1, 4, 9, 60. -/
def Obligations.ErrorsAreLogged : Prop :=
  (∀ s, s.up = true → Effects settle .receiverError s fun u => .receiverError ∈ (u.fn 0).aerCor ∧ (u.fn 0).aerUnc = (s.fn 0).aerUnc ∧ FnOnly 0 s u) ∧
  (∀ s, s.up = true → Effects settle .correctedInternalError s fun u => .correctedInternal ∈ (u.fn 0).aerCor ∧ (u.fn 0).aerUnc = (s.fn 0).aerUnc ∧ FnOnly 0 s u) ∧
  (∀ s, s.up = true → Effects settle .malformedTlp s fun u => .malformedTlp ∈ (u.fn 0).aerUnc ∧ (u.fn 0).aerCor = (s.fn 0).aerCor ∧ FnOnly 0 s u) ∧
  (∀ s, s.up = true → Effects settle .uncorrectableInternalError s fun u =>
    .uncorrectableInternal ∈ (u.fn 0).aerUnc ∧ u.host.fetchStopped = true ∧ (∀ g, g ≠ 0 → u.fn g = s.fn g) ∧ Only [.host] s u) ∧
  (∀ s f, s.up = true → Effects settle (.unsupportedRequest f) s fun u =>
    .unsupportedRequest ∈ (u.fn (loggedAt s f)).aerUnc ∧ FnOnly (loggedAt s f) s u) ∧
  (∀ s f, Reaches s f → Effects settle (.poisonedWindowWrite f) s fun u => .poisonedTlp ∈ (u.fn f).aerUnc ∧ FnOnly f s u) ∧
  (∀ s f, s.up = true → (s.fn f).ecrc = true → Effects settle (.ecrcError f none) s fun u =>
    .ecrcError ∈ (u.fn (loggedAt s f)).aerUnc ∧ FnOnly (loggedAt s f) s u) ∧
  (∀ s f id r, s.up = true → (s.fn f).ecrc = true → ReadOut s id r → Effects (fun u => settle (readFailed r 0x21 u)) (.ecrcError f (some (.data id))) s fun u =>
    .ecrcError ∈ (u.fn r.fn).aerUnc ∧ u.host.reqs = s.host.reqs.filter (fun q => q.id != id) ∧ Only [.host] s u) ∧
  (∀ s f ref, s.up = true → (s.fn f).ecrc = false → exec (.ecrcError f ref) s = .next (settle s))

/-- R147 to R149, R154, R262, R791, R792: translations, completions, invalidations and acknowledgements.
The model's own choices in it: log entries 1, 4, 9. -/
def Obligations.RequestsEnd : Prop :=
  (∀ s id r bs, s.up = true → ReadOut s id r → bs.length = r.len →
    Effects (fun u => settle (readDone r bs u)) (.hostReadCompletion id (.data bs)) s (Dropped id s)) ∧
  (∀ s id r, s.up = true → ReadOut s id r → Effects (fun u => settle (readFailed r 0x21 u)) (.hostReadCompletion id .ur) s (Dropped id s)) ∧
  (∀ s id r, s.up = true → ReadOut s id r → Effects (fun u => settle (readFailed r 0x21 u)) (.hostReadCompletion id .ca) s (Dropped id s)) ∧
  (∀ s id r, s.up = true → ReadOut s id r → Effects (fun u => settle (readFailed r 0x21 u)) (.hostReadCompletion id .poison) s fun u =>
    .poisonedTlp ∈ (u.fn r.fn).aerUnc ∧ u.host.reqs = s.host.reqs.filter (fun q => q.id != id) ∧ Only [.host] s u) ∧
  (∀ s id res, s.up = true → (∀ r, ¬ReadOut s id r) → Effects settle (.hostReadCompletion id res) s fun u =>
    .unexpectedCompletion ∈ (u.fn 0).aerUnc ∧ FnOnly 0 s u) ∧
  (∀ s id r, s.up = true → ReadOut s id r → Effects (fun u => settle (readFailed r 0x21 u)) (.completionTimeout (.data id)) s fun u =>
    .completionTimeout ∈ (u.fn r.fn).aerUnc ∧ u.host.reqs = s.host.reqs.filter (fun q => q.id != id) ∧ Only [.host] s u) ∧
  (∀ s f d rest, s.up = true → (s.fn f).readsOut = d :: rest → d.discard = false → Effects (fun u => settle (dblFailed f 0x21 u)) (.completionTimeout (.doorbell f)) s fun u =>
    .completionTimeout ∈ (u.fn f).aerUnc ∧ (u.fn f).readsOut = rest ∧ FnOnly f s u) ∧
  (∀ s i bs w, s.up = true → (s.slot i).rd = some w → Effects (fun u => settle (descrArrive i bs true u)) (.completionTimeout (.descr i bs)) s fun u =>
    .completionTimeout ∈ (u.fn ((s.slot i).ring / 16)).aerUnc ∧ FnOnly ((s.slot i).ring / 16) s u) ∧
  (∀ s id r, s.up = true → XlOut s id r → Effects (fun u => settle (xlRefused r u)) (.translationCompletion id .refused) s (Dropped id s)) ∧
  (∀ s id r log2 base rd wr, s.up = true → XlOut s id r → (if r.wr then wr else rd) = true →
    Effects (fun u => settle (translated r u)) (.translationCompletion id (.granted log2 base rd wr)) s fun u =>
      u.host.atc.head? = some { fn := r.fn, base := r.addr.toNat / 2 ^ log2 * 2 ^ log2, log2 := log2, target := base, rd := rd, wr := wr } ∧
      u.host.atc.length ≤ 2048 ∧ u.host.reqs = s.host.reqs.filter (fun q => q.id != id) ∧ Only [.host] s u) ∧
  (∀ s f base log2, s.up = true → Effects settle (.invalidateRequest f base log2) s fun u =>
    (∀ e ∈ u.host.atc, e ∈ s.host.atc ∧ ¬(e.fn = f ∧ e.base < base + 2 ^ log2 ∧ base < e.base + 2 ^ e.log2)) ∧
    u.host.invals = s.host.invals ++ [{ fn := f, base := base, log2 := log2 }] ∧ u.host.reqs = s.host.reqs ∧ Only [.host] s u) ∧
  (∀ s f base log2, s.up = true → ({ fn := f, base := base, log2 := log2 } : Inval) ∈ s.host.invals → rangeUsed s f base log2 = false →
    Effects settle (.invalidateComplete f base log2) s fun u => u = s.modHost fun h => { h with invals := h.invals.erase { fn := f, base := base, log2 := log2 } }) ∧
  (∀ s n, s.up = true → Effects settle (.ackDllp n) s fun u =>
    u.host = { s.host with tx := s.host.tx.drop n } ∧ (∀ k, (s.ctx k).ph ≠ .written → u.ctx k = s.ctx k) ∧
    (∀ t ∈ s.host.tx.take n, ∀ k, t.ctx = some k → (s.ctx k).ph = .written → (u.ctx k).ph = .free) ∧ Only [.host, .rings] s u)

/-- R142, R161, R170 to R182, R218, R793: interrupts, the link's L1, MCTP packets and the doorbell lines.
The model's own choices in it: log entries 1, 4, 9. -/
def Obligations.InterruptsAndMessages : Prop :=
  (∀ s f v, Reaches s f → v < vecCount f → Effects (flushMsi f) (.msixUnmask f v) s fun u =>
    (u.fn f).vec v = { (s.fn f).vec v with masked := false } ∧ (∀ w, w ≠ v → (u.fn f).vec w = (s.fn f).vec w) ∧ FnOnly f (awake s) u) ∧
  (∀ s f r, s.up = true → r < 16 → (s.ring (ringKey f r)).coalRun = true →
    Effects (fun u => settle (sendMsi f (s.ring (ringKey f r)).taken.vector u)) (.coalTimeExpiry f r) s fun u =>
      u = s.modRing (ringKey f r) fun q => { q with unann := 0, coalRun := false }) ∧
  (∀ s f, s.up = true → (s.rpt f).coalRun = true →
    Effects (fun u => settle (sendMsi f (s.rpt f).taken.vector u)) (.coalTimeExpiry f 16) s fun u =>
      u = s.modRpt f fun q => { q with unann := 0, coalRun := false }) ∧
  (∀ s, s.up = true → l1Allowed s = true → Effects settle .aspmL1Entry s fun u => u = s.modHost fun h => { h with inL1 := true }) ∧
  (∀ s p, s.up = true → s.sup.steward = true → Effects settle (.mctpVdm 0 p) s fun u => u = s.modAdit fun a => { a with a3up := a.a3up ++ [.mctp p] }) ∧
  (∀ s p, s.up = true → s.sup.steward = false → Effects settle (.mctpVdm 0 p) s fun u =>
    u = s.modRings fun r => { r with mctpDropped := min 65535 (r.mctpDropped + 1) }) ∧
  (∀ s f p, s.up = true → f ≠ 0 → exec (.mctpVdm f p) s = .next (settle s))

/-- R135 to R138, R169 to R178, R189, R793: the doorbell lines.
The model's own choices in it: log entries 1, 4, 9. -/
def Obligations.DoorbellLines : Prop :=
  (∀ s f v, Reaches s f → (s.fn f).dblEn = false → (s.fn f).dblAddr ≠ 0 → Effects id (.dblCtlEnSet f v) s fun u =>
    (u.fn f).dblEn = true ∧ (u.fn f).dblLn = v.getLsbD 1 ∧ (u.fn f).hotHold = v.getLsbD 2 ∧ (u.fn f).prev = [] ∧
    (u.fn f).dblAddr = (s.fn f).dblAddr ∧ FnOnly f (awake s) u) ∧
  (∀ s f v, Reaches s f → (s.fn f).dblEn = false → (s.fn f).dblAddr = 0 → Effects id (.dblCtlEnSet f v) s fun u =>
    (u.fn f).dblEn = false ∧ (u.fn f).errDbl = true ∧ FnOnly f (awake s) u) ∧
  (∀ s f v, Reaches s f → (s.fn f).dblEn = true → Effects id (.dblCtlEnClear f v) s fun u =>
    (u.fn f).dblEn = false ∧ (u.fn f).reading = false ∧ (∀ d ∈ (u.fn f).readsOut, d.discard = true) ∧
    (u.fn f).readsOut.length = (s.fn f).readsOut.length ∧ FnOnly f (awake s) u) ∧
  (∀ s f a, s.up = true → usesLn (s.fn f) = false → (s.fn f).reading = true → dblTags s < 64 → xlate s f (s.fn f).dblAddr false = .go a →
    Effects settle (.doorbellPoll f) s fun u =>
      (u.fn f).readsOut = (s.fn f).readsOut ++ [{ kind := .poll, discard := false }] ∧ (u.fn f).tagWait = none ∧ u.host.inL1 = false ∧
      u.host.reqs = s.host.reqs ∧ (∀ g, g ≠ f → u.fn g = s.fn g) ∧ Only [.host] s u) ∧
  (∀ s f, s.up = true → usesLn (s.fn f) = false → (s.fn f).reading = true → 64 ≤ dblTags s →
    Effects settle (.doorbellPoll f) s fun u => u = s.modFn f fun x => { x with tagWait := some .poll }) ∧
  (∀ s f k a, s.up = true → (s.fn f).tagWait = some k → (s.fn f).reading = true → dblTags s < 64 → xlate s f (s.fn f).dblAddr false = .go a →
    Effects settle (.doorbellTagFree f) s fun u =>
      (u.fn f).readsOut = (s.fn f).readsOut ++ [{ kind := k, discard := false }] ∧ (u.fn f).tagWait = none ∧
      (∀ g, g ≠ f → u.fn g = s.fn g) ∧ Only [.host] s u) ∧
  (∀ s f a, s.up = true → usesLn (s.fn f) = true → (s.fn f).lnRegistered = true → (s.fn f).reading = true → dblTags s < 64 →
    xlate s f (s.fn f).dblAddr false = .go a → Effects settle (.lnMessage f) s fun u =>
      (u.fn f).readsOut = (s.fn f).readsOut ++ [{ kind := .lnMessage, discard := false }] ∧ (u.fn f).lnAnnounced = true ∧
      (∀ g, g ≠ f → u.fn g = s.fn g) ∧ Only [.host] s u) ∧
  (∀ s f a, s.up = true → usesLn (s.fn f) = true → (s.fn f).reading = true → dblTags s < 64 → xlate s f (s.fn f).dblAddr false = .go a →
    Effects settle (.lnBackstop f) s fun u =>
      (u.fn f).readsOut = (s.fn f).readsOut ++ [{ kind := .backstop, discard := false }] ∧ (∀ g, g ≠ f → u.fn g = s.fn g) ∧ Only [.host] s u) ∧
  (∀ s f d rest bs, s.up = true → (s.fn f).readsOut = d :: rest → d.discard = false → bs.length = 64 →
    (∀ r, r < 16 → (s.ring (ringKey f r)).en = true → lineIndex bs r = tget 0 (s.fn f).prev r) →
    Effects settle (.doorbellReadComplete f (.data bs)) s fun u =>
      (u.fn f).readsOut = rest ∧ (u.fn f).fails = 0 ∧ (∀ r, r < 16 → tget 0 (u.fn f).prev r = lineIndex bs r) ∧ FnOnly f s u) ∧
  (∀ s f d rest bs k, s.up = true → (s.fn f).readsOut = d :: rest → d.discard = false → bs.length = 64 →
    k < 16 → (s.ring (ringKey f k)).en = true → lineIndex bs k ≠ tget 0 (s.fn f).prev k →
    Effects settle (.doorbellReadComplete f (.data bs)) s fun u => (u.ring (ringKey f k)).p = lineIndex bs k) ∧
  (∀ s f d rest res, s.up = true → (s.fn f).readsOut = d :: rest → d.discard = false → res = .ur ∨ res = .ca → (s.fn f).fails < 2 →
    Effects settle (.doorbellReadComplete f res) s fun u =>
      (u.fn f).readsOut = rest ∧ (u.fn f).fails = (s.fn f).fails + 1 ∧ (u.fn f).dblEn = (s.fn f).dblEn ∧ FnOnly f s u) ∧
  (∀ s f d rest res, s.up = true → (s.fn f).readsOut = d :: rest → d.discard = true → res = .ur ∨ res = .ca →
    Effects settle (.doorbellReadComplete f res) s fun u => u = popped f s)

/-! ### Rings, slots and commands -/

/-- R187, R190, R199, R211: an issued descriptor takes the lowest free context, and one that fails a check of R199 ends with that check's status.
The model's own choices in it: log entries 1, 4, 9. -/
def Obligations.ChecksBeforeExecution : Prop :=
  (∀ x ∈ ringTable, ∀ s f r e df p d st dt, turnOf s f r = some (e, df, p, d) → descOp d = x.1 →
    runChecks x.2.1 ((s.slot e.2.1).ring / 16) d (took e df p d s) = some (st, dt) →
    Effects (ran e) (x.2.2 f r) s (Ended (freeCtx s) st dt 0 (took e df p d s))) ∧
  (∀ x ∈ ringTable, ∀ s f r, turnOf s f r = none → exec (x.2.2 f r) s = .next (settle s)) ∧
  (∀ s f r e df p d, turnOf s f r = some (e, df, p, d) → descOp d ∉ ringTable.map (·.1) →
    Effects (ran e) (.undefinedOpcode f r) s (Ended (freeCtx s) 0x10 0 0 (took e df p d s))) ∧
  (∀ s f r e df p d, turnOf s f r = some (e, df, p, d) →
    ((took e df p d s).ctx (freeCtx s)).ph = .prep ∧ ((took e df p d s).ctx (freeCtx s)).ring = ringKey f r ∧
    ((took e df p d s).ctx (freeCtx s)).index = p ∧ ((took e df p d s).ctx (freeCtx s)).tag = BitVec.ofNat 64 (fld d 8 8) ∧
    ((took e df p d s).ctx (freeCtx s)).irq = bit (byteAt d 1) 1 ∧ ((took e df p d s).slot e.2.1).buf = (s.slot e.2.1).buf.drop 1 ∧
    Only [.rings] s (took e df p d s))

/-- R192 to R195, R210: the commands that end at once, and the waits on an event.
The model's own choices in it: log entries 1, 4, 9. -/
def Obligations.SmallCommands : Prop :=
  (∀ s f r e df p d, Taken specNop 0x00 f r s e df p d → Effects (ran e) (.nop f r) s (Ended (freeCtx s) 0 0 0 (took e df p d s))) ∧
  (∀ s f r e df p d, Taken specSignal 0x05 f r s e df p d → Effects (ran e) (.eventSignal f r) s fun u =>
    ∃ v, v = s.event ((s.slot e.2.1).ring / 16) (byteAt d 16) + BitVec.ofNat 64 (opB d) ∧
    u.event ((s.slot e.2.1).ring / 16) (byteAt d 16) = v ∧ (u.ctx (freeCtx s)).ph = .ending ∧ (u.ctx (freeCtx s)).status = 0 ∧
    (u.ctx (freeCtx s)).result = v.toNat ∧ Only [.rings] s u) ∧
  (∀ s f r e df p d, Taken specWait 0x06 f r s e df p d → opB d ≤ (s.event ((s.slot e.2.1).ring / 16) (byteAt d 16)).toNat →
    Effects (ran e) (.eventWait f r) s (Ended (freeCtx s) 0 0 (s.event ((s.slot e.2.1).ring / 16) (byteAt d 16)).toNat (took e df p d s))) ∧
  (∀ s f r e df p d, Taken specWait 0x06 f r s e df p d → (s.event ((s.slot e.2.1).ring / 16) (byteAt d 16)).toNat < opB d →
    Effects (ran e) (.eventWait f r) s fun u => (u.ctx (freeCtx s)).ph = .held ∧ CtxOnly (freeCtx s) (took e df p d s) u) ∧
  (∀ s n, s.up = true → (s.ctx n).ph = .held → (s.ctx n).op = 6 → opB (s.ctx n).desc ≤ waitCounter s n →
    Effects settle (.eventWaitMet n) s (Ended n 0 0 (waitCounter s n) s)) ∧
  (∀ s n, s.up = true → (s.ctx n).ph = .held → (s.ctx n).op = 6 → waitCounter s n < opB (s.ctx n).desc →
    Effects settle (.eventWaitTimeout n) s (Ended n 0x30 0 (waitCounter s n) s)) ∧
  (∀ s f r e df p d a, Taken specHostWrite 0x07 f r s e df p d → (s.fn ((s.slot e.2.1).ring / 16)).bme = true →
    xlate s ((s.slot e.2.1).ring / 16) (BitVec.ofNat 64 (opA d)) true = .go a → Effects (ran e) (.hostWrite f r) s fun u =>
      u.host.tx = s.host.tx ++ [{ fn := (s.slot e.2.1).ring / 16, addr := a, data := (d.drop 24).take 8, ctx := none }] ∧
      (u.ctx (freeCtx s)).ph = .ending ∧ (u.ctx (freeCtx s)).status = 0 ∧ Only [.host, .rings] s u) ∧
  (∀ s f r e df p d, Taken specSched 0x08 f r s e df p d → (s.cage (byteAt d 16)).st = .active → Effects (ran e) (.schedSet f r) s fun u =>
    u.cage (byteAt d 16) = { s.cage (byteAt d 16) with weight := byteAt d 17, ctxLimit := fld d 18 2 } ∧
    (∀ c, c ≠ byteAt d 16 → u.cage c = s.cage c) ∧ (u.ctx (freeCtx s)).ph = .ending ∧ (u.ctx (freeCtx s)).status = 0 ∧ Only [.rings, .cages] s u) ∧
  (∀ s f r e df p d, Taken specSched 0x08 f r s e df p d → (s.cage (byteAt d 16)).st ≠ .active → Effects (ran e) (.schedSet f r) s
    (Ended (freeCtx s) 0x33 (match (s.cage (byteAt d 16)).st with | .dormant => 1 | .ending => 2 | _ => 4) 0 (took e df p d s))) ∧
  (∀ s f r e df p d, Taken specPolicy 0x30 f r s e df p d → Effects (ran e) (.policy f r) s fun u =>
    u.adit.a3up = s.adit.a3up ++ [.policy s.rings.policyTag d] ∧ u.rings.policyTag = s.rings.policyTag + 1 ∧
    u.rings.policies = s.rings.policies ++ [(s.rings.policyTag.toNat, freeCtx s)] ∧ (u.ctx (freeCtx s)).ph = .held ∧ Only [.adit, .rings] s u)

/-- R192, R194, R209, R217, R244, R266, R385: the copies, the fill and the admission's image, once their pages are ready, and the two ways device memory holds them up.
The model's own choices in it: log entries 1, 4, 9. -/
def Obligations.TransfersBegin : Prop :=
  ∀ x ∈ [(0x01, specH2d, Instr.copyH2d, fun d => (pagesOf (opB d) (opLen d), pagesOf (opB d) (opLen d))),
         (0x02, specD2h, Instr.copyD2h, fun d => (pagesOf (opA d) (opLen d), [])),
         (0x03, specD2d, Instr.copyD2d, fun d => ((pagesOf (opA d) (opLen d) ++ pagesOf (opB d) (opLen d)).eraseDups, pagesOf (opB d) (opLen d))),
         (0x04, specFill, Instr.fill, fun d => (pagesOf (opA d) (opLen d), pagesOf (opA d) (opLen d))),
         (0x10, specAdmit, Instr.admitCmd, fun d => (pagesOf (fld d 16 8) (fld d 24 4), []))],
    ∀ s f r e df p d, Taken x.2.1 x.1 f r s e df p d →
      (s.mem.offline = true → Effects (ran e) (x.2.2.1 f r) s (Ended (freeCtx s) 0x33 10 0 (took e df p d s))) ∧
      (s.mem.offline = false → s.mem.trainEnded = false → Effects (ran e) (x.2.2.1 f r) s fun u =>
        (u.ctx (freeCtx s)).trainWait = true ∧ (u.ctx (freeCtx s)).ph = .prep ∧ CtxOnly (freeCtx s) (took e df p d s) u) ∧
      (s.mem.offline = false → s.mem.trainEnded = true → (∀ q ∈ (x.2.2.2 d).1 ++ (x.2.2.2 d).2, PageReady s ((s.slot e.2.1).ring / 16) q) →
        Effects (ran e) (x.2.2.1 f r) s (Begun (freeCtx s) (x.2.2.2 d).1 (x.2.2.2 d).2 (took e df p d s)))

/-- R184 to R187, R196, R202 to R207, R211, R217 to R223: slots, ring set-up, descriptor reads and completions.
The model's own choices in it: log entries 1, 4, 9, 84. -/
def Obligations.RingsAndSlots : Prop :=
  (∀ s i, s.up = true → (s.slot i).st = .swapping → Effects settle (.swapOutComplete i) s fun u => u.slot i = {} ∧ SlotOnly i s u) ∧
  (∀ s i, s.up = true → (s.slot i).st = .loading → Effects settle (.slotStateLoaded i) s fun u => u.slot i = { s.slot i with st := .bound } ∧ SlotOnly i s u) ∧
  (∀ s i, s.up = true → (s.slot i).st = .bound → (s.slot i).idleOrd.isSome = true → Effects settle (.ringIdleTimeout i) s fun u =>
    (u.slot i).st = .swapping ∧ (u.slot i).ring = (s.slot i).ring ∧ (u.slot i).buf = [] ∧ (u.slot i).rd = none ∧
    (∀ j, j ≠ i → u.slot j = s.slot j) ∧ (∀ k, k ≠ (s.slot i).ring → u.ring k = s.ring k) ∧
    (∀ q ps, (s.slot i).buf = q :: ps → (u.ring (s.slot i).ring).f = q.1) ∧ Only [.rings] s u) ∧
  (∀ s i, s.up = true → (s.slot i).st = .bound → Effects settle (.ringBound50us i) s fun u => u.slot i = { s.slot i with fifty := true } ∧ SlotOnly i s u) ∧
  (∀ s f i v, Reaches s f → i < 16 → (s.ring (ringKey f i)).en = false →
    6 ≤ bits v.toNat 5 1 → bits v.toNat 5 1 ≤ 16 → bits v.toNat 16 6 < vecCount f →
    (s.ring (ringKey f i)).reg.sq ≠ 0 → (s.ring (ringKey f i)).reg.cq ≠ 0 → Effects id (.ringEnSet f i v) s fun u =>
      (u.ring (ringKey f i)).en = true ∧ (u.ring (ringKey f i)).taken =
        { (s.ring (ringKey f i)).reg with size := bits v.toNat 5 1, vector := bits v.toNat 16 6, coalCnt := bits v.toNat 22 17, coalTime := bits v.toNat 31 23 } ∧
      (u.ring (ringKey f i)).f = 0 ∧ (u.ring (ringKey f i)).w = 0 ∧ (u.ring (ringKey f i)).p = 0 ∧
      (∀ k, k ≠ ringKey f i → u.ring k = s.ring k) ∧ Only [.host, .rings] s u) ∧
  (∀ s f i v, Reaches s f → i < 16 → (s.ring (ringKey f i)).en = false →
    (bits v.toNat 5 1 < 6 ∨ 16 < bits v.toNat 5 1 ∨ vecCount f ≤ bits v.toNat 16 6 ∨ (s.ring (ringKey f i)).reg.sq = 0 ∨ (s.ring (ringKey f i)).reg.cq = 0) →
    Effects id (.ringEnSet f i v) s fun u =>
      (u.ring (ringKey f i)).en = false ∧
      ((u.rpt f).errSize = ((s.rpt f).errSize || decide (bits v.toNat 5 1 < 6) || decide (16 < bits v.toNat 5 1))) ∧
      ((u.rpt f).errVector = ((s.rpt f).errVector || decide (vecCount f ≤ bits v.toNat 16 6))) ∧
      ((u.rpt f).errBase = ((s.rpt f).errBase || decide ((s.ring (ringKey f i)).reg.sq = 0) || decide ((s.ring (ringKey f i)).reg.cq = 0)))) ∧
  (∀ s f i v, Reaches s f → i < 16 → (s.ring (ringKey f i)).en = true → Effects settle (.ringEnClear f i v) s fun u =>
    (u.ring (ringKey f i)).en = false ∧ (u.ring (ringKey f i)).waiting = none ∧ Only [.host, .rings] s u) ∧
  (∀ s f v, Reaches s f → (s.rpt f).en = false → 6 ≤ bits v.toNat 5 1 → bits v.toNat 5 1 ≤ 16 → bits v.toNat 16 6 < vecCount f → (s.rpt f).reg.sq ≠ 0 →
    Effects id (.rptCfgEnSet f v) s fun u => (u.rpt f).en = true ∧ (u.rpt f).seq = 0 ∧ (u.rpt f).taken.size = bits v.toNat 5 1 ∧
      (u.rpt f).taken.vector = bits v.toNat 16 6 ∧ (u.rpt f).taken.sq = (s.rpt f).reg.sq ∧ (∀ g, g ≠ f → u.rpt g = s.rpt g) ∧ Only [.host, .rings] s u) ∧
  (∀ s f v, Reaches s f → (s.rpt f).en = true →
    Effects (fun u => ((s.rings.rptWait.filter (fun e => e.1 == f)).map (·.2)).foldl (fun s r => report r.cage r s) u) (.rptCfgEnClear f v) s fun u =>
      (u.rpt f).en = false ∧ (∀ g, g ≠ f → u.rpt g = s.rpt g) ∧ u.rings.rptWait = s.rings.rptWait.filter (fun e => e.1 != f) ∧ Only [.host, .rings] s u) ∧
  (∀ s i a, s.up = true → (s.slot i).st = .bound → (s.slot i).rd = none → (s.slot i).failAt = none → fetchWindow s i ≠ 0 →
    (s.ring (s.slot i).ring).en = true → (s.fn ((s.slot i).ring / 16)).bme = true → s.host.fetchStopped = false →
    xlate s ((s.slot i).ring / 16) (descAddr (s.ring (s.slot i).ring) (s.ring (s.slot i).ring).f) false = .go a →
    Effects settle (.descriptorFetch i) s fun u => (u.slot i).rd = some ((s.ring (s.slot i).ring).f, fetchWindow s i) ∧ (u.slot i).buf = (s.slot i).buf ∧
      (∀ j, j ≠ i → u.slot j = s.slot j) ∧ Only [.host, .rings] s u) ∧
  (∀ s i bs q n, s.up = true → (s.slot i).rd = some (q, n) → bs.length = 64 * n → Effects (fun u => settle (tryFail i u)) (.descriptorReadComplete i bs none) s fun u =>
    (u.slot i).rd = none ∧ (u.slot i).buf = (s.slot i).buf ++ cutDescs n q bs ∧ (u.slot i).failAt = (s.slot i).failAt ∧
    (u.ring (s.slot i).ring).f = q + BitVec.ofNat 32 n ∧ Only [.rings] s u) ∧
  (∀ s i bs q n x, s.up = true → (s.slot i).rd = some (q, n) → Effects (fun u => settle (tryFail i u)) (.descriptorReadComplete i bs (some x)) s fun u =>
    (u.slot i).rd = none ∧ (u.slot i).buf = (s.slot i).buf ++ cutDescs (min (bs.length / 64) (n - 1)) q bs ∧
    (u.slot i).failAt = some (q + BitVec.ofNat 32 (min (bs.length / 64) (n - 1))) ∧ Only [.host, .rings] s u) ∧
  (∀ s n, s.up = true → (s.ctx n).ph = .prep → (s.ctx n).pinWait = true → pinBlocked s (s.ctx n).cage (s.ctx n).pages (s.ctx n).wrPages = false →
    Effects settle (.pinnedWriteResume n) s fun u => u.ctx n = { s.ctx n with pinWait := false } ∧ CtxOnly n s u) ∧
  (∀ s n a, s.up = true → (s.ctx n).ph = .ending → (s.fn (s.ctx n).cage).bme = true → (∀ m ∈ (s.ctx n).after, (s.ctx m).ph.uncompleted = false) →
    xlate s (s.ctx n).cage (cplAddr (s.ring (s.ctx n).ring)) true = .go a →
    Effects (fun u => settle (if (s.ctx n).irq then ringAnnounce (s.ctx n).ring u else u)) (.commandComplete n) s fun u =>
      u.ctx n = { s.ctx n with ph := .written } ∧ (u.ring (s.ctx n).ring).w = (s.ring (s.ctx n).ring).w + 1 ∧
      u.host.tx = s.host.tx ++ [{ fn := (s.ctx n).ring / 16, addr := a, ctx := some n, data := renderCpl (s.ctx n) s.ao.rowTime (if ((s.ring (s.ctx n).ring).w.toNat / 2 ^ (s.ring (s.ctx n).ring).taken.size) % 2 = 0 then 1 else 0) }] ∧
      ((s.ctx n).op ≠ 0x1A ∨ (s.ctx n).status ≠ 0 → u.cages = s.cages) ∧
      ((s.ctx n).op = 0x1A → (s.ctx n).status = 0 → u.cage (byteAt (s.ctx n).desc 16) = quotasOf (s.ctx n).desc (s.cage (byteAt (s.ctx n).desc 16))) ∧
      Only [.host, .rings, .cages] s u)

/-! ### Cages, pages and programs -/

/-- R193, R229 to R236, R251, R261, R352: the commands on a cage, its pool and its programs.
The model's own choices in it: log entries 1, 4, 9, 80. -/
def Obligations.CageCommands : Prop :=
  (∀ s f r e df p d, Taken specCreate 0x18 f r s e df p d → (s.cage (byteAt d 16)).st = .dormant → Effects (ran e) (.cageCreate f r) s fun u =>
    u.cage (byteAt d 16) = { s.cage (byteAt d 16) with st := .active, weight := 16, ctxLimit := 64, guar := fld d 20 4, limit := fld d 24 4, clusLimit := byteAt d 28, groupLimit := byteAt d 29, collLimit := byteAt d 30, shadowOk := bit (byteAt d 31) 0 } ∧
    (∀ c, c ≠ byteAt d 16 → u.cage c = s.cage c) ∧ (∀ k, k < 64 → u.event (byteAt d 16) k = 0) ∧
    (∀ c k, c ≠ byteAt d 16 → k < 64 → u.event c k = s.event c k) ∧
    (u.ctx (freeCtx s)).ph = .ending ∧ (u.ctx (freeCtx s)).status = 0 ∧ Only [.rings, .cages] s u) ∧
  (∀ s f r e df p d, Taken specCreate 0x18 f r s e df p d → (s.cage (byteAt d 16)).st ≠ .dormant → Effects (ran e) (.cageCreate f r) s
    (Ended (freeCtx s) 0x33 (if (s.cage (byteAt d 16)).st = .absent then 4 else 3) 0 (took e df p d s))) ∧
  (∀ s f r e df p d, Taken specQuota 0x1A f r s e df p d → (s.cage (byteAt d 16)).st = .active → Effects (ran e) (.cageQuota f r) s
    (Ended (freeCtx s) 0 0 0 (took e df p d s))) ∧
  (∀ s f r e df p d, Taken specQuota 0x1A f r s e df p d → (s.cage (byteAt d 16)).st ≠ .active → Effects (ran e) (.cageQuota f r) s
    (Ended (freeCtx s) 0x33 (match (s.cage (byteAt d 16)).st with | .dormant => 1 | .ending => 2 | _ => 4) 0 (took e df p d s))) ∧
  (∀ s f r e df p d, Taken specDestroy 0x19 f r s e df p d → (s.cage (byteAt d 16)).st = .active →
    Effects (fun u => ran e (destroyFollows (freeCtx s) (byteAt d 16) u)) (.cageDestroy f r) s fun u =>
      (u.cage (byteAt d 16)).st = .ending ∧ (u.cage (byteAt d 16)).destroyCtx = some (freeCtx s) ∧ (u.ctx (freeCtx s)).ph = .held ∧
      (∀ c, c ≠ byteAt d 16 → u.cage c = s.cage c) ∧ Only [.rings, .cages] s u) ∧
  (∀ s f r e df p d, Taken specDestroy 0x19 f r s e df p d → (s.cage (byteAt d 16)).st ≠ .active → Effects (ran e) (.cageDestroy f r) s
    (Ended (freeCtx s) 0x33 (match (s.cage (byteAt d 16)).st with | .dormant => 1 | .ending => 2 | _ => 4) 0 (took e df p d s))) ∧
  (∀ s c n, s.up = true → (s.cage c).st = .ending → destroyReady s c = true → (s.cage c).destroyCtx = some n → Effects settle (.cageDestroyComplete c) s fun u =>
    (u.cage c).st = .dormant ∧ (u.cage c).poolBase = 0 ∧ (u.cage c).poolSlots = 0 ∧ (u.cage c).destroyCtx = none ∧
    (u.ctx n).ph = .ending ∧ (u.ctx n).status = 0) ∧
  (∀ s f r e df p d, Taken specPool 0x14 f r s e df p d → (∀ g ∈ cagePages s ((s.slot e.2.1).ring / 16), g.2.slot = none) → Effects (ran e) (.poolSet f r) s fun u =>
    u.cage ((s.slot e.2.1).ring / 16) = { s.cage ((s.slot e.2.1).ring / 16) with
      poolBase := if fld d 24 4 = 0 then 0 else BitVec.ofNat 64 (opA d), poolSlots := fld d 24 4, poolFaulted := false } ∧
    (u.ctx (freeCtx s)).ph = .ending ∧ (u.ctx (freeCtx s)).status = 0 ∧ Only [.rings, .cages] s u) ∧
  (∀ s f r e df p d, Taken specPool 0x14 f r s e df p d → (∃ g ∈ cagePages s ((s.slot e.2.1).ring / 16), g.2.slot ≠ none) → Effects (ran e) (.poolSet f r) s
    (Ended (freeCtx s) 0x33 9 0 (took e df p d s))) ∧
  (∀ s f r e df p d, Taken specAbort 0x11 f r s e df p d → Effects (ran e) (.programAbort f r) s fun u =>
    (u.ctx (freeCtx s)).ph = .ending ∧ (u.ctx (freeCtx s)).status = 0) ∧
  (∀ s f r e df p d a, Taken specAbort 0x11 f r s e df p d → byteAt d 16 = 0 →
    (s.cages.adms.filter (fun a => a.cage == (s.slot e.2.1).ring / 16 && a.tag.toNat == fld d 24 8)).head? = some a →
    a.ph = .running → (s.group a.group).st = .running → (s.group a.group).abort = false → Effects (ran e) (.programAbort f r) s fun u =>
      (u.group a.group).abort = true ∧ (u.ctx (freeCtx s)).after = [a.ctx] ∧ (u.ctx (freeCtx s)).result = 1 ∧ Only [.rings, .beat] s u)

/-- R243, R248 to R250, R253, R254, R259, R264, R385: mapping, unmapping, zeroing and moving pages.
The model's own choices in it: log entries 1, 4, 6, 9. -/
def Obligations.PageCommands : Prop :=
  (∀ s f r e df p d, Taken specMap 0x12 f r s e df p d → s.mem.offline = false → s.mem.trainEnded = true →
    mappedCount s ((s.slot e.2.1).ring / 16) + fld d 24 4 ≤ (s.cage ((s.slot e.2.1).ring / 16)).limit →
    (bit (byteAt d 28) 0 = true → stickyCount s ((s.slot e.2.1).ring / 16) + fld d 24 4 ≤ (s.cage ((s.slot e.2.1).ring / 16)).guar) →
    (∀ q ∈ pageRange d, pageMapped s ((s.slot e.2.1).ring / 16) q = false) →
    Effects (fun u => ran e (if bit (byteAt d 28) 0 || bit (byteAt d 28) 1 then beginPages (freeCtx s) (pageRange d) (pageRange d) u else endOk (freeCtx s) 0 u))
      (.pageMap f r) s fun u =>
        (∀ q ∈ pageRange d, u.page ((s.slot e.2.1).ring / 16) q =
          if (s.page ((s.slot e.2.1).ring / 16) q).claimed then { s.page ((s.slot e.2.1).ring / 16) q with remap := some (bit (byteAt d 28) 0) }
          else { st := .zero, sticky := bit (byteAt d 28) 0, touch := s.ms }) ∧ Only [.rings, .cages] s u) ∧
  (∀ s f r e df p d, Taken specMap 0x12 f r s e df p d → s.mem.offline = false → s.mem.trainEnded = true →
    (s.cage ((s.slot e.2.1).ring / 16)).limit < mappedCount s ((s.slot e.2.1).ring / 16) + fld d 24 4 → Effects (ran e) (.pageMap f r) s fun u =>
      (u.ctx (freeCtx s)).ph = .ending ∧ (u.ctx (freeCtx s)).status = 0x17 ∧ (u.ctx (freeCtx s)).detail = 1 ∧ CtxOnly (freeCtx s) (took e df p d s) u) ∧
  (∀ s f r e df p d, Taken specUnmap 0x13 f r s e df p d → (∀ q ∈ pageRange d, pageMapped s ((s.slot e.2.1).ring / 16) q = true) →
    (∀ q ∈ pageRange d, (s.page ((s.slot e.2.1).ring / 16) q).pins = 0 ∧ registeredPage s ((s.slot e.2.1).ring / 16) q = false) →
    Effects (ran e) (.pageUnmap f r) s fun u => (u.ctx (freeCtx s)).ph = .held ∧
      (∀ q ∈ pageRange d, u.page ((s.slot e.2.1).ring / 16) q = { s.page ((s.slot e.2.1).ring / 16) q with claimed := true, remap := none }) ∧ Only [.rings, .cages] s u) ∧
  (∀ s f r e df p d, Taken specUnmap 0x13 f r s e df p d → (∃ q ∈ pageRange d, pageMapped s ((s.slot e.2.1).ring / 16) q = false) →
    Effects (ran e) (.pageUnmap f r) s (Ended (freeCtx s) 0x33 7 0 (took e df p d s))) ∧
  (∀ s n, s.up = true → (s.ctx n).ph = .held → (s.ctx n).op = 0x13 → unmapReady s (s.ctx n) = true → Effects settle (.pageUnmapComplete n) s fun u =>
    (u.ctx n).ph = .ending ∧ (u.ctx n).status = 0 ∧ (u.ctx n).result = fld (s.ctx n).desc 24 4 ∧
    (∀ q ∈ pageRange (s.ctx n).desc, (s.page (s.ctx n).cage q).remap = none → u.page (s.ctx n).cage q = {}) ∧ Only [.rings, .cages] s u) ∧
  (∀ s f, s.dataUp = true → f < 65536 → s.frame f = .dirty → Effects settle (.frameScrubbed f) s fun u =>
    u.frame f = .clean ∧ (∀ g, g ≠ f → u.frame g = s.frame g) ∧ (∀ a, f * pageBytes ≤ a → a < (f + 1) * pageBytes → mrd u.mem.mem a = 0) ∧
    (∀ a, a < f * pageBytes ∨ (f + 1) * pageBytes ≤ a → mrd u.mem.mem a = mrd s.mem.mem a) ∧ Only [.cages, .mem] s u) ∧
  (∀ s c p, s.dataUp = true → (s.page c p).zeroing = true → Effects settle (.demandZeroComplete c p) s fun u =>
    u.page c p = { s.page c p with zeroing := false } ∧
    (∀ a, (s.page c p).frame * pageBytes ≤ a → a < ((s.page c p).frame + 1) * pageBytes → mrd u.mem.mem a = 0) ∧
    (∀ a, a < (s.page c p).frame * pageBytes ∨ ((s.page c p).frame + 1) * pageBytes ≤ a → mrd u.mem.mem a = mrd s.mem.mem a) ∧ Only [.cages, .mem] s u) ∧
  (∀ s c p m, s.up = true → moveOf s c p = some m → m.evict = true → m.running = true → pageBytes ≤ m.off → evictAcked s c p = true →
    exec (.evictionComplete c p) s = .next (settle (evictDone c p s))) ∧
  (∀ s c p m, moveOf s c p = some m → m.zeros = false → LoneMove s m →
    ((evictDone c p s).page c p).st = .evicted ∧ ((evictDone c p s).page c p).slot = (s.page c p).slot ∧
    (evictDone c p s).frame (s.page c p).frame = .dirty ∧ moveOf (evictDone c p s) c p = none) ∧
  (∀ s c p m, s.up = true → moveOf s c p = some m → m.evict = false → m.running = true → pageBytes ≤ m.off →
    exec (.restoreComplete c p) s = .next (settle (restoreDone c p s))) ∧
  (∀ s c p m, moveOf s c p = some m → LoneMove s m →
    ((restoreDone c p s).page c p).st = .resident ∧ ((restoreDone c p s).page c p).slot = none ∧
    (restoreDone c p s).frame (s.page c p).frame = .held c p ∧ moveOf (restoreDone c p s) c p = none) ∧
  (∀ s, s.up = true → Effects settle .pageBookTimer s fun u =>
    u = reportCtl 0x0605 [(20, 4, bookClean s), (24, 4, bookDirty s), (28, 4, bookHeld s), (32, 4, bookTransit s), (36, 4, bookPinned s),
      (40, 4, ((s.cages.cages.filter (fun e => e.2.st == .active)).map (fun e => e.2.guar)).sum)] 0 s)

/-- R241, R267 to R277, R349 to R353: from a queued admission to the end of its program.
The model's own choices in it: log entries 1, 4, 9, 37, 42, 43. -/
def Obligations.Programs : Prop :=
  (∀ s a g cs, s.up = true → s.cages.adms.find? (fun a => a.ph == .queued) = some a → s.adm a.ctx = some a → lockDisagrees s a.lock a.f = false → grantable s a = some (g, cs) →
    Effects (fun u => settle (planPages a.ctx u)) .admitQueueServed s fun u =>
      u.adm a.ctx = some { a with ph := .paging, group := g, clusters := cs } ∧ (u.group g).st = .granted ∧ (u.group g).ctx = a.ctx ∧ (u.group g).f = a.f ∧
      (u.group g).clusters = cs ∧ (∀ c ∈ cs, (u.clus c).group = some g) ∧ Only [.cages, .beat] s u) ∧
  (∀ s a, s.up = true → s.cages.adms.find? (fun a => a.ph == .queued) = some a → s.adm a.ctx = some a → lockDisagrees s a.lock a.f = true →
    Effects settle .admitQueueServed s fun u => (u.ctx a.ctx).ph = .ending ∧ (u.ctx a.ctx).status = 0x41 ∧ (u.ctx a.ctx).detail = 7 ∧ u.adm a.ctx = none) ∧
  (∀ s n a, s.up = true → s.adm n = some a → a.ph = .queued → Effects settle (.admitWaitExpiry n) s fun u =>
    (u.ctx n).ph = .ending ∧ (u.ctx n).status = 0x41 ∧ (u.ctx n).detail = 4 ∧ u.adm n = none) ∧
  (∀ s n a, s.up = true → s.adm n = some a → a.ph = .paging → a.w.Nodup → a.spill = [] →
    (∀ p ∈ a.w, pageMapped s a.cage p = true ∧ (s.page a.cage p).claimed = false ∧ (s.page a.cage p).st = .resident ∧ (s.page a.cage p).zeroing = false) →
    Effects settle (.admitResidencyComplete n) s fun u =>
      u.adm n = some { a with ph := .loading, offered := true } ∧ u.adit.a3up = s.adit.a3up ++ [.offer a.group a.cage a.f a.lock (manBytes a.image)] ∧
      (∀ p ∈ a.w, (u.page a.cage p).pins = (s.page a.cage p).pins + 1) ∧ Only [.adit, .rings, .cages, .beat] s u) ∧
  (∀ s n a, s.up = true → s.adm n = some a → a.ph = .loading → a.loaded = false → a.clusters.Nodup →
    Effects (fun u => settle (startProgram n u)) (.programLoadComplete n) s fun u =>
      u.adm n = some { a with loaded := true } ∧
      (∀ i c, a.clusters[i]? = some c → (u.clus c).pc = 0 ∧
        (u.clus c).sp = mwrN [] (clusEntry a.image i).loadAt ((a.image.drop (clusEntry a.image i).stream).take (clusEntry a.image i).bytes)) ∧ Only [.cages, .beat] s u) ∧
  (∀ s n a, s.up = true → s.adm n = some a → a.ph = .loading → a.offered = true → Effects settle2 (.offerBackstop n) s fun u =>
    (u.ctx n).ph = .ending ∧ (u.ctx n).status = 0x42 ∧ u.adm n = none ∧ u.adit.a3up = s.adit.a3up ++ [.withdraw a.group]) ∧
  (∀ s g a, s.dataUp = true → (s.group g).st = .stopped → (s.group g).ended = false → s.adm (s.group g).ctx = some a → Effects settle (.abortDrainComplete g) s fun u =>
    (u.ctx (s.group g).ctx).ph = .ending ∧ u.adm (s.group g).ctx = none) ∧
  (∀ s g a, s.dataUp = true → (s.group g).st = .stopped → (s.group g).ended = true → (s.group g).shadowFail = none → (∀ t ∈ s.beat.streams, t.group ≠ g) →
    s.adm (s.group g).ctx = some a → a.group = g → Effects settle (.programEnd g) s fun u =>
      (u.ctx (s.group g).ctx).ph = .ending ∧ (u.ctx (s.group g).ctx).status = 0 ∧ u.adm (s.group g).ctx = none ∧
      u.adit.a3up = s.adit.a3up ++ [.finish g (s.group g).endRow false]) ∧
  (∀ s c, s.dataUp = true → (s.clus c).scrubbing = true → Effects settle (.clusterScrubComplete c) s fun u =>
    u.clus c = {} ∧ (∀ k, k ≠ c → u.clus k = s.clus k) ∧ Only [.beat] s u)

/-- R281, R320 to R322, R342 to R348, R356, R360, R492, R493: the slots, the stream pieces and what stops a program.
The model's own choices in it: log entries 1, 4, 9, 41, 42. -/
def Obligations.BeatExecution : Prop :=
  (∀ s g, s.dataUp = true → (s.group g).st = .running → isBubble ((s.group g).slot % 64) (bubblesAt s g) = true → Effects settle (.beatSlot g) s fun u =>
    (u.group g).slot = (s.group g).slot + 1 ∧ (u.group g).beat = (s.group g).beat ∧ (u.group g).nForce = bubblesAt s g ∧ Only [.beat, .mgmt] s u) ∧
  (∀ s g, s.dataUp = true → (s.group g).st = .running → isBubble ((s.group g).slot % 64) (bubblesAt s g) = false →
    (∃ i ∈ (s.group g).clusters, (s.clus i).gateOk = false) → Effects settle (.beatSlot g) s fun u =>
      (u.group g).slot = (s.group g).slot + 1 ∧ (u.group g).beat = (s.group g).beat ∧ Only [.beat, .mgmt] s u) ∧
  (∀ s g, s.dataUp = true → (s.group g).st = .running → isBubble ((s.group g).slot % 64) (bubblesAt s g) = false →
    (∀ i ∈ (s.group g).clusters, (s.clus i).gateOk = true) → Effects settle (.beatSlot g) s fun u =>
      (u.group g).slot = (s.group g).slot + 1 ∧ (u.group g).beat = (s.group g).beat + 1 ∧
      ((s.group g).beat + 1 = (s.group g).beats → (u.group g).st = .stopped ∧ (u.group g).ended = true ∧ (u.group g).breach = none ∧ (u.group g).endRow = s.ao.rowTime) ∧
      Only [.free, .host, .cages, .beat, .mgmt] s u) ∧
  (∀ s i p t q, s.dataUp = true → s.beat.streams.find? (fun t => t.id == i) = some t → p ∈ t.left → shadowPiece s t p = false →
    t.op = 1 → p ∉ t.loose → physOf s (s.group t.group).cage (t.x + 64 * p) = some q → linePoisoned s q = false → Effects settle (.streamPieceLanded i p) s fun u =>
      mrdN (u.clus (physClus s t.group t.lc)).sp (t.sp + 64 * p) 64 = mrdN s.mem.mem q 64 ∧
      tget 0 (u.clus (physClus s t.group t.lc)).arrs t.ctr = tget 0 (s.clus (physClus s t.group t.lc)).arrs t.ctr + 1 ∧
      (∀ v ∈ u.beat.streams, v.id = i → p ∉ v.left) ∧ Only [.beat] s u) ∧
  (∀ s i p t q, s.dataUp = true → s.beat.streams.find? (fun t => t.id == i) = some t → p ∈ t.left → shadowPiece s t p = false →
    t.op = 2 → p ∉ t.loose → physOf s (s.group t.group).cage (t.x + 64 * p) = some q → Effects settle (.streamPieceLanded i p) s fun u =>
      mrdN u.mem.mem q 64 = mrdN (s.clus (physClus s t.group t.lc)).sp (t.sp + 64 * p) 64 ∧
      (∀ b, b < q ∨ q + 64 ≤ b → mrd u.mem.mem b = mrd s.mem.mem b) ∧ Only [.beat, .mem] s u) ∧
  (∀ s g, s.dataUp = true → (s.group g).st = .running → (s.group g).holding = true → Effects settle (.gateLimitExpiry g) s fun u =>
    (u.group g).st = .stopped ∧ (u.group g).breach = some (breachDetail 4 (unmetCluster s g) (s.group g).beat) ∧ (u.group g).endRow = s.ao.rowTime ∧
    (∀ j, j ≠ g → u.group j = s.group j) ∧ Only [.beat, .mgmt] s u) ∧
  (∀ s g, s.dataUp = true → (s.group g).st = .running → (s.group g).shadowFail.isSome = true → Effects settle (.shadowAccessFail g) s fun u =>
    u.group g = { s.group g with st := .stopped, holding := false, endRow := s.ao.rowTime } ∧ GroupOnly g s u) ∧
  (∀ s c g, s.dataUp = true → (s.clus c).group = some g → (s.group g).margin = false → Effects settle (.droopCrossing c) s fun u =>
    u.clus c = { s.clus c with stretch := min 255 ((s.clus c).stretch + 1) } ∧ (∀ k, k ≠ c → u.clus k = s.clus k) ∧ Only [.beat] s u) ∧
  (∀ s c g, s.dataUp = true → (s.clus c).group = some g → (s.group g).margin = true → Effects settle (.droopCrossing c) s fun u =>
    u.power.exceed = s.power.exceed + 1 ∧ u.power.exceedGroups = s.power.exceedGroups ||| 2 ^ g ∧ Only [.power] s u)

/-! ### The adits -/

/-- R29 to R36, R49 to R51, R496, R505, R506, R776: the bubble port, the activity frames, the inner step and the report gateway.
The model's own choices in it: log entries 1, 4, 9, 26, 27, 62. -/
def Obligations.BubblesFramesAndGateway : Prop :=
  (∀ s w, s.dataUp = true → Effects settle (.a1Word w) s fun u =>
    (∀ g, g < 16 → (u.group g).nNew = min 60 (a1Entry w g % 64) ∧ (u.group g).marginReq = bit (a1Entry w g) 6 ∧ (u.group g).st = (s.group g).st ∧
      ((s.group g).st = .running → (u.group g).margin = (s.group g).margin) ∧ ((s.group g).st ≠ .running → (u.group g).margin = bit (a1Entry w g) 6)) ∧
    u.beat.stale = false ∧ Only [.beat, .mgmt] s u) ∧
  (∀ s, s.dataUp = true → Effects settle .a1StaleTimeout s fun u => u = s.modBeat fun b => { b with stale := true }) ∧
  (∀ s, s.dataUp = true → Effects settle .a2WindowClose s fun u =>
    (∃ fr, u.adit.a2 = some fr ∧ fr.clamped = s.beat.clamped ∧ (fr.stks.isSome = true ↔ (s.beat.a2Count + 1) % 100 = 0) ∧ fr.recs.length = 128 ∧
      (∀ g, g < 16 → fr.modes[g]? = some (s.group g).margin) ∧
      ∀ c, c < 128 → fr.recs[c]? = some { mx := (s.clus c).mxBeats, vec := (s.clus c).vecBeats, str := (s.clus c).strBeats, stretch := (s.clus c).stretch, group := (s.clus c).group.getD 0, assigned := (s.clus c).group.isSome }) ∧
    u.adit.a2Taken = false ∧ u.adit.a2Overrun = (if s.adit.a2Taken then s.adit.a2Overrun else min 65535 (s.adit.a2Overrun + 1)) ∧
    (∀ c, (u.clus c).mxBeats = 0 ∧ (u.clus c).vecBeats = 0 ∧ (u.clus c).strBeats = 0 ∧ (u.clus c).stretch = 0 ∧ (u.clus c).group = (s.clus c).group) ∧
    u.beat.clamped = 0 ∧ Only [.adit, .beat, .mem] s u) ∧
  (∀ s fr, s.stew = true → s.adit.a2Taken = false → s.adit.a2 = some fr → Effects watch .innerStep s fun u =>
    u.adit.a2Taken = true ∧ (∃ w, u.adit.a1 = some w) ∧ u.power.nOwn ≤ 60 ∧ u.power.lastA1 = some s.ao.rowTime ∧ Only [.adit, .mgmt, .power, .heat] s u) ∧
  (∀ s r d, s.up = true → (s.rpt 0).en = true → d = s.adit.a6Displaced → s.adit.a6.findSome? A6Item.asReport = some r →
    Effects (fun u => settle (let v := report 0 r u; if (r.kind == 0x0204 || r.kind == 0x0205) && r.cage != 0 && (v.rpt r.cage).en then report r.cage r v else v))
      .a6RecordDelivered s fun u =>
        u.adit = { s.adit with a6 := dropFirst (fun i => i.asReport.isSome) s.adit.a6, a6Displaced := 0 } ∧
        u.rings = { s.rings with a6Displaced := min 65535 (s.rings.a6Displaced + d) } ∧ Only [.adit, .rings] s u) ∧
  (∀ s off v, s.dataUp = true → s.adit.a6.findSome? A6Item.asMirror = some (off, v) → Effects settle .mirrorRegisterRefresh s fun u =>
    tget 0 u.adit.mirrors off = v ∧ (∀ o, o ≠ off → tget 0 u.adit.mirrors o = tget 0 s.adit.mirrors o) ∧
    u.adit.a6 = dropFirst (fun i => i.asMirror.isSome) s.adit.a6 ∧ Only [.adit] s u)

/-- R37 to R40, R195, R267, R276, R277, R512, R547, R550, R551, R702, R783: the messages of A3 in both directions.
The model's own choices in it: log entries 1, 4, 9, 22, 25, 76. -/
def Obligations.AdmissionMessages : Prop :=
  (∀ s g c f l man r, UpHead s (.offer g c f l man) r → Effects (fun u => watch (deliverForecast u)) .offer s fun u =>
    ∃ m, u.mg g = some m ∧ m.cage = c ∧ m.f = f ∧ m.lock = l ∧ m.man = man ∧ (m.st = .held ∨ m.st = .ready ∨ m.st = .released) ∧ u.adit.a3up = r ∧
      u.adit.a3down = s.adit.a3down ++ [if m.st = .released then .release g else .hold g] ∧ u.mgmt.silent = false ∧ u.mgmt.lastHost = s.ao.rowTime) ∧
  (∀ s g r m, UpHead s (.withdraw g) r → s.mg g = some m → m.st ≠ .running → Effects (fun u => watch (deliverForecast u)) .withdraw s fun u =>
    u.mg g = none ∧ (∀ j, j ≠ g → u.mg j = s.mg j) ∧ u.adit = { s.adit with a3up := r } ∧ Only [.adit, .heat] s u) ∧
  (∀ s g t r m, UpHead s (.start g t) r → s.mg g = some m → Effects (fun u => watch (deliverForecast u)) .startMessage s fun u =>
    u.mg g = some { m with st := .running, pos := 0, windows := 0, n := 0, past := [] } ∧ (∀ j, j ≠ g → u.mg j = s.mg j) ∧ u.adit.a3up = r ∧
    u.mgmt.lastHost = s.ao.rowTime) ∧
  (∀ s g t b r, UpHead s (.finish g t b) r → Effects (fun u => watch (deliverForecast u)) .endMessage s fun u =>
    u.mg g = none ∧ (∀ j, j ≠ g → u.mg j = s.mg j) ∧ u.adit.a3up = r ∧ u.mgmt.lastHost = s.ao.rowTime) ∧
  (∀ s t d r, UpHead s (.policy t d) r → s.mgmt.disp = none → 1 ≤ byteAt d 17 → byteAt d 17 ≤ policyCmds (byteAt d 16) → Effects watch .policyMessage s fun u =>
    u.mgmt.disp = some (t, d) ∧ u.adit.a3up = r ∧ u.adit.a3down = s.adit.a3down ∧ u.mgmt.lastHost = s.ao.rowTime ∧ u.mgmt.silent = false ∧ Only [.adit, .mgmt] s u) ∧
  (∀ s t d r, UpHead s (.policy t d) r → s.mgmt.disp = none → policyCmds (byteAt d 16) = 0 → Effects watch .policyMessage s fun u =>
    u.mgmt.disp = none ∧ u.adit.a3up = r ∧ u.adit.a3down = s.adit.a3down ++ [.ack t 0x14 16] ∧ Only [.adit, .mgmt] s u) ∧
  (∀ s t d r, UpHead s (.policy t d) r → s.mgmt.disp = none → policyCmds (byteAt d 16) ≠ 0 → (byteAt d 17 = 0 ∨ policyCmds (byteAt d 16) < byteAt d 17) →
    Effects watch .policyMessage s fun u => u.mgmt.disp = none ∧ u.adit.a3up = r ∧ u.adit.a3down = s.adit.a3down ++ [.ack t 0x14 17] ∧ Only [.adit, .mgmt] s u) ∧
  (∀ s k v r, UpHead s (.skipBand k v) r → s.mgmt.disp = none → Effects watch .policyMessage s fun u =>
    u.pump = { s.pump with skips := lmod s.pump.skips k (fun _ => v) } ∧ u.adit = { s.adit with a3up := r } ∧ Only [.adit, .pump] s u) ∧
  (∀ s g r, DownHead s (.hold g) r → Effects settle .hold s fun u => u = s.modAdit fun a => { a with a3down := r }) ∧
  (∀ s g r a, DownHead s (.release g) r → offeredAdm s g = some a → s.adm a.ctx = some a → Effects (fun u => settle2 (startProgram a.ctx u)) .release s fun u =>
    u.adm a.ctx = some { a with released := true, offered := false } ∧ u.adit = { s.adit with a3down := r } ∧ Only [.adit, .cages] s u) ∧
  (∀ s g r a, DownHead s (.refuse g) r → offeredAdm s g = some a → Effects settle2 .refuse s fun u =>
    (u.ctx a.ctx).ph = .ending ∧ (u.ctx a.ctx).status = 0x42 ∧ u.adm a.ctx = none ∧ u.adit.a3down = r ∧ u.adit.a3up = s.adit.a3up) ∧
  (∀ s tag st dt r n, DownHead s (.ack tag st dt) r → s.rings.policies.find? (fun e => e.1 == tag.toNat) = some (tag.toNat, n) → Effects settle2 .policyAck s fun u =>
    (u.ctx n).ph = .ending ∧ (u.ctx n).status = st ∧ (u.ctx n).detail = dt ∧ u.adit = { s.adit with a3down := r } ∧
    u.rings.policies = s.rings.policies.filter (fun e => e.1 != tag.toNat) ∧ (st ≠ 0 → u.cages = s.cages) ∧
    (st = 0 → byteAt (s.ctx n).desc 16 = 1 → byteAt (s.ctx n).desc 17 = 3 → byteAt (s.ctx n).desc 25 = 0 → (byteAt (s.ctx n).desc 24, fld (s.ctx n).desc 28 4) ∈ u.cages.permits) ∧
    Only [.adit, .rings, .cages] s u) ∧
  (∀ s n, s.dataUp = true → (∃ e ∈ s.rings.policies, e.2 = n) → Effects settle2 (.policyTimeout n) s fun u =>
    (u.ctx n).ph = .ending ∧ (u.ctx n).status = 0x32 ∧ u.rings.policies = s.rings.policies.filter (fun e => e.2 != n) ∧ Only [.rings] s u)

/-! ### The memory stacks -/

/-- R364 to R387: line accesses, poison, patrol, readouts, training and the scrub register.
The model's own choices in it: log entries 1, 4, 9, 11, 83. -/
def Obligations.StackCommands : Prop :=
  (∀ s line d e, Trained s line → Effects settle (.stackLineAccess line (.write d) e) s fun u =>
    mrdN u.mem.mem (64 * line) 64 = d.take 64 ++ List.replicate (64 - d.length) 0 ∧ linePoisoned u (64 * line) = false ∧
    (∀ a, a < 64 * line ∨ 64 * line + 64 ≤ a → mrd u.mem.mem a = mrd s.mem.mem a) ∧ Only [.mem] s u) ∧
  (∀ s line e, Trained s line → e ≠ .uncorrectable → Effects settle (.stackLineAccess line .read e) s fun u =>
    u.mem.mem = s.mem.mem ∧ u.mem.poison = s.mem.poison ∧ (u.stack (stackOf (64 * line))).access = min 0xFFFFFFFF ((s.stack (stackOf (64 * line))).access + 1) ∧
    (u.stack (stackOf (64 * line))).ce = (if e = .corrected then min 0xFFFFFFFF ((s.stack (stackOf (64 * line))).ce + 1) else (s.stack (stackOf (64 * line))).ce) ∧
    StackOnly (stackOf (64 * line)) s u) ∧
  (∀ s line, Trained s line → linePoisoned s (64 * line) = false → Effects settle (.stackLineAccess line .read .uncorrectable) s fun u =>
    linePoisoned u (64 * line) = true ∧ u.mem.mem = s.mem.mem ∧ (u.stack (stackOf (64 * line))).ue = min 0xFFFFFFFF ((s.stack (stackOf (64 * line))).ue + 1) ∧
    Only [.host, .rings, .mem] s u) ∧
  (∀ s line off d e, Trained s line → e ≠ .uncorrectable → linePoisoned s (64 * line) = false → Effects settle (.stackLineAccess line (.modify off d) e) s fun u =>
    mrdN u.mem.mem (64 * line + off % 64) (d.take (64 - off % 64)).length = d.take (64 - off % 64) ∧
    (∀ a, a < 64 * line + off % 64 ∨ 64 * line + off % 64 + (d.take (64 - off % 64)).length ≤ a → mrd u.mem.mem a = mrd s.mem.mem a) ∧ Only [.mem] s u) ∧
  (∀ s line off d e, Trained s line → e ≠ .uncorrectable → linePoisoned s (64 * line) = true → Effects settle (.stackLineAccess line (.modify off d) e) s fun u =>
    u.mem.mem = s.mem.mem ∧ linePoisoned u (64 * line) = true ∧ StackOnly (stackOf (64 * line)) s u) ∧
  (∀ s i e, s.dataUp = true → i < 8 → (s.stack i).train = 1 → s.mem.period ≠ 0 → e ≠ .uncorrectable → linePoisoned s (patrolAddr i (s.stack i).patrol) = false →
    Effects settle (.patrolScrubRead i e) s fun u => (u.stack i).patrol = ((s.stack i).patrol + 1) % stackLines ∧ u.mem.mem = s.mem.mem ∧ u.mem.poison = s.mem.poison ∧ Only [.mem] s u) ∧
  (∀ s i, s.dataUp = true → i < 8 → (s.stack i).train = 1 → s.mem.period ≠ 0 → ownerOf s (patrolAddr i (s.stack i).patrol) = none →
    Effects settle (.patrolScrubRead i .uncorrectable) s fun u => linePoisoned u (patrolAddr i (s.stack i).patrol) = false ∧
      (∀ a, patrolAddr i (s.stack i).patrol / 64 * 64 ≤ a → a < patrolAddr i (s.stack i).patrol / 64 * 64 + 64 → mrd u.mem.mem a = 0) ∧ Only [.mem] s u) ∧
  (∀ s i, s.dataUp = true → i < 8 → Effects settle (.stackCeRateTimer i) s fun u =>
    (u.stack i).secCount = 0 ∧ (1000 < (s.stack i).secCount → (u.stack i).rateTold = true) ∧ ((s.stack i).secCount < 1000 → (u.stack i).rateTold = false) ∧
    ((s.stack i).secCount = 1000 → (u.stack i).rateTold = (s.stack i).rateTold) ∧ (∀ j, j ≠ i → u.stack j = s.stack j) ∧ Only [.host, .rings, .mem] s u) ∧
  (∀ s i t, i < 8 → s.sup.regs = true → (s.stack i).train ≠ 2 → Effects (fun u => watch (stackTripLine i (some t) u)) (.stackReadout i (some t)) s fun u =>
    (u.stack i).temp = some t ∧ (u.stack i).tempInvalid = false ∧ (1360 < t → (u.stack i).refresh2x = true) ∧
    (t ≤ 1360 → (u.stack i).refresh2x = true → (s.stack i).refresh2x = true) ∧ (∀ j, j ≠ i → u.stack j = s.stack j) ∧ Only [.host, .rings, .mem] s u) ∧
  (∀ s i, i < 8 → s.sup.regs = true → Effects (fun u => watch (stackTripLine i none u)) (.stackReadout i none) s fun u =>
    (u.stack i).temp = none ∧ (u.stack i).tempInvalid = true ∧ (u.stack i).refresh2x = true ∧ (∀ j, j ≠ i → u.stack j = s.stack j) ∧ Only [.host, .rings, .mem] s u) ∧
  (∀ s v, Reaches s 0 → s.mem.lock = false → Effects id (.scrubCtlLock v) s fun u =>
    u = (awake s).modMem fun m => { m with period := if v.toNat % 128 = 0 then 0 else max 6 (min (v.toNat % 128) 72), lock := true }) ∧
  (∀ s v, Reaches s 0 → s.mem.lock = true → exec (.scrubCtlLock v) s = .next (awake s)) ∧
  (∀ s failed, s.up = true → s.mem.trainEnded = false →
    Effects (fun u => settle (forEach (ctxsWhere (fun c => c.ph == .prep && c.trainWait) u) trainResume u)) (.stackTrainingEnd failed) s fun u =>
    u.mem.trainEnded = true ∧ u.mem.offline = decide (failed % 256 ≠ 0) ∧ (∀ i, i < 8 → (u.stack i).train = if bit failed i then 2 else 1) ∧ Only [.host, .rings, .mem] s u)

/-- R362, R367: there is no line beyond the 2^31 lines of device memory, and an access to one stops.
The model's own choices in it: log entry 83. -/
def Obligations.NoLineBeyondMemory : Prop :=
  ∀ s line op e, 2 ^ 31 ≤ line → exec (.stackLineAccess line op e) s = .fault .noSuchLine

/-! ### Galbi links -/

/-- R391 to R398, R427, R428, R431: a link is enabled, trains, fails to train, retrains and is lost.
The model's own choices in it: log entries 1, 4, 9, 40, 81. -/
def Obligations.LinkTraining : Prop :=
  (∀ s k v, Reaches s 0 → s.dataUp = true → (s.link (k % 16)).en = false → Effects id (.linkEnSet k v) s fun u =>
    (u.link (k % 16)).en = true ∧ (u.link (k % 16)).st = .training ∧ (u.link (k % 16)).fails = 0 ∧ (u.link (k % 16)).hello = false ∧
    (u.link (k % 16)).allowX4 = bit v.toNat 1 ∧ (u.link (k % 16)).wColl = max 1 (bits v.toNat 5 2) ∧ (u.link (k % 16)).wBulk = max 1 (bits v.toNat 9 6) ∧
    (u.link (k % 16)).wMem = max 1 (bits v.toNat 13 10) ∧ LinkTold (k % 16) s u) ∧
  (∀ s k v, Reaches s 0 → (s.link (k % 16)).en = true → exec (.linkEnSet k v) s = .next (awake s)) ∧
  (∀ s k v, Reaches s 0 → (s.link (k % 16)).en = true →
    Effects (fun u => if (s.link (k % 16)).st = .up ∨ (s.link (k % 16)).st = .retrain then collLinkReset (k % 16) u else u) (.linkEnClear k v) s fun u =>
      (u.link (k % 16)).en = false ∧ LinkCleared (k % 16) .disabled s u) ∧
  (∀ s k v, Reaches s 0 → (s.link (k % 16)).en = false → Effects id (.linkEnClear k v) s fun u =>
    u = (awake s).modLink (k % 16) fun l => { l with allowX4 := bit v.toNat 1, wColl := max 1 (bits v.toNat 5 2), wBulk := max 1 (bits v.toNat 9 6), wMem := max 1 (bits v.toNat 13 10) }) ∧
  (∀ s k failed, LinkRuns k s → (s.link k).st = .training → (s.link k).hello = false → failed % 256 = 0 → Effects (linkFin k) (.laneStartupComplete k failed) s fun u =>
    u = s.modLink k fun l => { l with hello := true, x4 := false, highHalf := false }) ∧
  (∀ s k failed, LinkRuns k s → (s.link k).st = .training → (s.link k).hello = false → failed % 256 ≠ 0 → (s.link k).allowX4 = true →
    (failed % 16 = 0 ∨ failed % 256 / 16 = 0) → Effects (linkFin k) (.laneStartupComplete k failed) s fun u =>
      u = s.modLink k fun l => { l with hello := true, x4 := true, highHalf := decide (failed % 16 ≠ 0) }) ∧
  (∀ s k failed, LinkRuns k s → (s.link k).st = .training → (s.link k).hello = false → failed % 256 ≠ 0 →
    ((s.link k).allowX4 = false ∨ (failed % 16 ≠ 0 ∧ failed % 256 / 16 ≠ 0)) → Effects (linkFin k) (.laneStartupComplete k failed) s (TrainFailed k 2 s)) ∧
  (∀ s k f, LinkRuns k s → (s.link k).st = .training → (s.link k).hello = true → flitGood f = true → flitKind f = 0 → bit (byteAt f 6) 3 = true →
    fld f 40 4 ∈ (s.link k).pings → byteAt f 32 = 1 → fld f 20 8 ≠ s.mgmt.fuses.dsn → (localNs s + 2 ^ 32 - fld f 40 4) % 2 ^ 32 ≤ 1200 →
    Effects (linkFin k) (.hello k f) s fun u =>
      (u.link k).st = .up ∧ (u.link k).hello = false ∧ (u.link k).fails = 0 ∧ (u.link k).lastReason = 0 ∧ (u.link k).rtt = (localNs s + 2 ^ 32 - fld f 40 4) % 2 ^ 32 ∧
      (u.link k).peerDsn = fld f 20 8 ∧ (u.link k).peerLink = byteAt f 28 % 16 ∧ (u.link k).peerRack = byteAt f 29 ∧ (u.link k).peerSlot = byteAt f 30 ∧
      (u.link k).peerVariant = byteAt f 31 ∧ (∀ v, v < 4 → ((u.link k).vtx v).held = grantOf v) ∧ LinkTold k s u) ∧
  (∀ s k f, LinkRuns k s → (s.link k).st = .training → (s.link k).hello = true → flitGood f = true → flitKind f = 0 → bit (byteAt f 6) 3 = true →
    fld f 40 4 ∈ (s.link k).pings → (byteAt f 32 ≠ 1 ∨ fld f 20 8 = s.mgmt.fuses.dsn ∨ 1200 < (localNs s + 2 ^ 32 - fld f 40 4) % 2 ^ 32) →
    Effects (linkFin k) (.hello k f) s (TrainFailed k (if byteAt f 32 ≠ 1 then 3 else if fld f 20 8 = s.mgmt.fuses.dsn then 4 else 5) s)) ∧
  (∀ s k f, LinkRuns k s → (s.link k).st = .training → (s.link k).hello = true → flitGood f = true → flitKind f = 0 → bit (byteAt f 6) 3 = true →
    fld f 40 4 ∉ (s.link k).pings → Effects (linkFin k) (.hello k f) s fun u => u = s.modLink k fun l => { l with peerPing := fld f 36 4 }) ∧
  (∀ s k, LinkRuns k s → (s.link k).st = .training → Effects (linkFin k) (.linkTrainingTimeout k) s (TrainFailed k 1 s)) ∧
  (∀ s k, LinkRuns k s → (s.link k).st = .down → (s.link k).en = true → Effects (linkFin k) (.linkRetryTimer k) s fun u =>
    (u.link k).fails = (s.link k).fails ∧ LinkCleared k .training s u) ∧
  (∀ s k, LinkRuns k s → (s.link k).st = .up → Effects (linkFin k) (.laneLockLost k) s fun u => u = s.modLink k fun l => { l with st := .retrain }) ∧
  (∀ s k, LinkRuns k s → (s.link k).st = .retrain → (s.link k).sameStart < 7 → Effects (linkFin k) (.fastRetrainComplete k) s fun u =>
    (u.link k).st = .up ∧ (u.link k).replay = (s.link k).replay ∧ ((s.link k).replay ≠ [] → (u.link k).resend = (s.link k).replay) ∧ LinkOnly k s u) ∧
  (∀ s k, LinkRuns k s → (s.link k).st = .retrain → Effects (fun u => linkFin k (collLinkReset k u)) (.fastRetrainTimeout k) s fun u =>
    (u.link k).fails = 0 ∧ LinkCleared k .training s u) ∧
  (∀ s k, LinkRuns k s → ((s.link k).st = .up ∨ (s.link k).st = .retrain) → Effects (fun u => linkFin k (collLinkReset k u)) (.peerSilentTimeout k) s (LinkCleared k .down s))

/-- R400 to R419, R405: flits are accepted in order, messages are put together, acknowledgements, replays, credits and audits.
The model's own choices in it: log entries 1, 4, 9, 55. -/
def Obligations.LinkFlits : Prop :=
  (∀ s k, LinkRuns k s → (s.link k).st = .up → Effects (linkFin k) (.codewordPairUncorrectable k) s fun u =>
    u = s.modLink k fun l => { l with badPairs := l.badPairs + 1, nakSent := true, nakPending := l.nakPending || !l.nakSent }) ∧
  (∀ s k f, LinkRuns k s → (s.link k).st = .up → flitGood f = false → Effects (linkFin k) (.dataFlitReceived k f) s fun u =>
    u = s.modLink k fun l => { l with crcDiscards := l.crcDiscards + 1, nakSent := true, nakPending := l.nakPending || !l.nakSent }) ∧
  (∀ s k f d, LinkRuns k s → (s.link k).st = .up → flitGood f = true → flitKind f = 1 → d = seqSub (flitSeq f) (((s.link k).lastAcc + 1) % 65536) → 0 < d →
    Effects (linkFin k) (.dataFlitReceived k f) s fun u =>
      u = if d < 32768 then s.modLink k fun l => { l with nakSent := true, nakPending := l.nakPending || !l.nakSent } else s) ∧
  (∀ s k f, NextFlit s k f → ((s.link k).vrx (flitVc f)).part = none → flitSom f = true → flitEom f = true → flitVc f ≠ 0 →
    typeOnVc (flitVc f) (msgType (flitPayload f)) = true → flitsOk (flitPayload f) = true → msgFlits (flitPayload f) = 1 →
    Effects (linkFin k) (.dataFlitReceived k f) s fun u =>
      ((u.link k).vrx (flitVc f)).inbox = ((s.link k).vrx (flitVc f)).inbox ++ [flitPayload f] ∧ ((u.link k).vrx (flitVc f)).part = none ∧
      ((u.link k).vrx (flitVc f)).buf = ((s.link k).vrx (flitVc f)).buf + 1 ∧ FlitTaken k f s u ∧ Only [.links] s u) ∧
  (∀ s k f, NextFlit s k f → ((s.link k).vrx 0).part = none → flitSom f = true → flitEom f = true → flitVc f = 0 →
    typeOnVc 0 (msgType (flitPayload f)) = true → flitsOk (flitPayload f) = true → msgFlits (flitPayload f) = 1 →
    Effects (linkFin k) (.dataFlitReceived k f) s fun u =>
      u.adit = (if s.adit.a5in.length < 64 then { s.adit with a5in := s.adit.a5in ++ [(k, flitPayload f)] } else { s.adit with a5Dropped := s.adit.a5Dropped + 1 }) ∧
      ((u.link k).vrx 0).buf = ((s.link k).vrx 0).buf ∧ ((u.link k).vrx 0).ret = (((s.link k).vrx 0).ret + 1) % 65536 ∧ FlitTaken k f s u ∧ Only [.links, .adit] s u) ∧
  (∀ s k f, NextFlit s k f → ((s.link k).vrx (flitVc f)).part = none → flitSom f = true → flitEom f = false →
    typeOnVc (flitVc f) (msgType (flitPayload f)) = true → flitsOk (flitPayload f) = true → 1 < msgFlits (flitPayload f) → msgFlits (flitPayload f) ≤ 32 →
    Effects (linkFin k) (.dataFlitReceived k f) s fun u =>
      ((u.link k).vrx (flitVc f)).part = some (1, flitPayload f) ∧ ((u.link k).vrx (flitVc f)).inbox = ((s.link k).vrx (flitVc f)).inbox ∧ FlitTaken k f s u ∧ Only [.links] s u) ∧
  (∀ s k f n m, NextFlit s k f → ((s.link k).vrx (flitVc f)).part = some (n, m) → flitSom f = false → flitEom f = true → flitVc f ≠ 0 → n + 1 = msgFlits (m ++ flitPayload f) →
    Effects (linkFin k) (.dataFlitReceived k f) s fun u =>
      ((u.link k).vrx (flitVc f)).inbox = ((s.link k).vrx (flitVc f)).inbox ++ [m ++ flitPayload f] ∧ ((u.link k).vrx (flitVc f)).part = none ∧
      FlitTaken k f s u ∧ Only [.links] s u) ∧
  (∀ s k f n m, NextFlit s k f → ((s.link k).vrx (flitVc f)).part = some (n, m) → flitSom f = false → flitEom f = false → n + 1 ≠ msgFlits (m ++ flitPayload f) →
    Effects (linkFin k) (.dataFlitReceived k f) s fun u =>
      ((u.link k).vrx (flitVc f)).part = some (n + 1, m ++ flitPayload f) ∧ ((u.link k).vrx (flitVc f)).inbox = ((s.link k).vrx (flitVc f)).inbox ∧ FlitTaken k f s u ∧ Only [.links] s u) ∧
  (∀ s k f, NextFlit s k f → ((s.link k).vrx (flitVc f)).part = none → flitSom f = true →
    (typeOnVc (flitVc f) (msgType (flitPayload f)) = false ∨ flitsOk (flitPayload f) = false ∨ 32 < msgFlits (flitPayload f)) →
    Effects (linkFin k) (.dataFlitReceived k f) s fun u =>
      (u.link k).malformed = (s.link k).malformed + 1 ∧ ((u.link k).vrx (flitVc f)).skip = true ∧ ((u.link k).vrx (flitVc f)).inbox = ((s.link k).vrx (flitVc f)).inbox ∧
      ((u.link k).vrx (flitVc f)).buf = ((s.link k).vrx (flitVc f)).buf ∧ FlitTaken k f s u ∧ Only [.links] s u) ∧
  (∀ s k f, LinkRuns k s → (s.link k).st = .up → flitGood f = false → Effects (linkFin k) (.lctlReceived k f) s fun u =>
    u = s.modLink k fun l => { l with crcDiscards := l.crcDiscards + 1 }) ∧
  (∀ s k f, LinkRuns k s → (s.link k).st = .up → flitGood f = true → flitKind f = 0 → bit (byteAt f 6) 3 = false → Effects (linkFin k) (.lctlReceived k f) s fun u =>
    (∀ v, v < 4 → ((u.link k).vtx v).held = ((s.link k).vtx v).held + seqSub (fld f (8 + 2 * v) 2) ((s.link k).vtx v).seen ∧
      ((u.link k).vtx v).seen = fld f (8 + 2 * v) 2 ∧ ((u.link k).vtx v).queue = ((s.link k).vtx v).queue) ∧ LinkOnly k s u) ∧
  (∀ s k f, LinkRuns k s → (s.link k).st = .up → flitGood f = true → flitKind f = 0 → bit (byteAt f 6) 3 = false → bit (byteAt f 6) 0 = true →
    ackValid (s.link k) (fld f 4 2) = true → (∃ x ∈ (s.link k).replay, flitSeq x = fld f 4 2) → Effects (linkFin k) (.lctlReceived k f) s fun u =>
      (u.link k).replay = (s.link k).replay.drop (((s.link k).replay.takeWhile (fun x => flitSeq x != fld f 4 2)).length + 1) ∧
      (bit (byteAt f 6) 1 = true → (u.link k).replay ≠ [] → (u.link k).resend = (u.link k).replay ∧ (u.link k).sameStart = 1)) ∧
  (∀ s k f, LinkRuns k s → (s.link k).st = .up → (s.link k).fault = none → flitGood f = true → flitKind f = 0 → bit (byteAt f 6) 3 = false → bit (byteAt f 6) 0 = true →
    ackValid (s.link k) (fld f 4 2) = false → Effects (linkFin k) (.lctlReceived k f) s fun u => (u.link k).fault = some (2, 0)) ∧
  (∀ s k, LinkRuns k s → (s.link k).st = .up → (s.link k).replay ≠ [] → (s.link k).sameStart < 7 → Effects (linkFin k) (.replayTimeout k) s fun u =>
    u = s.modLink k fun l => { l with resend := l.replay, sameStart := l.sameStart + 1, replays := l.replays + 1 }) ∧
  (∀ s k, LinkRuns k s → (s.link k).st = .up → (s.link k).replay ≠ [] → 7 ≤ (s.link k).sameStart → (s.link k).fault = none → Effects (linkFin k) (.replayTimeout k) s fun u =>
    (u.link k).fault = some (2, 0) ∧ LinkOnly k s u) ∧
  (∀ s k, LinkRuns k s → (s.link k).st = .up → Effects (linkFin k) (.nakHoldoffExpiry k) s fun u => u = s.modLink k fun l => { l with nakSent := false }) ∧
  (∀ s k, LinkRuns k s → (s.link k).st = .up → Effects (linkFin k) (.auditSend k) s fun u => u = s.modLink k fun l => { l with auditDue := true })

/-- R394, R395, R403, R406, R408, R410, R411: what a flit slot carries.
The model's own choices in it: log entries 1, 4, 9, 40, 55. -/
def Obligations.FlitSlots : Prop :=
  (∀ s k, LinkRuns k s → (s.link k).st = .training → (s.link k).hello = true → Effects (linkFin k) (.flitSlotTransmit k) s fun u =>
    (u.link k).lastFlit = lctlFlit s k true false ∧ localNs s ∈ (u.link k).pings ∧ LinkOnly k s u) ∧
  (∀ s k, LinkRuns k s → (s.link k).st = .up → (s.link k).helloOwed = false → lctlDue (s.link k) = true → Effects (linkFin k) (.flitSlotTransmit k) s fun u =>
    (u.link k).lastFlit = lctlFlit s k false (s.link k).auditDue ∧ (u.link k).dataSince = 0 ∧ (u.link k).slotsSince = 0 ∧ (u.link k).nakPending = false ∧
    (u.link k).auditDue = false ∧ (u.link k).nextSeq = (s.link k).nextSeq ∧ LinkOnly k s u) ∧
  (∀ s k f r, LinkRuns k s → (s.link k).st = .up → (s.link k).helloOwed = false → lctlDue (s.link k) = false → (s.link k).resend = f :: r →
    Effects (linkFin k) (.flitSlotTransmit k) s fun u =>
      (u.link k).lastFlit = f ∧ (u.link k).resend = r ∧ (u.link k).replay = (s.link k).replay ∧ (u.link k).nextSeq = (s.link k).nextSeq ∧
      (u.link k).dataSince = (s.link k).dataSince + 1 ∧ LinkOnly k s u) ∧
  (∀ s k, LinkRuns k s → (s.link k).st = .up → (s.link k).helloOwed = false → lctlDue (s.link k) = false → (s.link k).resend = [] → 4096 ≤ (s.link k).replay.length →
    Effects (linkFin k) (.flitSlotTransmit k) s fun u =>
      (u.link k).lastFlit = lctlFlit s k false false ∧ (u.link k).replay = (s.link k).replay ∧ (u.link k).nextSeq = (s.link k).nextSeq ∧ LinkOnly k s u) ∧
  (∀ s k m, LinkRuns k s → (s.link k).st = .up → (s.link k).helloOwed = false → lctlDue (s.link k) = false → (s.link k).resend = [] → (s.link k).replay.length < 4096 →
    s.adit.a5out.find? (fun e => e.1 == k) = some (k, m) → ((s.link k).vtx 0).rest = [] → 1 ≤ ((s.link k).vtx 0).held → 1 ≤ (s.link k).tokens →
    Effects (linkFin k) (.flitSlotTransmit k) s fun u =>
      (u.link k).lastFlit = dataFlit 0 (s.link k).nextSeq true true m ∧ (u.link k).replay = (s.link k).replay ++ [dataFlit 0 (s.link k).nextSeq true true m] ∧
      (u.link k).nextSeq = ((s.link k).nextSeq + 1) % 65536 ∧ ((u.link k).vtx 0).held = ((s.link k).vtx 0).held - 1 ∧
      u.adit.a5out = dropFirst (fun x => x.1 == k) s.adit.a5out ∧ (∀ j, j ≠ k → u.link j = s.link j) ∧ Only [.adit, .links] s u) ∧
  (∀ s k v l, LinkRuns k s → (s.link k).st = .up → (s.link k).helloOwed = false → lctlDue (s.link k) = false → (s.link k).resend = [] → (s.link k).replay.length < 4096 →
    (vcCan s k 0 = false ∨ (s.link k).tokens = 0) → vcDrr (vcCan s k) 4 (s.link k) = some (v, l) → 1 ≤ v →
    (∀ p r, (l.vtx v).rest = p :: r → Effects (linkFin k) (.flitSlotTransmit k) s fun u =>
      (u.link k).lastFlit = dataFlit v l.nextSeq false r.isEmpty p ∧ (u.link k).replay = l.replay ++ [dataFlit v l.nextSeq false r.isEmpty p] ∧
      ((u.link k).vtx v).rest = r ∧ ((u.link k).vtx v).held = (l.vtx v).held - 1 ∧ (u.link k).nextSeq = (l.nextSeq + 1) % 65536 ∧ LinkOnly k s u) ∧
    (∀ m q p r, (l.vtx v).rest = [] → (l.vtx v).queue = m :: q → payloads (msgFlits m) m = p :: r → Effects (linkFin k) (.flitSlotTransmit k) s fun u =>
      (u.link k).lastFlit = dataFlit v l.nextSeq true r.isEmpty p ∧ (u.link k).replay = l.replay ++ [dataFlit v l.nextSeq true r.isEmpty p] ∧
      ((u.link k).vtx v).rest = r ∧ ((u.link k).vtx v).queue = q ∧ ((u.link k).vtx v).held = (l.vtx v).held - 1 ∧ (u.link k).nextSeq = (l.nextSeq + 1) % 65536 ∧ LinkOnly k s u))

/-- R420 to R426, R432, R466: VC-MEM requests at the target, responses at the requester, and the second's counts.
The model's own choices in it: log entries 1, 4, 9, 56. -/
def Obligations.LinkMemory : Prop :=
  (∀ s k m c base, Waits s k 3 0x01 m → Opens s m c base → (msgAckReq m = true → respUsed (s.link k) < 64) → Effects (linkFin k) (.mwrite k) s fun u =>
    u.mem = (devWrite c (base + 64 * msgOffset m) (base + 64 * msgOffset m + 64 * msgLines m) (lineFuel (64 * msgLines m)) (base + 64 * msgOffset m)
      ((m.drop 16).take (64 * msgLines m)) (popInbox k 3 s)).1.mem ∧
    (u.link k).resps = (if msgAckReq m then (s.link k).resps ++ [{ read := false, msg := mackMsg m 0 }] else (s.link k).resps) ∧
    ((u.link k).vrx 3).inbox = ((s.link k).vrx 3).inbox.drop 1 ∧ (∀ j, j ≠ k → u.link j = s.link j) ∧ Only [.cages, .mem, .links] s u) ∧
  (∀ s k m st, Waits s k 3 0x01 m → memStatus s m = st → st ≠ 0 → (msgAckReq m = true → respUsed (s.link k) < 64) → Effects (linkFin k) (.mwrite k) s fun u =>
    ((u.link k).vtx 3).queue = ((s.link k).vtx 3).queue ++ (if msgAckReq m then [mackMsg m st] else []) ∧
    (u.link k).memDrops = (s.link k).memDrops + (if msgAckReq m then 0 else 1) ∧ ((u.link k).vrx 3).inbox = ((s.link k).vrx 3).inbox.drop 1 ∧ LinkOnly k s u) ∧
  (∀ s k m, Waits s k 3 0x01 m → msgAckReq m = true → 64 ≤ respUsed (s.link k) → Effects (linkFin k) (.mwrite k) s fun u =>
    (u.link k).memDrops = (s.link k).memDrops + 1 ∧ ((u.link k).vrx 3).inbox = ((s.link k).vrx 3).inbox.drop 1 ∧ LinkOnly k s u) ∧
  (∀ s k m c base, Waits s k 3 0x02 m → Opens s m c base → respUsed (s.link k) < 64 → Effects (linkFin k) (.mread k) s fun u =>
    (∃ bs ps, (bs, ps) = ((readLines c (base + 64 * msgOffset m) (msgLines m) (popInbox k 3 s)).1, (readLines c (base + 64 * msgOffset m) (msgLines m) (popInbox k 3 s)).2.1) ∧
      (u.link k).resps = (s.link k).resps ++ [{ read := true, msg := mkMsg 3 (msgLines m) (if ps.any id then 48 else 0) (msgTag m) 0 (maskNum ps) bs }]) ∧
    ((u.link k).vrx 3).inbox = ((s.link k).vrx 3).inbox.drop 1 ∧ (∀ j, j ≠ k → u.link j = s.link j) ∧ Only [.links, .free] s u) ∧
  (∀ s k m st, Waits s k 3 0x02 m → memStatus s m = st → st ≠ 0 → respUsed (s.link k) < 64 → Effects (linkFin k) (.mread k) s fun u =>
    ((u.link k).vtx 3).queue = ((s.link k).vtx 3).queue ++ [mkShort 3 (16 * st) (msgTag m) 0 0 []] ∧ ((u.link k).vrx 3).inbox = ((s.link k).vrx 3).inbox.drop 1 ∧ LinkOnly k s u) ∧
  (∀ s k m, Waits s k 3 0x02 m → 64 ≤ respUsed (s.link k) → Effects (linkFin k) (.mread k) s fun u =>
    (u.link k).memDrops = (s.link k).memDrops + 1 ∧ ((u.link k).vrx 3).inbox = ((s.link k).vrx 3).inbox.drop 1 ∧ LinkOnly k s u) ∧
  (∀ x ∈ [(false, Instr.mwriteLinesAcked), (true, Instr.mreadDataReady)], ∀ s k r, LinkRuns k s → (s.link k).resps.find? (fun r => r.read == x.1) = some r →
    Effects (linkFin k) (x.2 k) s fun u => ((u.link k).vtx 3).queue = ((s.link k).vtx 3).queue ++ [r.msg] ∧
      (u.link k).resps = dropFirst (fun y => y.read == x.1) (s.link k).resps ∧ LinkOnly k s u) ∧
  (∀ s k m r, Waits s k 3 0x03 m → (s.link k).memReqs.find? (fun r => r.tag == msgTag m) = some r → (msgStatus m = 1 ∨ msgStatus m = 2) →
    Effects (fun u => linkFin k (collEnd r.h 0x53 6 u)) (.mdata k) s fun u => u = dropMemReq k r.tag (popInbox k 3 s)) ∧
  (∀ s k m r g o, Waits s k 3 0x03 m → (s.link k).memReqs.find? (fun r => r.tag == msgTag m) = some r → msgStatus m ≠ 1 → msgStatus m ≠ 2 →
    s.grp r.h = some g → g.cur = some o → Effects (fun u => linkFin k (askLines r.h r.strand 64 u)) (.mdata k) s fun u =>
      u.mem = (writeLines g.cage (chunkAddr g o (posOf g o r.strand (o.strand r.strand).recv true) + 64 * r.line)
        ((List.range (min r.n (msgLines m))).map (fun i => { bs := (m.drop (16 + 64 * i)).take 64, psn := bit (msgOffset m) i })) (dropMemReq k r.tag (popInbox k 3 s))).mem ∧
      (u.link k).memReqs = (s.link k).memReqs.filter (fun x => x.tag != r.tag) ∧ (∀ j, j ≠ k → u.link j = s.link j) ∧ Only [.mem, .links, .coll] s u) ∧
  (∀ s k m, Waits s k 3 0x04 m → Effects (linkFin k) (.mack k) s fun u => u = dropMemReq k (msgTag m) (popInbox k 3 s)) ∧
  (∀ s k tag r, LinkRuns k s → (s.link k).memReqs.find? (fun r => r.tag == tag) = some r → Effects (fun u => linkFin k (peerLost r.h k 1 u)) (.vcMemTimeout k tag) s fun u =>
    u = s.modLink k fun l => { l with memReqs := l.memReqs.filter (fun x => x.tag != tag) }) ∧
  (∀ s k n, LinkRuns k s → Effects (linkFin k) (.linkErrRateTimer k n) s fun u =>
    u.link k = { s.link k with badPairs := 0, crcDiscards := 0, replays := 0, malformed := 0, memDrops := 0 } ∧ LinkTold k s u) ∧
  (∀ s k n, LinkRuns k s → n + (s.link k).badPairs + (s.link k).crcDiscards + (s.link k).replays + (s.link k).malformed + (s.link k).memDrops = 0 →
    Effects (linkFin k) (.linkErrRateTimer k n) s fun u => Only [.links] s u)

/-! ### Collectives -/

/-- R433, R438 to R440, R443, R447 to R450, R482: the commands that create and destroy groups and that register buffers.
The model's own choices in it: log entries 1, 4, 9, 58, 59. -/
def Obligations.CollectiveGroups : Prop :=
  (∀ s f r e df p d, Taken specCollCreate 0x20 f r s e df p d → gidOf s (fld d 16 8) = none →
    (groupFor (freeCtx s) ((s.slot e.2.1).ring / 16) d s).staging ≤ stagingFree s (quarterFor s) → Effects (ran e) (.collGroupCreate f r) s fun u =>
      u.grp (freeHandle s) = some (groupFor (freeCtx s) ((s.slot e.2.1).ring / 16) d s) ∧ (∀ h, h ≠ freeHandle s → u.grp h = s.grp h) ∧
      (u.ctx (freeCtx s)).ph = .held ∧ (∀ j, j < byteAt d 28 → Sent (collSucc d j) 1 (helloOf (groupFor (freeCtx s) ((s.slot e.2.1).ring / 16) d s) j) s u) ∧
      Only [.rings, .links, .coll] s u) ∧
  (∀ s f r e df p d x, Taken specCollCreate 0x20 f r s e df p d → gidOf s (fld d 16 8) = some x → Effects (ran e) (.collGroupCreate f r) s
    (Ended (freeCtx s) 0x33 18 0 (took e df p d s))) ∧
  (∀ s f r e df p d, Taken specCollCreate 0x20 f r s e df p d → gidOf s (fld d 16 8) = none →
    stagingFree s (quarterFor s) < (groupFor (freeCtx s) ((s.slot e.2.1).ring / 16) d s).staging → Effects (ran e) (.collGroupCreate f r) s
      (Ended (freeCtx s) 0x33 11 0 (took e df p d s))) ∧
  (∀ s f r e df p d g, Taken specCollDestroy 0x21 f r s e df p d → Stands s (byteAt d 16) g → g.ops = [] → g.regs = [] → g.createCtx = none →
    Effects (ran e) (.collGroupDestroy f r) s fun u =>
      u.grp (byteAt d 16) = none ∧ (∀ h, h ≠ byteAt d 16 → u.grp h = s.grp h) ∧ (u.ctx (freeCtx s)).ph = .ending ∧ (u.ctx (freeCtx s)).status = 0 ∧
      (∀ k ∈ g.near, mkShort 0x19 0 0 0 0 (packFlds 40 [(0, 8, g.gid)]) ∈ ((u.link k).vtx 1).queue) ∧ Only [.rings, .links, .coll] s u) ∧
  (∀ s f r e df p d g, Taken specCollDestroy 0x21 f r s e df p d → Stands s (byteAt d 16) g →
    Effects (fun u => ran e (destroyGroup (byteAt d 16) (some (freeCtx s)) u)) (.collGroupDestroy f r) s fun u =>
      (u.ctx (freeCtx s)).ph = .held ∧ CtxOnly (freeCtx s) (took e df p d s) u) ∧
  (∀ s f r e df p d, Taken specCollDestroy 0x21 f r s e df p d → (∀ g, ¬ Stands s (byteAt d 16) g) → Effects (ran e) (.collGroupDestroy f r) s
    (Ended (freeCtx s) 0x33 12 0 (took e df p d s))) ∧
  (∀ s f r e df p d, Taken specCollReg 0x22 f r s e df p d → (∀ g, ¬ Stands s (byteAt d 16) g) → Effects (ran e) (.collBufRegister f r) s
    (Ended (freeCtx s) 0x33 12 0 (took e df p d s))) ∧
  (∀ x ∈ [(0x23, specCollOp true, Instr.reduceScatter), (0x24, specCollOp false, Instr.allGather)],
    ∀ s f r e df p d, Taken x.2.1 x.1 f r s e df p d →
      (s.mem.offline = true → Effects (ran e) (x.2.2 f r) s (Ended (freeCtx s) 0x33 10 0 (took e df p d s))) ∧
      (s.mem.offline = false → s.mem.trainEnded = false → Effects (ran e) (x.2.2 f r) s fun u =>
        (u.ctx (freeCtx s)).trainWait = true ∧ (u.ctx (freeCtx s)).ph = .prep ∧ CtxOnly (freeCtx s) (took e df p d s) u) ∧
      (MemReady s → (∀ g, ¬ Stands s (byteAt d 16) g) → Effects (ran e) (x.2.2 f r) s (Ended (freeCtx s) 0x33 12 0 (took e df p d s)))) ∧
  (∀ s f r e df p d g, Taken specCollReg 0x22 f r s e df p d → Stands s (byteAt d 16) g → bit (byteAt d 18) 0 = false → g.buf (byteAt d 17) = none →
    (∀ q ∈ pagesOf (opB d) (opLen d), (s.page ((s.slot e.2.1).ring / 16) q).sticky = true) →
    Effects (fun u => ran e (checkRegs (byteAt d 16) u)) (.collBufRegister f r) s fun u =>
      ∃ key, key = (if s.coll.keyNext = 0 then 1 else s.coll.keyNext).toNat ∧ u.coll.keyNext.toNat = (key + 1) % 2 ^ 32 ∧
        tget none u.coll.keys key = some (byteAt d 16, byteAt d 17) ∧
        u.grp (byteAt d 16) = some { g with bufs := tins g.bufs (byteAt d 17) { base := opB d, len := opLen d, key := key }, regs := g.regs ++ [(byteAt d 17, freeCtx s)] } ∧
        (u.ctx (freeCtx s)).ph = .held ∧ (∀ h, h ≠ byteAt d 16 → u.grp h = s.grp h) ∧ Only [.rings, .links, .coll] s u) ∧
  (∀ s f r e df p d g, Taken specCollReg 0x22 f r s e df p d → Stands s (byteAt d 16) g → bit (byteAt d 18) 0 = false →
    ((g.buf (byteAt d 17)).isSome = true ∨ ∃ q ∈ pagesOf (opB d) (opLen d), (s.page ((s.slot e.2.1).ring / 16) q).sticky = false) → Effects (ran e) (.collBufRegister f r) s
      (Ended (freeCtx s) 0x33 (if (g.buf (byteAt d 17)).isSome then 14 else 13) 0 (took e df p d s))) ∧
  (∀ s f r e df p d g b, Taken specCollReg 0x22 f r s e df p d → Stands s (byteAt d 16) g → bit (byteAt d 18) 0 = true → g.buf (byteAt d 17) = some b →
    (∀ o ∈ g.ops, o.index ≠ byteAt d 17) → Effects (ran e) (.collBufRegister f r) s fun u =>
      u.grp (byteAt d 16) = some { g with bufs := g.bufs.filter (fun e => e.1 != byteAt d 17), regs := g.regs.filter (fun e => e.1 != byteAt d 17) } ∧
      tget none u.coll.keys b.key = none ∧ (u.ctx (freeCtx s)).ph = .ending ∧ (u.ctx (freeCtx s)).status = 0 ∧ Only [.rings, .links, .coll] s u) ∧
  (∀ s f r e df p d g, Taken specCollReg 0x22 f r s e df p d → Stands s (byteAt d 16) g → bit (byteAt d 18) 0 = true →
    (g.buf (byteAt d 17) = none ∨ ∃ o ∈ g.ops, o.index = byteAt d 17) → Effects (ran e) (.collBufRegister f r) s
      (Ended (freeCtx s) 0x33 (if (g.buf (byteAt d 17)).isSome then 15 else 16) 0 (took e df p d s)))

/-- R443 to R445, R449, R450, R482: the messages by which groups and keys become known, and the waits for them.
The model's own choices in it: log entries 1, 4, 9, 57, 59. -/
def Obligations.GroupMessages : Prop :=
  (∀ x ∈ [(0x16, Instr.groupHello), (0x17, Instr.groupAck), (0x18, Instr.keyOffer), (0x19, Instr.groupBye)], ∀ s k m, Waits s k 1 x.1 m →
    gidOf s (fld m 16 8) = none → Effects (linkFin k) (x.2 k) s fun u => u = collDiscard (popInbox k 1 s)) ∧
  (∀ s k m h g, Waits s k 1 0x16 m → gidOf s (fld m 16 8) = some (h, g) → s.grp h = some g → helloCode g k m = 0 →
    Effects (fun u => linkFin k (checkCreate h u)) (.groupHello k) s fun u =>
      u.grp h = some { g with predOk := nadd g.predOk (byteAt m 31) } ∧ (∀ j, j ≠ h → u.grp j = s.grp j) ∧ Sent k 1 (ackOf g.gid (byteAt m 31) 0) s u ∧
      (∀ j, j ≠ k → u.link j = s.link j) ∧ Only [.links, .coll] s u) ∧
  (∀ s k m h g n, Waits s k 1 0x16 m → gidOf s (fld m 16 8) = some (h, g) → s.grp h = some g → helloCode g k m = 0 → g.createCtx = some n →
    (∀ j, j < g.strands → j ∈ g.succOk ∧ j ∈ nadd g.predOk (byteAt m 31)) → Effects (linkFin k) (.groupHello k) s fun u =>
      (u.ctx n).ph = .ending ∧ (u.ctx n).status = 0 ∧ (u.ctx n).result = h + 64 * g.quarter ∧
      u.grp h = some { g with predOk := nadd g.predOk (byteAt m 31), createCtx := none } ∧ Only [.rings, .links, .coll] s u) ∧
  (∀ s k m h g n, Waits s k 1 0x16 m → gidOf s (fld m 16 8) = some (h, g) → s.grp h = some g → helloCode g k m ≠ 0 → g.createCtx = some n →
    Effects (linkFin k) (.groupHello k) s fun u =>
      u.grp h = none ∧ (∀ j, j ≠ h → u.grp j = s.grp j) ∧ (u.ctx n).ph = .ending ∧ (u.ctx n).status = 0x53 ∧ (u.ctx n).detail = helloCode g k m ∧
      Sent k 1 (ackOf g.gid (byteAt m 31) (helloCode g k m)) s u ∧ Only [.rings, .links, .coll] s u) ∧
  (∀ s h g, s.dataUp = true → s.grp h = some g → (∀ i j, i < g.strands → j < g.strands → g.succ.getD i 0 = g.succ.getD j 0 → i = j) →
    Effects settle (.groupHelloResend h) s fun u =>
      (∀ j, j < g.strands → j ∉ g.succOk → Sent (g.succ.getD j 0) 1 (helloOf g j) s u) ∧ Only [.links] s u) ∧
  (∀ s k m h g, Waits s k 1 0x17 m → gidOf s (fld m 16 8) = some (h, g) → s.grp h = some g → byteAt m 24 < g.strands → g.succ.getD (byteAt m 24) 0 = k → byteAt m 25 = 0 →
    Effects (fun u => linkFin k (checkCreate h u)) (.groupAck k) s fun u =>
      u.grp h = some { g with succOk := nadd g.succOk (byteAt m 24) } ∧ (∀ j, j ≠ h → u.grp j = s.grp j) ∧ u.links = (popInbox k 1 s).links ∧ Only [.links, .coll] s u) ∧
  (∀ s k m h g n, Waits s k 1 0x17 m → gidOf s (fld m 16 8) = some (h, g) → s.grp h = some g → byteAt m 24 < g.strands → g.succ.getD (byteAt m 24) 0 = k → byteAt m 25 ≠ 0 →
    g.createCtx = some n → Effects (linkFin k) (.groupAck k) s fun u =>
      u.grp h = none ∧ (u.ctx n).ph = .ending ∧ (u.ctx n).status = 0x53 ∧ (u.ctx n).detail = byteAt m 25 ∧ Only [.rings, .links, .coll] s u) ∧
  (∀ s k m h g, Waits s k 1 0x17 m → gidOf s (fld m 16 8) = some (h, g) → (g.strands ≤ byteAt m 24 ∨ g.succ.getD (byteAt m 24) 0 ≠ k) →
    Effects (linkFin k) (.groupAck k) s fun u => u = collDiscard (popInbox k 1 s)) ∧
  (∀ s k m h g, Waits s k 1 0x18 m → gidOf s (fld m 16 8) = some (h, g) → s.grp h = some g → Effects (fun u => linkFin k (checkRegs h u)) (.keyOffer k) s fun u =>
    (∃ g', u.grp h = some g' ∧ g' = { g with keysSucc := g'.keysSucc, keysPred := g'.keysPred } ∧
      (g.succ.getD 0 0 = k → tget 0 g'.keysSucc (byteAt m 24) = fld m 28 4) ∧ (g.succ.getD 0 0 ≠ k → g'.keysSucc = g.keysSucc) ∧
      (g.pred.getD 0 0 = k → tget 0 g'.keysPred (byteAt m 24) = fld m 28 4) ∧ (g.pred.getD 0 0 ≠ k → g'.keysPred = g.keysPred)) ∧
    (∀ j, j ≠ h → u.grp j = s.grp j) ∧ u.links = (popInbox k 1 s).links ∧ Only [.links, .coll] s u) ∧
  (∀ s k m h g i n b, Waits s k 1 0x18 m → gidOf s (fld m 16 8) = some (h, g) → s.grp h = some g → g.regs = [(i, n)] → g.buf i = some b → byteAt m 24 = i → fld m 28 4 ≠ 0 →
    (g.succ.getD 0 0 = k ∨ g.keyTo true i ≠ 0) → (g.pred.getD 0 0 = k ∨ g.keyTo false i ≠ 0) → Effects (linkFin k) (.keyOffer k) s fun u =>
      (u.ctx n).ph = .ending ∧ (u.ctx n).status = 0 ∧ (u.ctx n).result = b.key ∧ Only [.rings, .links, .coll] s u) ∧
  (∀ s k m h g, Waits s k 1 0x19 m → gidOf s (fld m 16 8) = some (h, g) → s.grp h = some g → g.broken = none → Effects (fun u => linkFin k (peerLost h k 3 u)) (.groupBye k) s fun u =>
    u.grp h = some { g with broken := some (3, k) } ∧ (∀ j, j ≠ h → u.grp j = s.grp j) ∧ u.links = (popInbox k 1 s).links ∧ Only [.host, .rings, .links, .coll] s u) ∧
  (∀ s h i g n, s.dataUp = true → s.grp h = some g → g.createCtx = some n → Effects settle (.collWaitExpiry h 0 i) s fun u =>
    u.grp h = none ∧ (∀ j, j ≠ h → u.grp j = s.grp j) ∧ (u.ctx n).ph = .ending ∧ (u.ctx n).status = 0x52 ∧ (u.ctx n).detail = lostDetail g.rank 0xFF 1 ∧ Only [.rings, .coll] s u) ∧
  (∀ s h i g x b, s.dataUp = true → s.grp h = some g → g.regs.find? (fun e => e.1 == i) = some x → g.buf i = some b → Effects settle (.collWaitExpiry h 1 i) s fun u =>
    u.grp h = some { g with regs := g.regs.filter (fun y => y != x), bufs := g.bufs.filter (fun y => y.1 != i) } ∧ tget none u.coll.keys b.key = none ∧
    (u.ctx x.2).ph = .ending ∧ (u.ctx x.2).status = 0x52 ∧ (u.ctx x.2).detail = lostDetail g.rank 0xFF 1 ∧ Only [.rings, .links, .coll] s u) ∧
  (∀ s h w i g o j, s.dataUp = true → 2 ≤ w → s.grp h = some g → g.cur = some o → (List.range g.strands).find? (fun j => !(o.strand j).ready) = some j →
    Effects (lostFin h (g.succ.getD j 0) 1) (.collWaitExpiry h w i) s fun u => u = s)

/-- R440 to R442, R453 to R456, R473, R480 to R482, R484: operations are queued, start, are aborted and end.
The model's own choices in it: log entries 1, 4, 9, 57, 58, 59. -/
def Obligations.CollectiveOperations : Prop :=
  (∀ x ∈ [(0x23, true, Instr.reduceScatter), (0x24, false, Instr.allGather)], ∀ s f r e df p d g, Taken (specCollOp x.2.1) x.1 f r s e df p d → MemReady s → Stands s (byteAt d 16) g →
    (((g.buf (byteAt d 17)).isSome = true ∧ g.keyTo true (byteAt d 17) ≠ 0 ∧ g.keyTo false (byteAt d 17) ≠ 0) →
      ((x.2.1 = false ∨ g.agOnly = false) → fld d 28 4 ≠ 0 → Effects (ran e) (x.2.2 f r) s fun u =>
        (∃ o : CollOp, u.grp (byteAt d 16) = some { g with opSeq := (g.opSeq + 1) % 65536, ops := g.ops ++ [o] } ∧
          o.ctx = freeCtx s ∧ o.seq = g.opSeq ∧ o.rs = x.2.1 ∧ o.index = byteAt d 17 ∧ o.dtype = byteAt d 18 ∧ o.op = byteAt d 19 ∧ o.acc32 = bit (byteAt d 20) 0 ∧
          o.bulk = bit (byteAt d 20) 1 ∧ o.logC = (if byteAt d 21 = 0 then autoChunk g (opBlock d) (opAcc32 d) else byteAt d 21) ∧ o.offset = fld d 24 4 ∧ o.count = fld d 28 4 ∧
          o.bound = (if opBind d then bindAt s ((s.slot e.2.1).ring / 16) d else none) ∧ o.dropped = (opBind d && o.bound.isNone) ∧ o.started = false ∧ o.ending = none) ∧
        (∀ h, h ≠ byteAt d 16 → u.grp h = s.grp h) ∧ (u.ctx (freeCtx s)).ph = .held ∧ Only [.rings, .coll] s u) ∧
      ((x.2.1 = false ∨ g.agOnly = false) → fld d 28 4 = 0 → Effects (ran e) (x.2.2 f r) s (Ended (freeCtx s) 0 0 0 (took e df p d s))) ∧
      (x.2.1 = true → g.agOnly = true → Effects (ran e) (x.2.2 f r) s (Ended (freeCtx s) 0x33 17 0 (took e df p d s)))) ∧
    ((g.buf (byteAt d 17) = none ∨ g.keyTo true (byteAt d 17) = 0 ∨ g.keyTo false (byteAt d 17) = 0) → Effects (ran e) (x.2.2 f r) s
      (Ended (freeCtx s) 0x33 16 0 (took e df p d s)))) ∧
  (∀ s h g o r v, s.dataUp = true → s.grp h = some g → g.ops = o :: r → o.started = false → g.createCtx = none → g.destroying = false →
    v = { g with ops := { o with started := true, gate := o.bound.isNone } :: r, aborts := g.aborts.filter (fun a => a.seq != o.seq) } →
    (g.broken = none → (∀ a ∈ g.aborts, a.seq ≠ o.seq) → Effects (fun u => settle (tryReady h u)) (.collOpStart h) s fun u => u.grp h = some v ∧ GrpOnly h s u) ∧
    (∀ c l, g.broken = some (c, l) → Effects (lostFin h l c) (.collOpStart h) s fun u => u.grp h = some v ∧ GrpOnly h s u) ∧
    (∀ a, g.broken = none → g.aborts.find? (fun a => a.seq == o.seq) = some a → Effects settle (.collOpStart h) s fun u =>
      u.grp h = some { v with ops := { o with started := true, gate := o.bound.isNone, ending := some (a.status, a.detail) } :: r } ∧
      u.coll.failed = s.coll.failed + 1 ∧ (∀ j, j ≠ h → u.grp j = s.grp j) ∧ Only [.coll] s u)) ∧
  (∀ s h g o n, s.dataUp = true → s.grp h = some g → g.cur = some o → o.bound = some n → Effects (fun u => settle (tryReady h u)) (.bindStartWaitEnd h) s fun u =>
    u = if (s.adm n).isNone then modOp h dropBind s else s) ∧
  (∀ s h g o n a, s.dataUp = true → Runs s h g o → o.bound = some n → s.adm n = some a → o.readySent = false → readyHeld s g o = false → g.early = [] →
    Effects settle (.bindStartWaitEnd h) s fun u =>
      (∃ g' o', u.grp h = some g' ∧ g'.cur = some o' ∧ o'.readySent = true ∧ ∀ j, j < g.strands → (o'.strand j).given = grantStart s g o) ∧
      (∀ j, j < g.strands → ∃ m ∈ ((u.link (g.pred.getD j 0)).vtx 1).queue, msgType m = 0x14 ∧ msgTag m = o.seq % 2 ^ 32) ∧ Only [.links, .coll] s u) ∧
  (∀ s h g o n a, s.dataUp = true → s.grp h = some g → g.cur = some o → o.bound = some n → s.adm n = some a → a.ph = .running →
    o.srcThresh ≤ (tget 0 (s.clus (a.clusters.getD o.srcCl 0)).arrs o.srcCtr).toNat → Effects (fun u => settle (flushFinals h u)) (.bindSourceGateMet h) s fun u =>
      u = modOp h (fun o => { o with gate := true }) s) ∧
  (∀ s k m h g o j, OpWaits s k 1 0x14 true m h g o j → o.readySent = true → (o.strand j).ready = false →
    (m.drop 16).take 5 = (packFlds 40 (readyBody o 0)).take 5 → fld m 24 4 = o.count → Effects (linkFin k) (.opReady k) s fun u =>
      StrandSet h j { o.strand j with ready := true, grant := byteAt m 21 } s u ∧ u.links = (popInbox k 1 s).links ∧ Only [.links, .coll] s u) ∧
  (∀ s k m h g o j, OpWaits s k 1 0x14 true m h g o j → o.readySent = true → ((m.drop 16).take 5 ≠ (packFlds 40 (readyBody o 0)).take 5 ∨ fld m 24 4 ≠ o.count) →
    Effects (fun u => linkFin k (collEnd h 0x53 5 u)) (.opReady k) s fun u => u = popInbox k 1 s) ∧
  (∀ s k m h g j, Waits s k 1 0x14 m → opTarget s k true m = some (h, g, j, false) → Effects (linkFin k) (.opReady k) s fun u =>
    u.grp h = some { g with early := g.early ++ [{ strand := j, seq := msgTag m % 65536, body := m }] } ∧ u.links = (popInbox k 1 s).links ∧ Only [.links, .coll] s u) ∧
  (∀ s k m h g o j, OpWaits s k 1 0x15 true m h g o j → Effects (linkFin k) (.opAbort k) s fun u =>
    u.coll = { (modOp h (fun o => { o with ending := some (byteAt m 16, fld m 20 4) }) s).coll with failed := s.coll.failed + 1 } ∧
    (g.p = 2 → u.links = (popInbox k 1 s).links) ∧ Only [.links, .coll] s u) ∧
  (∀ s k m h g o j, OpWaits s k 1 0x15 false m h g o j → opTarget s k true m = none → Effects (linkFin k) (.opAbort k) s fun u =>
    u.coll = { (modOp h (fun o => { o with ending := some (byteAt m 16, fld m 20 4) }) s).coll with failed := s.coll.failed + 1 } ∧
    (g.p = 2 → u.links = (popInbox k 1 s).links) ∧ Only [.links, .coll] s u) ∧
  (∀ s h k g o, s.dataUp = true → s.grp h = some g → g.cur = some o → (k ∈ g.succ ∨ k ∈ g.pred) →
    (∃ j, j < g.strands ∧ ((o.strand j).sent ≠ 0 ∨ (o.strand j).recv ≠ 0 ∨ (o.strand j).rx ≠ [])) → Effects (lostFin h k 1) (.collProgressTimeout h k) s fun u => u = s) ∧
  (∀ s h g o st dt, s.dataUp = true → s.grp h = some g → g.cur = some o → o.ending = some (st, dt) → Effects (fun u => settle (finishDestroy h u)) (.collDrainComplete h) s fun u =>
    u.grp h = some { g with ops := g.ops.drop 1, early := g.early.filter (fun e => e.seq != o.seq) } ∧ (∀ j, j ≠ h → u.grp j = s.grp j) ∧
    (u.ctx o.ctx).ph = .ending ∧ (u.ctx o.ctx).status = st ∧ (u.ctx o.ctx).detail = dt ∧ (u.ctx o.ctx).result = opResult o s ∧ Only [.rings, .links, .coll] s u) ∧
  (∀ s, s.dataUp = true → Effects settle .collErrCountTimer s fun u =>
    u.coll = { s.coll with recoveries := 0, recomputed := 0, failed := 0, discarded := 0 } ∧ Only [.host, .rings, .coll] s u)

/-- R453, R457, R460, R463 to R467, R475, R479: chunks are started, received, checked and acknowledged, and what is not expected is discarded.
The model's own choices in it: log entries 1, 4, 9, 57. -/
def Obligations.CollectiveChunks : Prop :=
  (∀ s q b h g o j c, s.dataUp = true → q < 4 → collWork s q b = [(h, c)] → collWork s q (!b) = [] → Runs s h g o → startable s h = [j] →
    Effects (fun u => settle (checkDone h u)) (.chunkStart q) s fun u =>
      ∃ v ls crc, Only [.free, .coll] s v ∧ v.coll.groups = s.coll.groups ∧
        ls = (if o.rs && decide (o.perStrand g.strands j ≤ (o.strand j).sent) then
            match (o.strand j).staged.find? (fun e => e.1 == (o.strand j).sent - o.perStrand g.strands j) with
            | some e => List.zipWith (reduceLine o) e.2 (readChunk g o (posOf g o j (o.strand j).sent false) v).1
            | none => (readChunk g o (posOf g o j (o.strand j).sent false) v).1
          else (readChunk g o (posOf g o j (o.strand j).sent false) v).1) ∧
        crc = (if o.rs || decide ((o.strand j).sent < o.perStrand g.strands j) then linesCrc ls else tget 0 (o.strand j).crcs ((o.strand j).sent - o.perStrand g.strands j)) ∧
        ((u.link (g.succ.getD j 0)).vtx o.vc).queue = ((s.link (g.succ.getD j 0)).vtx o.vc).queue ++ chunkMsgs g o (posOf g o j (o.strand j).sent false) crc ls ∧
        (∃ g' o', u.grp h = some g' ∧ g'.cur = some o' ∧ (o'.strand j).sent = (o.strand j).sent + 1 ∧ ∀ i, i ≠ j → o'.strand i = o.strand i) ∧
        (∀ i, i ≠ h → u.grp i = s.grp i) ∧ Only [.free, .links, .coll] s u) ∧
  (∀ s k w m h g o j q, OpWaits s k (w % 2 + 1) 0x11 false m h g o j → o.rs = true → chunkOf g o j (msgOffset m) = some q →
    ((o.strand j).got q).crc = none → msgOffset m - firstLine o (posOf g o j q true) = ((o.strand j).got q).lines.length →
    ((o.strand j).got q).lines.length + msgLines m ≤ chunkLines o (posOf g o j q true) → Effects (linkFin k) (.collData k w) s fun u =>
      StrandSet h j ((o.strand j).modGot q fun x => { x with lines := x.lines ++ (linesOf m).zipIdx.map (fun e => (x.lines.length + e.2, e.1)) }) s u ∧
      u.links = (popInbox k (w % 2 + 1) s).links ∧ Only [.links, .coll] s u) ∧
  (∀ s k w m h g o j q, OpWaits s k (w % 2 + 1) 0x10 false m h g o j → o.rs = false → chunkOf g o j (msgOffset m) = some q →
    ((o.strand j).got q).crc = none → msgOffset m - firstLine o (posOf g o j q true) = ((o.strand j).got q).lines.length →
    ((o.strand j).got q).lines.length + msgLines m ≤ chunkLines o (posOf g o j q true) → (∀ l ∈ linesOf m, l.psn = false) → Effects (linkFin k) (.collData k w) s fun u =>
      StrandSet h j ((o.strand j).modGot q fun x => { x with lines := x.lines ++ (linesOf m).zipIdx.map (fun e => (x.lines.length + e.2, e.1)) }) s u ∧
      u.mem = (writeLines g.cage (chunkAddr g o (posOf g o j q true) + 64 * ((o.strand j).got q).lines.length) (linesOf m) (popInbox k (w % 2 + 1) s)).mem ∧
      Only [.links, .coll, .mem] s u) ∧
  (∀ s k w m h g o j, OpWaits s k (w % 2 + 1) (if o.rs then 0x11 else 0x10) false m h g o j → chunkOf g o j (msgOffset m) = none → Effects (linkFin k) (.collData k w) s fun u =>
    u = collDiscard (popInbox k (w % 2 + 1) s)) ∧
  (∀ s k w m, (Waits s k (w % 2 + 1) 0x10 m ∨ Waits s k (w % 2 + 1) 0x11 m) → opTarget s k false m = none → Effects (linkFin k) (.collData k w) s fun u =>
    u = collDiscard (popInbox k (w % 2 + 1) s)) ∧
  (∀ s k w m h g o j q, OpWaits s k (w % 2 + 1) 0x12 false m h g o j → chunkOf g o j (msgOffset m) = some q → msgOffset m = firstLine o (posOf g o j q true) →
    fld m 20 4 = chunkLines o (posOf g o j q true) → ((o.strand j).got q).crc = none → Effects (linkFin k) (.chunkEnd k w) s fun u =>
      StrandSet h j ((o.strand j).modGot q fun x => { x with crc := some (fld m 16 4) }) s u ∧ u.links = (popInbox k (w % 2 + 1) s).links ∧ Only [.links, .coll] s u) ∧
  (∀ s k w m, Waits s k (w % 2 + 1) 0x12 m → opTarget s k false m = none → Effects (linkFin k) (.chunkEnd k w) s fun u => u = collDiscard (popInbox k (w % 2 + 1) s)) ∧
  (∀ x ∈ [(0x14, Instr.opReady), (0x13, Instr.chunkAck)], ∀ s k m, Waits s k 1 x.1 m → opTarget s k true m = none → Effects (linkFin k) (x.2 k) s fun u =>
    u = collDiscard (popInbox k 1 s)) ∧
  (∀ s h g o j mism, Whole s h g o j false → ((o.strand j).got (o.strand j).recv).retried = true → Effects (fun u => settle (collEnd h 0x50 g.rank u)) (.chunkCheck h j mism) s fun u => u = s) ∧
  (∀ s h g o j mism, Whole s h g o j false → ((o.strand j).got (o.strand j).recv).retried = false → o.rs = true → Effects settle (.chunkCheck h j mism) s fun u =>
    StrandSet h j ((o.strand j).modGot (o.strand j).recv fun _ => { retried := true }) s u ∧ u.coll.recoveries = s.coll.recoveries + 1 ∧
    Sent (g.pred.getD j 0) 1 (chunkAckOf g o (posOf g o j (o.strand j).recv true) true) s u ∧ Only [.links, .coll] s u) ∧
  (∀ s h g o j mism, Whole s h g o j false → ((o.strand j).got (o.strand j).recv).retried = false → o.rs = false →
    Effects (fun u => settle (askLines h j 64 u)) (.chunkCheck h j mism) s fun u =>
      StrandSet h j ((o.strand j).modGot (o.strand j).recv fun x => { crc := x.crc, retried := true }) s u ∧ u.coll.recoveries = s.coll.recoveries + 1 ∧ Only [.coll] s u) ∧
  (∀ s h g o j mism, Whole s h g o j true → o.rs = true → 2 ≤ mism → Effects (fun u => settle (collEnd h 0x51 g.rank u)) (.chunkCheck h j mism) s fun u =>
    u = s.modColl fun x => { x with recomputed := x.recomputed + 1 }) ∧
  (∀ s h g o j mism, Whole s h g o j true → o.rs = true → mism < 2 → Effects (fun u => settle (flushFinals h u)) (.chunkCheck h j mism) s fun u =>
    StrandSet h j { o.strand j with recv := (o.strand j).recv + 1, given := (o.strand j).given + 1, rx := tdel (o.strand j).rx (o.strand j).recv,
                                    staged := tins (o.strand j).staged (o.strand j).recv (((o.strand j).got (o.strand j).recv).lines.map (·.2)) } s u ∧
    u.coll.recomputed = s.coll.recomputed + (if mism = 0 then 0 else 1) ∧
    Sent (g.pred.getD j 0) 1 (chunkAckOf g o (posOf g o j (o.strand j).recv true) false) s u ∧ Only [.links, .coll] s u) ∧
  (∀ s h g o j mism, Whole s h g o j true → o.rs = false → Effects (fun u => settle (checkDone h (countLanded h ((g.p - 1) * o.chunks + 1)
      (modOp h (fun x => { x with landed := nadd x.landed ((posOf g o j (o.strand j).recv true).step * o.chunks + (posOf g o j (o.strand j).recv true).i) }) u)))) (.chunkCheck h j mism) s fun u =>
    StrandSet h j { o.strand j with recv := (o.strand j).recv + 1, given := (o.strand j).given + 1, rx := tdel (o.strand j).rx (o.strand j).recv,
                                    crcs := tput 0 (o.strand j).crcs (o.strand j).recv (((o.strand j).got (o.strand j).recv).crc.getD 0) } s u ∧
    Sent (g.pred.getD j 0) 1 (chunkAckOf g o (posOf g o j (o.strand j).recv true) false) s u ∧ Only [.links, .coll] s u) ∧
  (∀ s k m h g o j, OpWaits s k 1 0x13 true m h g o j → (o.strand j).acked < (o.strand j).sent → msgStatus m = 0 →
    Effects (fun u => linkFin k (checkDone h u)) (.chunkAck k) s fun u =>
      StrandSet h j { o.strand j with acked := (o.strand j).acked + 1, grant := (o.strand j).grant + 1, heldOut := (o.strand j).heldOut.filter (fun e => e.1 != (o.strand j).acked) } s u ∧
      u.links = (popInbox k 1 s).links ∧ Only [.links, .coll] s u) ∧
  (∀ s k m h g o j x, OpWaits s k 1 0x13 true m h g o j → (o.strand j).acked < (o.strand j).sent → msgStatus m ≠ 0 →
    (o.strand j).heldOut.find? (fun e => e.1 == (o.strand j).acked) = some x → Effects (linkFin k) (.chunkAck k) s fun u =>
      ((u.link k).vtx o.vc).queue = ((s.link k).vtx o.vc).queue ++ x.2 ∧ u.coll = s.coll ∧ Only [.links] s u)

/-! ### Set-up registers -/

/-- R16, R18, R130 to R132, R137 to R139, R142, R431, R483, R723, R779 to R785: writes of the set-up windows.
The model's own choices in it: log entries 1, 4, 9, 68, 82. -/
def Obligations.RegisterWrites : Prop :=
  (∀ s f off v, Reaches s f → off % 8 = 0 → Effects id (.registerWrite f off 8 v) s fun u =>
    u = write4 f (off + 4) (BitVec.ofNat 32 (v.toNat / 2 ^ 32)) (write4 f off (BitVec.ofNat 32 v.toNat) (awake s))) ∧
  (∀ s f off size v, Reaches s f → inSetup f off = true → sizeOk off size = false → Effects id (.registerWrite f off size v) s fun u =>
    u = (awake s).modFn f fun x => { x with errSize := true }) ∧
  (∀ s f off size v, s.up = true → windowOpen s f = false → Effects id (.registerWrite f off size v) s fun u =>
    .unsupportedRequest ∈ (u.fn (loggedAt s f)).aerUnc ∧ FnOnly (loggedAt s f) (awake s) u) ∧
  (∀ s f v hi, Reaches s f → (s.fn f).dblEn = false → Effects id (.registerWrite f (if hi then 0x00C else 0x008) 4 v) s fun u =>
    u = (awake s).modFn f fun x => { x with dblAddr := alignTo 64 (putHalf x.dblAddr hi (BitVec.ofNat 32 v.toNat)) }) ∧
  (∀ off ∈ [0x008, 0x00C], ∀ s f v, Reaches s f → (s.fn f).dblEn = true → exec (.registerWrite f off 4 v) s = .next (awake s)) ∧
  (∀ s f v, Reaches s f → (s.fn f).dblEn = false → (s.fn f).dblAddr ≠ 0 → bit v.toNat 0 = true → Effects (dblCheck f) (.registerWrite f 0x010 4 v) s fun u =>
    u = (awake s).modFn f fun x => { x with dblLn := bit v.toNat 1, hotHold := bit v.toNat 2, lnFell := false, dblEn := true, prev := [], fails := 0 }) ∧
  (∀ s f v, Reaches s f → (s.fn f).dblEn = false → (s.fn f).dblAddr = 0 → bit v.toNat 0 = true → Effects id (.registerWrite f 0x010 4 v) s fun u =>
    u = (awake s).modFn f fun x => { x with dblLn := bit v.toNat 1, hotHold := bit v.toNat 2, lnFell := false, errDbl := true }) ∧
  (∀ s f v, Reaches s f → (s.fn f).dblEn = true → bit v.toNat 0 = false → Effects (dblCheck f) (.registerWrite f 0x010 4 v) s fun u =>
    u = (awake s).modFn f fun x => { x with dblEn := false, readsOut := x.readsOut.map (fun d => { d with discard := true }) }) ∧
  (∀ s f i v hi, Reaches s f → i < 16 → (s.ring (ringKey f i)).en = false → Effects id (.registerWrite f (0x200 + 32 * i + (if hi then 4 else 0)) 4 v) s fun u =>
    u = (awake s).modRing (ringKey f i) fun r => { r with reg := { r.reg with sq := alignTo 4096 (putHalf r.reg.sq hi (BitVec.ofNat 32 v.toNat)) } }) ∧
  (∀ s f i v hi, Reaches s f → i < 16 → (s.ring (ringKey f i)).en = false → Effects id (.registerWrite f (0x200 + 32 * i + (if hi then 12 else 8)) 4 v) s fun u =>
    u = (awake s).modRing (ringKey f i) fun r => { r with reg := { r.reg with cq := alignTo 4096 (putHalf r.reg.cq hi (BitVec.ofNat 32 v.toNat)) } }) ∧
  (∀ off ∈ [0, 4, 8, 12], ∀ s f i v, Reaches s f → i < 16 → (s.ring (ringKey f i)).en = true → exec (.registerWrite f (0x200 + 32 * i + off) 4 v) s = .next (awake s)) ∧
  (∀ s f v hi, Reaches s f → (s.rpt f).en = false → Effects id (.registerWrite f (if hi then 0x10C else 0x108) 4 v) s fun u =>
    u = (awake s).modRpt f fun q => { q with reg := { q.reg with sq := alignTo 4096 (putHalf q.reg.sq hi (BitVec.ofNat 32 v.toNat)) } }) ∧
  (∀ s f i v, Reaches s f → i < vecCount f →
    exec (.registerWrite f (msixBase f + 16 * i) 4 v) s = .next (modVec f i (fun x => { x with addr := putHalf x.addr false (BitVec.ofNat 32 v.toNat) }) (awake s)) ∧
    exec (.registerWrite f (msixBase f + 16 * i + 4) 4 v) s = .next (modVec f i (fun x => { x with addr := putHalf x.addr true (BitVec.ofNat 32 v.toNat) }) (awake s)) ∧
    exec (.registerWrite f (msixBase f + 16 * i + 8) 4 v) s = .next (modVec f i (fun x => { x with data := BitVec.ofNat 32 v.toNat }) (awake s)) ∧
    exec (.registerWrite f (msixBase f + 16 * i + 12) 4 v) s = .next (flushMsi f (modVec f i (fun x => { x with masked := bit (v.toNat % 2 ^ 32) 0 }) (awake s)))) ∧
  (∀ s v, Reaches s 0 → (∀ h, s.grp h = none) → (∀ e ∈ s.coll.groups, e.2 = none) → Effects id (.registerWrite 0 0x1404 4 v) s fun u =>
    u = (awake s).modColl fun c => { c with timeoutMs := max 1 (min (v.toNat % 1024) 1000) }) ∧
  (∀ s v, Reaches s 0 → (∃ e ∈ s.coll.groups, e.2.isSome = true) → exec (.registerWrite 0 0x1404 4 v) s = .next (awake s)) ∧
  (∀ s f off v, Reaches s f → f ≠ 0 → 0x400 ≤ off → off < 0x1000 → off % 4 = 0 → exec (.registerWrite f off 4 v) s = .next (awake s)) ∧
  (∀ s v, Reaches s 0 → Effects id (.traceCtlEnWrite v) s fun u =>
    u = (awake s).modMgmt fun m => { m with traceFreeze := if m.traceEn then m.traceFreeze else bit v.toNat 1, traceEn := bit v.toNat 0,
                                            frozen := if bit v.toNat 0 && !m.traceEn then false else m.frozen }) ∧
  (∀ s f v, Reaches s f → Effects id (.w1cWrite f 0x014 v) s fun u =>
    u = (awake s).modFn f fun x => { x with errSize := x.errSize && !bit v.toNat 0, errDbl := x.errDbl && !bit v.toNat 1, errLn := x.errLn && !bit v.toNat 2, errAri := x.errAri && !bit v.toNat 3 }) ∧
  (∀ s f v, Reaches s f → Effects id (.w1cWrite f 0x100 v) s fun u =>
    u = (awake s).modRpt f fun q => { q with errSize := q.errSize && !bit v.toNat 0, errVector := q.errVector && !bit v.toNat 1, errBase := q.errBase && !bit v.toNat 2 }) ∧
  (∀ s off v, Reaches s 0 → s.mgmt.fuses.lc ≠ .maker → exec (.lockedWrite off v) s = .next (awake s)) ∧
  (∀ s off v, Reaches s 0 → s.mgmt.fuses.lc = .maker → 0x1580 ≤ off → off < 0x1600 → Effects id (.lockedWrite off v) s fun u =>
    (∀ i, i < 4 → tget none u.beat.fmax (off - 0x1580 + i) = some (v.toNat / 256 ^ i % 256)) ∧
    (∀ j, (j < off - 0x1580 ∨ off - 0x1580 + 4 ≤ j) → tget none u.beat.fmax j = tget none s.beat.fmax j) ∧ { u.beat with fmax := s.beat.fmax } = s.beat ∧ Only [.host, .beat] s u) ∧
  (∀ s k v, Reaches s 0 → s.mgmt.fuses.lc = .maker → k < 4 → Effects id (.lockedWrite (0x1710 + 4 * k) v) s fun u =>
    u = (awake s).modAdit fun a => { a with a3up := a.a3up ++ [.skipBand k v.toNat] }) ∧
  (∀ s f off size, Reaches s f → inSetup f off = true → sizeOk off size = false → Effects id (.badSizeWindowAccess f off size) s fun u =>
    u = (awake s).modFn f fun x => { x with errSize := true })

/-! ### Start, resets and trips -/

/-- R27, R38, R53, R58 to R61, R64, R76 to R79, R162, R164, R684, R705, R719, R722, R726, R756: cold, module and compute-plane resets.
The model's own choices in it: log entries 1, 4, 9, 14, 15, 16, 17, 19, 61, 86. -/
def Obligations.Resets : Prop :=
  (∀ s slot rack par r, s.ao.aux = false → Effects watch (.auxApplied slot rack par r) s fun u =>
    u.ao.aux = true ∧ u.ao.cause.scope = 3 ∧ u.ao.cause.trigger = (if s.ao.cause.trigger = 31 ∧ r = false then 31 else 30) ∧ u.ao.noticeDue = true ∧ u.ao.latch = false ∧
    u.ao.suspended = false ∧ u.ao.rowTime = 0 ∧ ColdWiped s u ∧
    (s.mgmt.fuses.lc ≠ .blank → u.ao.slotId = slot % 32 ∧ u.ao.rackId = rack % 16 ∧ u.ao.strapsOk = decide ((ones 5 slot + ones 4 rack + par % 2) % 2 = 1))) ∧
  (∀ s slot rack par r, s.ao.aux = true → Effects watch (.auxApplied slot rack par r) s fun u => u = s) ∧
  (∀ s, s.ao.aux = true → Effects watch .auxBrownOut s fun u => u.ao.aux = false ∧ u.ao.cause.scope = 3 ∧ u.ao.cause.trigger = 31 ∧ ColdWiped s u) ∧
  (∀ s, s.stew = true → s.ao.resetDue = none → Effects watch .stewardWatchdogExpiry s fun u =>
    ∃ n, n = (if s.mgmt.fresh = some s.mgmt.running ∧ s.now - s.mgmt.bootAt ≤ 10 * ticksPerSecond then s.ao.bootFails + 1 else s.ao.bootFails) ∧
      u = s.modAo fun a => { a with resetDue := some 20, bootFails := n }) ∧
  (∀ s slot rack par t, s.ao.resetDue = some t → s.mgmt.storing = none → Effects watch (.moduleReset slot rack par) s fun u =>
    u.ao.resetDue = none ∧ u.ao.noticeDue = true ∧ u.ao.cause = { scope := 2, trigger := t, kill := s.ao.causes, rowTime := s.ao.rowTime } ∧ u.ao.latch = s.ao.latch ∧
    u.sup = { perstHigh := s.sup.perstHigh } ∧ u.adit = {} ∧ u.heat = {} ∧ u.pump.st = s.pump.st ∧ u.pump.duty = s.pump.duty ∧ u.pump.leak = 0 ∧
    u.mgmt.fuses = s.mgmt.fuses ∧ u.mgmt.regions = s.mgmt.regions ∧ u.mgmt.slot0 = s.mgmt.slot0 ∧ u.mgmt.slot1 = s.mgmt.slot1 ∧ u.mgmt.nonce = none ∧
    ((s.sup.mainEn = true ∨ s.sup.regs = true) → u.host = {} ∧ u.rings = {} ∧ u.cages = {} ∧ u.beat = {} ∧ u.mem = {} ∧ u.links = [] ∧ u.coll = {}) ∧
    (s.mgmt.fuses.lc ≠ .blank → u.ao.slotId = slot % 32 ∧ u.ao.rackId = rack % 16 ∧ u.ao.strapsOk = decide ((ones 5 slot + ones 4 rack + par % 2) % 2 = 1))) ∧
  (∀ s slot rack par, (s.ao.resetDue = none ∨ s.mgmt.storing.isSome = true) → Effects watch (.moduleReset slot rack par) s fun u => u = s) ∧
  (∀ s, s.stew = true → s.mgmt.erasing = true → s.ao.resetDue = none → Effects watch .returnEraseComplete s fun u =>
    u.ao.resetDue = some 22 ∧ u.mgmt.erasing = false ∧ u.mgmt.regions = s.mgmt.regions.filter (fun e => e.1 == 0) ∧ u.mgmt.jobs = [] ∧ u.mgmt.fuses = s.mgmt.fuses ∧
    Only [.ao, .adit, .mgmt] s u) ∧
  (∀ s, s.sup.perstHigh = true → s.ao.aux = true → s.sup.regs = true → Effects watch .pciePerstAssert s fun u => u.sup.perstHigh = false ∧ ComputeReset 10 s u) ∧
  (∀ s, s.sup.perstHigh = true → s.sup.regs = false → Effects watch .pciePerstAssert s fun u => u = s.modSup fun x => { x with perstHigh := false }) ∧
  (∀ s, s.sup.perstHigh = false → Effects watch .pciePerstDeassert s fun u =>
    u.sup = { s.sup with perstHigh := true } ∧ u.host = (if s.sup.modReady then { s.host with linkUp := true } else s.host) ∧ Only [.sup, .host] s u) ∧
  (∀ x ∈ [(11, Instr.hotReset), (12, Instr.dlDown)], ∀ s, s.host.linkUp = true → s.ao.aux = true → s.sup.regs = true → Effects watch x.2 s (ComputeReset x.1 s)) ∧
  (∀ x ∈ [Instr.hotReset, Instr.dlDown], ∀ s, s.host.linkUp = false → Effects watch x s fun u => u = s) ∧
  (∀ s i, (tapPermitted s i = false ∨ i < 2) → Effects watch (.tapInstruction i) s fun u =>
    u = s.modAo fun a => { a with tapInstr := if tapPermitted s i then i else 0, tapHold := false }) ∧
  (∀ s i, tapPermitted s i = true → 2 ≤ i → s.ao.tapHold = false → s.ao.aux = true → s.sup.regs = true → Effects watch (.tapInstruction i) s fun u =>
    u.ao.tapInstr = i ∧ u.ao.tapHold = true ∧ ComputeReset 16 s u) ∧
  (∀ s i, tapPermitted s i = true → 2 ≤ i → s.ao.tapHold = true → Effects watch (.tapInstruction i) s fun u => u = s.modAo fun a => { a with tapInstr := i })

/-- R683, R684, R711, R726, R731, R748: firmware starts.
The model's own choices in it: log entries 1, 4, 9, 18, 20, 77. -/
def Obligations.FirmwareStarts : Prop :=
  (∀ s k, s.ao.aux = true → s.sup.steward = false → s.mgmt.fuses.lc ≠ .blank → bootSlot s = some k → Effects watch .stewardBootComplete s fun u =>
    u.sup.steward = true ∧ u.mgmt.running = k ∧ u.mgmt.bootAt = s.now ∧ u.ao.noticeDue = false ∧ u.mgmt.fuses = s.mgmt.fuses ∧ u.mgmt.slot0 = s.mgmt.slot0 ∧ u.mgmt.slot1 = s.mgmt.slot1 ∧
    (s.ao.noticeDue = true → s.adit.a6.length ≤ 200 → Recorded 1 [(20, 1, s.ao.cause.scope), (21, 1, s.ao.cause.trigger)] u)) ∧
  (∀ s k, s.ao.aux = true → s.sup.steward = false → inUse s = true → bootSlot s = some k → tget .absent s.mgmt.regions 4 = .absent → s.pump.leak = 0 → s.ao.tapeWet = false →
    Effects watch .stewardBootComplete s fun u =>
      (¬ (s.pump.st = .run ∧ 6 ≤ s.pump.zcRun) → u.pump.st = .kick ∧ u.pump.duty = 4000) ∧ (s.pump.st = .run → 6 ≤ s.pump.zcRun → u.pump.st = .run ∧ u.pump.duty = s.pump.duty) ∧
      (s.ao.strapsOk = true → (u.onBus 0).join = .listening) ∧ u.ao.latch = s.ao.latch) ∧
  (∀ s k, s.ao.aux = true → s.sup.steward = false → s.mgmt.fuses.lc ≠ .blank → bootSlot s = some k → s.ao.tapeWet = true → s.ao.latch = false → Effects watch .stewardBootComplete s fun u =>
    u.ao.latch = true ∧ u.pump.leak ≠ 0 ∧ u.sup.mainEn = false ∧ u.ao.causes.tape = true) ∧
  (∀ s, (s.ao.aux = false ∨ s.sup.steward = true ∨ s.mgmt.fuses.lc = .blank ∨ bootSlot s = none) → Effects watch .stewardBootComplete s fun u => u = s) ∧
  (∀ s, s.mgmt.slot0.valid = true → s.mgmt.slot1.valid = true → s.ao.bootFails < 2 → bootSlot s = some (if s.mgmt.slot0.seq < s.mgmt.slot1.seq then 1 else 0)) ∧
  (∀ s, bootSlot s = none ↔ s.mgmt.slot0.valid = false ∧ s.mgmt.slot1.valid = false)

/-- R41 to R44, R75, R91, R106, R541, R739, R740, R742 to R746: trips, the kill latch and its release.
The model's own choices in it: log entries 1, 4, 9, 15, 16, 21. -/
def Obligations.TripsAndRelease : Prop :=
  (∀ s, s.ao.aux = true → s.ao.dieTrip = false → s.ao.latch = false → Effects watch .dieTrip s fun u =>
    u.ao.dieTrip = true ∧ u.ao.causes = { s.ao.causes with die := true } ∧ Killed s u) ∧
  (∀ s, s.ao.aux = true → s.ao.dieTrip = false → s.ao.latch = true → Effects watch .dieTrip s fun u =>
    u.ao.dieTrip = true ∧ u.ao.latch = true ∧ u.ao.causes = { s.ao.causes with die := true } ∧ u.ao.kills = s.ao.kills ∧ Only [.ao] s u) ∧
  (∀ s, s.ao.aux = true → s.ao.tapeWet = false → s.ao.latch = false → Effects watch .leakTapeWet s fun u =>
    u.ao.tapeWet = true ∧ u.ao.causes = { s.ao.causes with tape := true } ∧ Killed s u ∧ u.sup.dump = .leak ∧ (s.sup.dump ≠ .leak → u.pump.st = .stopped ∧ u.pump.duty = 0) ∧
    (s.stew = true → s.pump.leak = 0 → u.pump.leak = 1)) ∧
  (∀ s n, s.ao.aux = true → s.ao.latch = false → 1000 ≤ n → Effects watch (.externalTrip n) s fun u => u.ao.causes = { s.ao.causes with ext := true } ∧ Killed s u) ∧
  (∀ s n, n < 250 → Effects watch (.externalTrip n) s fun u => u = s) ∧
  (∀ s n, s.ao.aux = true → s.ao.latch = false → Effects watch (.externalTrip n) s fun u => u.ao.latch = false ∧ Only [.free] s u ∨ u.ao.causes = { s.ao.causes with ext := true } ∧ Killed s u) ∧
  (∀ s, Effects watch .dieComparatorDeassert s fun u => u = s.modAo fun a => { a with dieTrip := false }) ∧
  (∀ s, s.sup.dump = .leak → s.stew = true → inUse s = true → s.pump.leak = 0 → Effects watch .leakTapeDry s fun u =>
    u.ao = { s.ao with tapeWet := false } ∧ u.sup = { s.sup with dump := .none } ∧ u.pump.st = .kick ∧ u.pump.duty = 4000 ∧ Only [.ao, .sup, .pump] s u) ∧
  (∀ s, s.sup.dump ≠ .leak → Effects watch .leakTapeDry s fun u => u = s.modAo fun a => { a with tapeWet := false }) ∧
  (∀ s, s.ao.latch = true → ownSource s = false → Effects watch .tripSourcesClean s fun u =>
    u = s.modAo fun a => { a with clean := true, released := a.released || releasedMode s, tripDrive := a.tripDrive && !releasedMode s }) ∧
  (∀ s, (s.ao.latch = false ∨ ownSource s = true) → Effects watch .tripSourcesClean s fun u => u = s) ∧
  (∀ s, s.ao.latch = true → s.ao.clean = true → s.ao.released = false → releasedMode s = false → s.ao.suspended = false → Effects watch (.tripReleaseWindow true) s fun u =>
    Cleared u ∧ Only [.ao, .adit, .bus] s u) ∧
  (∀ s h, (s.ao.latch = false ∨ s.ao.clean = false ∨ s.ao.released = true ∨ releasedMode s = true ∨ s.ao.suspended = true ∨ h = false) → Effects watch (.tripReleaseWindow h) s fun u => u = s) ∧
  (∀ s, s.ao.latch = true → s.ao.clean = true → s.ao.released = true → s.ao.suspended = false → Effects watch .releasedModeClear s fun u => Cleared u ∧ Only [.ao, .adit, .bus] s u) ∧
  (∀ s, (s.ao.latch = false ∨ s.ao.clean = false ∨ s.ao.released = false ∨ s.ao.suspended = true) → Effects watch .releasedModeClear s fun u => u = s)

/-- R74, R106, R162, R490, R726 to R728, R733, R736 to R739, R749, R395: main power comes up, fails, and is taken away.
The model's own choices in it: log entries 1, 4, 9, 15, 16, 19. -/
def Obligations.MainPower : Prop :=
  (∀ s, s.ao.aux = true → s.sup.mainEn = false → s.sup.unsolicited = false → Effects watch .unsolicitedMain s fun u =>
    u.sup = { s.sup with unsolicited := true } ∧ (s.stew = true → Recorded 0x0005 [] u) ∧ Only [.sup, .adit] s u) ∧
  (∀ s, s.ao.aux = true → s.sup.mainEn = true → s.ao.latch = false → Effects watch .mainSupplyInRating s fun u => u = s.modSup fun x => { x with mainIn := true }) ∧
  (∀ s, s.sup.mainIn = true → s.sup.regs = false → s.ao.latch = false → Effects watch .regulatorsInRegulation s fun u =>
    u = (s.modSup fun x => { x with regs := true }).modPower fun p => { p with rail := 124000 }) ∧
  (∀ s, s.ao.latch = true → Effects watch .regulatorsInRegulation s fun u => u = s) ∧
  (∀ s, s.sup.regs = true → s.sup.planes = false → s.ao.tapHold = false → s.ao.latch = false → Effects watch .mainPlanesReady s fun u =>
    u.sup = { s.sup with planes := true, modReady := true, fails := 0 } ∧ u.host = { s.host with linkUp := s.sup.perstHigh } ∧
    (∀ k, k < 16 → (u.link k).en = (s.link k).en ∧ ((s.link k).en = true → (u.link k).st = .training) ∧ ((s.link k).en = false → u.link k = s.link k)) ∧
    Recorded 0x0510 [(20, 1, 5)] u ∧ Only [.free, .sup, .adit, .host, .links, .coll] s u) ∧
  (∀ s, s.stew = true → s.sup.mainEn = true → s.sup.regs = false → Effects watch .mainSupplyTimeout s fun u =>
    MainOff u ∧ MainWiped u ∧ u.sup.fails = s.sup.fails + 1 ∧ u.sup.retryWait = true ∧ (s.sup.dump = .none → u.sup.dump = .run) ∧ u.ao.cause = s.ao.cause) ∧
  (∀ s, Effects watch .mainRetryTimer s fun u => u = s.modSup fun x => { x with retryWait := false }) ∧
  (∀ s, s.stew = true → s.sup.mainEn = true → s.sup.mainIn = true → Effects watch .mainLost s fun u =>
    MainOff u ∧ MainWiped u ∧ u.sup.fails = s.sup.fails + 1 ∧ u.sup.retryWait = true ∧ u.ao.cause.scope = 1 ∧ u.ao.cause.trigger = 15) ∧
  (∀ s, s.stew = true → s.sup.mainEn = true → s.sup.offPending = true → Effects watch .mainOffRelease s fun u =>
    MainOff u ∧ MainWiped u ∧ u.sup.offPending = false ∧ u.sup.offInForce = s.sup.offInForce ∧ u.ao.cause.scope = 1 ∧ u.ao.cause.trigger = 15) ∧
  (∀ s, s.sup.offPending = false → Effects watch .mainOffRelease s fun u => u = s) ∧
  (∀ s, s.stew = true → s.sup.dump = .run → Effects watch .heatDumpEnd s fun u =>
    u.sup = { s.sup with dump := .none } ∧ Recorded 0x0510 [(20, 1, 9)] u ∧ ((s.pump.speedMode = true ∨ s.pump.st ≠ .run) → u.pump = s.pump) ∧ Only [.sup, .adit, .pump] s u) ∧
  (∀ s, s.stew = true → s.sup.dump ≠ .run → Effects watch .heatDumpEnd s fun u => u = s)

/-! ### Policy classes -/

/-- R195, R526: a class command whose reserved bits are set, or whose operand is out of range, is acknowledged so and changes nothing else.
The model's own choices in it: log entries 1, 4, 9, 58, 76. -/
def Obligations.PolicyChecks : Prop :=
  (∀ i p s tag d k, Given i p s tag d → policyRsvd p.masks d = some k → Effects watch i s fun u =>
    u = (s.modMgmt fun m => { m with disp := none }).modAdit fun a => { a with a3down := a.a3down ++ [.ack tag 0x11 k] }) ∧
  (∀ i p s tag d k, Given i p s tag d → policyRsvd p.masks d = none → p.bad d = some k → Effects watch i s fun u =>
    u = (s.modMgmt fun m => { m with disp := none }).modAdit fun a => { a with a3down := a.a3down ++ [.ack tag 0x14 k] }) ∧
  (∀ i p s, policyOf i = some p → s.stew = true → s.mgmt.disp = none → Effects watch i s fun u => u = s) ∧
  (∀ i p s tag d, policyOf i = some p → s.stew = true → s.mgmt.disp = some (tag, d) → (byteAt d 16 ≠ p.cls ∨ byteAt d 17 ≠ p.cmd) → Effects watch i s fun u => u = s) ∧
  (∀ i p s, policyOf i = some p → s.stew = false → exec i s = .next s)

/-- R495, R502, R510, R522, R524, R526, R550, R554, R556: the commands of the power and heat classes.
The model's own choices in it: log entries 1, 4, 9, 76. -/
def Obligations.PowerAndHeatPolicy : Prop :=
  (∀ s tag d, Asked .setCap s tag d → Effects watch .setCap s fun u =>
    u.power = { s.power with cSet := max 350 (min (fld d 24 2) 1400) } ∧ u.mgmt.powerDirty = true ∧
    Acked tag (if fld d 24 2 < 350 ∨ 1400 < fld d 24 2 then 1 else 0) 0 s u ∧ Only [.adit, .mgmt, .power] s u) ∧
  (∀ s tag d, Asked .setMode s tag d → Effects watch .setMode s fun u =>
    u.power = { s.power with margin := decide (byteAt d 24 = 1) } ∧ u.mgmt.powerDirty = true ∧ Acked tag 0 0 s u ∧ Only [.adit, .mgmt, .power] s u) ∧
  (∀ s tag d, Asked .lockPermit s tag d → Effects watch .lockPermit s fun u =>
    Acked tag (if byteAt d 25 = 0 ∧ 64 ≤ s.cages.permits.length ∧ (byteAt d 24, fld d 28 4) ∉ s.cages.permits then 0x33 else 0) 0 s u ∧ Only [.adit, .mgmt] s u) ∧
  (∀ s tag d, Asked .countersNow s tag d → Effects watch .countersNow s fun u =>
    (∀ c ∈ [0, 4, 8, 12], Recorded 0x0103 ((20, 1, c) :: (List.range 4).map (fun i => (24 + 8 * i, 8, ((tget {} s.power.reasons (c + i)).us.floor).toNat))) u) ∧
    Acked tag 0 0 s u ∧ Only [.adit, .mgmt] s u) ∧
  (∀ s tag d, Asked .logReplay s tag d → s.adit.a6.length + (tget {} s.power.reasons (byteAt d 24)).log.length ≤ 256 → Effects watch .logReplay s fun u =>
    (∀ b ∈ (tget {} s.power.reasons (byteAt d 24)).log, Recorded 0x0102 (b ++ [(21, 1, 1)]) u) ∧ u.adit.a6.length = s.adit.a6.length + (tget {} s.power.reasons (byteAt d 24)).log.length ∧
    Acked tag 0 0 s u ∧ Only [.adit, .mgmt] s u) ∧
  (∀ s tag d, Asked .setAdmit s tag d → Effects watch .setAdmit s fun u =>
    u.heat = { s.heat with timeout := fld d 24 2, action := byteAt d 26, admitDt := byteAt d 27 } ∧ u.mgmt.powerDirty = true ∧ Acked tag 0 0 s u ∧ Only [.adit, .mgmt, .heat] s u) ∧
  (∀ s tag d, Asked .setBreach s tag d → Effects watch .setBreach s fun u =>
    (breachAction u (byteAt d 24) = byteAt d 25) ∧ (∀ c, c ≠ byteAt d 24 → breachAction u c = breachAction s c) ∧ { u.heat with reportOnly := s.heat.reportOnly } = s.heat ∧
    u.mgmt.powerDirty = true ∧ Acked tag 0 0 s u ∧ Only [.adit, .mgmt, .heat] s u) ∧
  (∀ s tag d, Asked .heatNow s tag d → Effects watch .heatNow s fun u => Recorded 0x0207 [(36, 1, s.heat.nDie), (39, 1, s.heat.nBreach)] u ∧ Acked tag 0 0 s u ∧ Only [.adit, .mgmt] s u)

/-! ### Power -/

/-- R485, R486, R490, R491, R493, R497 to R499, R501 to R504, R508, R524, R528, R798: measurement, calibration, the cap and what is reported of them.
The model's own choices in it: log entries 1, 4, 5, 9, 24, 25, 26, 27, 44, 62. -/
def Obligations.PowerControl : Prop :=
  (∀ s xs, s.stew = true → Effects watch (.pmbusRead xs) s fun u =>
    (∀ i r, s.power.regs[i]? = some r → u.power.regs[i]? = some (match xs.getD i none with
      | some (p, v) => { fails := 0, pin := p, vin := v }
      | none => { r with fails := r.fails + 1 })) ∧ u.power.regs.length = s.power.regs.length ∧
    (s.power.fault = false → (u.power.fault = true ↔ ∃ r ∈ u.power.regs, 3 ≤ r.fails)) ∧
    (s.power.fault = true → (u.power.fault = false ↔ 9 ≤ s.power.goodRun ∧ ∀ r ∈ u.power.regs, r.fails = 0)) ∧ u.power.cSet = s.power.cSet ∧ Only [.adit, .power] s u) ∧
  (∀ s, s.stew = true → s.power.framed = false → Effects watch .outerUpdate s fun u =>
    u.power.pEst = measured s ∧ u.power.noA2 = true ∧ u.power.gCal = s.power.gCal ∧ u.power.oCal = s.power.oCal ∧ u.pump.powN = s.pump.powN + 1 ∧ Only [.adit, .power, .pump] s u) ∧
  (∀ s, s.stew = true → s.power.framed = true → Effects watch .outerUpdate s fun u =>
    u.power.noA2 = false ∧ u.power.framed = false ∧ (s.power.fault = true → u.power.gCal = s.power.gCal ∧ u.power.oCal = s.power.oCal ∧ u.power.history = s.power.history) ∧
    (s.power.fault = false → 4 / 5 ≤ u.power.gCal ∧ u.power.gCal ≤ 5 / 4 ∧ -100 ≤ u.power.oCal ∧ u.power.oCal ≤ 100 ∧
      u.power.history = ((meanR (s.power.wins.map (·.r)), measured s) :: s.power.history).take 32) ∧
    (s.power.fault = false → 4 / 5 ≤ s.power.gCal → s.power.gCal ≤ 5 / 4 → u.power.gCal ≤ s.power.gCal + 1 / 200 ∧ s.power.gCal ≤ u.power.gCal + 1 / 200) ∧
    u.pump.powN = s.pump.powN + 1 ∧ Only [.adit, .power, .pump] s u) ∧
  (∀ s, s.stew = true → s.power.unmeetable = false → capEff s < measured s → runningMgs s ≠ [] → (∀ e ∈ runningMgs s, e.2.n = 60) → s.power.unmeetRun = 9 →
    Effects watch .outerUpdate s fun u => u.power.unmeetable = true ∧ Recorded 0x0104 [(20, 1, 1)] u) ∧
  (∀ s, s.stew = true → s.power.derating = false → s.heat.inlet50 ≠ [] → (∀ t ∈ s.heat.inlet50, 40 < t) → Effects watch .derateUpdate s fun u =>
    u.power = { s.power with derating := true, derate := max 0 (25 * (meanR s.heat.inlet50 - 40)) } ∧ Only [.power] s u) ∧
  (∀ s, s.stew = true → s.power.derating = true → s.heat.inlet50 ≠ [] → (∀ t ∈ s.heat.inlet50, t ≤ 38) → Effects watch .derateUpdate s fun u =>
    u.power = { s.power with derating := false, derate := 0 } ∧ Only [.power] s u) ∧
  (∀ s, s.stew = true → s.power.derating = false → (∃ t ∈ s.heat.inlet50, t ≤ 40) → Effects watch .derateUpdate s fun u => u.power = { s.power with derate := 0 } ∧ Only [.power] s u) ∧
  (∀ s j g, s.stew = true → s.mg j = some g → g.st = .ready → Effects watch (.railAtLevel j) s fun u =>
    u.adit.a3down = s.adit.a3down ++ [.release j] ∧ u.mg j = some { g with st := .released } ∧ (∀ k, k ≠ j → u.mg k = s.mg k) ∧
    (g.hold = true → Recorded 0x0205 [(20, 1, j), (21, 1, if g.timedOut then 2 else 1)] u) ∧ u.power = { s.power with rail := max s.power.rail (railNeed s j g) } ∧ Only [.adit, .power, .heat] s u) ∧
  (∀ s, s.stew = true → s.mgmt.powerDirty = true → storeDue s s.mgmt.powerStoredAt = true → Effects watch .powerPolicyStore s fun u =>
    (∃ j ∈ u.mgmt.jobs, j.kind = 1 ∧ j.body = powerBody s) ∧ u.mgmt.powerDirty = false ∧ u.mgmt.powerStoredAt = some s.now ∧ Only [.mgmt] s u) ∧
  (∀ s, s.stew = true → s.mgmt.coolDirty = true → storeDue s s.mgmt.coolStoredAt = true → Effects watch .powerPolicyStore s fun u =>
    (∃ j ∈ u.mgmt.jobs, j.kind = 2 ∧ j.body = coolBody s) ∧ u.mgmt.coolDirty = false ∧ u.mgmt.coolStoredAt = some s.now ∧ Only [.mgmt] s u) ∧
  (∀ s, s.stew = true → s.mgmt.powerDirty = false → s.mgmt.coolDirty = false → Effects watch .powerPolicyStore s fun u => u = s) ∧
  (∀ s, s.stew = true → s.adit.a6.length ≤ 200 → Effects watch .pwrStatusTimer s fun u =>
    Recorded 0x0101 [(22, 2, s.power.cSet), (32, 1, s.power.nCap)] u ∧ u.adit.a2Overrun = 0 ∧ u.adit.a5Dropped = 0 ∧ u.adit.a1Clamped = 0 ∧
    (∀ e ∈ mirrorValues s, A6Item.mirror e.1 e.2 ∈ u.adit.a6) ∧ Only [.adit, .mgmt] s u) ∧
  (∀ s, s.stew = true → s.adit.a6.length + (memberLocks s).length ≤ 256 → Effects watch .pwrLockStatusTimer s fun u =>
    (∀ e ∈ memberLocks s, Recorded 0x0106 [(22, 1, nLock s e.1), (23, 1, s.power.nOwn), (24, 4, e.1)] u) ∧ Only [.adit] s u) ∧
  (∀ s, s.stew = true → s.adit.a6.length ≤ 200 → Effects watch .throttleCountersTimer s fun u =>
    (∀ c ∈ [0, 4, 8, 12], Recorded 0x0103 ((20, 1, c) :: (List.range 4).map (fun i => (24 + 8 * i, 8, ((tget {} s.power.reasons (c + i)).us.floor).toNat))) u) ∧ Only [.adit] s u) ∧
  (∀ s, s.stew = true → s.power.exceed ≠ 0 → Effects watch .pwrDroopTimer s fun u =>
    Recorded 0x0108 [(20, 4, s.power.exceed), (24, 2, s.power.exceedGroups)] u ∧ u.power = { s.power with exceed := 0, exceedGroups := 0 } ∧ Only [.adit, .power] s u) ∧
  (∀ s, s.stew = true → s.power.exceed = 0 → Effects watch .pwrDroopTimer s fun u => u = s)

/-- R46, R47, R512, R514, R517 to R520: what the module keeps of lock groups, and how their messages travel.
The model's own choices in it: log entries 1, 4, 9, 62. -/
def Obligations.LockGroups : Prop :=
  (∀ x ∈ [(0x40, Instr.lockJoin), (0x41, Instr.lockDemand), (0x42, Instr.lockLeave)], ∀ s k m, LockHeard x.1 k m s →
    (lockOrigin m = s.mgmt.fuses.dsn → Effects watch x.2 s fun u => u = s.modAdit fun a => { a with a5in := a.a5in.drop 1 }) ∧
    (∀ e, s.power.locks.find? (fun e => e.lock == lockOf m && e.origin == lockOrigin m) = some e → (seqSub (fld m 32 2) e.seq = 0 ∨ 32767 < seqSub (fld m 32 2) e.seq) →
      Effects watch x.2 s fun u => u = s.modAdit fun a => { a with a5in := a.a5in.drop 1 }) ∧
    (lockOrigin m ≠ s.mgmt.fuses.dsn →
      ((s.power.locks.find? (fun e => e.lock == lockOf m && e.origin == lockOrigin m) = none ∧ lockRoom s (lockOf m) (lockOrigin m) = true) ∨
       ∃ e, s.power.locks.find? (fun e => e.lock == lockOf m && e.origin == lockOrigin m) = some e ∧ 1 ≤ seqSub (fld m 32 2) e.seq ∧ seqSub (fld m 32 2) e.seq ≤ 32767) →
      Effects watch x.2 s fun u =>
        (∃ e ∈ u.power.locks, e.lock = lockOf m ∧ e.origin = lockOrigin m ∧ e.seq = fld m 32 2 ∧ e.n = min 60 (byteAt m 21) ∧ e.f = byteAt m 20 ∧ e.counts = decide (x.1 ≠ 0x42) ∧
          e.left = decide (x.1 = 0x42)) ∧
        (∀ e, ¬ (e.lock = lockOf m ∧ e.origin = lockOrigin m) → (e ∈ u.power.locks ↔ e ∈ s.power.locks)) ∧
        (1 < byteAt m 22 → ∀ j ∈ upLinks s, j ≠ k → oneHopLess m ∈ tget [] u.power.lockQ j) ∧ u.adit.a5in = s.adit.a5in.drop 1 ∧ Only [.adit, .power] s u) ∧
    (lockOrigin m ≠ s.mgmt.fuses.dsn → s.power.locks.find? (fun e => e.lock == lockOf m && e.origin == lockOrigin m) = none → lockRoom s (lockOf m) (lockOrigin m) = false →
      Effects watch x.2 s fun u => u.power.locks = s.power.locks ∧ u.power.fullAt = some (s.now / ticksPerSecond) ∧ u.adit.a5in = s.adit.a5in.drop 1 ∧
        (s.power.fullAt ≠ some (s.now / ticksPerSecond) → Recorded 0x0105 [(20, 1, 5)] u) ∧ Only [.adit, .power] s u)) ∧
  (∀ s l o e, s.stew = true → s.power.locks.find? (fun e => e.lock == l && e.origin == o && e.counts) = some e → Effects watch (.lockOriginSilent l o) s fun u =>
    (∀ e ∈ u.power.locks, e.lock = l → e.origin = o → e.counts = false) ∧ (∀ e, ¬ (e.lock = l ∧ e.origin = o) → (e ∈ u.power.locks ↔ e ∈ s.power.locks)) ∧ Only [.adit, .power] s u) ∧
  (∀ s l o, s.stew = true → Effects watch (.lockEntryExpiry l o) s fun u =>
    u = s.modPower fun p => { p with locks := p.locks.filter (fun x => !(x.lock == l && x.origin == o)) }) ∧
  (∀ s k m r, s.stew = true → tget [] s.power.lockQ k = m :: r → s.adit.a5out.length < 64 → (s.link k).st = .up → Effects watch (.lockQueueSend k) s fun u =>
    u.adit = { s.adit with a5out := s.adit.a5out ++ [(k, m)] } ∧ tget [] u.power.lockQ k = r ∧ (∀ j, j ≠ k → tget [] u.power.lockQ j = tget [] s.power.lockQ j) ∧ Only [.adit, .power] s u) ∧
  (∀ s k, s.stew = true → (tget [] s.power.lockQ k = [] ∨ 64 ≤ s.adit.a5out.length ∨ (s.link k).st ≠ .up) → Effects watch (.lockQueueSend k) s fun u => u = s)

/-! ### Heat -/

/-- R529 to R535, R537, R538, R543, R582: samples, their validation, zones, thresholds and the dew margin.
The model's own choices in it: log entries 1, 4, 9, 23, 45, 49. -/
def Obligations.HeatSensing : Prop :=
  (∀ s xs, s.stew = true → Effects watch (.dieSensorSample xs) s fun u =>
    (∀ i, i < 16 → xs.getD i none = none → (u.sensor i).valid = false ∧ (u.sensor i).hist = (s.sensor i).hist) ∧
    (∀ i v, i < 16 → xs.getD i none = some v → (u.sensor i).hist = (v :: (s.sensor i).hist).take 10 ∧ (v < -640 ∨ 2400 < v → (u.sensor i).valid = false ∧ (u.sensor i).passRun = 0)) ∧
    (∀ i v w l, i < 16 → xs.getD i none = some v → (s.sensor i).hist = w :: l → (320 < v - w ∨ 320 < w - v) → (u.sensor i).valid = false) ∧
    (∀ i v w l, i < 16 → xs.getD i none = some v → (s.sensor i).hist = w :: l → -640 ≤ v → v ≤ 2400 → v - w ≤ 320 → w - v ≤ 320 → v ≠ w →
      (u.sensor i).valid = !(s.sensor i).rr ∧ (u.sensor i).passRun = (s.sensor i).passRun + 1) ∧
    (zoneValid u 0 < 2 → (u.zone 0).faulted = true) ∧ ((s.zone 0).faulted = false → 2 ≤ zoneValid u 0 → (u.zone 0).faulted = false) ∧
    (∀ t, t < 2 → (u.thr t).active = (s.thr t).active ∧ ∀ v, dieVal u = some v → (u.thr t).run =
      (if (s.thr t).active then (if (v : Rat) / 16 ≤ thrLevel t - 2 then .down else .none) else (if thrLevel t ≤ (v : Rat) / 16 then .up else .none))) ∧
    SensorsKept (List.range 16) s u ∧ Only [.adit, .power, .heat] s u) ∧
  (∀ s, s.stew = true → (∀ z, z < 6 → (s.zone z).faulted = false) → Effects watch (.dieSensorSample []) s fun u => (u.zone 0).faulted = true ∧ u.power.cZone = 3 / 5 * capEff s) ∧
  (∀ s x, s.stew = true → Effects (fun u => watch (evalOffers u)) (.coolantSensorSample x) s fun u =>
    (∀ e ∈ [(24, x.tinA), (25, x.tinB), (26, x.toutA), (27, x.toutB), (28, x.qin), (29, x.qout), (30, x.dp)],
      (e.2 = none → (u.sensor e.1).valid = false) ∧ (∀ v, e.2 = some v → (u.sensor e.1).raw = some v ∧ (v < (limitsOf e.1).lo ∨ (limitsOf e.1).hi < v → (u.sensor e.1).valid = false))) ∧
    u.pump.flows = s.pump.flows ++ [(sensorVal u 28, sensorVal u 29)] ∧ (∀ t, inletVal u = some t → u.heat.inlet50 = (t :: s.heat.inlet50).take 5) ∧
    (inletVal u = none → u.heat.inlet50 = s.heat.inlet50) ∧ (∀ z ∈ [3, 4, 5], zoneValid u z < 2 → (u.zone z).faulted = true) ∧
    SensorsKept [24, 25, 26, 27, 28, 29, 30] s u ∧ Only [.adit, .power, .heat, .pump] s u) ∧
  (∀ s rh dew air, s.stew = true → Effects watch (.humiditySample rh dew air) s fun u =>
    (∀ v, rh = some v → (u.sensor 31).raw = some v ∧ (v < 0 ∨ 100 < v → (u.sensor 31).valid = false)) ∧ (rh = none → (u.sensor 31).valid = false) ∧
    ((u.sensor 31).valid = true → dew.isSome = true → u.heat.dewPoint = dew) ∧ ((u.sensor 31).valid = false → u.heat.dewPoint = s.heat.dewPoint) ∧
    SensorsKept [31, 32] s u ∧ Only [.adit, .heat] s u) ∧
  (∀ s i, s.stew = true → (s.sensor i).rr = true → (limitsOf i).sec ≤ (s.sensor i).passRun → Effects watch (.sensorValidAgain i) s fun u =>
    u.sensor i = { s.sensor i with rr := false, valid := !(s.sensor i).stuck } ∧ ((s.sensor i).stuck = false → Recorded 0x0202 [(20, 1, i), (21, 1, 6)] u) ∧ SensorsKept [i] s u ∧ Only [.adit, .heat] s u) ∧
  (∀ s i, s.stew = true → ((s.sensor i).rr = false ∨ (s.sensor i).passRun < (limitsOf i).sec) → Effects watch (.sensorValidAgain i) s fun u => u = s) ∧
  (∀ s i, s.stew = true → tget false s.heat.differ i = true → tget false s.heat.disagree i = false → Effects watch (.probeDisagree i) s fun u =>
    tget false u.heat.disagree i = true ∧ Recorded 0x0202 [(20, 1, i), (21, 1, 5)] u ∧ (∀ j, j ≠ i → tget false u.heat.disagree j = tget false s.heat.disagree j) ∧ Only [.adit, .heat] s u) ∧
  (∀ s z, s.stew = true → (s.zone z).faulted = true → (s.zone z).holds = true → 2 ≤ zoneValid s z → Effects watch (.zoneRecovery z) s fun u =>
    u.zone z = {} ∧ (∀ y, y ≠ z → u.zone y = s.zone y) ∧ ((∀ y, y < 6 → y ≠ z → (s.zone y).faulted = false) → u.power.cZone = 1400) ∧
    ((∃ y, y < 6 ∧ y ≠ z ∧ (s.zone y).faulted = true) → u.power.cZone = s.power.cZone) ∧ Recorded 0x0203 [(20, 1, z), (21, 1, 0)] u ∧ Only [.adit, .power, .heat] s u) ∧
  (∀ s z, s.stew = true → ((s.zone z).faulted = false ∨ (s.zone z).holds = false ∨ zoneValid s z < 2) → Effects watch (.zoneRecovery z) s fun u => u = s) ∧
  (∀ s t, s.stew = true → (s.thr t).run = .up → Effects watch (.thresholdDwellExpiry t) s fun u =>
    (u.thr t).active = true ∧ (u.thr t).run = .none ∧ (u.thr t).crossings = min 0xFFFFFFFF ((s.thr t).crossings + 1) ∧
    (u.thr t).chatter = min 0xFFFFFFFF ((s.thr t).chatter + (match (s.thr t).offAt with | some o => if s.now - o ≤ ticksPerSecond then 1 else 0 | none => 0)) ∧
    (∀ v, v ≠ t → u.thr v = s.thr v) ∧ Recorded 0x0201 [(22, 1, 1)] u ∧ Only [.adit, .heat] s u) ∧
  (∀ s t, s.stew = true → (s.thr t).run = .down → Effects watch (.thresholdDwellExpiry t) s fun u =>
    u.thr t = { s.thr t with active := false, run := .none, offAt := some s.now } ∧ (∀ v, v ≠ t → u.thr v = s.thr v) ∧ Recorded 0x0201 [(22, 1, 0)] u ∧ Only [.adit, .heat] s u) ∧
  (∀ s t, s.stew = true → (s.thr t).run = .none → Effects watch (.thresholdDwellExpiry t) s fun u => u = s) ∧
  (∀ s, s.stew = true → s.heat.dewRun ≠ .none → Effects watch .dewMarginDwell s fun u =>
    u.heat = { s.heat with dew := decide (s.heat.dewRun = .up), dewRun := .none } ∧ Recorded 0x0206 [(20, 1, if s.heat.dewRun = .up then 1 else 0)] u ∧ Only [.adit, .heat] s u) ∧
  (∀ s, s.stew = true → s.heat.dewRun = .none → Effects watch .dewMarginDwell s fun u => u = s)

/-- R536, R539, R540, R549 to R553, R556: thermal demands, manifest checks and held OFFERs.
The model's own choices in it: log entries 1, 4, 9, 22, 24, 25, 62. -/
def Obligations.HeatDemands : Prop :=
  (∀ s, s.stew = true → Effects watch .thermalDemandUpdate s fun u =>
    (∀ v, dieVal s = some v → (s.thr 0).active = true → 94 < (v : Rat) / 16 → u.heat.nDie = min 60 (s.heat.nDie + (((v : Rat) / 16 - 94) * 2).ceil.toNat)) ∧
    (∀ v, dieVal s = some v → ((s.thr 0).active = false ∨ (v : Rat) / 16 ≤ 94) → u.heat.nDie = s.heat.nDie - 1) ∧ (dieVal s = none → u.heat.nDie = s.heat.nDie) ∧
    ((∀ i, i < 8 → (s.thr (2 + i)).active = false) → u.heat.nStack = s.heat.nStack - 1) ∧
    (∀ v, (∃ i, i < 8 ∧ (s.thr (2 + i)).active = true) → hotStack s = some v → 84 < (v : Rat) / 16 → u.heat.nStack = min 60 (s.heat.nStack + (((v : Rat) / 16 - 84) * 2).ceil.toNat)) ∧
    { u.heat with nDie := s.heat.nDie, nStack := s.heat.nStack } = s.heat ∧ Only [.heat] s u) ∧
  (∀ s t, s.stew = true → outletVal s = some t → Effects watch .coolantDemandUpdate s fun u =>
    ((s.thr 10).active = true → atLimit s = true → 59 < t → u.heat.nCoolant = min 60 (s.heat.nCoolant + ((t - 59) * 2).ceil.toNat)) ∧
    (((s.thr 10).active = false ∨ atLimit s = false ∨ t ≤ 59) → u.heat.nCoolant = s.heat.nCoolant - 1) ∧ { u.heat with nCoolant := s.heat.nCoolant } = s.heat ∧ Only [.heat] s u) ∧
  (∀ s, s.stew = true → outletVal s = none → Effects watch .coolantDemandUpdate s fun u => u = s) ∧
  (∀ s j g, s.stew = true → runningMgs s = [(j, g)] → s.mg j = some g → (g.windows < 1000 ∨ g.wCount = 0) → Effects watch .breachCheck s fun u =>
    u.mg j = some { g with past := (g.pos :: g.past).take 10, dSum := 0, nSum := 0, wCount := 0 } ∧ (∀ k, k ≠ j → u.mg k = s.mg k) ∧ Only [.heat] s u) ∧
  (∀ s j g refW nb m a, s.stew = true → runningMgs s = [(j, g)] → s.mg j = some g → 1000 ≤ g.windows → 0 < g.wCount →
    refW = sigma g * ((meanOver g (match g.past[9]? with | some p => g.seg p | none => 0) (g.seg g.pos) : Nat) : Rat) →
    nb = ((g.nSum : Nat) : Rat) / ((g.wCount : Nat) : Rat) → m = g.dSum / ((g.wCount : Nat) : Rat) →
    a = 115 / 100 * (refW * (64 - nb) / 64 + sigma g * ((holdW g.man : Nat) : Rat) * nb / 64) →
    (a < m → g.breach = false → Effects (fun u => watch (deliverForecast u)) .breachCheck s fun u =>
      (∃ g', u.mg j = some g' ∧ g'.breach = true ∧ g'.mean = m ∧ g'.allow = a ∧ g'.ref = refW ∧ g'.passes = 0) ∧ Recorded 0x0204 [(20, 1, j), (21, 1, 1)] u ∧ (∀ k, k ≠ j → u.mg k = s.mg k)) ∧
    (m ≤ a → g.breach = true → 9 ≤ g.passes → Effects (fun u => watch (deliverForecast u)) .breachCheck s fun u =>
      (∃ g', u.mg j = some g' ∧ g'.breach = false ∧ g'.mean = m ∧ g'.allow = a ∧ g'.passes = g.passes + 1) ∧ Recorded 0x0204 [(20, 1, j), (21, 1, 0)] u ∧ (∀ k, k ≠ j → u.mg k = s.mg k)) ∧
    (m ≤ a → g.breach = false → Effects watch .breachCheck s fun u => (∃ g', u.mg j = some g' ∧ g'.breach = false ∧ g'.mean = m ∧ g'.allow = a) ∧ u.adit = s.adit)) ∧
  (∀ s j g, s.stew = true → s.mg j = some g → g.st = .held → coolingReady s g = false → g.action = 0 → Effects watch (.thermalTimeout j) s fun u =>
    (∃ g', u.mg j = some g' ∧ g'.timedOut = true ∧ (g'.st = .ready ∨ g'.st = .released) ∧ (g'.st = .released ↔ railReady s j { g with st := .ready, timedOut := true } = true)) ∧
    (∀ k, k ≠ j → u.mg k = s.mg k) ∧ Only [.adit, .heat] s u) ∧
  (∀ s j g, s.stew = true → s.mg j = some g → g.st = .held → coolingReady s g = false → g.action ≠ 0 → Effects (fun u => watch (deliverForecast u)) (.thermalTimeout j) s fun u =>
    u.mg j = none ∧ (∀ k, k ≠ j → u.mg k = s.mg k) ∧ u.adit.a3down = s.adit.a3down ++ [.refuse j] ∧ Recorded 0x0205 [(20, 1, j), (21, 1, 3)] u ∧ Only [.adit, .heat] s u) ∧
  (∀ s j g, s.stew = true → s.mg j = some g → g.st ≠ .held → Effects watch (.thermalTimeout j) s fun u => u = s) ∧
  (∀ s, s.stew = true → Effects watch .heatStatusTimer s fun u =>
    Recorded 0x0207 [(36, 1, s.heat.nDie), (37, 1, s.heat.nStack), (38, 1, s.heat.nCoolant), (39, 1, s.heat.nBreach)] u ∧ Only [.adit] s u)

/-! ### The module pump and the coolant loop -/

/-- R557 to R562, R566, R567, R573, R575, R795, R796: the drive: crossings, kicks, stalls, phases and the speed loop.
The model's own choices in it: log entries 1, 4, 9, 29, 46. -/
def Obligations.PumpDrive : Prop :=
  (∀ s ns ma, s.stew = true → (s.pump.st = .kick ∨ s.pump.st = .run) → ¬ (s.pump.st = .kick ∧ 5 ≤ s.pump.zcRun) → Effects watch (.bemfZeroCrossing ns ma) s fun u =>
    u.pump.st = s.pump.st ∧ u.pump.duty = s.pump.duty ∧ u.pump.crossings = (ns :: s.pump.crossings).take 12 ∧ u.pump.zcRun = s.pump.zcRun + 1 ∧ u.pump.zcSeen = true ∧
    u.pump.step = (s.pump.step + 1) % 6 ∧ u.pump.slow = decide (sMeas u < 300) ∧ (s.pump.duty < 320 → u.pump.phases = s.pump.phases ∧ u.adit = s.adit) ∧ Only [.adit, .pump] s u) ∧
  (∀ s ns ma, s.stew = true → s.pump.st = .kick → 5 ≤ s.pump.zcRun → Effects watch (.bemfZeroCrossing ns ma) s fun u =>
    u.pump.st = .run ∧ u.pump.duty = s.pump.duty500.getD 600 ∧ u.pump.target = sMeas u ∧ u.pump.runMs = 0 ∧ u.pump.limitMs = 0 ∧ u.pump.crossings = (ns :: s.pump.crossings).take 12 ∧
    Recorded 0x0302 [(20, 1, 4)] u ∧ Only [.adit, .pump] s u) ∧
  (∀ s ns ma, s.stew = true → s.pump.st ≠ .kick → s.pump.st ≠ .run → Effects watch (.bemfZeroCrossing ns ma) s fun u => u = s) ∧
  (∀ x ∈ [(3, Instr.kickTimeout, [DriveSt.kick]), (2, Instr.pumpOvercurrent, [.run, .kick])], ∀ s, s.stew = true → s.pump.st ∈ x.2.2 →
    Effects watch x.2.1 s fun u => u.pump.st = .stalled ∧ u.pump.duty = 0 ∧ u.pump.crossings = [] ∧ u.pump.capture = none ∧ Recorded 0x0302 [(20, 1, x.1), (24, 2, s.pump.duty)] u ∧ Only [.adit, .pump] s u) ∧
  (∀ s, s.stew = true → s.pump.st ≠ .kick → Effects watch .kickTimeout s fun u => u = s) ∧
  (∀ s, s.stew = true → s.pump.st ≠ .kick → s.pump.st ≠ .run → Effects watch .pumpOvercurrent s fun u => u = s) ∧
  (∀ s, s.stew = true → s.pump.st = .run → (s.pump.zcSeen = false ∨ s.pump.slow = true) → Effects watch .stallDetect s fun u =>
    u.pump.st = .stalled ∧ u.pump.duty = 0 ∧ u.pump.capture = none ∧ Recorded 0x0302 [(20, 1, 1), (24, 2, s.pump.duty)] u ∧ Only [.adit, .pump] s u) ∧
  (∀ s, s.stew = true → s.pump.st = .run → s.pump.zcSeen = true → s.pump.slow = false → Effects watch .stallDetect s fun u => u = s.modPump fun q => { q with zcSeen := false }) ∧
  (∀ s, s.stew = true → s.pump.st ≠ .run → Effects watch .stallDetect s fun u => u = s) ∧
  (∀ s, s.stew = true → s.pump.st = .stalled → Effects watch .stallRetry s fun u =>
    u = s.modPump fun q => { q with attempts := q.attempts + 1, st := .kick, duty := 4000, zcRun := 0, zcSeen := false, crossings := [] }) ∧
  (∀ s, s.stew = true → s.pump.st ≠ .stalled → Effects watch .stallRetry s fun u => u = s) ∧
  (∀ s ma, s.stew = true → diagDeferred s = true → s.pump.phases.length = 3 → Effects watch (.diagPulse ma) s fun u =>
    (∀ i, i < 3 → ma.getD i 0 < 100 → (u.pump.phases.getD i {}).bad = (s.pump.phases.getD i {}).bad + 1 ∧
      (u.pump.phases.getD i {}).open_ = ((s.pump.phases.getD i {}).open_ || decide (2 ≤ (s.pump.phases.getD i {}).bad))) ∧
    (∀ i, i < 3 → 100 ≤ ma.getD i 0 → (u.pump.phases.getD i {}).bad = 0 ∧
      (u.pump.phases.getD i {}).open_ = ((s.pump.phases.getD i {}).open_ && decide ((s.pump.phases.getD i {}).good < 9))) ∧
    { u.pump with phases := s.pump.phases } = s.pump ∧ Only [.adit, .pump] s u) ∧
  (∀ s ma, s.stew = true → diagDeferred s = false → Effects watch (.diagPulse ma) s fun u => u = s) ∧
  (∀ s lim, s.stew = true → s.pump.st = .run → Effects watch (.speedLoop lim) s fun u =>
    u.pump.st = .run ∧ u.pump.duty ≤ 4000 ∧ u.pump.limitMs = (if lim then s.pump.limitMs + 1 else 0) ∧ u.pump.runMs = min 60000 (s.pump.runMs + 1) ∧
    (s.pump.target < ((speedRef s : Nat) : Rat) → u.pump.target = min ((speedRef s : Nat) : Rat) (s.pump.target + ((s.pump.up : Nat) : Rat) / 1000)) ∧
    (((speedRef s : Nat) : Rat) ≤ s.pump.target → u.pump.target = max ((speedRef s : Nat) : Rat) (s.pump.target - ((s.pump.down : Nat) : Rat) / 1000)) ∧
    u.pump.sRef = s.pump.sRef ∧ u.pump.qTarget = s.pump.qTarget ∧ Only [.free, .pump] s u) ∧
  (∀ s lim, s.stew = true → s.pump.st ≠ .run → Effects watch (.speedLoop lim) s fun u => u = s)

/-- R89, R92, R571, R577 to R580, R582 to R589, R593, R729: ageing, baselines, flows, the leak tape and the module cycle.
The model's own choices in it: log entries 1, 4, 9, 19, 28, 48, 88. -/
def Obligations.CoolantLoop : Prop :=
  (∀ s, s.stew = true → s.pump.span.n = 0 → Effects watch .ageingEvaluation s fun u => u = s.modPump fun q => { q with span := {} }) ∧
  (∀ s e m, s.stew = true → s.pump.span.n ≠ 0 → s.pump.span.spoilt = false → s.pump.st = .run → m = ((s.pump.span.speedSum : Nat) : Rat) / ((s.pump.span.n : Nat) : Rat) →
    ((s.pump.span.speedMax : Nat) : Rat) ≤ m * 101 / 100 → m * 99 / 100 ≤ ((s.pump.span.speedMin : Nat) : Rat) → expectedDuty s.pump.baseline m = some e →
    Effects watch .ageingEvaluation s fun u =>
      (∃ d, (e ≠ 0 → d = ((s.pump.span.dutySum : Nat) : Rat) / ((s.pump.span.n : Nat) : Rat) / e) ∧ u.pump.evals = ((d - 1) :: s.pump.evals).take 16) ∧ u.pump.span = {} ∧
      u.pump.ageLevel = ageLevelOf s.pump.ageLevel ((ageIndex u).getD 0) ∧ (u.pump.ageLevel ≠ s.pump.ageLevel → Recorded 0x0303 [(20, 1, u.pump.ageLevel)] u) ∧ Only [.adit, .pump] s u) ∧
  (∀ s c p, s.stew = true → s.pump.capture = some c → 15000 ≤ c.ms → p = (⟨captureSpeed s c, ((c.dutySum : Nat) : Rat) / 10000,
      if c.inletN = 0 then 0 else c.inletSum / ((c.inletN : Nat) : Rat), s.pump.fluid⟩ : BasePoint) →
    (c.done.length < 2 → Effects watch .baselinePoint s fun u => u = s.modPump fun q => { q with capture := some { done := c.done ++ [p], modeBefore := c.modeBefore } }) ∧
    (2 ≤ c.done.length → Effects watch .baselinePoint s fun u => u.pump.capture = none ∧ u.pump.baseline = c.done ++ [p] ∧ u.pump.evals = [] ∧
      (∃ j ∈ u.mgmt.jobs, j.kind = 3 ∧ j.body = baselineBody (c.done ++ [p])) ∧ Recorded 0x0305 [(20, 1, 5)] u ∧ Only [.adit, .mgmt, .pump] s u)) ∧
  (∀ s, s.stew = true → (s.pump.capture = none ∨ ∃ c, s.pump.capture = some c ∧ c.ms < 15000) → Effects watch .baselinePoint s fun u => u = s) ∧
  (∀ s, s.stew = true → flowsReverse s = true → s.pump.reverse = false → Effects watch .reverseFlowDetect s fun u =>
    u.pump = { s.pump with reverse := true } ∧ Recorded 0x0305 [(20, 1, 1)] u ∧ Only [.adit, .pump] s u) ∧
  (∀ s, s.stew = true → (flowsReverse s = false ∨ s.pump.reverse = true) → Effects watch .reverseFlowDetect s fun u => u = s) ∧
  (∀ s, s.stew = true → flowLow s = true → atLimit s = true → s.pump.lowTold = false → Effects watch .lowFlowDetect s fun u =>
    u.pump = { s.pump with lowTold := true, lowOk := 0 } ∧ Recorded 0x0305 [(20, 1, 2)] u ∧ Only [.adit, .pump] s u) ∧
  (∀ s, s.stew = true → (flowLow s = false ∨ atLimit s = false ∨ s.pump.lowTold = true) → Effects watch .lowFlowDetect s fun u => u = s) ∧
  (∀ s b, s.stew = true → b ≠ s.pump.tapeFault → Effects watch (.tapeLoopCheck b) s fun u =>
    u.pump.tapeFault = b ∧ u.pump.blind = (b && s.pump.suspended) ∧ Recorded 0x0305 [(20, 1, if b then 8 else 9)] u ∧
    { u.pump with tapeFault := s.pump.tapeFault, blind := s.pump.blind } = s.pump ∧ Only [.adit, .pump] s u) ∧
  (∀ s b, s.stew = true → b = s.pump.tapeFault → Effects watch (.tapeLoopCheck b) s fun u => u = s) ∧
  (∀ s b, s.stew = true → Effects watch (.wlDetectSample b) s fun u => u = if s.mgmt.fuses.variant = 2 then s.modSup fun x => { x with plugged := b } else s) ∧
  (∀ s, s.stew = true → Effects watch .pumpStatusTimer s fun u => Recorded 0x0301 [(20, 1, s.pump.st.code), (26, 2, s.pump.duty), (28, 2, s.pump.qTarget)] u ∧ Only [.adit] s u) ∧
  (∀ s, s.stew = true → s.sup.mainEn = true → cycleFlows s = none → Effects watch .moduleCycle s fun u =>
    u.pump.overRun = 0 ∧ u.pump.okRun = 0 ∧ u.pump.suspended = true ∧ u.pump.flows = [] ∧ u.pump.powSum = 0 ∧ u.pump.powN = 0 ∧ u.pump.leak = s.pump.leak ∧
    u.sup = { s.sup with flowRun := 0 } ∧ u.power.lastN = s.power.cycleN ∧ u.power.cycleN = 0 ∧ u.ao = s.ao) ∧
  (∀ s a b, s.stew = true → cycleFlows s = some (a, b) → a - b ≤ massTolerance a → b - a ≤ massTolerance a → Effects watch .moduleCycle s fun u =>
    u.pump.overRun = 0 ∧ u.pump.okRun = min 100 (s.pump.okRun + 1) ∧ u.pump.suspended = false ∧ u.pump.flows = [] ∧ u.pump.leak = s.pump.leak ∧ u.ao = s.ao) ∧
  (∀ s a b, s.stew = true → cycleFlows s = some (a, b) → (massTolerance a < a - b ∨ massTolerance a < b - a) → 99 ≤ s.pump.overRun → (s.zone 5).faulted = false → s.pump.leak = 0 →
    s.ao.massTrip = false → s.ao.latch = false → Effects watch .moduleCycle s fun u =>
      u.pump.leak = 2 ∧ u.ao.massTrip = true ∧ u.ao.latch = true ∧ u.ao.causes.mass = true ∧ MainOff u ∧ Recorded 0x0304 [(20, 1, 2), (21, 1, 1)] u) ∧
  (∀ s a b, s.stew = true → s.sup.mainEn = false → s.sup.retryWait = false → inUse s = true → cycleFlows s = some (a, b) → a - b ≤ massTolerance a → b - a ≤ massTolerance a →
    Effects watch .moduleCycle s fun u => (u.sup.mainEn = true ↔ unmetStart u = 0) ∧ (u.sup.mainEn = false → u.sup.unmet = some (unmetStart u)))

/-- R565, R570, R573, R574, R577, R578, R586, R591: the commands of the coolant class.
The model's own choices in it: log entries 1, 4, 9, 47, 58, 63. -/
def Obligations.CoolantPolicy : Prop :=
  (∀ s tag d, Asked .setPumpMode s tag d → s.pump.capture = none → (s.pump.st = .kick ∨ s.pump.st = .stalled) → Effects watch .setPumpMode s fun u =>
    u.pump = { s.pump with modeWait := some (decide (byteAt d 24 = 1)) } ∧ u.mgmt.coolDirty = true ∧ Acked tag 0 0 s u ∧ Only [.adit, .mgmt, .pump] s u) ∧
  (∀ s tag d, Asked .setPumpMode s tag d → s.pump.st ≠ .kick → s.pump.st ≠ .stalled → Effects watch .setPumpMode s fun u =>
    u.pump.speedMode = decide (byteAt d 24 = 1) ∧ u.pump.capture = none ∧ u.pump.st = s.pump.st ∧ u.mgmt.coolDirty = true ∧ Acked tag 0 0 s u ∧ Only [.adit, .mgmt, .pump] s u) ∧
  (∀ s tag d, Asked .setSpeed s tag d → Effects watch .setSpeed s fun u =>
    u.pump.setSpeed = fld d 24 2 ∧ u.pump.capture = none ∧ u.pump.qMin = s.pump.qMin ∧ u.pump.st = s.pump.st ∧ u.mgmt.coolDirty = true ∧ Acked tag 0 0 s u ∧ Only [.adit, .mgmt, .pump] s u) ∧
  (∀ s tag d, Asked .setFlowLimits s tag d → Effects watch .setFlowLimits s fun u =>
    u.pump = { s.pump with qMin := fld d 24 2, qMax := fld d 26 2 } ∧ u.mgmt.coolDirty = true ∧ Acked tag 0 0 s u ∧ Only [.adit, .mgmt, .pump] s u) ∧
  (∀ s tag d, Asked .setRamp s tag d → Effects watch .setRamp s fun u =>
    u.pump = { s.pump with up := fld d 24 2, down := fld d 26 2 } ∧ u.mgmt.coolDirty = true ∧ Acked tag 0 0 s u ∧ Only [.adit, .mgmt, .pump] s u) ∧
  (∀ s tag d, Asked .setFluid s tag d → Effects watch .setFluid s fun u =>
    u.pump = { s.pump with fluid := byteAt d 24 } ∧ u.mgmt.coolDirty = true ∧ (byteAt d 24 ≠ s.pump.fluid → Recorded 0x0305 [(20, 1, 7)] u) ∧ Acked tag 0 0 s u ∧ Only [.adit, .mgmt, .pump] s u) ∧
  (∀ s tag d, Asked .baseline s tag d → baselineBarred s = false → s.pump.capture = none → Effects watch .baseline s fun u =>
    u.pump.capture = some { modeBefore := s.pump.speedMode } ∧ u.pump.speedMode = true ∧ u.pump.st = .run ∧ Acked tag 0 0 s u ∧ Only [.adit, .mgmt, .pump] s u) ∧
  (∀ s tag d, Asked .baseline s tag d → baselineBarred s = true → Effects watch .baseline s fun u => u.pump = s.pump ∧ Acked tag 0x33 0 s u ∧ Only [.adit, .mgmt] s u) ∧
  (∀ s tag d, Asked .clearLeak s tag d → (s.ao.tapeWet = true ∨ s.pump.okRun < 100) → Effects watch .clearLeak s fun u => u.pump = s.pump ∧ u.ao = s.ao ∧ Acked tag 0x33 0 s u) ∧
  (∀ s tag d, Asked .clearLeak s tag d → s.ao.tapeWet = false → 100 ≤ s.pump.okRun → s.pump.leak ≠ 0 → Effects watch .clearLeak s fun u =>
    u.pump.leak = 0 ∧ u.ao = { s.ao with massTrip := false } ∧ (∃ j ∈ u.mgmt.jobs, j.kind = 4 ∧ j.body = [0]) ∧ Recorded 0x0304 [(20, 1, s.pump.leak), (21, 1, 0)] u ∧
    (s.sup.dump = .leak → inUse s = true → u.pump.st = .kick ∧ u.sup.dump = .none) ∧ Acked tag 0 0 s u ∧ Only [.ao, .sup, .adit, .mgmt, .pump, .bus] s u) ∧
  (∀ s tag d, Asked .clearLeak s tag d → s.ao.tapeWet = false → 100 ≤ s.pump.okRun → s.pump.leak = 0 → Effects watch .clearLeak s fun u => u.pump = s.pump ∧ u.ao = s.ao ∧ Acked tag 0 0 s u) ∧
  (∀ s tag d, Asked .pumpNow s tag d → Effects watch .pumpNow s fun u => Recorded 0x0301 [(20, 1, s.pump.st.code), (26, 2, s.pump.duty)] u ∧ Acked tag 0 0 s u ∧ Only [.adit, .mgmt] s u)

/-! ### Buses, row time and the mailbox -/

/-- R599 to R601, R603 to R606, R610 to R613, R621, R633: what the two controllers do by themselves.
The model's own choices in it: log entries 1, 4, 9, 50, 66. -/
def Obligations.BusControllers : Prop :=
  (∀ s b, s.stew = true → b < 2 → (s.onBus b).join = .listening → busEnabled s b = true → nodeId s b ∉ (s.onBus b).srcs → (s.onBus b).rxErr < 96 →
    Effects watch (.joinListenEnd b) s fun u =>
      (u.onBus b).join = .joined ∧ (u.onBus b).conflict = false ∧ Recorded 0x0401 [(20, 1, b), (21, 1, nodeId s b), (22, 1, 1)] u ∧
      ((s.onBus b).asleep = false → Queued b 0x60 none (announceBody s) s u) ∧
      (b = 0 → s.ward.rackRole = true → s.bus.row.join = .off → u.bus.row.join = .listening ∧ u.bus.row.srcs = []) ∧ Only [.sup, .adit, .bus, .ward] s u) ∧
  (∀ s b r, s.stew = true → (s.onBus b).join = .listening → busEnabled s b = true → (nodeId s b ∈ (s.onBus b).srcs ∨ 96 ≤ (s.onBus b).rxErr) →
    r = (if nodeId s b ∈ (s.onBus b).srcs then 2 else 3) → Effects watch (.joinListenEnd b) s fun u =>
      u.onBus b = { s.onBus b with conflict := (s.onBus b).conflict || decide (r = 2), result := r, srcs := [] } ∧ BusOnly b s u ∧
      ((s.onBus b).result ≠ r → Recorded 0x0401 [(20, 1, b), (22, 1, r)] u) ∧ Only [.adit, .bus] s u) ∧
  (∀ s b, s.stew = true → ((s.onBus b).join ≠ .listening ∨ busEnabled s b = false) → Effects watch (.joinListenEnd b) s fun u => u = s) ∧
  (∀ s b, s.stew = true → Effects watch (.rxFifoDrain b) s fun u => u = s.modBus b fun x => { x with fill := 0 }) ∧
  (∀ s b, canHear s b = true → 20 ≤ (s.onBus b).fill → Effects watch (.rxOverflow b) s fun u => u = s.modBus b fun x => { x with rxOver := x.rxOver + 1 }) ∧
  (∀ s b, s.stew = true → (canHear s b = false ∨ (s.onBus b).fill < 20) → Effects watch (.rxOverflow b) s fun u => u = s) ∧
  (∀ s b t r, s.stew = true → busEnabled s b = true → (s.onBus b).join ≠ .off → (s.onBus b).busOff = false → Effects watch (.canError b t r) s fun u =>
    (u.onBus b).txErr = t ∧ (u.onBus b).rxErr = r ∧ (u.onBus b).busOff = decide (256 ≤ t) ∧ (u.onBus b).passive = (decide (t < 256) && (decide (128 ≤ t) || decide (128 ≤ r))) ∧
    (u.onBus b).recovering = false ∧ (256 ≤ t → Recorded 0x0402 [(20, 1, b), (21, 1, 3)] u) ∧
    (t < 256 → (128 ≤ t ∨ 128 ≤ r) → (s.onBus b).passive = false → Recorded 0x0402 [(20, 1, b), (21, 1, 1)] u) ∧
    (t < 128 → r < 128 → (s.onBus b).passive = true → Recorded 0x0402 [(20, 1, b), (21, 1, 2)] u) ∧ BusOnly b s u ∧ Only [.adit, .bus] s u) ∧
  (∀ s b t r, s.stew = true → (busEnabled s b = false ∨ (s.onBus b).join = .off ∨ (s.onBus b).busOff = true) → Effects watch (.canError b t r) s fun u => u = s) ∧
  (∀ s b, s.stew = true → (s.onBus b).busOff = true → (s.onBus b).recovering = false → Effects watch (.busOffWaitExpiry b) s fun u =>
    u.bus = (s.modBus b fun x => { x with recovering := true }).bus ∧ Recorded 0x0402 [(20, 1, b), (21, 1, 4)] u ∧ Only [.adit, .bus] s u) ∧
  (∀ s b, s.stew = true → ((s.onBus b).busOff = false ∨ (s.onBus b).recovering = true) → Effects watch (.busOffWaitExpiry b) s fun u => u = s) ∧
  (∀ s b, s.stew = true → (s.onBus b).busOff = true → (s.onBus b).recovering = true → Effects watch (.busOffRecovered b) s fun u =>
    u.bus = (s.modBus b fun x => { x with busOff := false, recovering := false, txErr := 0, rxErr := 0, passive := false }).bus ∧
    Recorded 0x0402 [(20, 1, b), (21, 1, 5)] u ∧ Only [.adit, .bus] s u) ∧
  (∀ s b, s.stew = true → ((s.onBus b).busOff = false ∨ (s.onBus b).recovering = false) → Effects watch (.busOffRecovered b) s fun u => u = s) ∧
  (∀ s b x, s.stew = true → x = s.onBus b → (x.foreign ≠ 0 ∨ x.malformed ≠ 0 ∨ x.innerOver ≠ 0 ∨ x.rxOver ≠ 0 ∨ x.txExpiry ≠ 0 ∨ x.dups ≠ 0) → Effects watch (.busCountsTimer b) s fun u =>
    Recorded 0x0403 [(20, 1, b), (24, 2, min x.foreign 0xFFFF), (26, 2, min x.malformed 0xFFFF), (28, 2, min x.innerOver 0xFFFF), (30, 2, min x.rxOver 0xFFFF),
      (32, 2, min x.txExpiry 0xFFFF), (34, 2, min x.dups 0xFFFF)] u ∧
    u.onBus b = { x with foreign := 0, malformed := 0, innerOver := 0, rxOver := 0, txExpiry := 0, dups := 0 } ∧ BusOnly b s u ∧ Only [.adit, .bus] s u) ∧
  (∀ s b x, s.stew = true → x = s.onBus b → x.foreign = 0 → x.malformed = 0 → x.innerOver = 0 → x.rxOver = 0 → x.txExpiry = 0 → x.dups = 0 →
    Effects watch (.busCountsTimer b) s fun u => u = s) ∧
  (∀ s b f, canHear s b = true → Effects watch (.malformedFrame b false f) s fun u => u = s.modBus b fun x => { x with foreign := x.foreign + 1 }) ∧
  (∀ s b f, canHear s b = true → f.addr = true → f.dest ≠ nodeId s b → Effects watch (.malformedFrame b true f) s fun u => u = s) ∧
  (∀ s b f, canHear s b = true → (f.addr = false ∨ f.dest = nodeId s b) →
    (f.data.length < 4 ∨ 4 + f.len ≤ f.data.length ∧ (f.version ≠ 1 ∨ f.msg / 16 ≠ f.cls ∨ minLen f.msg f.body = none ∨ ∃ n, minLen f.msg f.body = some n ∧ f.len < n)) →
    Effects watch (.malformedFrame b true f) s fun u => u = s.modBus b fun x => { x with malformed := x.malformed + 1 }) ∧
  (∀ s b f, canHear s b = true → (f.addr = false ∨ f.dest = nodeId s b) → 4 ≤ f.data.length → f.data.length < 4 + f.len →
    Effects watch (.malformedFrame b true f) s fun u => u = s.modBus b fun x => { x with innerOver := x.innerOver + 1 }) ∧
  (∀ s b f, s.stew = true → (canHear s b = false ∨ frameCheck s b true f = none) → Effects watch (.malformedFrame b true f) s fun u => u = s) ∧
  (∀ s b, s.stew = true → (s.onBus b).join = .joined → (s.onBus b).asleep = false → (s.onBus b).busOff = false → sendable s b ≠ [] → Effects watch (.frameSent b) s fun u =>
    ∃ e ∈ sendable s b, (∀ o ∈ sendable s b, e.2.frame.id ≤ o.2.frame.id) ∧ (u.onBus b).sent = some (e.2.frame, s.ao.rowTime) ∧
      (u.onBus b).syncStamp = (if e.2.frame.msg = 0x22 then some s.ao.rowTime else (s.onBus b).syncStamp) ∧
      ((s.onBus b).more = [] → tget none (u.onBus b).tx e.1 = (tget none (s.onBus b).tx e.1).map (fun q => { q with waiting := false })) ∧
      (∀ t r, (s.onBus b).more = t :: r → tget none (u.onBus b).tx e.1 = some { tx := t, waiting := true } ∧ (u.onBus b).more = r) ∧ BusOnly b s u ∧ Only [.bus] s u) ∧
  (∀ s b, s.stew = true → ((s.onBus b).join ≠ .joined ∨ (s.onBus b).asleep = true ∨ (s.onBus b).busOff = true ∨ sendable s b = []) → Effects watch (.frameSent b) s fun u => u = s) ∧
  (∀ s b i t, s.stew = true → tget none (s.onBus b).tx i = some t → t.waiting = true → Effects watch (.txExpiry b i) s fun u =>
    (u.onBus b).txExpiry = (s.onBus b).txExpiry + 1 ∧ ((s.onBus b).more = [] → tget none (u.onBus b).tx i = some { t with waiting := false }) ∧
    (∀ m r, (s.onBus b).more = m :: r → tget none (u.onBus b).tx i = some { tx := m, waiting := true } ∧ (u.onBus b).more = r) ∧
    (∀ j, j ≠ i → tget none (u.onBus b).tx j = tget none (s.onBus b).tx j) ∧ BusOnly b s u ∧ Only [.bus] s u) ∧
  (∀ s b i, s.stew = true → (∀ t, tget none (s.onBus b).tx i = some t → t.waiting = false) → Effects watch (.txExpiry b i) s fun u => u = s)

/-- R600, R605, R607, R608, R621, R622: what every frame that arrives does, whatever it says.
The model's own choices in it: log entries 1, 4, 9, 50. -/
def Obligations.FramesArrive : Prop :=
  (∀ x ∈ frameCmds, ∀ s b f, s.stew = true → (canHear s b = false ∨ f.msg ≠ x.1 ∨ 20 ≤ (s.onBus b).fill) → ¬ (x.1 = 0x63 ∧ b = 0 ∧ s.bus.rack.asleep = true) →
    Effects watch (x.2 b f) s fun u => u = s) ∧
  (∀ x ∈ frameCmds, ∀ s b f w, canHear s b = true → f.msg = x.1 → (s.onBus b).fill < 20 → frameCheck s b true f = some w → Effects watch (x.2 b f) s fun u => u = countDrop b w s) ∧
  (∀ x ∈ frameCmds, ∀ s b f, Hears s b x.1 f → f.src = nodeId s b → (s.onBus b).join = .listening → Effects watch (x.2 b f) s fun u => u = stored b f s) ∧
  (∀ x ∈ frameCmds, ∀ s b f, Hears s b x.1 f → f.src = nodeId s b → (s.onBus b).join = .joined → Effects watch (x.2 b f) s fun u =>
    u.onBus b = { (stored b f s).onBus b with join := .listening, conflict := true, result := 4, srcs := [] } ∧ BusOnly b s u ∧ Recorded 0x0401 [(20, 1, b), (22, 1, 4)] u ∧
    Only [.adit, .bus] s u) ∧
  (∀ x ∈ frameCmds, ∀ s b f, Hears s b x.1 f → f.src ≠ nodeId s b → Repeats s b f → Effects watch (x.2 b f) s fun u => u = (stored b f s).modBus b fun y => { y with dups := y.dups + 1 }) ∧
  (∀ x ∈ frameCmds, ∀ s b f, Hears s b x.1 f → f.src ≠ nodeId s b → ¬ Repeats s b f → (s.onBus b).join ≠ .joined → x.1 ≠ 0x22 → x.1 ≠ 0x20 → x.1 ≠ 0x31 →
    Effects watch (x.2 b f) s fun u => u = received b f s) ∧
  (∀ s b f, Hears s b f.msg f → f.msg / 16 = 7 → f.src ≠ nodeId s b → Effects watch (.makerFrame b f) s fun u => u = received b f s) ∧
  (∀ s b f, s.stew = true → f.msg / 16 = 7 → s.mgmt.fuses.lc ≠ .maker → f.cls = 7 → 4 + f.len ≤ f.data.length → 4 ≤ f.data.length → f.version = 1 → Effects watch (.makerFrame b f) s fun u => u = s) ∧
  (∀ s b f, s.stew = true → f.msg / 16 ≠ 7 → Effects watch (.makerFrame b f) s fun u => u = s)

/-- R594, R609 to R612, R623, R636, R637: the messages a module sends by the clock and answers, and the sleep of a bus.
The model's own choices in it: log entries 1, 4, 9, 53, 79. -/
def Obligations.BusMessages : Prop :=
  (∀ x ∈ frameCmds, x.1 ∈ [0x10, 0x60, 0x63] → ∀ s b f, Takes s b x.1 f → Effects watch (x.2 b f) s fun u => u = received b f s) ∧
  (∀ s b f, Takes s b 0x61 f → Effects watch (.announceReq b f) s fun u => Queued b 0x60 none (announceBody s) s u ∧ BusOnly b s u ∧ Only [.bus] s u) ∧
  (∀ s b f, Takes s b 0x62 f → fromCommand s b f.src = true → sleepAllowed s b = true → Effects watch (.busSleep b f) s fun u =>
    (u.onBus b).asleep = true ∧ BusOnly b s u ∧ Recorded 0x0405 [(20, 1, b), (21, 1, 1)] u ∧ Only [.adit, .bus] s u) ∧
  (∀ s b f, Takes s b 0x62 f → fromCommand s b f.src = true → sleepAllowed s b = false → Effects watch (.busSleep b f) s fun u =>
    u.bus = (received b f s).bus ∧ Recorded 0x0405 [(20, 1, b), (21, 1, 4)] u ∧ Only [.adit, .bus] s u) ∧
  (∀ s b f, Takes s b 0x62 f → fromCommand s b f.src = false → Effects watch (.busSleep b f) s fun u => u = received b f s) ∧
  (∀ s f, s.stew = true → s.bus.rack.asleep = true → f.msg = 0x63 → (f.addr = false ∨ f.dest = nodeId s 0) → Effects watch (.busWake 0 f) s fun u =>
    u.bus = { s.bus with rack := { s.bus.rack with asleep := false } } ∧ Recorded 0x0405 [(20, 1, 0), (21, 1, 2)] u ∧ Only [.adit, .bus] s u) ∧
  (∀ s f, s.stew = true → s.bus.rack.asleep = true → (f.msg ≠ 0x63 ∨ f.addr = true ∧ f.dest ≠ nodeId s 0) → Effects watch (.busWake 0 f) s fun u => u = s) ∧
  (∀ s, s.stew = true → s.bus.row.asleep = true → Effects watch .rowBusDominantWake s fun u =>
    u.bus = { s.bus with row := { s.bus.row with asleep := false } } ∧ Recorded 0x0405 [(20, 1, 1), (21, 1, 2)] u ∧ Only [.adit, .bus] s u) ∧
  (∀ s, s.stew = true → s.bus.row.asleep = false → Effects watch .rowBusDominantWake s fun u => u = s) ∧
  (∀ s, MaySend s 0 → Effects watch (.busMessagePhase 0 0x30) s fun u =>
    Queued 0 0x30 none (budgetBody s) s u ∧ (s.ward.rackRole = true → (u.slotBook s.ao.slotId).body = budgetBody s ∧ (u.slotBook s.ao.slotId).at_ = some s.now) ∧ Only [.bus, .ward] s u) ∧
  (∀ s, MaySend s 0 → Effects watch (.busMessagePhase 0 0x40) s fun u =>
    Queued 0 0x40 none (telemBody s) s u ∧ (s.ward.rackRole = true → (u.slotBook s.ao.slotId).telem = telemBody s) ∧ Only [.bus, .ward] s u) ∧
  (∀ s, MaySend s 0 → (s.pump.leak ≠ 0 ∨ s.bus.leakSends ≠ 0) → Effects watch (.busMessagePhase 0 0x01) s fun u =>
    Queued 0 0x01 none (leakBody s.bus.leakSource (decide (s.pump.leak ≠ 0)) s) s u ∧ u.bus.leakSends = s.bus.leakSends - 1 ∧ Only [.bus] s u) ∧
  (∀ s, s.stew = true → s.pump.leak = 0 → s.bus.leakSends = 0 → Effects watch (.busMessagePhase 0 0x01) s fun u => u = s) ∧
  (∀ s b, MaySend s b → s.ward.rackRole = true → (b = 0 ∨ s.ward.rowRole = true) → Effects watch (.busMessagePhase b 0x20) s fun u =>
    Queued b 0x20 none (hbBody s b) s u ∧ BusOnly b s u ∧ Only [.bus] s u) ∧
  (∀ s b, s.stew = true → (s.ward.rackRole = false ∨ b ≠ 0 ∧ s.ward.rowRole = false) → Effects watch (.busMessagePhase b 0x20) s fun u => u = s) ∧
  (∀ s b, MaySend s b → s.ward.active = true → (b = 0 ∨ s.ward.rowRole = true) → Effects watch (.busMessagePhase b 0x22) s fun u =>
    Queued b 0x22 none (syncBody s b) s u ∧ BusOnly b s u ∧ Only [.bus] s u) ∧
  (∀ s n l, MaySend s 0 → s.ward.active = true → commandedNodes s 0 = n :: l → (∀ m ∈ l, m % 64 ≠ n % 64) → cmdReady s 0 n = true → cmdChannels s 0 n ≠ [] → Effects watch (.busMessagePhase 0 0x10) s fun u =>
    (∃ f ∈ waitingFrames u 0, f.msg = 0x10 ∧ f.dest = n % 64 ∧ fld f.body 0 2 = s.ward.rackClaim % 65536) ∧ BusOnly 0 s u ∧ Only [.bus] s u) ∧
  (∀ s, MaySend s 0 → s.ward.active = true → Effects watch (.busMessagePhase 0 0x31) s fun u =>
    (∀ k, k < 32 → ∃ f ∈ waitingFrames u 0, f.msg = 0x31 ∧ byteAt f.body 0 ≤ k ∧ k < byteAt f.body 0 + byteAt f.body 1 ∧
      fld f.body (4 + 4 * (k - byteAt f.body 0)) 2 = min 65535 (s.slotBook k).cap ∧ fld f.body (6 + 4 * (k - byteAt f.body 0)) 2 = min 32767 (slotFlow s k)) ∧
    (∀ i, i < 32 → (u.slotBook i).told = (s.slotBook i).lowered ∧ (u.slotBook i).cap = (s.slotBook i).cap) ∧
    ((inCommand s 0).any (fun h => h.src == nodeId s 0) = true → u.power.cRow = min 1400 (s.slotBook s.ao.slotId).cap ∧ u.pump.qWard = slotFlow s s.ao.slotId) ∧
    Only [.sup, .power, .pump, .bus, .ward] s u) ∧
  (∀ s, MaySend s 1 → s.ward.active = true → Effects watch (.busMessagePhase 1 0x32) s fun u => Queued 1 0x32 none (rackBudgetBody s) s u ∧ Only [.bus, .ward] s u) ∧
  (∀ s, MaySend s 1 → s.ward.active = true → Effects watch (.busMessagePhase 1 0x41) s fun u => Queued 1 0x41 none (rackTelemBody s) s u ∧ Only [.bus, .ward] s u) ∧
  (∀ s b msg, s.stew = true → s.ward.active = false → (msg ∈ [0x04, 0x10, 0x22, 0x31, 0x32, 0x41, 0x50, 0x62]) → Effects watch (.busMessagePhase b msg) s fun u => u = s)

/-- R613 to R618, R628 to R631: row time is corrected as the source tells, and the mailbox shows a buffer as it stood.
The model's own choices in it: log entries 1, 4, 9, 63. -/
def Obligations.RowTimeAndMailbox : Prop :=
  (∀ s b f, Takes s b 0x22 f → (syncBus s ≠ some b ∨ fromCommand s b f.src = false) → Effects watch (.sync b f) s fun u => u = received b f s) ∧
  (∀ s b f, Takes s b 0x22 f → syncBus s = some b → fromCommand s b f.src = true → Effects watch (.sync b f) s fun u =>
    u.bus.clock.source = some (b, f.src) ∧ u.bus.clock.last = some (f.seq, s.ao.rowTime) ∧ u.bus.clock.holdover = false ∧
    (s.bus.clock.holdover = true → Recorded 0x0404 [(20, 1, 4)] u) ∧ (∀ o, s.bus.clock.source = some o → o ≠ (b, f.src) → Recorded 0x0404 [(20, 1, 5)] u) ∧
    (s.bus.clock.source ≠ some (b, f.src) → u.ao = s.ao ∧ u.bus.clock.pairs = [] ∧ u.bus.clock.synced = s.bus.clock.synced) ∧ Only [.ao, .adit, .bus] s u) ∧
  (∀ s b f r e, Pair s b f r → e = pairStep f r → (s.bus.clock.synced = false ∨ 5000 < e ∨ e < -100000000) → Effects watch (.sync b f) s fun u =>
    u.ao = { s.ao with rowTime := s.ao.rowTime + BitVec.ofInt 48 e } ∧ u.bus.clock.synced = true ∧ u.bus.clock.slew = none ∧ u.bus.clock.hold = 0 ∧
    u.bus.rack.syncStamp = none ∧ u.bus.row.syncStamp = none ∧ (s.bus.clock.synced = false → Recorded 0x0404 [(20, 1, 1)] u) ∧
    (5000 < e ∨ e < -5000 → Recorded 0x0404 [(20, 1, 2)] u)) ∧
  (∀ s b f r e, Pair s b f r → e = pairStep f r → s.bus.clock.synced = true → -100000000 ≤ e → e < -5000 → Effects watch (.sync b f) s fun u =>
    u.ao = s.ao ∧ u.bus.clock.hold = e.natAbs ∧ u.bus.clock.slew = none ∧ Recorded 0x0404 [(20, 1, 2)] u) ∧
  (∀ s b f r e, Pair s b f r → e = pairStep f r → s.bus.clock.synced = true → -5000 ≤ e → e ≤ 5000 → e ≠ 0 → Effects watch (.sync b f) s fun u =>
    u.ao = s.ao ∧ u.bus.clock.hold = 0 ∧ u.bus.clock.slew = some (100000000 / e.natAbs, 100000000 / e.natAbs, 100000000, decide (0 < e))) ∧
  (∀ s b f r e, Pair s b f r → e = pairStep f r → s.bus.clock.synced = true → e = 0 → Effects watch (.sync b f) s fun u =>
    u.ao = s.ao ∧ u.bus.clock.hold = s.bus.clock.hold ∧ u.bus.clock.slew = s.bus.clock.slew) ∧
  (∀ s b f r, Pair s b f r → s.bus.clock.pairs ≠ [] → Effects watch (.sync b f) s fun u =>
    u.bus.clock.pairs = ((BitVec.ofNat 48 (fld f.body 0 6), r) :: s.bus.clock.pairs).take 8 ∧ -(1 / 5000) ≤ u.bus.clock.trim ∧ u.bus.clock.trim ≤ 1 / 5000) ∧
  (∀ s, s.stew = true → s.bus.clock.synced = true → s.bus.clock.holdover = false → Effects watch .syncHoldover s fun u =>
    u.bus = { s.bus with clock := { s.bus.clock with holdover := true, since := s.now } } ∧ Recorded 0x0404 [(20, 1, 3)] u ∧ Only [.adit, .bus] s u) ∧
  (∀ s, s.stew = true → (s.bus.clock.synced = false ∨ s.bus.clock.holdover = true) → Effects watch .syncHoldover s fun u => u = s) ∧
  (∀ s v, s.stew = true → s.bus.mbx.snap = none → Effects watch (.mbxSelect v) s fun u => u = s.modBuses fun x => { x with mbx := { x.mbx with buffer := v % 32, bus := v / 32 % 2 } }) ∧
  (∀ s v, s.stew = true → s.bus.mbx.snap ≠ none → Effects watch (.mbxSelect v) s fun u => u = s) ∧
  (∀ s ws n, s.stew = true → ws = mailboxWords s s.bus.mbx.bus s.bus.mbx.buffer → n = (s.bus.mbx.count + 1) % 128 → Effects watch .mbxWord0Read s fun u =>
    u.bus = { s.bus with mbx := { s.bus.mbx with snap := some ws, count := n, answer := toLe 4 (ws.getD 0 0).toNat ++ toLe 1 (128 + n) } } ∧ Only [.bus] s u) ∧
  (∀ s ws, s.stew = true → s.bus.mbx.snap = some ws → Effects watch .mbxWord17Read s fun u =>
    u.bus = { s.bus with mbx := { s.bus.mbx with snap := none, answer := toLe 4 (ws.getD 17 0).toNat ++ toLe 1 (128 + s.bus.mbx.count) } } ∧ Only [.bus] s u) ∧
  (∀ s, s.stew = true → s.bus.mbx.snap = none → Effects watch .mbxWord17Read s fun u =>
    u.bus = { s.bus with mbx := { s.bus.mbx with answer := toLe 4 0 ++ toLe 1 s.bus.mbx.count } } ∧ Only [.bus] s u) ∧
  (∀ s, s.stew = true → Effects watch .mbxLockTimeout s fun u => u = s.modBuses fun x => { x with mbx := { x.mbx with snap := none } })
/-! ### Wardens -/

/-- R626, R627, R641, R651, R653, R654, R656, R660, R663 to R665, R668, R670, R671, R676: what a warden takes from the frames it hears.
The model's own choices in it: log entries 1, 4, 9, 51, 65, 79. -/
def Obligations.WardenFrames : Prop :=
  (∀ s b f, Takes s b 0x20 f → Effects watch (.wardenHb b f) s fun u =>
    (∃ h ∈ (u.onBus b).hbs, h.src = f.src ∧ h.claim = fld f.body 0 2 ∧ h.flags = byteAt f.body 2 ∧ h.rack = byteAt f.body 3 ∧ h.dsn = fld f.body 8 8 ∧ h.at_ = s.now) ∧
    (∀ k, k.src ≠ f.src → (k ∈ (u.onBus b).hbs ↔ k ∈ (s.onBus b).hbs)) ∧
    (b = 0 → bit (byteAt f.body 2) 2 = true → bits (byteAt f.body 2) 1 1 = 0 → u.ward.activeAt = some s.now) ∧
    (activeIn s b = true → bit (byteAt f.body 2) 2 = true → bits (byteAt f.body 2) 1 1 = b → fld f.body 0 2 ≠ 0 →
      outranks (fld f.body 0 2) f.src (claimOf s b) (nodeId s b) = true → BecameStandby 3 s u) ∧
    ((activeIn s b = false ∨ bit (byteAt f.body 2) 2 = false ∨ fld f.body 0 2 = 0 ∨ outranks (fld f.body 0 2) f.src (claimOf s b) (nodeId s b) = false) →
      u.ward.active = s.ward.active ∧ u.adit = s.adit) ∧ Only [.adit, .bus, .ward] s u) ∧
  (∀ x ∈ frameCmds, x.1 ∈ [0x21, 0x03] → ∀ s b f, Takes s b x.1 f → s.ward.rackRole = false → Effects watch (x.2 b f) s fun u => u = received b f s) ∧
  (∀ s b f, Takes s b 0x21 f → s.ward.rackRole = true → Effects watch (.stageStatus b f) s fun u =>
    (u.stage b f.src).claim = fld f.body 0 2 ∧ (u.stage b f.src).type = byteAt f.body 2 ∧ (u.stage b f.src).flags = byteAt f.body 3 ∧
    (u.stage b f.src).commander = byteAt f.body 6 ∧ (u.stage b f.src).at_ = some s.now ∧
    (∀ i, i < byteAt f.body 5 → tget none (u.stage b f.src).applied (byteAt f.body 4 + i) = some (fld f.body (8 + 4 * i) 2) ∧
      tget none (u.stage b f.src).measured (byteAt f.body 4 + i) = some (fld f.body (10 + 4 * i) 2)) ∧ StageOnly b f.src s u ∧
    (bit (byteAt f.body 3) 1 = true → bit (s.stage b f.src).flags 1 = false → Recorded 0x0427 [(20, 1, f.src), (21, 1, 3)] u) ∧
    (bit (byteAt f.body 3) 0 ≠ bit (s.stage b f.src).flags 0 → Recorded 0x0427 [(20, 1, f.src), (21, 1, if bit (byteAt f.body 3) 0 then 4 else 5)] u) ∧
    Only [.adit, .bus, .ward] s u) ∧
  (∀ s b f k, Takes s b 0x03 f → s.ward.rackRole = true → k = 256 * byteAt f.body 2 + byteAt f.body 1 → Effects watch (.stageAlarm b f) s fun u =>
    (bit (byteAt f.body 3) 0 = true → k ∈ (u.stage b f.src).alarms) ∧ (bit (byteAt f.body 3) 0 = false → k ∉ (u.stage b f.src).alarms) ∧ StageOnly b f.src s u ∧
    Recorded 0x0427 [(20, 1, f.src), (21, 1, if bit (byteAt f.body 3) 0 then 1 else 2), (22, 1, byteAt f.body 1)] u) ∧
  (∀ s f, Takes s 0 0x03 f → s.ward.rackRole = true → bit (byteAt f.body 3) 0 = true → s.ward.active = true → byteAt f.body 2 = 1 → fnAt s 0 f.src (byteAt f.body 1) = 4 →
    s.ward.pol.rackAction = 0 → s.ward.pol.rackResp = .none → Effects watch (.stageAlarm 0 f) s fun u =>
      u.ward.pol = { s.ward.pol with rackResp := .caps, rackBy := (f.src, 1) } ∧ (∀ i, i < 32 → (u.slotBook i).cap = 0) ∧ Recorded 0x0424 [(20, 1, 2), (21, 1, f.src), (22, 1, 1)] u ∧ WardBlock 4 u) ∧
  (∀ s f t, Takes s 1 0x03 f → s.ward.rackRole = true → bit (byteAt f.body 3) 0 = true → activeIn s 1 = true → s.ward.pol.rowAction = 0 → s.ward.pol.rowResp = .none →
    ((byteAt f.body 2 = 1 ∧ fnAt s 1 f.src (byteAt f.body 1) = 20 ∧ t = 16) ∨ (byteAt f.body 2 = 3 ∧ fnAt s 1 f.src (byteAt f.body 1) = 19 ∧ t = 16) ∨
     (byteAt f.body 2 = 4 ∧ fnAt s 1 f.src (byteAt f.body 1) = 19 ∧ t = 17)) → Effects watch (.stageAlarm 1 f) s fun u =>
      u.ward.pol = { s.ward.pol with rowResp := .caps, rowTarget := t, rowBy := (f.src, byteAt f.body 2) } ∧ (∀ r, r < 16 → (u.rackBook r).cap = 0) ∧
      Recorded 0x0424 [(20, 1, 2), (21, 1, f.src), (22, 1, byteAt f.body 2)] u ∧ WardBlock 4 u) ∧
  (∀ s f, Takes s 0 0x01 f → bit (byteAt f.body 1) 0 = true → s.ward.active = true → f.src ∉ s.ward.pol.leakShut → Effects watch (.leakAlert 0 f) s fun u =>
    (u.slotBook f.src).leakAt = some s.now ∧ f.src ∈ u.ward.pol.leakShut ∧ { u.ward.pol with leakShut := s.ward.pol.leakShut } = s.ward.pol ∧
    Recorded 0x0424 [(20, 1, 1), (21, 1, f.src), (22, 1, byteAt f.body 0), (23, 1, f.src)] u ∧ WardBlock 4 u ∧
    (∀ e ∈ (stageMap s 0).zipIdx, e.1.fn = 3 → e.1.arg = f.src → (outAt u 0 e.2).sp = some 0)) ∧
  (∀ s f, Takes s 0 0x01 f → bit (byteAt f.body 1) 0 = true → (s.ward.active = false ∨ f.src ∈ s.ward.pol.leakShut) → Effects watch (.leakAlert 0 f) s fun u =>
    (u.slotBook f.src).leakAt = some s.now ∧ u.ward.pol = s.ward.pol ∧ u.adit = s.adit ∧ Only [.bus, .ward] s u) ∧
  (∀ s f, Takes s 0 0x01 f → bit (byteAt f.body 1) 0 = false → Effects watch (.leakAlert 0 f) s fun u => u.ward = s.ward ∧ Only [.bus] s u) ∧
  (∀ s f, Takes s 0 0x02 f → Effects watch (.tripNotice 0 f) s fun u =>
    (s.ward.rackRole = true → tget [] u.ward.trips f.src = f.body.take 4 ∧ { u.ward with trips := s.ward.trips } = s.ward) ∧ (s.ward.rackRole = false → u.ward = s.ward) ∧
    (s.ward.active = true → MaySend s 1 → ∃ g ∈ waitingFrames u 1, g.msg = 0x04 ∧ byteAt g.body 0 = s.ao.rackId % 256 ∧ byteAt g.body 1 = f.src ∧ byteAt g.body 2 = 0x02) ∧
    Only [.bus, .ward] s u) ∧
  (∀ s f, Takes s 1 0x04 f → s.ward.rowRole = true → Effects watch (.rackAlert 1 f) s fun u =>
    tget [] u.ward.rackAlerts (byteAt f.body 0) = f.body.take 10 ∧ { u.ward with rackAlerts := s.ward.rackAlerts } = s.ward ∧ u.bus = (received 1 f s).bus ∧ Only [.bus, .ward] s u) ∧
  (∀ s f, Takes s 0 0x30 f → s.ward.rackRole = true → Effects watch (.moduleBudget 0 f) s fun u =>
    (u.slotBook f.src).body = f.body.take 43 ∧ (u.slotBook f.src).at_ = some s.now ∧ (u.slotBook f.src).cap = (s.slotBook f.src).cap ∧
    ((u.slotBook f.src).lowered = true ↔ (s.slotBook f.src).lowered = true ∧ ¬ ((s.slotBook f.src).told = true ∧ fld f.body 8 2 ≤ (s.slotBook f.src).cap)) ∧
    f.src ∉ u.ward.pol.released ∧ (∀ j, j ≠ f.src → u.slotBook j = s.slotBook j) ∧ Only [.bus, .ward] s u) ∧
  (∀ s f, Takes s 0 0x40 f → s.ward.rackRole = true → Effects watch (.moduleTelem 0 f) s fun u =>
    u.slotBook f.src = { s.slotBook f.src with telem := f.body.take 20 } ∧ (∀ j, j ≠ f.src → u.slotBook j = s.slotBook j) ∧ Only [.bus, .ward] s u) ∧
  (∀ s f, Takes s 1 0x32 f → s.ward.rowRole = true → Effects watch (.rackBudget 1 f) s fun u =>
    (u.rackBook (f.src / 2)).body = f.body.take 41 ∧ (u.rackBook (f.src / 2)).at_ = some s.now ∧ (u.rackBook (f.src / 2)).cap = (s.rackBook (f.src / 2)).cap ∧
    ((u.rackBook (f.src / 2)).lowered = true ↔ (s.rackBook (f.src / 2)).lowered = true ∧ ¬ ((s.rackBook (f.src / 2)).told = true ∧ fld f.body 2 2 ≤ (s.rackBook (f.src / 2)).cap)) ∧
    (∀ j, j ≠ f.src / 2 → u.rackBook j = s.rackBook j) ∧ Only [.bus, .ward] s u) ∧
  (∀ s f, Takes s 1 0x41 f → s.ward.rowRole = true → Effects watch (.rackTelem 1 f) s fun u =>
    u.rackBook (f.src / 2) = { s.rackBook (f.src / 2) with telem := f.body.take 12 } ∧ (∀ j, j ≠ f.src / 2 → u.rackBook j = s.rackBook j) ∧ Only [.bus, .ward] s u) ∧
  (∀ x ∈ frameCmds, ∀ s b f, Takes s b x.1 f → ((x.1 ∈ [0x01, 0x02, 0x30, 0x40] ∧ b ≠ 0) ∨ (x.1 ∈ [0x04, 0x32, 0x41] ∧ b ≠ 1) ∨ (x.1 ∈ [0x30, 0x40] ∧ s.ward.rackRole = false) ∨
    (x.1 ∈ [0x04, 0x32, 0x41] ∧ s.ward.rowRole = false) ∨ (x.1 = 0x50 ∧ s.ward.active = true)) → Effects watch (x.2 b f) s fun u => u = received b f s) ∧
  (∀ s f i, Takes s 0 0x31 f → fromCommand s 0 f.src = true → bit (byteAt f.body 2) 0 = false → s.ao.slotId = byteAt f.body 0 + i → i < byteAt f.body 1 → Effects watch (.alloc 0 f) s fun u =>
    u.power = { s.power with cRow := min 1400 (fld f.body (4 + 4 * i) 2) } ∧ u.pump = { s.pump with qWard := fld f.body (6 + 4 * i) 2 } ∧ u.sup = { s.sup with allocSince := true } ∧
    Only [.sup, .power, .pump, .bus] s u) ∧
  (∀ s f i, Takes s 1 0x31 f → fromCommand s 1 f.src = true → bit (byteAt f.body 2) 0 = true → s.ao.rackId = byteAt f.body 0 + i → i < byteAt f.body 1 → s.ward.rackRole = true →
    Effects watch (.alloc 1 f) s fun u => u.ward = { s.ward with a := fld f.body (4 + 4 * i) 2, aFlow := fld f.body (6 + 4 * i) 2, aHeld := false } ∧ Only [.bus, .ward] s u) ∧
  (∀ s b f me, Takes s b 0x31 f → me = (if b = 0 then s.ao.slotId else s.ao.rackId) →
    (fromCommand s b f.src = false ∨ bits (byteAt f.body 2) 0 0 ≠ b ∨ me < byteAt f.body 0 ∨ byteAt f.body 0 + byteAt f.body 1 ≤ me) → Effects watch (.alloc b f) s fun u => u = received b f s) ∧
  (∀ s b f d, Takes s b 0x50 f → s.ward.active = false → d = f.body.take f.len → Effects watch (.mirror b f) s fun u => MirrorTaken d s u ∧ BusOnly b s u ∧ Only [.bus, .ward, .mgmt] s u)

/-- R634, R640, R641, R652 to R656, R659, R660, R662: who is active, and how that changes.
The model's own choices in it: log entries 1, 4, 9, 64. -/
def Obligations.WardenRoles : Prop :=
  (∀ s, s.stew = true → s.ward.rackRole = true → s.ward.active = false → s.bus.rack.join = .joined → s.ward.rackClaim ≠ 0 →
    heardWithin s (if s.ward.side = 0 then 60 else 120) s.ward.activeAt = false → Effects watch .wardenStartActive s fun u => BecameActive 1 s u) ∧
  (∀ s, s.stew = true → (s.ward.rackRole = false ∨ s.ward.active = true ∨ s.bus.rack.join ≠ .joined ∨ s.ward.rackClaim = 0 ∨
    heardWithin s (if s.ward.side = 0 then 60 else 120) s.ward.activeAt = true) → Effects watch .wardenStartActive s fun u => u = s) ∧
  (∀ s, s.stew = true → s.ward.rackRole = true → s.ward.active = false → s.ward.peerHeard = false → 2 ≤ s.ward.misses → s.ward.rackClaim ≠ 0 →
    Effects watch .standbyEvaluation s fun u => BecameActive 2 s u) ∧
  (∀ s, s.stew = true → s.ward.rackRole = true → s.ward.active = false → (s.ward.peerHeard = true ∨ s.ward.misses < 2 ∨ s.ward.rackClaim = 0) → Effects watch .standbyEvaluation s fun u =>
    u = s.modWard fun w => { w with misses := if w.peerHeard then 0 else w.misses + 1, peerHeard := false }) ∧
  (∀ s, s.stew = true → (s.ward.rackRole = false ∨ s.ward.active = true) → Effects watch .standbyEvaluation s fun u => u = s) ∧
  (∀ s lane seq d, LinkTakes s lane seq 4 d → s.ward.active = false → s.ward.rackClaim ≠ 0 → Effects watch (.handover lane seq true d) s fun u =>
    BecameActive (if heardWithin s 2000 s.ward.canaryAt then 5 else 4) s u ∧ WlSent 4 (toLe 4 s.ward.rackCycle.toNat) u ∧ u.ward.canaryAt = none ∧
    (u.ward.canary = true ↔ heardWithin s 2000 s.ward.canaryAt = false ∧ ∀ p, s.ward.peer = some p → bit (byteAt p 9) 3 = false)) ∧
  (∀ s lane seq d, LinkTakes s lane seq 4 d → (s.ward.active = true ∨ s.ward.rackClaim = 0) → Effects watch (.handover lane seq true d) s fun u => u = linkTook lane seq s) ∧
  (∀ s lane seq d c, LinkTakes s lane seq 4 d → s.ward.handover = some c → Effects watch (.handoverAck lane seq true d) s fun u =>
    BecameStandby 4 s u ∧ u.ward.canaryAt = (if c then some s.now else none) ∧ Only [.adit, .bus, .ward] s u) ∧
  (∀ s lane seq d, LinkTakes s lane seq 4 d → s.ward.handover = none → Effects watch (.handoverAck lane seq true d) s fun u => u = linkTook lane seq s) ∧
  (∀ s c, s.stew = true → s.ward.handover = some c → Effects watch .handoverTimeout s fun u =>
    u.ward = { s.ward with handover := none } ∧ (c = true → Recorded 0x0422 [(20, 1, 3)] u) ∧ (c = false → u.adit = s.adit) ∧ Only [.adit, .ward] s u) ∧
  (∀ s, s.stew = true → s.ward.handover = none → Effects watch .handoverTimeout s fun u => u = s) ∧
  (∀ s, s.stew = true → s.ward.active = true → s.ward.canary = true → (∀ e ∈ judgedStages s, (s.stage e.1 e.2).claim = claimOf s e.1) → Effects watch .canaryTestExpiry s fun u =>
    u.ward = { s.ward with canary := false } ∧ Recorded 0x0422 [(20, 1, 1), (24, 8, 0)] u ∧ Only [.adit, .ward] s u) ∧
  (∀ s, s.stew = true → s.ward.active = true → s.ward.rackRole = true → s.ward.canary = true → (∃ e ∈ judgedStages s, (s.stage e.1 e.2).claim ≠ claimOf s e.1) →
    Effects watch .canaryTestExpiry s fun u => u.ward.canary = false ∧ u.ward.handover = some false ∧ u.ward.active = true ∧ WlSent 3 (toLe 4 s.ward.rackCycle.toNat) u ∧
      Recorded 0x0422 [(20, 1, 3)] u ∧ Only [.adit, .ward] s u) ∧
  (∀ s, s.stew = true → (s.ward.active = false ∨ s.ward.canary = false) → Effects watch .canaryTestExpiry s fun u => u = s)

/-- R660, R664, R665, R667 to R671, R673 to R677, R681: the cycles of a warden: allocation within what there is, setpoints, leak responses.
The model's own choices in it: log entries 1, 4, 5, 9, 51, 53. -/
def Obligations.WardenCycles : Prop :=
  (∀ s, s.stew = true → s.ward.rackRole = true → s.ward.active = false → Effects watch .rackCycle s fun u =>
    u.ward = { s.ward with rackCycle := s.ward.rackCycle + 1, wlOut := u.ward.wlOut, wlNext := (s.ward.wlNext + 1) % 65536 } ∧
    WlSent 1 (statePayload u) u ∧ Only [.ward] s u) ∧
  (∀ s, s.stew = true → s.ward.rackRole = true → s.ward.active = true → Effects watch .rackCycle s fun u =>
    u.ward.rackCycle = s.ward.rackCycle + 1 ∧ u.ward.active = true ∧ u.ward.pol = s.ward.pol ∧ u.ward.a = s.ward.a ∧ (slotSum s ≤ s.ward.a → slotSum u ≤ u.ward.a) ∧
    ((∃ i, i < 32 ∧ (s.slotBook i).lowered = true) → ∀ i, i < 32 → (u.slotBook i).cap ≤ (s.slotBook i).cap) ∧
    (∀ i, i < 32 → slotHeard s i = false → s.ward.pol.rackResp = .none → (u.slotBook i).cap = (s.slotBook i).cap) ∧
    (s.ward.pol.rackResp ≠ .none → ∀ i, i < 32 → (u.slotBook i).cap = 0) ∧ 0 ≤ u.ward.v ∧
    (∀ e ∈ (stageMap s 0).zipIdx, e.1.commanded = true → ∀ v, (outAt s 0 e.2).sp = some v → (outAt s 0 e.2).slewing = true → (ownOutput s.ward e.1).2 = false →
      ∃ n, (outAt u 0 e.2).sp = some n ∧ n ≤ v + s.ward.pol.slew ∧ v ≤ n + s.ward.pol.slew) ∧
    (∀ e ∈ (stageMap s 0).zipIdx, e.1.commanded = true → (ownOutput s.ward e.1).2 = true → outAt u 0 e.2 = { sp := some 0, slewing := false }) ∧
    ((∃ e ∈ judgedStages s, notMineAt s e.1 e.2 = false) → u.ward.notMine = 0 ∧ u.ward.notInForce = false) ∧ WlSent 1 (statePayload u) u ∧ Only [.adit, .ward] s u) ∧
  (∀ s, s.stew = true → s.ward.rackRole = false → Effects watch .rackCycle s fun u => u = s) ∧
  (∀ s, s.stew = true → activeIn s 1 = true → Effects watch .rowCycle s fun u =>
    u.ward.rowCycle = s.ward.rowCycle + 1 ∧ u.ward.pol = s.ward.pol ∧ (rackSum s ≤ s.ward.pol.budget - s.ward.pol.rMin → rackSum u ≤ s.ward.pol.budget - s.ward.pol.rMin) ∧
    ((∃ r, r < 16 ∧ (s.rackBook r).lowered = true) → ∀ r, r < 16 → (u.rackBook r).cap ≤ (s.rackBook r).cap) ∧
    (∀ r, r < 16 → rackHeard s r = false → s.ward.pol.rowResp = .none → (u.rackBook r).cap = (s.rackBook r).cap) ∧
    (s.ward.pol.rowResp ≠ .none → ∀ r, r < 16 → (u.rackBook r).cap = 0) ∧ 0 ≤ u.ward.u ∧ 0 ≤ u.ward.f ∧
    Recorded 0x0425 [(20, 4, s.ward.pol.budget), (24, 4, rackSum u)] u ∧ Only [.adit, .ward] s u) ∧
  (∀ s, s.stew = true → activeIn s 1 = false → Effects watch .rowCycle s fun u => u = s) ∧
  (∀ s, s.stew = true → Effects watch .rowAllocSilence s fun u => u = if s.ward.rackRole then s.modWard fun w => { w with aHeld := true } else s) ∧
  (∀ s, s.stew = true → s.ward.active = true → s.ward.pol.rackResp = .caps → Effects watch (.leakResponseDelay 0) s fun u =>
    u.ward.pol = { s.ward.pol with rackResp := .done } ∧ Recorded 0x0424 [(20, 1, 3), (21, 1, s.ward.pol.rackBy.1), (22, 1, s.ward.pol.rackBy.2)] u ∧ WardBlock 4 u ∧
    (∀ e ∈ (stageMap s 0).zipIdx, (e.1.fn = 1 ∨ e.1.fn = 2) → outAt u 0 e.2 = { sp := some 0, slewing := false })) ∧
  (∀ s, s.stew = true → activeIn s 1 = true → s.ward.pol.rowResp = .caps → Effects watch (.leakResponseDelay 1) s fun u =>
    u.ward.pol = { s.ward.pol with rowResp := .done } ∧ Recorded 0x0424 [(20, 1, if s.ward.pol.rowTarget = 16 then 4 else 5), (21, 1, s.ward.pol.rowBy.1), (22, 1, s.ward.pol.rowBy.2)] u ∧ WardBlock 4 u ∧
    (∀ e ∈ (stageMap s 1).zipIdx, (e.1.fn = 16 ∨ e.1.fn = 17) → e.1.fn = s.ward.pol.rowTarget → outAt u 1 e.2 = { sp := some 0, slewing := false })) ∧
  (∀ s b, s.stew = true → (activeIn s b = false ∨ (if b = 0 then s.ward.pol.rackResp else s.ward.pol.rowResp) ≠ .caps) → Effects watch (.leakResponseDelay b) s fun u => u = s) ∧
  (∀ s, s.stew = true → s.ward.active = true → s.ward.rackRole = true → linkUpW s = true → Effects watch .mirrorTimer s fun u =>
    u.ward.mirrorDue = [] ∧ (∀ b ∈ mirrorBlocks s, WlSent 2 ([BitVec.ofNat 8 b, 0, 1, 0] ++ blockBytes s.ward.pol b) u) ∧ u.ward.pol = s.ward.pol ∧ Only [.ward] s u) ∧
  (∀ s, s.stew = true → s.ward.active = true → linkUpW s = false → Effects watch .mirrorTimer s fun u => u.ward = { s.ward with mirrorDue := [] } ∧ Only [.bus, .ward] s u) ∧
  (∀ s, s.stew = true → s.ward.active = false → Effects watch .mirrorTimer s fun u => u = s) ∧
  (∀ s, s.stew = true → s.adit.a6.length ≤ 200 → Effects watch .wardStatusTimer s fun u =>
    Recorded 0x0420 [(20, 1, stateByte8 s), (21, 1, stateByte9 s), (22, 2, s.ward.rackClaim), (24, 2, s.ward.rowClaim), (38, 6, s.ward.roleAt.toNat)] u ∧
    (s.ward.active = true → Recorded 0x0428 [(20, 2, s.ward.a), (24, 1, (heardSlots s).length)] u) ∧ Only [.adit] s u)

/-- R647, R648, R650, R651, R678: the warden link and FABRIC_ALERT.
The model's own choices in it: log entries 1, 4, 9, 52, 54. -/
def Obligations.WardenLink : Prop :=
  (∀ x ∈ wlCmds, ∀ s lane seq good d, s.stew = true → (s.ward.rackRole = false ∨ 2 ≤ lane) → Effects watch (x.2 lane seq good d) s fun u => u = s) ∧
  (∀ x ∈ wlCmds, ∀ s lane seq good d, s.stew = true → s.ward.rackRole = true → lane < 2 → (good = false ∨ x.1 < d.length) → Effects watch (x.2 lane seq good d) s fun u =>
    u = s.modWard fun w => { w with wlDropped := w.wlDropped + 1 }) ∧
  (∀ x ∈ wlCmds, ∀ s lane seq d, s.stew = true → s.ward.rackRole = true → lane < 2 → d.length ≤ x.1 → (s.ward.lanes.getD lane {}).up = true → s.ward.wlSeq = some seq →
    Effects watch (x.2 lane seq true d) s fun u => u = linkTook lane seq s) ∧
  (∀ x ∈ wlCmds, ∀ s lane seq d, s.stew = true → s.ward.rackRole = true → lane < 2 → d.length ≤ x.1 → (s.ward.lanes.getD lane {}).up = false → (s.ward.lanes.getD lane {}).good < 2 →
    Effects watch (x.2 lane seq true d) s fun u => u = s.modWard fun w => { w with lanes := lmod w.lanes lane (fun l => { l with good := l.good + 1 }) }) ∧
  (∀ x ∈ wlCmds, ∀ s lane seq d, s.stew = true → s.ward.rackRole = true → lane < 2 → s.ward.lanes.length = 2 → d.length ≤ x.1 → (s.ward.lanes.getD lane {}).up = false →
    2 ≤ (s.ward.lanes.getD lane {}).good → Effects watch (x.2 lane seq true d) s fun u => (u.ward.lanes.getD lane {}).up = true ∧ u.ward.wlSeq = some seq ∧ Recorded 0x0423 [(20 + lane, 1, 1)] u) ∧
  (∀ s lane seq, LinkTakes s lane seq 0 [] → Effects watch (.keepalive lane seq true []) s fun u => u = linkTook lane seq s) ∧
  (∀ s lane seq d, LinkTakes s lane seq 512 d → bit (byteAt d 8) 0 = false → Effects watch (.wlState lane seq true d) s fun u =>
    u = (linkTook lane seq s).modWard fun w => { w with peer := some d }) ∧
  (∀ s lane seq d, LinkTakes s lane seq 512 d → bit (byteAt d 8) 0 = true → Effects watch (.wlState lane seq true d) s fun u =>
    u.ward.peer = some d ∧ u.ward.peerHeard = true ∧ u.ward.activeAt = some s.now ∧ u.ward.copy = (if s.ward.active then s.ward.copy else some d) ∧
    u.ward.copyAt = (if s.ward.active then s.ward.copyAt else some s.now) ∧ u.ward.pol = s.ward.pol ∧ u.ward.active = s.ward.active ∧ Only [.ward] s u) ∧
  (∀ s lane seq d, LinkTakes s lane seq 1024 d → s.ward.active = false → Effects watch (.wlMirror lane seq true d) s fun u => MirrorTaken d s u ∧ Only [.ward, .mgmt] s u) ∧
  (∀ s lane seq d, LinkTakes s lane seq 1024 d → s.ward.active = true → Effects watch (.wlMirror lane seq true d) s fun u => u = linkTook lane seq s) ∧
  (∀ s lane, s.stew = true → (s.ward.lanes.getD lane {}).up = true → Effects watch (.wlLaneDown lane) s fun u =>
    u.ward = { s.ward with lanes := lmod s.ward.lanes lane (fun _ => {}) } ∧ Recorded 0x0423 [(24, 4, min s.ward.wlDropped 0xFFFFFFFF)] u ∧ Only [.adit, .ward] s u) ∧
  (∀ s lane, s.stew = true → (s.ward.lanes.getD lane {}).up = false → Effects watch (.wlLaneDown lane) s fun u => u = s) ∧
  (∀ s k m, LockHeard 0x50 k m s → Effects watch .fabricAlert s fun u =>
    u.adit.a5in = s.adit.a5in.drop 1 ∧ Recorded 0x0426 [(20, 1, byteAt m 24), (21, 1, k), (24, 8, fld m 16 8), (32, 1, byteAt m 25), (33, 1, byteAt m 26)] u ∧ Only [.adit] s u)

/-- R638, R645, R657, R662, R665, R668, R669, R676, R677, R679, R681: the commands of the warden class.
The model's own choices in it: log entries 1, 4, 9, 51, 58. -/
def Obligations.WardenPolicy : Prop :=
  (∀ x ∈ activeCmds, ∀ s tag d, Asked x.1 s tag d → accepts s (x.2 d) = false → Effects watch x.1 s fun u => Acked tag 0x33 0 s u ∧ Only [.adit, .mgmt] s u) ∧
  (∀ s tag d, Asked .commission s tag d → (capable s = false ∨ s.ward.active = true ∨ bit (byteAt d 25) 0 = true ∧ rowCannotJoin s = true) → Effects watch .commission s fun u =>
    Acked tag 0x33 0 s u ∧ Only [.adit, .mgmt] s u) ∧
  (∀ s tag d, Asked .commission s tag d → capable s = true → s.ward.active = false → (bit (byteAt d 25) 0 = false ∨ rowCannotJoin s = false) → Effects watch .commission s fun u =>
    u.ward = { s.ward with rackRole := true, rowRole := bit (byteAt d 25) 0, side := byteAt d 24, rackClaim := fld d 26 2, rowClaim := fld d 28 2 } ∧
    (s.bus.row.join = .off → s.ao.strapsOk = true → u.bus.row.join = .listening) ∧ ((s.bus.row.join ≠ .off ∨ s.ao.strapsOk = false) → u.bus = s.bus) ∧ WardStored u ∧
    Acked tag 0 0 s u ∧ Only [.adit, .bus, .ward, .mgmt] s u) ∧
  (∀ s tag d, Asked .decommission s tag d → (capable s = false ∨ s.ward.active = true) → Effects watch .decommission s fun u => Acked tag 0x33 0 s u ∧ Only [.adit, .mgmt] s u) ∧
  (∀ s tag d, Asked .decommission s tag d → capable s = true → s.ward.active = false → Effects watch .decommission s fun u =>
    u.ward = { s.ward with rackRole := false, rowRole := false, rackClaim := 0, rowClaim := 0 } ∧ u.bus = { s.bus with row := {} } ∧ WardStored u ∧ Acked tag 0 0 s u ∧
    Only [.adit, .bus, .ward, .mgmt] s u) ∧
  (∀ s tag d row, Asked .setStageMap s tag d → row = byteAt d 24 → accepts s row = true → Effects watch .setStageMap s fun u =>
    (stageMap u row).length = byteAt d 27 ∧
    (∀ i, i < byteAt d 27 → (stageMap u row).getD i noEntry = if byteAt d 25 ≤ i ∧ i < byteAt d 25 + byteAt d 26 then entryAt d (28 + 8 * (i - byteAt d 25)) else (stageMap s row).getD i noEntry) ∧
    stageMap u (1 - row) = stageMap s (1 - row) ∧ (row = 0 → u.ward.pol.rackVer = (s.ward.pol.rackVer + 1) % 65536 ∧ u.ward.pol.rowVer = s.ward.pol.rowVer) ∧
    (row = 1 → u.ward.pol.rowVer = (s.ward.pol.rowVer + 1) % 65536 ∧ u.ward.pol.rackVer = s.ward.pol.rackVer) ∧ WardBlock (1 + row) u ∧ Acked tag 0 0 s u ∧ Only [.adit, .ward, .mgmt] s u) ∧
  (∀ s tag d, Asked .setBudget s tag d → accepts s 1 = true → Effects watch .setBudget s fun u =>
    u.ward.pol = { s.ward.pol with budget := fld d 24 4, rMin := fld d 28 4 } ∧ WardBlock 3 u ∧ Acked tag 0 0 s u ∧ Only [.adit, .ward, .mgmt] s u) ∧
  (∀ s tag d, Asked .setExchange s tag d → accepts s 1 = true → Effects watch .setExchange s fun u =>
    u.ward.pol = { s.ward.pol with exchange := byteAt d 24, eco := fld d 25 2, floor := fld d 27 2, supply := fld d 29 2 } ∧ WardBlock 3 u ∧ Acked tag 0 0 s u ∧
    Only [.adit, .ward, .mgmt] s u) ∧
  (∀ s tag d, Asked .setSlew s tag d → accepts s 0 = true → Effects watch .setSlew s fun u =>
    u.ward.pol = { s.ward.pol with slew := fld d 24 2 } ∧ WardBlock 5 u ∧ Acked tag 0 0 s u ∧ Only [.adit, .ward, .mgmt] s u) ∧
  (∀ s tag d, Asked .setLeak s tag d → accepts s 0 = true → Effects watch .setLeak s fun u =>
    u.ward.pol = { s.ward.pol with rackAction := byteAt d 24, rackDelay := byteAt d 25, rowAction := byteAt d 26, rowDelay := byteAt d 27 } ∧ WardBlock 4 u ∧ Acked tag 0 0 s u ∧
    Only [.adit, .ward, .mgmt] s u) ∧
  (∀ s tag d, Asked .slotValve s tag d → accepts s 0 = true → byteAt d 25 = 0 → Effects watch .slotValve s fun u =>
    byteAt d 24 ∈ u.ward.pol.valveShut ∧ (∀ j, j ≠ byteAt d 24 → (j ∈ u.ward.pol.valveShut ↔ j ∈ s.ward.pol.valveShut)) ∧
    { u.ward.pol with valveShut := s.ward.pol.valveShut } = s.ward.pol ∧ WardBlock 5 u ∧ Acked tag 0 0 s u ∧ Only [.adit, .ward, .mgmt] s u) ∧
  (∀ s tag d, Asked .slotValve s tag d → accepts s 0 = true → byteAt d 25 = 1 → heardWithin s 2000 (s.slotBook (byteAt d 24)).leakAt = true → Effects watch .slotValve s fun u =>
    Acked tag 0x33 0 s u ∧ Only [.adit, .mgmt] s u) ∧
  (∀ s tag d, Asked .slotValve s tag d → accepts s 0 = true → byteAt d 25 = 1 → heardWithin s 2000 (s.slotBook (byteAt d 24)).leakAt = false → Effects watch .slotValve s fun u =>
    byteAt d 24 ∉ u.ward.pol.valveShut ∧ byteAt d 24 ∉ u.ward.pol.leakShut ∧ (byteAt d 24 ∈ s.ward.pol.leakShut → Recorded 0x0424 [(20, 1, 7), (21, 1, byteAt d 24)] u) ∧
    WardBlock 4 u ∧ WardBlock 5 u ∧ Acked tag 0 0 s u ∧ Only [.adit, .ward, .mgmt] s u) ∧
  (∀ s tag d, Asked .slotRelease s tag d → accepts s 0 = true → heardWithin s 10000 (s.slotBook (byteAt d 24)).at_ = true → Effects watch .slotRelease s fun u =>
    Acked tag 0x33 0 s u ∧ Only [.adit, .mgmt] s u) ∧
  (∀ s tag d, Asked .slotRelease s tag d → accepts s 0 = true → heardWithin s 10000 (s.slotBook (byteAt d 24)).at_ = false → Effects watch .slotRelease s fun u =>
    u.slotBook (byteAt d 24) = { s.slotBook (byteAt d 24) with cap := 0, lowered := false } ∧ (∀ j, j ≠ byteAt d 24 → u.slotBook j = s.slotBook j) ∧ byteAt d 24 ∈ u.ward.pol.released ∧
    WardBlock 5 u ∧ Acked tag 0 0 s u ∧ Only [.adit, .ward, .mgmt] s u) ∧
  (∀ s tag d, Asked .canarySwap s tag d → canaryBarred s = true → Effects watch .canarySwap s fun u => Recorded 0x0422 [(20, 1, 2)] u ∧ Acked tag 0x33 0 s u ∧ Only [.adit, .mgmt] s u) ∧
  (∀ s tag d, Asked .canarySwap s tag d → canaryBarred s = false → s.ward.rackRole = true → Effects watch .canarySwap s fun u =>
    u.ward.handover = some true ∧ u.ward.active = true ∧ WlSent 3 (toLe 4 s.ward.rackCycle.toNat) u ∧ Acked tag 0 0 s u ∧ Only [.adit, .ward, .mgmt] s u) ∧
  (∀ s tag d b, Asked .leakReset s tag d → b = byteAt d 24 → accepts s b = true → alarmStands s b = true → Effects watch .leakReset s fun u => Acked tag 0x33 0 s u ∧ Only [.adit, .mgmt] s u) ∧
  (∀ s tag d b, Asked .leakReset s tag d → b = byteAt d 24 → accepts s b = true → alarmStands s b = false → (if b = 0 then s.ward.pol.rackResp else s.ward.pol.rowResp) = .none →
    Effects watch .leakReset s fun u => Acked tag 0 0 s u ∧ Only [.adit, .mgmt] s u) ∧
  (∀ s tag d b, Asked .leakReset s tag d → b = byteAt d 24 → accepts s b = true → alarmStands s b = false → (if b = 0 then s.ward.pol.rackResp else s.ward.pol.rowResp) ≠ .none →
    Effects watch .leakReset s fun u => (if b = 0 then u.ward.pol.rackResp else u.ward.pol.rowResp) = .none ∧ Recorded 0x0424 [(20, 1, 6)] u ∧ WardBlock 4 u ∧ Acked tag 0 0 s u ∧
      Only [.adit, .ward, .mgmt] s u) ∧
  (∀ s tag d, Asked .wardNow s tag d → Effects watch .wardNow s fun u =>
    Recorded 0x0420 [(20, 1, stateByte8 s), (21, 1, stateByte9 s), (22, 2, s.ward.rackClaim), (24, 2, s.ward.rowClaim)] u ∧ Acked tag 0 0 s u ∧ Only [.adit, .mgmt] s u)
/-! ### Management, store and life cycle -/

/-- R686 to R694, R696, R719: packets, and the requests that are answered and change nothing.
The model's own choices in it: log entries 1, 4, 9, 31, 70, 71. -/
def Obligations.EndpointAnswers : Prop :=
  (∀ x ∈ reqCmds, ∀ s, s.stew = true → s.mgmt.reqs.find? (fun r => x.2 r.body) = none → Effects watch x.1 s fun u => u = s) ∧
  (∀ x ∈ reqCmds, ∀ s r, Requested x.1 s r → s.mgmt.erasing = true → x.1 ≠ .getNonce → Effects watch x.1 s fun u =>
    RepliedOnly r (if mType r.body = 0 then ctlReply r.body 4 [] else if mType r.body = 1 then pldmReply r.body 4 [] else venReply r.body 5 []) s u) ∧
  (∀ s r, Open .getEndpointId s r → Effects watch2 .getEndpointId s fun u => RepliedOnly r (ctlReply r.body 0 (toLe 1 (eidOf s.mgmt r.binding) ++ [0, 0])) s u) ∧
  (∀ s r, Open .getEndpointUuid s r → Effects watch2 .getEndpointUuid s fun u => RepliedOnly r (ctlReply r.body 0 (toLe 16 (Config.uuid s.mgmt.fuses.dsn).toNat)) s u) ∧
  (∀ s r, Open .getMctpVersionSupport s r → Effects watch2 .getMctpVersionSupport s fun u => RepliedOnly r (ctlReply r.body 0 (Config.mctpVersions (byteAt r.body 3))) s u) ∧
  (∀ s r, Open .getMessageTypeSupport s r → Effects watch2 .getMessageTypeSupport s fun u => RepliedOnly r (ctlReply r.body 0 [2, 1, 0x7E]) s u) ∧
  (∀ s r, Open .unsupportedMctpControl s r → Effects watch2 .unsupportedMctpControl s fun u => RepliedOnly r (ctlReply r.body 5 []) s u) ∧
  (∀ s r, Open .getTid s r → Effects watch2 .getTid s fun u => RepliedOnly r (pldmReply r.body 0 (toLe 1 s.mgmt.tid)) s u) ∧
  (∀ s r, Open .getPldmVersion s r → Effects watch2 .getPldmVersion s fun u =>
    RepliedOnly r (if byteAt r.body 9 = 0 ∨ byteAt r.body 9 = 2 then pldmReply r.body 0 (toLe 4 0 ++ toLe 1 5 ++ Config.pldmVersions (byteAt r.body 9)) else pldmReply r.body 0x83 []) s u) ∧
  (∀ s r, Open .getPldmTypes s r → Effects watch2 .getPldmTypes s fun u => RepliedOnly r (pldmReply r.body 0 [5, 0, 0, 0, 0, 0, 0, 0]) s u) ∧
  (∀ s r, Open .getPldmCommands s r → Effects watch2 .getPldmCommands s fun u =>
    RepliedOnly r (if byteAt r.body 4 = 0 ∨ byteAt r.body 4 = 2 then pldmReply r.body 0 (bitmap 32 (pldmCmds (byteAt r.body 4))) else pldmReply r.body 0x83 []) s u) ∧
  (∀ s r, Open .unsupportedPldm s r → Effects watch2 .unsupportedPldm s fun u =>
    RepliedOnly r (pldmReply r.body (if byteAt r.body 2 % 64 = 0 ∨ byteAt r.body 2 % 64 = 2 then 5 else 0x20) []) s u) ∧
  (∀ s r, Open .getPdrRepositoryInfo s r → Effects watch2 .getPdrRepositoryInfo s fun u => RepliedOnly r (pldmReply r.body 0 (toLe 1 0 ++ toLe 26 0 ++ toLe 4 (pdrCount s))) s u) ∧
  (∀ s r h, Open .getPdr s r → h = max 1 (fld r.body 4 4) → h ≤ pdrCount s → Effects watch2 .getPdr s fun u =>
    RepliedOnly r (pldmReply r.body 0 (toLe 4 (if h = pdrCount s then 0 else h + 1) ++ toLe 4 0 ++ toLe 1 5 ++ Config.pdrBytes h ++ (if h = pdrCount s then oemIdentity s else []))) s u) ∧
  (∀ s r, Open .getPdr s r → pdrCount s < max 1 (fld r.body 4 4) → Effects watch2 .getPdr s fun u => RepliedOnly r (pldmReply r.body 0x82 []) s u) ∧
  (∀ s r id v, Open .getSensorReading s r → id = fld r.body 4 2 → 1 ≤ id → id ≤ 24 → numReading s id = some v → Effects watch2 .getSensorReading s fun u =>
    RepliedOnly r (pldmReply r.body 0 (toLe 1 5 ++ toLe 1 0 ++ toLe 1 0 ++ toLe 1 (pldmState (numState s id)) ++ toLe 1 (pldmState (numState s id)) ++ toLe 1 (pldmState (numState s id)) ++
      toLe 4 (twos 32 v))) s u) ∧
  (∀ s r id, Open .getSensorReading s r → id = fld r.body 4 2 → 1 ≤ id → id ≤ 24 → numReading s id = none → Effects watch2 .getSensorReading s fun u =>
    RepliedOnly r (pldmReply r.body 0 (toLe 1 5 ++ toLe 1 2 ++ toLe 4 0 ++ toLe 4 0)) s u) ∧
  (∀ s r, Open .getSensorReading s r → (fld r.body 4 2 = 0 ∨ 24 < fld r.body 4 2) → Effects watch2 .getSensorReading s fun u => RepliedOnly r (pldmReply r.body 0x80 []) s u) ∧
  (∀ s r id v, Open .getStateSensorReadings s r → id = fld r.body 4 2 → v = stateSensor s id → Effects watch2 .getStateSensorReadings s fun u =>
    RepliedOnly r (if 101 ≤ id ∧ id ≤ 113 then pldmReply r.body 0 (toLe 1 1 ++ toLe 1 0 ++ toLe 1 v ++ toLe 1 v ++ toLe 1 v) else pldmReply r.body 0x80 []) s u) ∧
  (∀ s r id v, Open .getNumericEffecterValue s r → id = fld r.body 4 2 → v = numEffecter s id → Effects watch2 .getNumericEffecterValue s fun u =>
    RepliedOnly r (if 201 ≤ id ∧ id ≤ 205 then pldmReply r.body 0 (toLe 1 4 ++ toLe 1 1 ++ toLe 4 v ++ toLe 4 v) else pldmReply r.body 0x80 []) s u) ∧
  (∀ s r id v, Open .getStateEffecterStates s r → id = fld r.body 4 2 → v = stateEffecter s id → Effects watch2 .getStateEffecterStates s fun u =>
    RepliedOnly r (if id ∈ stateEffecters s then pldmReply r.body 0 (toLe 1 1 ++ toLe 1 1 ++ toLe 1 v ++ toLe 1 v) else pldmReply r.body 0x80 []) s u)

/-- R686, R687 to R690, R695 to R699, R702, R704: messages that arrive, the requests that set something, and events.
The model's own choices in it: log entries 1, 4, 9, 70, 71, 74. -/
def Obligations.EndpointSettings : Prop :=
  (∀ s p m, WholeMessage p m s → TakenAsRequest m s → s.mgmt.reqs.length < 4 → Effects watch2 (.mctpSmbusPacket p) s fun u =>
    u.mgmt.reqs = s.mgmt.reqs ++ [{ binding := .smbus, body := m }] ∧ u.mgmt.asmSmbus = none ∧ u.mgmt.out = s.mgmt.out ∧ HostSeen s u ∧ Only [.adit, .mgmt] s u) ∧
  (∀ s p m, WholeMessage p m s → TakenAsRequest m s → 4 ≤ s.mgmt.reqs.length → mType m ≠ 0x7E → Effects watch2 (.mctpSmbusPacket p) s fun u =>
    u.mgmt.reqs = s.mgmt.reqs ∧ u.mgmt.out = s.mgmt.out ++ [{ binding := .smbus, body := if mType m = 0 then ctlReply m 4 [] else pldmReply m 4 [] }] ∧ HostSeen s u ∧
    Only [.adit, .mgmt] s u) ∧
  (∀ s p m, WholeMessage p m s → mSupported m = false → Effects watch2 (.mctpSmbusPacket p) s fun u =>
    u.mgmt.reqs = s.mgmt.reqs ∧ u.mgmt.out = s.mgmt.out ∧ u.mgmt.typeDrops = s.mgmt.typeDrops + 1 ∧ HostSeen s u ∧ Only [.adit, .mgmt] s u) ∧
  (∀ s p, s.stew = true → byteAt p 1 ≠ 0 → byteAt p 1 ≠ s.mgmt.eidSmbus → Effects watch2 (.mctpSmbusPacket p) s fun u => u = s) ∧
  (∀ s p, s.stew = true → (byteAt p 1 = 0 ∨ byteAt p 1 = s.mgmt.eidSmbus) → bit (byteAt p 3) 7 = true → bit (byteAt p 3) 6 = false → (p.drop 4).length ≤ 1024 →
    Effects watch2 (.mctpSmbusPacket p) s fun u => u = s.modMgmt fun m => { m with asmSmbus := some ((bits (byteAt p 3) 5 4 + 1) % 4, p.drop 4) }) ∧
  (∀ s p n bs, s.stew = true → (byteAt p 1 = 0 ∨ byteAt p 1 = s.mgmt.eidSmbus) → bit (byteAt p 3) 7 = false → s.mgmt.asmSmbus = some (n, bs) → n ≠ bits (byteAt p 3) 5 4 →
    Effects watch2 (.mctpSmbusPacket p) s fun u => u = s.modMgmt fun m => { m with asmSmbus := none }) ∧
  (∀ s p, s.ao.aux = true → s.sup.steward = false → Effects watch (.mctpSmbusPacket p) s fun u => u = s.modMgmt fun m => { m with naks := m.naks + 1 }) ∧
  (∀ s r e, Open .setEndpointId s r → e = byteAt r.body 4 → Effects watch2 .setEndpointId s fun u =>
    (byteAt r.body 3 % 4 ≤ 1 → 8 ≤ e → e ≠ 255 → eidOf u.mgmt r.binding = e ∧ Replied r (ctlReply r.body 0 (toLe 1 0 ++ toLe 1 e ++ toLe 1 0)) s u ∧ Only [.mgmt] s u) ∧
    ((1 < byteAt r.body 3 % 4 ∨ e < 8 ∨ e = 255) → RepliedOnly r (ctlReply r.body 2 []) s u)) ∧
  (∀ s r t, Open .setTid s r → t = byteAt r.body 4 → Effects watch2 .setTid s fun u =>
    (t ≠ 0 → t ≠ 255 → u.mgmt.tid = t ∧ Replied r (pldmReply r.body 0 []) s u ∧ Only [.mgmt] s u) ∧ ((t = 0 ∨ t = 255) → RepliedOnly r (pldmReply r.body 2 []) s u)) ∧
  (∀ s r, Open .setEventReceiver s r → Effects watch2 .setEventReceiver s fun u =>
    (byteAt r.body 4 = 0 → u.mgmt.receiver = none ∧ u.mgmt.events = [] ∧ u.mgmt.alertLow = false ∧ Replied r (pldmReply r.body 0 []) s u) ∧
    (byteAt r.body 4 = 1 → byteAt r.body 5 = 0 → u.mgmt.receiver = some (r.binding, byteAt r.body 6) ∧ u.mgmt.events = s.mgmt.events ∧ Replied r (pldmReply r.body 0 []) s u) ∧
    ((1 < byteAt r.body 4 ∨ byteAt r.body 4 = 1 ∧ byteAt r.body 5 ≠ 0) → RepliedOnly r (pldmReply r.body 2 []) s u) ∧ Only [.mgmt] s u) ∧
  (∀ s r id v, Open .setNumericEffecterValue s r → id = fld r.body 4 2 → v = fld r.body 7 (if byteAt r.body 6 < 2 then 1 else if byteAt r.body 6 < 4 then 2 else 4) →
    ((id < 201 ∨ 205 < id) → Effects watch2 .setNumericEffecterValue s fun u => RepliedOnly r (pldmReply r.body 0x80 []) s u) ∧
    (201 ≤ id → id ≤ 205 → outOfUse s = true → Effects watch2 .setNumericEffecterValue s fun u => RepliedOnly r (pldmReply r.body 4 []) s u) ∧
    (outOfUse s = false → (id = 202 ∧ (v < 500 ∨ 6000 < v) ∨ id = 203 ∧ (v < 120 ∨ s.pump.qMax < v) ∨ id = 204 ∧ (v < s.pump.qMin ∨ 350 < v) ∨ id = 205 ∧ (v < 5 ∨ 3600 < v)) →
      Effects watch2 .setNumericEffecterValue s fun u => RepliedOnly r (pldmReply r.body 2 []) s u) ∧
    (outOfUse s = false → id = 201 → Effects watch2 .setNumericEffecterValue s fun u =>
      u.power = { s.power with cSet := max 350 (min v 1400) } ∧ u.mgmt.powerDirty = true ∧ Replied r (pldmReply r.body 0 []) s u ∧ Only [.mgmt, .power] s u) ∧
    (outOfUse s = false → id = 202 → 500 ≤ v → v ≤ 6000 → Effects watch2 .setNumericEffecterValue s fun u =>
      u.pump.setSpeed = v ∧ u.pump.capture = none ∧ u.mgmt.coolDirty = true ∧ Replied r (pldmReply r.body 0 []) s u ∧ Only [.adit, .mgmt, .pump] s u) ∧
    (outOfUse s = false → id = 203 → 120 ≤ v → v ≤ s.pump.qMax → Effects watch2 .setNumericEffecterValue s fun u =>
      u.pump = { s.pump with qMin := v } ∧ u.mgmt.coolDirty = true ∧ Replied r (pldmReply r.body 0 []) s u ∧ Only [.mgmt, .pump] s u) ∧
    (outOfUse s = false → id = 204 → s.pump.qMin ≤ v → v ≤ 350 → Effects watch2 .setNumericEffecterValue s fun u =>
      u.pump = { s.pump with qMax := v } ∧ u.mgmt.coolDirty = true ∧ Replied r (pldmReply r.body 0 []) s u ∧ Only [.mgmt, .pump] s u) ∧
    (outOfUse s = false → id = 205 → 5 ≤ v → v ≤ 3600 → Effects watch2 .setNumericEffecterValue s fun u =>
      u.mgmt.silentPeriod = v ∧ u.mgmt.powerDirty = true ∧ Replied r (pldmReply r.body 0 []) s u ∧ Only [.mgmt] s u)) ∧
  (∀ s r id v, Open .setStateEffecterStates s r → id = fld r.body 4 2 → v = byteAt r.body 8 → byteAt r.body 6 = 1 → byteAt r.body 7 ≠ 0 →
    (id ∉ stateEffecters s → Effects watch2 .setStateEffecterStates s fun u => RepliedOnly r (pldmReply r.body 0x80 []) s u) ∧
    (id ∈ stateEffecters s → outOfUse s = true → Effects watch2 .setStateEffecterStates s fun u => RepliedOnly r (pldmReply r.body 4 []) s u) ∧
    (id ∈ stateEffecters s → outOfUse s = false → (v < 1 ∨ (if id = 304 then 3 else if id = 306 then 5 else 2) < v) → Effects watch2 .setStateEffecterStates s fun u =>
      RepliedOnly r (pldmReply r.body 2 []) s u) ∧
    (outOfUse s = false → id = 301 → 1 ≤ v → v ≤ 2 → Effects watch2 .setStateEffecterStates s fun u =>
      u.power = { s.power with margin := decide (v = 2) } ∧ u.mgmt.powerDirty = true ∧ Replied r (pldmReply r.body 0 []) s u ∧ Only [.mgmt, .power] s u) ∧
    (outOfUse s = false → id = 302 → 1 ≤ v → v ≤ 2 → s.pump.st ≠ .kick → s.pump.st ≠ .stalled → Effects watch2 .setStateEffecterStates s fun u =>
      u.pump.speedMode = decide (v = 2) ∧ u.pump.capture = none ∧ u.mgmt.coolDirty = true ∧ Replied r (pldmReply r.body 0 []) s u ∧ Only [.adit, .mgmt, .pump] s u) ∧
    (outOfUse s = false → id = 303 → 1 ≤ v → v ≤ 2 → Effects watch2 .setStateEffecterStates s fun u =>
      u.pump = { s.pump with fluid := v - 1 } ∧ u.mgmt.coolDirty = true ∧ Replied r (pldmReply r.body 0 []) s u ∧ Only [.adit, .mgmt, .pump] s u) ∧
    (outOfUse s = false → id = 304 → v = 2 → s.sup.regs = true → Effects watch2 .setStateEffecterStates s fun u => ComputeReset 13 s u ∧ Replied r (pldmReply r.body 0 []) s u) ∧
    (outOfUse s = false → id = 304 → v = 3 → s.ao.resetDue = none → Effects watch2 .setStateEffecterStates s fun u =>
      u.ao = { s.ao with resetDue := some 21 } ∧ Replied r (pldmReply r.body 0 []) s u ∧ Only [.ao, .mgmt] s u) ∧
    (outOfUse s = false → (id = 304 ∨ id = 306 ∧ capable s = true) → v = 1 → Effects watch2 .setStateEffecterStates s fun u => RepliedOnly r (pldmReply r.body 0 []) s u) ∧
    (outOfUse s = false → id = 305 → 1 ≤ v → v ≤ 2 → Effects watch2 .setStateEffecterStates s fun u =>
      u.mgmt.hold = decide (v = 2) ∧ (s.mgmt.hold ≠ decide (v = 2) → Recorded 0x0504 [(20, 1, if v = 2 then 4 else 5)] u) ∧ Replied r (pldmReply r.body 0 []) s u ∧ Only [.adit, .mgmt] s u) ∧
    (∀ b, capable s = true → outOfUse s = false → id = 306 → (v = 2 ∧ b = 0 ∨ v = 3 ∧ b = 1) → activeIn s b = true → fromCommand s b (nodeId s b) = true → MaySend s b →
      Effects watch2 .setStateEffecterStates s fun u => Queued b 0x62 none [] s u ∧ Replied r (pldmReply r.body 0 []) s u ∧ Only [.bus, .mgmt] s u) ∧
    (∀ b, capable s = true → outOfUse s = false → id = 306 → (v = 4 ∧ b = 0 ∨ v = 5 ∧ b = 1) → (s.onBus b).join = .joined → (s.onBus b).asleep = true →
      Effects watch2 .setStateEffecterStates s fun u => (u.onBus b).asleep = false ∧ (u.onBus b).quiet = s.now + 2000000 ∧ Recorded 0x0405 [(20, 1, b), (21, 1, 3)] u ∧
        Replied r (pldmReply r.body 0 []) s u ∧ Only [.adit, .bus, .mgmt] s u) ∧
    (∀ b, capable s = true → outOfUse s = false → id = 306 → ((v = 2 ∧ b = 0 ∨ v = 3 ∧ b = 1) ∧ (activeIn s b = false ∨ fromCommand s b (nodeId s b) = false) ∨
      (v = 4 ∧ b = 0 ∨ v = 5 ∧ b = 1) ∧ (s.onBus b).join ≠ .joined) → Effects watch2 .setStateEffecterStates s fun u => RepliedOnly r (pldmReply r.body 4 []) s u)) ∧
  (∀ s r, Open .setStateEffecterStates s r → byteAt r.body 6 ≠ 1 → Effects watch2 .setStateEffecterStates s fun u => RepliedOnly r (pldmReply r.body 2 []) s u) ∧
  (∀ s r, Open .setStateEffecterStates s r → byteAt r.body 6 = 1 → byteAt r.body 7 = 0 → Effects watch2 .setStateEffecterStates s fun u => RepliedOnly r (pldmReply r.body 0 []) s u) ∧
  (∀ s b n e l, s.stew = true → s.mgmt.receiver = some (b, n) → s.mgmt.events = e :: l → s.mgmt.eventSent = false → Effects watch .pldmEventSend s fun u =>
    u = s.modMgmt fun m => { m with eventSent := true, eventTries := 0, out := m.out ++ [{ binding := b, body := eventMessage s e }] }) ∧
  (∀ s, s.stew = true → (s.mgmt.receiver = none ∨ s.mgmt.events = [] ∨ s.mgmt.eventSent = true) → Effects watch .pldmEventSend s fun u => u = s) ∧
  (∀ s e l, s.stew = true → s.mgmt.eventSent = true → s.mgmt.events = e :: l → Effects watch2 .pldmEventResponse s fun u =>
    u.mgmt.events = l ∧ u.mgmt.eventSent = false ∧ u.mgmt.eventTries = 0 ∧ (l = [] → u.mgmt.alertLow = false) ∧ HostSeen s u ∧ Only [.adit, .mgmt] s u) ∧
  (∀ s, s.stew = true → s.mgmt.eventSent = false → Effects watch .pldmEventResponse s fun u => u = s) ∧
  (∀ s b n e l, s.stew = true → s.mgmt.eventSent = true → s.mgmt.eventTries < 3 → s.mgmt.receiver = some (b, n) → s.mgmt.events = e :: l → Effects watch .pldmEventRetry s fun u =>
    u = s.modMgmt fun m => { m with eventTries := m.eventTries + 1, out := m.out ++ [{ binding := b, body := eventMessage s e }] }) ∧
  (∀ s e l, s.stew = true → s.mgmt.eventSent = true → 3 ≤ s.mgmt.eventTries → s.mgmt.events = e :: l → Effects watch .pldmEventRetry s fun u =>
    u.mgmt.events = l ∧ u.mgmt.eventSent = false ∧ u.mgmt.eventTries = 0 ∧ u.mgmt.eventDrops = s.mgmt.eventDrops + 1 ∧ Only [.mgmt] s u) ∧
  (∀ s, s.stew = true → s.mgmt.eventSent = false → Effects watch .pldmEventRetry s fun u => u = s) ∧
  (∀ s, s.stew = true → Effects watch .smbusAlertResponse s fun u => u = s.modMgmt fun m => { m with alertLow := false })

/-- R682 to R684, R712, R713, R715 to R717, R719 to R721: firmware update, the owner, and signed requests.
The model's own choices in it: log entries 1, 4, 9, 31, 69, 72, 73. -/
def Obligations.VendorCommands : Prop :=
  (∀ x ∈ [Instr.fwWrite, .fwVerify, .fwActivate], ∀ s r, Open x s r → inUse s = false → Effects watch2 x s fun u => RepliedOnly r (venReply r.body 7 []) s u) ∧
  (∀ s r off data, Open .fwWrite s r → inUse s = true → off = fld (venData r) 4 4 → data = (venData r).drop 8 → (data = [] ∨ 1008 < data.length ∨ 2 ^ 24 < off + data.length) →
    Effects watch2 .fwWrite s fun u => RepliedOnly r (venReply r.body 6 []) s u) ∧
  (∀ s r off data img, Open .fwWrite s r → inUse s = true → off = fld (venData r) 4 4 → data = (venData r).drop 8 → data ≠ [] → data.length ≤ 1008 → off + data.length ≤ 2 ^ 24 →
    img = mwrN (if off = 0 then [] else (inactiveSlot s).image) off data → Effects watch2 .fwWrite s fun u =>
      inactiveSlot u = { valid := Config.imageGood img, seq := Config.imageSeq img, version := Config.imageVersion img, verified := false, image := img } ∧ runningFw u = runningFw s ∧
      u.mgmt.running = s.mgmt.running ∧ Recorded 0x0506 [(20, 1, 1)] u ∧ Replied r (venReply r.body 0 []) s u ∧ Only [.adit, .mgmt] s u) ∧
  (∀ s r n, Open .fwVerify s r → inUse s = true → n = fld (venData r) 4 4 → (n = 0 ∨ 2 ^ 24 < n) → Effects watch2 .fwVerify s fun u => RepliedOnly r (venReply r.body 6 []) s u) ∧
  (∀ s r n ok, Open .fwVerify s r → inUse s = true → n = fld (venData r) 4 4 → n ≠ 0 → n ≤ 2 ^ 24 →
    ok = (Config.imageGood (inactiveSlot s).image && decide (Config.imageLength (inactiveSlot s).image = n)) → Effects watch2 .fwVerify s fun u =>
      inactiveSlot u = { inactiveSlot s with verified := ok } ∧ runningFw u = runningFw s ∧ Recorded 0x0506 [(20, 1, if ok then 2 else 3)] u ∧
      Replied r (venReply r.body (if ok then 0 else 2) []) s u ∧ Only [.adit, .mgmt] s u) ∧
  (∀ s r, Open .fwActivate s r → inUse s = true → (inactiveSlot s).verified = false → Effects watch2 .fwActivate s fun u => RepliedOnly r (venReply r.body 1 []) s u) ∧
  (∀ s r, Open .fwActivate s r → inUse s = true → (inactiveSlot s).verified = true → s.ao.resetDue = none → Effects watch2 .fwActivate s fun u =>
    u.ao = { s.ao with resetDue := some 23 } ∧ u.mgmt.fresh = some (1 - s.mgmt.running) ∧ Recorded 0x0506 [(20, 1, 4)] u ∧ Replied r (venReply r.body 0 []) s u ∧ Only [.ao, .adit, .mgmt] s u) ∧
  (∀ s r, Requested .getNonce s r → Effects watch2 .getNonce s fun u =>
    u.mgmt.nonce = some (Config.freeValue 128 s.free) ∧ Replied r (venReply r.body 0 (toLe 16 (Config.freeValue 128 s.free).toNat)) s u ∧ Only [.free, .mgmt] s u) ∧
  (∀ s, s.stew = true → Effects watch .nonceExpiry s fun u => u = s.modMgmt fun m => { m with nonce := none }) ∧
  (∀ s r st, Open .ownerEnrol s r → st = (if s.mgmt.fuses.lc ≠ .field then 7 else if (venData r).length ≠ 101 then 6 else if s.mgmt.fuses.returns ∈ s.mgmt.fuses.enrolled then 1 else 0) →
    (st ≠ 0 → Effects watch2 .ownerEnrol s fun u => RepliedOnly r (venReply r.body st []) s u) ∧
    (st = 0 → Effects watch2 .ownerEnrol s fun u =>
      tget 0 u.mgmt.fuses.owners s.mgmt.fuses.returns = Config.sha384 (((venData r).drop 4).take 97) ∧ s.mgmt.fuses.returns ∈ u.mgmt.fuses.enrolled ∧
      { u.mgmt.fuses with owners := s.mgmt.fuses.owners, enrolled := s.mgmt.fuses.enrolled } = s.mgmt.fuses ∧ Recorded 0x0505 [(20, 1, 1), (21, 1, 0)] u ∧
      Replied r (venReply r.body 0 []) s u ∧ Only [.adit, .mgmt] s u)) ∧
  (∀ x ∈ signedCmds, ∀ s r st, Open x.1 s r → SignedStatus x.2.1 x.2.2 (venData r) s st → st ≠ 0 → Effects watch2 x.1 s fun u =>
    Recorded 0x0505 [(20, 1, 3), (21, 1, st)] u ∧ Replied r (venReply r.body st []) s u ∧ { u.mgmt with out := s.mgmt.out, reqs := s.mgmt.reqs } = s.mgmt ∧ Only [.adit, .mgmt] s u) ∧
  (∀ s r, Signed .returnRequest s r → Effects watch2 .returnRequest s fun u =>
    u.mgmt.fuses = { s.mgmt.fuses with lc := .returned, returns := s.mgmt.fuses.returns + 1 } ∧ u.mgmt.erasing = true ∧ u.mgmt.nonce = none ∧ Recorded 0x0505 [(20, 1, 4), (21, 1, 0)] u ∧
    Replied r (venReply r.body 0 []) s u ∧ Only [.adit, .mgmt] s u) ∧
  (∀ s r, Signed .retireRequest s r → s.ao.resetDue = none → Effects watch2 .retireRequest s fun u =>
    Transits .retired s u ∧ u.mgmt.regions = s.mgmt.regions ∧ Replied r (venReply r.body 0 []) s u ∧ Only [.ao, .adit, .mgmt] s u) ∧
  (∀ s r, Signed .debugUnlock s r → Effects watch2 .debugUnlock s fun u =>
    u.mgmt.unlocked = true ∧ u.mgmt.fuses = s.mgmt.fuses ∧ u.mgmt.nonce = none ∧ Recorded 0x0505 [(20, 1, 2), (21, 1, 0)] u ∧ Replied r (venReply r.body 0 []) s u ∧ Only [.adit, .mgmt] s u) ∧
  (∀ s r, Signed .makerTransition s r → s.ao.resetDue = none → Effects watch2 .makerTransition s fun u =>
    Transits (if byteAt (venData r) 44 = 2 then .field else if byteAt (venData r) 44 = 1 then .maker else .retired) s u ∧
    (byteAt (venData r) 44 = 2 → (∀ e ∈ u.mgmt.regions, e.1 = 0) ∧ u.mgmt.jobs = []) ∧ (byteAt (venData r) 44 ≠ 2 → u.mgmt.regions = s.mgmt.regions) ∧
    Replied r (venReply r.body 0 []) s u ∧ Only [.ao, .adit, .mgmt] s u)

/-- R702, R703, R706 to R710, R725, R736: host silence, the store, and the commands of the management and start classes.
The model's own choices in it: log entries 1, 4, 9, 74, 75. -/
def Obligations.StoreAndSilence : Prop :=
  (∀ s, s.stew = true → s.mgmt.silent = false → Effects watch .hostSilenceTimeout s fun u =>
    u.mgmt = { s.mgmt with silent := true } ∧ Recorded 0x0502 [(20, 1, 1), (24, 6, s.mgmt.lastHost.toNat)] u ∧ Only [.adit, .mgmt] s u) ∧
  (∀ s, s.stew = true → s.mgmt.silent = true → Effects watch .hostSilenceTimeout s fun u => u = s) ∧
  (∀ s j, s.stew = true → s.mgmt.storing = none → s.ao.resetDue = none → s.mgmt.jobs.find? (fun j => !s.mgmt.hold || j.kind == 4) = some j → Effects watch .storeStart s fun u =>
    u.mgmt.storing = some j ∧ u.mgmt.jobs.length + 1 = s.mgmt.jobs.length ∧ u.mgmt.regions = s.mgmt.regions ∧ Only [.mgmt] s u) ∧
  (∀ s, s.stew = true → (s.mgmt.storing ≠ none ∨ s.ao.resetDue ≠ none ∨ ∀ j ∈ s.mgmt.jobs, s.mgmt.hold = true ∧ j.kind ≠ 4) → Effects watch .storeStart s fun u => u = s) ∧
  (∀ s j, s.stew = true → s.mgmt.storing = some j → Effects watch (.storeComplete true) s fun u =>
    u.mgmt.storing = none ∧ tget .absent u.mgmt.regions j.kind = .valid ((tget 0 s.mgmt.seqs j.kind + 1) % 2 ^ 32) j.body ∧
    (∀ k, k ≠ j.kind → tget .absent u.mgmt.regions k = tget .absent s.mgmt.regions k) ∧ u.mgmt.storeFault = s.mgmt.storeFault ∧ Only [.mgmt] s u) ∧
  (∀ s j, s.stew = true → s.mgmt.storing = some j → j.retried = false → Effects watch (.storeComplete false) s fun u =>
    u.mgmt.storing = some { j with retried := true } ∧ u.mgmt.regions = s.mgmt.regions ∧ u.mgmt.storeFault = s.mgmt.storeFault ∧ Recorded 0x0504 [(20, 1, 2), (21, 1, j.kind)] u ∧
    Only [.adit, .mgmt] s u) ∧
  (∀ s j, s.stew = true → s.mgmt.storing = some j → j.retried = true → Effects watch (.storeComplete false) s fun u =>
    u.mgmt.storing = none ∧ tget .absent u.mgmt.regions j.kind = .torn ∧ u.mgmt.storeFault = true ∧ (∀ k, k ≠ j.kind → tget .absent u.mgmt.regions k = tget .absent s.mgmt.regions k) ∧
    Recorded 0x0504 [(20, 1, 3), (21, 1, j.kind)] u ∧ Only [.adit, .mgmt] s u) ∧
  (∀ s ok, s.stew = true → s.mgmt.storing = none → Effects watch (.storeComplete ok) s fun u => u = s) ∧
  (∀ s, s.stew = true → s.adit.a6.length ≤ 200 → Effects watch .mgmtStatusTimer s fun u =>
    Recorded 0x0501 [(20, 1, storeState s), (21, 1, s.mgmt.events.length), (24, 2, s.mgmt.silentPeriod), (26, 1, s.mgmt.fuses.lc.code)] u ∧
    (s.mgmt.eventDrops ≠ 0 → Recorded 0x0507 [(20, 2, min s.mgmt.eventDrops 0xFFFF)] u) ∧ u.mgmt = { s.mgmt with eventDrops := 0 } ∧ Only [.adit, .mgmt] s u) ∧
  (∀ s tag d, Asked .setHostSilent s tag d → Effects watch .setHostSilent s fun u =>
    u.mgmt = { s.mgmt with disp := none, silentPeriod := fld d 24 2, powerDirty := true } ∧ Acked tag 0 0 s u ∧ Only [.adit, .mgmt] s u) ∧
  (∀ s tag d, Asked .storeHold s tag d → Effects watch .storeHold s fun u =>
    u.mgmt = { s.mgmt with disp := none, hold := decide (byteAt d 24 = 1) } ∧ (s.mgmt.hold ≠ decide (byteAt d 24 = 1) → Recorded 0x0504 [(20, 1, if byteAt d 24 = 1 then 4 else 5)] u) ∧
    Acked tag 0 0 s u ∧ Only [.adit, .mgmt] s u) ∧
  (∀ s tag d b, Asked .busOrder s tag d → b = byteAt d 25 → byteAt d 24 = 0 → activeIn s b = true → fromCommand s b (nodeId s b) = true → MaySend s b → Effects watch .busOrder s fun u =>
    Queued b 0x62 (if byteAt d 26 = 0xFF then none else some (byteAt d 26)) [] s u ∧ Acked tag 0 0 s u ∧ Only [.adit, .bus, .mgmt] s u) ∧
  (∀ s tag d b, Asked .busOrder s tag d → b = byteAt d 25 → byteAt d 24 = 1 → (s.onBus b).join = .joined → (s.onBus b).asleep = true → Effects watch .busOrder s fun u =>
    (u.onBus b).asleep = false ∧ (u.onBus b).quiet = s.now + 2000000 ∧ Recorded 0x0405 [(20, 1, b), (21, 1, 3)] u ∧ Acked tag 0 0 s u ∧ Only [.adit, .bus, .mgmt] s u) ∧
  (∀ s tag d b, Asked .busOrder s tag d → b = byteAt d 25 → (byteAt d 24 = 0 ∧ (activeIn s b = false ∨ fromCommand s b (nodeId s b) = false) ∨ byteAt d 24 = 1 ∧ (s.onBus b).join ≠ .joined) →
    Effects watch .busOrder s fun u => Acked tag 0x33 0 s u ∧ Only [.adit, .mgmt] s u) ∧
  (∀ s tag d, Asked .mgmtNow s tag d → Effects watch .mgmtNow s fun u => Recorded 0x0501 [(20, 1, storeState s), (24, 2, s.mgmt.silentPeriod)] u ∧ Acked tag 0 0 s u ∧ Only [.adit, .mgmt] s u) ∧
  (∀ s tag d, Asked .mainOff s tag d → s.sup.mainEn = false → Effects watch .mainOff s fun u => Acked tag 0 0 s u ∧ Only [.adit, .mgmt] s u) ∧
  (∀ s tag d, Asked .mainOff s tag d → s.sup.mainEn = true → byteAt d 24 = 0 → offBarred s = true → Effects watch .mainOff s fun u => Acked tag 0x33 0 s u ∧ Only [.adit, .mgmt] s u) ∧
  (∀ s tag d, Asked .mainOff s tag d → s.sup.mainEn = true → (byteAt d 24 = 1 ∨ offBarred s = false) → Effects watch .mainOff s fun u =>
    u.sup = { s.sup with offInForce := true, offPending := true } ∧ Acked tag 0 0 s u ∧ Only [.sup, .adit, .mgmt] s u)
/-! ### The block as a whole -/

/-- A step runs the command at the front of the queue on the state with the queue's rest; with no command waiting the block's own clock ticks, which changes nothing but
the time, the row time with what keeps it, the ramp of VDD_CORE and the warden link (the model's choice, log entry 3). -/
def Obligations.StepRunsTheCommand : Prop :=
  (∀ c r s, s.pending = c :: r → step s = exec c { s with pending := r }) ∧
  (∀ c s, step { s with pending := c :: s.pending } = exec c s) ∧
  (∀ s, s.pending = [] → ∃ t, step s = .next t ∧ t.pending = [] ∧ t.now = s.now + 1 ∧ t.mgmt = s.mgmt ∧ t.host = s.host ∧
    { t.ao with rowTime := s.ao.rowTime } = s.ao ∧ { t.bus with clock := s.bus.clock } = s.bus ∧ { t.ward with wlOut := s.ward.wlOut, wlNext := s.ward.wlNext } = s.ward ∧
    (s.ao.aux = false → t.ao = s.ao) ∧
    (s.ao.aux = true → s.bus.clock = {} → t.ao.rowTime = s.ao.rowTime + 1)) ∧
  (∀ (s : State) n w, s.withFetchWord n w = s)

/-- R58, R78, R184, R229 to R231, R243, R387, R394, R431, R483, R498, R501, R535, R554, R573, R591, R702, R724: what the module holds right after reset, as far as the spec
gives the values.
The model's own choices in it: log entry 7. -/
def Obligations.ResetState : Prop :=
  State.reset.pending = [] ∧ State.reset.ao.latch = false ∧ State.reset.sup.mainEn = false ∧ State.reset.host.ready = false ∧ State.reset.host.linkUp = false ∧
  (∀ k, (State.reset.ring k).en = false ∧ (State.reset.ring k).reg.size = 6) ∧ (State.reset.cage 0).st = .active ∧ (State.reset.cage 0).guar = 0 ∧ (State.reset.cage 0).limit = 65536 ∧
  (State.reset.cage 0).clusLimit = 128 ∧ (State.reset.cage 0).groupLimit = 16 ∧ (State.reset.cage 0).collLimit = 64 ∧ (State.reset.cage 0).shadowOk = true ∧
  (State.reset.cage 0).weight = 64 ∧ (∀ c, 0 < c → (State.reset.cage c).st = .absent) ∧ (∀ c p, (State.reset.page c p).st = .unmapped) ∧ State.reset.mem.period = 24 ∧
  (∀ k, (State.reset.link k).st = .down ∧ (State.reset.link k).en = true ∧ (State.reset.link k).allowX4 = true ∧ (State.reset.link k).wColl = 8 ∧ (State.reset.link k).wBulk = 4 ∧
    (State.reset.link k).wMem = 3) ∧
  State.reset.coll.timeoutMs = 100 ∧ (∀ h, State.reset.grp h = none) ∧ State.reset.power.gCal = 1 ∧ State.reset.power.oCal = 0 ∧ State.reset.power.cSet = 1000 ∧
  State.reset.power.cZone = 1400 ∧ State.reset.heat.timeout = 20 ∧ State.reset.heat.action = 0 ∧ State.reset.heat.admitDt = 10 ∧ State.reset.pump.st = .stopped ∧
  State.reset.pump.up = 20000 ∧ State.reset.pump.down = 5000 ∧ State.reset.pump.setSpeed = 3000 ∧ State.reset.pump.qMin = 120 ∧ State.reset.pump.qMax = 350 ∧
  State.reset.mgmt.silentPeriod = 60 ∧ State.reset.mgmt.traceEn = false ∧ State.reset.mgmt.traceFreeze = true ∧ State.reset.mem.mem = [] ∧ Memory.wf State.reset.mem.mem = true

/-- What follows by itself from a command stays within its side of the module: the control plane and the data plane, or the adits and the management plane.
The model's own choices in it: log entry 9. -/
def Obligations.WhatFollowsStaysInside : Prop :=
  (∀ s, Only [.free, .host, .rings, .cages, .beat, .mem, .mgmt, .links, .coll] s (settle s)) ∧ (∀ s, Only [.adit, .mgmt] s (watch s)) ∧
  (∀ s k, Only [.host, .rings, .links, .coll] s (linkSettle k s)) ∧ (∀ s h l c, Only [.links, .coll] s (peerLost h l c s)) ∧ (∀ s i, Only [.host, .rings] s (tryFail i s)) ∧
  (∀ s, linkCfg (settle s).host = linkCfg s.host ∧ ∀ f, cfgOf ((settle s).fn f) = cfgOf (s.fn f)) ∧
  (∀ s, Memory.wf s.mem.mem = true → Memory.wf (settle s).mem.mem = true)

/-- Device memory keeps its one form whatever the module does: addresses rising, and no byte listed that reads as an unlisted one does; so memories that read alike are equal.
The model's own choices in it: log entry 11. -/
def Obligations.MemoryStaysCanonical : Prop :=
  (∀ s t, Memory.wf s.mem.mem = true → step s = .next t → Memory.wf t.mem.mem = true) ∧
  (∀ c s t, Memory.wf s.mem.mem = true → exec c s = .next t → Memory.wf t.mem.mem = true) ∧
  (∀ m a v, Memory.wf m = true → Memory.wf (mwr m a v) = true) ∧ (∀ m a v, mrd (mwr m a v) a = v) ∧ (∀ m a b v, b ≠ a → mrd (mwr m a v) b = mrd m b) ∧
  (∀ m n, Memory.wf m = true → Memory.wf n = true → (∀ a, mrd m a = mrd n a) → m = n)

/-- Every command answers a next state but STACK_LINE_ACCESS of a line that device memory has not; and no command touches the queue or the model's clock.
The model's own choices in it: log entries 3, 83. -/
def Obligations.EveryCommandAnswers : Prop :=
  (∀ c s, (∃ t, exec c s = .next t ∧ t.pending = s.pending ∧ t.now = s.now) ∨ ∃ line op e, c = .stackLineAccess line op e ∧ 2 ^ 31 ≤ line ∧ exec c s = .fault .noSuchLine) ∧
  (∀ s, (∃ t, step s = .next t) ∨ ∃ line op e, s.pending.head? = some (.stackLineAccess line op e) ∧ 2 ^ 31 ≤ line)

/-- R124, R126, R156, R159: configuration changes by configuration requests, function resets and what takes the compute plane down, and by nothing else; and beside the
commands that meet both, every command leaves the module's power, heat, coolant, buses and wardens as they are, or its endpoint, rings, cages, beats, memory and links.
The model's own choices in it: log entry 13. -/
def Obligations.ConfigurationAndIsolation : Prop :=
  (∀ c s t, setsConfig c = false → exec c s = .next t → linkCfg t.host = linkCfg s.host ∧ ∀ f, cfgOf (t.fn f) = cfgOf (s.fn f)) ∧
  (∀ c s t, couples c = false → exec c s = .next t →
    (t.ao = s.ao ∧ t.sup = s.sup ∧ t.power = s.power ∧ t.heat = s.heat ∧ t.pump = s.pump ∧ t.bus = s.bus ∧ t.ward = s.ward) ∨
    (t.host = s.host ∧ t.rings = s.rings ∧ t.cages = s.cages ∧ t.beat = s.beat ∧ t.mem = s.mem ∧ t.links = s.links ∧ t.coll = s.coll))
end

