-- ==== Sys2Proof/Laws/Frame.lean ====
section
/-! SUPPORT. How frames compose: what a chain of operations may change is what its members may change. -/

namespace Sys2Proof.Machine

theorem sub_trans {U V W : List Blk} (h : sub U V = true) (k : sub V W = true) : sub U W = true := by
  simp only [sub, List.all_eq_true, List.contains_iff_mem] at *
  exact fun b hb => k b (h b hb)

theorem Only.rfl {W : List Blk} {s : State} : Only W s s := fun b _ => by cases b <;> exact Eq.refl _

theorem Agree.trans {b : Blk} {s t u : State} (h : Agree b s t) (k : Agree b t u) : Agree b s u := by
  cases b <;> exact Eq.trans k h

theorem Only.after {W : List Blk} {s t u : State} (k : Only W t u) (h : Only W s t) : Only W s u := fun b hb => (h b hb).trans (k b hb)

theorem Only.mono {V W : List Blk} {s t : State} (k : Only V s t) (h : sub V W = true) : Only W s t := fun b hb => k b (by
  simp only [sub, List.all_eq_true, List.contains_iff_mem] at *
  cases hc : V.contains b with
  | false => rfl
  | true =>
    have := h b (by simpa using hc)
    simp_all)

theorem Only.put {V W : List Blk} {s t u : State} (h : Only W s t) (k : Only V t u) (hW : sub V W = true) : Only W s u := (k.mono hW).after h

/-- The state part of a result. -/
abbrev OnlyVia {β : Type} (p : β → State) (W : List Blk) (s : State) (r : β) : Prop := Only W s (p r)

theorem Only.ite {W : List Blk} {s a b : State} {c : Prop} [Decidable c] (ha : c → Only W s a) (hb : ¬c → Only W s b) : Only W s (if c then a else b) := by
  split
  · exact ha ‹_›
  · exact hb ‹_›

theorem Only.iteV {β : Type} {p : β → State} {W : List Blk} {s : State} {a b : β} {c : Prop} [Decidable c] (ha : c → OnlyVia p W s a) (hb : ¬c → OnlyVia p W s b) :
    OnlyVia p W s (if c then a else b) := by
  split
  · exact ha ‹_›
  · exact hb ‹_›

theorem Only.via2 {α : Type} {W : List Blk} {s x : State} {a : α} (h : Only W s x) : OnlyVia Prod.snd W s (a, x) := h

theorem Only.via1 {α : Type} {W : List Blk} {s x : State} {a : α} (h : Only W s x) : OnlyVia Prod.fst W s (x, a) := h

theorem Only.via3 {α β : Type} {W : List Blk} {s x : State} {a : α} {b : β} (h : Only W s x) : OnlyVia (fun r : α × β × State => r.2.2) W s (a, b, x) := h

theorem Only.ofEq {β : Type} {p : β → State} {W : List Blk} {s t : State} {q r : β} (k : OnlyVia p W t q) (e : q = r) (h : Only W s t) : OnlyVia p W s r := e ▸ Only.after k h

/-- The state of a result that may be missing. -/
abbrev OnlyOpt (W : List Blk) (s : State) (r : Option State) : Prop := ∀ t, r = some t → Only W s t

theorem OnlyOpt.none {W : List Blk} {s : State} : OnlyOpt W s none := fun _ h => by cases h

theorem OnlyOpt.some {W : List Blk} {s t : State} (h : Only W s t) : OnlyOpt W s (some t) := fun _ e => by cases e; exact h

theorem Only.iteO {W : List Blk} {s : State} {a b : Option State} {c : Prop} [Decidable c] (ha : c → OnlyOpt W s a) (hb : ¬c → OnlyOpt W s b) :
    OnlyOpt W s (if c then a else b) := by
  split
  · exact ha ‹_›
  · exact hb ‹_›

theorem Only.foldl {α : Type} {W : List Blk} {s t : State} {g : State → α → State} {l : List α} (k : ∀ t x, Only W t (g t x)) (h : Only W s t) : Only W s (l.foldl g t) := by
  induction l generalizing t with
  | nil => exact h
  | cons a r ih => exact ih ((k t a).after h)

theorem Only.foldlV {α β : Type} {p : β → State} {W : List Blk} {s : State} {g : β → α → β} {l : List α} {b : β} (k : ∀ t x, OnlyVia p W (p t) (g t x)) (h : OnlyVia p W s b) :
    OnlyVia p W s (l.foldl g b) := by
  induction l generalizing b with
  | nil => exact h
  | cons a r ih => exact ih (Only.after (k b a) h)

theorem forEach_only {W : List Blk} {s : State} {l : List Nat} {g : Nat → State → State} (k : ∀ n t, Only W t (g n t)) : Only W s (forEach l g s) :=
  Only.foldl (fun t n => k n t) Only.rfl

end Sys2Proof.Machine
end

