-- ==== Sys2Proof/Laws/FrameRings.lean ====
section
/-! SUPPORT. Frame lemmas: the parts of the state that each operation may change, for the named operations, the reports, the rings, pages, copies and the beat fabric.
Each says of one operation that from the state it is given nothing but the parts it names changes. -/

namespace Sys2Proof.Machine

open Sys2Proof

theorem draw_only {W : List Blk} {a0 : Nat} {a1 : Machine.State} (hW : sub [.free] W = true) : OnlyVia Prod.snd W a1 (draw a0 a1) := by
  unfold draw
  refine Only.via2 ?_
  exact Only.put (V := [.free]) (Only.rfl) (fun b hb => by cases b <;> first | exact Eq.refl _ | exact absurd hb (by decide)) hW

theorem drawBelow_only {W : List Blk} {a0 : Nat} {a1 : Machine.State} (hW : sub [.free] W = true) : OnlyVia Prod.snd W a1 (drawBelow a0 a1) := by
  unfold drawBelow
  refine Only.via2 ?_
  exact Only.put (V := [.free]) (Only.rfl) (fun b hb => by cases b <;> first | exact Eq.refl _ | exact absurd hb (by decide)) hW

theorem drawBytes_only {W : List Blk} {a0 : Nat} {a1 : Machine.State} (hW : sub [.free] W = true) : OnlyVia Prod.snd W a1 (drawBytes a0 a1) := by
  unfold drawBytes
  refine Only.via2 ?_
  exact Only.put (V := [.free]) (Only.rfl) (fun b hb => by cases b <;> first | exact Eq.refl _ | exact absurd hb (by decide)) hW

theorem State.modHost_only {W : List Blk} {a0 : Machine.State} {a1 : HostLink → HostLink} (hW : sub [.host] W = true) : Only W a0 (State.modHost a0 a1) := by
  unfold State.modHost
  exact Only.put (V := [.host]) (Only.rfl) (fun b hb => by cases b <;> first | exact Eq.refl _ | exact absurd hb (by decide)) hW

theorem State.modRings_only {W : List Blk} {a0 : Machine.State} {a1 : Rings → Rings} (hW : sub [.rings] W = true) : Only W a0 (State.modRings a0 a1) := by
  unfold State.modRings
  exact Only.put (V := [.rings]) (Only.rfl) (fun b hb => by cases b <;> first | exact Eq.refl _ | exact absurd hb (by decide)) hW

theorem State.modCages_only {W : List Blk} {a0 : Machine.State} {a1 : Cages → Cages} (hW : sub [.cages] W = true) : Only W a0 (State.modCages a0 a1) := by
  unfold State.modCages
  exact Only.put (V := [.cages]) (Only.rfl) (fun b hb => by cases b <;> first | exact Eq.refl _ | exact absurd hb (by decide)) hW

theorem State.modBeat_only {W : List Blk} {a0 : Machine.State} {a1 : BeatBlk → BeatBlk} (hW : sub [.beat] W = true) : Only W a0 (State.modBeat a0 a1) := by
  unfold State.modBeat
  exact Only.put (V := [.beat]) (Only.rfl) (fun b hb => by cases b <;> first | exact Eq.refl _ | exact absurd hb (by decide)) hW

theorem State.modMem_only {W : List Blk} {a0 : Machine.State} {a1 : MemBlk → MemBlk} (hW : sub [.mem] W = true) : Only W a0 (State.modMem a0 a1) := by
  unfold State.modMem
  exact Only.put (V := [.mem]) (Only.rfl) (fun b hb => by cases b <;> first | exact Eq.refl _ | exact absurd hb (by decide)) hW

theorem State.modAdit_only {W : List Blk} {a0 : Machine.State} {a1 : Adits → Adits} (hW : sub [.adit] W = true) : Only W a0 (State.modAdit a0 a1) := by
  unfold State.modAdit
  exact Only.put (V := [.adit]) (Only.rfl) (fun b hb => by cases b <;> first | exact Eq.refl _ | exact absurd hb (by decide)) hW

theorem State.modAo_only {W : List Blk} {a0 : Machine.State} {a1 : AlwaysOn → AlwaysOn} (hW : sub [.ao] W = true) : Only W a0 (State.modAo a0 a1) := by
  unfold State.modAo
  exact Only.put (V := [.ao]) (Only.rfl) (fun b hb => by cases b <;> first | exact Eq.refl _ | exact absurd hb (by decide)) hW

theorem State.modSup_only {W : List Blk} {a0 : Machine.State} {a1 : Supply → Supply} (hW : sub [.sup] W = true) : Only W a0 (State.modSup a0 a1) := by
  unfold State.modSup
  exact Only.put (V := [.sup]) (Only.rfl) (fun b hb => by cases b <;> first | exact Eq.refl _ | exact absurd hb (by decide)) hW

theorem State.modColl_only {W : List Blk} {a0 : Machine.State} {a1 : Coll → Coll} (hW : sub [.coll] W = true) : Only W a0 (State.modColl a0 a1) := by
  unfold State.modColl
  exact Only.put (V := [.coll]) (Only.rfl) (fun b hb => by cases b <;> first | exact Eq.refl _ | exact absurd hb (by decide)) hW

theorem State.modPower_only {W : List Blk} {a0 : Machine.State} {a1 : Power → Power} (hW : sub [.power] W = true) : Only W a0 (State.modPower a0 a1) := by
  unfold State.modPower
  exact Only.put (V := [.power]) (Only.rfl) (fun b hb => by cases b <;> first | exact Eq.refl _ | exact absurd hb (by decide)) hW

theorem State.modHeat_only {W : List Blk} {a0 : Machine.State} {a1 : Heat → Heat} (hW : sub [.heat] W = true) : Only W a0 (State.modHeat a0 a1) := by
  unfold State.modHeat
  exact Only.put (V := [.heat]) (Only.rfl) (fun b hb => by cases b <;> first | exact Eq.refl _ | exact absurd hb (by decide)) hW

theorem State.modPump_only {W : List Blk} {a0 : Machine.State} {a1 : Pump → Pump} (hW : sub [.pump] W = true) : Only W a0 (State.modPump a0 a1) := by
  unfold State.modPump
  exact Only.put (V := [.pump]) (Only.rfl) (fun b hb => by cases b <;> first | exact Eq.refl _ | exact absurd hb (by decide)) hW

theorem State.modBuses_only {W : List Blk} {a0 : Machine.State} {a1 : Buses → Buses} (hW : sub [.bus] W = true) : Only W a0 (State.modBuses a0 a1) := by
  unfold State.modBuses
  exact Only.put (V := [.bus]) (Only.rfl) (fun b hb => by cases b <;> first | exact Eq.refl _ | exact absurd hb (by decide)) hW

theorem State.modWard_only {W : List Blk} {a0 : Machine.State} {a1 : Warden → Warden} (hW : sub [.ward] W = true) : Only W a0 (State.modWard a0 a1) := by
  unfold State.modWard
  exact Only.put (V := [.ward]) (Only.rfl) (fun b hb => by cases b <;> first | exact Eq.refl _ | exact absurd hb (by decide)) hW

theorem State.modMgmt_only {W : List Blk} {a0 : Machine.State} {a1 : Mgmt → Mgmt} (hW : sub [.mgmt] W = true) : Only W a0 (State.modMgmt a0 a1) := by
  unfold State.modMgmt
  exact Only.put (V := [.mgmt]) (Only.rfl) (fun b hb => by cases b <;> first | exact Eq.refl _ | exact absurd hb (by decide)) hW

-- SKIP Sys2Proof.Machine.State.up
-- SKIP Sys2Proof.Machine.State.dataUp
-- SKIP Sys2Proof.Machine.State.stew
-- SKIP Sys2Proof.Machine.State.ms
-- SKIP Sys2Proof.Machine.mgmtRec
-- SKIP Sys2Proof.Machine.ctlRec

theorem a6Push_only {W : List Blk} {a0 : A6Item} {a1 : Machine.State} (hW : sub [.adit] W = true) : Only W a1 (a6Push a0 a1) := by
  unfold a6Push
  exact State.modAdit_only (sub_trans rfl hW)

theorem a6Rec_only {W : List Blk} {a0 : Nat} {a1 : List Fld} {a2 : Machine.State} {a3 : Bool} {a4 : Nat} (hW : sub [.adit] W = true) : Only W a2 (a6Rec a0 a1 a2 a3 a4) := by
  unfold a6Rec
  exact a6Push_only (sub_trans rfl hW)

theorem a3Up_only {W : List Blk} {a0 : A3Msg} {a1 : Machine.State} (hW : sub [.adit] W = true) : Only W a1 (a3Up a0 a1) := by
  unfold a3Up
  exact State.modAdit_only (sub_trans rfl hW)

theorem a3Down_only {W : List Blk} {a0 : A3Msg} {a1 : Machine.State} (hW : sub [.adit] W = true) : Only W a1 (a3Down a0 a1) := by
  unfold a3Down
  exact State.modAdit_only (sub_trans rfl hW)

theorem a5Out_only {W : List Blk} {a0 : Nat} {a1 : Bytes} {a2 : Machine.State} (hW : sub [.adit] W = true) : Only W a2 (a5Out a0 a1 a2) := by
  unfold a5Out
  exact State.modAdit_only (sub_trans rfl hW)

-- SKIP Sys2Proof.Machine.State.fn

theorem State.modFn_only {W : List Blk} {a0 : Machine.State} {a1 : Nat} {a2 : Fn → Fn} (hW : sub [.host] W = true) : Only W a0 (State.modFn a0 a1 a2) := by
  unfold State.modFn
  exact State.modHost_only (sub_trans rfl hW)

-- SKIP Sys2Proof.Machine.State.rpt

theorem State.modRpt_only {W : List Blk} {a0 : Machine.State} {a1 : Nat} {a2 : Rpt → Rpt} (hW : sub [.rings] W = true) : Only W a0 (State.modRpt a0 a1 a2) := by
  unfold State.modRpt
  exact State.modRings_only (sub_trans rfl hW)

theorem aerCorrectable_only {W : List Blk} {a0 : Nat} {a1 : AerErr} {a2 : Machine.State} (hW : sub [.host] W = true) : Only W a2 (aerCorrectable a0 a1 a2) := by
  unfold aerCorrectable
  exact State.modFn_only (sub_trans rfl hW)

theorem aerUncorrectable_only {W : List Blk} {a0 : Nat} {a1 : AerErr} {a2 : Machine.State} (hW : sub [.host] W = true) : Only W a2 (aerUncorrectable a0 a1 a2) := by
  unfold aerUncorrectable
  exact State.modFn_only (sub_trans rfl hW)

-- SKIP Sys2Proof.Machine.xlate

theorem atcTouch_only {W : List Blk} {a0 : Nat} {a1 : W64} {a2 : Machine.State} (hW : sub [.host] W = true) : Only W a2 (atcTouch a0 a1 a2) := by
  unfold atcTouch
  exact State.modHost_only (sub_trans rfl hW)

theorem atcInsert_only {W : List Blk} {a0 : AtcEntry} {a1 : Machine.State} (hW : sub [.host] W = true) : Only W a1 (atcInsert a0 a1) := by
  unfold atcInsert
  exact State.modHost_only (sub_trans rfl hW)

theorem post_only {W : List Blk} {a0 : Nat} {a1 : W64} {a2 : Bytes} {a3 : Option Nat} {a4 : Machine.State} (hW : sub [.host] W = true) : Only W a4 (post a0 a1 a2 a3 a4) := by
  unfold post
  exact State.modHost_only (sub_trans rfl hW)

theorem postPage_only {W : List Blk} {a0 : Nat} {a1 : W64} {a2 : Bytes} {a3 : Nat} {a4 : Machine.State} (hW : sub [.host] W = true) : Only W a4 (postPage a0 a1 a2 a3 a4) := by
  unfold postPage
  exact State.modHost_only (sub_trans rfl hW)

theorem pushReq_only {W : List Blk} {a0 : Nat} {a1 : W64} {a2 : Nat} {a3 : Bool} {a4 : Why} {a5 : Bool} {a6 : Machine.State} (hW : sub [.host] W = true) : Only W a6 (pushReq a0 a1 a2 a3 a4 a5 a6) := by
  unfold pushReq
  exact State.modHost_only (sub_trans rfl hW)

theorem hostRead_only {W : List Blk} {a0 : Nat} {a1 : W64} {a2 : Nat} {a3 : Why} {a4 : Machine.State} (hW : sub [.host] W = true) : Only W a4 (hostRead a0 a1 a2 a3 a4) := by
  unfold hostRead
  split
  · exact Only.after (pushReq_only (sub_trans rfl hW)) (atcTouch_only (sub_trans rfl hW))
  · exact pushReq_only (sub_trans rfl hW)

theorem modVec_only {W : List Blk} {a0 : Nat} {a1 : Nat} {a2 : Vec → Vec} {a3 : Machine.State} (hW : sub [.host] W = true) : Only W a3 (modVec a0 a1 a2 a3) := by
  unfold modVec
  exact State.modFn_only (sub_trans rfl hW)

theorem sendMsi_only {W : List Blk} {a0 : Nat} {a1 : Nat} {a2 : Machine.State} (hW : sub [.host] W = true) : Only W a2 (sendMsi a0 a1 a2) := by
  unfold sendMsi
  extract_lets +onlyGivenNames -merge -useContext -underBinder x0
  try clear_value x0
  refine Only.ite (fun _ => ?_) (fun _ => ?_)
  · exact Only.rfl
  · refine Only.ite (fun _ => ?_) (fun _ => ?_)
    · exact modVec_only (sub_trans rfl hW)
    · exact Only.after (post_only (sub_trans rfl hW)) (modVec_only (sub_trans rfl hW))

theorem rptAnnounce_only {W : List Blk} {a0 : Nat} {a1 : Machine.State} (hW : sub [.host, .rings] W = true) : Only W a1 (rptAnnounce a0 a1) := by
  unfold rptAnnounce
  extract_lets +onlyGivenNames -merge -useContext -underBinder x0
  try clear_value x0
  refine Only.ite (fun _ => ?_) (fun _ => ?_)
  · exact Only.after (sendMsi_only (sub_trans rfl hW)) (State.modRpt_only (sub_trans rfl hW))
  · exact State.modRpt_only (sub_trans rfl hW)

theorem writeRec_only {W : List Blk} {a0 : Nat} {a1 : Rec} {a2 : W64} {a3 : Machine.State} (hW : sub [.host, .rings] W = true) : Only W a3 (writeRec a0 a1 a2 a3) := by
  unfold writeRec
  extract_lets +onlyGivenNames -merge -useContext -underBinder x0
  try clear_value x0
  extract_lets +onlyGivenNames -merge -useContext -underBinder x1
  try clear_value x1
  extract_lets +onlyGivenNames -merge -useContext -underBinder x2
  try clear_value x2
  extract_lets +onlyGivenNames -merge -useContext -underBinder x3
  try clear_value x3
  extract_lets +onlyGivenNames -merge -useContext -underBinder x4
  have h5 : Only W a3 x4 := by
    unfold x4
    exact State.modRings_only (sub_trans rfl hW)
  clear_value x4
  exact Only.after (rptAnnounce_only (sub_trans rfl hW)) (Only.after (post_only (sub_trans rfl hW)) (Only.after (State.modRpt_only (sub_trans rfl hW)) (h5)))

theorem flushList_only {W : List Blk} {a0 : List (Nat × Rec)} {a1 : List Nat} {a2 : Machine.State} (hW : sub [.host, .rings] W = true) : OnlyVia Prod.snd W a2 (flushList a0 a1 a2) := by
  induction a0 generalizing a1 a2 with
  | nil =>
    unfold flushList
    refine Only.via2 ?_
    exact Only.rfl
  | cons hd tl ih =>
    unfold flushList
    refine Only.iteV (fun _ => ?_) (fun _ => ?_)
    · split
      · rename_i y1 y2 q3
        have h0 := Only.ofEq (p := Prod.snd) (by apply ih) q3 (W := W) (s := a2) (by
          exact Only.rfl
          )
        refine Only.via2 ?_
        exact h0
    · split
      · exact Only.after (by apply ih) (Only.after (writeRec_only (sub_trans rfl hW)) (atcTouch_only (sub_trans rfl hW)))
      · split
        · rename_i y5 y6 q7
          have h4 := Only.ofEq (p := Prod.snd) (by apply ih) q7 (W := W) (s := a2) (by
            exact pushReq_only (sub_trans rfl hW)
            )
          refine Only.via2 ?_
          exact h4

-- SKIP Sys2Proof.Machine.rptBlocked

theorem flushReports_only {W : List Blk} {a0 : Machine.State} (hW : sub [.host, .rings] W = true) : Only W a0 (flushReports a0) := by
  unfold flushReports
  extract_lets +onlyGivenNames -merge -useContext -underBinder x0
  unfold x0
  exact Only.after (State.modRings_only (sub_trans rfl hW)) (flushList_only (sub_trans rfl hW))

theorem report_only {W : List Blk} {a0 : Nat} {a1 : Rec} {a2 : Machine.State} (hW : sub [.host, .rings] W = true) : Only W a2 (report a0 a1 a2) := by
  unfold report
  refine Only.ite (fun _ => ?_) (fun _ => ?_)
  · exact Only.rfl
  · extract_lets +onlyGivenNames -merge -useContext -underBinder x0
    try clear_value x0
    refine Only.ite (fun _ => ?_) (fun _ => ?_)
    · exact State.modRings_only (sub_trans rfl hW)
    · exact Only.after (flushReports_only (sub_trans rfl hW)) (State.modRings_only (sub_trans rfl hW))

theorem reportCtl_only {W : List Blk} {a0 : Nat} {a1 : List Fld} {a2 : Nat} {a3 : Machine.State} (hW : sub [.host, .rings] W = true) : Only W a3 (reportCtl a0 a1 a2 a3) := by
  unfold reportCtl
  exact report_only (sub_trans rfl hW)

-- SKIP Sys2Proof.Machine.State.ring

theorem State.modRing_only {W : List Blk} {a0 : Machine.State} {a1 : Nat} {a2 : Ring → Ring} (hW : sub [.rings] W = true) : Only W a0 (State.modRing a0 a1 a2) := by
  unfold State.modRing
  exact State.modRings_only (sub_trans rfl hW)

-- SKIP Sys2Proof.Machine.State.slot

theorem State.modSlot_only {W : List Blk} {a0 : Machine.State} {a1 : Nat} {a2 : Slot → Slot} (hW : sub [.rings] W = true) : Only W a0 (State.modSlot a0 a1 a2) := by
  unfold State.modSlot
  exact State.modRings_only (sub_trans rfl hW)

-- SKIP Sys2Proof.Machine.State.ctx

theorem State.modCtx_only {W : List Blk} {a0 : Machine.State} {a1 : Nat} {a2 : Machine.Ctx → Machine.Ctx} (hW : sub [.rings] W = true) : Only W a0 (State.modCtx a0 a1 a2) := by
  unfold State.modCtx
  exact State.modRings_only (sub_trans rfl hW)

-- SKIP Sys2Proof.Machine.State.usedCtxs
-- SKIP Sys2Proof.Machine.State.cage

theorem State.modCage_only {W : List Blk} {a0 : Machine.State} {a1 : Nat} {a2 : Cage → Cage} (hW : sub [.cages] W = true) : Only W a0 (State.modCage a0 a1 a2) := by
  unfold State.modCage
  exact State.modCages_only (sub_trans rfl hW)

-- SKIP Sys2Proof.Machine.slotOf
-- SKIP Sys2Proof.Machine.demandRings
-- SKIP Sys2Proof.Machine.boundCount
-- SKIP Sys2Proof.Machine.shares
-- SKIP Sys2Proof.Machine.victim

theorem nextOrd_only {W : List Blk} {a0 : Machine.State} (hW : sub [.rings] W = true) : OnlyVia Prod.snd W a0 (nextOrd a0) := by
  unfold nextOrd
  refine Only.via2 ?_
  exact State.modRings_only (sub_trans rfl hW)

theorem swapOut_only {W : List Blk} {a0 : Nat} {a1 : Machine.State} (hW : sub [.rings] W = true) : Only W a1 (swapOut a0 a1) := by
  unfold swapOut
  extract_lets +onlyGivenNames -merge -useContext -underBinder x0
  try clear_value x0
  extract_lets +onlyGivenNames -merge -useContext -underBinder x1
  try clear_value x1
  extract_lets +onlyGivenNames -merge -useContext -underBinder x2
  try clear_value x2
  extract_lets +onlyGivenNames -merge -useContext -underBinder x3
  have h4 : Only W a1 x3 := by
    unfold x3
    exact State.modRing_only (sub_trans rfl hW)
  clear_value x3
  exact Only.after (State.modSlot_only (sub_trans rfl hW)) (h4)

theorem bind_only {W : List Blk} {a0 : Nat} {a1 : Nat} {a2 : Machine.State} (hW : sub [.rings] W = true) : Only W a2 (bind a0 a1 a2) := by
  unfold bind
  split
  · rename_i y1 y2 q3
    have h0 := Only.ofEq (p := Prod.snd) (nextOrd_only (sub_trans rfl hW)) q3 (W := W) (s := a2) (by
      exact Only.rfl
      )
    extract_lets +onlyGivenNames -merge -useContext -underBinder x4
    have h5 : Only W a2 x4 := by
      unfold x4
      exact Only.after (State.modRing_only (sub_trans rfl hW)) (h0)
    clear_value x4
    exact Only.after (State.modSlot_only (sub_trans rfl hW)) (h5)

-- SKIP Sys2Proof.Machine.waitOrder

theorem serveWaiting_only {W : List Blk} {a0 : List (Nat × Rat)} {a1 : List Nat} {a2 : Nat} {a3 : Machine.State} (hW : sub [.rings] W = true) : Only W a3 (serveWaiting a0 a1 a2 a3) := by
  induction a1 generalizing a0 a2 a3 with
  | nil =>
    unfold serveWaiting
    exact Only.rfl
  | cons hd tl ih =>
    unfold serveWaiting
    split
    · exact Only.after (by apply ih) (bind_only (sub_trans rfl hW))
    · split
      · exact by apply ih
      · refine Only.ite (fun _ => ?_) (fun _ => ?_)
        · split
          · exact Only.after (by apply ih) (swapOut_only (sub_trans rfl hW))
          · exact by apply ih
        · exact by apply ih

theorem markWaiting_only {W : List Blk} {a0 : List (Nat × Ring)} {a1 : Machine.State} (hW : sub [.rings] W = true) : Only W a1 (markWaiting a0 a1) := by
  induction a0 generalizing a1 with
  | nil =>
    unfold markWaiting
    exact Only.rfl
  | cons hd tl ih =>
    unfold markWaiting
    refine Only.ite (fun _ => ?_) (fun _ => ?_)
    · split
      · rename_i y1 y2 q3
        have h0 := Only.ofEq (p := Prod.snd) (nextOrd_only (sub_trans rfl hW)) q3 (W := W) (s := a1) (by
          exact Only.rfl
          )
        exact Only.after (by apply ih) (Only.after (State.modRing_only (sub_trans rfl hW)) (h0))
    · refine Only.ite (fun _ => ?_) (fun _ => ?_)
      · exact Only.after (by apply ih) (State.modRing_only (sub_trans rfl hW))
      · exact by apply ih

theorem schedule_only {W : List Blk} {a0 : Machine.State} (hW : sub [.rings] W = true) : Only W a0 (schedule a0) := by
  unfold schedule
  extract_lets +onlyGivenNames -merge -useContext -underBinder x0
  have h1 : Only W a0 x0 := by
    unfold x0
    exact markWaiting_only (sub_trans rfl hW)
  clear_value x0
  extract_lets +onlyGivenNames -merge -useContext -underBinder x2
  try clear_value x2
  extract_lets +onlyGivenNames -merge -useContext -underBinder x3
  try clear_value x3
  extract_lets +onlyGivenNames -merge -useContext -underBinder x4
  try clear_value x4
  exact Only.after (serveWaiting_only (sub_trans rfl hW)) (h1)

-- SKIP Sys2Proof.Machine.fenceMet
-- SKIP Sys2Proof.Machine.ctxRoom
-- SKIP Sys2Proof.Machine.issuable
-- SKIP Sys2Proof.Machine.cageNext
-- SKIP Sys2Proof.Machine.issueCands
-- SKIP Sys2Proof.Machine.drrGo
-- SKIP Sys2Proof.Machine.drrPick
-- SKIP Sys2Proof.Machine.freeCtx

theorem refreshList_only {W : List Blk} {a0 : List Nat} {a1 : Machine.State} (hW : sub [.rings] W = true) : Only W a1 (refreshList a0 a1) := by
  induction a0 generalizing a1 with
  | nil =>
    unfold refreshList
    exact Only.rfl
  | cons hd tl ih =>
    unfold refreshList
    extract_lets +onlyGivenNames -merge -useContext -underBinder x0
    try clear_value x0
    refine Only.ite (fun _ => ?_) (fun _ => ?_)
    · exact by apply ih
    · extract_lets +onlyGivenNames -merge -useContext -underBinder x1
      try clear_value x1
      extract_lets +onlyGivenNames -merge -useContext -underBinder x2
      try clear_value x2
      split
      · rename_i y4 y5 q6
        have h3 := Only.ofEq (p := Prod.snd) (nextOrd_only (sub_trans rfl hW)) q6 (W := W) (s := a1) (by
          exact Only.rfl
          )
        extract_lets +onlyGivenNames -merge -useContext -underBinder x7
        try clear_value x7
        refine Only.ite (fun _ => ?_) (fun _ => ?_)
        · exact by apply ih
        · exact Only.after (by apply ih) (Only.after (State.modSlot_only (sub_trans rfl hW)) (h3))

theorem refresh_only {W : List Blk} {a0 : Machine.State} (hW : sub [.rings] W = true) : Only W a0 (refresh a0) := by
  unfold refresh
  exact Only.after (schedule_only (sub_trans rfl hW)) (refreshList_only (sub_trans rfl hW))

theorem endCmd_only {W : List Blk} {a0 : Nat} {a1 : Nat} {a2 : Nat} {a3 : Nat} {a4 : Machine.State} (hW : sub [.rings] W = true) : Only W a4 (endCmd a0 a1 a2 a3 a4) := by
  unfold endCmd
  exact State.modCtx_only (sub_trans rfl hW)

theorem endOk_only {W : List Blk} {a0 : Nat} {a1 : Nat} {a2 : Machine.State} (hW : sub [.rings] W = true) : Only W a2 (endOk a0 a1 a2) := by
  unfold endOk
  exact endCmd_only (sub_trans rfl hW)

-- SKIP Sys2Proof.Machine.ringStoppedRec

theorem stopRing_only {W : List Blk} {a0 : Nat} {a1 : Nat} {a2 : Machine.State} (hW : sub [.host, .rings] W = true) : Only W a2 (stopRing a0 a1 a2) := by
  unfold stopRing
  refine Only.ite (fun _ => ?_) (fun _ => ?_)
  · exact Only.rfl
  · extract_lets +onlyGivenNames -merge -useContext -underBinder x0
    have h1 : Only W a2 x0 := by
      unfold x0
      exact report_only (sub_trans rfl hW)
    clear_value x0
    extract_lets +onlyGivenNames -merge -useContext -underBinder x2
    have h3 : Only W a2 x2 := by
      unfold x2
      exact Only.after (State.modRing_only (sub_trans rfl hW)) (h1)
    clear_value x2
    split
    · refine Only.ite (fun _ => ?_) (fun _ => ?_)
      · exact h3
      · exact Only.after (swapOut_only (sub_trans rfl hW)) (h3)
    · exact h3

theorem tryFail_only {W : List Blk} {a0 : Nat} {a1 : Machine.State} (hW : sub [.host, .rings] W = true) : Only W a1 (tryFail a0 a1) := by
  unfold tryFail
  extract_lets +onlyGivenNames -merge -useContext -underBinder x0
  try clear_value x0
  split
  · refine Only.ite (fun _ => ?_) (fun _ => ?_)
    · exact Only.rfl
    · extract_lets +onlyGivenNames -merge -useContext -underBinder x1
      try clear_value x1
      extract_lets +onlyGivenNames -merge -useContext -underBinder x2
      have h3 : Only W a1 x2 := by
        unfold x2
        exact State.modCtx_only (sub_trans rfl hW)
      clear_value x2
      extract_lets +onlyGivenNames -merge -useContext -underBinder x4
      have h5 : Only W a1 x4 := by
        unfold x4
        exact Only.after (State.modSlot_only (sub_trans rfl hW)) (h3)
      clear_value x4
      exact Only.after (stopRing_only (sub_trans rfl hW)) (Only.after (State.modRing_only (sub_trans rfl hW)) (h5))
  · exact Only.rfl

-- SKIP Sys2Proof.Machine.turnOf

theorem took_only {W : List Blk} {a0 : Cand} {a1 : Tbl Nat} {a2 : W32} {a3 : Bytes} {a4 : Machine.State} (hW : sub [.rings] W = true) : Only W a4 (took a0 a1 a2 a3 a4) := by
  unfold took
  extract_lets +onlyGivenNames -merge -useContext -underBinder x0
  try clear_value x0
  extract_lets +onlyGivenNames -merge -useContext -underBinder x1
  try clear_value x1
  extract_lets +onlyGivenNames -merge -useContext -underBinder x2
  have h3 : Only W a4 x2 := by
    unfold x2
    exact State.modRings_only (sub_trans rfl hW)
  clear_value x2
  extract_lets +onlyGivenNames -merge -useContext -underBinder x4
  have h5 : Only W a4 x4 := by
    unfold x4
    exact Only.after (State.modSlot_only (sub_trans rfl hW)) (h3)
  clear_value x4
  exact Only.after (State.modCtx_only (sub_trans rfl hW)) (h5)

theorem issueWhen_only {W : List Blk} {a0 : Nat → Bool} {a1 : Nat} {a2 : Nat} {a3 : Nat → Machine.State → Machine.State} {a4 : Machine.State} (hW : sub [.host, .rings] W = true) (g0 : ∀ v0 v1, Only W v1 (a3 v0 v1)) : Only W a4 (issueWhen a0 a1 a2 a3 a4) := by
  unfold issueWhen
  split
  · exact Only.rfl
  · refine Only.ite (fun _ => ?_) (fun _ => ?_)
    · exact Only.after (refresh_only (sub_trans rfl hW)) (Only.after (tryFail_only (sub_trans rfl hW)) (Only.after (g0 _ _) (took_only (sub_trans rfl hW))))
    · exact Only.rfl

-- SKIP Sys2Proof.Machine.pageMapped
-- SKIP Sys2Proof.Machine.runPages
-- SKIP Sys2Proof.Machine.availFrom
-- SKIP Sys2Proof.Machine.runChecks

theorem issueOp_only {W : List Blk} {a0 : Nat} {a1 : OpSpec} {a2 : Nat} {a3 : Nat} {a4 : Nat → Machine.State → Machine.State} {a5 : Machine.State} (hW : sub [.host, .rings] W = true) (g0 : ∀ v0 v1, Only W v1 (a4 v0 v1)) : Only W a5 (issueOp a0 a1 a2 a3 a4 a5) := by
  unfold issueOp
  refine Only.after (issueWhen_only (sub_trans rfl hW) (fun _ t0 => ?_)) ?_
  · split
    · exact endCmd_only (sub_trans rfl hW)
    · exact g0 _ _
  · exact Only.rfl

theorem ringAnnounce_only {W : List Blk} {a0 : Nat} {a1 : Machine.State} (hW : sub [.host, .rings] W = true) : Only W a1 (ringAnnounce a0 a1) := by
  unfold ringAnnounce
  extract_lets +onlyGivenNames -merge -useContext -underBinder x0
  try clear_value x0
  refine Only.ite (fun _ => ?_) (fun _ => ?_)
  · exact Only.after (sendMsi_only (sub_trans rfl hW)) (State.modRing_only (sub_trans rfl hW))
  · exact State.modRing_only (sub_trans rfl hW)

theorem applyQuota_only {W : List Blk} {a0 : Nat} {a1 : Machine.State} (hW : sub [.cages] W = true) : Only W a1 (applyQuota a0 a1) := by
  unfold applyQuota
  extract_lets +onlyGivenNames -merge -useContext -underBinder x0
  try clear_value x0
  refine Only.ite (fun _ => ?_) (fun _ => ?_)
  · exact State.modCage_only (sub_trans rfl hW)
  · exact Only.rfl

theorem writeCpl_only {W : List Blk} {a0 : Nat} {a1 : W64} {a2 : Machine.State} (hW : sub [.host, .rings, .cages] W = true) : Only W a2 (writeCpl a0 a1 a2) := by
  unfold writeCpl
  extract_lets +onlyGivenNames -merge -useContext -underBinder x0
  have h1 : Only W a2 x0 := by
    unfold x0
    exact applyQuota_only (sub_trans rfl hW)
  clear_value x0
  extract_lets +onlyGivenNames -merge -useContext -underBinder x2
  try clear_value x2
  extract_lets +onlyGivenNames -merge -useContext -underBinder x3
  try clear_value x3
  extract_lets +onlyGivenNames -merge -useContext -underBinder x4
  try clear_value x4
  extract_lets +onlyGivenNames -merge -useContext -underBinder x5
  have h6 : Only W a2 x5 := by
    unfold x5
    exact Only.after (post_only (sub_trans rfl hW)) (h1)
  clear_value x5
  extract_lets +onlyGivenNames -merge -useContext -underBinder x7
  have h8 : Only W a2 x7 := by
    unfold x7
    exact Only.after (State.modRing_only (sub_trans rfl hW)) (h6)
  clear_value x7
  extract_lets +onlyGivenNames -merge -useContext -underBinder x9
  have h10 : Only W a2 x9 := by
    unfold x9
    exact Only.after (State.modCtx_only (sub_trans rfl hW)) (h8)
  clear_value x9
  refine Only.ite (fun _ => ?_) (fun _ => ?_)
  · exact Only.after (ringAnnounce_only (sub_trans rfl hW)) (h10)
  · exact h10

theorem freeCtxOf_only {W : List Blk} {a0 : Nat} {a1 : Machine.State} (hW : sub [.rings] W = true) : Only W a1 (freeCtxOf a0 a1) := by
  unfold freeCtxOf
  exact State.modCtx_only (sub_trans rfl hW)

theorem cplRefused_only {W : List Blk} {a0 : Nat} {a1 : Machine.State} (hW : sub [.host, .rings] W = true) : Only W a1 (cplRefused a0 a1) := by
  unfold cplRefused
  exact Only.after (stopRing_only (sub_trans rfl hW)) (freeCtxOf_only (sub_trans rfl hW))

theorem tryComplete_only {W : List Blk} {a0 : Nat} {a1 : Machine.State} (hW : sub [.host, .rings, .cages] W = true) : Only W a1 (tryComplete a0 a1) := by
  unfold tryComplete
  extract_lets +onlyGivenNames -merge -useContext -underBinder x0
  try clear_value x0
  refine Only.ite (fun _ => ?_) (fun _ => ?_)
  · exact Only.rfl
  · split
    · exact Only.after (writeCpl_only (sub_trans rfl hW)) (atcTouch_only (sub_trans rfl hW))
    · exact Only.after (pushReq_only (sub_trans rfl hW)) (State.modCtx_only (sub_trans rfl hW))

-- SKIP Sys2Proof.Machine.ctxsWhere
-- SKIP Sys2Proof.Machine.guarSum
-- SKIP Sys2Proof.Machine.groupsHeld
-- SKIP Sys2Proof.Machine.State.page

theorem State.modPage_only {W : List Blk} {a0 : Machine.State} {a1 : Nat} {a2 : Nat} {a3 : Page → Page} (hW : sub [.cages] W = true) : Only W a0 (State.modPage a0 a1 a2 a3) := by
  unfold State.modPage
  exact State.modCages_only (sub_trans rfl hW)

-- SKIP Sys2Proof.Machine.State.frame

theorem State.setFrame_only {W : List Blk} {a0 : Machine.State} {a1 : Nat} {a2 : FrameSt} (hW : sub [.cages] W = true) : Only W a0 (State.setFrame a0 a1 a2) := by
  unfold State.setFrame
  exact State.modCages_only (sub_trans rfl hW)

-- SKIP Sys2Proof.Machine.cagePages
-- SKIP Sys2Proof.Machine.mappedCount
-- SKIP Sys2Proof.Machine.bookClean
-- SKIP Sys2Proof.Machine.bookHeld
-- SKIP Sys2Proof.Machine.bookTransit
-- SKIP Sys2Proof.Machine.bookDirty
-- SKIP Sys2Proof.Machine.linePoisoned

theorem setLinePoison_only {W : List Blk} {a0 : Nat} {a1 : Bool} {a2 : Machine.State} (hW : sub [.mem] W = true) : Only W a2 (setLinePoison a0 a1 a2) := by
  unfold setLinePoison
  exact State.modMem_only (sub_trans rfl hW)

theorem poisonFrame_only {W : List Blk} {a0 : Nat} {a1 : Machine.State} (hW : sub [.mem] W = true) : Only W a1 (poisonFrame a0 a1) := by
  unfold poisonFrame
  exact State.modMem_only (sub_trans rfl hW)

theorem zeroFrame_only {W : List Blk} {a0 : Nat} {a1 : Machine.State} (hW : sub [.mem] W = true) : Only W a1 (zeroFrame a0 a1) := by
  unfold zeroFrame
  exact State.modMem_only (sub_trans rfl hW)

-- SKIP Sys2Proof.Machine.physOf
-- SKIP Sys2Proof.Machine.devRead

theorem devWrite_only {W : List Blk} {a0 : Nat} {a1 : Nat} {a2 : Nat} {a3 : Nat} {a4 : Nat} {a5 : Bytes} {a6 : Machine.State} (hW : sub [.cages, .mem] W = true) : OnlyVia Prod.fst W a6 (devWrite a0 a1 a2 a3 a4 a5 a6) := by
  induction a3 generalizing a0 a1 a2 a4 a5 a6 with
  | zero =>
    unfold devWrite
    refine Only.via1 ?_
    exact Only.rfl
  | succ n ih =>
    unfold devWrite
    refine Only.iteV (fun _ => ?_) (fun _ => ?_)
    · refine Only.via1 ?_
      exact Only.rfl
    · extract_lets +onlyGivenNames -merge -useContext -underBinder x0
      try clear_value x0
      extract_lets +onlyGivenNames -merge -useContext -underBinder x1
      try clear_value x1
      split
      · refine Only.via1 ?_
        exact Only.rfl
      · refine Only.iteV (fun _ => ?_) (fun _ => ?_)
        · refine Only.via1 ?_
          exact Only.rfl
        · extract_lets +onlyGivenNames -merge -useContext -underBinder x2
          have h3 : Only W a6 x2 := by
            unfold x2
            exact State.modMem_only (sub_trans rfl hW)
          clear_value x2
          extract_lets +onlyGivenNames -merge -useContext -underBinder x4
          have h5 : Only W a6 x4 := by
            unfold x4
            refine Only.ite (fun _ => ?_) (fun _ => ?_)
            · exact Only.after (setLinePoison_only (sub_trans rfl hW)) (h3)
            · exact h3
          clear_value x4
          extract_lets +onlyGivenNames -merge -useContext -underBinder x6
          try clear_value x6
          extract_lets +onlyGivenNames -merge -useContext -underBinder x7
          have h8 : Only W a6 x7 := by
            unfold x7
            refine Only.ite (fun _ => ?_) (fun _ => ?_)
            · exact Only.after (State.modPage_only (sub_trans rfl hW)) (h5)
            · exact h5
          clear_value x7
          exact Only.after (by apply ih) (h8)

theorem touchPages_only {W : List Blk} {a0 : Nat} {a1 : List Nat} {a2 : Machine.State} (hW : sub [.cages] W = true) : Only W a2 (touchPages a0 a1 a2) := by
  unfold touchPages
  refine Only.after (forEach_only (fun _ t0 => ?_)) ?_
  · exact State.modPage_only (sub_trans rfl hW)
  · exact Only.rfl

-- SKIP Sys2Proof.Machine.dirtyFrom
-- SKIP Sys2Proof.Machine.freeFrames
-- SKIP Sys2Proof.Machine.chooseFrame
-- SKIP Sys2Proof.Machine.usedSlots
-- SKIP Sys2Proof.Machine.freeSlots
-- SKIP Sys2Proof.Machine.pageInUse
-- SKIP Sys2Proof.Machine.pageMoving
-- SKIP Sys2Proof.Machine.pageFree
-- SKIP Sys2Proof.Machine.residentCount
-- SKIP Sys2Proof.Machine.evictable
-- SKIP Sys2Proof.Machine.supplyFor
-- SKIP Sys2Proof.Machine.pickVictim

theorem planEvict_only {W : List Blk} {a0 : Nat} {a1 : Nat} {a2 : Nat} {a3 : Bool} {a4 : Machine.State} (hW : sub [.free, .cages] W = true) : Only W a4 (planEvict a0 a1 a2 a3 a4) := by
  unfold planEvict
  split
  · rename_i y1 y2 q3
    have h0 := Only.ofEq (p := Prod.snd) (drawBelow_only (sub_trans rfl hW)) q3 (W := W) (s := a4) (by
      exact Only.rfl
      )
    extract_lets +onlyGivenNames -merge -useContext -underBinder x4
    try clear_value x4
    extract_lets +onlyGivenNames -merge -useContext -underBinder x5
    try clear_value x5
    extract_lets +onlyGivenNames -merge -useContext -underBinder x6
    have h7 : Only W a4 x6 := by
      unfold x6
      exact Only.after (State.modPage_only (sub_trans rfl hW)) (h0)
    clear_value x6
    exact Only.after (State.modCages_only (sub_trans rfl hW)) (h7)

theorem planVictims_only {W : List Blk} {a0 : Nat} {a1 : Nat} {a2 : List Nat} {a3 : Nat} {a4 : Machine.State} (hW : sub [.free, .cages] W = true) : OnlyOpt W a4 (planVictims a0 a1 a2 a3 a4) := by
  induction a3 generalizing a4 with
  | zero => exact OnlyOpt.some Only.rfl
  | succ n ih =>
    unfold planVictims
    split
    · exact OnlyOpt.none
    · intro t e
      exact Only.after (ih t e) (planEvict_only (sub_trans rfl hW))

theorem modPlan_only {W : List Blk} {a0 : Nat} {a1 : Plan → Plan} {a2 : Machine.State} (hW : sub [.cages] W = true) : Only W a2 (modPlan a0 a1 a2) := by
  unfold modPlan
  exact State.modCages_only (sub_trans rfl hW)

theorem giveFrame_only {W : List Blk} {a0 : Nat} {a1 : Nat} {a2 : Nat} {a3 : Nat} {a4 : Bool} {a5 : Machine.State} (hW : sub [.cages] W = true) : Only W a5 (giveFrame a0 a1 a2 a3 a4 a5) := by
  unfold giveFrame
  extract_lets +onlyGivenNames -merge -useContext -underBinder x0
  try clear_value x0
  split
  · extract_lets +onlyGivenNames -merge -useContext -underBinder x1
    have h2 : Only W a5 x1 := by
      unfold x1
      exact Only.after (State.modPage_only (sub_trans rfl hW)) (State.setFrame_only (sub_trans rfl hW))
    clear_value x1
    exact Only.after (State.modCages_only (sub_trans rfl hW)) (h2)
  · exact Only.after (modPlan_only (sub_trans rfl hW)) (State.setFrame_only (sub_trans rfl hW))
  · exact Only.after (State.modPage_only (sub_trans rfl hW)) (State.setFrame_only (sub_trans rfl hW))

theorem chooseFrame_only {W : List Blk} {f : Nat} {c : Bool} {a0 t : Machine.State} (hW : sub [.free] W = true) (h : chooseFrame a0 = some (f, c, t)) : Only W a0 t := by
  unfold chooseFrame at h
  extract_lets x0 at h
  split at h
  · split at h
    rename_i q
    cases h
    exact Only.ofEq (p := Prod.snd) (drawBelow_only (sub_trans rfl hW)) q Only.rfl
  · split at h
    rename_i q
    split at h
    · cases h
      exact Only.ofEq (p := Prod.snd) (drawBelow_only (sub_trans rfl hW)) q Only.rfl
    · cases h

theorem handOut_only {W : List Blk} {a0 : Nat} {a1 : Nat} {a2 : List Nat} {a3 : Machine.State} (hW : sub [.free, .cages] W = true) : OnlyVia Prod.snd W a3 (handOut a0 a1 a2 a3) := by
  induction a2 generalizing a3 with
  | nil => exact Only.rfl
  | cons hd tl ih =>
    unfold handOut
    split
    · exact Only.rfl
    · rename_i q
      exact Only.after ih (Only.after (giveFrame_only (sub_trans rfl hW)) (chooseFrame_only (sub_trans rfl hW) q))

theorem modMove_only {W : List Blk} {a0 : Nat} {a1 : Nat} {a2 : Move → Move} {a3 : Machine.State} (hW : sub [.cages] W = true) : Only W a3 (modMove a0 a1 a2 a3) := by
  unfold modMove
  exact State.modCages_only (sub_trans rfl hW)

-- SKIP Sys2Proof.Machine.moveOf

theorem dropMove_only {W : List Blk} {a0 : Nat} {a1 : Nat} {a2 : Machine.State} (hW : sub [.cages] W = true) : Only W a2 (dropMove a0 a1 a2) := by
  unfold dropMove
  exact State.modCages_only (sub_trans rfl hW)

-- SKIP Sys2Proof.Machine.poolAddr
-- SKIP Sys2Proof.Machine.piecePoisoned
-- SKIP Sys2Proof.Machine.pieceBytes

theorem evictStep_only {W : List Blk} {a0 : Nat} {a1 : Nat} {a2 : Nat} {a3 : Machine.State} (hW : sub [.host, .cages] W = true) : Only W a3 (evictStep a0 a1 a2 a3) := by
  induction a2 generalizing a0 a1 a3 with
  | zero =>
    unfold evictStep
    exact Only.rfl
  | succ n ih =>
    unfold evictStep
    split
    · exact Only.rfl
    · refine Only.ite (fun _ => ?_) (fun _ => ?_)
      · exact Only.rfl
      · extract_lets +onlyGivenNames -merge -useContext -underBinder x0
        try clear_value x0
        extract_lets +onlyGivenNames -merge -useContext -underBinder x1
        try clear_value x1
        extract_lets +onlyGivenNames -merge -useContext -underBinder x2
        try clear_value x2
        split
        · exact pushReq_only (sub_trans rfl hW)
        · extract_lets +onlyGivenNames -merge -useContext -underBinder x3
          have h4 : Only W a3 x3 := by
            unfold x3
            refine Only.ite (fun _ => ?_) (fun _ => ?_)
            · exact State.modPage_only (sub_trans rfl hW)
            · exact Only.rfl
          clear_value x3
          extract_lets +onlyGivenNames -merge -useContext -underBinder x5
          have h6 : Only W a3 x5 := by
            unfold x5
            exact Only.after (postPage_only (sub_trans rfl hW)) (Only.after (atcTouch_only (sub_trans rfl hW)) (h4))
          clear_value x5
          exact Only.after (by apply ih) (Only.after (modMove_only (sub_trans rfl hW)) (h6))

theorem restoreStep_only {W : List Blk} {a0 : Nat} {a1 : Nat} {a2 : Machine.State} (hW : sub [.host] W = true) : Only W a2 (restoreStep a0 a1 a2) := by
  unfold restoreStep
  split
  · exact Only.rfl
  · refine Only.ite (fun _ => ?_) (fun _ => ?_)
    · exact Only.rfl
    · exact hostRead_only (sub_trans rfl hW)

theorem startMove_only {W : List Blk} {a0 : Nat} {a1 : Nat} {a2 : Machine.State} (hW : sub [.host, .cages] W = true) : Only W a2 (startMove a0 a1 a2) := by
  unfold startMove
  split
  · exact Only.rfl
  · extract_lets +onlyGivenNames -merge -useContext -underBinder x0
    have h1 : Only W a2 x0 := by
      unfold x0
      exact modMove_only (sub_trans rfl hW)
    clear_value x0
    refine Only.ite (fun _ => ?_) (fun _ => ?_)
    · extract_lets +onlyGivenNames -merge -useContext -underBinder x2
      have h3 : Only W a2 x2 := by
        unfold x2
        refine Only.ite (fun _ => ?_) (fun _ => ?_)
        · exact h1
        · exact Only.after (State.setFrame_only (sub_trans rfl hW)) (h1)
      clear_value x2
      exact Only.after (evictStep_only (sub_trans rfl hW)) (Only.after (State.modPage_only (sub_trans rfl hW)) (h3))
    · exact Only.after (restoreStep_only (sub_trans rfl hW)) (h1)

theorem kickMoves_only {W : List Blk} {a0 : Nat} {a1 : Machine.State} (hW : sub [.host, .cages] W = true) : Only W a1 (kickMoves a0 a1) := by
  induction a0 generalizing a1 with
  | zero =>
    unfold kickMoves
    exact Only.rfl
  | succ n ih =>
    unfold kickMoves
    refine Only.ite (fun _ => ?_) (fun _ => ?_)
    · exact Only.rfl
    · split
      · exact Only.rfl
      · exact Only.after (by apply ih) (startMove_only (sub_trans rfl hW))

theorem makePlan_only {W : List Blk} {a0 : Nat} {a1 : Nat} {a2 : List Nat} {a3 : List Nat} {a4 : Machine.State} (hW : sub [.free, .host, .cages] W = true) : OnlyOpt W a4 (makePlan a0 a1 a2 a3 a4) := by
  unfold makePlan
  extract_lets +onlyGivenNames -merge -useContext -underBinder x0
  try clear_value x0
  extract_lets +onlyGivenNames -merge -useContext -underBinder x1
  try clear_value x1
  split
  · exact OnlyOpt.none
  · rename_i y3 q4
    have h2 := Only.after (W := W) (s := a4) (planVictims_only (sub_trans rfl hW) _ q4) (by
      exact Only.rfl
      )
    extract_lets +onlyGivenNames -merge -useContext -underBinder x5
    have h6 : Only W a4 x5 := by
      unfold x5
      exact Only.after (State.modCages_only (sub_trans rfl hW)) (h2)
    clear_value x5
    split
    · rename_i y8 y9 q10
      have h7 := Only.ofEq (p := Prod.snd) (handOut_only (sub_trans rfl hW)) q10 (W := W) (s := a4) (by
        exact h6
        )
      extract_lets +onlyGivenNames -merge -useContext -underBinder x11
      have h12 : Only W a4 x11 := by
        unfold x11
        exact Only.after (modPlan_only (sub_trans rfl hW)) (h7)
      clear_value x11
      refine OnlyOpt.some ?_
      exact Only.after (kickMoves_only (sub_trans rfl hW)) (h12)

theorem dropPlans_only {W : List Blk} {a0 : Machine.State} (hW : sub [.cages] W = true) : Only W a0 (dropPlans a0) := by
  unfold dropPlans
  exact State.modCages_only (sub_trans rfl hW)

theorem feedPlan_only {W : List Blk} {a0 : Nat} {a1 : Nat} {a2 : Machine.State} (hW : sub [.cages] W = true) : Only W a2 (feedPlan a0 a1 a2) := by
  unfold feedPlan
  split
  · exact Only.rfl
  · split
    · exact Only.rfl
    · exact Only.after (giveFrame_only (sub_trans rfl hW)) (modPlan_only (sub_trans rfl hW))

theorem unmapPage_only {W : List Blk} {a0 : Nat} {a1 : Nat} {a2 : Machine.State} (hW : sub [.cages] W = true) : Only W a2 (unmapPage a0 a1 a2) := by
  unfold unmapPage
  extract_lets +onlyGivenNames -merge -useContext -underBinder x0
  try clear_value x0
  extract_lets +onlyGivenNames -merge -useContext -underBinder x1
  have h2 : Only W a2 x1 := by
    unfold x1
    refine Only.ite (fun _ => ?_) (fun _ => ?_)
    · split
      · refine Only.ite (fun _ => ?_) (fun _ => ?_)
        · exact State.setFrame_only (sub_trans rfl hW)
        · exact Only.rfl
      · refine Only.ite (fun _ => ?_) (fun _ => ?_)
        · exact State.setFrame_only (sub_trans rfl hW)
        · exact Only.rfl
      · exact Only.rfl
    · exact Only.rfl
  clear_value x1
  exact Only.after (State.modPage_only (sub_trans rfl hW)) (Only.after (dropMove_only (sub_trans rfl hW)) (h2))

theorem cancelPlans_only {W : List Blk} {a0 : Nat} {a1 : Machine.State} (hW : sub [.cages] W = true) : Only W a1 (cancelPlans a0 a1) := by
  unfold cancelPlans
  extract_lets +onlyGivenNames -merge -useContext -underBinder x0
  try clear_value x0
  extract_lets +onlyGivenNames -merge -useContext -underBinder x1
  try clear_value x1
  extract_lets +onlyGivenNames -merge -useContext -underBinder x2
  try clear_value x2
  extract_lets +onlyGivenNames -merge -useContext -underBinder x3
  have h4 : Only W a1 x3 := by
    unfold x3
    refine Only.foldl (fun t5 _ => ?_) ?_
    · exact Only.after (State.modPage_only (sub_trans rfl hW)) (dropMove_only (sub_trans rfl hW))
    · exact Only.rfl
  clear_value x3
  extract_lets +onlyGivenNames -merge -useContext -underBinder x6
  have h7 : Only W a1 x6 := by
    unfold x6
    refine Only.after (forEach_only (fun _ t8 => ?_)) ?_
    · exact State.setFrame_only (sub_trans rfl hW)
    · exact h4
  clear_value x6
  exact Only.after (dropPlans_only (sub_trans rfl hW)) (Only.after (State.modCages_only (sub_trans rfl hW)) (h7))

theorem evictedRec_only {W : List Blk} {a0 : Nat} {a1 : Nat} {a2 : Machine.State} (hW : sub [.host, .rings] W = true) : Only W a2 (evictedRec a0 a1 a2) := by
  unfold evictedRec
  split
  · exact Only.rfl
  · refine Only.ite (fun _ => ?_) (fun _ => ?_)
    · exact Only.rfl
    · exact reportCtl_only (sub_trans rfl hW)

theorem evictDone_only {W : List Blk} {a0 : Nat} {a1 : Nat} {a2 : Machine.State} (hW : sub [.host, .rings, .cages] W = true) : Only W a2 (evictDone a0 a1 a2) := by
  unfold evictDone
  split
  · exact Only.rfl
  · extract_lets +onlyGivenNames -merge -useContext -underBinder x0
    try clear_value x0
    extract_lets +onlyGivenNames -merge -useContext -underBinder x1
    have h2 : Only W a2 x1 := by
      unfold x1
      exact dropMove_only (sub_trans rfl hW)
    clear_value x1
    extract_lets +onlyGivenNames -merge -useContext -underBinder x3
    have h4 : Only W a2 x3 := by
      unfold x3
      exact Only.after (State.modPage_only (sub_trans rfl hW)) (h2)
    clear_value x3
    extract_lets +onlyGivenNames -merge -useContext -underBinder x5
    have h6 : Only W a2 x5 := by
      unfold x5
      refine Only.ite (fun _ => ?_) (fun _ => ?_)
      · exact h4
      · exact Only.after (State.setFrame_only (sub_trans rfl hW)) (h4)
    clear_value x5
    extract_lets +onlyGivenNames -merge -useContext -underBinder x7
    have h8 : Only W a2 x7 := by
      unfold x7
      exact Only.after (modPlan_only (sub_trans rfl hW)) (h6)
    clear_value x7
    extract_lets +onlyGivenNames -merge -useContext -underBinder x9
    have h10 : Only W a2 x9 := by
      unfold x9
      exact Only.after (evictedRec_only (sub_trans rfl hW)) (h8)
    clear_value x9
    extract_lets +onlyGivenNames -merge -useContext -underBinder x11
    have h12 : Only W a2 x11 := by
      unfold x11
      refine Only.ite (fun _ => ?_) (fun _ => ?_)
      · exact h10
      · exact Only.after (feedPlan_only (sub_trans rfl hW)) (h10)
    clear_value x11
    extract_lets +onlyGivenNames -merge -useContext -underBinder x13
    have h14 : Only W a2 x13 := by
      unfold x13
      refine Only.foldl (fun t15 _ => ?_) ?_
      · refine Only.ite (fun _ => ?_) (fun _ => ?_)
        · exact Only.after (giveFrame_only (sub_trans rfl hW)) (modPlan_only (sub_trans rfl hW))
        · exact Only.rfl
      · exact h12
    clear_value x13
    exact Only.after (kickMoves_only (sub_trans rfl hW)) (Only.after (dropPlans_only (sub_trans rfl hW)) (h14))

theorem restoreDone_only {W : List Blk} {a0 : Nat} {a1 : Nat} {a2 : Machine.State} (hW : sub [.host, .rings, .cages, .mem] W = true) : Only W a2 (restoreDone a0 a1 a2) := by
  unfold restoreDone
  extract_lets +onlyGivenNames -merge -useContext -underBinder x0
  try clear_value x0
  extract_lets +onlyGivenNames -merge -useContext -underBinder x1
  have h2 : Only W a2 x1 := by
    unfold x1
    exact dropMove_only (sub_trans rfl hW)
  clear_value x1
  extract_lets +onlyGivenNames -merge -useContext -underBinder x3
  have h4 : Only W a2 x3 := by
    unfold x3
    exact Only.after (State.modPage_only (sub_trans rfl hW)) (Only.after (State.setFrame_only (sub_trans rfl hW)) (h2))
  clear_value x3
  extract_lets +onlyGivenNames -merge -useContext -underBinder x5
  have h6 : Only W a2 x5 := by
    unfold x5
    refine Only.ite (fun _ => ?_) (fun _ => ?_)
    · exact Only.after (reportCtl_only (sub_trans rfl hW)) (Only.after (poisonFrame_only (sub_trans rfl hW)) (h4))
    · exact h4
  clear_value x5
  exact Only.after (kickMoves_only (sub_trans rfl hW)) (Only.after (dropPlans_only (sub_trans rfl hW)) (h6))

theorem restoreFail_only {W : List Blk} {a0 : Nat} {a1 : Nat} {a2 : Machine.State} (hW : sub [.host, .rings, .cages, .mem] W = true) : Only W a2 (restoreFail a0 a1 a2) := by
  unfold restoreFail
  extract_lets +onlyGivenNames -merge -useContext -underBinder x0
  try clear_value x0
  extract_lets +onlyGivenNames -merge -useContext -underBinder x1
  have h2 : Only W a2 x1 := by
    unfold x1
    exact dropMove_only (sub_trans rfl hW)
  clear_value x1
  extract_lets +onlyGivenNames -merge -useContext -underBinder x3
  have h4 : Only W a2 x3 := by
    unfold x3
    exact Only.after (State.modPage_only (sub_trans rfl hW)) (Only.after (State.setFrame_only (sub_trans rfl hW)) (h2))
  clear_value x3
  exact Only.after (kickMoves_only (sub_trans rfl hW)) (Only.after (dropPlans_only (sub_trans rfl hW)) (Only.after (reportCtl_only (sub_trans rfl hW)) (Only.after (poisonFrame_only (sub_trans rfl hW)) (h4))))

theorem memGate_only {W : List Blk} {a0 : Nat} {a1 : Machine.State → Machine.State} {a2 : Machine.State} (hW : sub [.rings] W = true) (g0 : ∀ v0, Only W v0 (a1 v0)) : Only W a2 (memGate a0 a1 a2) := by
  unfold memGate
  refine Only.ite (fun _ => ?_) (fun _ => ?_)
  · exact endCmd_only (sub_trans rfl hW)
  · refine Only.ite (fun _ => ?_) (fun _ => ?_)
    · exact State.modCtx_only (sub_trans rfl hW)
    · exact Only.after (g0 _) (State.modCtx_only (sub_trans rfl hW))

-- SKIP Sys2Proof.Machine.pageReady
-- SKIP Sys2Proof.Machine.pageNeeds
-- SKIP Sys2Proof.Machine.pinBlocked

theorem prepare_only {W : List Blk} {a0 : Nat} {a1 : Machine.State} (hW : sub [.free, .host, .rings, .cages] W = true) : Only W a1 (prepare a0 a1) := by
  unfold prepare
  extract_lets +onlyGivenNames -merge -useContext -underBinder x0
  try clear_value x0
  refine Only.ite (fun _ => ?_) (fun _ => ?_)
  · exact Only.rfl
  · refine Only.ite (fun _ => ?_) (fun _ => ?_)
    · exact endCmd_only (sub_trans rfl hW)
    · refine Only.ite (fun _ => ?_) (fun _ => ?_)
      · exact State.modCtx_only (sub_trans rfl hW)
      · extract_lets +onlyGivenNames -merge -useContext -underBinder x1
        have h2 : Only W a1 x1 := by
          unfold x1
          exact State.modCtx_only (sub_trans rfl hW)
        clear_value x1
        extract_lets +onlyGivenNames -merge -useContext -underBinder x3
        try clear_value x3
        refine Only.ite (fun _ => ?_) (fun _ => ?_)
        · exact h2
        · split
          · rename_i y5 q6
            have h4 := Only.after (W := W) (s := a1) (makePlan_only (sub_trans rfl hW) _ q6) (by
              exact h2
              )
            exact h4
          · extract_lets +onlyGivenNames -merge -useContext -underBinder x7
            try clear_value x7
            refine Only.after (endCmd_only (sub_trans rfl hW)) ?_
            · refine Only.ite (fun _ => ?_) (fun _ => ?_)
              · refine Only.after (forEach_only (fun _ t8 => ?_)) ?_
                · exact State.modPage_only (sub_trans rfl hW)
                · exact h2
              · exact h2

theorem looseTail_only {W : List Blk} {a0 : Nat} {a1 : Nat} {a2 : Nat} {a3 : Machine.State} (hW : sub [.free, .mem] W = true) : Only W a3 (looseTail a0 a1 a2 a3) := by
  unfold looseTail
  split
  · rename_i y1 y2 q3
    have h0 := Only.ofEq (p := Prod.snd) (drawBytes_only (sub_trans rfl hW)) q3 (W := W) (s := a3) (by
      exact Only.rfl
      )
    split
    · rename_i y5 y6 q7
      have h4 := Only.ofEq (p := Prod.snd) (drawBytes_only (sub_trans rfl hW)) q7 (W := W) (s := a3) (by
        exact h0
        )
      extract_lets +onlyGivenNames -merge -useContext -underBinder x8
      try clear_value x8
      extract_lets +onlyGivenNames -merge -useContext -underBinder x9
      try clear_value x9
      refine Only.foldl (fun t10 _ => ?_) ?_
      · split
        · exact State.modMem_only (sub_trans rfl hW)
        · exact Only.rfl
      · exact h4

theorem h2dNext_only {W : List Blk} {a0 : Nat} {a1 : Machine.State} (hW : sub [.host, .rings] W = true) : Only W a1 (h2dNext a0 a1) := by
  unfold h2dNext
  extract_lets +onlyGivenNames -merge -useContext -underBinder x0
  try clear_value x0
  refine Only.ite (fun _ => ?_) (fun _ => ?_)
  · exact endOk_only (sub_trans rfl hW)
  · refine Only.ite (fun _ => ?_) (fun _ => ?_)
    · exact Only.rfl
    · exact hostRead_only (sub_trans rfl hW)

theorem endingOr_only {W : List Blk} {a0 : Nat} {a1 : Machine.State → Machine.State} {a2 : Machine.State} (hW : sub [.rings] W = true) (g0 : ∀ v0, Only W v0 (a1 v0)) : Only W a2 (endingOr a0 a1 a2) := by
  unfold endingOr
  refine Only.ite (fun _ => ?_) (fun _ => ?_)
  · exact endCmd_only (sub_trans rfl hW)
  · exact g0 _

theorem h2dData_only {W : List Blk} {a0 : Nat} {a1 : Nat} {a2 : Bytes} {a3 : Machine.State} (hW : sub [.host, .rings, .cages, .mem] W = true) : Only W a3 (h2dData a0 a1 a2 a3) := by
  unfold h2dData
  extract_lets +onlyGivenNames -merge -useContext -underBinder x0
  try clear_value x0
  extract_lets +onlyGivenNames -merge -useContext -underBinder x1
  try clear_value x1
  split
  · rename_i y3 y4 q5
    have h2 := Only.ofEq (p := Prod.fst) (devWrite_only (sub_trans rfl hW)) q5 (W := W) (s := a3) (by
      exact Only.rfl
      )
    split
    · exact Only.after (endCmd_only (sub_trans rfl hW)) (h2)
    · refine Only.after (endingOr_only (sub_trans rfl hW) (fun t6 => ?_)) ?_
      · exact h2dNext_only (sub_trans rfl hW)
      · exact Only.after (State.modCtx_only (sub_trans rfl hW)) (h2)

theorem d2hRun_only {W : List Blk} {a0 : Nat} {a1 : Nat} {a2 : Machine.State} (hW : sub [.host, .rings] W = true) : Only W a2 (d2hRun a0 a1 a2) := by
  induction a1 generalizing a0 a2 with
  | zero =>
    unfold d2hRun
    exact Only.rfl
  | succ n ih =>
    unfold d2hRun
    extract_lets +onlyGivenNames -merge -useContext -underBinder x0
    try clear_value x0
    refine Only.ite (fun _ => ?_) (fun _ => ?_)
    · exact endOk_only (sub_trans rfl hW)
    · refine Only.ite (fun _ => ?_) (fun _ => ?_)
      · exact Only.rfl
      · extract_lets +onlyGivenNames -merge -useContext -underBinder x1
        try clear_value x1
        extract_lets +onlyGivenNames -merge -useContext -underBinder x2
        try clear_value x2
        split
        · exact pushReq_only (sub_trans rfl hW)
        · split
          · extract_lets +onlyGivenNames -merge -useContext -underBinder x3
            have h4 : Only W a2 x3 := by
              unfold x3
              refine Only.ite (fun _ => ?_) (fun _ => ?_)
              · exact Only.rfl
              · exact Only.after (post_only (sub_trans rfl hW)) (atcTouch_only (sub_trans rfl hW))
            clear_value x3
            split
            · exact Only.after (endCmd_only (sub_trans rfl hW)) (h4)
            · exact Only.after (by apply ih) (Only.after (State.modCtx_only (sub_trans rfl hW)) (h4))

theorem d2dRun_only {W : List Blk} {a0 : Nat} {a1 : Machine.State} (hW : sub [.rings, .cages, .mem] W = true) : Only W a1 (d2dRun a0 a1) := by
  unfold d2dRun
  extract_lets +onlyGivenNames -merge -useContext -underBinder x0
  try clear_value x0
  extract_lets +onlyGivenNames -merge -useContext -underBinder x1
  try clear_value x1
  extract_lets +onlyGivenNames -merge -useContext -underBinder x2
  try clear_value x2
  extract_lets +onlyGivenNames -merge -useContext -underBinder x3
  try clear_value x3
  split
  · split
    · rename_i y5 y6 q7
      have h4 := Only.ofEq (p := Prod.fst) (devWrite_only (sub_trans rfl hW)) q7 (W := W) (s := a1) (by
        exact Only.rfl
        )
      split
      · exact Only.after (endCmd_only (sub_trans rfl hW)) (h4)
      · exact Only.after (endCmd_only (sub_trans rfl hW)) (h4)
      · exact Only.after (endOk_only (sub_trans rfl hW)) (h4)

theorem fillRun_only {W : List Blk} {a0 : Nat} {a1 : Machine.State} (hW : sub [.rings, .cages, .mem] W = true) : Only W a1 (fillRun a0 a1) := by
  unfold fillRun
  extract_lets +onlyGivenNames -merge -useContext -underBinder x0
  try clear_value x0
  extract_lets +onlyGivenNames -merge -useContext -underBinder x1
  try clear_value x1
  extract_lets +onlyGivenNames -merge -useContext -underBinder x2
  try clear_value x2
  extract_lets +onlyGivenNames -merge -useContext -underBinder x3
  try clear_value x3
  split
  · rename_i y5 y6 q7
    have h4 := Only.ofEq (p := Prod.fst) (devWrite_only (sub_trans rfl hW)) q7 (W := W) (s := a1) (by
      exact Only.rfl
      )
    split
    · exact Only.after (endCmd_only (sub_trans rfl hW)) (h4)
    · exact Only.after (endOk_only (sub_trans rfl hW)) (h4)

theorem beginPages_only {W : List Blk} {a0 : Nat} {a1 : List Nat} {a2 : List Nat} {a3 : Machine.State} (hW : sub [.free, .host, .rings, .cages] W = true) : Only W a3 (beginPages a0 a1 a2 a3) := by
  unfold beginPages
  exact Only.after (prepare_only (sub_trans rfl hW)) (State.modCtx_only (sub_trans rfl hW))

theorem bodyCopy_only {W : List Blk} {a0 : Nat} {a1 : Machine.State} (hW : sub [.free, .host, .rings, .cages] W = true) : Only W a1 (bodyCopy a0 a1) := by
  unfold bodyCopy
  extract_lets +onlyGivenNames -merge -useContext -underBinder x0
  try clear_value x0
  extract_lets +onlyGivenNames -merge -useContext -underBinder x1
  try clear_value x1
  split
  · refine Only.after (memGate_only (sub_trans rfl hW) (fun t2 => ?_)) ?_
    · exact beginPages_only (sub_trans rfl hW)
    · exact Only.rfl
  · refine Only.after (memGate_only (sub_trans rfl hW) (fun t3 => ?_)) ?_
    · exact beginPages_only (sub_trans rfl hW)
    · exact Only.rfl
  · refine Only.after (memGate_only (sub_trans rfl hW) (fun t4 => ?_)) ?_
    · exact beginPages_only (sub_trans rfl hW)
    · exact Only.rfl
  · refine Only.after (memGate_only (sub_trans rfl hW) (fun t5 => ?_)) ?_
    · exact beginPages_only (sub_trans rfl hW)
    · exact Only.rfl

theorem copyFail_only {W : List Blk} {a0 : Nat} {a1 : Nat} {a2 : Nat} {a3 : Machine.State} (hW : sub [.free, .rings, .mem] W = true) : Only W a3 (copyFail a0 a1 a2 a3) := by
  unfold copyFail
  extract_lets +onlyGivenNames -merge -useContext -underBinder x0
  try clear_value x0
  extract_lets +onlyGivenNames -merge -useContext -underBinder x1
  have h2 : Only W a3 x1 := by
    unfold x1
    refine Only.ite (fun _ => ?_) (fun _ => ?_)
    · exact looseTail_only (sub_trans rfl hW)
    · exact Only.rfl
  clear_value x1
  refine Only.after (endingOr_only (sub_trans rfl hW) (fun t3 => ?_)) ?_
  · exact endCmd_only (sub_trans rfl hW)
  · exact h2

-- SKIP Sys2Proof.Machine.State.event

theorem State.setEvent_only {W : List Blk} {a0 : Machine.State} {a1 : Nat} {a2 : Nat} {a3 : W64} (hW : sub [.rings] W = true) : Only W a0 (State.setEvent a0 a1 a2 a3) := by
  unfold State.setEvent
  exact State.modRings_only (sub_trans rfl hW)

theorem bodySignal_only {W : List Blk} {a0 : Nat} {a1 : Machine.State} (hW : sub [.rings] W = true) : Only W a1 (bodySignal a0 a1) := by
  unfold bodySignal
  extract_lets +onlyGivenNames -merge -useContext -underBinder x0
  try clear_value x0
  extract_lets +onlyGivenNames -merge -useContext -underBinder x1
  try clear_value x1
  extract_lets +onlyGivenNames -merge -useContext -underBinder x2
  try clear_value x2
  exact Only.after (endOk_only (sub_trans rfl hW)) (State.setEvent_only (sub_trans rfl hW))

-- SKIP Sys2Proof.Machine.waitMet

theorem bodyWait_only {W : List Blk} {a0 : Nat} {a1 : Machine.State} (hW : sub [.rings] W = true) : Only W a1 (bodyWait a0 a1) := by
  unfold bodyWait
  extract_lets +onlyGivenNames -merge -useContext -underBinder x0
  try clear_value x0
  refine Only.ite (fun _ => ?_) (fun _ => ?_)
  · exact endOk_only (sub_trans rfl hW)
  · exact State.modCtx_only (sub_trans rfl hW)

theorem bodyHostWrite_only {W : List Blk} {a0 : Nat} {a1 : Machine.State} (hW : sub [.host, .rings] W = true) : Only W a1 (bodyHostWrite a0 a1) := by
  unfold bodyHostWrite
  extract_lets +onlyGivenNames -merge -useContext -underBinder x0
  try clear_value x0
  extract_lets +onlyGivenNames -merge -useContext -underBinder x1
  try clear_value x1
  extract_lets +onlyGivenNames -merge -useContext -underBinder x2
  have h3 : Only W a1 x2 := by
    unfold x2
    exact State.modCtx_only (sub_trans rfl hW)
  clear_value x2
  refine Only.ite (fun _ => ?_) (fun _ => ?_)
  · exact h3
  · split
    · exact Only.after (pushReq_only (sub_trans rfl hW)) (h3)
    · exact Only.after (endOk_only (sub_trans rfl hW)) (Only.after (post_only (sub_trans rfl hW)) (Only.after (atcTouch_only (sub_trans rfl hW)) (h3)))

theorem bodySched_only {W : List Blk} {a0 : Nat} {a1 : Machine.State} (hW : sub [.rings, .cages] W = true) : Only W a1 (bodySched a0 a1) := by
  unfold bodySched
  extract_lets +onlyGivenNames -merge -useContext -underBinder x0
  try clear_value x0
  extract_lets +onlyGivenNames -merge -useContext -underBinder x1
  try clear_value x1
  split
  · exact endCmd_only (sub_trans rfl hW)
  · exact endCmd_only (sub_trans rfl hW)
  · exact endCmd_only (sub_trans rfl hW)
  · exact Only.after (endOk_only (sub_trans rfl hW)) (State.modCage_only (sub_trans rfl hW))

-- SKIP Sys2Proof.Machine.stickyCount

theorem mapPage_only {W : List Blk} {a0 : Nat} {a1 : Bool} {a2 : Nat} {a3 : Machine.State} (hW : sub [.cages] W = true) : Only W a3 (mapPage a0 a1 a2 a3) := by
  unfold mapPage
  exact State.modPage_only (sub_trans rfl hW)

theorem bodyMap_only {W : List Blk} {a0 : Nat} {a1 : Machine.State} (hW : sub [.free, .host, .rings, .cages] W = true) : Only W a1 (bodyMap a0 a1) := by
  unfold bodyMap
  extract_lets +onlyGivenNames -merge -useContext -underBinder x0
  try clear_value x0
  extract_lets +onlyGivenNames -merge -useContext -underBinder x1
  try clear_value x1
  extract_lets +onlyGivenNames -merge -useContext -underBinder x2
  try clear_value x2
  extract_lets +onlyGivenNames -merge -useContext -underBinder x3
  try clear_value x3
  extract_lets +onlyGivenNames -merge -useContext -underBinder x4
  try clear_value x4
  extract_lets +onlyGivenNames -merge -useContext -underBinder x5
  try clear_value x5
  refine Only.after (memGate_only (sub_trans rfl hW) (fun t6 => ?_)) ?_
  · refine Only.ite (fun _ => ?_) (fun _ => ?_)
    · exact endCmd_only (sub_trans rfl hW)
    · refine Only.ite (fun _ => ?_) (fun _ => ?_)
      · exact endCmd_only (sub_trans rfl hW)
      · refine Only.ite (fun _ => ?_) (fun _ => ?_)
        · exact endCmd_only (sub_trans rfl hW)
        · extract_lets +onlyGivenNames -merge -useContext -underBinder x7
          have h8 : Only W t6 x7 := by
            unfold x7
            refine Only.after (forEach_only (fun _ t9 => ?_)) ?_
            · exact mapPage_only (sub_trans rfl hW)
            · exact Only.rfl
          clear_value x7
          refine Only.ite (fun _ => ?_) (fun _ => ?_)
          · exact Only.after (beginPages_only (sub_trans rfl hW)) (h8)
          · exact Only.after (endOk_only (sub_trans rfl hW)) (h8)
  · exact Only.rfl

-- SKIP Sys2Proof.Machine.registeredPage

theorem bodyUnmap_only {W : List Blk} {a0 : Nat} {a1 : Machine.State} (hW : sub [.rings, .cages] W = true) : Only W a1 (bodyUnmap a0 a1) := by
  unfold bodyUnmap
  extract_lets +onlyGivenNames -merge -useContext -underBinder x0
  try clear_value x0
  extract_lets +onlyGivenNames -merge -useContext -underBinder x1
  try clear_value x1
  refine Only.ite (fun _ => ?_) (fun _ => ?_)
  · exact endCmd_only (sub_trans rfl hW)
  · refine Only.ite (fun _ => ?_) (fun _ => ?_)
    · exact endCmd_only (sub_trans rfl hW)
    · extract_lets +onlyGivenNames -merge -useContext -underBinder x2
      have h3 : Only W a1 x2 := by
        unfold x2
        refine Only.after (forEach_only (fun _ t4 => ?_)) ?_
        · exact State.modPage_only (sub_trans rfl hW)
        · exact Only.rfl
      clear_value x2
      exact Only.after (State.modCtx_only (sub_trans rfl hW)) (h3)

-- SKIP Sys2Proof.Machine.unmapReady

theorem bodyPool_only {W : List Blk} {a0 : Nat} {a1 : Machine.State} (hW : sub [.rings, .cages] W = true) : Only W a1 (bodyPool a0 a1) := by
  unfold bodyPool
  extract_lets +onlyGivenNames -merge -useContext -underBinder x0
  try clear_value x0
  refine Only.ite (fun _ => ?_) (fun _ => ?_)
  · exact endCmd_only (sub_trans rfl hW)
  · extract_lets +onlyGivenNames -merge -useContext -underBinder x1
    try clear_value x1
    exact Only.after (endOk_only (sub_trans rfl hW)) (State.modCage_only (sub_trans rfl hW))

theorem bodyCreate_only {W : List Blk} {a0 : Nat} {a1 : Machine.State} (hW : sub [.rings, .cages] W = true) : Only W a1 (bodyCreate a0 a1) := by
  unfold bodyCreate
  extract_lets +onlyGivenNames -merge -useContext -underBinder x0
  try clear_value x0
  extract_lets +onlyGivenNames -merge -useContext -underBinder x1
  try clear_value x1
  split
  · exact endCmd_only (sub_trans rfl hW)
  · exact endCmd_only (sub_trans rfl hW)
  · exact endCmd_only (sub_trans rfl hW)
  · extract_lets +onlyGivenNames -merge -useContext -underBinder x2
    have h3 : Only W a1 x2 := by
      unfold x2
      exact State.modCage_only (sub_trans rfl hW)
    clear_value x2
    exact Only.after (endOk_only (sub_trans rfl hW)) (Only.after (State.modRings_only (sub_trans rfl hW)) (h3))

theorem bodyQuota_only {W : List Blk} {a0 : Nat} {a1 : Machine.State} (hW : sub [.rings] W = true) : Only W a1 (bodyQuota a0 a1) := by
  unfold bodyQuota
  split
  · exact endCmd_only (sub_trans rfl hW)
  · exact endCmd_only (sub_trans rfl hW)
  · exact endCmd_only (sub_trans rfl hW)
  · exact endOk_only (sub_trans rfl hW)

theorem bodyPolicy_only {W : List Blk} {a0 : Nat} {a1 : Machine.State} (hW : sub [.adit, .rings] W = true) : Only W a1 (bodyPolicy a0 a1) := by
  unfold bodyPolicy
  extract_lets +onlyGivenNames -merge -useContext -underBinder x0
  try clear_value x0
  extract_lets +onlyGivenNames -merge -useContext -underBinder x1
  have h2 : Only W a1 x1 := by
    unfold x1
    exact State.modRings_only (sub_trans rfl hW)
  clear_value x1
  exact Only.after (a3Up_only (sub_trans rfl hW)) (Only.after (State.modCtx_only (sub_trans rfl hW)) (h2))

-- SKIP Sys2Proof.Machine.State.group

theorem State.modGroup_only {W : List Blk} {a0 : Machine.State} {a1 : Nat} {a2 : Group → Group} (hW : sub [.beat] W = true) : Only W a0 (State.modGroup a0 a1 a2) := by
  unfold State.modGroup
  exact State.modBeat_only (sub_trans rfl hW)

-- SKIP Sys2Proof.Machine.State.clus

theorem State.modClus_only {W : List Blk} {a0 : Machine.State} {a1 : Nat} {a2 : Clus → Clus} (hW : sub [.beat] W = true) : Only W a0 (State.modClus a0 a1 a2) := by
  unfold State.modClus
  exact State.modBeat_only (sub_trans rfl hW)

theorem traceAdd_only {W : List Blk} {a0 : Nat} {a1 : Nat} {a2 : Nat} {a3 : Machine.State} (hW : sub [.mgmt] W = true) : Only W a3 (traceAdd a0 a1 a2 a3) := by
  unfold traceAdd
  refine Only.ite (fun _ => ?_) (fun _ => ?_)
  · exact Only.rfl
  · extract_lets +onlyGivenNames -merge -useContext -underBinder x0
    try clear_value x0
    extract_lets +onlyGivenNames -merge -useContext -underBinder x1
    try clear_value x1
    exact State.modMgmt_only (sub_trans rfl hW)

theorem traceFreezeNow_only {W : List Blk} {a0 : Machine.State} (hW : sub [.mgmt] W = true) : Only W a0 (traceFreezeNow a0) := by
  unfold traceFreezeNow
  refine Only.ite (fun _ => ?_) (fun _ => ?_)
  · exact State.modMgmt_only (sub_trans rfl hW)
  · exact Only.rfl

theorem sampleGates_only {W : List Blk} {a0 : Nat} {a1 : Nat → Tbl W32} {a2 : Machine.State} (hW : sub [.beat] W = true) : Only W a2 (sampleGates a0 a1 a2) := by
  unfold sampleGates
  refine Only.after (forEach_only (fun _ t0 => ?_)) ?_
  · exact State.modClus_only (sub_trans rfl hW)
  · exact Only.rfl

-- SKIP Sys2Proof.Machine.groupAdm
-- SKIP Sys2Proof.Machine.physClus
-- SKIP Sys2Proof.Machine.incoming

theorem addStream_only {W : List Blk} {a0 : Machine.Stream} {a1 : Machine.State} (hW : sub [.beat] W = true) : Only W a1 (addStream a0 a1) := by
  unfold addStream
  exact State.modBeat_only (sub_trans rfl hW)

theorem looseStores_only {W : List Blk} {a0 : Nat} {a1 : Nat} {a2 : List Nat} {a3 : Machine.State} (hW : sub [.beat] W = true) : Only W a3 (looseStores a0 a1 a2 a3) := by
  unfold looseStores
  extract_lets +onlyGivenNames -merge -useContext -underBinder x0
  try clear_value x0
  refine Only.ite (fun _ => ?_) (fun _ => ?_)
  · exact Only.rfl
  · exact State.modBeat_only (sub_trans rfl hW)

-- SKIP Sys2Proof.Machine.shadowPiece

theorem modStream_only {W : List Blk} {a0 : Nat} {a1 : Machine.Stream → Machine.Stream} {a2 : Machine.State} (hW : sub [.beat] W = true) : Only W a2 (modStream a0 a1 a2) := by
  unfold modStream
  exact State.modBeat_only (sub_trans rfl hW)

theorem shadowPost_only {W : List Blk} {a0 : Machine.Stream} {a1 : Nat} {a2 : W64} {a3 : Machine.State} (hW : sub [.free, .host, .cages] W = true) : Only W a3 (shadowPost a0 a1 a2 a3) := by
  unfold shadowPost
  extract_lets +onlyGivenNames -merge -useContext -underBinder x0
  try clear_value x0
  split
  · extract_lets +onlyGivenNames -merge -useContext -underBinder x1
    have h2 : Only W a3 x1 := by
      unfold x1
      refine Only.ite (fun _ => ?_) (fun _ => ?_)
      · exact State.modPage_only (sub_trans rfl hW)
      · exact Only.rfl
    clear_value x1
    refine Only.ite (fun _ => ?_) (fun _ => ?_)
    · split
      · rename_i y4 y5 q6
        have h3 := Only.ofEq (p := Prod.snd) (drawBytes_only (sub_trans rfl hW)) q6 (W := W) (s := a3) (by
          exact h2
          )
        exact Only.after (post_only (sub_trans rfl hW)) (h3)
    · exact Only.after (post_only (sub_trans rfl hW)) (h2)

theorem shadowRequest_only {W : List Blk} {a0 : Machine.Stream} {a1 : Nat} {a2 : Machine.State} (hW : sub [.free, .host, .cages, .beat] W = true) : Only W a2 (shadowRequest a0 a1 a2) := by
  unfold shadowRequest
  extract_lets +onlyGivenNames -merge -useContext -underBinder x0
  try clear_value x0
  extract_lets +onlyGivenNames -merge -useContext -underBinder x1
  try clear_value x1
  refine Only.ite (fun _ => ?_) (fun _ => ?_)
  · exact Only.rfl
  · extract_lets +onlyGivenNames -merge -useContext -underBinder x2
    try clear_value x2
    extract_lets +onlyGivenNames -merge -useContext -underBinder x3
    have h4 : Only W a2 x3 := by
      unfold x3
      exact modStream_only (sub_trans rfl hW)
    clear_value x3
    refine Only.ite (fun _ => ?_) (fun _ => ?_)
    · exact Only.after (hostRead_only (sub_trans rfl hW)) (h4)
    · split
      · exact Only.after (shadowPost_only (sub_trans rfl hW)) (Only.after (atcTouch_only (sub_trans rfl hW)) (h4))
      · exact Only.after (pushReq_only (sub_trans rfl hW)) (h4)

theorem kickShadow_only {W : List Blk} {a0 : Machine.State} (hW : sub [.free, .host, .cages, .beat] W = true) : Only W a0 (kickShadow a0) := by
  unfold kickShadow
  refine Only.foldl (fun t0 _ => ?_) ?_
  · refine Only.after (forEach_only (fun _ t1 => ?_)) ?_
    · exact shadowRequest_only (sub_trans rfl hW)
    · exact Only.rfl
  · exact Only.rfl

-- SKIP Sys2Proof.Machine.outsideW

theorem issueStream_only {W : List Blk} {a0 : Nat} {a1 : Nat} {a2 : Nat} {a3 : Clus} {a4 : Machine.State} (hW : sub [.beat] W = true) : OnlyVia Prod.fst W a4 (issueStream a0 a1 a2 a3 a4) := by
  unfold issueStream
  extract_lets +onlyGivenNames -merge -useContext -underBinder x0
  try clear_value x0
  extract_lets +onlyGivenNames -merge -useContext -underBinder x1
  try clear_value x1
  refine Only.iteV (fun _ => ?_) (fun _ => ?_)
  · refine Only.via1 ?_
    exact Only.rfl
  · extract_lets +onlyGivenNames -merge -useContext -underBinder x2
    try clear_value x2
    extract_lets +onlyGivenNames -merge -useContext -underBinder x3
    try clear_value x3
    extract_lets +onlyGivenNames -merge -useContext -underBinder x4
    try clear_value x4
    extract_lets +onlyGivenNames -merge -useContext -underBinder x5
    try clear_value x5
    extract_lets +onlyGivenNames -merge -useContext -underBinder x6
    try clear_value x6
    extract_lets +onlyGivenNames -merge -useContext -underBinder x7
    try clear_value x7
    refine Only.iteV (fun _ => ?_) (fun _ => ?_)
    · refine Only.via1 ?_
      exact Only.rfl
    · refine Only.iteV (fun _ => ?_) (fun _ => ?_)
      · refine Only.via1 ?_
        exact Only.rfl
      · extract_lets +onlyGivenNames -merge -useContext -underBinder x8
        have h9 : Only W a4 x8 := by
          unfold x8
          exact addStream_only (sub_trans rfl hW)
        clear_value x8
        refine Only.via1 ?_
        exact h9

theorem countArrival_only {W : List Blk} {a0 : Nat} {a1 : Nat} {a2 : Machine.State} (hW : sub [.beat] W = true) : Only W a2 (countArrival a0 a1 a2) := by
  unfold countArrival
  exact State.modClus_only (sub_trans rfl hW)

theorem spWrite_only {W : List Blk} {a0 : Nat} {a1 : Nat} {a2 : Bytes} {a3 : List Bool} {a4 : Machine.State} (hW : sub [.beat] W = true) : Only W a4 (spWrite a0 a1 a2 a3 a4) := by
  unfold spWrite
  exact State.modClus_only (sub_trans rfl hW)

theorem pieceData_only {W : List Blk} {a0 : Machine.Stream} {a1 : Nat} {a2 : Bytes} {a3 : Machine.State} (hW : sub [.free] W = true) : OnlyVia Prod.snd W a3 (pieceData a0 a1 a2 a3) := by
  unfold pieceData
  refine Only.iteV (fun _ => ?_) (fun _ => ?_)
  · exact drawBytes_only (sub_trans rfl hW)
  · refine Only.via2 ?_
    exact Only.rfl

theorem landPiece_only {W : List Blk} {a0 : Machine.Stream} {a1 : Nat} {a2 : Option Bytes} {a3 : Machine.State} (hW : sub [.free, .beat, .mem] W = true) : Only W a3 (landPiece a0 a1 a2 a3) := by
  unfold landPiece
  extract_lets +onlyGivenNames -merge -useContext -underBinder x0
  try clear_value x0
  extract_lets +onlyGivenNames -merge -useContext -underBinder x1
  try clear_value x1
  extract_lets +onlyGivenNames -merge -useContext -underBinder x2
  try clear_value x2
  extract_lets +onlyGivenNames -merge -useContext -underBinder x3
  try clear_value x3
  extract_lets +onlyGivenNames -merge -useContext -underBinder x4
  have h5 : Only W a3 x4 := by
    unfold x4
    exact Only.after (modStream_only (sub_trans rfl hW)) (State.modClus_only (sub_trans rfl hW))
  clear_value x4
  extract_lets +onlyGivenNames -merge -useContext -underBinder x6
  have h7 : Only W a3 x6 := by
    unfold x6
    split
    · split
      · exact Only.after (spWrite_only (sub_trans rfl hW)) (h5)
      · split
        · exact Only.after (spWrite_only (sub_trans rfl hW)) (h5)
        · refine Only.ite (fun _ => ?_) (fun _ => ?_)
          · split
            · rename_i y9 y10 q11
              have h8 := Only.ofEq (p := Prod.snd) (drawBytes_only (sub_trans rfl hW)) q11 (W := W) (s := a3) (by
                exact h5
                )
              exact Only.after (spWrite_only (sub_trans rfl hW)) (h8)
          · split
            · rename_i y13 y14 q15
              have h12 := Only.ofEq (p := Prod.snd) (pieceData_only (sub_trans rfl hW)) q15 (W := W) (s := a3) (by
                exact h5
                )
              exact Only.after (spWrite_only (sub_trans rfl hW)) (h12)
    · refine Only.ite (fun _ => ?_) (fun _ => ?_)
      · exact h5
      · split
        · exact h5
        · split
          · split
            · rename_i y17 y18 q19
              have h16 := Only.ofEq (p := Prod.snd) (pieceData_only (sub_trans rfl hW)) q19 (W := W) (s := a3) (by
                exact h5
                )
              exact Only.after (setLinePoison_only (sub_trans rfl hW)) (Only.after (State.modMem_only (sub_trans rfl hW)) (h16))
    · split
      · extract_lets +onlyGivenNames -merge -useContext -underBinder x20
        try clear_value x20
        split
        · rename_i y22 y23 q24
          have h21 := Only.ofEq (p := Prod.snd) (pieceData_only (sub_trans rfl hW)) q24 (W := W) (s := a3) (by
            exact h5
            )
          exact Only.after (spWrite_only (sub_trans rfl hW)) (h21)
  clear_value x6
  extract_lets +onlyGivenNames -merge -useContext -underBinder x25
  have h26 : Only W a3 x25 := by
    unfold x25
    exact Only.after (countArrival_only (sub_trans rfl hW)) (h7)
  clear_value x25
  exact Only.after (State.modBeat_only (sub_trans rfl hW)) (h26)

-- SKIP Sys2Proof.Machine.shadowPending

theorem haltGroup_only {W : List Blk} {a0 : Nat} {a1 : Machine.State} (hW : sub [.beat] W = true) : Only W a1 (haltGroup a0 a1) := by
  unfold haltGroup
  exact State.modGroup_only (sub_trans rfl hW)

theorem noteBreach_only {W : List Blk} {a0 : Nat} {a1 : Nat} {a2 : Machine.State} (hW : sub [.beat, .mgmt] W = true) : Only W a2 (noteBreach a0 a1 a2) := by
  unfold noteBreach
  exact Only.after (traceFreezeNow_only (sub_trans rfl hW)) (Only.after (traceAdd_only (sub_trans rfl hW)) (State.modGroup_only (sub_trans rfl hW)))

theorem endOfSlot_only {W : List Blk} {a0 : Nat} {a1 : Bool} {a2 : Machine.State} (hW : sub [.beat, .mgmt] W = true) : Only W a2 (endOfSlot a0 a1 a2) := by
  unfold endOfSlot
  extract_lets +onlyGivenNames -merge -useContext -underBinder x0
  try clear_value x0
  refine Only.ite (fun _ => ?_) (fun _ => ?_)
  · exact Only.after (haltGroup_only (sub_trans rfl hW)) (State.modGroup_only (sub_trans rfl hW))
  · refine Only.ite (fun _ => ?_) (fun _ => ?_)
    · exact haltGroup_only (sub_trans rfl hW)
    · refine Only.ite (fun _ => ?_) (fun _ => ?_)
      · exact Only.after (haltGroup_only (sub_trans rfl hW)) (traceAdd_only (sub_trans rfl hW))
      · exact Only.rfl

theorem beatOf_only {W : List Blk} {a0 : Nat} {a1 : Nat} {a2 : Bool} {a3 : Machine.State} (hW : sub [.free, .beat] W = true) : OnlyVia Prod.fst W a3 (beatOf a0 a1 a2 a3) := by
  unfold beatOf
  extract_lets +onlyGivenNames -merge -useContext -underBinder x0
  try clear_value x0
  extract_lets +onlyGivenNames -merge -useContext -underBinder x1
  try clear_value x1
  extract_lets +onlyGivenNames -merge -useContext -underBinder x2
  have h3 : Only W a3 x2 := by
    unfold x2
    exact Only.after (looseStores_only (sub_trans rfl hW)) (Only.after (State.modClus_only (sub_trans rfl hW)) (Only.put (V := [.free, .beat]) (Only.rfl) (fun b hb => by cases b <;> first | exact Eq.refl _ | exact absurd hb (by decide)) hW))
  clear_value x2
  refine Only.via1 ?_
  exact h3

theorem runBeat_only {W : List Blk} {a0 : Nat} {a1 : Machine.State} (hW : sub [.free, .beat] W = true) : OnlyVia Prod.fst W a1 (runBeat a0 a1) := by
  unfold runBeat
  extract_lets +onlyGivenNames -merge -useContext -underBinder n last pre r
  have h : OnlyVia Prod.fst W a1 r := Only.foldlV (fun t _ => beatOf_only (sub_trans rfl hW)) Only.rfl
  clear_value r
  refine Only.foldlV (fun t _ => ?_) h
  extract_lets
  split
  · exact issueStream_only (sub_trans rfl hW)
  · exact Only.rfl

theorem countMoved_only {W : List Blk} {a0 : Nat} {a1 : Machine.State} (hW : sub [.beat] W = true) : Only W a1 (countMoved a0 a1) := by
  unfold countMoved
  refine Only.after (forEach_only (fun _ t0 => ?_)) ?_
  · exact State.modClus_only (sub_trans rfl hW)
  · exact Only.rfl

theorem heldSlot_only {W : List Blk} {a0 : Nat} {a1 : Machine.State} (hW : sub [.beat, .mgmt] W = true) : Only W a1 (heldSlot a0 a1) := by
  unfold heldSlot
  extract_lets +onlyGivenNames -merge -useContext -underBinder x0
  try clear_value x0
  extract_lets +onlyGivenNames -merge -useContext -underBinder x1
  have h2 : Only W a1 x1 := by
    unfold x1
    exact State.modGroup_only (sub_trans rfl hW)
  clear_value x1
  refine Only.ite (fun _ => ?_) (fun _ => ?_)
  · exact Only.after (traceAdd_only (sub_trans rfl hW)) (Only.after (State.modGroup_only (sub_trans rfl hW)) (h2))
  · exact h2

theorem slotStep_only {W : List Blk} {a0 : Nat} {a1 : Machine.State} (hW : sub [.free, .host, .cages, .beat, .mgmt] W = true) : Only W a1 (slotStep a0 a1) := by
  unfold slotStep
  extract_lets +onlyGivenNames -merge -useContext -underBinder x0
  try clear_value x0
  extract_lets +onlyGivenNames -merge -useContext -underBinder x1
  try clear_value x1
  extract_lets +onlyGivenNames -merge -useContext -underBinder x2
  try clear_value x2
  extract_lets +onlyGivenNames -merge -useContext -underBinder x3
  have h4 : Only W a1 x3 := by
    unfold x3
    exact Only.after (countMoved_only (sub_trans rfl hW)) (State.modGroup_only (sub_trans rfl hW))
  clear_value x3
  extract_lets +onlyGivenNames -merge -useContext -underBinder x5
  try clear_value x5
  refine Only.ite (fun _ => ?_) (fun _ => ?_)
  · exact Only.after (endOfSlot_only (sub_trans rfl hW)) (Only.after (sampleGates_only (sub_trans rfl hW)) (h4))
  · refine Only.ite (fun _ => ?_) (fun _ => ?_)
    · exact Only.after (endOfSlot_only (sub_trans rfl hW)) (Only.after (sampleGates_only (sub_trans rfl hW)) (Only.after (heldSlot_only (sub_trans rfl hW)) (h4)))
    · extract_lets +onlyGivenNames -merge -useContext -underBinder x6
      have h7 : Only W a1 x6 := by
        unfold x6
        exact Only.after (State.modGroup_only (sub_trans rfl hW)) (h4)
      clear_value x6
      split
      · rename_i y9 y10 q11
        have h8 := Only.ofEq (p := Prod.fst) (runBeat_only (sub_trans rfl hW)) q11 (W := W) (s := a1) (by
          exact h7
          )
        extract_lets +onlyGivenNames -merge -useContext -underBinder x12
        try clear_value x12
        extract_lets +onlyGivenNames -merge -useContext -underBinder x13
        have h14 : Only W a1 x13 := by
          unfold x13
          split
          · refine Only.ite (fun _ => ?_) (fun _ => ?_)
            · exact h8
            · exact Only.after (noteBreach_only (sub_trans rfl hW)) (h8)
          · exact h8
        clear_value x13
        extract_lets +onlyGivenNames -merge -useContext -underBinder x15
        have h16 : Only W a1 x15 := by
          unfold x15
          exact Only.after (State.modGroup_only (sub_trans rfl hW)) (h14)
        clear_value x15
        exact Only.after (endOfSlot_only (sub_trans rfl hW)) (Only.after (kickShadow_only (sub_trans rfl hW)) (Only.after (sampleGates_only (sub_trans rfl hW)) (h16)))

-- SKIP Sys2Proof.Machine.unmetCluster

theorem dropStreams_only {W : List Blk} {a0 : Nat} {a1 : Machine.State} (hW : sub [.free, .host, .beat, .mem] W = true) : Only W a1 (dropStreams a0 a1) := by
  unfold dropStreams
  extract_lets +onlyGivenNames -merge -useContext -underBinder x0
  have h1 : Only W a1 x0 := by
    unfold x0
    refine Only.foldl (fun t2 _ => ?_) ?_
    · refine Only.ite (fun _ => ?_) (fun _ => ?_)
      · refine Only.after (forEach_only (fun _ t3 => ?_)) ?_
        · split
          · rename_i y5 y6 q7
            have h4 := Only.ofEq (p := Prod.snd) (draw_only (sub_trans rfl hW)) q7 (W := W) (s := t3) (by
              exact Only.rfl
              )
            refine Only.ite (fun _ => ?_) (fun _ => ?_)
            · exact Only.after (landPiece_only (sub_trans rfl hW)) (h4)
            · exact h4
        · exact Only.rfl
      · exact Only.rfl
    · exact Only.rfl
  clear_value x0
  extract_lets +onlyGivenNames -merge -useContext -underBinder x8
  have h9 : Only W a1 x8 := by
    unfold x8
    exact Only.after (State.modBeat_only (sub_trans rfl hW)) (h1)
  clear_value x8
  exact Only.after (State.modHost_only (sub_trans rfl hW)) (h9)

-- SKIP Sys2Proof.Machine.State.adm

end Sys2Proof.Machine
end

