-- ==== Sys2Proof/Laws/FrameCage.lean ====
section
/-! SUPPORT. Frame lemmas: the parts of the state that each operation may change, for admissions, what a command makes possible, the host link and the stacks.
Each says of one operation that from the state it is given nothing but the parts it names changes. -/

namespace Sys2Proof.Machine

open Sys2Proof

theorem State.modAdm_only {W : List Blk} {a0 : Machine.State} {a1 : Nat} {a2 : Adm → Adm} (hW : sub [.cages] W = true) : Only W a0 (State.modAdm a0 a1 a2) := by
  unfold State.modAdm
  exact State.modCages_only (sub_trans rfl hW)

-- SKIP Sys2Proof.Machine.admOfGroup
-- SKIP Sys2Proof.Machine.clusterFmax
-- SKIP Sys2Proof.Machine.usableAt
-- SKIP Sys2Proof.Machine.eligible
-- SKIP Sys2Proof.Machine.flexF
-- SKIP Sys2Proof.Machine.clustersHeld
-- SKIP Sys2Proof.Machine.freeGroup
-- SKIP Sys2Proof.Machine.grantable

theorem releaseCluster_only {W : List Blk} {a0 : Nat} {a1 : Machine.State} (hW : sub [.beat] W = true) : Only W a1 (releaseCluster a0 a1) := by
  unfold releaseCluster
  exact State.modClus_only (sub_trans rfl hW)

theorem releaseGroup_only {W : List Blk} {a0 : Nat} {a1 : Machine.State} (hW : sub [.beat, .mgmt] W = true) : Only W a1 (releaseGroup a0 a1) := by
  unfold releaseGroup
  extract_lets +onlyGivenNames -merge -useContext -underBinder x0
  try clear_value x0
  extract_lets +onlyGivenNames -merge -useContext -underBinder x1
  have h2 : Only W a1 x1 := by
    unfold x1
    refine Only.ite (fun _ => ?_) (fun _ => ?_)
    · exact traceAdd_only (sub_trans rfl hW)
    · exact Only.rfl
  clear_value x1
  exact Only.after (State.modGroup_only (sub_trans rfl hW)) (h2)

theorem unpinPages_only {W : List Blk} {a0 : Adm} {a1 : Bool} {a2 : Machine.State} (hW : sub [.cages] W = true) : Only W a2 (unpinPages a0 a1 a2) := by
  unfold unpinPages
  extract_lets +onlyGivenNames -merge -useContext -underBinder x0
  have h1 : Only W a2 x0 := by
    unfold x0
    refine Only.after (forEach_only (fun _ t2 => ?_)) ?_
    · exact State.modPage_only (sub_trans rfl hW)
    · exact Only.rfl
  clear_value x0
  refine Only.after (forEach_only (fun _ t3 => ?_)) ?_
  · exact State.modPage_only (sub_trans rfl hW)
  · exact h1

theorem releaseAdm_only {W : List Blk} {a0 : Adm} {a1 : Machine.State} (hW : sub [.free, .host, .cages, .beat, .mem, .mgmt] W = true) : Only W a1 (releaseAdm a0 a1) := by
  unfold releaseAdm
  extract_lets +onlyGivenNames -merge -useContext -underBinder x0
  have h1 : Only W a1 x0 := by
    unfold x0
    refine Only.ite (fun _ => ?_) (fun _ => ?_)
    · exact unpinPages_only (sub_trans rfl hW)
    · exact Only.rfl
  clear_value x0
  extract_lets +onlyGivenNames -merge -useContext -underBinder x2
  have h3 : Only W a1 x2 := by
    unfold x2
    exact Only.after (cancelPlans_only (sub_trans rfl hW)) (h1)
  clear_value x2
  extract_lets +onlyGivenNames -merge -useContext -underBinder x4
  have h5 : Only W a1 x4 := by
    unfold x4
    refine Only.after (forEach_only (fun _ t6 => ?_)) ?_
    · exact releaseCluster_only (sub_trans rfl hW)
    · exact h3
  clear_value x4
  extract_lets +onlyGivenNames -merge -useContext -underBinder x7
  have h8 : Only W a1 x7 := by
    unfold x7
    refine Only.ite (fun _ => ?_) (fun _ => ?_)
    · exact h5
    · exact Only.after (releaseGroup_only (sub_trans rfl hW)) (Only.after (dropStreams_only (sub_trans rfl hW)) (h5))
  clear_value x7
  exact Only.after (State.modCages_only (sub_trans rfl hW)) (h8)

theorem withdraw_only {W : List Blk} {a0 : Adm} {a1 : Machine.State} (hW : sub [.adit] W = true) : Only W a1 (withdraw a0 a1) := by
  unfold withdraw
  refine Only.ite (fun _ => ?_) (fun _ => ?_)
  · exact a3Up_only (sub_trans rfl hW)
  · exact Only.rfl

theorem failAdm_only {W : List Blk} {a0 : Nat} {a1 : Nat} {a2 : Nat} {a3 : Nat} {a4 : Machine.State} (hW : sub [.free, .host, .rings, .cages, .beat, .mem, .mgmt] W = true) : Only W a4 (failAdm a0 a1 a2 a3 a4) := by
  unfold failAdm
  split
  · exact endCmd_only (sub_trans rfl hW)
  · exact Only.after (endCmd_only (sub_trans rfl hW)) (releaseAdm_only (sub_trans rfl hW))

-- SKIP Sys2Proof.Machine.countPlan

theorem failDeficit_only {W : List Blk} {a0 : Nat} {a1 : Deficit} {a2 : Machine.State} (hW : sub [.free, .host, .rings, .cages, .beat, .mem, .mgmt] W = true) : Only W a2 (failDeficit a0 a1 a2) := by
  unfold failDeficit
  exact failAdm_only (sub_trans rfl hW)

theorem spillPages_only {W : List Blk} {a0 : Nat} {a1 : Nat} {a2 : List Nat} {a3 : Machine.State} (hW : sub [.free, .cages] W = true) : Only W a3 (spillPages a0 a1 a2 a3) := by
  unfold spillPages
  refine Only.after (forEach_only (fun _ t0 => ?_)) ?_
  · split
    · exact planEvict_only (sub_trans rfl hW)
    · exact planEvict_only (sub_trans rfl hW)
    · exact Only.rfl
  · exact Only.rfl

theorem makeShadowPlan_only {W : List Blk} {a0 : Nat} {a1 : Nat} {a2 : List Nat} {a3 : List Nat} {a4 : List Nat} {a5 : Machine.State} (hW : sub [.free, .host, .cages] W = true) : OnlyOpt W a5 (makeShadowPlan a0 a1 a2 a3 a4 a5) := by
  unfold makeShadowPlan
  extract_lets +onlyGivenNames -merge -useContext -underBinder x0
  try clear_value x0
  extract_lets +onlyGivenNames -merge -useContext -underBinder x1
  try clear_value x1
  split
  · exact OnlyOpt.none
  · rename_i y3 q4
    have h2 := Only.after (W := W) (s := a5) (planVictims_only (sub_trans rfl hW) _ q4) (by
      exact Only.rfl
      )
    extract_lets +onlyGivenNames -merge -useContext -underBinder x5
    have h6 : Only W a5 x5 := by
      unfold x5
      exact Only.after (spillPages_only (sub_trans rfl hW)) (h2)
    clear_value x5
    extract_lets +onlyGivenNames -merge -useContext -underBinder x7
    have h8 : Only W a5 x7 := by
      unfold x7
      exact Only.after (State.modCages_only (sub_trans rfl hW)) (h6)
    clear_value x7
    split
    · rename_i y10 y11 q12
      have h9 := Only.ofEq (p := Prod.snd) (handOut_only (sub_trans rfl hW)) q12 (W := W) (s := a5) (by
        exact h8
        )
      refine OnlyOpt.some ?_
      exact Only.after (kickMoves_only (sub_trans rfl hW)) (Only.after (modPlan_only (sub_trans rfl hW)) (h9))

theorem planPages_only {W : List Blk} {a0 : Nat} {a1 : Machine.State} (hW : sub [.free, .host, .rings, .cages, .beat, .mem, .mgmt] W = true) : Only W a1 (planPages a0 a1) := by
  unfold planPages
  split
  · exact Only.rfl
  · extract_lets +onlyGivenNames -merge -useContext -underBinder x0
    try clear_value x0
    extract_lets +onlyGivenNames -merge -useContext -underBinder x1
    try clear_value x1
    extract_lets +onlyGivenNames -merge -useContext -underBinder x2
    try clear_value x2
    extract_lets +onlyGivenNames -merge -useContext -underBinder x3
    try clear_value x3
    refine Only.ite (fun _ => ?_) (fun _ => ?_)
    · exact failAdm_only (sub_trans rfl hW)
    · extract_lets +onlyGivenNames -merge -useContext -underBinder x4
      try clear_value x4
      refine Only.ite (fun _ => ?_) (fun _ => ?_)
      · extract_lets +onlyGivenNames -merge -useContext -underBinder x5
        have h6 : Only W a1 x5 := by
          unfold x5
          exact State.modAdm_only (sub_trans rfl hW)
        clear_value x5
        extract_lets +onlyGivenNames -merge -useContext -underBinder x7
        have h8 : Only W a1 x7 := by
          unfold x7
          exact Only.after (State.modCtx_only (sub_trans rfl hW)) (h6)
        clear_value x7
        split
        · rename_i y10 q11
          have h9 := Only.after (W := W) (s := a1) (makePlan_only (sub_trans rfl hW) _ q11) (by
            exact h8
            )
          exact h9
        · exact Only.after (failDeficit_only (sub_trans rfl hW)) (h8)
      · refine Only.ite (fun _ => ?_) (fun _ => ?_)
        · extract_lets +onlyGivenNames -merge -useContext -underBinder x12
          have h13 : Only W a1 x12 := by
            unfold x12
            exact State.modAdm_only (sub_trans rfl hW)
          clear_value x12
          extract_lets +onlyGivenNames -merge -useContext -underBinder x14
          have h15 : Only W a1 x14 := by
            unfold x14
            exact Only.after (State.modCtx_only (sub_trans rfl hW)) (h13)
          clear_value x14
          split
          · rename_i y17 q18
            have h16 := Only.after (W := W) (s := a1) (makeShadowPlan_only (sub_trans rfl hW) _ q18) (by
              exact h15
              )
            exact h16
          · exact Only.after (failDeficit_only (sub_trans rfl hW)) (h15)
        · exact failDeficit_only (sub_trans rfl hW)

theorem grantAdm_only {W : List Blk} {a0 : Nat} {a1 : Nat} {a2 : List Nat} {a3 : Machine.State} (hW : sub [.free, .host, .rings, .cages, .beat, .mem, .mgmt] W = true) : Only W a3 (grantAdm a0 a1 a2 a3) := by
  unfold grantAdm
  extract_lets +onlyGivenNames -merge -useContext -underBinder x0
  have h1 : Only W a3 x0 := by
    unfold x0
    exact State.modAdm_only (sub_trans rfl hW)
  clear_value x0
  extract_lets +onlyGivenNames -merge -useContext -underBinder x2
  have h3 : Only W a3 x2 := by
    unfold x2
    split
    · exact h1
    · exact Only.after (State.modGroup_only (sub_trans rfl hW)) (h1)
  clear_value x2
  extract_lets +onlyGivenNames -merge -useContext -underBinder x4
  have h5 : Only W a3 x4 := by
    unfold x4
    refine Only.after (forEach_only (fun _ t6 => ?_)) ?_
    · exact State.modClus_only (sub_trans rfl hW)
    · exact h3
  clear_value x4
  exact Only.after (planPages_only (sub_trans rfl hW)) (h5)

-- SKIP Sys2Proof.Machine.lockDisagrees

theorem admitImage_only {W : List Blk} {a0 : Nat} {a1 : Bytes} {a2 : Machine.State} (hW : sub [.free, .host, .rings, .cages, .beat, .mem, .mgmt] W = true) : Only W a2 (admitImage a0 a1 a2) := by
  unfold admitImage
  extract_lets +onlyGivenNames -merge -useContext -underBinder x0
  try clear_value x0
  extract_lets +onlyGivenNames -merge -useContext -underBinder x1
  try clear_value x1
  split
  · exact endCmd_only (sub_trans rfl hW)
  · refine Only.ite (fun _ => ?_) (fun _ => ?_)
    · exact endCmd_only (sub_trans rfl hW)
    · extract_lets +onlyGivenNames -merge -useContext -underBinder x2
      try clear_value x2
      extract_lets +onlyGivenNames -merge -useContext -underBinder x3
      try clear_value x3
      extract_lets +onlyGivenNames -merge -useContext -underBinder x4
      try clear_value x4
      split
      · exact endCmd_only (sub_trans rfl hW)
      · refine Only.ite (fun _ => ?_) (fun _ => ?_)
        · exact endCmd_only (sub_trans rfl hW)
        · refine Only.ite (fun _ => ?_) (fun _ => ?_)
          · exact endCmd_only (sub_trans rfl hW)
          · extract_lets +onlyGivenNames -merge -useContext -underBinder x5
            try clear_value x5
            extract_lets +onlyGivenNames -merge -useContext -underBinder x6
            try clear_value x6
            extract_lets +onlyGivenNames -merge -useContext -underBinder x7
            have h8 : Only W a2 x7 := by
              unfold x7
              exact State.modCtx_only (sub_trans rfl hW)
            clear_value x7
            extract_lets +onlyGivenNames -merge -useContext -underBinder x9
            try clear_value x9
            split
            · exact Only.after (grantAdm_only (sub_trans rfl hW)) (Only.after (State.modCages_only (sub_trans rfl hW)) (h8))
            · refine Only.ite (fun _ => ?_) (fun _ => ?_)
              · exact Only.after (State.modCages_only (sub_trans rfl hW)) (h8)
              · exact Only.after (endCmd_only (sub_trans rfl hW)) (h8)

theorem bodyAdmit_only {W : List Blk} {a0 : Nat} {a1 : Machine.State} (hW : sub [.free, .host, .rings, .cages] W = true) : Only W a1 (bodyAdmit a0 a1) := by
  unfold bodyAdmit
  extract_lets +onlyGivenNames -merge -useContext -underBinder x0
  try clear_value x0
  refine Only.after (memGate_only (sub_trans rfl hW) (fun t1 => ?_)) ?_
  · exact beginPages_only (sub_trans rfl hW)
  · exact Only.rfl

theorem admitRead_only {W : List Blk} {a0 : Nat} {a1 : Machine.State} (hW : sub [.free, .host, .rings, .cages, .beat, .mem, .mgmt] W = true) : Only W a1 (admitRead a0 a1) := by
  unfold admitRead
  extract_lets +onlyGivenNames -merge -useContext -underBinder x0
  try clear_value x0
  extract_lets +onlyGivenNames -merge -useContext -underBinder x1
  try clear_value x1
  split
  · split
    · exact endCmd_only (sub_trans rfl hW)
    · exact admitImage_only (sub_trans rfl hW)

theorem serveQueue_only {W : List Blk} {a0 : Machine.State} (hW : sub [.free, .host, .rings, .cages, .beat, .mem, .mgmt] W = true) : Only W a0 (serveQueue a0) := by
  unfold serveQueue
  split
  · exact Only.rfl
  · refine Only.ite (fun _ => ?_) (fun _ => ?_)
    · exact failAdm_only (sub_trans rfl hW)
    · split
      · exact grantAdm_only (sub_trans rfl hW)
      · exact Only.rfl

theorem residencyComplete_only {W : List Blk} {a0 : Nat} {a1 : Machine.State} (hW : sub [.free, .adit, .host, .rings, .cages, .beat, .mem, .mgmt] W = true) : Only W a1 (residencyComplete a0 a1) := by
  unfold residencyComplete
  split
  · exact Only.rfl
  · refine Only.ite (fun _ => ?_) (fun _ => ?_)
    · exact Only.rfl
    · refine Only.ite (fun _ => ?_) (fun _ => ?_)
      · exact failAdm_only (sub_trans rfl hW)
      · refine Only.ite (fun _ => ?_) (fun _ => ?_)
        · exact Only.rfl
        · extract_lets +onlyGivenNames -merge -useContext -underBinder x0
          have h1 : Only W a1 x0 := by
            unfold x0
            refine Only.after (forEach_only (fun _ t2 => ?_)) ?_
            · exact State.modPage_only (sub_trans rfl hW)
            · exact Only.rfl
          clear_value x0
          extract_lets +onlyGivenNames -merge -useContext -underBinder x3
          have h4 : Only W a1 x3 := by
            unfold x3
            refine Only.after (forEach_only (fun _ t5 => ?_)) ?_
            · exact State.modPage_only (sub_trans rfl hW)
            · exact h1
          clear_value x3
          extract_lets +onlyGivenNames -merge -useContext -underBinder x6
          have h7 : Only W a1 x6 := by
            unfold x6
            refine Only.foldl (fun t8 _ => ?_) ?_
            · exact State.modClus_only (sub_trans rfl hW)
            · exact h4
          clear_value x6
          extract_lets +onlyGivenNames -merge -useContext -underBinder x9
          have h10 : Only W a1 x9 := by
            unfold x9
            exact Only.after (State.modCtx_only (sub_trans rfl hW)) (h7)
          clear_value x9
          extract_lets +onlyGivenNames -merge -useContext -underBinder x11
          have h12 : Only W a1 x11 := by
            unfold x11
            exact Only.after (State.modAdm_only (sub_trans rfl hW)) (h10)
          clear_value x11
          exact Only.after (a3Up_only (sub_trans rfl hW)) (h12)

theorem startProgram_only {W : List Blk} {a0 : Nat} {a1 : Machine.State} (hW : sub [.adit, .host, .rings, .cages, .beat, .mgmt] W = true) : Only W a1 (startProgram a0 a1) := by
  unfold startProgram
  split
  · exact Only.rfl
  · refine Only.ite (fun _ => ?_) (fun _ => ?_)
    · exact Only.rfl
    · extract_lets +onlyGivenNames -merge -useContext -underBinder x0
      have h1 : Only W a1 x0 := by
        unfold x0
        exact State.modAdm_only (sub_trans rfl hW)
      clear_value x0
      extract_lets +onlyGivenNames -merge -useContext -underBinder x2
      have h3 : Only W a1 x2 := by
        unfold x2
        exact Only.after (State.modGroup_only (sub_trans rfl hW)) (h1)
      clear_value x2
      extract_lets +onlyGivenNames -merge -useContext -underBinder x4
      have h5 : Only W a1 x4 := by
        unfold x4
        exact Only.after (sampleGates_only (sub_trans rfl hW)) (h3)
      clear_value x4
      extract_lets +onlyGivenNames -merge -useContext -underBinder x6
      have h7 : Only W a1 x6 := by
        unfold x6
        exact Only.after (traceAdd_only (sub_trans rfl hW)) (Only.after (a3Up_only (sub_trans rfl hW)) (h5))
      clear_value x6
      extract_lets +onlyGivenNames -merge -useContext -underBinder x8
      have h9 : Only W a1 x8 := by
        unfold x8
        exact Only.after (reportCtl_only (sub_trans rfl hW)) (h7)
      clear_value x8
      refine Only.ite (fun _ => ?_) (fun _ => ?_)
      · exact Only.after (State.setEvent_only (sub_trans rfl hW)) (h9)
      · exact h9

theorem loadComplete_only {W : List Blk} {a0 : Nat} {a1 : Machine.State} (hW : sub [.adit, .host, .rings, .cages, .beat, .mgmt] W = true) : Only W a1 (loadComplete a0 a1) := by
  unfold loadComplete
  split
  · exact Only.rfl
  · refine Only.ite (fun _ => ?_) (fun _ => ?_)
    · exact Only.rfl
    · extract_lets +onlyGivenNames -merge -useContext -underBinder x0
      have h1 : Only W a1 x0 := by
        unfold x0
        refine Only.foldl (fun t2 _ => ?_) ?_
        · extract_lets +onlyGivenNames -merge -useContext -underBinder x3
          try clear_value x3
          extract_lets +onlyGivenNames -merge -useContext -underBinder x4
          try clear_value x4
          exact State.modClus_only (sub_trans rfl hW)
        · exact Only.rfl
      clear_value x0
      exact Only.after (startProgram_only (sub_trans rfl hW)) (Only.after (State.modAdm_only (sub_trans rfl hW)) (h1))

-- SKIP Sys2Proof.Machine.admResult

theorem endProgram_only {W : List Blk} {a0 : Nat} {a1 : Machine.State} (hW : sub [.free, .adit, .host, .rings, .cages, .beat, .mem, .mgmt] W = true) : Only W a1 (endProgram a0 a1) := by
  unfold endProgram
  split
  · exact Only.rfl
  · extract_lets +onlyGivenNames -merge -useContext -underBinder x0
    try clear_value x0
    extract_lets +onlyGivenNames -merge -useContext -underBinder x1
    try clear_value x1
    extract_lets +onlyGivenNames -merge -useContext -underBinder x2
    try clear_value x2
    extract_lets +onlyGivenNames -merge -useContext -underBinder x3
    have h4 : Only W a1 x3 := by
      unfold x3
      exact Only.after (traceAdd_only (sub_trans rfl hW)) (a3Up_only (sub_trans rfl hW))
    clear_value x3
    exact Only.after (endCmd_only (sub_trans rfl hW)) (Only.after (releaseAdm_only (sub_trans rfl hW)) (h4))

theorem programDone_only {W : List Blk} {a0 : Nat} {a1 : Machine.State} (hW : sub [.free, .adit, .host, .rings, .cages, .beat, .mem, .mgmt] W = true) : Only W a1 (programDone a0 a1) := by
  unfold programDone
  extract_lets +onlyGivenNames -merge -useContext -underBinder x0
  try clear_value x0
  refine Only.ite (fun _ => ?_) (fun _ => ?_)
  · exact endProgram_only (sub_trans rfl hW)
  · exact Only.rfl

theorem drainDone_only {W : List Blk} {a0 : Nat} {a1 : Machine.State} (hW : sub [.free, .adit, .host, .rings, .cages, .beat, .mem, .mgmt] W = true) : Only W a1 (drainDone a0 a1) := by
  unfold drainDone
  extract_lets +onlyGivenNames -merge -useContext -underBinder x0
  try clear_value x0
  refine Only.ite (fun _ => ?_) (fun _ => ?_)
  · exact Only.after (endProgram_only (sub_trans rfl hW)) (dropStreams_only (sub_trans rfl hW))
  · exact Only.rfl

theorem abortAdm_only {W : List Blk} {a0 : Nat} {a1 : Adm} {a2 : Machine.State} (hW : sub [.free, .adit, .host, .rings, .cages, .beat, .mem, .mgmt] W = true) : OnlyVia Prod.fst W a2 (abortAdm a0 a1 a2) := by
  unfold abortAdm
  refine Only.iteV (fun _ => ?_) (fun _ => ?_)
  · extract_lets +onlyGivenNames -merge -useContext -underBinder x0
    try clear_value x0
    refine Only.iteV (fun _ => ?_) (fun _ => ?_)
    · refine Only.via1 ?_
      extract_lets +onlyGivenNames -merge -useContext -underBinder x1
      have h2 : Only W a2 x1 := by
        unfold x1
        exact State.modGroup_only (sub_trans rfl hW)
      clear_value x1
      exact Only.after (State.modCtx_only (sub_trans rfl hW)) (h2)
    · refine Only.via1 ?_
      exact Only.rfl
  · refine Only.via1 ?_
    exact Only.after (failAdm_only (sub_trans rfl hW)) (Only.after (withdraw_only (sub_trans rfl hW)) (State.modCtx_only (sub_trans rfl hW)))

theorem abortAll_only {W : List Blk} {a0 : Nat} {a1 : List Adm} {a2 : Machine.State} (hW : sub [.free, .adit, .host, .rings, .cages, .beat, .mem, .mgmt] W = true) : OnlyVia Prod.fst W a2 (abortAll a0 a1 a2) := by
  induction a1 generalizing a0 a2 with
  | nil =>
    unfold abortAll
    refine Only.via1 ?_
    exact Only.rfl
  | cons hd tl ih =>
    unfold abortAll
    split
    · rename_i y1 y2 q3
      have h0 := Only.ofEq (p := Prod.fst) (abortAdm_only (sub_trans rfl hW)) q3 (W := W) (s := a2) (by
        exact Only.rfl
        )
      split
      · rename_i y5 y6 q7
        have h4 := Only.ofEq (p := Prod.fst) (by apply ih) q7 (W := W) (s := a2) (by
          exact h0
          )
        refine Only.via1 ?_
        exact h4

theorem bodyAbort_only {W : List Blk} {a0 : Nat} {a1 : Machine.State} (hW : sub [.free, .adit, .host, .rings, .cages, .beat, .mem, .mgmt] W = true) : Only W a1 (bodyAbort a0 a1) := by
  unfold bodyAbort
  extract_lets +onlyGivenNames -merge -useContext -underBinder x0
  try clear_value x0
  extract_lets +onlyGivenNames -merge -useContext -underBinder x1
  try clear_value x1
  extract_lets +onlyGivenNames -merge -useContext -underBinder x2
  try clear_value x2
  extract_lets +onlyGivenNames -merge -useContext -underBinder x3
  try clear_value x3
  split
  · rename_i y5 y6 q7
    have h4 := Only.ofEq (p := Prod.fst) (abortAll_only (sub_trans rfl hW)) q7 (W := W) (s := a1) (by
      exact Only.rfl
      )
    exact Only.after (endOk_only (sub_trans rfl hW)) (h4)

theorem dropAdm_only {W : List Blk} {a0 : Adm} {a1 : Machine.State} (hW : sub [.free, .adit, .host, .cages, .beat, .mem, .mgmt] W = true) : Only W a1 (dropAdm a0 a1) := by
  unfold dropAdm
  refine Only.ite (fun _ => ?_) (fun _ => ?_)
  · extract_lets +onlyGivenNames -merge -useContext -underBinder x0
    try clear_value x0
    extract_lets +onlyGivenNames -merge -useContext -underBinder x1
    have h2 : Only W a1 x1 := by
      unfold x1
      exact Only.after (traceAdd_only (sub_trans rfl hW)) (Only.after (traceAdd_only (sub_trans rfl hW)) (a3Up_only (sub_trans rfl hW)))
    clear_value x1
    exact Only.after (releaseAdm_only (sub_trans rfl hW)) (h2)
  · exact Only.after (releaseAdm_only (sub_trans rfl hW)) (withdraw_only (sub_trans rfl hW))

theorem failPlan_only {W : List Blk} {a0 : Plan} {a1 : Machine.State} (hW : sub [.free, .host, .rings, .cages, .beat, .mem, .mgmt] W = true) : Only W a1 (failPlan a0 a1) := by
  unfold failPlan
  extract_lets +onlyGivenNames -merge -useContext -underBinder x0
  try clear_value x0
  extract_lets +onlyGivenNames -merge -useContext -underBinder x1
  try clear_value x1
  split
  · exact failAdm_only (sub_trans rfl hW)
  · extract_lets +onlyGivenNames -merge -useContext -underBinder x2
    have h3 : Only W a1 x2 := by
      unfold x2
      exact cancelPlans_only (sub_trans rfl hW)
    clear_value x2
    refine Only.ite (fun _ => ?_) (fun _ => ?_)
    · refine Only.after (endCmd_only (sub_trans rfl hW)) ?_
      · refine Only.after (forEach_only (fun _ t4 => ?_)) ?_
        · exact unmapPage_only (sub_trans rfl hW)
        · exact h3
    · exact Only.after (endCmd_only (sub_trans rfl hW)) (h3)

theorem mendPlan_only {W : List Blk} {a0 : Nat} {a1 : Machine.State} (hW : sub [.free, .host, .rings, .cages, .beat, .mem, .mgmt] W = true) : Only W a1 (mendPlan a0 a1) := by
  unfold mendPlan
  split
  · exact Only.rfl
  · extract_lets +onlyGivenNames -merge -useContext -underBinder x0
    try clear_value x0
    refine Only.ite (fun _ => ?_) (fun _ => ?_)
    · exact Only.rfl
    · split
      · rename_i y2 y3 q4
        have h1 := Only.ofEq (p := Prod.snd) (handOut_only (sub_trans rfl hW)) q4 (W := W) (s := a1) (by
          exact Only.rfl
          )
        extract_lets +onlyGivenNames -merge -useContext -underBinder x5
        have h6 : Only W a1 x5 := by
          unfold x5
          exact Only.after (modPlan_only (sub_trans rfl hW)) (h1)
        clear_value x5
        refine Only.ite (fun _ => ?_) (fun _ => ?_)
        · exact Only.after (dropPlans_only (sub_trans rfl hW)) (h6)
        · split
          · rename_i y8 q9
            have h7 := Only.after (W := W) (s := a1) (planVictims_only (sub_trans rfl hW) _ q9) (by
              exact h6
              )
            exact Only.after (kickMoves_only (sub_trans rfl hW)) (h7)
          · exact Only.after (failPlan_only (sub_trans rfl hW)) (h6)

theorem evictFault_only {W : List Blk} {a0 : Nat} {a1 : Nat} {a2 : Nat} {a3 : Machine.State} (hW : sub [.free, .host, .rings, .cages, .beat, .mem, .mgmt] W = true) : Only W a3 (evictFault a0 a1 a2 a3) := by
  unfold evictFault
  split
  · exact Only.rfl
  · extract_lets +onlyGivenNames -merge -useContext -underBinder x0
    try clear_value x0
    extract_lets +onlyGivenNames -merge -useContext -underBinder x1
    try clear_value x1
    extract_lets +onlyGivenNames -merge -useContext -underBinder x2
    have h3 : Only W a3 x2 := by
      unfold x2
      exact dropMove_only (sub_trans rfl hW)
    clear_value x2
    extract_lets +onlyGivenNames -merge -useContext -underBinder x4
    have h5 : Only W a3 x4 := by
      unfold x4
      refine Only.ite (fun _ => ?_) (fun _ => ?_)
      · exact Only.after (State.modPage_only (sub_trans rfl hW)) (h3)
      · exact Only.after (State.modPage_only (sub_trans rfl hW)) (Only.after (State.setFrame_only (sub_trans rfl hW)) (h3))
    clear_value x4
    extract_lets +onlyGivenNames -merge -useContext -underBinder x6
    have h7 : Only W a3 x6 := by
      unfold x6
      exact Only.after (State.modCage_only (sub_trans rfl hW)) (h5)
    clear_value x6
    extract_lets +onlyGivenNames -merge -useContext -underBinder x8
    have h9 : Only W a3 x8 := by
      unfold x8
      exact Only.after (reportCtl_only (sub_trans rfl hW)) (h7)
    clear_value x8
    extract_lets +onlyGivenNames -merge -useContext -underBinder x10
    have h11 : Only W a3 x10 := by
      unfold x10
      split
      · exact h9
      · split
        · refine Only.ite (fun _ => ?_) (fun _ => ?_)
          · exact Only.after (failPlan_only (sub_trans rfl hW)) (h9)
          · exact h9
        · exact h9
    clear_value x10
    exact Only.after (kickMoves_only (sub_trans rfl hW)) (Only.after (mendPlan_only (sub_trans rfl hW)) (h11))

theorem restoreFailed_only {W : List Blk} {a0 : Nat} {a1 : Nat} {a2 : Nat} {a3 : Machine.State} (hW : sub [.free, .host, .rings, .cages, .beat, .mem, .mgmt] W = true) : Only W a3 (restoreFailed a0 a1 a2 a3) := by
  unfold restoreFailed
  extract_lets +onlyGivenNames -merge -useContext -underBinder x0
  have h1 : Only W a3 x0 := by
    unfold x0
    exact restoreFail_only (sub_trans rfl hW)
  clear_value x0
  extract_lets +onlyGivenNames -merge -useContext -underBinder x2
  try clear_value x2
  refine Only.after (forEach_only (fun _ t3 => ?_)) ?_
  · exact Only.after (failAdm_only (sub_trans rfl hW)) (cancelPlans_only (sub_trans rfl hW))
  · exact h1

theorem startMoving_only {W : List Blk} {a0 : Nat} {a1 : Machine.State} (hW : sub [.free, .host, .rings, .cages, .beat, .mem, .mgmt] W = true) : Only W a1 (startMoving a0 a1) := by
  unfold startMoving
  extract_lets +onlyGivenNames -merge -useContext -underBinder x0
  try clear_value x0
  extract_lets +onlyGivenNames -merge -useContext -underBinder x1
  have h2 : Only W a1 x1 := by
    unfold x1
    exact Only.after (touchPages_only (sub_trans rfl hW)) (State.modCtx_only (sub_trans rfl hW))
  clear_value x1
  split
  · exact Only.after (h2dNext_only (sub_trans rfl hW)) (h2)
  · exact Only.after (d2hRun_only (sub_trans rfl hW)) (h2)
  · exact Only.after (d2dRun_only (sub_trans rfl hW)) (h2)
  · exact Only.after (fillRun_only (sub_trans rfl hW)) (h2)
  · exact Only.after (admitRead_only (sub_trans rfl hW)) (h2)
  · exact Only.after (endOk_only (sub_trans rfl hW)) (h2)

theorem advance_only {W : List Blk} {a0 : Nat} {a1 : Machine.State} (hW : sub [.free, .host, .rings, .cages, .beat, .mem, .mgmt] W = true) : Only W a1 (advance a0 a1) := by
  unfold advance
  extract_lets +onlyGivenNames -merge -useContext -underBinder x0
  try clear_value x0
  refine Only.ite (fun _ => ?_) (fun _ => ?_)
  · exact Only.rfl
  · extract_lets +onlyGivenNames -merge -useContext -underBinder x1
    have h2 : Only W a1 x1 := by
      unfold x1
      refine Only.ite (fun _ => ?_) (fun _ => ?_)
      · exact Only.rfl
      · exact prepare_only (sub_trans rfl hW)
    clear_value x1
    extract_lets +onlyGivenNames -merge -useContext -underBinder x3
    try clear_value x3
    refine Only.ite (fun _ => ?_) (fun _ => ?_)
    · exact Only.after (startMoving_only (sub_trans rfl hW)) (h2)
    · exact h2

theorem spillLate_only {W : List Blk} {a0 : Machine.State} (hW : sub [.free, .host, .cages] W = true) : Only W a0 (spillLate a0) := by
  unfold spillLate
  refine Only.foldl (fun t0 _ => ?_) ?_
  · refine Only.ite (fun _ => ?_) (fun _ => ?_)
    · extract_lets +onlyGivenNames -merge -useContext -underBinder x1
      try clear_value x1
      refine Only.ite (fun _ => ?_) (fun _ => ?_)
      · exact Only.rfl
      · exact Only.after (kickMoves_only (sub_trans rfl hW)) (spillPages_only (sub_trans rfl hW))
    · exact Only.rfl
  · exact Only.rfl

theorem progress_only {W : List Blk} {a0 : Machine.State} (hW : sub [.free, .host, .rings, .cages, .beat, .mem, .mgmt] W = true) : Only W a0 (progress a0) := by
  unfold progress
  refine Only.after (spillLate_only (sub_trans rfl hW)) ?_
  · refine Only.after (forEach_only (fun _ t0 => ?_)) ?_
    · exact advance_only (sub_trans rfl hW)
    · exact Only.rfl

-- SKIP Sys2Proof.Machine.ctxPending

theorem resumeCtx_only {W : List Blk} {a0 : Nat} {a1 : Machine.State} (hW : sub [.host, .rings] W = true) : Only W a1 (resumeCtx a0 a1) := by
  unfold resumeCtx
  extract_lets +onlyGivenNames -merge -useContext -underBinder x0
  try clear_value x0
  refine Only.ite (fun _ => ?_) (fun _ => ?_)
  · exact Only.rfl
  · split
    · exact h2dNext_only (sub_trans rfl hW)
    · exact d2hRun_only (sub_trans rfl hW)
    · exact bodyHostWrite_only (sub_trans rfl hW)
    · exact Only.rfl

-- SKIP Sys2Proof.Machine.movePending

theorem resumeMove_only {W : List Blk} {a0 : Move} {a1 : Machine.State} (hW : sub [.host, .cages] W = true) : Only W a1 (resumeMove a0 a1) := by
  unfold resumeMove
  refine Only.ite (fun _ => ?_) (fun _ => ?_)
  · exact Only.rfl
  · refine Only.ite (fun _ => ?_) (fun _ => ?_)
    · exact evictStep_only (sub_trans rfl hW)
    · exact restoreStep_only (sub_trans rfl hW)

theorem resumeFn_only {W : List Blk} {a0 : Nat} {a1 : Machine.State} (hW : sub [.free, .host, .rings, .cages, .beat] W = true) : Only W a1 (resumeFn a0 a1) := by
  unfold resumeFn
  extract_lets +onlyGivenNames -merge -useContext -underBinder x0
  have h1 : Only W a1 x0 := by
    unfold x0
    refine Only.after (forEach_only (fun _ t2 => ?_)) ?_
    · exact resumeCtx_only (sub_trans rfl hW)
    · exact Only.rfl
  clear_value x0
  extract_lets +onlyGivenNames -merge -useContext -underBinder x3
  have h4 : Only W a1 x3 := by
    unfold x3
    refine Only.foldl (fun t5 _ => ?_) ?_
    · exact resumeMove_only (sub_trans rfl hW)
    · exact h1
  clear_value x3
  exact Only.after (kickShadow_only (sub_trans rfl hW)) (Only.after (flushReports_only (sub_trans rfl hW)) (h4))

theorem flushMsi_only {W : List Blk} {a0 : Nat} {a1 : Machine.State} (hW : sub [.host] W = true) : Only W a1 (flushMsi a0 a1) := by
  unfold flushMsi
  refine Only.foldl (fun t0 _ => ?_) ?_
  · exact sendMsi_only (sub_trans rfl hW)
  · exact Only.rfl

-- SKIP Sys2Proof.Machine.fetchWindow
-- SKIP Sys2Proof.Machine.readingCond

theorem dblCheck_only {W : List Blk} {a0 : Nat} {a1 : Machine.State} (hW : sub [.host] W = true) : Only W a1 (dblCheck a0 a1) := by
  unfold dblCheck
  extract_lets +onlyGivenNames -merge -useContext -underBinder x0
  try clear_value x0
  exact State.modFn_only (sub_trans rfl hW)

-- SKIP Sys2Proof.Machine.dblTags

theorem issueDoorbell_only {W : List Blk} {a0 : Nat} {a1 : DblKind} {a2 : Machine.State} (hW : sub [.host] W = true) : Only W a2 (issueDoorbell a0 a1 a2) := by
  unfold issueDoorbell
  extract_lets +onlyGivenNames -merge -useContext -underBinder x0
  try clear_value x0
  refine Only.ite (fun _ => ?_) (fun _ => ?_)
  · exact Only.rfl
  · refine Only.ite (fun _ => ?_) (fun _ => ?_)
    · exact State.modFn_only (sub_trans rfl hW)
    · split
      · exact pushReq_only (sub_trans rfl hW)
      · extract_lets +onlyGivenNames -merge -useContext -underBinder x1
        have h2 : Only W a2 x1 := by
          unfold x1
          exact State.modHost_only (sub_trans rfl hW)
        clear_value x1
        exact Only.after (State.modFn_only (sub_trans rfl hW)) (Only.after (atcTouch_only (sub_trans rfl hW)) (h2))

theorem newIndex_only {W : List Blk} {a0 : Nat} {a1 : W32} {a2 : Machine.State} (hW : sub [.host, .rings] W = true) : Only W a2 (newIndex a0 a1 a2) := by
  unfold newIndex
  extract_lets +onlyGivenNames -merge -useContext -underBinder x0
  try clear_value x0
  extract_lets +onlyGivenNames -merge -useContext -underBinder x1
  try clear_value x1
  extract_lets +onlyGivenNames -merge -useContext -underBinder x2
  have h3 : Only W a2 x2 := by
    unfold x2
    exact State.modRing_only (sub_trans rfl hW)
  clear_value x2
  refine Only.ite (fun _ => ?_) (fun _ => ?_)
  · extract_lets +onlyGivenNames -merge -useContext -underBinder x4
    try clear_value x4
    exact Only.after (stopRing_only (sub_trans rfl hW)) (h3)
  · exact h3

theorem lnFallback_only {W : List Blk} {a0 : Nat} {a1 : Nat} {a2 : Machine.State} (hW : sub [.host, .rings] W = true) : Only W a2 (lnFallback a0 a1 a2) := by
  unfold lnFallback
  extract_lets +onlyGivenNames -merge -useContext -underBinder x0
  have h1 : Only W a2 x0 := by
    unfold x0
    exact State.modFn_only (sub_trans rfl hW)
  clear_value x0
  exact Only.after (reportCtl_only (sub_trans rfl hW)) (h1)

theorem dblData_only {W : List Blk} {a0 : Nat} {a1 : DblKind} {a2 : Bytes} {a3 : Machine.State} (hW : sub [.host, .rings] W = true) : Only W a3 (dblData a0 a1 a2 a3) := by
  unfold dblData
  extract_lets +onlyGivenNames -merge -useContext -underBinder x0 x1 x2 x3 x4 x5 x6 x7 x8
  have h3 : Only W a3 x3 := State.modFn_only (sub_trans rfl hW)
  have h5 : Only W a3 x5 := Only.after (State.modFn_only (sub_trans rfl hW)) h3
  have h7 : Only W a3 x7 := Only.after (State.modFn_only (sub_trans rfl hW)) h5
  have h8 : Only W a3 x8 := by
    refine Only.ite (fun _ => h5) (fun _ => Only.ite (fun _ => ?_) (fun _ => h7))
    exact Only.after (lnFallback_only (sub_trans rfl hW)) h7
  exact Only.after (forEach_only (fun _ t => newIndex_only (sub_trans rfl hW))) h8

theorem dblFailed_only {W : List Blk} {a0 : Nat} {a1 : Nat} {a2 : Machine.State} (hW : sub [.host, .rings] W = true) : Only W a2 (dblFailed a0 a1 a2) := by
  unfold dblFailed
  extract_lets +onlyGivenNames -merge -useContext -underBinder x0
  try clear_value x0
  refine Only.ite (fun _ => ?_) (fun _ => ?_)
  · extract_lets +onlyGivenNames -merge -useContext -underBinder x1
    have h2 : Only W a2 x1 := by
      unfold x1
      exact State.modFn_only (sub_trans rfl hW)
    clear_value x1
    exact Only.after (dblCheck_only (sub_trans rfl hW)) (Only.after (reportCtl_only (sub_trans rfl hW)) (h2))
  · exact State.modFn_only (sub_trans rfl hW)

theorem popDoorbell_only {W : List Blk} {a0 : Nat} {a1 : DblKind → Machine.State → Machine.State} {a2 : Machine.State} (hW : sub [.host] W = true) (g0 : ∀ v0 v1, Only W v1 (a1 v0 v1)) : Only W a2 (popDoorbell a0 a1 a2) := by
  unfold popDoorbell
  split
  · exact Only.rfl
  · extract_lets +onlyGivenNames -merge -useContext -underBinder x0
    have h1 : Only W a2 x0 := by
      unfold x0
      exact State.modFn_only (sub_trans rfl hW)
    clear_value x0
    refine Only.ite (fun _ => ?_) (fun _ => ?_)
    · exact h1
    · exact Only.after (g0 _ _) (h1)

theorem issueDescr_only {W : List Blk} {a0 : Nat} {a1 : Machine.State} (hW : sub [.host, .rings] W = true) : Only W a1 (issueDescr a0 a1) := by
  unfold issueDescr
  extract_lets +onlyGivenNames -merge -useContext -underBinder x0
  try clear_value x0
  extract_lets +onlyGivenNames -merge -useContext -underBinder x1
  try clear_value x1
  extract_lets +onlyGivenNames -merge -useContext -underBinder x2
  try clear_value x2
  refine Only.ite (fun _ => ?_) (fun _ => ?_)
  · exact Only.rfl
  · extract_lets +onlyGivenNames -merge -useContext -underBinder x3
    try clear_value x3
    split
    · refine Only.ite (fun _ => ?_) (fun _ => ?_)
      · exact Only.rfl
      · exact pushReq_only (sub_trans rfl hW)
    · extract_lets +onlyGivenNames -merge -useContext -underBinder x4
      have h5 : Only W a1 x4 := by
        unfold x4
        exact State.modHost_only (sub_trans rfl hW)
      clear_value x4
      exact Only.after (State.modSlot_only (sub_trans rfl hW)) (Only.after (atcTouch_only (sub_trans rfl hW)) (h5))

theorem descrArrive_only {W : List Blk} {a0 : Nat} {a1 : Bytes} {a2 : Bool} {a3 : Machine.State} (hW : sub [.host, .rings] W = true) : Only W a3 (descrArrive a0 a1 a2 a3) := by
  unfold descrArrive
  split
  · exact Only.rfl
  · extract_lets +onlyGivenNames -merge -useContext -underBinder x0
    try clear_value x0
    extract_lets +onlyGivenNames -merge -useContext -underBinder x1
    have h2 : Only W a3 x1 := by
      unfold x1
      exact State.modSlot_only (sub_trans rfl hW)
    clear_value x1
    extract_lets +onlyGivenNames -merge -useContext -underBinder x3
    have h4 : Only W a3 x3 := by
      unfold x3
      exact Only.after (State.modRing_only (sub_trans rfl hW)) (h2)
    clear_value x3
    exact Only.after (tryFail_only (sub_trans rfl hW)) (h4)

theorem dropReq_only {W : List Blk} {a0 : Nat} {a1 : Machine.State} (hW : sub [.host] W = true) : Only W a1 (dropReq a0 a1) := by
  unfold dropReq
  exact State.modHost_only (sub_trans rfl hW)

theorem shadowFailed_only {W : List Blk} {a0 : Nat} {a1 : Nat} {a2 : Nat} {a3 : Machine.State} (hW : sub [.beat] W = true) : Only W a3 (shadowFailed a0 a1 a2 a3) := by
  unfold shadowFailed
  split
  · exact Only.rfl
  · exact State.modGroup_only (sub_trans rfl hW)

theorem restoreData_only {W : List Blk} {a0 : Nat} {a1 : Nat} {a2 : Bytes} {a3 : Machine.State} (hW : sub [.host, .cages, .mem] W = true) : Only W a3 (restoreData a0 a1 a2 a3) := by
  unfold restoreData
  split
  · exact Only.rfl
  · extract_lets +onlyGivenNames -merge -useContext -underBinder x0
    try clear_value x0
    extract_lets +onlyGivenNames -merge -useContext -underBinder x1
    have h2 : Only W a3 x1 := by
      unfold x1
      exact State.modMem_only (sub_trans rfl hW)
    clear_value x1
    exact Only.after (restoreStep_only (sub_trans rfl hW)) (Only.after (modMove_only (sub_trans rfl hW)) (h2))

theorem readDone_only {W : List Blk} {a0 : HReq} {a1 : Bytes} {a2 : Machine.State} (hW : sub [.free, .host, .rings, .cages, .beat, .mem] W = true) : Only W a2 (readDone a0 a1 a2) := by
  unfold readDone
  split
  · exact h2dData_only (sub_trans rfl hW)
  · exact restoreData_only (sub_trans rfl hW)
  · split
    · exact landPiece_only (sub_trans rfl hW)
    · exact Only.rfl
  · exact Only.rfl

theorem readFailed_only {W : List Blk} {a0 : HReq} {a1 : Nat} {a2 : Machine.State} (hW : sub [.free, .host, .rings, .cages, .beat, .mem, .mgmt] W = true) : Only W a2 (readFailed a0 a1 a2) := by
  unfold readFailed
  split
  · exact copyFail_only (sub_trans rfl hW)
  · exact copyFail_only (sub_trans rfl hW)
  · exact restoreFailed_only (sub_trans rfl hW)
  · exact shadowFailed_only (sub_trans rfl hW)
  · exact shadowFailed_only (sub_trans rfl hW)
  · exact Only.rfl

theorem rptRefused_only {W : List Blk} {a0 : Nat} {a1 : Machine.State} (hW : sub [.host, .rings] W = true) : Only W a1 (rptRefused a0 a1) := by
  unfold rptRefused
  extract_lets +onlyGivenNames -merge -useContext -underBinder x0
  have h1 : Only W a1 x0 := by
    unfold x0
    exact State.modRings_only (sub_trans rfl hW)
  clear_value x0
  refine Only.ite (fun _ => ?_) (fun _ => ?_)
  · exact h1
  · extract_lets +onlyGivenNames -merge -useContext -underBinder x2
    have h3 : Only W a1 x2 := by
      unfold x2
      exact Only.after (State.modRpt_only (sub_trans rfl hW)) (h1)
    clear_value x2
    extract_lets +onlyGivenNames -merge -useContext -underBinder x4
    try clear_value x4
    extract_lets +onlyGivenNames -merge -useContext -underBinder x5
    have h6 : Only W a1 x5 := by
      unfold x5
      exact Only.after (State.modRings_only (sub_trans rfl hW)) (h3)
    clear_value x5
    extract_lets +onlyGivenNames -merge -useContext -underBinder x7
    have h8 : Only W a1 x7 := by
      unfold x7
      refine Only.ite (fun _ => ?_) (fun _ => ?_)
      · exact Only.after (State.modRings_only (sub_trans rfl hW)) (h6)
      · exact Only.after (report_only (sub_trans rfl hW)) (h6)
    clear_value x7
    refine Only.foldl (fun t9 _ => ?_) ?_
    · exact report_only (sub_trans rfl hW)
    · exact h8

theorem translated_only {W : List Blk} {a0 : HReq} {a1 : Machine.State} (hW : sub [.free, .host, .rings, .cages, .beat] W = true) : Only W a1 (translated a0 a1) := by
  unfold translated
  split
  · exact h2dNext_only (sub_trans rfl hW)
  · exact d2hRun_only (sub_trans rfl hW)
  · refine Only.after (endingOr_only (sub_trans rfl hW) (fun t0 => ?_)) ?_
    · exact bodyHostWrite_only (sub_trans rfl hW)
    · exact Only.rfl
  · exact Only.after (tryComplete_only (sub_trans rfl hW)) (State.modCtx_only (sub_trans rfl hW))
  · exact flushReports_only (sub_trans rfl hW)
  · exact issueDoorbell_only (sub_trans rfl hW)
  · exact issueDescr_only (sub_trans rfl hW)
  · exact restoreStep_only (sub_trans rfl hW)
  · exact evictStep_only (sub_trans rfl hW)
  · exact Only.after (kickShadow_only (sub_trans rfl hW)) (modStream_only (sub_trans rfl hW))
  · exact Only.after (kickShadow_only (sub_trans rfl hW)) (modStream_only (sub_trans rfl hW))
  · exact Only.rfl

theorem xlRefused_only {W : List Blk} {a0 : HReq} {a1 : Machine.State} (hW : sub [.free, .host, .rings, .cages, .beat, .mem, .mgmt] W = true) : Only W a1 (xlRefused a0 a1) := by
  unfold xlRefused
  split
  · refine Only.after (endingOr_only (sub_trans rfl hW) (fun t0 => ?_)) ?_
    · exact endCmd_only (sub_trans rfl hW)
    · exact Only.rfl
  · exact cplRefused_only (sub_trans rfl hW)
  · exact rptRefused_only (sub_trans rfl hW)
  · exact dblFailed_only (sub_trans rfl hW)
  · exact Only.after (descrArrive_only (sub_trans rfl hW)) (State.modSlot_only (sub_trans rfl hW))
  · exact evictFault_only (sub_trans rfl hW)
  · exact readFailed_only (sub_trans rfl hW)

theorem xlComplete_only {W : List Blk} {a0 : Nat} {a1 : XlResult} {a2 : Machine.State} (hW : sub [.free, .host, .rings, .cages, .beat, .mem, .mgmt] W = true) : Only W a2 (xlComplete a0 a1 a2) := by
  unfold xlComplete
  split
  · exact Only.rfl
  · extract_lets +onlyGivenNames -merge -useContext -underBinder x0
    have h1 : Only W a2 x0 := by
      unfold x0
      exact dropReq_only (sub_trans rfl hW)
    clear_value x0
    split
    · exact Only.after (xlRefused_only (sub_trans rfl hW)) (h1)
    · refine Only.ite (fun _ => ?_) (fun _ => ?_)
      · exact Only.after (translated_only (sub_trans rfl hW)) (Only.after (atcInsert_only (sub_trans rfl hW)) (h1))
      · exact Only.after (xlRefused_only (sub_trans rfl hW)) (h1)

theorem readComplete_only {W : List Blk} {a0 : Nat} {a1 : ReadResult} {a2 : Machine.State} (hW : sub [.free, .host, .rings, .cages, .beat, .mem, .mgmt] W = true) : Only W a2 (readComplete a0 a1 a2) := by
  unfold readComplete
  split
  · exact aerUncorrectable_only (sub_trans rfl hW)
  · split
    · refine Only.ite (fun _ => ?_) (fun _ => ?_)
      · exact Only.after (readDone_only (sub_trans rfl hW)) (dropReq_only (sub_trans rfl hW))
      · exact Only.rfl
    · exact Only.after (readFailed_only (sub_trans rfl hW)) (dropReq_only (sub_trans rfl hW))
    · exact Only.after (readFailed_only (sub_trans rfl hW)) (dropReq_only (sub_trans rfl hW))
    · exact Only.after (readFailed_only (sub_trans rfl hW)) (Only.after (aerUncorrectable_only (sub_trans rfl hW)) (dropReq_only (sub_trans rfl hW)))

theorem readLost_only {W : List Blk} {a0 : AerErr} {a1 : ReadRef} {a2 : Machine.State} (hW : sub [.free, .host, .rings, .cages, .beat, .mem, .mgmt] W = true) : Only W a2 (readLost a0 a1 a2) := by
  unfold readLost
  split
  · split
    · exact Only.rfl
    · exact Only.after (readFailed_only (sub_trans rfl hW)) (Only.after (aerUncorrectable_only (sub_trans rfl hW)) (dropReq_only (sub_trans rfl hW)))
  · refine Only.ite (fun _ => ?_) (fun _ => ?_)
    · exact Only.rfl
    · refine Only.after (popDoorbell_only (sub_trans rfl hW) (fun _ t0 => ?_)) ?_
      · exact dblFailed_only (sub_trans rfl hW)
      · exact aerUncorrectable_only (sub_trans rfl hW)
  · split
    · exact Only.rfl
    · exact Only.after (descrArrive_only (sub_trans rfl hW)) (aerUncorrectable_only (sub_trans rfl hW))

theorem readTimeout_only {W : List Blk} {a0 : ReadRef} {a1 : Machine.State} (hW : sub [.free, .host, .rings, .cages, .beat, .mem, .mgmt] W = true) : Only W a1 (readTimeout a0 a1) := by
  unfold readTimeout
  exact readLost_only (sub_trans rfl hW)

theorem ackTlps_only {W : List Blk} {a0 : Nat} {a1 : Machine.State} (hW : sub [.host, .rings] W = true) : Only W a1 (ackTlps a0 a1) := by
  unfold ackTlps
  extract_lets +onlyGivenNames -merge -useContext -underBinder x0
  try clear_value x0
  extract_lets +onlyGivenNames -merge -useContext -underBinder x1
  have h2 : Only W a1 x1 := by
    unfold x1
    exact State.modHost_only (sub_trans rfl hW)
  clear_value x1
  refine Only.foldl (fun t3 _ => ?_) ?_
  · split
    · refine Only.ite (fun _ => ?_) (fun _ => ?_)
      · exact freeCtxOf_only (sub_trans rfl hW)
      · exact Only.rfl
    · exact Only.rfl
  · exact h2

-- SKIP Sys2Proof.Machine.evictAcked

theorem coalExpired_only {W : List Blk} {a0 : Nat} {a1 : Nat} {a2 : Machine.State} (hW : sub [.host, .rings] W = true) : Only W a2 (coalExpired a0 a1 a2) := by
  unfold coalExpired
  refine Only.ite (fun _ => ?_) (fun _ => ?_)
  · refine Only.ite (fun _ => ?_) (fun _ => ?_)
    · exact Only.after (sendMsi_only (sub_trans rfl hW)) (State.modRpt_only (sub_trans rfl hW))
    · exact Only.rfl
  · extract_lets +onlyGivenNames -merge -useContext -underBinder x0
    try clear_value x0
    refine Only.ite (fun _ => ?_) (fun _ => ?_)
    · exact Only.after (sendMsi_only (sub_trans rfl hW)) (State.modRing_only (sub_trans rfl hW))
    · exact Only.rfl

theorem dropAtc_only {W : List Blk} {a0 : Nat} {a1 : Machine.State} (hW : sub [.host] W = true) : Only W a1 (dropAtc a0 a1) := by
  unfold dropAtc
  exact State.modHost_only (sub_trans rfl hW)

theorem cfgWrite_only {W : List Blk} {a0 : Nat} {a1 : CfgOp} {a2 : Machine.State} (hW : sub [.host] W = true) : Only W a2 (cfgWrite a0 a1 a2) := by
  unfold cfgWrite
  split
  · exact Only.rfl
  · exact State.modFn_only (sub_trans rfl hW)
  · exact State.modFn_only (sub_trans rfl hW)
  · extract_lets +onlyGivenNames -merge -useContext -underBinder x0
    have h1 : Only W a2 x0 := by
      unfold x0
      exact State.modFn_only (sub_trans rfl hW)
    clear_value x0
    refine Only.ite (fun _ => ?_) (fun _ => ?_)
    · exact h1
    · exact Only.after (flushMsi_only (sub_trans rfl hW)) (h1)
  · exact State.modFn_only (sub_trans rfl hW)
  · exact State.modFn_only (sub_trans rfl hW)
  · refine Only.ite (fun _ => ?_) (fun _ => ?_)
    · exact State.modHost_only (sub_trans rfl hW)
    · exact Only.rfl
  · refine Only.ite (fun _ => ?_) (fun _ => ?_)
    · exact State.modHost_only (sub_trans rfl hW)
    · exact Only.rfl
  · refine Only.ite (fun _ => ?_) (fun _ => ?_)
    · exact State.modHost_only (sub_trans rfl hW)
    · exact Only.rfl
  · refine Only.ite (fun _ => ?_) (fun _ => ?_)
    · exact State.modHost_only (sub_trans rfl hW)
    · exact Only.rfl
  · refine Only.ite (fun _ => ?_) (fun _ => ?_)
    · exact State.modHost_only (sub_trans rfl hW)
    · exact Only.rfl
  · exact State.modFn_only (sub_trans rfl hW)
  · exact State.modFn_only (sub_trans rfl hW)
  · exact State.modFn_only (sub_trans rfl hW)

theorem reply_only {W : List Blk} {a0 : CfgReply} {a1 : Machine.State} (hW : sub [.host] W = true) : Only W a1 (reply a0 a1) := by
  unfold reply
  exact State.modHost_only (sub_trans rfl hW)

theorem configRequest_only {W : List Blk} {a0 : Nat} {a1 : CfgOp} {a2 : Machine.State} (hW : sub [.host] W = true) : Only W a2 (configRequest a0 a1 a2) := by
  unfold configRequest
  refine Only.ite (fun _ => ?_) (fun _ => ?_)
  · exact Only.rfl
  · refine Only.ite (fun _ => ?_) (fun _ => ?_)
    · exact reply_only (sub_trans rfl hW)
    · refine Only.ite (fun _ => ?_) (fun _ => ?_)
      · exact Only.after (reply_only (sub_trans rfl hW)) (aerUncorrectable_only (sub_trans rfl hW))
      · refine Only.ite (fun _ => ?_) (fun _ => ?_)
        · exact reply_only (sub_trans rfl hW)
        · exact Only.after (reply_only (sub_trans rfl hW)) (cfgWrite_only (sub_trans rfl hW))

theorem vfEnable_only {W : List Blk} {a0 : Machine.State} (hW : sub [.host, .cages] W = true) : Only W a0 (vfEnable a0) := by
  unfold vfEnable
  refine Only.ite (fun _ => ?_) (fun _ => ?_)
  · exact Only.rfl
  · refine Only.ite (fun _ => ?_) (fun _ => ?_)
    · exact State.modFn_only (sub_trans rfl hW)
    · extract_lets +onlyGivenNames -merge -useContext -underBinder x0
      have h1 : Only W a0 x0 := by
        unfold x0
        exact State.modHost_only (sub_trans rfl hW)
      clear_value x0
      refine Only.after (forEach_only (fun _ t2 => ?_)) ?_
      · extract_lets +onlyGivenNames -merge -useContext -underBinder x3
        try clear_value x3
        exact Only.after (State.modCage_only (sub_trans rfl hW)) (State.modFn_only (sub_trans rfl hW))
      · exact h1

theorem vfRrsEnd_only {W : List Blk} {a0 : Machine.State} (hW : sub [.host] W = true) : Only W a0 (vfRrsEnd a0) := by
  unfold vfRrsEnd
  refine Only.ite (fun _ => ?_) (fun _ => ?_)
  · exact Only.rfl
  · refine Only.after (forEach_only (fun _ t0 => ?_)) ?_
    · exact State.modFn_only (sub_trans rfl hW)
    · exact Only.rfl

-- SKIP Sys2Proof.Machine.rangeUsed

theorem invalidate_only {W : List Blk} {a0 : Nat} {a1 : Nat} {a2 : Nat} {a3 : Machine.State} (hW : sub [.host] W = true) : Only W a3 (invalidate a0 a1 a2 a3) := by
  unfold invalidate
  exact State.modHost_only (sub_trans rfl hW)

theorem invalidateDone_only {W : List Blk} {a0 : Nat} {a1 : Nat} {a2 : Nat} {a3 : Machine.State} (hW : sub [.host] W = true) : Only W a3 (invalidateDone a0 a1 a2 a3) := by
  unfold invalidateDone
  extract_lets +onlyGivenNames -merge -useContext -underBinder x0
  try clear_value x0
  refine Only.ite (fun _ => ?_) (fun _ => ?_)
  · exact State.modHost_only (sub_trans rfl hW)
  · exact Only.rfl

-- SKIP Sys2Proof.Machine.l1Allowed
-- SKIP Sys2Proof.Machine.State.stack

theorem State.modStack_only {W : List Blk} {a0 : Machine.State} {a1 : Nat} {a2 : Stack → Stack} (hW : sub [.mem] W = true) : Only W a0 (State.modStack a0 a1 a2) := by
  unfold State.modStack
  exact State.modMem_only (sub_trans rfl hW)

-- SKIP Sys2Proof.Machine.ownerOf

theorem markLine_only {W : List Blk} {a0 : Nat} {a1 : Bool} {a2 : Machine.State} (hW : sub [.host, .rings, .mem] W = true) : Only W a2 (markLine a0 a1 a2) := by
  unfold markLine
  refine Only.ite (fun _ => ?_) (fun _ => ?_)
  · exact Only.rfl
  · extract_lets +onlyGivenNames -merge -useContext -underBinder x0
    try clear_value x0
    extract_lets +onlyGivenNames -merge -useContext -underBinder x1
    have h2 : Only W a2 x1 := by
      unfold x1
      exact Only.after (setLinePoison_only (sub_trans rfl hW)) (State.modStack_only (sub_trans rfl hW))
    clear_value x1
    exact Only.after (report_only (sub_trans rfl hW)) (h2)

theorem countErr_only {W : List Blk} {a0 : Nat} {a1 : LineErr} {a2 : Machine.State} (hW : sub [.mem] W = true) : Only W a2 (countErr a0 a1 a2) := by
  unfold countErr
  extract_lets +onlyGivenNames -merge -useContext -underBinder x0
  try clear_value x0
  split
  · exact State.modStack_only (sub_trans rfl hW)
  · exact State.modStack_only (sub_trans rfl hW)
  · exact Only.rfl

theorem countAccess_only {W : List Blk} {a0 : Nat} {a1 : Machine.State} (hW : sub [.mem] W = true) : Only W a1 (countAccess a0 a1) := by
  unfold countAccess
  exact State.modStack_only (sub_trans rfl hW)

theorem lineAccess_only {W : List Blk} {a0 : Nat} {a1 : LineOp} {a2 : LineErr} {a3 : Machine.State} (hW : sub [.host, .rings, .mem] W = true) : Only W a3 (lineAccess a0 a1 a2 a3) := by
  unfold lineAccess
  extract_lets +onlyGivenNames -merge -useContext -underBinder x0
  try clear_value x0
  extract_lets +onlyGivenNames -merge -useContext -underBinder x1
  have h2 : Only W a3 x1 := by
    unfold x1
    exact countAccess_only (sub_trans rfl hW)
  clear_value x1
  split
  · exact Only.after (setLinePoison_only (sub_trans rfl hW)) (Only.after (State.modMem_only (sub_trans rfl hW)) (h2))
  · refine Only.ite (fun _ => ?_) (fun _ => ?_)
    · exact Only.after (markLine_only (sub_trans rfl hW)) (h2)
    · exact Only.after (countErr_only (sub_trans rfl hW)) (h2)
  · refine Only.ite (fun _ => ?_) (fun _ => ?_)
    · exact Only.after (markLine_only (sub_trans rfl hW)) (h2)
    · extract_lets +onlyGivenNames -merge -useContext -underBinder x3
      have h4 : Only W a3 x3 := by
        unfold x3
        exact Only.after (countErr_only (sub_trans rfl hW)) (h2)
      clear_value x3
      refine Only.ite (fun _ => ?_) (fun _ => ?_)
      · exact h4
      · exact Only.after (State.modMem_only (sub_trans rfl hW)) (h4)

theorem patrolRead_only {W : List Blk} {a0 : Nat} {a1 : LineErr} {a2 : Machine.State} (hW : sub [.host, .rings, .mem] W = true) : Only W a2 (patrolRead a0 a1 a2) := by
  unfold patrolRead
  extract_lets +onlyGivenNames -merge -useContext -underBinder x0
  try clear_value x0
  extract_lets +onlyGivenNames -merge -useContext -underBinder x1
  have h2 : Only W a2 x1 := by
    unfold x1
    exact State.modStack_only (sub_trans rfl hW)
  clear_value x1
  refine Only.ite (fun _ => ?_) (fun _ => ?_)
  · refine Only.ite (fun _ => ?_) (fun _ => ?_)
    · exact Only.after (markLine_only (sub_trans rfl hW)) (h2)
    · exact Only.after (setLinePoison_only (sub_trans rfl hW)) (Only.after (State.modMem_only (sub_trans rfl hW)) (h2))
  · exact Only.after (countErr_only (sub_trans rfl hW)) (h2)

theorem setRefresh_only {W : List Blk} {a0 : Nat} {a1 : Bool} {a2 : Nat} {a3 : Machine.State} (hW : sub [.host, .rings, .mem] W = true) : Only W a3 (setRefresh a0 a1 a2 a3) := by
  unfold setRefresh
  refine Only.ite (fun _ => ?_) (fun _ => ?_)
  · exact Only.rfl
  · extract_lets +onlyGivenNames -merge -useContext -underBinder x0
    have h1 : Only W a3 x0 := by
      unfold x0
      exact State.modStack_only (sub_trans rfl hW)
    clear_value x0
    exact Only.after (reportCtl_only (sub_trans rfl hW)) (h1)

theorem stackReadout_only {W : List Blk} {a0 : Nat} {a1 : Option Int} {a2 : Machine.State} (hW : sub [.host, .rings, .mem] W = true) : Only W a2 (stackReadout a0 a1 a2) := by
  unfold stackReadout
  split
  · extract_lets +onlyGivenNames -merge -useContext -underBinder x0
    have h1 : Only W a2 x0 := by
      unfold x0
      exact State.modStack_only (sub_trans rfl hW)
    clear_value x0
    exact Only.after (setRefresh_only (sub_trans rfl hW)) (Only.after (reportCtl_only (sub_trans rfl hW)) (h1))
  · extract_lets +onlyGivenNames -merge -useContext -underBinder x2
    have h3 : Only W a2 x2 := by
      unfold x2
      exact State.modStack_only (sub_trans rfl hW)
    clear_value x2
    refine Only.ite (fun _ => ?_) (fun _ => ?_)
    · exact Only.after (setRefresh_only (sub_trans rfl hW)) (h3)
    · refine Only.ite (fun _ => ?_) (fun _ => ?_)
      · exact Only.after (setRefresh_only (sub_trans rfl hW)) (h3)
      · exact h3

theorem ceRate_only {W : List Blk} {a0 : Nat} {a1 : Machine.State} (hW : sub [.host, .rings, .mem] W = true) : Only W a1 (ceRate a0 a1) := by
  unfold ceRate
  extract_lets +onlyGivenNames -merge -useContext -underBinder x0
  try clear_value x0
  extract_lets +onlyGivenNames -merge -useContext -underBinder x1
  try clear_value x1
  extract_lets +onlyGivenNames -merge -useContext -underBinder x2
  have h3 : Only W a1 x2 := by
    unfold x2
    refine Only.ite (fun _ => ?_) (fun _ => ?_)
    · exact reportCtl_only (sub_trans rfl hW)
    · exact Only.rfl
  clear_value x2
  exact Only.after (State.modStack_only (sub_trans rfl hW)) (h3)

theorem trainingEnd_only {W : List Blk} {a0 : Nat} {a1 : Machine.State} (hW : sub [.host, .rings, .mem] W = true) : Only W a1 (trainingEnd a0 a1) := by
  unfold trainingEnd
  extract_lets +onlyGivenNames -merge -useContext -underBinder x0
  have h1 : Only W a1 x0 := by
    unfold x0
    refine Only.after (forEach_only (fun _ t2 => ?_)) ?_
    · exact State.modStack_only (sub_trans rfl hW)
    · exact Only.rfl
  clear_value x0
  extract_lets +onlyGivenNames -merge -useContext -underBinder x3
  try clear_value x3
  extract_lets +onlyGivenNames -merge -useContext -underBinder x4
  have h5 : Only W a1 x4 := by
    unfold x4
    exact Only.after (State.modMem_only (sub_trans rfl hW)) (h1)
  clear_value x4
  refine Only.ite (fun _ => ?_) (fun _ => ?_)
  · exact Only.after (reportCtl_only (sub_trans rfl hW)) (h5)
  · exact h5

theorem scrubWrite_only {W : List Blk} {a0 : Nat} {a1 : Machine.State} (hW : sub [.mem] W = true) : Only W a1 (scrubWrite a0 a1) := by
  unfold scrubWrite
  refine Only.ite (fun _ => ?_) (fun _ => ?_)
  · exact Only.rfl
  · exact State.modMem_only (sub_trans rfl hW)

-- SKIP Sys2Proof.Machine.State.link

end Sys2Proof.Machine
end

