-- ==== Sys2Proof/Laws/FrameFabric.lean ====
section
/-! SUPPORT. Frame lemmas: the parts of the state that each operation may change, for Galbi links and collective groups.
Each says of one operation that from the state it is given nothing but the parts it names changes. -/

namespace Sys2Proof.Machine

open Sys2Proof

theorem State.modLink_only {W : List Blk} {a0 : Machine.State} {a1 : Nat} {a2 : Lk → Lk} (hW : sub [.links] W = true) : Only W a0 (State.modLink a0 a1 a2) := by
  unfold State.modLink
  exact Only.put (V := [.links]) (Only.rfl) (fun b hb => by cases b <;> first | exact Eq.refl _ | exact absurd hb (by decide)) hW

theorem sendOn_only {W : List Blk} {a0 : Nat} {a1 : Nat} {a2 : Bytes} {a3 : Machine.State} (hW : sub [.links] W = true) : Only W a3 (sendOn a0 a1 a2 a3) := by
  unfold sendOn
  exact State.modLink_only (sub_trans rfl hW)

theorem linkRec_only {W : List Blk} {a0 : Nat} {a1 : List Fld} {a2 : Machine.State} (hW : sub [.host, .rings] W = true) : Only W a2 (linkRec a0 a1 a2) := by
  unfold linkRec
  exact reportCtl_only (sub_trans rfl hW)

theorem train_only {W : List Blk} {a0 : Nat} {a1 : Machine.State} (hW : sub [.links] W = true) : Only W a1 (train a0 a1) := by
  unfold train
  exact State.modLink_only (sub_trans rfl hW)

theorem trainFail_only {W : List Blk} {a0 : Nat} {a1 : Nat} {a2 : Nat} {a3 : Machine.State} (hW : sub [.host, .rings, .links] W = true) : Only W a3 (trainFail a0 a1 a2 a3) := by
  unfold trainFail
  extract_lets +onlyGivenNames -merge -useContext -underBinder x0
  try clear_value x0
  extract_lets +onlyGivenNames -merge -useContext -underBinder x1
  try clear_value x1
  extract_lets +onlyGivenNames -merge -useContext -underBinder x2
  have h3 : Only W a3 x2 := by
    unfold x2
    exact State.modLink_only (sub_trans rfl hW)
  clear_value x2
  extract_lets +onlyGivenNames -merge -useContext -underBinder x4
  have h5 : Only W a3 x4 := by
    unfold x4
    refine Only.ite (fun _ => ?_) (fun _ => ?_)
    · exact Only.after (linkRec_only (sub_trans rfl hW)) (h3)
    · exact h3
  clear_value x4
  refine Only.ite (fun _ => ?_) (fun _ => ?_)
  · exact Only.after (train_only (sub_trans rfl hW)) (h5)
  · exact h5

theorem linkReset_only {W : List Blk} {a0 : Nat} {a1 : Nat} {a2 : Nat} {a3 : Machine.State} (hW : sub [.host, .rings, .links] W = true) : Only W a3 (linkReset a0 a1 a2 a3) := by
  unfold linkReset
  extract_lets +onlyGivenNames -merge -useContext -underBinder x0
  try clear_value x0
  extract_lets +onlyGivenNames -merge -useContext -underBinder x1
  have h2 : Only W a3 x1 := by
    unfold x1
    exact linkRec_only (sub_trans rfl hW)
  clear_value x1
  extract_lets +onlyGivenNames -merge -useContext -underBinder x3
  have h4 : Only W a3 x3 := by
    unfold x3
    exact Only.after (State.modLink_only (sub_trans rfl hW)) (h2)
  clear_value x3
  refine Only.ite (fun _ => ?_) (fun _ => ?_)
  · exact Only.after (linkRec_only (sub_trans rfl hW)) (Only.after (State.modLink_only (sub_trans rfl hW)) (h4))
  · refine Only.ite (fun _ => ?_) (fun _ => ?_)
    · exact Only.after (linkRec_only (sub_trans rfl hW)) (h4)
    · exact h4

theorem laneDone_only {W : List Blk} {a0 : Nat} {a1 : Nat} {a2 : Machine.State} (hW : sub [.host, .rings, .links] W = true) : Only W a2 (laneDone a0 a1 a2) := by
  unfold laneDone
  extract_lets +onlyGivenNames -merge -useContext -underBinder x0
  try clear_value x0
  refine Only.ite (fun _ => ?_) (fun _ => ?_)
  · exact Only.rfl
  · refine Only.ite (fun _ => ?_) (fun _ => ?_)
    · exact State.modLink_only (sub_trans rfl hW)
    · refine Only.ite (fun _ => ?_) (fun _ => ?_)
      · exact State.modLink_only (sub_trans rfl hW)
      · refine Only.ite (fun _ => ?_) (fun _ => ?_)
        · exact State.modLink_only (sub_trans rfl hW)
        · exact trainFail_only (sub_trans rfl hW)

-- SKIP Sys2Proof.Machine.localNs

theorem helloIn_only {W : List Blk} {a0 : Nat} {a1 : Bytes} {a2 : Machine.State} (hW : sub [.host, .rings, .links] W = true) : Only W a2 (helloIn a0 a1 a2) := by
  unfold helloIn
  extract_lets +onlyGivenNames -merge -useContext -underBinder x0
  try clear_value x0
  refine Only.ite (fun _ => ?_) (fun _ => ?_)
  · exact Only.rfl
  · extract_lets +onlyGivenNames -merge -useContext -underBinder x1
    have h2 : Only W a2 x1 := by
      unfold x1
      exact State.modLink_only (sub_trans rfl hW)
    clear_value x1
    refine Only.ite (fun _ => ?_) (fun _ => ?_)
    · exact h2
    · extract_lets +onlyGivenNames -merge -useContext -underBinder x3
      try clear_value x3
      refine Only.ite (fun _ => ?_) (fun _ => ?_)
      · exact Only.after (trainFail_only (sub_trans rfl hW)) (h2)
      · refine Only.ite (fun _ => ?_) (fun _ => ?_)
        · exact Only.after (trainFail_only (sub_trans rfl hW)) (h2)
        · refine Only.ite (fun _ => ?_) (fun _ => ?_)
          · exact Only.after (trainFail_only (sub_trans rfl hW)) (h2)
          · extract_lets +onlyGivenNames -merge -useContext -underBinder x4
            have h5 : Only W a2 x4 := by
              unfold x4
              exact Only.after (State.modLink_only (sub_trans rfl hW)) (h2)
            clear_value x4
            exact Only.after (linkRec_only (sub_trans rfl hW)) (h5)

-- SKIP Sys2Proof.Machine.lctlFlit

theorem sendLctl_only {W : List Blk} {a0 : Nat} {a1 : Bool} {a2 : Machine.State} (hW : sub [.links] W = true) : Only W a2 (sendLctl a0 a1 a2) := by
  unfold sendLctl
  extract_lets +onlyGivenNames -merge -useContext -underBinder x0
  try clear_value x0
  extract_lets +onlyGivenNames -merge -useContext -underBinder x1
  try clear_value x1
  exact State.modLink_only (sub_trans rfl hW)

theorem sendNew_only {W : List Blk} {a0 : Nat} {a1 : Nat} {a2 : Machine.State} (hW : sub [.adit, .links] W = true) : Only W a2 (sendNew a0 a1 a2) := by
  unfold sendNew
  extract_lets +onlyGivenNames -merge -useContext -underBinder x0
  try clear_value x0
  extract_lets +onlyGivenNames -merge -useContext -underBinder x1
  try clear_value x1
  extract_lets +onlyGivenNames -merge -useContext -underBinder x2
  unfold x2
  split
  · extract_lets +onlyGivenNames -merge -useContext -underBinder x3
    try clear_value x3
    exact State.modLink_only (sub_trans rfl hW)
  · refine Only.ite (fun _ => ?_) (fun _ => ?_)
    · split
      · exact Only.rfl
      · extract_lets +onlyGivenNames -merge -useContext -underBinder x4
        try clear_value x4
        exact Only.after (State.modLink_only (sub_trans rfl hW)) (State.modAdit_only (sub_trans rfl hW))
    · split
      · exact Only.rfl
      · split
        · exact Only.rfl
        · extract_lets +onlyGivenNames -merge -useContext -underBinder x5
          try clear_value x5
          exact Only.after (State.modLink_only (sub_trans rfl hW)) (State.modLink_only (sub_trans rfl hW))

-- SKIP Sys2Proof.Machine.vcCan

theorem upSlot_only {W : List Blk} {a0 : Nat} {a1 : Machine.State} (hW : sub [.adit, .links] W = true) : Only W a1 (upSlot a0 a1) := by
  unfold upSlot
  extract_lets +onlyGivenNames -merge -useContext -underBinder x0
  try clear_value x0
  refine Only.ite (fun _ => ?_) (fun _ => ?_)
  · exact sendLctl_only (sub_trans rfl hW)
  · refine Only.ite (fun _ => ?_) (fun _ => ?_)
    · exact sendLctl_only (sub_trans rfl hW)
    · split
      · exact State.modLink_only (sub_trans rfl hW)
      · refine Only.ite (fun _ => ?_) (fun _ => ?_)
        · exact sendLctl_only (sub_trans rfl hW)
        · refine Only.ite (fun _ => ?_) (fun _ => ?_)
          · exact Only.after (sendNew_only (sub_trans rfl hW)) (State.modLink_only (sub_trans rfl hW))
          · split
            · exact Only.after (sendNew_only (sub_trans rfl hW)) (State.modLink_only (sub_trans rfl hW))
            · exact Only.after (sendLctl_only (sub_trans rfl hW)) (State.modLink_only (sub_trans rfl hW))

theorem flitSlot_only {W : List Blk} {a0 : Nat} {a1 : Machine.State} (hW : sub [.adit, .links] W = true) : Only W a1 (flitSlot a0 a1) := by
  unfold flitSlot
  extract_lets +onlyGivenNames -merge -useContext -underBinder x0
  try clear_value x0
  refine Only.ite (fun _ => ?_) (fun _ => ?_)
  · exact sendLctl_only (sub_trans rfl hW)
  · refine Only.ite (fun _ => ?_) (fun _ => ?_)
    · exact Only.after (State.modLink_only (sub_trans rfl hW)) (upSlot_only (sub_trans rfl hW))
    · exact Only.rfl

theorem freeFlits_only {W : List Blk} {a0 : Nat} {a1 : Nat} {a2 : Nat} {a3 : Machine.State} (hW : sub [.links] W = true) : Only W a3 (freeFlits a0 a1 a2 a3) := by
  unfold freeFlits
  exact State.modLink_only (sub_trans rfl hW)

theorem lctlIn_only {W : List Blk} {a0 : Nat} {a1 : Bytes} {a2 : Machine.State} (hW : sub [.links] W = true) : Only W a2 (lctlIn a0 a1 a2) := by
  unfold lctlIn
  extract_lets +onlyGivenNames -merge -useContext -underBinder x0
  try clear_value x0
  refine Only.ite (fun _ => ?_) (fun _ => ?_)
  · exact Only.rfl
  · refine Only.ite (fun _ => ?_) (fun _ => ?_)
    · exact State.modLink_only (sub_trans rfl hW)
    · refine Only.ite (fun _ => ?_) (fun _ => ?_)
      · exact Only.rfl
      · exact State.modLink_only (sub_trans rfl hW)

theorem dropMsg_only {W : List Blk} {a0 : Nat} {a1 : Nat} {a2 : Nat} {a3 : Machine.State} (hW : sub [.links] W = true) : Only W a3 (dropMsg a0 a1 a2 a3) := by
  unfold dropMsg
  exact Only.after (freeFlits_only (sub_trans rfl hW)) (State.modLink_only (sub_trans rfl hW))

theorem deliver_only {W : List Blk} {a0 : Nat} {a1 : Nat} {a2 : Nat} {a3 : Bytes} {a4 : Machine.State} (hW : sub [.adit, .links] W = true) : Only W a4 (deliver a0 a1 a2 a3 a4) := by
  unfold deliver
  extract_lets +onlyGivenNames -merge -useContext -underBinder x0
  have h1 : Only W a4 x0 := by
    unfold x0
    exact State.modLink_only (sub_trans rfl hW)
  clear_value x0
  refine Only.ite (fun _ => ?_) (fun _ => ?_)
  · extract_lets +onlyGivenNames -merge -useContext -underBinder x2
    have h3 : Only W a4 x2 := by
      unfold x2
      exact Only.after (State.modAdit_only (sub_trans rfl hW)) (h1)
    clear_value x2
    exact Only.after (freeFlits_only (sub_trans rfl hW)) (h3)
  · exact Only.after (State.modLink_only (sub_trans rfl hW)) (h1)

theorem growMsg_only {W : List Blk} {a0 : Nat} {a1 : Nat} {a2 : Nat} {a3 : Bytes} {a4 : Bool} {a5 : Machine.State} (hW : sub [.adit, .links] W = true) : Only W a5 (growMsg a0 a1 a2 a3 a4 a5) := by
  unfold growMsg
  extract_lets +onlyGivenNames -merge -useContext -underBinder x0
  try clear_value x0
  refine Only.ite (fun _ => ?_) (fun _ => ?_)
  · exact dropMsg_only (sub_trans rfl hW)
  · refine Only.ite (fun _ => ?_) (fun _ => ?_)
    · exact deliver_only (sub_trans rfl hW)
    · exact State.modLink_only (sub_trans rfl hW)

theorem takeFlit_only {W : List Blk} {a0 : Nat} {a1 : Bytes} {a2 : Machine.State} (hW : sub [.adit, .links] W = true) : Only W a2 (takeFlit a0 a1 a2) := by
  unfold takeFlit
  extract_lets +onlyGivenNames -merge -useContext -underBinder x0
  try clear_value x0
  extract_lets +onlyGivenNames -merge -useContext -underBinder x1
  have h2 : Only W a2 x1 := by
    unfold x1
    exact State.modLink_only (sub_trans rfl hW)
  clear_value x1
  extract_lets +onlyGivenNames -merge -useContext -underBinder x3
  try clear_value x3
  refine Only.ite (fun _ => ?_) (fun _ => ?_)
  · extract_lets +onlyGivenNames -merge -useContext -underBinder x4
    have h5 : Only W a2 x4 := by
      unfold x4
      split
      · exact Only.after (dropMsg_only (sub_trans rfl hW)) (h2)
      · exact h2
    clear_value x4
    extract_lets +onlyGivenNames -merge -useContext -underBinder x6
    have h7 : Only W a2 x6 := by
      unfold x6
      exact Only.after (State.modLink_only (sub_trans rfl hW)) (h5)
    clear_value x6
    extract_lets +onlyGivenNames -merge -useContext -underBinder x8
    try clear_value x8
    refine Only.ite (fun _ => ?_) (fun _ => ?_)
    · exact Only.after (dropMsg_only (sub_trans rfl hW)) (h7)
    · exact Only.after (growMsg_only (sub_trans rfl hW)) (h7)
  · split
    · exact Only.after (growMsg_only (sub_trans rfl hW)) (h2)
    · refine Only.ite (fun _ => ?_) (fun _ => ?_)
      · exact Only.after (freeFlits_only (sub_trans rfl hW)) (h2)
      · exact Only.after (dropMsg_only (sub_trans rfl hW)) (h2)

theorem dataIn_only {W : List Blk} {a0 : Nat} {a1 : Bytes} {a2 : Machine.State} (hW : sub [.adit, .links] W = true) : Only W a2 (dataIn a0 a1 a2) := by
  unfold dataIn
  extract_lets +onlyGivenNames -merge -useContext -underBinder x0
  try clear_value x0
  refine Only.ite (fun _ => ?_) (fun _ => ?_)
  · exact Only.rfl
  · refine Only.ite (fun _ => ?_) (fun _ => ?_)
    · exact State.modLink_only (sub_trans rfl hW)
    · refine Only.ite (fun _ => ?_) (fun _ => ?_)
      · exact Only.rfl
      · refine Only.ite (fun _ => ?_) (fun _ => ?_)
        · exact State.modLink_only (sub_trans rfl hW)
        · extract_lets +onlyGivenNames -merge -useContext -underBinder x1
          try clear_value x1
          refine Only.ite (fun _ => ?_) (fun _ => ?_)
          · extract_lets +onlyGivenNames -merge -useContext -underBinder x2
            have h3 : Only W a2 x2 := by
              unfold x2
              exact State.modLink_only (sub_trans rfl hW)
            clear_value x2
            exact Only.after (State.modLink_only (sub_trans rfl hW)) (Only.after (takeFlit_only (sub_trans rfl hW)) (h3))
          · refine Only.ite (fun _ => ?_) (fun _ => ?_)
            · exact State.modLink_only (sub_trans rfl hW)
            · exact Only.rfl

theorem pairLost_only {W : List Blk} {a0 : Nat} {a1 : Machine.State} (hW : sub [.links] W = true) : Only W a1 (pairLost a0 a1) := by
  unfold pairLost
  refine Only.ite (fun _ => ?_) (fun _ => ?_)
  · exact Only.rfl
  · exact State.modLink_only (sub_trans rfl hW)

theorem retrainDone_only {W : List Blk} {a0 : Nat} {a1 : Machine.State} (hW : sub [.links] W = true) : Only W a1 (retrainDone a0 a1) := by
  unfold retrainDone
  refine Only.ite (fun _ => ?_) (fun _ => ?_)
  · exact Only.rfl
  · exact State.modLink_only (sub_trans rfl hW)

-- SKIP Sys2Proof.Machine.inboxHead

theorem popInbox_only {W : List Blk} {a0 : Nat} {a1 : Nat} {a2 : Machine.State} (hW : sub [.links] W = true) : Only W a2 (popInbox a0 a1 a2) := by
  unfold popInbox
  split
  · exact Only.rfl
  · exact Only.after (freeFlits_only (sub_trans rfl hW)) (State.modLink_only (sub_trans rfl hW))

theorem withMsg_only {W : List Blk} {a0 : Nat} {a1 : Nat} {a2 : Nat} {a3 : Bytes → Machine.State → Machine.State} {a4 : Machine.State} (hW : sub [.links] W = true) (g0 : ∀ v0 v1, Only W v1 (a3 v0 v1)) : Only W a4 (withMsg a0 a1 a2 a3 a4) := by
  unfold withMsg
  split
  · exact Only.rfl
  · refine Only.ite (fun _ => ?_) (fun _ => ?_)
    · exact Only.after (g0 _ _) (popInbox_only (sub_trans rfl hW))
    · exact Only.rfl

-- SKIP Sys2Proof.Machine.keyExtent
-- SKIP Sys2Proof.Machine.memStatus

theorem mwriteIn_only {W : List Blk} {a0 : Nat} {a1 : Bytes} {a2 : Machine.State} (hW : sub [.cages, .mem, .links] W = true) : Only W a2 (mwriteIn a0 a1 a2) := by
  unfold mwriteIn
  extract_lets +onlyGivenNames -merge -useContext -underBinder x0
  have h1 : Only W a2 x0 := by
    unfold x0
    exact State.modLink_only (sub_trans rfl hW)
  clear_value x0
  refine Only.ite (fun _ => ?_) (fun _ => ?_)
  · exact h1
  · extract_lets +onlyGivenNames -merge -useContext -underBinder x2
    try clear_value x2
    refine Only.ite (fun _ => ?_) (fun _ => ?_)
    · refine Only.ite (fun _ => ?_) (fun _ => ?_)
      · exact sendOn_only (sub_trans rfl hW)
      · exact h1
    · split
      · exact Only.rfl
      · extract_lets +onlyGivenNames -merge -useContext -underBinder x3
        try clear_value x3
        extract_lets +onlyGivenNames -merge -useContext -underBinder x4
        try clear_value x4
        split
        · rename_i y6 y7 q8
          have h5 := Only.ofEq (p := Prod.fst) (devWrite_only (sub_trans rfl hW)) q8 (W := W) (s := a2) (by
            exact Only.rfl
            )
          refine Only.ite (fun _ => ?_) (fun _ => ?_)
          · exact Only.after (State.modLink_only (sub_trans rfl hW)) (h5)
          · exact h5

theorem readLines_only {W : List Blk} {a0 : Nat} {a1 : Nat} {a2 : Nat} {a3 : Machine.State} (hW : sub [.free] W = true) : OnlyVia (fun r => r.2.2) W a3 (readLines a0 a1 a2 a3) := by
  induction a2 generalizing a1 a3 with
  | zero => exact Only.rfl
  | succ n ih =>
    unfold readLines
    split
    rename_i bs psn s1 q
    have h1 : Only W a3 s1 := by
      have e : Only W a3 (bs, psn, s1).2.2 := by
        rw [← q]
        split
        · exact Only.rfl
        · split
          · exact drawBytes_only (sub_trans rfl hW)
          · exact Only.rfl
      exact e
    split
    rename_i r ps s2 q2
    exact Only.after (Only.ofEq (p := fun r => r.2.2) ih q2 Only.rfl) h1

theorem mreadIn_only {W : List Blk} {a0 : Nat} {a1 : Bytes} {a2 : Machine.State} (hW : sub [.free, .links] W = true) : Only W a2 (mreadIn a0 a1 a2) := by
  unfold mreadIn
  refine Only.ite (fun _ => ?_) (fun _ => ?_)
  · exact State.modLink_only (sub_trans rfl hW)
  · extract_lets +onlyGivenNames -merge -useContext -underBinder x0
    try clear_value x0
    refine Only.ite (fun _ => ?_) (fun _ => ?_)
    · exact sendOn_only (sub_trans rfl hW)
    · split
      · exact Only.rfl
      · split
        · rename_i y2 y3 y4 q5
          have h1 := Only.ofEq (p := (fun r => r.2.2)) (readLines_only (sub_trans rfl hW)) q5 (W := W) (s := a2) (by
            exact Only.rfl
            )
          extract_lets +onlyGivenNames -merge -useContext -underBinder x6
          try clear_value x6
          exact Only.after (State.modLink_only (sub_trans rfl hW)) (h1)

theorem respReady_only {W : List Blk} {a0 : Nat} {a1 : Bool} {a2 : Machine.State} (hW : sub [.links] W = true) : Only W a2 (respReady a0 a1 a2) := by
  unfold respReady
  split
  · exact Only.rfl
  · exact Only.after (sendOn_only (sub_trans rfl hW)) (State.modLink_only (sub_trans rfl hW))

theorem linkErrRate_only {W : List Blk} {a0 : Nat} {a1 : Nat} {a2 : Machine.State} (hW : sub [.host, .rings, .links] W = true) : Only W a2 (linkErrRate a0 a1 a2) := by
  unfold linkErrRate
  extract_lets +onlyGivenNames -merge -useContext -underBinder x0
  try clear_value x0
  extract_lets +onlyGivenNames -merge -useContext -underBinder x1
  have h2 : Only W a2 x1 := by
    unfold x1
    refine Only.ite (fun _ => ?_) (fun _ => ?_)
    · exact Only.rfl
    · exact linkRec_only (sub_trans rfl hW)
  clear_value x1
  exact Only.after (State.modLink_only (sub_trans rfl hW)) (h2)

-- SKIP Sys2Proof.Machine.groupsOf
-- SKIP Sys2Proof.Machine.State.grp

theorem State.modGrp_only {W : List Blk} {a0 : Machine.State} {a1 : Nat} {a2 : CollGroup → CollGroup} (hW : sub [.coll] W = true) : Only W a0 (State.modGrp a0 a1 a2) := by
  unfold State.modGrp
  exact State.modColl_only (sub_trans rfl hW)

-- SKIP Sys2Proof.Machine.foreign
-- SKIP Sys2Proof.Machine.badRemove
-- SKIP Sys2Proof.Machine.badChunk
-- SKIP Sys2Proof.Machine.overBuf

theorem groupMsg_only {W : List Blk} {a0 : Nat} {a1 : Nat} {a2 : List Fld} {a3 : Machine.State} (hW : sub [.links] W = true) : Only W a3 (groupMsg a0 a1 a2 a3) := by
  unfold groupMsg
  exact sendOn_only (sub_trans rfl hW)

theorem sendHello_only {W : List Blk} {a0 : CollGroup} {a1 : Nat} {a2 : Machine.State} (hW : sub [.links] W = true) : Only W a2 (sendHello a0 a1 a2) := by
  unfold sendHello
  exact groupMsg_only (sub_trans rfl hW)

theorem sendBye_only {W : List Blk} {a0 : CollGroup} {a1 : Machine.State} (hW : sub [.links] W = true) : Only W a1 (sendBye a0 a1) := by
  unfold sendBye
  refine Only.after (forEach_only (fun _ t0 => ?_)) ?_
  · exact groupMsg_only (sub_trans rfl hW)
  · exact Only.rfl

theorem offerKey_only {W : List Blk} {a0 : CollGroup} {a1 : Nat} {a2 : Nat} {a3 : Machine.State} (hW : sub [.links] W = true) : Only W a3 (offerKey a0 a1 a2 a3) := by
  unfold offerKey
  refine Only.after (forEach_only (fun _ t0 => ?_)) ?_
  · exact groupMsg_only (sub_trans rfl hW)
  · exact Only.rfl

theorem opMsg_only {W : List Blk} {a0 : CollGroup} {a1 : CollOp} {a2 : Nat} {a3 : Nat} {a4 : Nat} {a5 : Nat} {a6 : Bool} {a7 : List Fld} {a8 : Machine.State} (hW : sub [.links] W = true) : Only W a8 (opMsg a0 a1 a2 a3 a4 a5 a6 a7 a8) := by
  unfold opMsg
  exact sendOn_only (sub_trans rfl hW)

theorem collDiscard_only {W : List Blk} {a0 : Machine.State} (hW : sub [.coll] W = true) : Only W a0 (collDiscard a0) := by
  unfold collDiscard
  exact State.modColl_only (sub_trans rfl hW)

-- SKIP Sys2Proof.Machine.gidOf

theorem modOp_only {W : List Blk} {a0 : Nat} {a1 : CollOp → CollOp} {a2 : Machine.State} (hW : sub [.coll] W = true) : Only W a2 (modOp a0 a1 a2) := by
  unfold modOp
  exact State.modGrp_only (sub_trans rfl hW)

theorem modStrand_only {W : List Blk} {a0 : Nat} {a1 : Nat} {a2 : Strand → Strand} {a3 : Machine.State} (hW : sub [.coll] W = true) : Only W a3 (modStrand a0 a1 a2 a3) := by
  unfold modStrand
  exact modOp_only (sub_trans rfl hW)

theorem readChunk_only {W : List Blk} {a0 : CollGroup} {a1 : CollOp} {a2 : Pos} {a3 : Machine.State} (hW : sub [.free] W = true) : OnlyVia Prod.snd W a3 (readChunk a0 a1 a2 a3) := by
  unfold readChunk
  extract_lets +onlyGivenNames -merge -useContext -underBinder x0
  try clear_value x0
  split
  · rename_i y2 y3 y4 q5
    have h1 := Only.ofEq (p := (fun r => r.2.2)) (readLines_only (sub_trans rfl hW)) q5 (W := W) (s := a3) (by
      exact Only.rfl
      )
    refine Only.via2 ?_
    exact h1

theorem writeLines_only {W : List Blk} {a0 : Nat} {a1 : Nat} {a2 : List CLine} {a3 : Machine.State} (hW : sub [.mem] W = true) : Only W a3 (writeLines a0 a1 a2 a3) := by
  induction a2 generalizing a1 a3 with
  | nil => exact Only.rfl
  | cons hd tl ih =>
    unfold writeLines
    extract_lets x
    have h : Only W a3 x := by
      unfold x
      split
      · exact Only.after (setLinePoison_only (sub_trans rfl hW)) (State.modMem_only (sub_trans rfl hW))
      · exact Only.rfl
    exact Only.after ih h

theorem notePoison_only {W : List Blk} {a0 : Nat} {a1 : Nat} {a2 : Nat} {a3 : List CLine} {a4 : Machine.State} (hW : sub [.coll] W = true) : Only W a4 (notePoison a0 a1 a2 a3 a4) := by
  unfold notePoison
  split
  · exact Only.rfl
  · exact modOp_only (sub_trans rfl hW)

-- SKIP Sys2Proof.Machine.opResult

theorem sendAbort_only {W : List Blk} {a0 : CollGroup} {a1 : CollOp} {a2 : Bool} {a3 : Nat} {a4 : Nat} {a5 : Nat} {a6 : Machine.State} (hW : sub [.links] W = true) : Only W a6 (sendAbort a0 a1 a2 a3 a4 a5 a6) := by
  unfold sendAbort
  exact opMsg_only (sub_trans rfl hW)

theorem collEnd_only {W : List Blk} {a0 : Nat} {a1 : Nat} {a2 : Nat} {a3 : Machine.State} (hW : sub [.links, .coll] W = true) : Only W a3 (collEnd a0 a1 a2 a3) := by
  unfold collEnd
  split
  · exact Only.rfl
  · split
    · exact Only.rfl
    · refine Only.ite (fun _ => ?_) (fun _ => ?_)
      · exact Only.rfl
      · extract_lets +onlyGivenNames -merge -useContext -underBinder x0
        have h1 : Only W a3 x0 := by
          unfold x0
          exact Only.after (modOp_only (sub_trans rfl hW)) (State.modColl_only (sub_trans rfl hW))
        clear_value x0
        exact Only.after (sendAbort_only (sub_trans rfl hW)) (Only.after (sendAbort_only (sub_trans rfl hW)) (h1))

theorem peerLost_only {W : List Blk} {a0 : Nat} {a1 : Nat} {a2 : Nat} {a3 : Machine.State} (hW : sub [.links, .coll] W = true) : Only W a3 (peerLost a0 a1 a2 a3) := by
  unfold peerLost
  split
  · exact Only.rfl
  · exact collEnd_only (sub_trans rfl hW)

theorem dropGroup_only {W : List Blk} {a0 : Nat} {a1 : Machine.State} (hW : sub [.coll] W = true) : Only W a1 (dropGroup a0 a1) := by
  unfold dropGroup
  exact State.modColl_only (sub_trans rfl hW)

theorem dropReads_only {W : List Blk} {a0 : Nat} {a1 : Machine.State} (hW : sub [.links] W = true) : Only W a1 (dropReads a0 a1) := by
  unfold dropReads
  refine Only.after (forEach_only (fun _ t0 => ?_)) ?_
  · exact State.modLink_only (sub_trans rfl hW)
  · exact Only.rfl

theorem finishDestroy_only {W : List Blk} {a0 : Nat} {a1 : Machine.State} (hW : sub [.rings, .links, .coll] W = true) : Only W a1 (finishDestroy a0 a1) := by
  unfold finishDestroy
  split
  · exact Only.rfl
  · refine Only.ite (fun _ => ?_) (fun _ => ?_)
    · exact Only.rfl
    · extract_lets +onlyGivenNames -merge -useContext -underBinder x0
      have h1 : Only W a1 x0 := by
        unfold x0
        exact Only.after (dropGroup_only (sub_trans rfl hW)) (dropReads_only (sub_trans rfl hW))
      clear_value x0
      split
      · exact Only.after (endOk_only (sub_trans rfl hW)) (h1)
      · exact h1

theorem closeOp_only {W : List Blk} {a0 : Nat} {a1 : Nat} {a2 : Nat} {a3 : Machine.State} (hW : sub [.rings, .links, .coll] W = true) : Only W a3 (closeOp a0 a1 a2 a3) := by
  unfold closeOp
  split
  · exact Only.rfl
  · split
    · exact Only.rfl
    · extract_lets +onlyGivenNames -merge -useContext -underBinder x0
      have h1 : Only W a3 x0 := by
        unfold x0
        exact Only.after (dropReads_only (sub_trans rfl hW)) (State.modGrp_only (sub_trans rfl hW))
      clear_value x0
      exact Only.after (finishDestroy_only (sub_trans rfl hW)) (Only.after (endCmd_only (sub_trans rfl hW)) (h1))

theorem checkDone_only {W : List Blk} {a0 : Nat} {a1 : Machine.State} (hW : sub [.rings, .links, .coll] W = true) : Only W a1 (checkDone a0 a1) := by
  unfold checkDone
  split
  · exact Only.rfl
  · split
    · exact Only.rfl
    · refine Only.ite (fun _ => ?_) (fun _ => ?_)
      · exact Only.rfl
      · split
        · exact closeOp_only (sub_trans rfl hW)
        · exact closeOp_only (sub_trans rfl hW)

-- SKIP Sys2Proof.Machine.stagingFree

theorem bodyCollCreate_only {W : List Blk} {a0 : Nat} {a1 : Machine.State} (hW : sub [.rings, .links, .coll] W = true) : Only W a1 (bodyCollCreate a0 a1) := by
  unfold bodyCollCreate
  extract_lets +onlyGivenNames -merge -useContext -underBinder x0
  try clear_value x0
  extract_lets +onlyGivenNames -merge -useContext -underBinder x1
  try clear_value x1
  refine Only.ite (fun _ => ?_) (fun _ => ?_)
  · exact endCmd_only (sub_trans rfl hW)
  · extract_lets +onlyGivenNames -merge -useContext -underBinder x2
    try clear_value x2
    extract_lets +onlyGivenNames -merge -useContext -underBinder x3
    try clear_value x3
    extract_lets +onlyGivenNames -merge -useContext -underBinder x4
    try clear_value x4
    refine Only.ite (fun _ => ?_) (fun _ => ?_)
    · exact endCmd_only (sub_trans rfl hW)
    · extract_lets +onlyGivenNames -merge -useContext -underBinder x5
      try clear_value x5
      extract_lets +onlyGivenNames -merge -useContext -underBinder x6
      have h7 : Only W a1 x6 := by
        unfold x6
        exact State.modColl_only (sub_trans rfl hW)
      clear_value x6
      refine Only.after (forEach_only (fun _ t8 => ?_)) ?_
      · exact sendHello_only (sub_trans rfl hW)
      · exact Only.after (State.modCtx_only (sub_trans rfl hW)) (h7)

theorem failCreate_only {W : List Blk} {a0 : Nat} {a1 : Nat} {a2 : Nat} {a3 : Machine.State} (hW : sub [.rings, .coll] W = true) : Only W a3 (failCreate a0 a1 a2 a3) := by
  unfold failCreate
  split
  · exact Only.rfl
  · split
    · exact Only.rfl
    · exact Only.after (endCmd_only (sub_trans rfl hW)) (dropGroup_only (sub_trans rfl hW))

theorem checkCreate_only {W : List Blk} {a0 : Nat} {a1 : Machine.State} (hW : sub [.rings, .coll] W = true) : Only W a1 (checkCreate a0 a1) := by
  unfold checkCreate
  split
  · exact Only.rfl
  · split
    · exact Only.rfl
    · refine Only.ite (fun _ => ?_) (fun _ => ?_)
      · exact Only.after (endOk_only (sub_trans rfl hW)) (State.modGrp_only (sub_trans rfl hW))
      · exact Only.rfl

theorem helloMsg_only {W : List Blk} {a0 : Nat} {a1 : Bytes} {a2 : Machine.State} (hW : sub [.rings, .links, .coll] W = true) : Only W a2 (helloMsg a0 a1 a2) := by
  unfold helloMsg
  split
  · exact collDiscard_only (sub_trans rfl hW)
  · extract_lets +onlyGivenNames -merge -useContext -underBinder x0
    try clear_value x0
    extract_lets +onlyGivenNames -merge -useContext -underBinder x1
    have h2 : Only W a2 x1 := by
      unfold x1
      exact groupMsg_only (sub_trans rfl hW)
    clear_value x1
    refine Only.ite (fun _ => ?_) (fun _ => ?_)
    · exact Only.after (checkCreate_only (sub_trans rfl hW)) (Only.after (State.modGrp_only (sub_trans rfl hW)) (h2))
    · exact Only.after (failCreate_only (sub_trans rfl hW)) (h2)

theorem ackMsg_only {W : List Blk} {a0 : Nat} {a1 : Bytes} {a2 : Machine.State} (hW : sub [.rings, .coll] W = true) : Only W a2 (ackMsg a0 a1 a2) := by
  unfold ackMsg
  split
  · exact collDiscard_only (sub_trans rfl hW)
  · extract_lets +onlyGivenNames -merge -useContext -underBinder x0
    try clear_value x0
    refine Only.ite (fun _ => ?_) (fun _ => ?_)
    · exact collDiscard_only (sub_trans rfl hW)
    · refine Only.ite (fun _ => ?_) (fun _ => ?_)
      · exact failCreate_only (sub_trans rfl hW)
      · exact Only.after (checkCreate_only (sub_trans rfl hW)) (State.modGrp_only (sub_trans rfl hW))

theorem helloAgain_only {W : List Blk} {a0 : Nat} {a1 : Machine.State} (hW : sub [.links] W = true) : Only W a1 (helloAgain a0 a1) := by
  unfold helloAgain
  split
  · exact Only.rfl
  · refine Only.after (forEach_only (fun _ t0 => ?_)) ?_
    · exact sendHello_only (sub_trans rfl hW)
    · exact Only.rfl

theorem destroyGroup_only {W : List Blk} {a0 : Nat} {a1 : Option Nat} {a2 : Machine.State} (hW : sub [.rings, .links, .coll] W = true) : Only W a2 (destroyGroup a0 a1 a2) := by
  unfold destroyGroup
  split
  · exact Only.rfl
  · extract_lets +onlyGivenNames -merge -useContext -underBinder x0
    try clear_value x0
    extract_lets +onlyGivenNames -merge -useContext -underBinder x1
    have h2 : Only W a2 x1 := by
      unfold x1
      refine Only.foldl (fun t3 _ => ?_) ?_
      · exact endCmd_only (sub_trans rfl hW)
      · exact Only.rfl
    clear_value x1
    extract_lets +onlyGivenNames -merge -useContext -underBinder x4
    have h5 : Only W a2 x4 := by
      unfold x4
      refine Only.foldl (fun t6 _ => ?_) ?_
      · exact endCmd_only (sub_trans rfl hW)
      · exact h2
    clear_value x4
    extract_lets +onlyGivenNames -merge -useContext -underBinder x7
    have h8 : Only W a2 x7 := by
      unfold x7
      exact Only.after (sendBye_only (sub_trans rfl hW)) (Only.after (State.modGrp_only (sub_trans rfl hW)) (h5))
    clear_value x7
    extract_lets +onlyGivenNames -merge -useContext -underBinder x9
    have h10 : Only W a2 x9 := by
      unfold x9
      exact Only.after (State.modColl_only (sub_trans rfl hW)) (h8)
    clear_value x9
    extract_lets +onlyGivenNames -merge -useContext -underBinder x11
    have h12 : Only W a2 x11 := by
      unfold x11
      split
      · extract_lets +onlyGivenNames -merge -useContext -underBinder x13
        have h14 : Only W a2 x13 := by
          unfold x13
          refine Only.ite (fun _ => ?_) (fun _ => ?_)
          · exact h10
          · exact Only.after (sendAbort_only (sub_trans rfl hW)) (Only.after (sendAbort_only (sub_trans rfl hW)) (h10))
        clear_value x13
        exact Only.after (modOp_only (sub_trans rfl hW)) (h14)
      · exact h10
    clear_value x11
    exact Only.after (finishDestroy_only (sub_trans rfl hW)) (h12)

theorem bodyCollDestroy_only {W : List Blk} {a0 : Nat} {a1 : Machine.State} (hW : sub [.rings, .links, .coll] W = true) : Only W a1 (bodyCollDestroy a0 a1) := by
  unfold bodyCollDestroy
  extract_lets +onlyGivenNames -merge -useContext -underBinder x0
  try clear_value x0
  split
  · exact endCmd_only (sub_trans rfl hW)
  · refine Only.ite (fun _ => ?_) (fun _ => ?_)
    · exact endCmd_only (sub_trans rfl hW)
    · exact Only.after (destroyGroup_only (sub_trans rfl hW)) (State.modCtx_only (sub_trans rfl hW))

theorem forgetGroup_only {W : List Blk} {a0 : Nat} {a1 : Machine.State} (hW : sub [.links, .coll] W = true) : Only W a1 (forgetGroup a0 a1) := by
  unfold forgetGroup
  split
  · exact Only.rfl
  · exact Only.after (dropGroup_only (sub_trans rfl hW)) (Only.after (dropReads_only (sub_trans rfl hW)) (sendBye_only (sub_trans rfl hW)))

-- SKIP Sys2Proof.Machine.handlesOf

theorem breakGroup_only {W : List Blk} {a0 : Nat} {a1 : Nat} {a2 : Nat} {a3 : Machine.State} (hW : sub [.host, .rings, .links, .coll] W = true) : Only W a3 (breakGroup a0 a1 a2 a3) := by
  unfold breakGroup
  split
  · exact Only.rfl
  · refine Only.ite (fun _ => ?_) (fun _ => ?_)
    · exact Only.rfl
    · extract_lets +onlyGivenNames -merge -useContext -underBinder x0
      have h1 : Only W a3 x0 := by
        unfold x0
        exact Only.after (reportCtl_only (sub_trans rfl hW)) (State.modGrp_only (sub_trans rfl hW))
      clear_value x0
      exact Only.after (peerLost_only (sub_trans rfl hW)) (h1)

theorem byeMsg_only {W : List Blk} {a0 : Nat} {a1 : Bytes} {a2 : Machine.State} (hW : sub [.host, .rings, .links, .coll] W = true) : Only W a2 (byeMsg a0 a1 a2) := by
  unfold byeMsg
  split
  · exact collDiscard_only (sub_trans rfl hW)
  · exact breakGroup_only (sub_trans rfl hW)

theorem collLinkReset_only {W : List Blk} {a0 : Nat} {a1 : Machine.State} (hW : sub [.host, .rings, .links, .coll] W = true) : Only W a1 (collLinkReset a0 a1) := by
  unfold collLinkReset
  refine Only.after (forEach_only (fun _ t0 => ?_)) ?_
  · exact breakGroup_only (sub_trans rfl hW)
  · exact Only.rfl

theorem resetLink_only {W : List Blk} {a0 : Nat} {a1 : Nat} {a2 : Nat} {a3 : Machine.State} (hW : sub [.host, .rings, .links, .coll] W = true) : Only W a3 (resetLink a0 a1 a2 a3) := by
  unfold resetLink
  exact Only.after (collLinkReset_only (sub_trans rfl hW)) (linkReset_only (sub_trans rfl hW))

theorem linkSettle_only {W : List Blk} {a0 : Nat} {a1 : Machine.State} (hW : sub [.host, .rings, .links, .coll] W = true) : Only W a1 (linkSettle a0 a1) := by
  unfold linkSettle
  split
  · exact resetLink_only (sub_trans rfl hW)
  · exact Only.rfl

theorem withdrawKey_only {W : List Blk} {a0 : Nat} {a1 : Machine.State} (hW : sub [.coll] W = true) : Only W a1 (withdrawKey a0 a1) := by
  unfold withdrawKey
  exact State.modColl_only (sub_trans rfl hW)

theorem takeKey_only {W : List Blk} {a0 : Machine.State} (hW : sub [.coll] W = true) : OnlyVia Prod.snd W a0 (takeKey a0) := by
  unfold takeKey
  extract_lets +onlyGivenNames -merge -useContext -underBinder x0
  try clear_value x0
  refine Only.via2 ?_
  exact State.modColl_only (sub_trans rfl hW)

theorem checkRegs_only {W : List Blk} {a0 : Nat} {a1 : Machine.State} (hW : sub [.rings, .coll] W = true) : Only W a1 (checkRegs a0 a1) := by
  unfold checkRegs
  split
  · exact Only.rfl
  · refine Only.foldl (fun t0 _ => ?_) ?_
    · refine Only.ite (fun _ => ?_) (fun _ => ?_)
      · exact Only.after (endOk_only (sub_trans rfl hW)) (State.modGrp_only (sub_trans rfl hW))
      · exact Only.rfl
    · exact Only.rfl

theorem bodyCollReg_only {W : List Blk} {a0 : Nat} {a1 : Machine.State} (hW : sub [.rings, .links, .coll] W = true) : Only W a1 (bodyCollReg a0 a1) := by
  unfold bodyCollReg
  extract_lets +onlyGivenNames -merge -useContext -underBinder x0
  try clear_value x0
  extract_lets +onlyGivenNames -merge -useContext -underBinder x1
  try clear_value x1
  extract_lets +onlyGivenNames -merge -useContext -underBinder x2
  try clear_value x2
  extract_lets +onlyGivenNames -merge -useContext -underBinder x3
  try clear_value x3
  split
  · exact endCmd_only (sub_trans rfl hW)
  · refine Only.ite (fun _ => ?_) (fun _ => ?_)
    · exact endCmd_only (sub_trans rfl hW)
    · refine Only.ite (fun _ => ?_) (fun _ => ?_)
      · split
        · exact endCmd_only (sub_trans rfl hW)
        · refine Only.ite (fun _ => ?_) (fun _ => ?_)
          · exact endCmd_only (sub_trans rfl hW)
          · extract_lets +onlyGivenNames -merge -useContext -underBinder x5
            have h6 : Only W a1 x5 := by
              unfold x5
              exact State.modGrp_only (sub_trans rfl hW)
            clear_value x5
            extract_lets +onlyGivenNames -merge -useContext -underBinder x7
            have h8 : Only W a1 x7 := by
              unfold x7
              refine Only.foldl (fun t9 _ => ?_) ?_
              · exact endCmd_only (sub_trans rfl hW)
              · exact h6
            clear_value x7
            exact Only.after (endOk_only (sub_trans rfl hW)) (Only.after (offerKey_only (sub_trans rfl hW)) (Only.after (withdrawKey_only (sub_trans rfl hW)) (h8)))
      · refine Only.ite (fun _ => ?_) (fun _ => ?_)
        · exact endCmd_only (sub_trans rfl hW)
        · refine Only.ite (fun _ => ?_) (fun _ => ?_)
          · exact endCmd_only (sub_trans rfl hW)
          · split
            · rename_i y11 y12 q13
              have h10 := Only.ofEq (p := Prod.snd) (takeKey_only (sub_trans rfl hW)) q13 (W := W) (s := a1) (by
                exact Only.rfl
                )
              extract_lets +onlyGivenNames -merge -useContext -underBinder x14
              have h15 : Only W a1 x14 := by
                unfold x14
                exact Only.after (State.modGrp_only (sub_trans rfl hW)) (h10)
              clear_value x14
              extract_lets +onlyGivenNames -merge -useContext -underBinder x16
              have h17 : Only W a1 x16 := by
                unfold x16
                exact Only.after (State.modColl_only (sub_trans rfl hW)) (h15)
              clear_value x16
              exact Only.after (checkRegs_only (sub_trans rfl hW)) (Only.after (offerKey_only (sub_trans rfl hW)) (Only.after (State.modCtx_only (sub_trans rfl hW)) (h17)))

theorem keyMsg_only {W : List Blk} {a0 : Nat} {a1 : Bytes} {a2 : Machine.State} (hW : sub [.rings, .coll] W = true) : Only W a2 (keyMsg a0 a1 a2) := by
  unfold keyMsg
  split
  · exact collDiscard_only (sub_trans rfl hW)
  · exact Only.after (checkRegs_only (sub_trans rfl hW)) (State.modGrp_only (sub_trans rfl hW))

-- SKIP Sys2Proof.Machine.bindAt

theorem bodyCollOp_only {W : List Blk} {a0 : Bool} {a1 : Nat} {a2 : Machine.State} (hW : sub [.rings, .coll] W = true) : Only W a2 (bodyCollOp a0 a1 a2) := by
  unfold bodyCollOp
  extract_lets +onlyGivenNames -merge -useContext -underBinder x0
  try clear_value x0
  extract_lets +onlyGivenNames -merge -useContext -underBinder x1
  try clear_value x1
  extract_lets +onlyGivenNames -merge -useContext -underBinder x2
  try clear_value x2
  extract_lets +onlyGivenNames -merge -useContext -underBinder x3
  try clear_value x3
  refine Only.after (memGate_only (sub_trans rfl hW) (fun t4 => ?_)) ?_
  · split
    · exact endCmd_only (sub_trans rfl hW)
    · refine Only.ite (fun _ => ?_) (fun _ => ?_)
      · exact endCmd_only (sub_trans rfl hW)
      · refine Only.ite (fun _ => ?_) (fun _ => ?_)
        · exact endCmd_only (sub_trans rfl hW)
        · refine Only.ite (fun _ => ?_) (fun _ => ?_)
          · exact endCmd_only (sub_trans rfl hW)
          · refine Only.ite (fun _ => ?_) (fun _ => ?_)
            · exact endOk_only (sub_trans rfl hW)
            · extract_lets +onlyGivenNames -merge -useContext -underBinder x5
              try clear_value x5
              extract_lets +onlyGivenNames -merge -useContext -underBinder x6
              try clear_value x6
              exact Only.after (State.modCtx_only (sub_trans rfl hW)) (State.modGrp_only (sub_trans rfl hW))
  · exact Only.rfl

-- SKIP Sys2Proof.Machine.readyHeld
-- SKIP Sys2Proof.Machine.grantStart

theorem takeReady_only {W : List Blk} {a0 : Nat} {a1 : Nat} {a2 : Bytes} {a3 : Machine.State} (hW : sub [.links, .coll] W = true) : Only W a3 (takeReady a0 a1 a2 a3) := by
  unfold takeReady
  split
  · exact Only.rfl
  · split
    · exact Only.rfl
    · refine Only.ite (fun _ => ?_) (fun _ => ?_)
      · exact collEnd_only (sub_trans rfl hW)
      · refine Only.ite (fun _ => ?_) (fun _ => ?_)
        · exact Only.rfl
        · exact modStrand_only (sub_trans rfl hW)

theorem tryReady_only {W : List Blk} {a0 : Nat} {a1 : Machine.State} (hW : sub [.links, .coll] W = true) : Only W a1 (tryReady a0 a1) := by
  unfold tryReady
  split
  · exact Only.rfl
  · split
    · exact Only.rfl
    · refine Only.ite (fun _ => ?_) (fun _ => ?_)
      · exact Only.rfl
      · extract_lets +onlyGivenNames -merge -useContext -underBinder x0
        try clear_value x0
        extract_lets +onlyGivenNames -merge -useContext -underBinder x1
        have h2 : Only W a1 x1 := by
          unfold x1
          exact modOp_only (sub_trans rfl hW)
        clear_value x1
        extract_lets +onlyGivenNames -merge -useContext -underBinder x3
        have h4 : Only W a1 x3 := by
          unfold x3
          refine Only.after (forEach_only (fun _ t5 => ?_)) ?_
          · exact Only.after (modStrand_only (sub_trans rfl hW)) (opMsg_only (sub_trans rfl hW))
          · exact h2
        clear_value x3
        refine Only.foldl (fun t6 _ => ?_) ?_
        · exact takeReady_only (sub_trans rfl hW)
        · exact h4

theorem opStart_only {W : List Blk} {a0 : Nat} {a1 : Machine.State} (hW : sub [.links, .coll] W = true) : Only W a1 (opStart a0 a1) := by
  unfold opStart
  split
  · exact Only.rfl
  · split
    · exact Only.rfl
    · refine Only.ite (fun _ => ?_) (fun _ => ?_)
      · exact Only.rfl
      · extract_lets +onlyGivenNames -merge -useContext -underBinder x0
        have h1 : Only W a1 x0 := by
          unfold x0
          exact State.modGrp_only (sub_trans rfl hW)
        clear_value x0
        split
        · exact Only.after (peerLost_only (sub_trans rfl hW)) (h1)
        · exact Only.after (modOp_only (sub_trans rfl hW)) (Only.after (State.modColl_only (sub_trans rfl hW)) (h1))
        · exact Only.after (tryReady_only (sub_trans rfl hW)) (h1)

theorem startChunk_only {W : List Blk} {a0 : Nat} {a1 : Nat} {a2 : Machine.State} (hW : sub [.free, .rings, .links, .coll] W = true) : Only W a2 (startChunk a0 a1 a2) := by
  unfold startChunk
  split
  · exact Only.rfl
  · split
    · exact Only.rfl
    · extract_lets +onlyGivenNames -merge -useContext -underBinder x0
      try clear_value x0
      extract_lets +onlyGivenNames -merge -useContext -underBinder x1
      try clear_value x1
      extract_lets +onlyGivenNames -merge -useContext -underBinder x2
      try clear_value x2
      extract_lets +onlyGivenNames -merge -useContext -underBinder x3
      try clear_value x3
      split
      · rename_i y5 y6 q7
        have h4 := Only.ofEq (p := Prod.snd) (readChunk_only (sub_trans rfl hW)) q7 (W := W) (s := a2) (by
          exact Only.rfl
          )
        extract_lets +onlyGivenNames -merge -useContext -underBinder x8
        try clear_value x8
        extract_lets +onlyGivenNames -merge -useContext -underBinder x9
        try clear_value x9
        extract_lets +onlyGivenNames -merge -useContext -underBinder x10
        try clear_value x10
        extract_lets +onlyGivenNames -merge -useContext -underBinder x11
        have h12 : Only W a2 x11 := by
          unfold x11
          refine Only.ite (fun _ => ?_) (fun _ => ?_)
          · exact Only.after (notePoison_only (sub_trans rfl hW)) (h4)
          · exact h4
        clear_value x11
        extract_lets +onlyGivenNames -merge -useContext -underBinder x13
        try clear_value x13
        extract_lets +onlyGivenNames -merge -useContext -underBinder x14
        have h15 : Only W a2 x14 := by
          unfold x14
          refine Only.foldl (fun t16 _ => ?_) ?_
          · exact sendOn_only (sub_trans rfl hW)
          · exact h12
        clear_value x14
        exact Only.after (checkDone_only (sub_trans rfl hW)) (Only.after (modStrand_only (sub_trans rfl hW)) (h15))

-- SKIP Sys2Proof.Machine.startable
-- SKIP Sys2Proof.Machine.collWork
-- SKIP Sys2Proof.Machine.nextGroup
-- SKIP Sys2Proof.Machine.chunkCost
-- SKIP Sys2Proof.Machine.collDrr

theorem serveClass_only {W : List Blk} {a0 : Nat} {a1 : Bool} {a2 : List (Nat × Nat)} {a3 : Machine.State} (hW : sub [.free, .rings, .links, .coll] W = true) : Only W a3 (serveClass a0 a1 a2 a3) := by
  unfold serveClass
  extract_lets +onlyGivenNames -merge -useContext -underBinder x0
  try clear_value x0
  extract_lets +onlyGivenNames -merge -useContext -underBinder x1
  try clear_value x1
  extract_lets +onlyGivenNames -merge -useContext -underBinder x2
  try clear_value x2
  extract_lets +onlyGivenNames -merge -useContext -underBinder x3
  try clear_value x3
  extract_lets +onlyGivenNames -merge -useContext -underBinder x4
  try clear_value x4
  extract_lets +onlyGivenNames -merge -useContext -underBinder x5
  try clear_value x5
  split
  · exact Only.rfl
  · extract_lets +onlyGivenNames -merge -useContext -underBinder x6
    try clear_value x6
    split
    · rename_i y8 y9 q10
      have h7 := Only.ofEq (p := Prod.snd) (drawBelow_only (sub_trans rfl hW)) q10 (W := W) (s := a3) (by
        exact Only.rfl
        )
      extract_lets +onlyGivenNames -merge -useContext -underBinder x11
      try clear_value x11
      extract_lets +onlyGivenNames -merge -useContext -underBinder x12
      have h13 : Only W a3 x12 := by
        unfold x12
        exact Only.after (State.modColl_only (sub_trans rfl hW)) (h7)
      clear_value x12
      exact Only.after (startChunk_only (sub_trans rfl hW)) (h13)

theorem chunkStart_only {W : List Blk} {a0 : Nat} {a1 : Machine.State} (hW : sub [.free, .rings, .links, .coll] W = true) : Only W a1 (chunkStart a0 a1) := by
  unfold chunkStart
  extract_lets +onlyGivenNames -merge -useContext -underBinder x0
  try clear_value x0
  extract_lets +onlyGivenNames -merge -useContext -underBinder x1
  try clear_value x1
  extract_lets +onlyGivenNames -merge -useContext -underBinder x2
  try clear_value x2
  refine Only.ite (fun _ => ?_) (fun _ => ?_)
  · exact serveClass_only (sub_trans rfl hW)
  · refine Only.ite (fun _ => ?_) (fun _ => ?_)
    · exact Only.rfl
    · exact serveClass_only (sub_trans rfl hW)

theorem countLanded_only {W : List Blk} {a0 : Nat} {a1 : Nat} {a2 : Machine.State} (hW : sub [.beat, .coll] W = true) : Only W a2 (countLanded a0 a1 a2) := by
  induction a1 generalizing a0 a2 with
  | zero =>
    unfold countLanded
    exact Only.rfl
  | succ n ih =>
    unfold countLanded
    split
    · exact Only.rfl
    · refine Only.ite (fun _ => ?_) (fun _ => ?_)
      · exact Only.rfl
      · extract_lets +onlyGivenNames -merge -useContext -underBinder x0
        have h1 : Only W a2 x0 := by
          unfold x0
          split
          · exact countArrival_only (sub_trans rfl hW)
          · exact Only.rfl
        clear_value x0
        exact Only.after (by apply ih) (Only.after (modOp_only (sub_trans rfl hW)) (h1))

theorem flushFinals_only {W : List Blk} {a0 : Nat} {a1 : Machine.State} (hW : sub [.free, .rings, .beat, .mem, .links, .coll] W = true) : Only W a1 (flushFinals a0 a1) := by
  unfold flushFinals
  split
  · exact Only.rfl
  · split
    · exact Only.rfl
    · refine Only.ite (fun _ => ?_) (fun _ => ?_)
      · exact Only.rfl
      · extract_lets +onlyGivenNames -merge -useContext -underBinder x0
        have h1 : Only W a1 x0 := by
          unfold x0
          refine Only.after (forEach_only (fun _ t2 => ?_)) ?_
          · extract_lets +onlyGivenNames -merge -useContext -underBinder x3
            try clear_value x3
            refine Only.foldl (fun t4 _ => ?_) ?_
            · extract_lets +onlyGivenNames -merge -useContext -underBinder x5
              try clear_value x5
              split
              · rename_i y7 y8 q9
                have h6 := Only.ofEq (p := Prod.snd) (readChunk_only (sub_trans rfl hW)) q9 (W := W) (s := t4) (by
                  exact Only.rfl
                  )
                extract_lets +onlyGivenNames -merge -useContext -underBinder x10
                try clear_value x10
                extract_lets +onlyGivenNames -merge -useContext -underBinder x11
                have h12 : Only W t4 x11 := by
                  unfold x11
                  exact Only.after (writeLines_only (sub_trans rfl hW)) (h6)
                clear_value x11
                extract_lets +onlyGivenNames -merge -useContext -underBinder x13
                have h14 : Only W t4 x13 := by
                  unfold x13
                  exact Only.after (notePoison_only (sub_trans rfl hW)) (h12)
                clear_value x13
                exact Only.after (modOp_only (sub_trans rfl hW)) (Only.after (modStrand_only (sub_trans rfl hW)) (h14))
            · exact Only.rfl
          · exact Only.rfl
        clear_value x0
        exact Only.after (checkDone_only (sub_trans rfl hW)) (Only.after (countLanded_only (sub_trans rfl hW)) (h1))

theorem sendChunkAck_only {W : List Blk} {a0 : CollGroup} {a1 : CollOp} {a2 : Nat} {a3 : Pos} {a4 : Bool} {a5 : Machine.State} (hW : sub [.links] W = true) : Only W a5 (sendChunkAck a0 a1 a2 a3 a4 a5) := by
  unfold sendChunkAck
  exact opMsg_only (sub_trans rfl hW)

theorem askLines_only {W : List Blk} {a0 : Nat} {a1 : Nat} {a2 : Nat} {a3 : Machine.State} (hW : sub [.links, .coll] W = true) : Only W a3 (askLines a0 a1 a2 a3) := by
  induction a2 generalizing a0 a1 a3 with
  | zero =>
    unfold askLines
    exact Only.rfl
  | succ n ih =>
    unfold askLines
    split
    · exact Only.rfl
    · split
      · exact Only.rfl
      · extract_lets +onlyGivenNames -merge -useContext -underBinder x0
        try clear_value x0
        extract_lets +onlyGivenNames -merge -useContext -underBinder x1
        try clear_value x1
        extract_lets +onlyGivenNames -merge -useContext -underBinder x2
        try clear_value x2
        extract_lets +onlyGivenNames -merge -useContext -underBinder x3
        try clear_value x3
        extract_lets +onlyGivenNames -merge -useContext -underBinder x4
        try clear_value x4
        refine Only.ite (fun _ => ?_) (fun _ => ?_)
        · exact Only.rfl
        · extract_lets +onlyGivenNames -merge -useContext -underBinder x5
          try clear_value x5
          extract_lets +onlyGivenNames -merge -useContext -underBinder x6
          try clear_value x6
          extract_lets +onlyGivenNames -merge -useContext -underBinder x7
          have h8 : Only W a3 x7 := by
            unfold x7
            exact State.modLink_only (sub_trans rfl hW)
          clear_value x7
          exact Only.after (by apply ih) (Only.after (modStrand_only (sub_trans rfl hW)) (Only.after (sendOn_only (sub_trans rfl hW)) (h8)))

theorem chunkFailed_only {W : List Blk} {a0 : Nat} {a1 : Nat} {a2 : Machine.State} (hW : sub [.links, .coll] W = true) : Only W a2 (chunkFailed a0 a1 a2) := by
  unfold chunkFailed
  split
  · exact Only.rfl
  · split
    · exact Only.rfl
    · extract_lets +onlyGivenNames -merge -useContext -underBinder x0
      try clear_value x0
      refine Only.ite (fun _ => ?_) (fun _ => ?_)
      · exact collEnd_only (sub_trans rfl hW)
      · extract_lets +onlyGivenNames -merge -useContext -underBinder x1
        have h2 : Only W a2 x1 := by
          unfold x1
          exact State.modColl_only (sub_trans rfl hW)
        clear_value x1
        refine Only.ite (fun _ => ?_) (fun _ => ?_)
        · exact Only.after (sendChunkAck_only (sub_trans rfl hW)) (Only.after (modStrand_only (sub_trans rfl hW)) (h2))
        · exact Only.after (askLines_only (sub_trans rfl hW)) (Only.after (modStrand_only (sub_trans rfl hW)) (h2))

theorem chunkPassed_only {W : List Blk} {a0 : Nat} {a1 : Nat} {a2 : Machine.State} (hW : sub [.free, .rings, .beat, .mem, .links, .coll] W = true) : Only W a2 (chunkPassed a0 a1 a2) := by
  unfold chunkPassed
  split
  · exact Only.rfl
  · split
    · exact Only.rfl
    · extract_lets +onlyGivenNames -merge -useContext -underBinder x0
      try clear_value x0
      extract_lets +onlyGivenNames -merge -useContext -underBinder x1
      try clear_value x1
      extract_lets +onlyGivenNames -merge -useContext -underBinder x2
      try clear_value x2
      extract_lets +onlyGivenNames -merge -useContext -underBinder x3
      try clear_value x3
      extract_lets +onlyGivenNames -merge -useContext -underBinder x4
      have h5 : Only W a2 x4 := by
        unfold x4
        exact Only.after (sendChunkAck_only (sub_trans rfl hW)) (modStrand_only (sub_trans rfl hW))
      clear_value x4
      refine Only.ite (fun _ => ?_) (fun _ => ?_)
      · exact Only.after (flushFinals_only (sub_trans rfl hW)) (h5)
      · exact Only.after (checkDone_only (sub_trans rfl hW)) (Only.after (countLanded_only (sub_trans rfl hW)) (Only.after (modOp_only (sub_trans rfl hW)) (h5)))

theorem chunkCheck_only {W : List Blk} {a0 : Nat} {a1 : Nat} {a2 : Nat} {a3 : Machine.State} (hW : sub [.free, .rings, .beat, .mem, .links, .coll] W = true) : Only W a3 (chunkCheck a0 a1 a2 a3) := by
  unfold chunkCheck
  split
  · exact Only.rfl
  · split
    · exact Only.rfl
    · extract_lets +onlyGivenNames -merge -useContext -underBinder x0
      try clear_value x0
      refine Only.ite (fun _ => ?_) (fun _ => ?_)
      · exact Only.rfl
      · refine Only.ite (fun _ => ?_) (fun _ => ?_)
        · exact chunkFailed_only (sub_trans rfl hW)
        · extract_lets +onlyGivenNames -merge -useContext -underBinder x1
          have h2 : Only W a3 x1 := by
            unfold x1
            refine Only.ite (fun _ => ?_) (fun _ => ?_)
            · exact State.modColl_only (sub_trans rfl hW)
            · exact Only.rfl
          clear_value x1
          refine Only.ite (fun _ => ?_) (fun _ => ?_)
          · exact Only.after (collEnd_only (sub_trans rfl hW)) (h2)
          · exact Only.after (chunkPassed_only (sub_trans rfl hW)) (h2)

-- SKIP Sys2Proof.Machine.opTarget

theorem readyMsg_only {W : List Blk} {a0 : Nat} {a1 : Bytes} {a2 : Machine.State} (hW : sub [.links, .coll] W = true) : Only W a2 (readyMsg a0 a1 a2) := by
  unfold readyMsg
  split
  · exact collDiscard_only (sub_trans rfl hW)
  · split
    · refine Only.ite (fun _ => ?_) (fun _ => ?_)
      · exact Only.rfl
      · refine Only.ite (fun _ => ?_) (fun _ => ?_)
        · exact takeReady_only (sub_trans rfl hW)
        · exact State.modGrp_only (sub_trans rfl hW)
    · exact State.modGrp_only (sub_trans rfl hW)

theorem dataMsg_only {W : List Blk} {a0 : Nat} {a1 : Bytes} {a2 : Machine.State} (hW : sub [.mem, .coll] W = true) : Only W a2 (dataMsg a0 a1 a2) := by
  unfold dataMsg
  split
  · exact collDiscard_only (sub_trans rfl hW)
  · split
    · exact collDiscard_only (sub_trans rfl hW)
    · split
      · exact collDiscard_only (sub_trans rfl hW)
      · extract_lets +onlyGivenNames -merge -useContext -underBinder x0
        try clear_value x0
        extract_lets +onlyGivenNames -merge -useContext -underBinder x1
        try clear_value x1
        extract_lets +onlyGivenNames -merge -useContext -underBinder x2
        try clear_value x2
        refine Only.ite (fun _ => ?_) (fun _ => ?_)
        · exact collDiscard_only (sub_trans rfl hW)
        · extract_lets +onlyGivenNames -merge -useContext -underBinder x3
          try clear_value x3
          extract_lets +onlyGivenNames -merge -useContext -underBinder x4
          have h5 : Only W a2 x4 := by
            unfold x4
            exact modStrand_only (sub_trans rfl hW)
          clear_value x4
          refine Only.ite (fun _ => ?_) (fun _ => ?_)
          · exact h5
          · exact Only.after (notePoison_only (sub_trans rfl hW)) (Only.after (writeLines_only (sub_trans rfl hW)) (h5))

theorem collDataIn_only {W : List Blk} {a0 : Nat} {a1 : Nat} {a2 : Machine.State} (hW : sub [.mem, .links, .coll] W = true) : Only W a2 (collDataIn a0 a1 a2) := by
  unfold collDataIn
  split
  · exact Only.rfl
  · refine Only.ite (fun _ => ?_) (fun _ => ?_)
    · exact Only.after (dataMsg_only (sub_trans rfl hW)) (popInbox_only (sub_trans rfl hW))
    · exact Only.rfl

theorem chunkEndMsg_only {W : List Blk} {a0 : Nat} {a1 : Bytes} {a2 : Machine.State} (hW : sub [.coll] W = true) : Only W a2 (chunkEndMsg a0 a1 a2) := by
  unfold chunkEndMsg
  split
  · exact collDiscard_only (sub_trans rfl hW)
  · split
    · exact collDiscard_only (sub_trans rfl hW)
    · split
      · exact collDiscard_only (sub_trans rfl hW)
      · extract_lets +onlyGivenNames -merge -useContext -underBinder x0
        try clear_value x0
        refine Only.ite (fun _ => ?_) (fun _ => ?_)
        · exact collDiscard_only (sub_trans rfl hW)
        · exact modStrand_only (sub_trans rfl hW)

theorem chunkAckMsg_only {W : List Blk} {a0 : Nat} {a1 : Bytes} {a2 : Machine.State} (hW : sub [.rings, .links, .coll] W = true) : Only W a2 (chunkAckMsg a0 a1 a2) := by
  unfold chunkAckMsg
  split
  · exact collDiscard_only (sub_trans rfl hW)
  · split
    · exact collDiscard_only (sub_trans rfl hW)
    · extract_lets +onlyGivenNames -merge -useContext -underBinder x0
      try clear_value x0
      refine Only.ite (fun _ => ?_) (fun _ => ?_)
      · exact collDiscard_only (sub_trans rfl hW)
      · refine Only.ite (fun _ => ?_) (fun _ => ?_)
        · exact Only.after (checkDone_only (sub_trans rfl hW)) (modStrand_only (sub_trans rfl hW))
        · split
          · refine Only.foldl (fun t1 _ => ?_) ?_
            · exact sendOn_only (sub_trans rfl hW)
            · exact Only.rfl
          · exact collDiscard_only (sub_trans rfl hW)

theorem abortMsg_only {W : List Blk} {a0 : Nat} {a1 : Bytes} {a2 : Machine.State} (hW : sub [.links, .coll] W = true) : Only W a2 (abortMsg a0 a1 a2) := by
  unfold abortMsg
  extract_lets +onlyGivenNames -merge -useContext -underBinder x0
  try clear_value x0
  split
  · exact collDiscard_only (sub_trans rfl hW)
  · extract_lets +onlyGivenNames -merge -useContext -underBinder x1
    try clear_value x1
    extract_lets +onlyGivenNames -merge -useContext -underBinder x2
    try clear_value x2
    extract_lets +onlyGivenNames -merge -useContext -underBinder x3
    try clear_value x3
    extract_lets +onlyGivenNames -merge -useContext -underBinder x4
    unfold x4
    refine Only.ite (fun _ => ?_) (fun _ => ?_)
    · split
      · refine Only.ite (fun _ => ?_) (fun _ => ?_)
        · exact Only.rfl
        · refine Only.ite (fun _ => ?_) (fun _ => ?_)
          · exact Only.after (modOp_only (sub_trans rfl hW)) (State.modColl_only (sub_trans rfl hW))
          · exact Only.after (sendAbort_only (sub_trans rfl hW)) (Only.after (modOp_only (sub_trans rfl hW)) (State.modColl_only (sub_trans rfl hW)))
      · exact Only.rfl
    · refine Only.ite (fun _ => ?_) (fun _ => ?_)
      · exact Only.rfl
      · extract_lets +onlyGivenNames -merge -useContext -underBinder x5
        try clear_value x5
        extract_lets +onlyGivenNames -merge -useContext -underBinder x6
        try clear_value x6
        refine Only.ite (fun _ => ?_) (fun _ => ?_)
        · exact State.modGrp_only (sub_trans rfl hW)
        · exact Only.after (sendAbort_only (sub_trans rfl hW)) (State.modGrp_only (sub_trans rfl hW))

theorem dropMemReq_only {W : List Blk} {a0 : Nat} {a1 : Nat} {a2 : Machine.State} (hW : sub [.links] W = true) : Only W a2 (dropMemReq a0 a1 a2) := by
  unfold dropMemReq
  exact State.modLink_only (sub_trans rfl hW)

theorem mdataIn_only {W : List Blk} {a0 : Nat} {a1 : Bytes} {a2 : Machine.State} (hW : sub [.mem, .links, .coll] W = true) : Only W a2 (mdataIn a0 a1 a2) := by
  unfold mdataIn
  split
  · exact Only.rfl
  · extract_lets +onlyGivenNames -merge -useContext -underBinder x0
    have h1 : Only W a2 x0 := by
      unfold x0
      exact dropMemReq_only (sub_trans rfl hW)
    clear_value x0
    refine Only.ite (fun _ => ?_) (fun _ => ?_)
    · exact Only.after (collEnd_only (sub_trans rfl hW)) (h1)
    · split
      · exact h1
      · split
        · exact h1
        · extract_lets +onlyGivenNames -merge -useContext -underBinder x2
          try clear_value x2
          extract_lets +onlyGivenNames -merge -useContext -underBinder x3
          try clear_value x3
          extract_lets +onlyGivenNames -merge -useContext -underBinder x4
          have h5 : Only W a2 x4 := by
            unfold x4
            exact Only.after (notePoison_only (sub_trans rfl hW)) (Only.after (writeLines_only (sub_trans rfl hW)) (h1))
          clear_value x4
          exact Only.after (askLines_only (sub_trans rfl hW)) (Only.after (modStrand_only (sub_trans rfl hW)) (h5))

theorem mackIn_only {W : List Blk} {a0 : Nat} {a1 : Bytes} {a2 : Machine.State} (hW : sub [.links] W = true) : Only W a2 (mackIn a0 a1 a2) := by
  unfold mackIn
  exact dropMemReq_only (sub_trans rfl hW)

theorem memTimeout_only {W : List Blk} {a0 : Nat} {a1 : Nat} {a2 : Machine.State} (hW : sub [.links, .coll] W = true) : Only W a2 (memTimeout a0 a1 a2) := by
  unfold memTimeout
  split
  · exact Only.rfl
  · exact Only.after (peerLost_only (sub_trans rfl hW)) (dropMemReq_only (sub_trans rfl hW))

theorem waitExpired_only {W : List Blk} {a0 : Nat} {a1 : Nat} {a2 : Nat} {a3 : Machine.State} (hW : sub [.rings, .links, .coll] W = true) : Only W a3 (waitExpired a0 a1 a2 a3) := by
  unfold waitExpired
  split
  · exact Only.rfl
  · refine Only.ite (fun _ => ?_) (fun _ => ?_)
    · exact failCreate_only (sub_trans rfl hW)
    · refine Only.ite (fun _ => ?_) (fun _ => ?_)
      · split
        · extract_lets +onlyGivenNames -merge -useContext -underBinder x0
          have h1 : Only W a3 x0 := by
            unfold x0
            exact State.modGrp_only (sub_trans rfl hW)
          clear_value x0
          exact Only.after (endCmd_only (sub_trans rfl hW)) (Only.after (offerKey_only (sub_trans rfl hW)) (Only.after (withdrawKey_only (sub_trans rfl hW)) (h1)))
        · exact Only.rfl
      · split
        · exact Only.rfl
        · split
          · exact peerLost_only (sub_trans rfl hW)
          · exact Only.rfl

theorem progressTimeout_only {W : List Blk} {a0 : Nat} {a1 : Nat} {a2 : Machine.State} (hW : sub [.links, .coll] W = true) : Only W a2 (progressTimeout a0 a1 a2) := by
  unfold progressTimeout
  split
  · exact Only.rfl
  · split
    · exact Only.rfl
    · extract_lets +onlyGivenNames -merge -useContext -underBinder x0
      try clear_value x0
      refine Only.ite (fun _ => ?_) (fun _ => ?_)
      · exact peerLost_only (sub_trans rfl hW)
      · exact Only.rfl

theorem collDrained_only {W : List Blk} {a0 : Nat} {a1 : Machine.State} (hW : sub [.rings, .links, .coll] W = true) : Only W a1 (collDrained a0 a1) := by
  unfold collDrained
  split
  · exact Only.rfl
  · split
    · exact closeOp_only (sub_trans rfl hW)
    · exact Only.rfl

theorem bindWaitEnd_only {W : List Blk} {a0 : Nat} {a1 : Machine.State} (hW : sub [.links, .coll] W = true) : Only W a1 (bindWaitEnd a0 a1) := by
  unfold bindWaitEnd
  split
  · exact Only.rfl
  · split
    · exact Only.rfl
    · refine Only.after (tryReady_only (sub_trans rfl hW)) ?_
      · refine Only.ite (fun _ => ?_) (fun _ => ?_)
        · exact modOp_only (sub_trans rfl hW)
        · exact Only.rfl

theorem sourceGate_only {W : List Blk} {a0 : Nat} {a1 : Machine.State} (hW : sub [.free, .rings, .beat, .mem, .links, .coll] W = true) : Only W a1 (sourceGate a0 a1) := by
  unfold sourceGate
  split
  · exact Only.rfl
  · split
    · exact Only.rfl
    · refine Only.ite (fun _ => ?_) (fun _ => ?_)
      · exact Only.after (flushFinals_only (sub_trans rfl hW)) (modOp_only (sub_trans rfl hW))
      · exact Only.rfl

theorem collRefresh_only {W : List Blk} {a0 : Machine.State} (hW : sub [.free, .rings, .beat, .mem, .links, .coll] W = true) : Only W a0 (collRefresh a0) := by
  unfold collRefresh
  refine Only.after (forEach_only (fun _ t0 => ?_)) ?_
  · extract_lets +onlyGivenNames -merge -useContext -underBinder x1
    have h2 : Only W t0 x1 := by
      unfold x1
      exact State.modGrp_only (sub_trans rfl hW)
    clear_value x1
    split
    · refine Only.ite (fun _ => ?_) (fun _ => ?_)
      · refine Only.after (flushFinals_only (sub_trans rfl hW)) ?_
        · refine Only.ite (fun _ => ?_) (fun _ => ?_)
          · exact Only.after (tryReady_only (sub_trans rfl hW)) (h2)
          · exact h2
      · refine Only.ite (fun _ => ?_) (fun _ => ?_)
        · exact Only.after (tryReady_only (sub_trans rfl hW)) (h2)
        · exact h2
    · exact h2
  · exact Only.rfl

theorem collErrCount_only {W : List Blk} {a0 : Machine.State} (hW : sub [.host, .rings, .coll] W = true) : Only W a0 (collErrCount a0) := by
  unfold collErrCount
  extract_lets +onlyGivenNames -merge -useContext -underBinder x0
  try clear_value x0
  extract_lets +onlyGivenNames -merge -useContext -underBinder x1
  have h2 : Only W a0 x1 := by
    unfold x1
    refine Only.ite (fun _ => ?_) (fun _ => ?_)
    · exact Only.rfl
    · exact reportCtl_only (sub_trans rfl hW)
  clear_value x1
  exact Only.after (State.modColl_only (sub_trans rfl hW)) (h2)

-- SKIP Sys2Proof.Machine.State.onBus

end Sys2Proof.Machine
end

