-- ==== Sys2Proof/Laws/FramePower.lean ====
section
/-! SUPPORT. Frame lemmas: the parts of the state that each operation may change, for policies, power, sensors, coolant and the pump.
Each says of one operation that from the state it is given nothing but the parts it names changes. -/

namespace Sys2Proof.Machine

open Sys2Proof

theorem State.modBus_only {W : List Blk} {a0 : Machine.State} {a1 : Nat} {a2 : Bus → Bus} (hW : sub [.bus] W = true) : Only W a0 (State.modBus a0 a1 a2) := by
  unfold State.modBus
  exact State.modBuses_only (sub_trans rfl hW)

-- SKIP Sys2Proof.Machine.nodeId
-- SKIP Sys2Proof.Machine.busEnabled
-- SKIP Sys2Proof.Machine.mkFrame

theorem busJoinRec_only {W : List Blk} {a0 : Nat} {a1 : Nat} {a2 : Machine.State} (hW : sub [.adit] W = true) : Only W a2 (busJoinRec a0 a1 a2) := by
  unfold busJoinRec
  exact a6Rec_only (sub_trans rfl hW)

theorem busErrRec_only {W : List Blk} {a0 : Nat} {a1 : Nat} {a2 : Machine.State} (hW : sub [.adit] W = true) : Only W a2 (busErrRec a0 a1 a2) := by
  unfold busErrRec
  exact a6Rec_only (sub_trans rfl hW)

theorem busSleepRec_only {W : List Blk} {a0 : Nat} {a1 : Nat} {a2 : Machine.State} (hW : sub [.adit] W = true) : Only W a2 (busSleepRec a0 a1 a2) := by
  unfold busSleepRec
  exact a6Rec_only (sub_trans rfl hW)

theorem pushFrame_only {W : List Blk} {a0 : Nat} {a1 : TxFrame} {a2 : Machine.State} (hW : sub [.bus] W = true) : Only W a2 (pushFrame a0 a1 a2) := by
  unfold pushFrame
  exact State.modBus_only (sub_trans rfl hW)

theorem queueMsg_only {W : List Blk} {a0 : Nat} {a1 : Nat} {a2 : Option Nat} {a3 : Bool} {a4 : Bytes} {a5 : Machine.State} (hW : sub [.bus] W = true) : Only W a5 (queueMsg a0 a1 a2 a3 a4 a5) := by
  unfold queueMsg
  extract_lets +onlyGivenNames -merge -useContext -underBinder x0
  try clear_value x0
  refine Only.ite (fun _ => ?_) (fun _ => ?_)
  · exact Only.rfl
  · extract_lets +onlyGivenNames -merge -useContext -underBinder x1
    try clear_value x1
    extract_lets +onlyGivenNames -merge -useContext -underBinder x2
    try clear_value x2
    exact Only.after (pushFrame_only (sub_trans rfl hW)) (State.modBus_only (sub_trans rfl hW))

theorem wakeBus_only {W : List Blk} {a0 : Nat} {a1 : Nat} {a2 : Machine.State} (hW : sub [.adit, .bus] W = true) : Only W a2 (wakeBus a0 a1 a2) := by
  unfold wakeBus
  refine Only.ite (fun _ => ?_) (fun _ => ?_)
  · exact Only.rfl
  · extract_lets +onlyGivenNames -merge -useContext -underBinder x0
    have h1 : Only W a2 x0 := by
      unfold x0
      exact Only.after (busSleepRec_only (sub_trans rfl hW)) (State.modBus_only (sub_trans rfl hW))
    clear_value x0
    refine Only.ite (fun _ => ?_) (fun _ => ?_)
    · exact Only.after (queueMsg_only (sub_trans rfl hW)) (Only.after (State.modBus_only (sub_trans rfl hW)) (h1))
    · exact h1

theorem queueAlert_only {W : List Blk} {a0 : Nat} {a1 : Nat} {a2 : Bytes} {a3 : Machine.State} (hW : sub [.adit, .bus] W = true) : Only W a3 (queueAlert a0 a1 a2 a3) := by
  unfold queueAlert
  exact Only.after (queueMsg_only (sub_trans rfl hW)) (wakeBus_only (sub_trans rfl hW))

-- SKIP Sys2Proof.Machine.sendable

theorem frameSent_only {W : List Blk} {a0 : Nat} {a1 : Machine.State} (hW : sub [.bus] W = true) : Only W a1 (frameSent a0 a1) := by
  unfold frameSent
  extract_lets +onlyGivenNames -merge -useContext -underBinder x0
  try clear_value x0
  refine Only.ite (fun _ => ?_) (fun _ => ?_)
  · exact Only.rfl
  · split
    · exact Only.rfl
    · exact State.modBus_only (sub_trans rfl hW)

theorem txExpire_only {W : List Blk} {a0 : Nat} {a1 : Nat} {a2 : Machine.State} (hW : sub [.bus] W = true) : Only W a2 (txExpire a0 a1 a2) := by
  unfold txExpire
  split
  · refine Only.ite (fun _ => ?_) (fun _ => ?_)
    · exact State.modBus_only (sub_trans rfl hW)
    · exact Only.rfl
  · exact Only.rfl

-- SKIP Sys2Proof.Machine.ownHeard
-- SKIP Sys2Proof.Machine.inCommand
-- SKIP Sys2Proof.Machine.fromCommand

theorem policyAck_only {W : List Blk} {a0 : BitVec 16} {a1 : Nat} {a2 : Nat} {a3 : Machine.State} (hW : sub [.adit] W = true) : Only W a3 (policyAck a0 a1 a2 a3) := by
  unfold policyAck
  exact a3Down_only (sub_trans rfl hW)

theorem policyRun_only {W : List Blk} {a0 : Nat} {a1 : Nat} {a2 : List (Nat × Nat)} {a3 : Bytes → Option Nat} {a4 : Bytes → Machine.State → PolicyOut} {a5 : Machine.State} (hW : sub [.adit, .mgmt] W = true) (g0 : ∀ v0 v1, OnlyVia (fun r => r.2.2) W v1 (a4 v0 v1)) : Only W a5 (policyRun a0 a1 a2 a3 a4 a5) := by
  unfold policyRun
  split
  · exact Only.rfl
  · refine Only.ite (fun _ => ?_) (fun _ => ?_)
    · exact Only.rfl
    · extract_lets +onlyGivenNames -merge -useContext -underBinder x0
      have h1 : Only W a5 x0 := by
        unfold x0
        exact State.modMgmt_only (sub_trans rfl hW)
      clear_value x0
      split
      · exact Only.after (policyAck_only (sub_trans rfl hW)) (h1)
      · split
        · exact Only.after (policyAck_only (sub_trans rfl hW)) (h1)
        · split
          · rename_i y3 y4 y5 q6
            have h2 := Only.ofEq (p := (fun r => r.2.2)) (g0 _ _) q6 (W := W) (s := a5) (by
              exact h1
              )
            exact Only.after (policyAck_only (sub_trans rfl hW)) (h2)

theorem powerChanged_only {W : List Blk} {a0 : Machine.State} (hW : sub [.mgmt] W = true) : Only W a0 (powerChanged a0) := by
  unfold powerChanged
  exact State.modMgmt_only (sub_trans rfl hW)

-- SKIP Sys2Proof.Machine.State.mgs
-- SKIP Sys2Proof.Machine.State.mg

theorem State.modMg_only {W : List Blk} {a0 : Machine.State} {a1 : Nat} {a2 : MGroup → MGroup} (hW : sub [.heat] W = true) : Only W a0 (State.modMg a0 a1 a2) := by
  unfold State.modMg
  exact State.modHeat_only (sub_trans rfl hW)

-- SKIP Sys2Proof.Machine.runningMgs
-- SKIP Sys2Proof.Machine.railNeed
-- SKIP Sys2Proof.Machine.railTarget

theorem railTick_only {W : List Blk} {a0 : Machine.State} (hW : sub [.power] W = true) : Only W a0 (railTick a0) := by
  unfold railTick
  extract_lets +onlyGivenNames -merge -useContext -underBinder x0
  try clear_value x0
  exact State.modPower_only (sub_trans rfl hW)

-- SKIP Sys2Proof.Machine.measured
-- SKIP Sys2Proof.Machine.inputV

theorem pwrCal_only {W : List Blk} {a0 : Nat} {a1 : Nat} {a2 : Machine.State} (hW : sub [.adit] W = true) : Only W a2 (pwrCal a0 a1 a2) := by
  unfold pwrCal
  exact a6Rec_only (sub_trans rfl hW)

theorem pmbusRead_only {W : List Blk} {a0 : List (Option (Nat × Nat))} {a1 : Machine.State} (hW : sub [.adit, .power] W = true) : Only W a1 (pmbusRead a0 a1) := by
  unfold pmbusRead
  extract_lets +onlyGivenNames -merge -useContext -underBinder x0
  try clear_value x0
  extract_lets +onlyGivenNames -merge -useContext -underBinder x1
  try clear_value x1
  extract_lets +onlyGivenNames -merge -useContext -underBinder x2
  have h3 : Only W a1 x2 := by
    unfold x2
    exact State.modPower_only (sub_trans rfl hW)
  clear_value x2
  split
  · exact Only.after (pwrCal_only (sub_trans rfl hW)) (Only.after (State.modPower_only (sub_trans rfl hW)) (h3))
  · refine Only.ite (fun _ => ?_) (fun _ => ?_)
    · exact Only.after (pwrCal_only (sub_trans rfl hW)) (Only.after (State.modPower_only (sub_trans rfl hW)) (h3))
    · exact h3
  · exact h3

-- SKIP Sys2Proof.Machine.cIn
-- SKIP Sys2Proof.Machine.capBase
-- SKIP Sys2Proof.Machine.capEff

theorem calEnds_only {W : List Blk} {a0 : Machine.State} (hW : sub [.adit, .power] W = true) : Only W a0 (calEnds a0) := by
  unfold calEnds
  extract_lets +onlyGivenNames -merge -useContext -underBinder x0
  try clear_value x0
  extract_lets +onlyGivenNames -merge -useContext -underBinder x1
  try clear_value x1
  extract_lets +onlyGivenNames -merge -useContext -underBinder x2
  try clear_value x2
  extract_lets +onlyGivenNames -merge -useContext -underBinder x3
  have h4 : Only W a0 x3 := by
    unfold x3
    refine Only.ite (fun _ => ?_) (fun _ => ?_)
    · exact pwrCal_only (sub_trans rfl hW)
    · exact Only.rfl
  clear_value x3
  extract_lets +onlyGivenNames -merge -useContext -underBinder x5
  have h6 : Only W a0 x5 := by
    unfold x5
    refine Only.ite (fun _ => ?_) (fun _ => ?_)
    · exact Only.after (pwrCal_only (sub_trans rfl hW)) (h4)
    · exact h4
  clear_value x5
  exact Only.after (State.modPower_only (sub_trans rfl hW)) (h6)

theorem calibrate_only {W : List Blk} {a0 : Rat} {a1 : Machine.State} (hW : sub [.adit, .power] W = true) : Only W a1 (calibrate a0 a1) := by
  unfold calibrate
  extract_lets +onlyGivenNames -merge -useContext -underBinder x0
  try clear_value x0
  extract_lets +onlyGivenNames -merge -useContext -underBinder x1
  try clear_value x1
  split
  · exact Only.after (calEnds_only (sub_trans rfl hW)) (State.modPower_only (sub_trans rfl hW))

theorem unmeetRec_only {W : List Blk} {a0 : Bool} {a1 : Machine.State} (hW : sub [.adit] W = true) : Only W a1 (unmeetRec a0 a1) := by
  unfold unmeetRec
  extract_lets +onlyGivenNames -merge -useContext -underBinder x0
  try clear_value x0
  extract_lets +onlyGivenNames -merge -useContext -underBinder x1
  try clear_value x1
  extract_lets +onlyGivenNames -merge -useContext -underBinder x2
  try clear_value x2
  exact a6Rec_only (sub_trans rfl hW)

theorem judgeFloor_only {W : List Blk} {a0 : Machine.State} (hW : sub [.adit, .power] W = true) : Only W a0 (judgeFloor a0) := by
  unfold judgeFloor
  extract_lets +onlyGivenNames -merge -useContext -underBinder x0
  try clear_value x0
  extract_lets +onlyGivenNames -merge -useContext -underBinder x1
  try clear_value x1
  extract_lets +onlyGivenNames -merge -useContext -underBinder x2
  try clear_value x2
  refine Only.ite (fun _ => ?_) (fun _ => ?_)
  · extract_lets +onlyGivenNames -merge -useContext -underBinder x3
    try clear_value x3
    refine Only.ite (fun _ => ?_) (fun _ => ?_)
    · exact Only.after (unmeetRec_only (sub_trans rfl hW)) (State.modPower_only (sub_trans rfl hW))
    · exact State.modPower_only (sub_trans rfl hW)
  · extract_lets +onlyGivenNames -merge -useContext -underBinder x4
    try clear_value x4
    refine Only.ite (fun _ => ?_) (fun _ => ?_)
    · exact Only.after (unmeetRec_only (sub_trans rfl hW)) (State.modPower_only (sub_trans rfl hW))
    · exact State.modPower_only (sub_trans rfl hW)

theorem outerUpdate_only {W : List Blk} {a0 : Machine.State} (hW : sub [.adit, .power, .pump] W = true) : Only W a0 (outerUpdate a0) := by
  unfold outerUpdate
  extract_lets +onlyGivenNames -merge -useContext -underBinder x0
  try clear_value x0
  extract_lets +onlyGivenNames -merge -useContext -underBinder x1
  have h2 : Only W a0 x1 := by
    unfold x1
    refine Only.ite (fun _ => ?_) (fun _ => ?_)
    · refine Only.ite (fun _ => ?_) (fun _ => ?_)
      · exact Only.rfl
      · exact calibrate_only (sub_trans rfl hW)
    · exact State.modPower_only (sub_trans rfl hW)
  clear_value x1
  extract_lets +onlyGivenNames -merge -useContext -underBinder x3
  have h4 : Only W a0 x3 := by
    unfold x3
    exact Only.after (State.modPower_only (sub_trans rfl hW)) (h2)
  clear_value x3
  extract_lets +onlyGivenNames -merge -useContext -underBinder x5
  have h6 : Only W a0 x5 := by
    unfold x5
    exact Only.after (State.modPump_only (sub_trans rfl hW)) (h4)
  clear_value x5
  exact Only.after (judgeFloor_only (sub_trans rfl hW)) (h6)

theorem derateUpdate_only {W : List Blk} {a0 : Machine.State} (hW : sub [.power] W = true) : Only W a0 (derateUpdate a0) := by
  unfold derateUpdate
  extract_lets +onlyGivenNames -merge -useContext -underBinder x0
  try clear_value x0
  extract_lets +onlyGivenNames -merge -useContext -underBinder x1
  try clear_value x1
  exact State.modPower_only (sub_trans rfl hW)

-- SKIP Sys2Proof.Machine.memberLocks
-- SKIP Sys2Proof.Machine.lockF
-- SKIP Sys2Proof.Machine.nLock

theorem lockEvent_only {W : List Blk} {a0 : Nat} {a1 : Nat} {a2 : Nat} {a3 : Nat} {a4 : Machine.State} (hW : sub [.adit] W = true) : Only W a4 (lockEvent a0 a1 a2 a3 a4) := by
  unfold lockEvent
  exact a6Rec_only (sub_trans rfl hW)

-- SKIP Sys2Proof.Machine.upLinks

theorem queueLock_only {W : List Blk} {a0 : Bytes} {a1 : Nat} {a2 : Machine.State} (hW : sub [.power] W = true) : Only W a2 (queueLock a0 a1 a2) := by
  unfold queueLock
  extract_lets +onlyGivenNames -merge -useContext -underBinder x0
  try clear_value x0
  extract_lets +onlyGivenNames -merge -useContext -underBinder x1
  try clear_value x1
  exact State.modPower_only (sub_trans rfl hW)

theorem sendLock_only {W : List Blk} {a0 : Nat} {a1 : Nat} {a2 : Nat} {a3 : Nat} {a4 : Machine.State} (hW : sub [.power] W = true) : Only W a4 (sendLock a0 a1 a2 a3 a4) := by
  unfold sendLock
  extract_lets +onlyGivenNames -merge -useContext -underBinder x0
  try clear_value x0
  extract_lets +onlyGivenNames -merge -useContext -underBinder x1
  try clear_value x1
  refine Only.after (forEach_only (fun _ t2 => ?_)) ?_
  · exact queueLock_only (sub_trans rfl hW)
  · exact State.modPower_only (sub_trans rfl hW)

-- SKIP Sys2Proof.Machine.lockRoom

theorem takeLock_only {W : List Blk} {a0 : Nat} {a1 : Bytes} {a2 : Machine.State} (hW : sub [.adit, .power] W = true) : Only W a2 (takeLock a0 a1 a2) := by
  unfold takeLock
  extract_lets +onlyGivenNames -merge -useContext -underBinder x0
  try clear_value x0
  extract_lets +onlyGivenNames -merge -useContext -underBinder x1
  try clear_value x1
  extract_lets +onlyGivenNames -merge -useContext -underBinder x2
  try clear_value x2
  extract_lets +onlyGivenNames -merge -useContext -underBinder x3
  try clear_value x3
  refine Only.ite (fun _ => ?_) (fun _ => ?_)
  · exact Only.rfl
  · refine Only.ite (fun _ => ?_) (fun _ => ?_)
    · extract_lets +onlyGivenNames -merge -useContext -underBinder x4
      try clear_value x4
      refine Only.ite (fun _ => ?_) (fun _ => ?_)
      · exact Only.rfl
      · exact Only.after (lockEvent_only (sub_trans rfl hW)) (State.modPower_only (sub_trans rfl hW))
    · extract_lets +onlyGivenNames -merge -useContext -underBinder x5
      try clear_value x5
      extract_lets +onlyGivenNames -merge -useContext -underBinder x6
      try clear_value x6
      extract_lets +onlyGivenNames -merge -useContext -underBinder x7
      try clear_value x7
      extract_lets +onlyGivenNames -merge -useContext -underBinder x8
      try clear_value x8
      extract_lets +onlyGivenNames -merge -useContext -underBinder x9
      try clear_value x9
      extract_lets +onlyGivenNames -merge -useContext -underBinder x10
      try clear_value x10
      extract_lets +onlyGivenNames -merge -useContext -underBinder x11
      have h12 : Only W a2 x11 := by
        unfold x11
        exact State.modPower_only (sub_trans rfl hW)
      clear_value x11
      extract_lets +onlyGivenNames -merge -useContext -underBinder x13
      have h14 : Only W a2 x13 := by
        unfold x13
        refine Only.ite (fun _ => ?_) (fun _ => ?_)
        · exact Only.after (lockEvent_only (sub_trans rfl hW)) (h12)
        · exact h12
      clear_value x13
      extract_lets +onlyGivenNames -merge -useContext -underBinder x15
      have h16 : Only W a2 x15 := by
        unfold x15
        refine Only.ite (fun _ => ?_) (fun _ => ?_)
        · exact Only.after (lockEvent_only (sub_trans rfl hW)) (h14)
        · exact h14
      clear_value x15
      refine Only.ite (fun _ => ?_) (fun _ => ?_)
      · refine Only.after (forEach_only (fun _ t17 => ?_)) ?_
        · exact queueLock_only (sub_trans rfl hW)
        · exact h16
      · exact h16

theorem withA5_only {W : List Blk} {a0 : Nat} {a1 : Nat → Bytes → Machine.State → Machine.State} {a2 : Machine.State} (hW : sub [.adit] W = true) (g0 : ∀ v0 v1 v2, Only W v2 (a1 v0 v1 v2)) : Only W a2 (withA5 a0 a1 a2) := by
  unfold withA5
  split
  · exact Only.rfl
  · refine Only.ite (fun _ => ?_) (fun _ => ?_)
    · exact Only.after (g0 _ _ _) (State.modAdit_only (sub_trans rfl hW))
    · exact Only.rfl

theorem lockSilent_only {W : List Blk} {a0 : Nat} {a1 : Nat} {a2 : Machine.State} (hW : sub [.adit, .power] W = true) : Only W a2 (lockSilent a0 a1 a2) := by
  unfold lockSilent
  split
  · exact Only.rfl
  · extract_lets +onlyGivenNames -merge -useContext -underBinder x0
    have h1 : Only W a2 x0 := by
      unfold x0
      exact State.modPower_only (sub_trans rfl hW)
    clear_value x0
    refine Only.ite (fun _ => ?_) (fun _ => ?_)
    · exact Only.after (lockEvent_only (sub_trans rfl hW)) (h1)
    · exact h1

theorem lockForget_only {W : List Blk} {a0 : Nat} {a1 : Nat} {a2 : Machine.State} (hW : sub [.power] W = true) : Only W a2 (lockForget a0 a1 a2) := by
  unfold lockForget
  exact State.modPower_only (sub_trans rfl hW)

theorem lockSend_only {W : List Blk} {a0 : Nat} {a1 : Machine.State} (hW : sub [.adit, .power] W = true) : Only W a1 (lockSend a0 a1) := by
  unfold lockSend
  split
  · exact Only.rfl
  · refine Only.ite (fun _ => ?_) (fun _ => ?_)
    · exact Only.rfl
    · exact Only.after (a5Out_only (sub_trans rfl hW)) (State.modPower_only (sub_trans rfl hW))

theorem reasonStep_only {W : List Blk} {a0 : Nat} {a1 : Bool} {a2 : Rat} {a3 : StepView} {a4 : Machine.State} (hW : sub [.adit, .power] W = true) : Only W a4 (reasonStep a0 a1 a2 a3 a4) := by
  unfold reasonStep
  extract_lets +onlyGivenNames -merge -useContext -underBinder x0
  try clear_value x0
  extract_lets +onlyGivenNames -merge -useContext -underBinder x1
  unfold x1
  refine Only.ite (fun _ => ?_) (fun _ => ?_)
  · extract_lets +onlyGivenNames -merge -useContext -underBinder x2
    try clear_value x2
    exact State.modPower_only (sub_trans rfl hW)
  · refine Only.ite (fun _ => ?_) (fun _ => ?_)
    · exact Only.rfl
    · extract_lets +onlyGivenNames -merge -useContext -underBinder x3
      try clear_value x3
      refine Only.ite (fun _ => ?_) (fun _ => ?_)
      · exact State.modPower_only (sub_trans rfl hW)
      · extract_lets +onlyGivenNames -merge -useContext -underBinder x4
        try clear_value x4
        exact Only.after (a6Rec_only (sub_trans rfl hW)) (State.modPower_only (sub_trans rfl hW))

theorem throttleCounters_only {W : List Blk} {a0 : Bool} {a1 : Machine.State} (hW : sub [.adit] W = true) : Only W a1 (throttleCounters a0 a1) := by
  unfold throttleCounters
  refine Only.after (forEach_only (fun _ t0 => ?_)) ?_
  · exact a6Rec_only (sub_trans rfl hW)
  · exact Only.rfl

theorem logReplay_only {W : List Blk} {a0 : Nat} {a1 : Machine.State} (hW : sub [.adit] W = true) : Only W a1 (logReplay a0 a1) := by
  unfold logReplay
  refine Only.foldl (fun t0 _ => ?_) ?_
  · exact a6Rec_only (sub_trans rfl hW)
  · exact Only.rfl

-- SKIP Sys2Proof.Machine.heatDemand

theorem pwrStatus_only {W : List Blk} {a0 : Machine.State} (hW : sub [.adit] W = true) : Only W a0 (pwrStatus a0) := by
  unfold pwrStatus
  extract_lets +onlyGivenNames -merge -useContext -underBinder x0
  try clear_value x0
  extract_lets +onlyGivenNames -merge -useContext -underBinder x1
  try clear_value x1
  extract_lets +onlyGivenNames -merge -useContext -underBinder x2
  have h3 : Only W a0 x2 := by
    unfold x2
    exact a6Rec_only (sub_trans rfl hW)
  clear_value x2
  exact Only.after (State.modAdit_only (sub_trans rfl hW)) (h3)

theorem pwrLockStatus_only {W : List Blk} {a0 : Machine.State} (hW : sub [.adit] W = true) : Only W a0 (pwrLockStatus a0) := by
  unfold pwrLockStatus
  refine Only.foldl (fun t0 _ => ?_) ?_
  · exact a6Rec_only (sub_trans rfl hW)
  · exact Only.rfl

theorem pwrDroop_only {W : List Blk} {a0 : Machine.State} (hW : sub [.adit, .power] W = true) : Only W a0 (pwrDroop a0) := by
  unfold pwrDroop
  refine Only.ite (fun _ => ?_) (fun _ => ?_)
  · exact Only.rfl
  · exact Only.after (a6Rec_only (sub_trans rfl hW)) (State.modPower_only (sub_trans rfl hW))

theorem droop_only {W : List Blk} {a0 : Nat} {a1 : Machine.State} (hW : sub [.beat, .power] W = true) : Only W a1 (droop a0 a1) := by
  unfold droop
  split
  · exact Only.rfl
  · refine Only.ite (fun _ => ?_) (fun _ => ?_)
    · exact State.modPower_only (sub_trans rfl hW)
    · exact State.modClus_only (sub_trans rfl hW)

theorem setCapTo_only {W : List Blk} {a0 : Nat} {a1 : Machine.State} (hW : sub [.mgmt, .power] W = true) : OnlyVia Prod.snd W a1 (setCapTo a0 a1) := by
  unfold setCapTo
  refine Only.via2 ?_
  exact Only.after (powerChanged_only (sub_trans rfl hW)) (State.modPower_only (sub_trans rfl hW))

theorem polSetCap_only {W : List Blk} {a0 : Machine.State} (hW : sub [.adit, .mgmt, .power] W = true) : Only W a0 (polSetCap a0) := by
  unfold polSetCap
  refine Only.after (policyRun_only (sub_trans rfl hW) (fun _ t0 => ?_)) ?_
  · split
    · rename_i y2 y3 q4
      have h1 := Only.ofEq (p := Prod.snd) (setCapTo_only (sub_trans rfl hW)) q4 (W := W) (s := t0) (by
        exact Only.rfl
        )
      refine Only.via3 ?_
      exact h1
  · exact Only.rfl

theorem polSetMode_only {W : List Blk} {a0 : Machine.State} (hW : sub [.adit, .mgmt, .power] W = true) : Only W a0 (polSetMode a0) := by
  unfold polSetMode
  refine Only.after (policyRun_only (sub_trans rfl hW) (fun _ t0 => ?_)) ?_
  · refine Only.via3 ?_
    exact Only.after (powerChanged_only (sub_trans rfl hW)) (State.modPower_only (sub_trans rfl hW))
  · exact Only.rfl

theorem polLockPermit_only {W : List Blk} {a0 : Machine.State} (hW : sub [.adit, .mgmt] W = true) : Only W a0 (polLockPermit a0) := by
  unfold polLockPermit
  refine Only.after (policyRun_only (sub_trans rfl hW) (fun _ t0 => ?_)) ?_
  · refine Only.iteV (fun _ => ?_) (fun _ => ?_)
    · refine Only.via3 ?_
      exact Only.rfl
    · refine Only.via3 ?_
      exact Only.rfl
  · exact Only.rfl

theorem polCounters_only {W : List Blk} {a0 : Machine.State} (hW : sub [.adit, .mgmt] W = true) : Only W a0 (polCounters a0) := by
  unfold polCounters
  refine Only.after (policyRun_only (sub_trans rfl hW) (fun _ t0 => ?_)) ?_
  · refine Only.via3 ?_
    exact throttleCounters_only (sub_trans rfl hW)
  · exact Only.rfl

theorem polLogReplay_only {W : List Blk} {a0 : Machine.State} (hW : sub [.adit, .mgmt] W = true) : Only W a0 (polLogReplay a0) := by
  unfold polLogReplay
  refine Only.after (policyRun_only (sub_trans rfl hW) (fun _ t0 => ?_)) ?_
  · refine Only.via3 ?_
    exact logReplay_only (sub_trans rfl hW)
  · exact Only.rfl

-- SKIP Sys2Proof.Machine.State.sensor
-- SKIP Sys2Proof.Machine.sensorVal

theorem sensorFault_only {W : List Blk} {a0 : Nat} {a1 : Nat} {a2 : Machine.State} (hW : sub [.adit] W = true) : Only W a2 (sensorFault a0 a1 a2) := by
  unfold sensorFault
  exact a6Rec_only (sub_trans rfl hW)

theorem modSensor_only {W : List Blk} {a0 : Nat} {a1 : Sensor → Sensor} {a2 : Machine.State} (hW : sub [.heat] W = true) : Only W a2 (modSensor a0 a1 a2) := by
  unfold modSensor
  exact State.modHeat_only (sub_trans rfl hW)

theorem takeSample_only {W : List Blk} {a0 : Nat} {a1 : Option Int} {a2 : Option Int} {a3 : Machine.State} (hW : sub [.adit, .heat] W = true) : Only W a3 (takeSample a0 a1 a2 a3) := by
  unfold takeSample
  extract_lets +onlyGivenNames -merge -useContext -underBinder x0
  try clear_value x0
  split
  · extract_lets +onlyGivenNames -merge -useContext -underBinder x1
    have h2 : Only W a3 x1 := by
      unfold x1
      exact modSensor_only (sub_trans rfl hW)
    clear_value x1
    refine Only.ite (fun _ => ?_) (fun _ => ?_)
    · exact Only.after (sensorFault_only (sub_trans rfl hW)) (h2)
    · exact h2
  · extract_lets +onlyGivenNames -merge -useContext -underBinder x3
    try clear_value x3
    extract_lets +onlyGivenNames -merge -useContext -underBinder x4
    have h5 : Only W a3 x4 := by
      unfold x4
      exact modSensor_only (sub_trans rfl hW)
    clear_value x4
    extract_lets +onlyGivenNames -merge -useContext -underBinder x6
    try clear_value x6
    refine Only.ite (fun _ => ?_) (fun _ => ?_)
    · exact Only.after (sensorFault_only (sub_trans rfl hW)) (h5)
    · refine Only.ite (fun _ => ?_) (fun _ => ?_)
      · exact Only.after (sensorFault_only (sub_trans rfl hW)) (h5)
      · exact h5

theorem sensorAgain_only {W : List Blk} {a0 : Nat} {a1 : Machine.State} (hW : sub [.adit, .heat] W = true) : Only W a1 (sensorAgain a0 a1) := by
  unfold sensorAgain
  extract_lets +onlyGivenNames -merge -useContext -underBinder x0
  try clear_value x0
  refine Only.ite (fun _ => ?_) (fun _ => ?_)
  · extract_lets +onlyGivenNames -merge -useContext -underBinder x1
    have h2 : Only W a1 x1 := by
      unfold x1
      exact modSensor_only (sub_trans rfl hW)
    clear_value x1
    refine Only.ite (fun _ => ?_) (fun _ => ?_)
    · exact h2
    · exact Only.after (sensorFault_only (sub_trans rfl hW)) (h2)
  · exact Only.rfl

-- SKIP Sys2Proof.Machine.State.zone

theorem modZone_only {W : List Blk} {a0 : Nat} {a1 : Zone → Zone} {a2 : Machine.State} (hW : sub [.heat] W = true) : Only W a2 (modZone a0 a1 a2) := by
  unfold modZone
  exact State.modHeat_only (sub_trans rfl hW)

-- SKIP Sys2Proof.Machine.zoneValid
-- SKIP Sys2Proof.Machine.anyFaulted

theorem zoneRec_only {W : List Blk} {a0 : Nat} {a1 : Bool} {a2 : Machine.State} (hW : sub [.adit] W = true) : Only W a2 (zoneRec a0 a1 a2) := by
  unfold zoneRec
  exact a6Rec_only (sub_trans rfl hW)

theorem judgeZone_only {W : List Blk} {a0 : Nat} {a1 : Machine.State} (hW : sub [.adit, .power, .heat] W = true) : Only W a1 (judgeZone a0 a1) := by
  unfold judgeZone
  refine Only.ite (fun _ => ?_) (fun _ => ?_)
  · exact Only.rfl
  · refine Only.ite (fun _ => ?_) (fun _ => ?_)
    · refine Only.ite (fun _ => ?_) (fun _ => ?_)
      · exact modZone_only (sub_trans rfl hW)
      · extract_lets +onlyGivenNames -merge -useContext -underBinder x0
        try clear_value x0
        extract_lets +onlyGivenNames -merge -useContext -underBinder x1
        try clear_value x1
        extract_lets +onlyGivenNames -merge -useContext -underBinder x2
        have h3 : Only W a1 x2 := by
          unfold x2
          exact modZone_only (sub_trans rfl hW)
        clear_value x2
        refine Only.after (zoneRec_only (sub_trans rfl hW)) ?_
        · refine Only.ite (fun _ => ?_) (fun _ => ?_)
          · exact Only.after (State.modPower_only (sub_trans rfl hW)) (h3)
          · exact h3
    · refine Only.ite (fun _ => ?_) (fun _ => ?_)
      · exact modZone_only (sub_trans rfl hW)
      · exact Only.rfl

theorem zoneClear_only {W : List Blk} {a0 : Nat} {a1 : Machine.State} (hW : sub [.adit, .power, .heat] W = true) : Only W a1 (zoneClear a0 a1) := by
  unfold zoneClear
  extract_lets +onlyGivenNames -merge -useContext -underBinder x0
  have h1 : Only W a1 x0 := by
    unfold x0
    exact modZone_only (sub_trans rfl hW)
  clear_value x0
  refine Only.after (zoneRec_only (sub_trans rfl hW)) ?_
  · refine Only.ite (fun _ => ?_) (fun _ => ?_)
    · exact h1
    · exact Only.after (State.modPower_only (sub_trans rfl hW)) (h1)

theorem zoneRecover_only {W : List Blk} {a0 : Nat} {a1 : Machine.State} (hW : sub [.adit, .power, .heat] W = true) : Only W a1 (zoneRecover a0 a1) := by
  unfold zoneRecover
  refine Only.ite (fun _ => ?_) (fun _ => ?_)
  · exact zoneClear_only (sub_trans rfl hW)
  · exact Only.rfl

theorem stackZonesOff_only {W : List Blk} {a0 : Machine.State} (hW : sub [.adit, .power, .heat] W = true) : Only W a0 (stackZonesOff a0) := by
  unfold stackZonesOff
  refine Only.after (forEach_only (fun _ t0 => ?_)) ?_
  · refine Only.ite (fun _ => ?_) (fun _ => ?_)
    · exact zoneClear_only (sub_trans rfl hW)
    · exact Only.rfl
  · exact Only.rfl

-- SKIP Sys2Proof.Machine.readings
-- SKIP Sys2Proof.Machine.dieVal
-- SKIP Sys2Proof.Machine.probeVal
-- SKIP Sys2Proof.Machine.inletVal
-- SKIP Sys2Proof.Machine.outletVal
-- SKIP Sys2Proof.Machine.State.thr

theorem modThr_only {W : List Blk} {a0 : Nat} {a1 : Thr → Thr} {a2 : Machine.State} (hW : sub [.heat] W = true) : Only W a2 (modThr a0 a1 a2) := by
  unfold modThr
  exact State.modHeat_only (sub_trans rfl hW)

-- SKIP Sys2Proof.Machine.thrValue

theorem judgeThr_only {W : List Blk} {a0 : Nat} {a1 : Machine.State} (hW : sub [.heat] W = true) : Only W a1 (judgeThr a0 a1) := by
  unfold judgeThr
  split
  · exact Only.rfl
  · exact modThr_only (sub_trans rfl hW)

theorem thrRec_only {W : List Blk} {a0 : Nat} {a1 : Machine.State} (hW : sub [.adit] W = true) : Only W a1 (thrRec a0 a1) := by
  unfold thrRec
  extract_lets +onlyGivenNames -merge -useContext -underBinder x0
  try clear_value x0
  extract_lets +onlyGivenNames -merge -useContext -underBinder x1
  try clear_value x1
  exact a6Rec_only (sub_trans rfl hW)

theorem thrDwell_only {W : List Blk} {a0 : Nat} {a1 : Machine.State} (hW : sub [.adit, .heat] W = true) : Only W a1 (thrDwell a0 a1) := by
  unfold thrDwell
  split
  · exact Only.rfl
  · extract_lets +onlyGivenNames -merge -useContext -underBinder x0
    try clear_value x0
    exact Only.after (thrRec_only (sub_trans rfl hW)) (modThr_only (sub_trans rfl hW))
  · exact Only.after (thrRec_only (sub_trans rfl hW)) (modThr_only (sub_trans rfl hW))

-- SKIP Sys2Proof.Machine.hotStack

theorem thermalDemand_only {W : List Blk} {a0 : Machine.State} (hW : sub [.heat] W = true) : Only W a0 (thermalDemand a0) := by
  unfold thermalDemand
  extract_lets +onlyGivenNames -merge -useContext -underBinder x0
  try clear_value x0
  extract_lets +onlyGivenNames -merge -useContext -underBinder x1
  try clear_value x1
  extract_lets +onlyGivenNames -merge -useContext -underBinder x2
  try clear_value x2
  exact State.modHeat_only (sub_trans rfl hW)

-- SKIP Sys2Proof.Machine.measuredMw

theorem dieSample_only {W : List Blk} {a0 : List (Option Int)} {a1 : Machine.State} (hW : sub [.adit, .power, .heat] W = true) : Only W a1 (dieSample a0 a1) := by
  unfold dieSample
  extract_lets +onlyGivenNames -merge -useContext -underBinder x0
  have h1 : Only W a1 x0 := by
    unfold x0
    refine Only.after (forEach_only (fun _ t2 => ?_)) ?_
    · exact takeSample_only (sub_trans rfl hW)
    · exact Only.rfl
  clear_value x0
  refine Only.after (forEach_only (fun _ t3 => ?_)) ?_
  · exact judgeThr_only (sub_trans rfl hW)
  · exact Only.after (judgeZone_only (sub_trans rfl hW)) (h1)

theorem stackSample_only {W : List Blk} {a0 : List (Nat × Nat)} {a1 : Machine.State} (hW : sub [.adit, .power, .heat] W = true) : Only W a1 (stackSample a0 a1) := by
  unfold stackSample
  extract_lets +onlyGivenNames -merge -useContext -underBinder x0
  have h1 : Only W a1 x0 := by
    unfold x0
    refine Only.foldl (fun t2 _ => ?_) ?_
    · exact takeSample_only (sub_trans rfl hW)
    · exact Only.rfl
  clear_value x0
  refine Only.after (forEach_only (fun _ t3 => ?_)) ?_
  · exact judgeThr_only (sub_trans rfl hW)
  · refine Only.after (forEach_only (fun _ t4 => ?_)) ?_
    · exact judgeZone_only (sub_trans rfl hW)
    · exact h1

theorem judgeProbe_only {W : List Blk} {a0 : Nat} {a1 : Machine.State} (hW : sub [.heat] W = true) : Only W a1 (judgeProbe a0 a1) := by
  unfold judgeProbe
  extract_lets +onlyGivenNames -merge -useContext -underBinder x0
  try clear_value x0
  exact State.modHeat_only (sub_trans rfl hW)

theorem probeDisagree_only {W : List Blk} {a0 : Nat} {a1 : Machine.State} (hW : sub [.adit, .heat] W = true) : Only W a1 (probeDisagree a0 a1) := by
  unfold probeDisagree
  refine Only.ite (fun _ => ?_) (fun _ => ?_)
  · exact Only.after (sensorFault_only (sub_trans rfl hW)) (State.modHeat_only (sub_trans rfl hW))
  · exact Only.rfl

theorem judgeDew_only {W : List Blk} {a0 : Machine.State} (hW : sub [.heat] W = true) : Only W a0 (judgeDew a0) := by
  unfold judgeDew
  split
  · extract_lets +onlyGivenNames -merge -useContext -underBinder x0
    try clear_value x0
    exact State.modHeat_only (sub_trans rfl hW)
  · exact Only.rfl

theorem dewDwell_only {W : List Blk} {a0 : Machine.State} (hW : sub [.adit, .heat] W = true) : Only W a0 (dewDwell a0) := by
  unfold dewDwell
  split
  · exact Only.rfl
  · extract_lets +onlyGivenNames -merge -useContext -underBinder x0
    try clear_value x0
    exact Only.after (a6Rec_only (sub_trans rfl hW)) (State.modHeat_only (sub_trans rfl hW))

theorem humiditySample_only {W : List Blk} {a0 : Option Int} {a1 : Option Int} {a2 : Option Int} {a3 : Machine.State} (hW : sub [.adit, .heat] W = true) : Only W a3 (humiditySample a0 a1 a2 a3) := by
  unfold humiditySample
  extract_lets +onlyGivenNames -merge -useContext -underBinder x0
  have h1 : Only W a3 x0 := by
    unfold x0
    exact Only.after (takeSample_only (sub_trans rfl hW)) (takeSample_only (sub_trans rfl hW))
  clear_value x0
  refine Only.ite (fun _ => ?_) (fun _ => ?_)
  · exact Only.after (State.modHeat_only (sub_trans rfl hW)) (h1)
  · exact h1

theorem coolantRead_only {W : List Blk} {a0 : CoolantIn} {a1 : Machine.State} (hW : sub [.adit, .power, .heat, .pump] W = true) : Only W a1 (coolantRead a0 a1) := by
  unfold coolantRead
  extract_lets +onlyGivenNames -merge -useContext -underBinder x0
  have h1 : Only W a1 x0 := by
    unfold x0
    exact Only.after (takeSample_only (sub_trans rfl hW)) (takeSample_only (sub_trans rfl hW))
  clear_value x0
  extract_lets +onlyGivenNames -merge -useContext -underBinder x2
  have h3 : Only W a1 x2 := by
    unfold x2
    exact Only.after (takeSample_only (sub_trans rfl hW)) (Only.after (takeSample_only (sub_trans rfl hW)) (h1))
  clear_value x2
  extract_lets +onlyGivenNames -merge -useContext -underBinder x4
  have h5 : Only W a1 x4 := by
    unfold x4
    exact Only.after (takeSample_only (sub_trans rfl hW)) (Only.after (takeSample_only (sub_trans rfl hW)) (h3))
  clear_value x4
  extract_lets +onlyGivenNames -merge -useContext -underBinder x6
  have h7 : Only W a1 x6 := by
    unfold x6
    exact Only.after (takeSample_only (sub_trans rfl hW)) (h5)
  clear_value x6
  extract_lets +onlyGivenNames -merge -useContext -underBinder x8
  have h9 : Only W a1 x8 := by
    unfold x8
    refine Only.after (forEach_only (fun _ t10 => ?_)) ?_
    · exact judgeProbe_only (sub_trans rfl hW)
    · exact h7
  clear_value x8
  extract_lets +onlyGivenNames -merge -useContext -underBinder x11
  have h12 : Only W a1 x11 := by
    unfold x11
    refine Only.after (forEach_only (fun _ t13 => ?_)) ?_
    · exact judgeZone_only (sub_trans rfl hW)
    · exact h9
  clear_value x11
  extract_lets +onlyGivenNames -merge -useContext -underBinder x14
  have h15 : Only W a1 x14 := by
    unfold x14
    refine Only.after (judgeDew_only (sub_trans rfl hW)) ?_
    · refine Only.after (forEach_only (fun _ t16 => ?_)) ?_
      · exact judgeThr_only (sub_trans rfl hW)
      · exact h12
  clear_value x14
  extract_lets +onlyGivenNames -merge -useContext -underBinder x17
  have h18 : Only W a1 x17 := by
    unfold x17
    exact Only.after (State.modHeat_only (sub_trans rfl hW)) (h15)
  clear_value x17
  exact Only.after (State.modPump_only (sub_trans rfl hW)) (h18)

theorem queueStore_only {W : List Blk} {a0 : Nat} {a1 : List Int} {a2 : Machine.State} (hW : sub [.mgmt] W = true) : Only W a2 (queueStore a0 a1 a2) := by
  unfold queueStore
  exact State.modMgmt_only (sub_trans rfl hW)

theorem loopEvent_only {W : List Blk} {a0 : Nat} {a1 : Int} {a2 : Machine.State} (hW : sub [.adit] W = true) : Only W a2 (loopEvent a0 a1 a2) := by
  unfold loopEvent
  exact a6Rec_only (sub_trans rfl hW)

theorem pumpFault_only {W : List Blk} {a0 : Nat} {a1 : Nat} {a2 : Machine.State} (hW : sub [.adit] W = true) : Only W a2 (pumpFault a0 a1 a2) := by
  unfold pumpFault
  exact a6Rec_only (sub_trans rfl hW)

-- SKIP Sys2Proof.Machine.sMeas
-- SKIP Sys2Proof.Machine.skipBand
-- SKIP Sys2Proof.Machine.normSpeed
-- SKIP Sys2Proof.Machine.captureSpeed
-- SKIP Sys2Proof.Machine.speedRef
-- SKIP Sys2Proof.Machine.diagDeferred
-- SKIP Sys2Proof.Machine.phaseOpen
-- SKIP Sys2Proof.Machine.nearTarget
-- SKIP Sys2Proof.Machine.topTarget
-- SKIP Sys2Proof.Machine.atLimit
-- SKIP Sys2Proof.Machine.pumpAlarm

theorem applyMode_only {W : List Blk} {a0 : Bool} {a1 : Machine.State} (hW : sub [.pump] W = true) : Only W a1 (applyMode a0 a1) := by
  unfold applyMode
  refine Only.ite (fun _ => ?_) (fun _ => ?_)
  · exact Only.rfl
  · refine Only.ite (fun _ => ?_) (fun _ => ?_)
    · exact State.modPump_only (sub_trans rfl hW)
    · extract_lets +onlyGivenNames -merge -useContext -underBinder x0
      try clear_value x0
      exact State.modPump_only (sub_trans rfl hW)

theorem setMode_only {W : List Blk} {a0 : Bool} {a1 : Machine.State} (hW : sub [.pump] W = true) : Only W a1 (setMode a0 a1) := by
  unfold setMode
  refine Only.ite (fun _ => ?_) (fun _ => ?_)
  · exact State.modPump_only (sub_trans rfl hW)
  · exact applyMode_only (sub_trans rfl hW)

theorem abortCapture_only {W : List Blk} {a0 : Machine.State} (hW : sub [.adit, .pump] W = true) : Only W a0 (abortCapture a0) := by
  unfold abortCapture
  split
  · exact Only.rfl
  · exact Only.after (setMode_only (sub_trans rfl hW)) (Only.after (loopEvent_only (sub_trans rfl hW)) (State.modPump_only (sub_trans rfl hW)))

theorem coolantChanged_only {W : List Blk} {a0 : Machine.State} (hW : sub [.mgmt] W = true) : Only W a0 (coolantChanged a0) := by
  unfold coolantChanged
  exact State.modMgmt_only (sub_trans rfl hW)

-- SKIP Sys2Proof.Machine.deltaT
-- SKIP Sys2Proof.Machine.flowFor
-- SKIP Sys2Proof.Machine.flowTarget

theorem ratioStep_only {W : List Blk} {a0 : Machine.State} (hW : sub [.pump] W = true) : Only W a0 (ratioStep a0) := by
  unfold ratioStep
  extract_lets +onlyGivenNames -merge -useContext -underBinder x0
  try clear_value x0
  refine Only.ite (fun _ => ?_) (fun _ => ?_)
  · exact Only.rfl
  · split
    · exact Only.rfl
    · extract_lets +onlyGivenNames -merge -useContext -underBinder x1
      unfold x1
      refine Only.ite (fun _ => ?_) (fun _ => ?_)
      · extract_lets +onlyGivenNames -merge -useContext -underBinder x2
        try clear_value x2
        exact State.modPump_only (sub_trans rfl hW)
      · extract_lets +onlyGivenNames -merge -useContext -underBinder x3
        try clear_value x3
        extract_lets +onlyGivenNames -merge -useContext -underBinder x4
        try clear_value x4
        refine Only.ite (fun _ => ?_) (fun _ => ?_)
        · exact Only.rfl
        · extract_lets +onlyGivenNames -merge -useContext -underBinder x5
          try clear_value x5
          extract_lets +onlyGivenNames -merge -useContext -underBinder x6
          try clear_value x6
          exact State.modPump_only (sub_trans rfl hW)

theorem coolantControl_only {W : List Blk} {a0 : Machine.State} (hW : sub [.pump] W = true) : Only W a0 (coolantControl a0) := by
  unfold coolantControl
  exact Only.after (ratioStep_only (sub_trans rfl hW)) (State.modPump_only (sub_trans rfl hW))

-- SKIP Sys2Proof.Machine.forecastOf
-- SKIP Sys2Proof.Machine.counted
-- SKIP Sys2Proof.Machine.pPk
-- SKIP Sys2Proof.Machine.qNeed
-- SKIP Sys2Proof.Machine.coolingReady
-- SKIP Sys2Proof.Machine.railReady

theorem admitHold_only {W : List Blk} {a0 : Nat} {a1 : Nat} {a2 : MGroup} {a3 : Machine.State} (hW : sub [.adit] W = true) : Only W a3 (admitHold a0 a1 a2 a3) := by
  unfold admitHold
  exact a6Rec_only (sub_trans rfl hW)

theorem releaseOffer_only {W : List Blk} {a0 : Nat} {a1 : Machine.State} (hW : sub [.adit, .heat] W = true) : Only W a1 (releaseOffer a0 a1) := by
  unfold releaseOffer
  split
  · exact Only.rfl
  · extract_lets +onlyGivenNames -merge -useContext -underBinder x0
    have h1 : Only W a1 x0 := by
      unfold x0
      refine Only.ite (fun _ => ?_) (fun _ => ?_)
      · exact admitHold_only (sub_trans rfl hW)
      · exact Only.rfl
    clear_value x0
    exact Only.after (a3Down_only (sub_trans rfl hW)) (Only.after (State.modMg_only (sub_trans rfl hW)) (h1))

theorem nowReady_only {W : List Blk} {a0 : Nat} {a1 : Bool} {a2 : Machine.State} (hW : sub [.adit, .heat] W = true) : Only W a2 (nowReady a0 a1 a2) := by
  unfold nowReady
  extract_lets +onlyGivenNames -merge -useContext -underBinder x0
  have h1 : Only W a2 x0 := by
    unfold x0
    exact State.modMg_only (sub_trans rfl hW)
  clear_value x0
  split
  · exact h1
  · refine Only.ite (fun _ => ?_) (fun _ => ?_)
    · exact Only.after (releaseOffer_only (sub_trans rfl hW)) (h1)
    · exact h1

-- SKIP Sys2Proof.Machine.heldGroups

theorem evalOffers_only {W : List Blk} {a0 : Machine.State} (hW : sub [.adit, .heat] W = true) : Only W a0 (evalOffers a0) := by
  unfold evalOffers
  refine Only.foldl (fun t0 _ => ?_) ?_
  · split
    · refine Only.ite (fun _ => ?_) (fun _ => ?_)
      · exact nowReady_only (sub_trans rfl hW)
      · exact Only.rfl
    · exact Only.rfl
  · exact Only.rfl

theorem deliverForecast_only {W : List Blk} {a0 : Machine.State} (hW : sub [.adit, .heat, .pump] W = true) : Only W a0 (deliverForecast a0) := by
  unfold deliverForecast
  exact Only.after (evalOffers_only (sub_trans rfl hW)) (Only.after (coolantControl_only (sub_trans rfl hW)) (State.modHeat_only (sub_trans rfl hW)))

theorem takeA3_only {W : List Blk} {a0 : Type} {a1 : A3Msg → Option a0} {a2 : a0 → Machine.State → Machine.State} {a3 : Machine.State} (hW : sub [.adit] W = true) (g0 : ∀ v0 v1, Only W v1 (a2 v0 v1)) : Only W a3 (takeA3 a1 a2 a3) := by
  unfold takeA3
  refine Only.ite (fun _ => ?_) (fun _ => ?_)
  · exact Only.rfl
  · split
    · exact Only.rfl
    · split
      · exact Only.after (g0 _ _) (State.modAdit_only (sub_trans rfl hW))
      · exact Only.rfl

theorem setMg_only {W : List Blk} {a0 : Nat} {a1 : Option MGroup} {a2 : Machine.State} (hW : sub [.heat] W = true) : Only W a2 (setMg a0 a1 a2) := by
  unfold setMg
  exact State.modHeat_only (sub_trans rfl hW)

theorem takeOffer_only {W : List Blk} {a0 : OfferMsg} {a1 : Machine.State} (hW : sub [.adit, .heat, .pump] W = true) : Only W a1 (takeOffer a0 a1) := by
  unfold takeOffer
  extract_lets +onlyGivenNames -merge -useContext -underBinder x0
  try clear_value x0
  extract_lets +onlyGivenNames -merge -useContext -underBinder x1
  try clear_value x1
  extract_lets +onlyGivenNames -merge -useContext -underBinder x2
  have h3 : Only W a1 x2 := by
    unfold x2
    exact Only.after (setMg_only (sub_trans rfl hW)) (Only.after (State.modHeat_only (sub_trans rfl hW)) (abortCapture_only (sub_trans rfl hW)))
  clear_value x2
  extract_lets +onlyGivenNames -merge -useContext -underBinder x4
  try clear_value x4
  extract_lets +onlyGivenNames -merge -useContext -underBinder x5
  have h6 : Only W a1 x5 := by
    unfold x5
    exact Only.after (State.modMg_only (sub_trans rfl hW)) (h3)
  clear_value x5
  extract_lets +onlyGivenNames -merge -useContext -underBinder x7
  have h8 : Only W a1 x7 := by
    unfold x7
    refine Only.ite (fun _ => ?_) (fun _ => ?_)
    · exact Only.after (releaseOffer_only (sub_trans rfl hW)) (h6)
    · exact Only.after (a3Down_only (sub_trans rfl hW)) (h6)
  clear_value x7
  exact Only.after (deliverForecast_only (sub_trans rfl hW)) (h8)

theorem takeWithdraw_only {W : List Blk} {a0 : Nat} {a1 : Machine.State} (hW : sub [.adit, .heat, .pump] W = true) : Only W a1 (takeWithdraw a0 a1) := by
  unfold takeWithdraw
  split
  · exact Only.rfl
  · refine Only.ite (fun _ => ?_) (fun _ => ?_)
    · exact Only.rfl
    · exact Only.after (deliverForecast_only (sub_trans rfl hW)) (setMg_only (sub_trans rfl hW))

theorem takeStart_only {W : List Blk} {a0 : Nat} {a1 : Machine.State} (hW : sub [.adit, .power, .heat, .pump] W = true) : Only W a1 (takeStart a0 a1) := by
  unfold takeStart
  split
  · exact Only.rfl
  · extract_lets +onlyGivenNames -merge -useContext -underBinder x0
    try clear_value x0
    extract_lets +onlyGivenNames -merge -useContext -underBinder x1
    have h2 : Only W a1 x1 := by
      unfold x1
      exact State.modMg_only (sub_trans rfl hW)
    clear_value x1
    extract_lets +onlyGivenNames -merge -useContext -underBinder x3
    have h4 : Only W a1 x3 := by
      unfold x3
      refine Only.ite (fun _ => ?_) (fun _ => ?_)
      · exact Only.after (lockEvent_only (sub_trans rfl hW)) (Only.after (sendLock_only (sub_trans rfl hW)) (h2))
      · exact h2
    clear_value x3
    exact Only.after (deliverForecast_only (sub_trans rfl hW)) (h4)

-- SKIP Sys2Proof.Machine.breachAction

theorem breachRec_only {W : List Blk} {a0 : Nat} {a1 : Bool} {a2 : MGroup} {a3 : Machine.State} (hW : sub [.adit] W = true) : Only W a3 (breachRec a0 a1 a2 a3) := by
  unfold breachRec
  exact a6Rec_only (sub_trans rfl hW)

theorem dropMg_only {W : List Blk} {a0 : Nat} {a1 : Machine.State} (hW : sub [.adit, .power, .heat] W = true) : Only W a1 (dropMg a0 a1) := by
  unfold dropMg
  split
  · exact Only.rfl
  · extract_lets +onlyGivenNames -merge -useContext -underBinder x0
    have h1 : Only W a1 x0 := by
      unfold x0
      refine Only.ite (fun _ => ?_) (fun _ => ?_)
      · exact breachRec_only (sub_trans rfl hW)
      · exact Only.rfl
    clear_value x0
    extract_lets +onlyGivenNames -merge -useContext -underBinder x2
    have h3 : Only W a1 x2 := by
      unfold x2
      exact Only.after (setMg_only (sub_trans rfl hW)) (h1)
    clear_value x2
    refine Only.ite (fun _ => ?_) (fun _ => ?_)
    · exact Only.after (lockEvent_only (sub_trans rfl hW)) (Only.after (sendLock_only (sub_trans rfl hW)) (h3))
    · exact h3

theorem takeFinish_only {W : List Blk} {a0 : Nat} {a1 : Machine.State} (hW : sub [.adit, .power, .heat, .pump] W = true) : Only W a1 (takeFinish a0 a1) := by
  unfold takeFinish
  exact Only.after (deliverForecast_only (sub_trans rfl hW)) (dropMg_only (sub_trans rfl hW))

theorem endManifests_only {W : List Blk} {a0 : Machine.State} (hW : sub [.adit, .power, .heat, .pump] W = true) : Only W a0 (endManifests a0) := by
  unfold endManifests
  refine Only.after (deliverForecast_only (sub_trans rfl hW)) ?_
  · refine Only.after (forEach_only (fun _ t0 => ?_)) ?_
    · exact dropMg_only (sub_trans rfl hW)
    · exact Only.rfl

theorem thermalTimeout_only {W : List Blk} {a0 : Nat} {a1 : Machine.State} (hW : sub [.adit, .heat, .pump] W = true) : Only W a1 (thermalTimeout a0 a1) := by
  unfold thermalTimeout
  split
  · exact Only.rfl
  · refine Only.ite (fun _ => ?_) (fun _ => ?_)
    · exact Only.rfl
    · refine Only.ite (fun _ => ?_) (fun _ => ?_)
      · exact nowReady_only (sub_trans rfl hW)
      · refine Only.ite (fun _ => ?_) (fun _ => ?_)
        · exact nowReady_only (sub_trans rfl hW)
        · exact Only.after (deliverForecast_only (sub_trans rfl hW)) (Only.after (setMg_only (sub_trans rfl hW)) (Only.after (a3Down_only (sub_trans rfl hW)) (admitHold_only (sub_trans rfl hW))))

theorem railAtLevel_only {W : List Blk} {a0 : Nat} {a1 : Machine.State} (hW : sub [.adit, .power, .heat] W = true) : Only W a1 (railAtLevel a0 a1) := by
  unfold railAtLevel
  split
  · exact Only.rfl
  · refine Only.ite (fun _ => ?_) (fun _ => ?_)
    · exact Only.after (releaseOffer_only (sub_trans rfl hW)) (State.modPower_only (sub_trans rfl hW))
    · exact Only.rfl

theorem checkGroup_only {W : List Blk} {a0 : Nat} {a1 : Machine.State} (hW : sub [.adit, .heat, .pump] W = true) : Only W a1 (checkGroup a0 a1) := by
  unfold checkGroup
  split
  · exact Only.rfl
  · extract_lets +onlyGivenNames -merge -useContext -underBinder x0
    try clear_value x0
    extract_lets +onlyGivenNames -merge -useContext -underBinder x1
    try clear_value x1
    extract_lets +onlyGivenNames -merge -useContext -underBinder x2
    try clear_value x2
    refine Only.ite (fun _ => ?_) (fun _ => ?_)
    · exact State.modMg_only (sub_trans rfl hW)
    · extract_lets +onlyGivenNames -merge -useContext -underBinder x3
      try clear_value x3
      extract_lets +onlyGivenNames -merge -useContext -underBinder x4
      try clear_value x4
      extract_lets +onlyGivenNames -merge -useContext -underBinder x5
      try clear_value x5
      extract_lets +onlyGivenNames -merge -useContext -underBinder x6
      try clear_value x6
      extract_lets +onlyGivenNames -merge -useContext -underBinder x7
      try clear_value x7
      extract_lets +onlyGivenNames -merge -useContext -underBinder x8
      try clear_value x8
      refine Only.ite (fun _ => ?_) (fun _ => ?_)
      · extract_lets +onlyGivenNames -merge -useContext -underBinder x9
        try clear_value x9
        exact Only.after (deliverForecast_only (sub_trans rfl hW)) (Only.after (breachRec_only (sub_trans rfl hW)) (setMg_only (sub_trans rfl hW)))
      · refine Only.ite (fun _ => ?_) (fun _ => ?_)
        · extract_lets +onlyGivenNames -merge -useContext -underBinder x10
          try clear_value x10
          exact Only.after (deliverForecast_only (sub_trans rfl hW)) (Only.after (breachRec_only (sub_trans rfl hW)) (setMg_only (sub_trans rfl hW)))
        · exact setMg_only (sub_trans rfl hW)

theorem breachCheck_only {W : List Blk} {a0 : Machine.State} (hW : sub [.adit, .heat, .pump] W = true) : Only W a0 (breachCheck a0) := by
  unfold breachCheck
  refine Only.after (forEach_only (fun _ t0 => ?_)) ?_
  · exact checkGroup_only (sub_trans rfl hW)
  · exact Only.rfl

theorem polSetAdmit_only {W : List Blk} {a0 : Machine.State} (hW : sub [.adit, .mgmt, .heat] W = true) : Only W a0 (polSetAdmit a0) := by
  unfold polSetAdmit
  refine Only.after (policyRun_only (sub_trans rfl hW) (fun _ t0 => ?_)) ?_
  · refine Only.via3 ?_
    exact Only.after (powerChanged_only (sub_trans rfl hW)) (State.modHeat_only (sub_trans rfl hW))
  · exact Only.rfl

theorem polSetBreach_only {W : List Blk} {a0 : Machine.State} (hW : sub [.adit, .mgmt, .heat] W = true) : Only W a0 (polSetBreach a0) := by
  unfold polSetBreach
  refine Only.after (policyRun_only (sub_trans rfl hW) (fun _ t0 => ?_)) ?_
  · refine Only.via3 ?_
    exact Only.after (powerChanged_only (sub_trans rfl hW)) (State.modHeat_only (sub_trans rfl hW))
  · exact Only.rfl

theorem heatStatus_only {W : List Blk} {a0 : Bool} {a1 : Machine.State} (hW : sub [.adit] W = true) : Only W a1 (heatStatus a0 a1) := by
  unfold heatStatus
  extract_lets +onlyGivenNames -merge -useContext -underBinder x0
  try clear_value x0
  extract_lets +onlyGivenNames -merge -useContext -underBinder x1
  try clear_value x1
  exact a6Rec_only (sub_trans rfl hW)

theorem polHeatNow_only {W : List Blk} {a0 : Machine.State} (hW : sub [.adit, .mgmt] W = true) : Only W a0 (polHeatNow a0) := by
  unfold polHeatNow
  refine Only.after (policyRun_only (sub_trans rfl hW) (fun _ t0 => ?_)) ?_
  · refine Only.via3 ?_
    exact heatStatus_only (sub_trans rfl hW)
  · exact Only.rfl

theorem coolantDemand_only {W : List Blk} {a0 : Machine.State} (hW : sub [.heat] W = true) : Only W a0 (coolantDemand a0) := by
  unfold coolantDemand
  split
  · exact Only.rfl
  · exact State.modHeat_only (sub_trans rfl hW)

theorem coolantSample_only {W : List Blk} {a0 : CoolantIn} {a1 : Machine.State} (hW : sub [.adit, .power, .heat, .pump] W = true) : Only W a1 (coolantSample a0 a1) := by
  unfold coolantSample
  exact Only.after (evalOffers_only (sub_trans rfl hW)) (coolantRead_only (sub_trans rfl hW))

-- SKIP Sys2Proof.Machine.railScale
-- SKIP Sys2Proof.Machine.groupView
-- SKIP Sys2Proof.Machine.attributed

theorem takeStacks_only {W : List Blk} {a0 : A2Frame} {a1 : Machine.State} (hW : sub [.adit, .power, .heat] W = true) : Only W a1 (takeStacks a0 a1) := by
  unfold takeStacks
  split
  · exact Only.rfl
  · exact Only.after (stackSample_only (sub_trans rfl hW)) (State.modPower_only (sub_trans rfl hW))

theorem estimate_only {W : List Blk} {a0 : List GView} {a1 : Machine.State} (hW : sub [.power] W = true) : Only W a1 (estimate a0 a1) := by
  unfold estimate
  extract_lets +onlyGivenNames -merge -useContext -underBinder x0
  try clear_value x0
  extract_lets +onlyGivenNames -merge -useContext -underBinder x1
  try clear_value x1
  exact State.modPower_only (sub_trans rfl hW)

-- SKIP Sys2Proof.Machine.capTarget
-- SKIP Sys2Proof.Machine.capDemand
-- SKIP Sys2Proof.Machine.breachDemand
-- SKIP Sys2Proof.Machine.groupN
-- SKIP Sys2Proof.Machine.a1Word
-- SKIP Sys2Proof.Machine.stepReasons

theorem innerFrame_only {W : List Blk} {a0 : A2Frame} {a1 : Machine.State} (hW : sub [.adit, .power, .heat] W = true) : Only W a1 (innerFrame a0 a1) := by
  unfold innerFrame
  extract_lets +onlyGivenNames -merge -useContext -underBinder x0
  have h1 : Only W a1 x0 := by
    unfold x0
    exact takeStacks_only (sub_trans rfl hW)
  clear_value x0
  extract_lets +onlyGivenNames -merge -useContext -underBinder x2
  try clear_value x2
  extract_lets +onlyGivenNames -merge -useContext -underBinder x3
  have h4 : Only W a1 x3 := by
    unfold x3
    exact Only.after (estimate_only (sub_trans rfl hW)) (h1)
  clear_value x3
  extract_lets +onlyGivenNames -merge -useContext -underBinder x5
  have h6 : Only W a1 x5 := by
    unfold x5
    refine Only.foldl (fun t7 _ => ?_) ?_
    · exact State.modMg_only (sub_trans rfl hW)
    · exact h4
  clear_value x5
  extract_lets +onlyGivenNames -merge -useContext -underBinder x8
  have h9 : Only W a1 x8 := by
    unfold x8
    exact Only.after (State.modPower_only (sub_trans rfl hW)) (h6)
  clear_value x8
  extract_lets +onlyGivenNames -merge -useContext -underBinder x10
  have h11 : Only W a1 x10 := by
    unfold x10
    exact Only.after (State.modHeat_only (sub_trans rfl hW)) (h9)
  clear_value x10
  extract_lets +onlyGivenNames -merge -useContext -underBinder x12
  have h13 : Only W a1 x12 := by
    unfold x12
    exact Only.after (State.modPower_only (sub_trans rfl hW)) (h11)
  clear_value x12
  extract_lets +onlyGivenNames -merge -useContext -underBinder x14
  try clear_value x14
  extract_lets +onlyGivenNames -merge -useContext -underBinder x15
  try clear_value x15
  extract_lets +onlyGivenNames -merge -useContext -underBinder x16
  try clear_value x16
  extract_lets +onlyGivenNames -merge -useContext -underBinder x17
  have h18 : Only W a1 x17 := by
    unfold x17
    refine Only.foldl (fun t19 _ => ?_) ?_
    · exact reasonStep_only (sub_trans rfl hW)
    · exact h13
  clear_value x17
  extract_lets +onlyGivenNames -merge -useContext -underBinder x20
  have h21 : Only W a1 x20 := by
    unfold x20
    exact Only.after (State.modPower_only (sub_trans rfl hW)) (h18)
  clear_value x20
  extract_lets +onlyGivenNames -merge -useContext -underBinder x22
  try clear_value x22
  extract_lets +onlyGivenNames -merge -useContext -underBinder x23
  have h24 : Only W a1 x23 := by
    unfold x23
    refine Only.foldl (fun t25 _ => ?_) ?_
    · exact State.modMg_only (sub_trans rfl hW)
    · exact h21
  clear_value x23
  extract_lets +onlyGivenNames -merge -useContext -underBinder x26
  have h27 : Only W a1 x26 := by
    unfold x26
    exact Only.after (State.modAdit_only (sub_trans rfl hW)) (h24)
  clear_value x26
  refine Only.foldl (fun t28 _ => ?_) ?_
  · exact sendLock_only (sub_trans rfl hW)
  · exact h27

theorem innerStep_only {W : List Blk} {a0 : Machine.State} (hW : sub [.adit, .power, .heat] W = true) : Only W a0 (innerStep a0) := by
  unfold innerStep
  refine Only.ite (fun _ => ?_) (fun _ => ?_)
  · exact Only.rfl
  · split
    · exact Only.rfl
    · exact Only.after (innerFrame_only (sub_trans rfl hW)) (State.modAdit_only (sub_trans rfl hW))

theorem startKick_only {W : List Blk} {a0 : Machine.State} (hW : sub [.pump] W = true) : Only W a0 (startKick a0) := by
  unfold startKick
  exact State.modPump_only (sub_trans rfl hW)

theorem enterStalled_only {W : List Blk} {a0 : Nat} {a1 : Machine.State} (hW : sub [.adit, .pump] W = true) : Only W a1 (enterStalled a0 a1) := by
  unfold enterStalled
  extract_lets +onlyGivenNames -merge -useContext -underBinder x0
  have h1 : Only W a1 x0 := by
    unfold x0
    exact Only.after (abortCapture_only (sub_trans rfl hW)) (pumpFault_only (sub_trans rfl hW))
  clear_value x0
  exact Only.after (State.modPump_only (sub_trans rfl hW)) (h1)

theorem runBegins_only {W : List Blk} {a0 : Machine.State} (hW : sub [.adit, .pump] W = true) : Only W a0 (runBegins a0) := by
  unfold runBegins
  extract_lets +onlyGivenNames -merge -useContext -underBinder x0
  have h1 : Only W a0 x0 := by
    unfold x0
    exact State.modPump_only (sub_trans rfl hW)
  clear_value x0
  extract_lets +onlyGivenNames -merge -useContext -underBinder x2
  have h3 : Only W a0 x2 := by
    unfold x2
    exact Only.after (pumpFault_only (sub_trans rfl hW)) (h1)
  clear_value x2
  split
  · exact h3
  · exact Only.after (applyMode_only (sub_trans rfl hW)) (Only.after (State.modPump_only (sub_trans rfl hW)) (h3))

theorem checkPhase_only {W : List Blk} {a0 : Nat} {a1 : Nat} {a2 : Machine.State} (hW : sub [.adit, .pump] W = true) : Only W a2 (checkPhase a0 a1 a2) := by
  unfold checkPhase
  extract_lets +onlyGivenNames -merge -useContext -underBinder x0
  try clear_value x0
  refine Only.ite (fun _ => ?_) (fun _ => ?_)
  · extract_lets +onlyGivenNames -merge -useContext -underBinder x1
    have h2 : Only W a2 x1 := by
      unfold x1
      exact State.modPump_only (sub_trans rfl hW)
    clear_value x1
    refine Only.ite (fun _ => ?_) (fun _ => ?_)
    · exact Only.after (pumpFault_only (sub_trans rfl hW)) (Only.after (State.modPump_only (sub_trans rfl hW)) (h2))
    · exact h2
  · extract_lets +onlyGivenNames -merge -useContext -underBinder x3
    have h4 : Only W a2 x3 := by
      unfold x3
      exact State.modPump_only (sub_trans rfl hW)
    clear_value x3
    refine Only.ite (fun _ => ?_) (fun _ => ?_)
    · exact Only.after (pumpFault_only (sub_trans rfl hW)) (Only.after (State.modPump_only (sub_trans rfl hW)) (h4))
    · exact h4

theorem zeroCrossing_only {W : List Blk} {a0 : Nat} {a1 : List Nat} {a2 : Machine.State} (hW : sub [.adit, .pump] W = true) : Only W a2 (zeroCrossing a0 a1 a2) := by
  unfold zeroCrossing
  refine Only.ite (fun _ => ?_) (fun _ => ?_)
  · exact Only.rfl
  · extract_lets +onlyGivenNames -merge -useContext -underBinder x0
    try clear_value x0
    extract_lets +onlyGivenNames -merge -useContext -underBinder x1
    have h2 : Only W a2 x1 := by
      unfold x1
      exact State.modPump_only (sub_trans rfl hW)
    clear_value x1
    extract_lets +onlyGivenNames -merge -useContext -underBinder x3
    have h4 : Only W a2 x3 := by
      unfold x3
      refine Only.ite (fun _ => ?_) (fun _ => ?_)
      · refine Only.after (forEach_only (fun _ t5 => ?_)) ?_
        · exact checkPhase_only (sub_trans rfl hW)
        · exact h2
      · exact h2
    clear_value x3
    extract_lets +onlyGivenNames -merge -useContext -underBinder x6
    have h7 : Only W a2 x6 := by
      unfold x6
      exact Only.after (State.modPump_only (sub_trans rfl hW)) (h4)
    clear_value x6
    refine Only.ite (fun _ => ?_) (fun _ => ?_)
    · exact Only.after (runBegins_only (sub_trans rfl hW)) (h7)
    · exact h7

theorem kickTimeout_only {W : List Blk} {a0 : Machine.State} (hW : sub [.adit, .pump] W = true) : Only W a0 (kickTimeout a0) := by
  unfold kickTimeout
  refine Only.ite (fun _ => ?_) (fun _ => ?_)
  · exact enterStalled_only (sub_trans rfl hW)
  · exact Only.rfl

theorem stallDetect_only {W : List Blk} {a0 : Machine.State} (hW : sub [.adit, .pump] W = true) : Only W a0 (stallDetect a0) := by
  unfold stallDetect
  refine Only.ite (fun _ => ?_) (fun _ => ?_)
  · exact Only.rfl
  · refine Only.ite (fun _ => ?_) (fun _ => ?_)
    · exact enterStalled_only (sub_trans rfl hW)
    · exact State.modPump_only (sub_trans rfl hW)

theorem pumpOvercurrent_only {W : List Blk} {a0 : Machine.State} (hW : sub [.adit, .pump] W = true) : Only W a0 (pumpOvercurrent a0) := by
  unfold pumpOvercurrent
  refine Only.ite (fun _ => ?_) (fun _ => ?_)
  · exact enterStalled_only (sub_trans rfl hW)
  · exact Only.rfl

theorem stallRetry_only {W : List Blk} {a0 : Machine.State} (hW : sub [.pump] W = true) : Only W a0 (stallRetry a0) := by
  unfold stallRetry
  refine Only.ite (fun _ => ?_) (fun _ => ?_)
  · exact Only.after (startKick_only (sub_trans rfl hW)) (State.modPump_only (sub_trans rfl hW))
  · exact Only.rfl

theorem diagPulse_only {W : List Blk} {a0 : List Nat} {a1 : Machine.State} (hW : sub [.adit, .pump] W = true) : Only W a1 (diagPulse a0 a1) := by
  unfold diagPulse
  refine Only.ite (fun _ => ?_) (fun _ => ?_)
  · refine Only.after (forEach_only (fun _ t0 => ?_)) ?_
    · exact checkPhase_only (sub_trans rfl hW)
    · exact Only.rfl
  · exact Only.rfl

-- SKIP Sys2Proof.Machine.ageingFits
-- SKIP Sys2Proof.Machine.captureMs
-- SKIP Sys2Proof.Machine.spanMs

theorem speedLoop_only {W : List Blk} {a0 : Bool} {a1 : Machine.State} (hW : sub [.free, .pump] W = true) : Only W a1 (speedLoop a0 a1) := by
  unfold speedLoop
  refine Only.ite (fun _ => ?_) (fun _ => ?_)
  · exact Only.rfl
  · split
    · rename_i y1 y2 q3
      have h0 := Only.ofEq (p := Prod.snd) (drawBelow_only (sub_trans rfl hW)) q3 (W := W) (s := a1) (by
        exact Only.rfl
        )
      extract_lets +onlyGivenNames -merge -useContext -underBinder x4
      try clear_value x4
      extract_lets +onlyGivenNames -merge -useContext -underBinder x5
      have h6 : Only W a1 x5 := by
        unfold x5
        exact Only.after (State.modPump_only (sub_trans rfl hW)) (h0)
      clear_value x5
      exact Only.after (State.modPump_only (sub_trans rfl hW)) (h6)

-- SKIP Sys2Proof.Machine.ageIndex

theorem pumpAgeing_only {W : List Blk} {a0 : Machine.State} (hW : sub [.adit] W = true) : Only W a0 (pumpAgeing a0) := by
  unfold pumpAgeing
  exact a6Rec_only (sub_trans rfl hW)

theorem ageingEval_only {W : List Blk} {a0 : Machine.State} (hW : sub [.adit, .pump] W = true) : Only W a0 (ageingEval a0) := by
  unfold ageingEval
  extract_lets +onlyGivenNames -merge -useContext -underBinder x0
  try clear_value x0
  extract_lets +onlyGivenNames -merge -useContext -underBinder x1
  have h2 : Only W a0 x1 := by
    unfold x1
    exact State.modPump_only (sub_trans rfl hW)
  clear_value x1
  extract_lets +onlyGivenNames -merge -useContext -underBinder x3
  try clear_value x3
  refine Only.ite (fun _ => ?_) (fun _ => ?_)
  · exact h2
  · split
    · exact h2
    · extract_lets +onlyGivenNames -merge -useContext -underBinder x4
      have h5 : Only W a0 x4 := by
        unfold x4
        exact Only.after (State.modPump_only (sub_trans rfl hW)) (h2)
      clear_value x4
      extract_lets +onlyGivenNames -merge -useContext -underBinder x6
      try clear_value x6
      refine Only.ite (fun _ => ?_) (fun _ => ?_)
      · exact h5
      · exact Only.after (pumpAgeing_only (sub_trans rfl hW)) (Only.after (State.modPump_only (sub_trans rfl hW)) (h5))

theorem baselinePoint_only {W : List Blk} {a0 : Machine.State} (hW : sub [.adit, .mgmt, .pump] W = true) : Only W a0 (baselinePoint a0) := by
  unfold baselinePoint
  split
  · exact Only.rfl
  · refine Only.ite (fun _ => ?_) (fun _ => ?_)
    · exact Only.rfl
    · extract_lets +onlyGivenNames -merge -useContext -underBinder x0
      try clear_value x0
      extract_lets +onlyGivenNames -merge -useContext -underBinder x1
      try clear_value x1
      refine Only.ite (fun _ => ?_) (fun _ => ?_)
      · exact State.modPump_only (sub_trans rfl hW)
      · extract_lets +onlyGivenNames -merge -useContext -underBinder x2
        have h3 : Only W a0 x2 := by
          unfold x2
          exact State.modPump_only (sub_trans rfl hW)
        clear_value x2
        exact Only.after (setMode_only (sub_trans rfl hW)) (Only.after (loopEvent_only (sub_trans rfl hW)) (Only.after (queueStore_only (sub_trans rfl hW)) (h3)))

-- SKIP Sys2Proof.Machine.flowsReverse

theorem reverseDetect_only {W : List Blk} {a0 : Machine.State} (hW : sub [.adit, .pump] W = true) : Only W a0 (reverseDetect a0) := by
  unfold reverseDetect
  refine Only.ite (fun _ => ?_) (fun _ => ?_)
  · exact Only.after (loopEvent_only (sub_trans rfl hW)) (State.modPump_only (sub_trans rfl hW))
  · exact Only.rfl

-- SKIP Sys2Proof.Machine.flowLow

theorem lowFlowDetect_only {W : List Blk} {a0 : Machine.State} (hW : sub [.adit, .pump] W = true) : Only W a0 (lowFlowDetect a0) := by
  unfold lowFlowDetect
  refine Only.ite (fun _ => ?_) (fun _ => ?_)
  · exact Only.after (loopEvent_only (sub_trans rfl hW)) (State.modPump_only (sub_trans rfl hW))
  · exact Only.rfl

-- SKIP Sys2Proof.Machine.flowOk

theorem judgeBlind_only {W : List Blk} {a0 : Machine.State} (hW : sub [.adit, .pump] W = true) : Only W a0 (judgeBlind a0) := by
  unfold judgeBlind
  extract_lets +onlyGivenNames -merge -useContext -underBinder x0
  try clear_value x0
  refine Only.ite (fun _ => ?_) (fun _ => ?_)
  · exact Only.rfl
  · exact Only.after (loopEvent_only (sub_trans rfl hW)) (State.modPump_only (sub_trans rfl hW))

-- SKIP Sys2Proof.Machine.cycleFlows

theorem leakRec_only {W : List Blk} {a0 : Nat} {a1 : Bool} {a2 : Machine.State} (hW : sub [.adit] W = true) : Only W a2 (leakRec a0 a1 a2) := by
  unfold leakRec
  exact a6Rec_only (sub_trans rfl hW)

theorem latchLeak_only {W : List Blk} {a0 : Nat} {a1 : Machine.State} (hW : sub [.adit, .mgmt, .pump] W = true) : Only W a1 (latchLeak a0 a1) := by
  unfold latchLeak
  refine Only.ite (fun _ => ?_) (fun _ => ?_)
  · exact Only.rfl
  · exact Only.after (leakRec_only (sub_trans rfl hW)) (Only.after (queueStore_only (sub_trans rfl hW)) (Only.after (abortCapture_only (sub_trans rfl hW)) (State.modPump_only (sub_trans rfl hW))))

theorem massBalance_only {W : List Blk} {a0 : Machine.State} (hW : sub [.ao, .adit, .mgmt, .pump] W = true) : Only W a0 (massBalance a0) := by
  unfold massBalance
  split
  · exact Only.after (judgeBlind_only (sub_trans rfl hW)) (State.modPump_only (sub_trans rfl hW))
  · extract_lets +onlyGivenNames -merge -useContext -underBinder x0
    try clear_value x0
    extract_lets +onlyGivenNames -merge -useContext -underBinder x1
    have h2 : Only W a0 x1 := by
      unfold x1
      exact Only.after (judgeBlind_only (sub_trans rfl hW)) (State.modPump_only (sub_trans rfl hW))
    clear_value x1
    refine Only.ite (fun _ => ?_) (fun _ => ?_)
    · exact Only.after (State.modAo_only (sub_trans rfl hW)) (Only.after (latchLeak_only (sub_trans rfl hW)) (h2))
    · exact h2

theorem pumpCycle_only {W : List Blk} {a0 : Machine.State} (hW : sub [.ao, .adit, .mgmt, .power, .heat, .pump] W = true) : Only W a0 (pumpCycle a0) := by
  unfold pumpCycle
  extract_lets +onlyGivenNames -merge -useContext -underBinder x0
  have h1 : Only W a0 x0 := by
    unfold x0
    exact deliverForecast_only (sub_trans rfl hW)
  clear_value x0
  extract_lets +onlyGivenNames -merge -useContext -underBinder x2
  have h3 : Only W a0 x2 := by
    unfold x2
    exact Only.after (State.modPower_only (sub_trans rfl hW)) (h1)
  clear_value x2
  extract_lets +onlyGivenNames -merge -useContext -underBinder x4
  have h5 : Only W a0 x4 := by
    unfold x4
    exact Only.after (massBalance_only (sub_trans rfl hW)) (Only.after (State.modPump_only (sub_trans rfl hW)) (h3))
  clear_value x4
  extract_lets +onlyGivenNames -merge -useContext -underBinder x6
  have h7 : Only W a0 x6 := by
    unfold x6
    exact Only.after (State.modPump_only (sub_trans rfl hW)) (h5)
  clear_value x6
  exact Only.after (State.modPump_only (sub_trans rfl hW)) (h7)

theorem tapeCheck_only {W : List Blk} {a0 : Bool} {a1 : Machine.State} (hW : sub [.adit, .pump] W = true) : Only W a1 (tapeCheck a0 a1) := by
  unfold tapeCheck
  refine Only.ite (fun _ => ?_) (fun _ => ?_)
  · exact Only.rfl
  · exact Only.after (judgeBlind_only (sub_trans rfl hW)) (Only.after (loopEvent_only (sub_trans rfl hW)) (State.modPump_only (sub_trans rfl hW)))

theorem polPumpMode_only {W : List Blk} {a0 : Machine.State} (hW : sub [.adit, .mgmt, .pump] W = true) : Only W a0 (polPumpMode a0) := by
  unfold polPumpMode
  refine Only.after (policyRun_only (sub_trans rfl hW) (fun _ t0 => ?_)) ?_
  · refine Only.via3 ?_
    exact Only.after (coolantChanged_only (sub_trans rfl hW)) (Only.after (setMode_only (sub_trans rfl hW)) (abortCapture_only (sub_trans rfl hW)))
  · exact Only.rfl

theorem polSetSpeed_only {W : List Blk} {a0 : Machine.State} (hW : sub [.adit, .mgmt, .pump] W = true) : Only W a0 (polSetSpeed a0) := by
  unfold polSetSpeed
  refine Only.after (policyRun_only (sub_trans rfl hW) (fun _ t0 => ?_)) ?_
  · refine Only.via3 ?_
    exact Only.after (coolantChanged_only (sub_trans rfl hW)) (Only.after (State.modPump_only (sub_trans rfl hW)) (abortCapture_only (sub_trans rfl hW)))
  · exact Only.rfl

theorem polFlowLimits_only {W : List Blk} {a0 : Machine.State} (hW : sub [.adit, .mgmt, .pump] W = true) : Only W a0 (polFlowLimits a0) := by
  unfold polFlowLimits
  refine Only.after (policyRun_only (sub_trans rfl hW) (fun _ t0 => ?_)) ?_
  · refine Only.via3 ?_
    exact Only.after (coolantChanged_only (sub_trans rfl hW)) (State.modPump_only (sub_trans rfl hW))
  · exact Only.rfl

theorem polSetRamp_only {W : List Blk} {a0 : Machine.State} (hW : sub [.adit, .mgmt, .pump] W = true) : Only W a0 (polSetRamp a0) := by
  unfold polSetRamp
  refine Only.after (policyRun_only (sub_trans rfl hW) (fun _ t0 => ?_)) ?_
  · refine Only.via3 ?_
    exact Only.after (coolantChanged_only (sub_trans rfl hW)) (State.modPump_only (sub_trans rfl hW))
  · exact Only.rfl

theorem polSetFluid_only {W : List Blk} {a0 : Machine.State} (hW : sub [.adit, .mgmt, .pump] W = true) : Only W a0 (polSetFluid a0) := by
  unfold polSetFluid
  refine Only.after (policyRun_only (sub_trans rfl hW) (fun _ t0 => ?_)) ?_
  · extract_lets +onlyGivenNames -merge -useContext -underBinder x1
    have h2 : Only W t0 x1 := by
      unfold x1
      exact Only.after (coolantChanged_only (sub_trans rfl hW)) (State.modPump_only (sub_trans rfl hW))
    clear_value x1
    refine Only.via3 ?_
    refine Only.ite (fun _ => ?_) (fun _ => ?_)
    · exact h2
    · exact Only.after (loopEvent_only (sub_trans rfl hW)) (h2)
  · exact Only.rfl

-- SKIP Sys2Proof.Machine.baselineBarred

theorem polBaseline_only {W : List Blk} {a0 : Machine.State} (hW : sub [.adit, .mgmt, .pump] W = true) : Only W a0 (polBaseline a0) := by
  unfold polBaseline
  refine Only.after (policyRun_only (sub_trans rfl hW) (fun _ t0 => ?_)) ?_
  · refine Only.iteV (fun _ => ?_) (fun _ => ?_)
    · refine Only.via3 ?_
      exact Only.rfl
    · extract_lets +onlyGivenNames -merge -useContext -underBinder x1
      have h2 : Only W t0 x1 := by
        unfold x1
        exact abortCapture_only (sub_trans rfl hW)
      clear_value x1
      extract_lets +onlyGivenNames -merge -useContext -underBinder x3
      try clear_value x3
      refine Only.via3 ?_
      exact Only.after (State.modPump_only (sub_trans rfl hW)) (Only.after (applyMode_only (sub_trans rfl hW)) (h2))
  · exact Only.rfl

theorem polClearLeak_only {W : List Blk} {a0 : Machine.State} (hW : sub [.ao, .adit, .mgmt, .pump] W = true) : Only W a0 (polClearLeak a0) := by
  unfold polClearLeak
  refine Only.after (policyRun_only (sub_trans rfl hW) (fun _ t0 => ?_)) ?_
  · refine Only.iteV (fun _ => ?_) (fun _ => ?_)
    · refine Only.via3 ?_
      exact Only.rfl
    · refine Only.iteV (fun _ => ?_) (fun _ => ?_)
      · refine Only.via3 ?_
        exact Only.rfl
      · extract_lets +onlyGivenNames -merge -useContext -underBinder x1
        try clear_value x1
        extract_lets +onlyGivenNames -merge -useContext -underBinder x2
        have h3 : Only W t0 x2 := by
          unfold x2
          exact Only.after (State.modAo_only (sub_trans rfl hW)) (State.modPump_only (sub_trans rfl hW))
        clear_value x2
        refine Only.via3 ?_
        exact Only.after (leakRec_only (sub_trans rfl hW)) (Only.after (queueStore_only (sub_trans rfl hW)) (h3))
  · exact Only.rfl

theorem pumpStatus_only {W : List Blk} {a0 : Bool} {a1 : Machine.State} (hW : sub [.adit] W = true) : Only W a1 (pumpStatus a0 a1) := by
  unfold pumpStatus
  extract_lets +onlyGivenNames -merge -useContext -underBinder x0
  try clear_value x0
  extract_lets +onlyGivenNames -merge -useContext -underBinder x1
  try clear_value x1
  exact a6Rec_only (sub_trans rfl hW)

theorem polPumpNow_only {W : List Blk} {a0 : Machine.State} (hW : sub [.adit, .mgmt] W = true) : Only W a0 (polPumpNow a0) := by
  unfold polPumpNow
  refine Only.after (policyRun_only (sub_trans rfl hW) (fun _ t0 => ?_)) ?_
  · refine Only.via3 ?_
    exact pumpStatus_only (sub_trans rfl hW)
  · exact Only.rfl

-- SKIP Sys2Proof.Machine.frameCheck

end Sys2Proof.Machine
end

