-- ==== Sys2Proof/Laws/FrameRow.lean ====
section
/-! SUPPORT. Frame lemmas: the parts of the state that each operation may change, for the row buses and the wardens.
Each says of one operation that from the state it is given nothing but the parts it names changes. -/

namespace Sys2Proof.Machine

open Sys2Proof

theorem countDrop_only {W : List Blk} {a0 : Nat} {a1 : DropWhy} {a2 : Machine.State} (hW : sub [.bus] W = true) : Only W a2 (countDrop a0 a1 a2) := by
  unfold countDrop
  exact State.modBus_only (sub_trans rfl hW)

-- SKIP Sys2Proof.Machine.canHear

theorem ownIdHeard_only {W : List Blk} {a0 : Nat} {a1 : Machine.State} (hW : sub [.adit, .bus] W = true) : Only W a1 (ownIdHeard a0 a1) := by
  unfold ownIdHeard
  refine Only.ite (fun _ => ?_) (fun _ => ?_)
  · exact Only.after (busJoinRec_only (sub_trans rfl hW)) (State.modBus_only (sub_trans rfl hW))
  · exact Only.rfl

theorem takeFrame_only {W : List Blk} {a0 : Nat} {a1 : Frame} {a2 : Frame → Machine.State → Machine.State} {a3 : Machine.State} (hW : sub [.bus] W = true) (g0 : ∀ v0 v1, Only W v1 (a2 v0 v1)) : Only W a3 (takeFrame a0 a1 a2 a3) := by
  unfold takeFrame
  extract_lets +onlyGivenNames -merge -useContext -underBinder x0
  try clear_value x0
  extract_lets +onlyGivenNames -merge -useContext -underBinder x1
  try clear_value x1
  extract_lets +onlyGivenNames -merge -useContext -underBinder x2
  try clear_value x2
  refine Only.ite (fun _ => ?_) (fun _ => ?_)
  · exact State.modBus_only (sub_trans rfl hW)
  · extract_lets +onlyGivenNames -merge -useContext -underBinder x3
    have h4 : Only W a3 x3 := by
      unfold x3
      exact State.modBus_only (sub_trans rfl hW)
    clear_value x3
    refine Only.ite (fun _ => ?_) (fun _ => ?_)
    · exact Only.after (g0 _ _) (h4)
    · exact h4

theorem busIn_only {W : List Blk} {a0 : Nat} {a1 : Nat} {a2 : Frame} {a3 : Frame → Machine.State → Machine.State} {a4 : Machine.State} (hW : sub [.adit, .bus] W = true) (g0 : ∀ v0 v1, Only W v1 (a3 v0 v1)) : Only W a4 (busIn a0 a1 a2 a3 a4) := by
  unfold busIn
  refine Only.ite (fun _ => ?_) (fun _ => ?_)
  · exact Only.rfl
  · split
    · exact countDrop_only (sub_trans rfl hW)
    · extract_lets +onlyGivenNames -merge -useContext -underBinder x0
      have h1 : Only W a4 x0 := by
        unfold x0
        exact State.modBus_only (sub_trans rfl hW)
      clear_value x0
      refine Only.ite (fun _ => ?_) (fun _ => ?_)
      · exact Only.after (ownIdHeard_only (sub_trans rfl hW)) (h1)
      · refine Only.after (takeFrame_only (sub_trans rfl hW) (fun _ t2 => ?_)) ?_
        · exact g0 _ _
        · exact h1

theorem malformedFrame_only {W : List Blk} {a0 : Nat} {a1 : Bool} {a2 : Frame} {a3 : Machine.State} (hW : sub [.bus] W = true) : Only W a3 (malformedFrame a0 a1 a2 a3) := by
  unfold malformedFrame
  refine Only.ite (fun _ => ?_) (fun _ => ?_)
  · exact Only.rfl
  · split
    · exact countDrop_only (sub_trans rfl hW)
    · exact Only.rfl

theorem rxDrain_only {W : List Blk} {a0 : Nat} {a1 : Machine.State} (hW : sub [.bus] W = true) : Only W a1 (rxDrain a0 a1) := by
  unfold rxDrain
  refine Only.ite (fun _ => ?_) (fun _ => ?_)
  · exact State.modBus_only (sub_trans rfl hW)
  · exact Only.rfl

theorem rxOverflow_only {W : List Blk} {a0 : Nat} {a1 : Machine.State} (hW : sub [.bus] W = true) : Only W a1 (rxOverflow a0 a1) := by
  unfold rxOverflow
  refine Only.ite (fun _ => ?_) (fun _ => ?_)
  · exact State.modBus_only (sub_trans rfl hW)
  · exact Only.rfl

theorem busCounts_only {W : List Blk} {a0 : Nat} {a1 : Machine.State} (hW : sub [.adit, .bus] W = true) : Only W a1 (busCounts a0 a1) := by
  unfold busCounts
  extract_lets +onlyGivenNames -merge -useContext -underBinder x0
  try clear_value x0
  refine Only.ite (fun _ => ?_) (fun _ => ?_)
  · exact Only.rfl
  · extract_lets +onlyGivenNames -merge -useContext -underBinder x1
    try clear_value x1
    exact Only.after (a6Rec_only (sub_trans rfl hW)) (State.modBus_only (sub_trans rfl hW))

theorem canError_only {W : List Blk} {a0 : Nat} {a1 : Nat} {a2 : Nat} {a3 : Machine.State} (hW : sub [.adit, .bus] W = true) : Only W a3 (canError a0 a1 a2 a3) := by
  unfold canError
  extract_lets +onlyGivenNames -merge -useContext -underBinder x0
  try clear_value x0
  refine Only.ite (fun _ => ?_) (fun _ => ?_)
  · exact Only.rfl
  · extract_lets +onlyGivenNames -merge -useContext -underBinder x1
    try clear_value x1
    extract_lets +onlyGivenNames -merge -useContext -underBinder x2
    try clear_value x2
    extract_lets +onlyGivenNames -merge -useContext -underBinder x3
    have h4 : Only W a3 x3 := by
      unfold x3
      exact State.modBus_only (sub_trans rfl hW)
    clear_value x3
    refine Only.ite (fun _ => ?_) (fun _ => ?_)
    · exact Only.after (busErrRec_only (sub_trans rfl hW)) (h4)
    · refine Only.ite (fun _ => ?_) (fun _ => ?_)
      · exact Only.after (busErrRec_only (sub_trans rfl hW)) (h4)
      · refine Only.ite (fun _ => ?_) (fun _ => ?_)
        · exact Only.after (busErrRec_only (sub_trans rfl hW)) (h4)
        · exact h4

theorem busOffWait_only {W : List Blk} {a0 : Nat} {a1 : Machine.State} (hW : sub [.adit, .bus] W = true) : Only W a1 (busOffWait a0 a1) := by
  unfold busOffWait
  extract_lets +onlyGivenNames -merge -useContext -underBinder x0
  try clear_value x0
  refine Only.ite (fun _ => ?_) (fun _ => ?_)
  · exact Only.after (busErrRec_only (sub_trans rfl hW)) (State.modBus_only (sub_trans rfl hW))
  · exact Only.rfl

theorem busRecovered_only {W : List Blk} {a0 : Nat} {a1 : Machine.State} (hW : sub [.adit, .bus] W = true) : Only W a1 (busRecovered a0 a1) := by
  unfold busRecovered
  extract_lets +onlyGivenNames -merge -useContext -underBinder x0
  try clear_value x0
  refine Only.ite (fun _ => ?_) (fun _ => ?_)
  · exact Only.after (busErrRec_only (sub_trans rfl hW)) (State.modBus_only (sub_trans rfl hW))
  · exact Only.rfl

theorem startListen_only {W : List Blk} {a0 : Nat} {a1 : Machine.State} (hW : sub [.bus] W = true) : Only W a1 (startListen a0 a1) := by
  unfold startListen
  exact State.modBus_only (sub_trans rfl hW)

-- SKIP Sys2Proof.Machine.runningFw
-- SKIP Sys2Proof.Machine.wardTorn
-- SKIP Sys2Proof.Machine.announceBody

theorem announce_only {W : List Blk} {a0 : Nat} {a1 : Machine.State} (hW : sub [.bus] W = true) : Only W a1 (announce a0 a1) := by
  unfold announce
  exact queueMsg_only (sub_trans rfl hW)

theorem wardRole_only {W : List Blk} {a0 : Nat} {a1 : Machine.State} (hW : sub [.adit] W = true) : Only W a1 (wardRole a0 a1) := by
  unfold wardRole
  exact a6Rec_only (sub_trans rfl hW)

theorem joinListenEnd_only {W : List Blk} {a0 : Nat} {a1 : Machine.State} (hW : sub [.sup, .adit, .bus, .ward] W = true) : Only W a1 (joinListenEnd a0 a1) := by
  unfold joinListenEnd
  extract_lets +onlyGivenNames -merge -useContext -underBinder x0
  try clear_value x0
  refine Only.ite (fun _ => ?_) (fun _ => ?_)
  · exact Only.rfl
  · extract_lets +onlyGivenNames -merge -useContext -underBinder x1
    try clear_value x1
    refine Only.ite (fun _ => ?_) (fun _ => ?_)
    · extract_lets +onlyGivenNames -merge -useContext -underBinder x2
      have h3 : Only W a1 x2 := by
        unfold x2
        exact Only.after (busJoinRec_only (sub_trans rfl hW)) (State.modBus_only (sub_trans rfl hW))
      clear_value x2
      extract_lets +onlyGivenNames -merge -useContext -underBinder x4
      have h5 : Only W a1 x4 := by
        unfold x4
        exact Only.after (announce_only (sub_trans rfl hW)) (h3)
      clear_value x4
      refine Only.ite (fun _ => ?_) (fun _ => ?_)
      · extract_lets +onlyGivenNames -merge -useContext -underBinder x6
        have h7 : Only W a1 x6 := by
          unfold x6
          exact Only.after (State.modSup_only (sub_trans rfl hW)) (h5)
        clear_value x6
        extract_lets +onlyGivenNames -merge -useContext -underBinder x8
        have h9 : Only W a1 x8 := by
          unfold x8
          refine Only.ite (fun _ => ?_) (fun _ => ?_)
          · exact Only.after (startListen_only (sub_trans rfl hW)) (h7)
          · exact h7
        clear_value x8
        refine Only.ite (fun _ => ?_) (fun _ => ?_)
        · exact Only.after (wardRole_only (sub_trans rfl hW)) (Only.after (State.modWard_only (sub_trans rfl hW)) (h9))
        · exact h9
      · exact h5
    · extract_lets +onlyGivenNames -merge -useContext -underBinder x10
      have h11 : Only W a1 x10 := by
        unfold x10
        refine Only.ite (fun _ => ?_) (fun _ => ?_)
        · exact Only.rfl
        · exact busJoinRec_only (sub_trans rfl hW)
      clear_value x10
      exact Only.after (State.modBus_only (sub_trans rfl hW)) (h11)

theorem busTime_only {W : List Blk} {a0 : Nat} {a1 : Int} {a2 : Machine.State} (hW : sub [.adit] W = true) : Only W a2 (busTime a0 a1 a2) := by
  unfold busTime
  extract_lets +onlyGivenNames -merge -useContext -underBinder x0
  try clear_value x0
  extract_lets +onlyGivenNames -merge -useContext -underBinder x1
  try clear_value x1
  exact a6Rec_only (sub_trans rfl hW)

-- SKIP Sys2Proof.Machine.syncBus

theorem correctTime_only {W : List Blk} {a0 : Int} {a1 : Machine.State} (hW : sub [.ao, .adit, .bus] W = true) : Only W a1 (correctTime a0 a1) := by
  unfold correctTime
  extract_lets +onlyGivenNames -merge -useContext -underBinder c setClock step
  have hc : ∀ f t, Only W t (setClock f t) := fun f t => State.modBuses_only (sub_trans rfl hW)
  have hs : ∀ t, Only W t (step t) := fun t =>
    Only.after (State.modBus_only (sub_trans rfl hW)) (Only.after (State.modBus_only (sub_trans rfl hW)) (State.modAo_only (sub_trans rfl hW)))
  clear_value setClock step
  refine Only.ite (fun _ => ?_) (fun _ => ?_)
  · extract_lets x
    have h : Only W a1 x := Only.after (hc _ _) (hs _)
    exact Only.ite (fun _ => Only.after (busTime_only (sub_trans rfl hW)) h) (fun _ => h)
  · refine Only.ite (fun _ => ?_) (fun _ => ?_)
    · exact Only.after (busTime_only (sub_trans rfl hW)) (hc _ _)
    · refine Only.ite (fun _ => Only.rfl) (fun _ => ?_)
      extract_lets
      exact hc _ _

theorem syncFrom_only {W : List Blk} {a0 : Nat} {a1 : Nat} {a2 : Nat} {a3 : Bytes} {a4 : Machine.State} (hW : sub [.ao, .adit, .bus] W = true) : Only W a4 (syncFrom a0 a1 a2 a3 a4) := by
  unfold syncFrom
  extract_lets +onlyGivenNames -merge -useContext -underBinder setClock r c x1 x2 x3
  have hc : ∀ f t, Only W t (setClock f t) := fun f t => State.modBuses_only (sub_trans rfl hW)
  clear_value setClock
  have h1 : Only W a4 x1 := hc _ _
  have h2 : Only W a4 x2 := by
    refine Only.ite (fun _ => Only.rfl) (fun _ => Only.ite (fun _ => ?_) (fun _ => h1))
    exact Only.after (busTime_only (sub_trans rfl hW)) h1
  have h3 : Only W a4 x3 := Only.ite (fun _ => Only.after (busTime_only (sub_trans rfl hW)) (Only.after (hc _ _) h2)) (fun _ => h2)
  clear_value x1 x2 x3
  extract_lets +onlyGivenNames -merge -useContext -underBinder x4
  have h4 : Only W a4 x4 := by
    unfold x4
    split
    · refine Only.ite (fun _ => ?_) (fun _ => h3)
      extract_lets +onlyGivenNames -merge -useContext -underBinder tp y1 first y2
      have g1 : Only W a4 y1 := Only.after (correctTime_only (sub_trans rfl hW)) h3
      have g2 : Only W a4 y2 := Only.after (hc _ _) g1
      exact Only.ite (fun _ => Only.after (busTime_only (sub_trans rfl hW)) g2) (fun _ => g2)
    · exact h3
  exact Only.after (hc _ _) h4

theorem syncIn_only {W : List Blk} {a0 : Nat} {a1 : Frame} {a2 : Machine.State} (hW : sub [.ao, .adit, .bus] W = true) : Only W a2 (syncIn a0 a1 a2) := by
  unfold syncIn
  refine Only.ite (fun _ => ?_) (fun _ => ?_)
  · exact syncFrom_only (sub_trans rfl hW)
  · exact Only.rfl

theorem syncHoldover_only {W : List Blk} {a0 : Machine.State} (hW : sub [.adit, .bus] W = true) : Only W a0 (syncHoldover a0) := by
  unfold syncHoldover
  refine Only.ite (fun _ => ?_) (fun _ => ?_)
  · exact Only.after (busTime_only (sub_trans rfl hW)) (State.modBuses_only (sub_trans rfl hW))
  · exact Only.rfl

-- SKIP Sys2Proof.Machine.sleepAllowed

theorem sleepIn_only {W : List Blk} {a0 : Nat} {a1 : Frame} {a2 : Machine.State} (hW : sub [.adit, .bus] W = true) : Only W a2 (sleepIn a0 a1 a2) := by
  unfold sleepIn
  refine Only.ite (fun _ => ?_) (fun _ => ?_)
  · exact Only.rfl
  · refine Only.ite (fun _ => ?_) (fun _ => ?_)
    · exact Only.after (busSleepRec_only (sub_trans rfl hW)) (State.modBus_only (sub_trans rfl hW))
    · exact busSleepRec_only (sub_trans rfl hW)

theorem busWake_only {W : List Blk} {a0 : Nat} {a1 : Frame} {a2 : Machine.State} (hW : sub [.adit, .bus] W = true) : Only W a2 (busWake a0 a1 a2) := by
  unfold busWake
  refine Only.ite (fun _ => ?_) (fun _ => ?_)
  · exact wakeBus_only (sub_trans rfl hW)
  · refine Only.after (busIn_only (sub_trans rfl hW) (fun _ t0 => ?_)) ?_
    · exact Only.rfl
    · exact Only.rfl

theorem rowWake_only {W : List Blk} {a0 : Machine.State} (hW : sub [.adit, .bus] W = true) : Only W a0 (rowWake a0) := by
  unfold rowWake
  refine Only.ite (fun _ => ?_) (fun _ => ?_)
  · exact wakeBus_only (sub_trans rfl hW)
  · exact Only.rfl

-- SKIP Sys2Proof.Machine.mailboxWords

theorem mbxSelect_only {W : List Blk} {a0 : Nat} {a1 : Machine.State} (hW : sub [.bus] W = true) : Only W a1 (mbxSelect a0 a1) := by
  unfold mbxSelect
  refine Only.ite (fun _ => ?_) (fun _ => ?_)
  · exact Only.rfl
  · exact State.modBuses_only (sub_trans rfl hW)

theorem mbxWord0_only {W : List Blk} {a0 : Machine.State} (hW : sub [.bus] W = true) : Only W a0 (mbxWord0 a0) := by
  unfold mbxWord0
  refine Only.ite (fun _ => ?_) (fun _ => ?_)
  · exact Only.rfl
  · extract_lets +onlyGivenNames -merge -useContext -underBinder x0
    try clear_value x0
    exact State.modBuses_only (sub_trans rfl hW)

theorem mbxWord17_only {W : List Blk} {a0 : Machine.State} (hW : sub [.bus] W = true) : Only W a0 (mbxWord17 a0) := by
  unfold mbxWord17
  refine Only.ite (fun _ => ?_) (fun _ => ?_)
  · exact Only.rfl
  · exact State.modBuses_only (sub_trans rfl hW)

theorem mbxTimeout_only {W : List Blk} {a0 : Machine.State} (hW : sub [.bus] W = true) : Only W a0 (mbxTimeout a0) := by
  unfold mbxTimeout
  exact State.modBuses_only (sub_trans rfl hW)

-- SKIP Sys2Proof.Machine.flowRequest
-- SKIP Sys2Proof.Machine.budgetBody
-- SKIP Sys2Proof.Machine.telemBody
-- SKIP Sys2Proof.Machine.leakBody

theorem leakAlert_only {W : List Blk} {a0 : Nat} {a1 : Bool} {a2 : Machine.State} (hW : sub [.adit, .bus] W = true) : Only W a2 (leakAlert a0 a1 a2) := by
  unfold leakAlert
  exact Only.after (State.modBuses_only (sub_trans rfl hW)) (queueAlert_only (sub_trans rfl hW))

theorem tripNotice_only {W : List Blk} {a0 : Nat} {a1 : Bool} {a2 : Nat} {a3 : Machine.State} (hW : sub [.adit, .bus] W = true) : Only W a3 (tripNotice a0 a1 a2 a3) := by
  unfold tripNotice
  exact queueAlert_only (sub_trans rfl hW)

-- SKIP Sys2Proof.Machine.syncBody
-- SKIP Sys2Proof.Machine.State.slotBook
-- SKIP Sys2Proof.Machine.State.rackBook

theorem modSlotBook_only {W : List Blk} {a0 : Nat} {a1 : Alloc → Alloc} {a2 : Machine.State} (hW : sub [.ward] W = true) : Only W a2 (modSlotBook a0 a1 a2) := by
  unfold modSlotBook
  exact State.modWard_only (sub_trans rfl hW)

theorem modRackBook_only {W : List Blk} {a0 : Nat} {a1 : Alloc → Alloc} {a2 : Machine.State} (hW : sub [.ward] W = true) : Only W a2 (modRackBook a0 a1 a2) := by
  unfold modRackBook
  exact State.modWard_only (sub_trans rfl hW)

-- SKIP Sys2Proof.Machine.State.stage

theorem modStage_only {W : List Blk} {a0 : Nat} {a1 : Nat} {a2 : Stage → Stage} {a3 : Machine.State} (hW : sub [.ward] W = true) : Only W a3 (modStage a0 a1 a2 a3) := by
  unfold modStage
  exact State.modWard_only (sub_trans rfl hW)

-- SKIP Sys2Proof.Machine.stageMap
-- SKIP Sys2Proof.Machine.outAt

theorem setOut_only {W : List Blk} {a0 : Nat} {a1 : Nat} {a2 : Chan} {a3 : Machine.State} (hW : sub [.ward] W = true) : Only W a3 (setOut a0 a1 a2 a3) := by
  unfold setOut
  exact State.modWard_only (sub_trans rfl hW)

-- SKIP Sys2Proof.Machine.claimOf
-- SKIP Sys2Proof.Machine.activeIn
-- SKIP Sys2Proof.Machine.commandedNodes
-- SKIP Sys2Proof.Machine.heardWithin
-- SKIP Sys2Proof.Machine.slotHeard
-- SKIP Sys2Proof.Machine.rackHeard
-- SKIP Sys2Proof.Machine.heardSlots
-- SKIP Sys2Proof.Machine.heardRacks
-- SKIP Sys2Proof.Machine.slotFld
-- SKIP Sys2Proof.Machine.rackFld
-- SKIP Sys2Proof.Machine.slotSum
-- SKIP Sys2Proof.Machine.rackSum

theorem lowerFirst_only {W : List Blk} {a0 : List Nat} {a1 : Machine.State → Nat → Alloc} {a2 : Nat → (Alloc → Alloc) → Machine.State → Machine.State} {a3 : Nat → Nat} {a4 : Machine.State → Nat} {a5 : Machine.State} (hW : sub [] W = true) (g0 : ∀ v0 v1 v2, Only W v2 (a2 v0 v1 v2)) : Only W a5 (lowerFirst a0 a1 a2 a3 a4 a5) := by
  unfold lowerFirst
  extract_lets +onlyGivenNames -merge -useContext -underBinder x0
  try clear_value x0
  extract_lets +onlyGivenNames -merge -useContext -underBinder x1
  have h2 : Only W a5 x1 := by
    unfold x1
    refine Only.after (forEach_only (fun _ t3 => ?_)) ?_
    · refine Only.ite (fun _ => ?_) (fun _ => ?_)
      · exact g0 _ _ _
      · exact Only.rfl
    · exact Only.rfl
  clear_value x1
  refine Only.ite (fun _ => ?_) (fun _ => ?_)
  · refine Only.after (forEach_only (fun _ t4 => ?_)) ?_
    · refine Only.ite (fun _ => ?_) (fun _ => ?_)
      · exact g0 _ _ _
      · exact Only.rfl
    · exact h2
  · exact h2

theorem rackAllocate_only {W : List Blk} {a0 : Machine.State} (hW : sub [.ward] W = true) : Only W a0 (rackAllocate a0) := by
  unfold rackAllocate
  extract_lets +onlyGivenNames -merge -useContext -underBinder x0
  try clear_value x0
  extract_lets +onlyGivenNames -merge -useContext -underBinder x1
  try clear_value x1
  extract_lets +onlyGivenNames -merge -useContext -underBinder x2
  try clear_value x2
  extract_lets +onlyGivenNames -merge -useContext -underBinder x3
  try clear_value x3
  extract_lets +onlyGivenNames -merge -useContext -underBinder x4
  try clear_value x4
  refine Only.after (lowerFirst_only (sub_trans rfl hW) (fun _ _ t5 => ?_)) ?_
  · exact modSlotBook_only (sub_trans rfl hW)
  · exact Only.rfl

-- SKIP Sys2Proof.Machine.rackFlowCap
-- SKIP Sys2Proof.Machine.flowLimited

theorem rowAllocate_only {W : List Blk} {a0 : Machine.State} (hW : sub [.ward] W = true) : Only W a0 (rowAllocate a0) := by
  unfold rowAllocate
  extract_lets +onlyGivenNames -merge -useContext -underBinder x0
  try clear_value x0
  extract_lets +onlyGivenNames -merge -useContext -underBinder x1
  try clear_value x1
  extract_lets +onlyGivenNames -merge -useContext -underBinder x2
  try clear_value x2
  extract_lets +onlyGivenNames -merge -useContext -underBinder x3
  try clear_value x3
  extract_lets +onlyGivenNames -merge -useContext -underBinder x4
  try clear_value x4
  extract_lets +onlyGivenNames -merge -useContext -underBinder x5
  try clear_value x5
  extract_lets +onlyGivenNames -merge -useContext -underBinder x6
  try clear_value x6
  extract_lets +onlyGivenNames -merge -useContext -underBinder x7
  try clear_value x7
  extract_lets +onlyGivenNames -merge -useContext -underBinder x8
  have h9 : Only W a0 x8 := by
    unfold x8
    exact State.modWard_only (sub_trans rfl hW)
  clear_value x8
  refine Only.after (lowerFirst_only (sub_trans rfl hW) (fun _ _ t10 => ?_)) ?_
  · exact modRackBook_only (sub_trans rfl hW)
  · exact h9

theorem rackLaw_only {W : List Blk} {a0 : Machine.State} (hW : sub [.ward] W = true) : Only W a0 (rackLaw a0) := by
  unfold rackLaw
  extract_lets +onlyGivenNames -merge -useContext -underBinder x0
  try clear_value x0
  extract_lets +onlyGivenNames -merge -useContext -underBinder x1
  try clear_value x1
  extract_lets +onlyGivenNames -merge -useContext -underBinder x2
  try clear_value x2
  extract_lets +onlyGivenNames -merge -useContext -underBinder x3
  try clear_value x3
  exact State.modWard_only (sub_trans rfl hW)

theorem rowLaw_only {W : List Blk} {a0 : Machine.State} (hW : sub [.ward] W = true) : Only W a0 (rowLaw a0) := by
  unfold rowLaw
  extract_lets +onlyGivenNames -merge -useContext -underBinder x0
  try clear_value x0
  extract_lets +onlyGivenNames -merge -useContext -underBinder x1
  try clear_value x1
  extract_lets +onlyGivenNames -merge -useContext -underBinder x2
  try clear_value x2
  extract_lets +onlyGivenNames -merge -useContext -underBinder x3
  try clear_value x3
  extract_lets +onlyGivenNames -merge -useContext -underBinder x4
  try clear_value x4
  exact State.modWard_only (sub_trans rfl hW)

-- SKIP Sys2Proof.Machine.nextOut

theorem driveOutputs_only {W : List Blk} {a0 : Nat} {a1 : Bool} {a2 : Machine.State} (hW : sub [.ward] W = true) : Only W a2 (driveOutputs a0 a1 a2) := by
  unfold driveOutputs
  refine Only.foldl (fun t0 _ => ?_) ?_
  · refine Only.ite (fun _ => ?_) (fun _ => ?_)
    · exact setOut_only (sub_trans rfl hW)
    · exact Only.rfl
  · exact Only.rfl

-- SKIP Sys2Proof.Machine.slewing
-- SKIP Sys2Proof.Machine.cmdFor
-- SKIP Sys2Proof.Machine.cmdChannels
-- SKIP Sys2Proof.Machine.cmdReady

theorem claimCmd_only {W : List Blk} {a0 : Nat} {a1 : Nat} {a2 : Machine.State} (hW : sub [.bus] W = true) : Only W a2 (claimCmd a0 a1 a2) := by
  unfold claimCmd
  extract_lets +onlyGivenNames -merge -useContext -underBinder x0
  try clear_value x0
  refine Only.ite (fun _ => ?_) (fun _ => ?_)
  · exact Only.rfl
  · extract_lets +onlyGivenNames -merge -useContext -underBinder x1
    try clear_value x1
    extract_lets +onlyGivenNames -merge -useContext -underBinder x2
    try clear_value x2
    extract_lets +onlyGivenNames -merge -useContext -underBinder x3
    try clear_value x3
    exact queueMsg_only (sub_trans rfl hW)

theorem claimAll_only {W : List Blk} {a0 : Nat} {a1 : Machine.State} (hW : sub [.bus] W = true) : Only W a1 (claimAll a0 a1) := by
  unfold claimAll
  refine Only.after (forEach_only (fun _ t0 => ?_)) ?_
  · exact claimCmd_only (sub_trans rfl hW)
  · exact Only.rfl

-- SKIP Sys2Proof.Machine.linkUpW

theorem heartbeat_only {W : List Blk} {a0 : Nat} {a1 : Machine.State} (hW : sub [.bus] W = true) : Only W a1 (heartbeat a0 a1) := by
  unfold heartbeat
  extract_lets +onlyGivenNames -merge -useContext -underBinder x0
  try clear_value x0
  exact queueMsg_only (sub_trans rfl hW)

theorem takeOwnAlloc_only {W : List Blk} {a0 : Nat} {a1 : Nat} {a2 : Machine.State} (hW : sub [.sup, .power, .pump] W = true) : Only W a2 (takeOwnAlloc a0 a1 a2) := by
  unfold takeOwnAlloc
  exact Only.after (State.modSup_only (sub_trans rfl hW)) (Only.after (State.modPump_only (sub_trans rfl hW)) (State.modPower_only (sub_trans rfl hW)))

theorem takeRackAlloc_only {W : List Blk} {a0 : Nat} {a1 : Nat} {a2 : Machine.State} (hW : sub [.ward] W = true) : Only W a2 (takeRackAlloc a0 a1 a2) := by
  unfold takeRackAlloc
  exact State.modWard_only (sub_trans rfl hW)

-- SKIP Sys2Proof.Machine.slotFlow

theorem allocFrame_only {W : List Blk} {a0 : Nat} {a1 : Nat} {a2 : Nat} {a3 : Nat → Nat} {a4 : Nat → Nat} {a5 : Machine.State} (hW : sub [.bus] W = true) : Only W a5 (allocFrame a0 a1 a2 a3 a4 a5) := by
  unfold allocFrame
  exact queueMsg_only (sub_trans rfl hW)

theorem sendAlloc_only {W : List Blk} {a0 : Nat} {a1 : Machine.State} (hW : sub [.sup, .power, .pump, .bus, .ward] W = true) : Only W a1 (sendAlloc a0 a1) := by
  unfold sendAlloc
  refine Only.ite (fun _ => ?_) (fun _ => ?_)
  · extract_lets +onlyGivenNames -merge -useContext -underBinder x0
    try clear_value x0
    extract_lets +onlyGivenNames -merge -useContext -underBinder x1
    have h2 : Only W a1 x1 := by
      unfold x1
      exact Only.after (allocFrame_only (sub_trans rfl hW)) (Only.after (allocFrame_only (sub_trans rfl hW)) (allocFrame_only (sub_trans rfl hW)))
    clear_value x1
    extract_lets +onlyGivenNames -merge -useContext -underBinder x3
    have h4 : Only W a1 x3 := by
      unfold x3
      refine Only.after (forEach_only (fun _ t5 => ?_)) ?_
      · exact modSlotBook_only (sub_trans rfl hW)
      · exact h2
    clear_value x3
    refine Only.ite (fun _ => ?_) (fun _ => ?_)
    · exact Only.after (takeOwnAlloc_only (sub_trans rfl hW)) (h4)
    · exact h4
  · extract_lets +onlyGivenNames -merge -useContext -underBinder x6
    try clear_value x6
    extract_lets +onlyGivenNames -merge -useContext -underBinder x7
    try clear_value x7
    extract_lets +onlyGivenNames -merge -useContext -underBinder x8
    have h9 : Only W a1 x8 := by
      unfold x8
      exact Only.after (allocFrame_only (sub_trans rfl hW)) (allocFrame_only (sub_trans rfl hW))
    clear_value x8
    extract_lets +onlyGivenNames -merge -useContext -underBinder x10
    have h11 : Only W a1 x10 := by
      unfold x10
      refine Only.after (forEach_only (fun _ t12 => ?_)) ?_
      · exact modRackBook_only (sub_trans rfl hW)
      · exact h9
    clear_value x10
    refine Only.ite (fun _ => ?_) (fun _ => ?_)
    · exact Only.after (takeRackAlloc_only (sub_trans rfl hW)) (h11)
    · exact h11

theorem takeBudget_only {W : List Blk} {a0 : Nat} {a1 : Bytes} {a2 : Machine.State} (hW : sub [.ward] W = true) : Only W a2 (takeBudget a0 a1 a2) := by
  unfold takeBudget
  extract_lets +onlyGivenNames -merge -useContext -underBinder x0
  have h1 : Only W a2 x0 := by
    unfold x0
    exact State.modWard_only (sub_trans rfl hW)
  clear_value x0
  exact Only.after (modSlotBook_only (sub_trans rfl hW)) (h1)

theorem takeRackBudget_only {W : List Blk} {a0 : Nat} {a1 : Bytes} {a2 : Machine.State} (hW : sub [.ward] W = true) : Only W a2 (takeRackBudget a0 a1 a2) := by
  unfold takeRackBudget
  exact modRackBook_only (sub_trans rfl hW)

-- SKIP Sys2Proof.Machine.rackBudgetBody
-- SKIP Sys2Proof.Machine.rackTelemBody

theorem sendBudget_only {W : List Blk} {a0 : Machine.State} (hW : sub [.bus, .ward] W = true) : Only W a0 (sendBudget a0) := by
  unfold sendBudget
  extract_lets +onlyGivenNames -merge -useContext -underBinder x0
  try clear_value x0
  extract_lets +onlyGivenNames -merge -useContext -underBinder x1
  have h2 : Only W a0 x1 := by
    unfold x1
    exact queueMsg_only (sub_trans rfl hW)
  clear_value x1
  refine Only.ite (fun _ => ?_) (fun _ => ?_)
  · exact Only.after (takeBudget_only (sub_trans rfl hW)) (h2)
  · exact h2

theorem sendTelem_only {W : List Blk} {a0 : Machine.State} (hW : sub [.bus, .ward] W = true) : Only W a0 (sendTelem a0) := by
  unfold sendTelem
  extract_lets +onlyGivenNames -merge -useContext -underBinder x0
  try clear_value x0
  extract_lets +onlyGivenNames -merge -useContext -underBinder x1
  have h2 : Only W a0 x1 := by
    unfold x1
    exact queueMsg_only (sub_trans rfl hW)
  clear_value x1
  refine Only.ite (fun _ => ?_) (fun _ => ?_)
  · exact Only.after (modSlotBook_only (sub_trans rfl hW)) (h2)
  · exact h2

theorem sendRackBudget_only {W : List Blk} {a0 : Machine.State} (hW : sub [.bus, .ward] W = true) : Only W a0 (sendRackBudget a0) := by
  unfold sendRackBudget
  extract_lets +onlyGivenNames -merge -useContext -underBinder x0
  try clear_value x0
  extract_lets +onlyGivenNames -merge -useContext -underBinder x1
  have h2 : Only W a0 x1 := by
    unfold x1
    exact queueMsg_only (sub_trans rfl hW)
  clear_value x1
  refine Only.ite (fun _ => ?_) (fun _ => ?_)
  · exact Only.after (takeRackBudget_only (sub_trans rfl hW)) (h2)
  · exact h2

theorem sendRackTelem_only {W : List Blk} {a0 : Machine.State} (hW : sub [.bus, .ward] W = true) : Only W a0 (sendRackTelem a0) := by
  unfold sendRackTelem
  extract_lets +onlyGivenNames -merge -useContext -underBinder x0
  try clear_value x0
  extract_lets +onlyGivenNames -merge -useContext -underBinder x1
  have h2 : Only W a0 x1 := by
    unfold x1
    exact queueMsg_only (sub_trans rfl hW)
  clear_value x1
  refine Only.ite (fun _ => ?_) (fun _ => ?_)
  · exact Only.after (modRackBook_only (sub_trans rfl hW)) (h2)
  · exact h2

theorem messagePhase_only {W : List Blk} {a0 : Nat} {a1 : Nat} {a2 : Machine.State} (hW : sub [.sup, .adit, .power, .pump, .bus, .ward] W = true) : Only W a2 (messagePhase a0 a1 a2) := by
  unfold messagePhase
  refine Only.ite (fun _ => ?_) (fun _ => ?_)
  · exact Only.rfl
  · refine Only.ite (fun _ => ?_) (fun _ => ?_)
    · exact sendBudget_only (sub_trans rfl hW)
    · refine Only.ite (fun _ => ?_) (fun _ => ?_)
      · exact sendTelem_only (sub_trans rfl hW)
      · refine Only.ite (fun _ => ?_) (fun _ => ?_)
        · refine Only.ite (fun _ => ?_) (fun _ => ?_)
          · exact Only.after (State.modBuses_only (sub_trans rfl hW)) (queueAlert_only (sub_trans rfl hW))
          · exact Only.rfl
        · refine Only.ite (fun _ => ?_) (fun _ => ?_)
          · refine Only.ite (fun _ => ?_) (fun _ => ?_)
            · exact heartbeat_only (sub_trans rfl hW)
            · exact Only.rfl
          · refine Only.ite (fun _ => ?_) (fun _ => ?_)
            · exact Only.rfl
            · refine Only.ite (fun _ => ?_) (fun _ => ?_)
              · exact claimAll_only (sub_trans rfl hW)
              · refine Only.ite (fun _ => ?_) (fun _ => ?_)
                · exact queueMsg_only (sub_trans rfl hW)
                · refine Only.ite (fun _ => ?_) (fun _ => ?_)
                  · exact sendAlloc_only (sub_trans rfl hW)
                  · refine Only.ite (fun _ => ?_) (fun _ => ?_)
                    · exact sendRackBudget_only (sub_trans rfl hW)
                    · refine Only.ite (fun _ => ?_) (fun _ => ?_)
                      · exact sendRackTelem_only (sub_trans rfl hW)
                      · exact Only.rfl

theorem storeWard_only {W : List Blk} {a0 : Machine.State} (hW : sub [.mgmt] W = true) : Only W a0 (storeWard a0) := by
  unfold storeWard
  exact queueStore_only (sub_trans rfl hW)

theorem wardChanged_only {W : List Blk} {a0 : Nat} {a1 : Machine.State} (hW : sub [.mgmt, .ward] W = true) : Only W a1 (wardChanged a0 a1) := by
  unfold wardChanged
  exact Only.after (storeWard_only (sub_trans rfl hW)) (State.modWard_only (sub_trans rfl hW))

theorem wlSend_only {W : List Blk} {a0 : Nat} {a1 : Bytes} {a2 : Machine.State} (hW : sub [.ward] W = true) : Only W a2 (wlSend a0 a1 a2) := by
  unfold wlSend
  refine Only.ite (fun _ => ?_) (fun _ => ?_)
  · exact Only.rfl
  · exact State.modWard_only (sub_trans rfl hW)

theorem wardLink_only {W : List Blk} {a0 : Machine.State} (hW : sub [.adit] W = true) : Only W a0 (wardLink a0) := by
  unfold wardLink
  exact a6Rec_only (sub_trans rfl hW)

theorem laneGood_only {W : List Blk} {a0 : Nat} {a1 : Machine.State} (hW : sub [.adit, .ward] W = true) : Only W a1 (laneGood a0 a1) := by
  unfold laneGood
  extract_lets +onlyGivenNames -merge -useContext -underBinder x0
  try clear_value x0
  extract_lets +onlyGivenNames -merge -useContext -underBinder x1
  have h2 : Only W a1 x1 := by
    unfold x1
    exact State.modWard_only (sub_trans rfl hW)
  clear_value x1
  refine Only.ite (fun _ => ?_) (fun _ => ?_)
  · exact Only.after (wardLink_only (sub_trans rfl hW)) (h2)
  · exact h2

theorem laneDown_only {W : List Blk} {a0 : Nat} {a1 : Machine.State} (hW : sub [.adit, .ward] W = true) : Only W a1 (laneDown a0 a1) := by
  unfold laneDown
  refine Only.ite (fun _ => ?_) (fun _ => ?_)
  · exact Only.after (wardLink_only (sub_trans rfl hW)) (State.modWard_only (sub_trans rfl hW))
  · exact Only.rfl

theorem wlIn_only {W : List Blk} {a0 : Nat} {a1 : Nat} {a2 : Nat} {a3 : Bool} {a4 : Bytes} {a5 : Bytes → Machine.State → Machine.State} {a6 : Machine.State} (hW : sub [.adit, .ward] W = true) (g0 : ∀ v0 v1, Only W v1 (a5 v0 v1)) : Only W a6 (wlIn a0 a1 a2 a3 a4 a5 a6) := by
  unfold wlIn
  refine Only.ite (fun _ => ?_) (fun _ => ?_)
  · exact Only.rfl
  · refine Only.ite (fun _ => ?_) (fun _ => ?_)
    · exact State.modWard_only (sub_trans rfl hW)
    · extract_lets +onlyGivenNames -merge -useContext -underBinder x0
      have h1 : Only W a6 x0 := by
        unfold x0
        exact laneGood_only (sub_trans rfl hW)
      clear_value x0
      refine Only.ite (fun _ => ?_) (fun _ => ?_)
      · exact h1
      · exact Only.after (g0 _ _) (Only.after (State.modWard_only (sub_trans rfl hW)) (h1))

-- SKIP Sys2Proof.Machine.stateByte8
-- SKIP Sys2Proof.Machine.stateByte9
-- SKIP Sys2Proof.Machine.statePayload

theorem takeState_only {W : List Blk} {a0 : Bytes} {a1 : Machine.State} (hW : sub [.ward] W = true) : Only W a1 (takeState a0 a1) := by
  unfold takeState
  extract_lets +onlyGivenNames -merge -useContext -underBinder x0
  try clear_value x0
  exact State.modWard_only (sub_trans rfl hW)

-- SKIP Sys2Proof.Machine.mirrorBlocks
-- SKIP Sys2Proof.Machine.peerNode

theorem mirrorBlock_only {W : List Blk} {a0 : Nat} {a1 : Machine.State} (hW : sub [.bus, .ward] W = true) : Only W a1 (mirrorBlock a0 a1) := by
  unfold mirrorBlock
  extract_lets +onlyGivenNames -merge -useContext -underBinder x0
  try clear_value x0
  refine Only.ite (fun _ => ?_) (fun _ => ?_)
  · exact wlSend_only (sub_trans rfl hW)
  · split
    · exact Only.rfl
    · extract_lets +onlyGivenNames -merge -useContext -underBinder x1
      try clear_value x1
      refine Only.after (forEach_only (fun _ t2 => ?_)) ?_
      · exact queueMsg_only (sub_trans rfl hW)
      · exact Only.rfl

theorem mirrorTimer_only {W : List Blk} {a0 : Machine.State} (hW : sub [.bus, .ward] W = true) : Only W a0 (mirrorTimer a0) := by
  unfold mirrorTimer
  refine Only.ite (fun _ => ?_) (fun _ => ?_)
  · exact Only.rfl
  · refine Only.after (forEach_only (fun _ t0 => ?_)) ?_
    · exact mirrorBlock_only (sub_trans rfl hW)
    · exact State.modWard_only (sub_trans rfl hW)

theorem takeMirror_only {W : List Blk} {a0 : Bytes} {a1 : Machine.State} (hW : sub [.mgmt, .ward] W = true) : Only W a1 (takeMirror a0 a1) := by
  unfold takeMirror
  refine Only.ite (fun _ => ?_) (fun _ => ?_)
  · exact Only.rfl
  · extract_lets +onlyGivenNames -merge -useContext -underBinder x0
    try clear_value x0
    extract_lets +onlyGivenNames -merge -useContext -underBinder x1
    try clear_value x1
    extract_lets +onlyGivenNames -merge -useContext -underBinder x2
    try clear_value x2
    extract_lets +onlyGivenNames -merge -useContext -underBinder x3
    try clear_value x3
    refine Only.ite (fun _ => ?_) (fun _ => ?_)
    · exact Only.after (storeWard_only (sub_trans rfl hW)) (State.modWard_only (sub_trans rfl hW))
    · exact State.modWard_only (sub_trans rfl hW)

-- SKIP Sys2Proof.Machine.claimsHeard
-- SKIP Sys2Proof.Machine.nextClaim

theorem fabricAlert_only {W : List Blk} {a0 : Nat} {a1 : Machine.State} (hW : sub [.adit] W = true) : Only W a1 (fabricAlert a0 a1) := by
  unfold fabricAlert
  extract_lets +onlyGivenNames -merge -useContext -underBinder x0
  try clear_value x0
  refine Only.after (forEach_only (fun _ t1 => ?_)) ?_
  · exact a5Out_only (sub_trans rfl hW)
  · exact Only.rfl

-- SKIP Sys2Proof.Machine.firstOut

theorem firstOuts_only {W : List Blk} {a0 : Nat} {a1 : Machine.State} (hW : sub [.ward] W = true) : Only W a1 (firstOuts a0 a1) := by
  unfold firstOuts
  refine Only.foldl (fun t0 _ => ?_) ?_
  · refine Only.ite (fun _ => ?_) (fun _ => ?_)
    · exact setOut_only (sub_trans rfl hW)
    · exact Only.rfl
  · exact Only.rfl

theorem takeCopy_only {W : List Blk} {a0 : Machine.State} (hW : sub [.ward] W = true) : Only W a0 (takeCopy a0) := by
  unfold takeCopy
  split
  · exact Only.rfl
  · extract_lets +onlyGivenNames -merge -useContext -underBinder x0
    have h1 : Only W a0 x0 := by
      unfold x0
      refine Only.after (forEach_only (fun _ t2 => ?_)) ?_
      · exact modSlotBook_only (sub_trans rfl hW)
      · exact Only.rfl
    clear_value x0
    extract_lets +onlyGivenNames -merge -useContext -underBinder x3
    have h4 : Only W a0 x3 := by
      unfold x3
      exact Only.after (State.modWard_only (sub_trans rfl hW)) (h1)
    clear_value x3
    refine Only.ite (fun _ => ?_) (fun _ => ?_)
    · exact h4
    · extract_lets +onlyGivenNames -merge -useContext -underBinder x5
      have h6 : Only W a0 x5 := by
        unfold x5
        refine Only.after (forEach_only (fun _ t7 => ?_)) ?_
        · exact modRackBook_only (sub_trans rfl hW)
        · exact h4
      clear_value x5
      exact Only.after (State.modWard_only (sub_trans rfl hW)) (h6)

-- SKIP Sys2Proof.Machine.myRoles

theorem commandNow_only {W : List Blk} {a0 : Machine.State} (hW : sub [.bus] W = true) : Only W a0 (commandNow a0) := by
  unfold commandNow
  refine Only.after (forEach_only (fun _ t0 => ?_)) ?_
  · exact Only.after (claimAll_only (sub_trans rfl hW)) (heartbeat_only (sub_trans rfl hW))
  · exact Only.rfl

theorem becomeActive_only {W : List Blk} {a0 : Nat} {a1 : Machine.State} (hW : sub [.adit, .mgmt, .bus, .ward] W = true) : Only W a1 (becomeActive a0 a1) := by
  unfold becomeActive
  extract_lets +onlyGivenNames -merge -useContext -underBinder x0
  try clear_value x0
  extract_lets +onlyGivenNames -merge -useContext -underBinder x1
  try clear_value x1
  extract_lets +onlyGivenNames -merge -useContext -underBinder x2
  have h3 : Only W a1 x2 := by
    unfold x2
    exact Only.after (takeCopy_only (sub_trans rfl hW)) (State.modWard_only (sub_trans rfl hW))
  clear_value x2
  extract_lets +onlyGivenNames -merge -useContext -underBinder x4
  have h5 : Only W a1 x4 := by
    unfold x4
    refine Only.after (forEach_only (fun _ t6 => ?_)) ?_
    · exact firstOuts_only (sub_trans rfl hW)
    · exact h3
  clear_value x4
  extract_lets +onlyGivenNames -merge -useContext -underBinder x7
  have h8 : Only W a1 x7 := by
    unfold x7
    exact Only.after (State.modBus_only (sub_trans rfl hW)) (Only.after (State.modBus_only (sub_trans rfl hW)) (h5))
  clear_value x7
  extract_lets +onlyGivenNames -merge -useContext -underBinder x9
  have h10 : Only W a1 x9 := by
    unfold x9
    exact Only.after (wardRole_only (sub_trans rfl hW)) (h8)
  clear_value x9
  extract_lets +onlyGivenNames -merge -useContext -underBinder x11
  have h12 : Only W a1 x11 := by
    unfold x11
    refine Only.ite (fun _ => ?_) (fun _ => ?_)
    · exact Only.after (wardRole_only (sub_trans rfl hW)) (h10)
    · exact h10
  clear_value x11
  exact Only.after (storeWard_only (sub_trans rfl hW)) (Only.after (fabricAlert_only (sub_trans rfl hW)) (Only.after (commandNow_only (sub_trans rfl hW)) (h12)))

theorem stopSending_only {W : List Blk} {a0 : Machine.State} (hW : sub [.bus] W = true) : Only W a0 (stopSending a0) := by
  unfold stopSending
  extract_lets +onlyGivenNames -merge -useContext -underBinder x0
  try clear_value x0
  exact Only.after (State.modBus_only (sub_trans rfl hW)) (State.modBus_only (sub_trans rfl hW))

theorem becomeStandby_only {W : List Blk} {a0 : Nat} {a1 : Machine.State} (hW : sub [.adit, .bus, .ward] W = true) : Only W a1 (becomeStandby a0 a1) := by
  unfold becomeStandby
  exact Only.after (wardRole_only (sub_trans rfl hW)) (Only.after (stopSending_only (sub_trans rfl hW)) (State.modWard_only (sub_trans rfl hW)))

theorem startActive_only {W : List Blk} {a0 : Machine.State} (hW : sub [.adit, .mgmt, .bus, .ward] W = true) : Only W a0 (startActive a0) := by
  unfold startActive
  extract_lets +onlyGivenNames -merge -useContext -underBinder x0
  try clear_value x0
  extract_lets +onlyGivenNames -merge -useContext -underBinder x1
  try clear_value x1
  refine Only.ite (fun _ => ?_) (fun _ => ?_)
  · exact Only.rfl
  · exact becomeActive_only (sub_trans rfl hW)

theorem standbyEval_only {W : List Blk} {a0 : Machine.State} (hW : sub [.adit, .mgmt, .bus, .ward] W = true) : Only W a0 (standbyEval a0) := by
  unfold standbyEval
  extract_lets +onlyGivenNames -merge -useContext -underBinder x0
  try clear_value x0
  refine Only.ite (fun _ => ?_) (fun _ => ?_)
  · exact Only.rfl
  · extract_lets +onlyGivenNames -merge -useContext -underBinder x1
    try clear_value x1
    extract_lets +onlyGivenNames -merge -useContext -underBinder x2
    have h3 : Only W a0 x2 := by
      unfold x2
      exact State.modWard_only (sub_trans rfl hW)
    clear_value x2
    refine Only.ite (fun _ => ?_) (fun _ => ?_)
    · exact Only.after (becomeActive_only (sub_trans rfl hW)) (h3)
    · exact h3

theorem takeHb_only {W : List Blk} {a0 : Nat} {a1 : Frame} {a2 : Machine.State} (hW : sub [.adit, .bus, .ward] W = true) : Only W a2 (takeHb a0 a1 a2) := by
  unfold takeHb
  extract_lets +onlyGivenNames -merge -useContext -underBinder x0
  try clear_value x0
  extract_lets +onlyGivenNames -merge -useContext -underBinder x1
  try clear_value x1
  extract_lets +onlyGivenNames -merge -useContext -underBinder x2
  have h3 : Only W a2 x2 := by
    unfold x2
    exact State.modBus_only (sub_trans rfl hW)
  clear_value x2
  extract_lets +onlyGivenNames -merge -useContext -underBinder x4
  try clear_value x4
  extract_lets +onlyGivenNames -merge -useContext -underBinder x5
  try clear_value x5
  extract_lets +onlyGivenNames -merge -useContext -underBinder x6
  try clear_value x6
  extract_lets +onlyGivenNames -merge -useContext -underBinder x7
  have h8 : Only W a2 x7 := by
    unfold x7
    refine Only.ite (fun _ => ?_) (fun _ => ?_)
    · exact Only.after (State.modWard_only (sub_trans rfl hW)) (h3)
    · exact h3
  clear_value x7
  refine Only.ite (fun _ => ?_) (fun _ => ?_)
  · exact Only.after (becomeStandby_only (sub_trans rfl hW)) (h8)
  · exact h8

-- SKIP Sys2Proof.Machine.notMineAt
-- SKIP Sys2Proof.Machine.judgedStages

theorem sendHandover_only {W : List Blk} {a0 : Bool} {a1 : Machine.State} (hW : sub [.ward] W = true) : Only W a1 (sendHandover a0 a1) := by
  unfold sendHandover
  exact Only.after (wlSend_only (sub_trans rfl hW)) (State.modWard_only (sub_trans rfl hW))

-- SKIP Sys2Proof.Machine.peerFit

theorem canaryResult_only {W : List Blk} {a0 : Nat} {a1 : Nat} {a2 : Machine.State} (hW : sub [.adit] W = true) : Only W a2 (canaryResult a0 a1 a2) := by
  unfold canaryResult
  exact a6Rec_only (sub_trans rfl hW)

theorem takeHandover_only {W : List Blk} {a0 : Machine.State} (hW : sub [.adit, .mgmt, .bus, .ward] W = true) : Only W a0 (takeHandover a0) := by
  unfold takeHandover
  refine Only.ite (fun _ => ?_) (fun _ => ?_)
  · exact Only.rfl
  · extract_lets +onlyGivenNames -merge -useContext -underBinder x0
    try clear_value x0
    extract_lets +onlyGivenNames -merge -useContext -underBinder x1
    try clear_value x1
    extract_lets +onlyGivenNames -merge -useContext -underBinder x2
    have h3 : Only W a0 x2 := by
      unfold x2
      exact wlSend_only (sub_trans rfl hW)
    clear_value x2
    extract_lets +onlyGivenNames -merge -useContext -underBinder x4
    have h5 : Only W a0 x4 := by
      unfold x4
      exact Only.after (becomeActive_only (sub_trans rfl hW)) (h3)
    clear_value x4
    exact Only.after (State.modWard_only (sub_trans rfl hW)) (h5)

theorem takeHandoverAck_only {W : List Blk} {a0 : Machine.State} (hW : sub [.adit, .bus, .ward] W = true) : Only W a0 (takeHandoverAck a0) := by
  unfold takeHandoverAck
  split
  · exact Only.rfl
  · exact Only.after (State.modWard_only (sub_trans rfl hW)) (becomeStandby_only (sub_trans rfl hW))

theorem handoverTimeout_only {W : List Blk} {a0 : Machine.State} (hW : sub [.adit, .ward] W = true) : Only W a0 (handoverTimeout a0) := by
  unfold handoverTimeout
  split
  · exact Only.rfl
  · extract_lets +onlyGivenNames -merge -useContext -underBinder x0
    have h1 : Only W a0 x0 := by
      unfold x0
      exact State.modWard_only (sub_trans rfl hW)
    clear_value x0
    refine Only.ite (fun _ => ?_) (fun _ => ?_)
    · exact Only.after (canaryResult_only (sub_trans rfl hW)) (h1)
    · exact h1

theorem canaryExpiry_only {W : List Blk} {a0 : Machine.State} (hW : sub [.adit, .ward] W = true) : Only W a0 (canaryExpiry a0) := by
  unfold canaryExpiry
  refine Only.ite (fun _ => ?_) (fun _ => ?_)
  · exact Only.rfl
  · extract_lets +onlyGivenNames -merge -useContext -underBinder x0
    try clear_value x0
    extract_lets +onlyGivenNames -merge -useContext -underBinder x1
    have h2 : Only W a0 x1 := by
      unfold x1
      exact State.modWard_only (sub_trans rfl hW)
    clear_value x1
    refine Only.ite (fun _ => ?_) (fun _ => ?_)
    · exact Only.after (canaryResult_only (sub_trans rfl hW)) (h2)
    · exact Only.after (sendHandover_only (sub_trans rfl hW)) (Only.after (canaryResult_only (sub_trans rfl hW)) (h2))

theorem judgeInForce_only {W : List Blk} {a0 : Machine.State} (hW : sub [.ward] W = true) : Only W a0 (judgeInForce a0) := by
  unfold judgeInForce
  extract_lets +onlyGivenNames -merge -useContext -underBinder x0
  try clear_value x0
  extract_lets +onlyGivenNames -merge -useContext -underBinder x1
  try clear_value x1
  extract_lets +onlyGivenNames -merge -useContext -underBinder x2
  try clear_value x2
  extract_lets +onlyGivenNames -merge -useContext -underBinder x3
  have h4 : Only W a0 x3 := by
    unfold x3
    exact State.modWard_only (sub_trans rfl hW)
  clear_value x3
  refine Only.ite (fun _ => ?_) (fun _ => ?_)
  · exact h4
  · extract_lets +onlyGivenNames -merge -useContext -underBinder x5
    have h6 : Only W a0 x5 := by
      unfold x5
      exact Only.after (State.modWard_only (sub_trans rfl hW)) (h4)
    clear_value x5
    refine Only.ite (fun _ => ?_) (fun _ => ?_)
    · exact Only.after (sendHandover_only (sub_trans rfl hW)) (h6)
    · exact h6

theorem stageEvent_only {W : List Blk} {a0 : Nat} {a1 : Nat} {a2 : Nat} {a3 : Nat} {a4 : Machine.State} (hW : sub [.adit] W = true) : Only W a4 (stageEvent a0 a1 a2 a3 a4) := by
  unfold stageEvent
  exact a6Rec_only (sub_trans rfl hW)

theorem stagesUnheard_only {W : List Blk} {a0 : Nat} {a1 : Machine.State} (hW : sub [.adit, .ward] W = true) : Only W a1 (stagesUnheard a0 a1) := by
  unfold stagesUnheard
  refine Only.after (forEach_only (fun _ t0 => ?_)) ?_
  · extract_lets +onlyGivenNames -merge -useContext -underBinder x1
    try clear_value x1
    refine Only.ite (fun _ => ?_) (fun _ => ?_)
    · exact Only.after (stageEvent_only (sub_trans rfl hW)) (modStage_only (sub_trans rfl hW))
    · exact Only.rfl
  · exact Only.rfl

theorem rackCycle_only {W : List Blk} {a0 : Machine.State} (hW : sub [.adit, .ward] W = true) : Only W a0 (rackCycle a0) := by
  unfold rackCycle
  refine Only.ite (fun _ => ?_) (fun _ => ?_)
  · exact Only.rfl
  · extract_lets +onlyGivenNames -merge -useContext -underBinder x0
    have h1 : Only W a0 x0 := by
      unfold x0
      exact State.modWard_only (sub_trans rfl hW)
    clear_value x0
    extract_lets +onlyGivenNames -merge -useContext -underBinder x2
    have h3 : Only W a0 x2 := by
      unfold x2
      refine Only.ite (fun _ => ?_) (fun _ => ?_)
      · exact Only.after (judgeInForce_only (sub_trans rfl hW)) (Only.after (stagesUnheard_only (sub_trans rfl hW)) (Only.after (driveOutputs_only (sub_trans rfl hW)) (Only.after (rackLaw_only (sub_trans rfl hW)) (Only.after (rackAllocate_only (sub_trans rfl hW)) (h1)))))
      · exact h1
    clear_value x2
    exact Only.after (wlSend_only (sub_trans rfl hW)) (h3)

theorem rowBookRec_only {W : List Blk} {a0 : Machine.State} (hW : sub [.adit] W = true) : Only W a0 (rowBookRec a0) := by
  unfold rowBookRec
  extract_lets +onlyGivenNames -merge -useContext -underBinder x0
  try clear_value x0
  exact a6Rec_only (sub_trans rfl hW)

theorem rowCycle_only {W : List Blk} {a0 : Machine.State} (hW : sub [.adit, .ward] W = true) : Only W a0 (rowCycle a0) := by
  unfold rowCycle
  refine Only.ite (fun _ => ?_) (fun _ => ?_)
  · exact Only.rfl
  · exact Only.after (rowBookRec_only (sub_trans rfl hW)) (Only.after (stagesUnheard_only (sub_trans rfl hW)) (Only.after (driveOutputs_only (sub_trans rfl hW)) (Only.after (rowLaw_only (sub_trans rfl hW)) (Only.after (rowAllocate_only (sub_trans rfl hW)) (State.modWard_only (sub_trans rfl hW))))))

theorem rowAllocSilence_only {W : List Blk} {a0 : Machine.State} (hW : sub [.ward] W = true) : Only W a0 (rowAllocSilence a0) := by
  unfold rowAllocSilence
  refine Only.ite (fun _ => ?_) (fun _ => ?_)
  · exact State.modWard_only (sub_trans rfl hW)
  · exact Only.rfl

theorem leakResponse_only {W : List Blk} {a0 : Nat} {a1 : Nat} {a2 : Nat} {a3 : Nat} {a4 : Machine.State} (hW : sub [.adit] W = true) : Only W a4 (leakResponse a0 a1 a2 a3 a4) := by
  unfold leakResponse
  exact a6Rec_only (sub_trans rfl hW)

theorem respondNow_only {W : List Blk} {a0 : Nat} {a1 : Machine.State} (hW : sub [.bus, .ward] W = true) : Only W a1 (respondNow a0 a1) := by
  unfold respondNow
  exact Only.after (claimAll_only (sub_trans rfl hW)) (driveOutputs_only (sub_trans rfl hW))

theorem relayAlert_only {W : List Blk} {a0 : Frame} {a1 : Machine.State} (hW : sub [.bus] W = true) : Only W a1 (relayAlert a0 a1) := by
  unfold relayAlert
  refine Only.ite (fun _ => ?_) (fun _ => ?_)
  · exact queueMsg_only (sub_trans rfl hW)
  · exact Only.rfl

theorem takeLeakAlert_only {W : List Blk} {a0 : Frame} {a1 : Machine.State} (hW : sub [.adit, .mgmt, .bus, .ward] W = true) : Only W a1 (takeLeakAlert a0 a1) := by
  unfold takeLeakAlert
  extract_lets +onlyGivenNames -merge -useContext -underBinder x0
  try clear_value x0
  refine Only.ite (fun _ => ?_) (fun _ => ?_)
  · exact relayAlert_only (sub_trans rfl hW)
  · extract_lets +onlyGivenNames -merge -useContext -underBinder x1
    have h2 : Only W a1 x1 := by
      unfold x1
      exact Only.after (relayAlert_only (sub_trans rfl hW)) (modSlotBook_only (sub_trans rfl hW))
    clear_value x1
    refine Only.ite (fun _ => ?_) (fun _ => ?_)
    · exact h2
    · extract_lets +onlyGivenNames -merge -useContext -underBinder x3
      have h4 : Only W a1 x3 := by
        unfold x3
        exact Only.after (wardChanged_only (sub_trans rfl hW)) (Only.after (State.modWard_only (sub_trans rfl hW)) (h2))
      clear_value x3
      exact Only.after (respondNow_only (sub_trans rfl hW)) (Only.after (leakResponse_only (sub_trans rfl hW)) (h4))

theorem takeTrip_only {W : List Blk} {a0 : Frame} {a1 : Machine.State} (hW : sub [.bus, .ward] W = true) : Only W a1 (takeTrip a0 a1) := by
  unfold takeTrip
  refine Only.after (relayAlert_only (sub_trans rfl hW)) ?_
  · refine Only.ite (fun _ => ?_) (fun _ => ?_)
    · exact State.modWard_only (sub_trans rfl hW)
    · exact Only.rfl

theorem takeRackAlert_only {W : List Blk} {a0 : Frame} {a1 : Machine.State} (hW : sub [.ward] W = true) : Only W a1 (takeRackAlert a0 a1) := by
  unfold takeRackAlert
  refine Only.ite (fun _ => ?_) (fun _ => ?_)
  · exact State.modWard_only (sub_trans rfl hW)
  · exact Only.rfl

-- SKIP Sys2Proof.Machine.fnAt

theorem beginRack_only {W : List Blk} {a0 : Nat} {a1 : Nat} {a2 : Machine.State} (hW : sub [.sup, .adit, .mgmt, .power, .pump, .bus, .ward] W = true) : Only W a2 (beginRack a0 a1 a2) := by
  unfold beginRack
  refine Only.ite (fun _ => ?_) (fun _ => ?_)
  · exact Only.rfl
  · extract_lets +onlyGivenNames -merge -useContext -underBinder x0
    have h1 : Only W a2 x0 := by
      unfold x0
      exact Only.after (rackAllocate_only (sub_trans rfl hW)) (Only.after (wardChanged_only (sub_trans rfl hW)) (State.modWard_only (sub_trans rfl hW)))
    clear_value x0
    exact Only.after (sendAlloc_only (sub_trans rfl hW)) (Only.after (leakResponse_only (sub_trans rfl hW)) (h1))

theorem beginRow_only {W : List Blk} {a0 : Nat} {a1 : Nat} {a2 : Nat} {a3 : Machine.State} (hW : sub [.sup, .adit, .mgmt, .power, .pump, .bus, .ward] W = true) : Only W a3 (beginRow a0 a1 a2 a3) := by
  unfold beginRow
  refine Only.ite (fun _ => ?_) (fun _ => ?_)
  · exact Only.rfl
  · extract_lets +onlyGivenNames -merge -useContext -underBinder x0
    have h1 : Only W a3 x0 := by
      unfold x0
      exact Only.after (rowAllocate_only (sub_trans rfl hW)) (Only.after (wardChanged_only (sub_trans rfl hW)) (State.modWard_only (sub_trans rfl hW)))
    clear_value x0
    exact Only.after (sendAlloc_only (sub_trans rfl hW)) (Only.after (leakResponse_only (sub_trans rfl hW)) (h1))

theorem takeStageAlarm_only {W : List Blk} {a0 : Nat} {a1 : Frame} {a2 : Machine.State} (hW : sub [.sup, .adit, .mgmt, .power, .pump, .bus, .ward] W = true) : Only W a2 (takeStageAlarm a0 a1 a2) := by
  unfold takeStageAlarm
  refine Only.ite (fun _ => ?_) (fun _ => ?_)
  · exact Only.rfl
  · extract_lets +onlyGivenNames -merge -useContext -underBinder x0
    try clear_value x0
    extract_lets +onlyGivenNames -merge -useContext -underBinder x1
    try clear_value x1
    extract_lets +onlyGivenNames -merge -useContext -underBinder x2
    try clear_value x2
    extract_lets +onlyGivenNames -merge -useContext -underBinder x3
    try clear_value x3
    extract_lets +onlyGivenNames -merge -useContext -underBinder x4
    try clear_value x4
    extract_lets +onlyGivenNames -merge -useContext -underBinder x5
    try clear_value x5
    extract_lets +onlyGivenNames -merge -useContext -underBinder x6
    have h7 : Only W a2 x6 := by
      unfold x6
      exact modStage_only (sub_trans rfl hW)
    clear_value x6
    extract_lets +onlyGivenNames -merge -useContext -underBinder x8
    have h9 : Only W a2 x8 := by
      unfold x8
      exact Only.after (stageEvent_only (sub_trans rfl hW)) (h7)
    clear_value x8
    extract_lets +onlyGivenNames -merge -useContext -underBinder x10
    have h11 : Only W a2 x10 := by
      unfold x10
      refine Only.ite (fun _ => ?_) (fun _ => ?_)
      · exact Only.after (relayAlert_only (sub_trans rfl hW)) (h9)
      · exact h9
    clear_value x10
    extract_lets +onlyGivenNames -merge -useContext -underBinder x12
    try clear_value x12
    refine Only.ite (fun _ => ?_) (fun _ => ?_)
    · exact h11
    · refine Only.ite (fun _ => ?_) (fun _ => ?_)
      · refine Only.ite (fun _ => ?_) (fun _ => ?_)
        · exact Only.after (beginRack_only (sub_trans rfl hW)) (h11)
        · exact h11
      · refine Only.ite (fun _ => ?_) (fun _ => ?_)
        · exact h11
        · refine Only.ite (fun _ => ?_) (fun _ => ?_)
          · exact Only.after (beginRow_only (sub_trans rfl hW)) (h11)
          · refine Only.ite (fun _ => ?_) (fun _ => ?_)
            · exact Only.after (beginRow_only (sub_trans rfl hW)) (h11)
            · exact h11

theorem leakDelay_only {W : List Blk} {a0 : Nat} {a1 : Machine.State} (hW : sub [.adit, .mgmt, .bus, .ward] W = true) : Only W a1 (leakDelay a0 a1) := by
  unfold leakDelay
  refine Only.ite (fun _ => ?_) (fun _ => ?_)
  · exact Only.rfl
  · refine Only.ite (fun _ => ?_) (fun _ => ?_)
    · refine Only.ite (fun _ => ?_) (fun _ => ?_)
      · exact Only.rfl
      · exact Only.after (respondNow_only (sub_trans rfl hW)) (Only.after (leakResponse_only (sub_trans rfl hW)) (Only.after (wardChanged_only (sub_trans rfl hW)) (State.modWard_only (sub_trans rfl hW))))
    · refine Only.ite (fun _ => ?_) (fun _ => ?_)
      · exact Only.rfl
      · extract_lets +onlyGivenNames -merge -useContext -underBinder x0
        have h1 : Only W a1 x0 := by
          unfold x0
          exact Only.after (wardChanged_only (sub_trans rfl hW)) (State.modWard_only (sub_trans rfl hW))
        clear_value x0
        exact Only.after (respondNow_only (sub_trans rfl hW)) (Only.after (leakResponse_only (sub_trans rfl hW)) (h1))

-- SKIP Sys2Proof.Machine.alarmStands

theorem takeStatus_only {W : List Blk} {a0 : Nat} {a1 : Frame} {a2 : Machine.State} (hW : sub [.adit, .ward] W = true) : Only W a2 (takeStatus a0 a1 a2) := by
  unfold takeStatus
  refine Only.ite (fun _ => ?_) (fun _ => ?_)
  · exact Only.rfl
  · extract_lets +onlyGivenNames -merge -useContext -underBinder x0
    try clear_value x0
    extract_lets +onlyGivenNames -merge -useContext -underBinder x1
    try clear_value x1
    extract_lets +onlyGivenNames -merge -useContext -underBinder x2
    try clear_value x2
    extract_lets +onlyGivenNames -merge -useContext -underBinder x3
    try clear_value x3
    extract_lets +onlyGivenNames -merge -useContext -underBinder x4
    try clear_value x4
    extract_lets +onlyGivenNames -merge -useContext -underBinder x5
    try clear_value x5
    extract_lets +onlyGivenNames -merge -useContext -underBinder x6
    have h7 : Only W a2 x6 := by
      unfold x6
      exact modStage_only (sub_trans rfl hW)
    clear_value x6
    extract_lets +onlyGivenNames -merge -useContext -underBinder x8
    have h9 : Only W a2 x8 := by
      unfold x8
      refine Only.ite (fun _ => ?_) (fun _ => ?_)
      · exact Only.after (stageEvent_only (sub_trans rfl hW)) (h7)
      · exact h7
    clear_value x8
    extract_lets +onlyGivenNames -merge -useContext -underBinder x10
    have h11 : Only W a2 x10 := by
      unfold x10
      refine Only.ite (fun _ => ?_) (fun _ => ?_)
      · exact Only.after (stageEvent_only (sub_trans rfl hW)) (h9)
      · exact h9
    clear_value x10
    refine Only.ite (fun _ => ?_) (fun _ => ?_)
    · exact Only.after (stageEvent_only (sub_trans rfl hW)) (h11)
    · exact h11

theorem takeAlloc_only {W : List Blk} {a0 : Nat} {a1 : Frame} {a2 : Machine.State} (hW : sub [.sup, .power, .pump, .ward] W = true) : Only W a2 (takeAlloc a0 a1 a2) := by
  unfold takeAlloc
  extract_lets +onlyGivenNames -merge -useContext -underBinder x0
  try clear_value x0
  extract_lets +onlyGivenNames -merge -useContext -underBinder x1
  try clear_value x1
  extract_lets +onlyGivenNames -merge -useContext -underBinder x2
  try clear_value x2
  refine Only.ite (fun _ => ?_) (fun _ => ?_)
  · exact Only.rfl
  · extract_lets +onlyGivenNames -merge -useContext -underBinder x3
    try clear_value x3
    extract_lets +onlyGivenNames -merge -useContext -underBinder x4
    try clear_value x4
    refine Only.ite (fun _ => ?_) (fun _ => ?_)
    · exact takeOwnAlloc_only (sub_trans rfl hW)
    · refine Only.ite (fun _ => ?_) (fun _ => ?_)
      · exact takeRackAlloc_only (sub_trans rfl hW)
      · exact Only.rfl

theorem takeModuleBudget_only {W : List Blk} {a0 : Frame} {a1 : Machine.State} (hW : sub [.ward] W = true) : Only W a1 (takeModuleBudget a0 a1) := by
  unfold takeModuleBudget
  refine Only.ite (fun _ => ?_) (fun _ => ?_)
  · exact takeBudget_only (sub_trans rfl hW)
  · exact Only.rfl

theorem takeModuleTelem_only {W : List Blk} {a0 : Frame} {a1 : Machine.State} (hW : sub [.ward] W = true) : Only W a1 (takeModuleTelem a0 a1) := by
  unfold takeModuleTelem
  refine Only.ite (fun _ => ?_) (fun _ => ?_)
  · exact modSlotBook_only (sub_trans rfl hW)
  · exact Only.rfl

theorem takeRackBudgetMsg_only {W : List Blk} {a0 : Frame} {a1 : Machine.State} (hW : sub [.ward] W = true) : Only W a1 (takeRackBudgetMsg a0 a1) := by
  unfold takeRackBudgetMsg
  refine Only.ite (fun _ => ?_) (fun _ => ?_)
  · exact takeRackBudget_only (sub_trans rfl hW)
  · exact Only.rfl

theorem takeRackTelem_only {W : List Blk} {a0 : Frame} {a1 : Machine.State} (hW : sub [.ward] W = true) : Only W a1 (takeRackTelem a0 a1) := by
  unfold takeRackTelem
  refine Only.ite (fun _ => ?_) (fun _ => ?_)
  · exact modRackBook_only (sub_trans rfl hW)
  · exact Only.rfl

theorem takeAnnounceReq_only {W : List Blk} {a0 : Nat} {a1 : Frame} {a2 : Machine.State} (hW : sub [.bus] W = true) : Only W a2 (takeAnnounceReq a0 a1 a2) := by
  unfold takeAnnounceReq
  exact announce_only (sub_trans rfl hW)

theorem takeFabric_only {W : List Blk} {a0 : Nat} {a1 : Bytes} {a2 : Machine.State} (hW : sub [.adit] W = true) : Only W a2 (takeFabric a0 a1 a2) := by
  unfold takeFabric
  exact a6Rec_only (sub_trans rfl hW)

-- SKIP Sys2Proof.Machine.capable
-- SKIP Sys2Proof.Machine.pairActive
-- SKIP Sys2Proof.Machine.accepts

theorem refused33_only {W : List Blk} {a0 : Machine.State} (hW : sub [] W = true) : OnlyVia (fun r => r.2.2) W a0 (refused33 a0) := by
  unfold refused33
  refine Only.via3 ?_
  exact Only.rfl

-- SKIP Sys2Proof.Machine.rowCannotJoin

theorem polCommission_only {W : List Blk} {a0 : Machine.State} (hW : sub [.adit, .mgmt, .bus, .ward] W = true) : Only W a0 (polCommission a0) := by
  unfold polCommission
  refine Only.after (policyRun_only (sub_trans rfl hW) (fun _ t0 => ?_)) ?_
  · extract_lets +onlyGivenNames -merge -useContext -underBinder x1
    try clear_value x1
    refine Only.iteV (fun _ => ?_) (fun _ => ?_)
    · exact refused33_only (sub_trans rfl hW)
    · extract_lets +onlyGivenNames -merge -useContext -underBinder x2
      have h3 : Only W t0 x2 := by
        unfold x2
        exact State.modWard_only (sub_trans rfl hW)
      clear_value x2
      refine Only.via3 ?_
      refine Only.after (storeWard_only (sub_trans rfl hW)) ?_
      · refine Only.ite (fun _ => ?_) (fun _ => ?_)
        · exact Only.after (startListen_only (sub_trans rfl hW)) (h3)
        · exact h3
  · exact Only.rfl

theorem polDecommission_only {W : List Blk} {a0 : Machine.State} (hW : sub [.adit, .mgmt, .bus, .ward] W = true) : Only W a0 (polDecommission a0) := by
  unfold polDecommission
  refine Only.after (policyRun_only (sub_trans rfl hW) (fun _ t0 => ?_)) ?_
  · refine Only.iteV (fun _ => ?_) (fun _ => ?_)
    · exact refused33_only (sub_trans rfl hW)
    · refine Only.via3 ?_
      exact Only.after (storeWard_only (sub_trans rfl hW)) (Only.after (State.modBus_only (sub_trans rfl hW)) (State.modWard_only (sub_trans rfl hW)))
  · exact Only.rfl

theorem polStageMap_only {W : List Blk} {a0 : Machine.State} (hW : sub [.adit, .mgmt, .ward] W = true) : Only W a0 (polStageMap a0) := by
  unfold polStageMap
  refine Only.after (policyRun_only (sub_trans rfl hW) (fun _ t0 => ?_)) ?_
  · extract_lets +onlyGivenNames -merge -useContext -underBinder x1
    try clear_value x1
    refine Only.iteV (fun _ => ?_) (fun _ => ?_)
    · exact refused33_only (sub_trans rfl hW)
    · extract_lets +onlyGivenNames -merge -useContext -underBinder x2
      try clear_value x2
      extract_lets +onlyGivenNames -merge -useContext -underBinder x3
      try clear_value x3
      extract_lets +onlyGivenNames -merge -useContext -underBinder x4
      try clear_value x4
      extract_lets +onlyGivenNames -merge -useContext -underBinder x5
      have h6 : Only W t0 x5 := by
        unfold x5
        exact State.modWard_only (sub_trans rfl hW)
      clear_value x5
      refine Only.via3 ?_
      exact Only.after (wardChanged_only (sub_trans rfl hW)) (h6)
  · exact Only.rfl

theorem polSetBudget_only {W : List Blk} {a0 : Machine.State} (hW : sub [.adit, .mgmt, .ward] W = true) : Only W a0 (polSetBudget a0) := by
  unfold polSetBudget
  refine Only.after (policyRun_only (sub_trans rfl hW) (fun _ t0 => ?_)) ?_
  · refine Only.iteV (fun _ => ?_) (fun _ => ?_)
    · exact refused33_only (sub_trans rfl hW)
    · refine Only.via3 ?_
      exact Only.after (wardChanged_only (sub_trans rfl hW)) (State.modWard_only (sub_trans rfl hW))
  · exact Only.rfl

theorem polExchange_only {W : List Blk} {a0 : Machine.State} (hW : sub [.adit, .mgmt, .ward] W = true) : Only W a0 (polExchange a0) := by
  unfold polExchange
  refine Only.after (policyRun_only (sub_trans rfl hW) (fun _ t0 => ?_)) ?_
  · refine Only.iteV (fun _ => ?_) (fun _ => ?_)
    · exact refused33_only (sub_trans rfl hW)
    · refine Only.via3 ?_
      exact Only.after (wardChanged_only (sub_trans rfl hW)) (State.modWard_only (sub_trans rfl hW))
  · exact Only.rfl

theorem polSlew_only {W : List Blk} {a0 : Machine.State} (hW : sub [.adit, .mgmt, .ward] W = true) : Only W a0 (polSlew a0) := by
  unfold polSlew
  refine Only.after (policyRun_only (sub_trans rfl hW) (fun _ t0 => ?_)) ?_
  · refine Only.iteV (fun _ => ?_) (fun _ => ?_)
    · exact refused33_only (sub_trans rfl hW)
    · refine Only.via3 ?_
      exact Only.after (wardChanged_only (sub_trans rfl hW)) (State.modWard_only (sub_trans rfl hW))
  · exact Only.rfl

theorem polLeak_only {W : List Blk} {a0 : Machine.State} (hW : sub [.adit, .mgmt, .ward] W = true) : Only W a0 (polLeak a0) := by
  unfold polLeak
  refine Only.after (policyRun_only (sub_trans rfl hW) (fun _ t0 => ?_)) ?_
  · refine Only.iteV (fun _ => ?_) (fun _ => ?_)
    · exact refused33_only (sub_trans rfl hW)
    · refine Only.via3 ?_
      exact Only.after (wardChanged_only (sub_trans rfl hW)) (State.modWard_only (sub_trans rfl hW))
  · exact Only.rfl

theorem polSlotValve_only {W : List Blk} {a0 : Machine.State} (hW : sub [.adit, .mgmt, .ward] W = true) : Only W a0 (polSlotValve a0) := by
  unfold polSlotValve
  refine Only.after (policyRun_only (sub_trans rfl hW) (fun _ t0 => ?_)) ?_
  · extract_lets +onlyGivenNames -merge -useContext -underBinder x1
    try clear_value x1
    refine Only.iteV (fun _ => ?_) (fun _ => ?_)
    · exact refused33_only (sub_trans rfl hW)
    · refine Only.iteV (fun _ => ?_) (fun _ => ?_)
      · refine Only.via3 ?_
        exact Only.after (wardChanged_only (sub_trans rfl hW)) (State.modWard_only (sub_trans rfl hW))
      · refine Only.iteV (fun _ => ?_) (fun _ => ?_)
        · exact refused33_only (sub_trans rfl hW)
        · extract_lets +onlyGivenNames -merge -useContext -underBinder x2
          try clear_value x2
          extract_lets +onlyGivenNames -merge -useContext -underBinder x3
          have h4 : Only W t0 x3 := by
            unfold x3
            exact Only.after (wardChanged_only (sub_trans rfl hW)) (Only.after (wardChanged_only (sub_trans rfl hW)) (State.modWard_only (sub_trans rfl hW)))
          clear_value x3
          refine Only.via3 ?_
          refine Only.ite (fun _ => ?_) (fun _ => ?_)
          · exact Only.after (leakResponse_only (sub_trans rfl hW)) (h4)
          · exact h4
  · exact Only.rfl

theorem polSlotRelease_only {W : List Blk} {a0 : Machine.State} (hW : sub [.adit, .mgmt, .ward] W = true) : Only W a0 (polSlotRelease a0) := by
  unfold polSlotRelease
  refine Only.after (policyRun_only (sub_trans rfl hW) (fun _ t0 => ?_)) ?_
  · extract_lets +onlyGivenNames -merge -useContext -underBinder x1
    try clear_value x1
    refine Only.iteV (fun _ => ?_) (fun _ => ?_)
    · exact refused33_only (sub_trans rfl hW)
    · refine Only.via3 ?_
      exact Only.after (wardChanged_only (sub_trans rfl hW)) (Only.after (modSlotBook_only (sub_trans rfl hW)) (State.modWard_only (sub_trans rfl hW)))
  · exact Only.rfl

-- SKIP Sys2Proof.Machine.canaryBarred

theorem polCanary_only {W : List Blk} {a0 : Machine.State} (hW : sub [.adit, .mgmt, .ward] W = true) : Only W a0 (polCanary a0) := by
  unfold polCanary
  refine Only.after (policyRun_only (sub_trans rfl hW) (fun _ t0 => ?_)) ?_
  · refine Only.iteV (fun _ => ?_) (fun _ => ?_)
    · exact Only.after (refused33_only (sub_trans rfl hW)) (canaryResult_only (sub_trans rfl hW))
    · refine Only.via3 ?_
      exact sendHandover_only (sub_trans rfl hW)
  · exact Only.rfl

theorem polLeakReset_only {W : List Blk} {a0 : Machine.State} (hW : sub [.adit, .mgmt, .ward] W = true) : Only W a0 (polLeakReset a0) := by
  unfold polLeakReset
  refine Only.after (policyRun_only (sub_trans rfl hW) (fun _ t0 => ?_)) ?_
  · extract_lets +onlyGivenNames -merge -useContext -underBinder x1
    try clear_value x1
    refine Only.iteV (fun _ => ?_) (fun _ => ?_)
    · exact refused33_only (sub_trans rfl hW)
    · refine Only.iteV (fun _ => ?_) (fun _ => ?_)
      · refine Only.via3 ?_
        exact Only.rfl
      · extract_lets +onlyGivenNames -merge -useContext -underBinder x2
        try clear_value x2
        extract_lets +onlyGivenNames -merge -useContext -underBinder x3
        have h3 : Only W t0 x3 := by
          unfold x3
          exact State.modWard_only (sub_trans rfl hW)
        clear_value x3
        refine Only.via3 ?_
        exact Only.after (leakResponse_only (sub_trans rfl hW)) (Only.after (wardChanged_only (sub_trans rfl hW)) (h3))
  · exact Only.rfl

theorem wardStatus_only {W : List Blk} {a0 : Bool} {a1 : Machine.State} (hW : sub [.adit] W = true) : Only W a1 (wardStatus a0 a1) := by
  unfold wardStatus
  extract_lets +onlyGivenNames -merge -useContext -underBinder x0
  try clear_value x0
  extract_lets +onlyGivenNames -merge -useContext -underBinder x1
  try clear_value x1
  extract_lets +onlyGivenNames -merge -useContext -underBinder x2
  try clear_value x2
  extract_lets +onlyGivenNames -merge -useContext -underBinder x3
  have h4 : Only W a1 x3 := by
    unfold x3
    exact a6Rec_only (sub_trans rfl hW)
  clear_value x3
  refine Only.ite (fun _ => ?_) (fun _ => ?_)
  · exact Only.after (a6Rec_only (sub_trans rfl hW)) (h4)
  · exact h4

theorem polWardNow_only {W : List Blk} {a0 : Machine.State} (hW : sub [.adit, .mgmt] W = true) : Only W a0 (polWardNow a0) := by
  unfold polWardNow
  refine Only.after (policyRun_only (sub_trans rfl hW) (fun _ t0 => ?_)) ?_
  · refine Only.via3 ?_
    exact wardStatus_only (sub_trans rfl hW)
  · exact Only.rfl

end Sys2Proof.Machine
end

