-- ==== Sys2Proof/Laws/FrameReset.lean ====
section
/-! SUPPORT. Frame lemmas: the parts of the state that each operation may change, for resets, trips, the management plane and start-up.
Each says of one operation that from the state it is given nothing but the parts it names changes. -/

namespace Sys2Proof.Machine

open Sys2Proof

theorem settle_only {W : List Blk} {a0 : Machine.State} (hW : sub [.free, .host, .rings, .cages, .beat, .mem, .mgmt, .links, .coll] W = true) : Only W a0 (settle a0) := by
  unfold settle
  exact Only.after (collRefresh_only (sub_trans rfl hW)) (Only.after (refresh_only (sub_trans rfl hW)) (progress_only (sub_trans rfl hW)))

theorem busMasterOn_only {W : List Blk} {a0 : Nat} {a1 : Machine.State} (hW : sub [.free, .host, .rings, .cages, .beat, .mem, .mgmt, .links, .coll] W = true) : Only W a1 (busMasterOn a0 a1) := by
  unfold busMasterOn
  extract_lets +onlyGivenNames -merge -useContext -underBinder x0
  have h1 : Only W a1 x0 := by
    unfold x0
    exact State.modFn_only (sub_trans rfl hW)
  clear_value x0
  extract_lets +onlyGivenNames -merge -useContext -underBinder x2
  have h3 : Only W a1 x2 := by
    unfold x2
    refine Only.after (forEach_only (fun _ t4 => ?_)) ?_
    · exact tryComplete_only (sub_trans rfl hW)
    · exact h1
  clear_value x2
  exact Only.after (settle_only (sub_trans rfl hW)) (Only.after (dblCheck_only (sub_trans rfl hW)) (Only.after (flushMsi_only (sub_trans rfl hW)) (Only.after (resumeFn_only (sub_trans rfl hW)) (h3))))

theorem ringOp_only {W : List Blk} {a0 : Nat} {a1 : OpSpec} {a2 : Nat} {a3 : Nat} {a4 : Nat → Machine.State → Machine.State} {a5 : Machine.State} (hW : sub [.free, .host, .rings, .cages, .beat, .mem, .mgmt, .links, .coll] W = true) (g0 : ∀ v0 v1, Only W v1 (a4 v0 v1)) : Only W a5 (ringOp a0 a1 a2 a3 a4 a5) := by
  unfold ringOp
  refine Only.after (settle_only (sub_trans rfl hW)) ?_
  · refine Only.after (issueOp_only (sub_trans rfl hW) (fun _ t0 => ?_)) ?_
    · exact g0 _ _
    · exact Only.rfl

theorem ringUnknown_only {W : List Blk} {a0 : Nat} {a1 : Nat} {a2 : Machine.State} (hW : sub [.free, .host, .rings, .cages, .beat, .mem, .mgmt, .links, .coll] W = true) : Only W a2 (ringUnknown a0 a1 a2) := by
  unfold ringUnknown
  refine Only.after (settle_only (sub_trans rfl hW)) ?_
  · refine Only.after (issueWhen_only (sub_trans rfl hW) (fun _ t0 => ?_)) ?_
    · exact endCmd_only (sub_trans rfl hW)
    · exact Only.rfl

theorem keepCause_only {W : List Blk} {a0 : Nat} {a1 : Nat} {a2 : Machine.State} (hW : sub [.ao] W = true) : Only W a2 (keepCause a0 a1 a2) := by
  unfold keepCause
  exact State.modAo_only (sub_trans rfl hW)

theorem noteReset_only {W : List Blk} {a0 : Nat} {a1 : Machine.State} (hW : sub [.ao, .adit] W = true) : Only W a1 (noteReset a0 a1) := by
  unfold noteReset
  extract_lets +onlyGivenNames -merge -useContext -underBinder x0
  have h1 : Only W a1 x0 := by
    unfold x0
    exact keepCause_only (sub_trans rfl hW)
  clear_value x0
  exact Only.after (a6Rec_only (sub_trans rfl hW)) (h1)

theorem startEvent_only {W : List Blk} {a0 : Nat} {a1 : Nat} {a2 : Machine.State} (hW : sub [.adit] W = true) : Only W a2 (startEvent a0 a1 a2) := by
  unfold startEvent
  exact a6Rec_only (sub_trans rfl hW)

theorem resetRings_only {W : List Blk} {a0 : Nat} {a1 : Machine.State} (hW : sub [.rings] W = true) : Only W a1 (resetRings a0 a1) := by
  unfold resetRings
  extract_lets +onlyGivenNames -merge -useContext -underBinder x0
  have h1 : Only W a1 x0 := by
    unfold x0
    refine Only.after (forEach_only (fun _ t2 => ?_)) ?_
    · exact swapOut_only (sub_trans rfl hW)
    · exact Only.rfl
  clear_value x0
  exact Only.after (State.modRings_only (sub_trans rfl hW)) (h1)

theorem resetReqs_only {W : List Blk} {a0 : Nat} {a1 : Machine.State} (hW : sub [.host] W = true) : Only W a1 (resetReqs a0 a1) := by
  unfold resetReqs
  extract_lets +onlyGivenNames -merge -useContext -underBinder x0
  try clear_value x0
  exact State.modHost_only (sub_trans rfl hW)

theorem resetPages_only {W : List Blk} {a0 : Nat} {a1 : Machine.State} (hW : sub [.free, .host, .rings, .cages, .beat, .mem, .mgmt] W = true) : Only W a1 (resetPages a0 a1) := by
  unfold resetPages
  extract_lets +onlyGivenNames -merge -useContext -underBinder x0
  try clear_value x0
  extract_lets +onlyGivenNames -merge -useContext -underBinder x1
  have h2 : Only W a1 x1 := by
    unfold x1
    refine Only.after (forEach_only (fun _ t3 => ?_)) ?_
    · exact Only.after (State.modPage_only (sub_trans rfl hW)) (unmapPage_only (sub_trans rfl hW))
    · exact Only.rfl
  clear_value x1
  extract_lets +onlyGivenNames -merge -useContext -underBinder x4
  have h5 : Only W a1 x4 := by
    unfold x4
    exact Only.after (State.modCages_only (sub_trans rfl hW)) (h2)
  clear_value x4
  extract_lets +onlyGivenNames -merge -useContext -underBinder x6
  have h7 : Only W a1 x6 := by
    unfold x6
    exact Only.after (State.modCage_only (sub_trans rfl hW)) (h5)
  clear_value x6
  refine Only.after (forEach_only (fun _ t8 => ?_)) ?_
  · exact mendPlan_only (sub_trans rfl hW)
  · exact h7

theorem funcEffects_only {W : List Blk} {a0 : Nat} {a1 : Bool} {a2 : Machine.State} (hW : sub [.free, .adit, .host, .rings, .cages, .beat, .mem, .mgmt, .links, .coll] W = true) : Only W a2 (funcEffects a0 a1 a2) := by
  unfold funcEffects
  extract_lets +onlyGivenNames -merge -useContext -underBinder x0
  have h1 : Only W a2 x0 := by
    unfold x0
    refine Only.foldl (fun t2 _ => ?_) ?_
    · exact dropAdm_only (sub_trans rfl hW)
    · exact Only.rfl
  clear_value x0
  extract_lets +onlyGivenNames -merge -useContext -underBinder x3
  have h4 : Only W a2 x3 := by
    unfold x3
    refine Only.after (forEach_only (fun _ t5 => ?_)) ?_
    · exact forgetGroup_only (sub_trans rfl hW)
    · exact h1
  clear_value x3
  extract_lets +onlyGivenNames -merge -useContext -underBinder x6
  have h7 : Only W a2 x6 := by
    unfold x6
    refine Only.after (forEach_only (fun _ t8 => ?_)) ?_
    · exact cancelPlans_only (sub_trans rfl hW)
    · exact h4
  clear_value x6
  extract_lets +onlyGivenNames -merge -useContext -underBinder x9
  have h10 : Only W a2 x9 := by
    unfold x9
    exact Only.after (resetPages_only (sub_trans rfl hW)) (Only.after (resetRings_only (sub_trans rfl hW)) (Only.after (resetReqs_only (sub_trans rfl hW)) (h7)))
  clear_value x9
  exact Only.after (State.modFn_only (sub_trans rfl hW)) (h10)

theorem funcNotice_only {W : List Blk} {a0 : Nat} {a1 : Nat} {a2 : Machine.State} (hW : sub [.ao, .host, .rings] W = true) : Only W a2 (funcNotice a0 a1 a2) := by
  unfold funcNotice
  extract_lets +onlyGivenNames -merge -useContext -underBinder x0
  have h1 : Only W a2 x0 := by
    unfold x0
    exact keepCause_only (sub_trans rfl hW)
  clear_value x0
  exact Only.after (report_only (sub_trans rfl hW)) (h1)

theorem funcReset_only {W : List Blk} {a0 : Nat} {a1 : Nat} {a2 : Bool} {a3 : Machine.State} (hW : sub [.free, .ao, .adit, .host, .rings, .cages, .beat, .mem, .mgmt, .links, .coll] W = true) : Only W a3 (funcReset a0 a1 a2 a3) := by
  unfold funcReset
  refine Only.ite (fun _ => ?_) (fun _ => ?_)
  · exact Only.rfl
  · exact Only.after (settle_only (sub_trans rfl hW)) (Only.after (funcNotice_only (sub_trans rfl hW)) (funcEffects_only (sub_trans rfl hW)))

-- SKIP Sys2Proof.Machine.vfsOf

theorem endVfs_only {W : List Blk} {a0 : Machine.State} (hW : sub [.free, .adit, .host, .rings, .cages, .beat, .mem, .mgmt, .links, .coll] W = true) : Only W a0 (endVfs a0) := by
  unfold endVfs
  extract_lets +onlyGivenNames -merge -useContext -underBinder x0
  have h1 : Only W a0 x0 := by
    unfold x0
    refine Only.after (forEach_only (fun _ t2 => ?_)) ?_
    · refine Only.ite (fun _ => ?_) (fun _ => ?_)
      · exact Only.rfl
      · exact funcEffects_only (sub_trans rfl hW)
    · exact Only.rfl
  clear_value x0
  extract_lets +onlyGivenNames -merge -useContext -underBinder x3
  have h4 : Only W a0 x3 := by
    unfold x3
    refine Only.after (forEach_only (fun _ t5 => ?_)) ?_
    · exact Only.after (State.modCage_only (sub_trans rfl hW)) (State.modFn_only (sub_trans rfl hW))
    · exact h1
  clear_value x3
  exact Only.after (State.modHost_only (sub_trans rfl hW)) (h4)

theorem vfDisable_only {W : List Blk} {a0 : Machine.State} (hW : sub [.free, .ao, .adit, .host, .rings, .cages, .beat, .mem, .mgmt, .links, .coll] W = true) : Only W a0 (vfDisable a0) := by
  unfold vfDisable
  refine Only.ite (fun _ => ?_) (fun _ => ?_)
  · exact Only.rfl
  · exact Only.after (settle_only (sub_trans rfl hW)) (Only.after (funcNotice_only (sub_trans rfl hW)) (endVfs_only (sub_trans rfl hW)))

theorem pfReset_only {W : List Blk} {a0 : Nat} {a1 : Bool} {a2 : Machine.State} (hW : sub [.free, .ao, .adit, .host, .rings, .cages, .beat, .mem, .mgmt, .links, .coll] W = true) : Only W a2 (pfReset a0 a1 a2) := by
  unfold pfReset
  refine Only.ite (fun _ => ?_) (fun _ => ?_)
  · exact Only.rfl
  · extract_lets +onlyGivenNames -merge -useContext -underBinder x0
    have h1 : Only W a2 x0 := by
      unfold x0
      exact Only.after (funcEffects_only (sub_trans rfl hW)) (endVfs_only (sub_trans rfl hW))
    clear_value x0
    extract_lets +onlyGivenNames -merge -useContext -underBinder x2
    have h3 : Only W a2 x2 := by
      unfold x2
      exact Only.after (State.modHost_only (sub_trans rfl hW)) (h1)
    clear_value x2
    extract_lets +onlyGivenNames -merge -useContext -underBinder x4
    have h5 : Only W a2 x4 := by
      unfold x4
      exact Only.after (State.modCages_only (sub_trans rfl hW)) (h3)
    clear_value x4
    exact Only.after (settle_only (sub_trans rfl hW)) (Only.after (funcNotice_only (sub_trans rfl hW)) (h5))

theorem flr_only {W : List Blk} {a0 : Nat} {a1 : Bool} {a2 : Machine.State} (hW : sub [.free, .ao, .adit, .host, .rings, .cages, .beat, .mem, .mgmt, .links, .coll] W = true) : Only W a2 (flr a0 a1 a2) := by
  unfold flr
  refine Only.ite (fun _ => ?_) (fun _ => ?_)
  · exact Only.rfl
  · refine Only.ite (fun _ => ?_) (fun _ => ?_)
    · refine Only.ite (fun _ => ?_) (fun _ => ?_)
      · exact State.modFn_only (sub_trans rfl hW)
      · exact Only.rfl
    · refine Only.ite (fun _ => ?_) (fun _ => ?_)
      · exact pfReset_only (sub_trans rfl hW)
      · exact funcReset_only (sub_trans rfl hW)

theorem flrComplete_only {W : List Blk} {a0 : Nat} {a1 : Machine.State} (hW : sub [.free, .host, .rings, .cages, .beat, .mem, .mgmt, .links, .coll] W = true) : Only W a1 (flrComplete a0 a1) := by
  unfold flrComplete
  refine Only.ite (fun _ => ?_) (fun _ => ?_)
  · exact Only.rfl
  · extract_lets +onlyGivenNames -merge -useContext -underBinder x0
    have h1 : Only W a1 x0 := by
      unfold x0
      exact State.modRings_only (sub_trans rfl hW)
    clear_value x0
    exact Only.after (settle_only (sub_trans rfl hW)) (Only.after (State.modFn_only (sub_trans rfl hW)) (h1))

theorem wipeMain_only {W : List Blk} {a0 : Machine.State} (hW : sub [.adit, .host, .rings, .cages, .beat, .mem, .mgmt, .links, .coll] W = true) : Only W a0 (wipeMain a0) := by
  unfold wipeMain
  extract_lets +onlyGivenNames -merge -useContext -underBinder x0
  have h1 : Only W a0 x0 := by
    unfold x0
    exact Only.put (V := [.adit, .host, .rings, .cages, .beat, .mem, .mgmt, .links, .coll]) (Only.rfl) (fun b hb => by cases b <;> first | exact Eq.refl _ | exact absurd hb (by decide)) hW
  clear_value x0
  extract_lets +onlyGivenNames -merge -useContext -underBinder x2
  have h3 : Only W a0 x2 := by
    unfold x2
    exact Only.after (State.modAdit_only (sub_trans rfl hW)) (h1)
  clear_value x2
  exact Only.after (State.modMgmt_only (sub_trans rfl hW)) (h3)

theorem mainGone_only {W : List Blk} {a0 : Machine.State} (hW : sub [.adit, .power, .heat, .pump] W = true) : Only W a0 (mainGone a0) := by
  unfold mainGone
  extract_lets +onlyGivenNames -merge -useContext -underBinder x0
  have h1 : Only W a0 x0 := by
    unfold x0
    exact State.modPower_only (sub_trans rfl hW)
  clear_value x0
  exact Only.after (stackZonesOff_only (sub_trans rfl hW)) (Only.after (endManifests_only (sub_trans rfl hW)) (h1))

theorem computeReset_only {W : List Blk} {a0 : Nat} {a1 : Machine.State} (hW : sub [.ao, .sup, .adit, .host, .rings, .cages, .beat, .mem, .mgmt, .links, .coll, .power, .heat, .pump] W = true) : Only W a1 (computeReset a0 a1) := by
  unfold computeReset
  refine Only.ite (fun _ => ?_) (fun _ => ?_)
  · exact Only.rfl
  · extract_lets +onlyGivenNames -merge -useContext -underBinder x0
    have h1 : Only W a1 x0 := by
      unfold x0
      exact Only.after (mainGone_only (sub_trans rfl hW)) (wipeMain_only (sub_trans rfl hW))
    clear_value x0
    exact Only.after (noteReset_only (sub_trans rfl hW)) (Only.after (State.modSup_only (sub_trans rfl hW)) (h1))

theorem mainDown_only {W : List Blk} {a0 : Option Nat} {a1 : Machine.State} (hW : sub [.ao, .sup, .adit, .host, .rings, .cages, .beat, .mem, .mgmt, .links, .coll, .power, .heat, .pump] W = true) : Only W a1 (mainDown a0 a1) := by
  unfold mainDown
  extract_lets +onlyGivenNames -merge -useContext -underBinder x0
  try clear_value x0
  extract_lets +onlyGivenNames -merge -useContext -underBinder x1
  have h2 : Only W a1 x1 := by
    unfold x1
    refine Only.ite (fun _ => ?_) (fun _ => ?_)
    · exact Only.after (mainGone_only (sub_trans rfl hW)) (wipeMain_only (sub_trans rfl hW))
    · exact Only.rfl
  clear_value x1
  extract_lets +onlyGivenNames -merge -useContext -underBinder x3
  have h4 : Only W a1 x3 := by
    unfold x3
    exact Only.after (State.modPower_only (sub_trans rfl hW)) (Only.after (State.modSup_only (sub_trans rfl hW)) (h2))
  clear_value x3
  extract_lets +onlyGivenNames -merge -useContext -underBinder x5
  have h6 : Only W a1 x5 := by
    unfold x5
    exact Only.after (State.modAo_only (sub_trans rfl hW)) (Only.after (State.modMgmt_only (sub_trans rfl hW)) (h4))
  clear_value x5
  split
  · exact Only.after (noteReset_only (sub_trans rfl hW)) (h6)
  · exact h6

theorem dumpStart_only {W : List Blk} {a0 : Machine.State} (hW : sub [.sup, .adit] W = true) : Only W a0 (dumpStart a0) := by
  unfold dumpStart
  refine Only.ite (fun _ => ?_) (fun _ => ?_)
  · exact Only.rfl
  · exact Only.after (startEvent_only (sub_trans rfl hW)) (State.modSup_only (sub_trans rfl hW))

theorem leakStop_only {W : List Blk} {a0 : Machine.State} (hW : sub [.sup, .adit, .pump] W = true) : Only W a0 (leakStop a0) := by
  unfold leakStop
  refine Only.ite (fun _ => ?_) (fun _ => ?_)
  · exact Only.rfl
  · extract_lets +onlyGivenNames -merge -useContext -underBinder x0
    have h1 : Only W a0 x0 := by
      unfold x0
      exact Only.after (abortCapture_only (sub_trans rfl hW)) (State.modSup_only (sub_trans rfl hW))
    clear_value x0
    extract_lets +onlyGivenNames -merge -useContext -underBinder x2
    have h3 : Only W a0 x2 := by
      unfold x2
      exact Only.after (State.modPump_only (sub_trans rfl hW)) (h1)
    clear_value x2
    exact Only.after (startEvent_only (sub_trans rfl hW)) (h3)

-- SKIP Sys2Proof.Machine.kickAllowed

theorem leakLifted_only {W : List Blk} {a0 : Machine.State} (hW : sub [.sup, .pump] W = true) : Only W a0 (leakLifted a0) := by
  unfold leakLifted
  refine Only.ite (fun _ => ?_) (fun _ => ?_)
  · exact Only.after (startKick_only (sub_trans rfl hW)) (State.modSup_only (sub_trans rfl hW))
  · exact Only.rfl

theorem dumpEnd_only {W : List Blk} {a0 : Machine.State} (hW : sub [.sup, .adit, .pump] W = true) : Only W a0 (dumpEnd a0) := by
  unfold dumpEnd
  refine Only.ite (fun _ => ?_) (fun _ => ?_)
  · extract_lets +onlyGivenNames -merge -useContext -underBinder x0
    have h1 : Only W a0 x0 := by
      unfold x0
      exact Only.after (startEvent_only (sub_trans rfl hW)) (State.modSup_only (sub_trans rfl hW))
    clear_value x0
    refine Only.ite (fun _ => ?_) (fun _ => ?_)
    · exact h1
    · extract_lets +onlyGivenNames -merge -useContext -underBinder x2
      try clear_value x2
      exact Only.after (State.modPump_only (sub_trans rfl hW)) (h1)
  · exact Only.rfl

-- SKIP Sys2Proof.Machine.ownSource
-- SKIP Sys2Proof.Machine.tripTemp

theorem kill_only {W : List Blk} {a0 : Nat} {a1 : Machine.State} (hW : sub [.ao, .sup, .adit, .host, .rings, .cages, .beat, .mem, .mgmt, .links, .coll, .power, .heat, .pump, .bus] W = true) : Only W a1 (kill a0 a1) := by
  unfold kill
  extract_lets +onlyGivenNames -merge -useContext -underBinder x0
  try clear_value x0
  extract_lets +onlyGivenNames -merge -useContext -underBinder x1
  have h2 : Only W a1 x1 := by
    unfold x1
    exact State.modAo_only (sub_trans rfl hW)
  clear_value x1
  refine Only.ite (fun _ => ?_) (fun _ => ?_)
  · refine Only.ite (fun _ => ?_) (fun _ => ?_)
    · exact Only.after (leakStop_only (sub_trans rfl hW)) (h2)
    · exact h2
  · extract_lets +onlyGivenNames -merge -useContext -underBinder x3
    try clear_value x3
    extract_lets +onlyGivenNames -merge -useContext -underBinder x4
    try clear_value x4
    extract_lets +onlyGivenNames -merge -useContext -underBinder x5
    try clear_value x5
    extract_lets +onlyGivenNames -merge -useContext -underBinder x6
    have h7 : Only W a1 x6 := by
      unfold x6
      exact Only.after (State.modAo_only (sub_trans rfl hW)) (h2)
    clear_value x6
    extract_lets +onlyGivenNames -merge -useContext -underBinder x8
    try clear_value x8
    extract_lets +onlyGivenNames -merge -useContext -underBinder x9
    have h10 : Only W a1 x9 := by
      unfold x9
      exact Only.after (fabricAlert_only (sub_trans rfl hW)) (h7)
    clear_value x9
    extract_lets +onlyGivenNames -merge -useContext -underBinder x11
    have h12 : Only W a1 x11 := by
      unfold x11
      exact Only.after (mainDown_only (sub_trans rfl hW)) (h10)
    clear_value x11
    extract_lets +onlyGivenNames -merge -useContext -underBinder x13
    have h14 : Only W a1 x13 := by
      unfold x13
      refine Only.ite (fun _ => ?_) (fun _ => ?_)
      · exact Only.after (startEvent_only (sub_trans rfl hW)) (h12)
      · exact h12
    clear_value x13
    extract_lets +onlyGivenNames -merge -useContext -underBinder x15
    have h16 : Only W a1 x15 := by
      unfold x15
      refine Only.ite (fun _ => ?_) (fun _ => ?_)
      · exact Only.after (tripNotice_only (sub_trans rfl hW)) (h14)
      · exact h14
    clear_value x15
    refine Only.ite (fun _ => ?_) (fun _ => ?_)
    · exact Only.after (leakStop_only (sub_trans rfl hW)) (h16)
    · refine Only.ite (fun _ => ?_) (fun _ => ?_)
      · exact Only.after (dumpStart_only (sub_trans rfl hW)) (h16)
      · exact h16

theorem clearLatch_only {W : List Blk} {a0 : Machine.State} (hW : sub [.ao, .adit, .bus] W = true) : Only W a0 (clearLatch a0) := by
  unfold clearLatch
  extract_lets +onlyGivenNames -merge -useContext -underBinder x0
  try clear_value x0
  extract_lets +onlyGivenNames -merge -useContext -underBinder x1
  have h2 : Only W a0 x1 := by
    unfold x1
    exact State.modAo_only (sub_trans rfl hW)
  clear_value x1
  refine Only.after (startEvent_only (sub_trans rfl hW)) ?_
  · refine Only.ite (fun _ => ?_) (fun _ => ?_)
    · exact Only.after (tripNotice_only (sub_trans rfl hW)) (h2)
    · exact h2

-- SKIP Sys2Proof.Machine.releasedMode

theorem sourcesClean_only {W : List Blk} {a0 : Machine.State} (hW : sub [.ao] W = true) : Only W a0 (sourcesClean a0) := by
  unfold sourcesClean
  refine Only.ite (fun _ => ?_) (fun _ => ?_)
  · exact Only.rfl
  · refine Only.ite (fun _ => ?_) (fun _ => ?_)
    · exact State.modAo_only (sub_trans rfl hW)
    · exact State.modAo_only (sub_trans rfl hW)

theorem releaseWindow_only {W : List Blk} {a0 : Bool} {a1 : Machine.State} (hW : sub [.ao, .adit, .bus] W = true) : Only W a1 (releaseWindow a0 a1) := by
  unfold releaseWindow
  refine Only.ite (fun _ => ?_) (fun _ => ?_)
  · exact clearLatch_only (sub_trans rfl hW)
  · exact Only.rfl

theorem releasedClear_only {W : List Blk} {a0 : Machine.State} (hW : sub [.ao, .adit, .bus] W = true) : Only W a0 (releasedClear a0) := by
  unfold releasedClear
  refine Only.ite (fun _ => ?_) (fun _ => ?_)
  · exact clearLatch_only (sub_trans rfl hW)
  · exact Only.rfl

theorem askReset_only {W : List Blk} {a0 : Nat} {a1 : Machine.State} (hW : sub [.ao] W = true) : Only W a1 (askReset a0 a1) := by
  unfold askReset
  refine Only.ite (fun _ => ?_) (fun _ => ?_)
  · exact State.modAo_only (sub_trans rfl hW)
  · exact Only.rfl

theorem wipeSteward_only {W : List Blk} {a0 : Machine.State} (hW : sub [.sup, .adit, .mgmt, .power, .heat, .pump, .bus, .ward] W = true) : Only W a0 (wipeSteward a0) := by
  unfold wipeSteward
  extract_lets +onlyGivenNames -merge -useContext -underBinder x0
  try clear_value x0
  extract_lets +onlyGivenNames -merge -useContext -underBinder x1
  try clear_value x1
  exact Only.put (V := [.sup, .adit, .mgmt, .power, .heat, .pump, .bus, .ward]) (Only.rfl) (fun b hb => by cases b <;> first | exact Eq.refl _ | exact absurd hb (by decide)) hW

theorem readStraps_only {W : List Blk} {a0 : Nat} {a1 : Nat} {a2 : Nat} {a3 : Machine.State} (hW : sub [.ao] W = true) : Only W a3 (readStraps a0 a1 a2 a3) := by
  unfold readStraps
  extract_lets +onlyGivenNames -merge -useContext -underBinder x0
  try clear_value x0
  exact State.modAo_only (sub_trans rfl hW)

theorem moduleReset_only {W : List Blk} {a0 : Nat} {a1 : Nat} {a2 : Nat} {a3 : Machine.State} (hW : sub [.ao, .sup, .adit, .host, .rings, .cages, .beat, .mem, .mgmt, .links, .coll, .power, .heat, .pump, .bus, .ward] W = true) : Only W a3 (moduleReset a0 a1 a2 a3) := by
  unfold moduleReset
  split
  · exact Only.rfl
  · refine Only.ite (fun _ => ?_) (fun _ => ?_)
    · exact Only.rfl
    · extract_lets +onlyGivenNames -merge -useContext -underBinder x0
      have h1 : Only W a3 x0 := by
        unfold x0
        exact Only.after (wipeSteward_only (sub_trans rfl hW)) (mainDown_only (sub_trans rfl hW))
      clear_value x0
      extract_lets +onlyGivenNames -merge -useContext -underBinder x2
      have h3 : Only W a3 x2 := by
        unfold x2
        exact Only.after (keepCause_only (sub_trans rfl hW)) (Only.after (State.modAo_only (sub_trans rfl hW)) (h1))
      clear_value x2
      refine Only.ite (fun _ => ?_) (fun _ => ?_)
      · exact h3
      · exact Only.after (readStraps_only (sub_trans rfl hW)) (h3)

theorem coldWipe_only {W : List Blk} {a0 : Machine.State} (hW : sub [.ao, .sup, .adit, .host, .rings, .cages, .beat, .mem, .mgmt, .links, .coll, .power, .heat, .pump, .bus, .ward] W = true) : Only W a0 (coldWipe a0) := by
  unfold coldWipe
  extract_lets +onlyGivenNames -merge -useContext -underBinder x0
  try clear_value x0
  exact Only.put (V := [.ao, .sup, .adit, .host, .rings, .cages, .beat, .mem, .mgmt, .links, .coll, .power, .heat, .pump, .bus, .ward]) (Only.rfl) (fun b hb => by cases b <;> first | exact Eq.refl _ | exact absurd hb (by decide)) hW

theorem auxApplied_only {W : List Blk} {a0 : Nat} {a1 : Nat} {a2 : Nat} {a3 : Bool} {a4 : Machine.State} (hW : sub [.ao, .sup, .adit, .host, .rings, .cages, .beat, .mem, .mgmt, .links, .coll, .power, .heat, .pump, .bus, .ward] W = true) : Only W a4 (auxApplied a0 a1 a2 a3 a4) := by
  unfold auxApplied
  refine Only.ite (fun _ => ?_) (fun _ => ?_)
  · exact Only.rfl
  · extract_lets +onlyGivenNames -merge -useContext -underBinder x0
    try clear_value x0
    extract_lets +onlyGivenNames -merge -useContext -underBinder x1
    have h2 : Only W a4 x1 := by
      unfold x1
      exact Only.after (keepCause_only (sub_trans rfl hW)) (coldWipe_only (sub_trans rfl hW))
    clear_value x1
    refine Only.ite (fun _ => ?_) (fun _ => ?_)
    · exact h2
    · exact Only.after (readStraps_only (sub_trans rfl hW)) (h2)

theorem brownOut_only {W : List Blk} {a0 : Machine.State} (hW : sub [.ao, .sup, .adit, .host, .rings, .cages, .beat, .mem, .mgmt, .links, .coll, .power, .heat, .pump, .bus, .ward] W = true) : Only W a0 (brownOut a0) := by
  unfold brownOut
  refine Only.ite (fun _ => ?_) (fun _ => ?_)
  · exact Only.rfl
  · extract_lets +onlyGivenNames -merge -useContext -underBinder x0
    have h1 : Only W a0 x0 := by
      unfold x0
      exact coldWipe_only (sub_trans rfl hW)
    clear_value x0
    exact Only.after (keepCause_only (sub_trans rfl hW)) (Only.after (State.modAo_only (sub_trans rfl hW)) (h1))

-- SKIP Sys2Proof.Machine.outOfUse
-- SKIP Sys2Proof.Machine.storeState
-- SKIP Sys2Proof.Machine.wardenSilent
-- SKIP Sys2Proof.Machine.commNeeded
-- SKIP Sys2Proof.Machine.stateSensor
-- SKIP Sys2Proof.Machine.numState
-- SKIP Sys2Proof.Machine.numReading

theorem pldmEvent_only {W : List Blk} {a0 : PldmEvent} {a1 : Machine.State} (hW : sub [.mgmt] W = true) : Only W a1 (pldmEvent a0 a1) := by
  unfold pldmEvent
  split
  · exact Only.rfl
  · exact State.modMgmt_only (sub_trans rfl hW)

theorem watchSensor_only {W : List Blk} {a0 : Nat} {a1 : Machine.State} (hW : sub [.mgmt] W = true) : Only W a1 (watchSensor a0 a1) := by
  unfold watchSensor
  extract_lets +onlyGivenNames -merge -useContext -underBinder x0
  try clear_value x0
  extract_lets +onlyGivenNames -merge -useContext -underBinder x1
  try clear_value x1
  refine Only.ite (fun _ => ?_) (fun _ => ?_)
  · exact Only.rfl
  · exact Only.after (pldmEvent_only (sub_trans rfl hW)) (State.modMgmt_only (sub_trans rfl hW))

-- SKIP Sys2Proof.Machine.pumpInfo
-- SKIP Sys2Proof.Machine.busInfo
-- SKIP Sys2Proof.Machine.wardInfo
-- SKIP Sys2Proof.Machine.mgmtInfo
-- SKIP Sys2Proof.Machine.lcStatus
-- SKIP Sys2Proof.Machine.mirrorValues

theorem mirrorSend_only {W : List Blk} {a0 : Nat × Nat} {a1 : Machine.State} (hW : sub [.adit, .mgmt] W = true) : Only W a1 (mirrorSend a0 a1) := by
  unfold mirrorSend
  exact Only.after (a6Push_only (sub_trans rfl hW)) (State.modMgmt_only (sub_trans rfl hW))

theorem mirrorChanges_only {W : List Blk} {a0 : Machine.State} (hW : sub [.adit, .mgmt] W = true) : Only W a0 (mirrorChanges a0) := by
  unfold mirrorChanges
  refine Only.foldl (fun t0 _ => ?_) ?_
  · refine Only.ite (fun _ => ?_) (fun _ => ?_)
    · exact Only.rfl
    · exact mirrorSend_only (sub_trans rfl hW)
  · exact Only.rfl

theorem mirrorAll_only {W : List Blk} {a0 : Machine.State} (hW : sub [.adit, .mgmt] W = true) : Only W a0 (mirrorAll a0) := by
  unfold mirrorAll
  refine Only.foldl (fun t0 _ => ?_) ?_
  · exact mirrorSend_only (sub_trans rfl hW)
  · exact Only.rfl

-- SKIP Sys2Proof.Machine.serviceWanted

theorem watch_only {W : List Blk} {a0 : Machine.State} (hW : sub [.adit, .mgmt] W = true) : Only W a0 (watch a0) := by
  unfold watch
  refine Only.ite (fun _ => ?_) (fun _ => ?_)
  · exact Only.rfl
  · extract_lets +onlyGivenNames -merge -useContext -underBinder x0
    have h1 : Only W a0 x0 := by
      unfold x0
      refine Only.after (forEach_only (fun _ t2 => ?_)) ?_
      · exact watchSensor_only (sub_trans rfl hW)
      · exact Only.rfl
    clear_value x0
    exact Only.after (mirrorChanges_only (sub_trans rfl hW)) (Only.after (State.modMgmt_only (sub_trans rfl hW)) (h1))

-- SKIP Sys2Proof.Machine.coolBits

theorem coolHealth_only {W : List Blk} {a0 : Machine.State} (hW : sub [.adit, .mgmt] W = true) : Only W a0 (coolHealth a0) := by
  unfold coolHealth
  extract_lets +onlyGivenNames -merge -useContext -underBinder x0
  have h1 : Only W a0 x0 := by
    unfold x0
    exact State.modMgmt_only (sub_trans rfl hW)
  clear_value x0
  extract_lets +onlyGivenNames -merge -useContext -underBinder x2
  try clear_value x2
  extract_lets +onlyGivenNames -merge -useContext -underBinder x3
  try clear_value x3
  extract_lets +onlyGivenNames -merge -useContext -underBinder x4
  have h5 : Only W a0 x4 := by
    unfold x4
    exact Only.after (State.modMgmt_only (sub_trans rfl hW)) (h1)
  clear_value x4
  extract_lets +onlyGivenNames -merge -useContext -underBinder x6
  try clear_value x6
  extract_lets +onlyGivenNames -merge -useContext -underBinder x7
  try clear_value x7
  refine Only.ite (fun _ => ?_) (fun _ => ?_)
  · exact h5
  · exact Only.after (a6Rec_only (sub_trans rfl hW)) (Only.after (State.modMgmt_only (sub_trans rfl hW)) (h5))

theorem hostSilent_only {W : List Blk} {a0 : Bool} {a1 : Machine.State} (hW : sub [.adit] W = true) : Only W a1 (hostSilent a0 a1) := by
  unfold hostSilent
  exact a6Rec_only (sub_trans rfl hW)

theorem hostActive_only {W : List Blk} {a0 : Machine.State} (hW : sub [.adit, .mgmt] W = true) : Only W a0 (hostActive a0) := by
  unfold hostActive
  extract_lets +onlyGivenNames -merge -useContext -underBinder x0
  have h1 : Only W a0 x0 := by
    unfold x0
    refine Only.ite (fun _ => ?_) (fun _ => ?_)
    · exact Only.after (hostSilent_only (sub_trans rfl hW)) (State.modMgmt_only (sub_trans rfl hW))
    · exact Only.rfl
  clear_value x0
  exact Only.after (State.modMgmt_only (sub_trans rfl hW)) (h1)

theorem hostTimeout_only {W : List Blk} {a0 : Machine.State} (hW : sub [.adit, .mgmt] W = true) : Only W a0 (hostTimeout a0) := by
  unfold hostTimeout
  refine Only.ite (fun _ => ?_) (fun _ => ?_)
  · exact Only.rfl
  · exact Only.after (hostSilent_only (sub_trans rfl hW)) (State.modMgmt_only (sub_trans rfl hW))

theorem storeEvent_only {W : List Blk} {a0 : Nat} {a1 : Nat} {a2 : Machine.State} (hW : sub [.adit] W = true) : Only W a2 (storeEvent a0 a1 a2) := by
  unfold storeEvent
  exact a6Rec_only (sub_trans rfl hW)

theorem storeStart_only {W : List Blk} {a0 : Machine.State} (hW : sub [.mgmt] W = true) : Only W a0 (storeStart a0) := by
  unfold storeStart
  refine Only.ite (fun _ => ?_) (fun _ => ?_)
  · exact Only.rfl
  · split
    · exact Only.rfl
    · exact State.modMgmt_only (sub_trans rfl hW)

theorem storeDone_only {W : List Blk} {a0 : Bool} {a1 : Machine.State} (hW : sub [.adit, .mgmt] W = true) : Only W a1 (storeDone a0 a1) := by
  unfold storeDone
  split
  · exact Only.rfl
  · extract_lets +onlyGivenNames -merge -useContext -underBinder x0
    try clear_value x0
    extract_lets +onlyGivenNames -merge -useContext -underBinder x1
    have h2 : Only W a1 x1 := by
      unfold x1
      exact State.modMgmt_only (sub_trans rfl hW)
    clear_value x1
    refine Only.ite (fun _ => ?_) (fun _ => ?_)
    · exact Only.after (State.modMgmt_only (sub_trans rfl hW)) (h2)
    · refine Only.ite (fun _ => ?_) (fun _ => ?_)
      · exact Only.after (storeEvent_only (sub_trans rfl hW)) (Only.after (State.modMgmt_only (sub_trans rfl hW)) (h2))
      · exact Only.after (storeEvent_only (sub_trans rfl hW)) (Only.after (State.modMgmt_only (sub_trans rfl hW)) (h2))

-- SKIP Sys2Proof.Machine.powerBody

theorem takePower_only {W : List Blk} {a0 : List Int} {a1 : Machine.State} (hW : sub [.mgmt, .power, .heat] W = true) : Only W a1 (takePower a0 a1) := by
  unfold takePower
  extract_lets +onlyGivenNames -merge -useContext -underBinder x0
  try clear_value x0
  extract_lets +onlyGivenNames -merge -useContext -underBinder x1
  have h2 : Only W a1 x1 := by
    unfold x1
    exact State.modPower_only (sub_trans rfl hW)
  clear_value x1
  extract_lets +onlyGivenNames -merge -useContext -underBinder x3
  have h4 : Only W a1 x3 := by
    unfold x3
    exact Only.after (State.modHeat_only (sub_trans rfl hW)) (h2)
  clear_value x3
  exact Only.after (State.modMgmt_only (sub_trans rfl hW)) (h4)

-- SKIP Sys2Proof.Machine.orderedMode
-- SKIP Sys2Proof.Machine.coolBody

theorem takeCool_only {W : List Blk} {a0 : List Int} {a1 : Machine.State} (hW : sub [.pump] W = true) : Only W a1 (takeCool a0 a1) := by
  unfold takeCool
  extract_lets +onlyGivenNames -merge -useContext -underBinder x0
  try clear_value x0
  exact State.modPump_only (sub_trans rfl hW)

-- SKIP Sys2Proof.Machine.storeDue

theorem policyStore_only {W : List Blk} {a0 : Machine.State} (hW : sub [.mgmt] W = true) : Only W a0 (policyStore a0) := by
  unfold policyStore
  refine Only.ite (fun _ => ?_) (fun _ => ?_)
  · exact Only.rfl
  · extract_lets +onlyGivenNames -merge -useContext -underBinder x0
    have h1 : Only W a0 x0 := by
      unfold x0
      refine Only.ite (fun _ => ?_) (fun _ => ?_)
      · exact Only.after (State.modMgmt_only (sub_trans rfl hW)) (queueStore_only (sub_trans rfl hW))
      · exact Only.rfl
    clear_value x0
    refine Only.ite (fun _ => ?_) (fun _ => ?_)
    · exact Only.after (State.modMgmt_only (sub_trans rfl hW)) (Only.after (queueStore_only (sub_trans rfl hW)) (h1))
    · exact h1

theorem setSilence_only {W : List Blk} {a0 : Nat} {a1 : Machine.State} (hW : sub [.mgmt] W = true) : Only W a1 (setSilence a0 a1) := by
  unfold setSilence
  exact Only.after (powerChanged_only (sub_trans rfl hW)) (State.modMgmt_only (sub_trans rfl hW))

theorem setHold_only {W : List Blk} {a0 : Bool} {a1 : Machine.State} (hW : sub [.adit, .mgmt] W = true) : Only W a1 (setHold a0 a1) := by
  unfold setHold
  extract_lets +onlyGivenNames -merge -useContext -underBinder x0
  have h1 : Only W a1 x0 := by
    unfold x0
    exact State.modMgmt_only (sub_trans rfl hW)
  clear_value x0
  refine Only.ite (fun _ => ?_) (fun _ => ?_)
  · exact h1
  · exact Only.after (storeEvent_only (sub_trans rfl hW)) (h1)

theorem busOrder_only {W : List Blk} {a0 : Bool} {a1 : Nat} {a2 : Nat} {a3 : Machine.State} (hW : sub [.adit, .bus] W = true) : OnlyVia Prod.snd W a3 (busOrder a0 a1 a2 a3) := by
  unfold busOrder
  refine Only.iteV (fun _ => ?_) (fun _ => ?_)
  · refine Only.iteV (fun _ => ?_) (fun _ => ?_)
    · refine Only.via2 ?_
      exact wakeBus_only (sub_trans rfl hW)
    · refine Only.via2 ?_
      exact Only.rfl
  · refine Only.iteV (fun _ => ?_) (fun _ => ?_)
    · refine Only.via2 ?_
      exact queueMsg_only (sub_trans rfl hW)
    · refine Only.via2 ?_
      exact Only.rfl

theorem mgmtStatus_only {W : List Blk} {a0 : Bool} {a1 : Machine.State} (hW : sub [.adit] W = true) : Only W a1 (mgmtStatus a0 a1) := by
  unfold mgmtStatus
  exact a6Rec_only (sub_trans rfl hW)

theorem mgmtTimer_only {W : List Blk} {a0 : Machine.State} (hW : sub [.adit, .mgmt] W = true) : Only W a0 (mgmtTimer a0) := by
  unfold mgmtTimer
  refine Only.ite (fun _ => ?_) (fun _ => ?_)
  · exact Only.rfl
  · extract_lets +onlyGivenNames -merge -useContext -underBinder x0
    have h1 : Only W a0 x0 := by
      unfold x0
      exact mgmtStatus_only (sub_trans rfl hW)
    clear_value x0
    refine Only.ite (fun _ => ?_) (fun _ => ?_)
    · exact h1
    · exact Only.after (a6Rec_only (sub_trans rfl hW)) (Only.after (State.modMgmt_only (sub_trans rfl hW)) (h1))

theorem polHostSilent_only {W : List Blk} {a0 : Machine.State} (hW : sub [.adit, .mgmt] W = true) : Only W a0 (polHostSilent a0) := by
  unfold polHostSilent
  refine Only.after (policyRun_only (sub_trans rfl hW) (fun _ t0 => ?_)) ?_
  · refine Only.via3 ?_
    exact setSilence_only (sub_trans rfl hW)
  · exact Only.rfl

theorem polStoreHold_only {W : List Blk} {a0 : Machine.State} (hW : sub [.adit, .mgmt] W = true) : Only W a0 (polStoreHold a0) := by
  unfold polStoreHold
  refine Only.after (policyRun_only (sub_trans rfl hW) (fun _ t0 => ?_)) ?_
  · refine Only.via3 ?_
    exact setHold_only (sub_trans rfl hW)
  · exact Only.rfl

theorem polBusOrder_only {W : List Blk} {a0 : Machine.State} (hW : sub [.adit, .mgmt, .bus] W = true) : Only W a0 (polBusOrder a0) := by
  unfold polBusOrder
  refine Only.after (policyRun_only (sub_trans rfl hW) (fun _ t0 => ?_)) ?_
  · split
    · rename_i y2 y3 q4
      have h1 := Only.ofEq (p := Prod.snd) (busOrder_only (sub_trans rfl hW)) q4 (W := W) (s := t0) (by
        exact Only.rfl
        )
      refine Only.via3 ?_
      exact h1
  · exact Only.rfl

theorem polMgmtNow_only {W : List Blk} {a0 : Machine.State} (hW : sub [.adit, .mgmt] W = true) : Only W a0 (polMgmtNow a0) := by
  unfold polMgmtNow
  refine Only.after (policyRun_only (sub_trans rfl hW) (fun _ t0 => ?_)) ?_
  · refine Only.via3 ?_
    exact mgmtStatus_only (sub_trans rfl hW)
  · exact Only.rfl

theorem mctpSend_only {W : List Blk} {a0 : Binding} {a1 : Bytes} {a2 : Machine.State} (hW : sub [.mgmt] W = true) : Only W a2 (mctpSend a0 a1 a2) := by
  unfold mctpSend
  exact State.modMgmt_only (sub_trans rfl hW)

theorem takeMessage_only {W : List Blk} {a0 : Binding} {a1 : Bytes} {a2 : Machine.State} (hW : sub [.adit, .mgmt] W = true) : Only W a2 (takeMessage a0 a1 a2) := by
  unfold takeMessage
  extract_lets +onlyGivenNames -merge -useContext -underBinder x0
  have h1 : Only W a2 x0 := by
    unfold x0
    exact hostActive_only (sub_trans rfl hW)
  clear_value x0
  refine Only.ite (fun _ => ?_) (fun _ => ?_)
  · exact Only.after (State.modMgmt_only (sub_trans rfl hW)) (h1)
  · refine Only.ite (fun _ => ?_) (fun _ => ?_)
    · exact h1
    · refine Only.ite (fun _ => ?_) (fun _ => ?_)
      · exact h1
      · refine Only.ite (fun _ => ?_) (fun _ => ?_)
        · refine Only.ite (fun _ => ?_) (fun _ => ?_)
          · exact Only.after (mctpSend_only (sub_trans rfl hW)) (h1)
          · refine Only.ite (fun _ => ?_) (fun _ => ?_)
            · exact Only.after (mctpSend_only (sub_trans rfl hW)) (h1)
            · exact h1
        · exact Only.after (State.modMgmt_only (sub_trans rfl hW)) (h1)

theorem mctpPacket_only {W : List Blk} {a0 : Binding} {a1 : Bytes} {a2 : Machine.State} (hW : sub [.adit, .mgmt] W = true) : Only W a2 (mctpPacket a0 a1 a2) := by
  unfold mctpPacket
  extract_lets +onlyGivenNames -merge -useContext -underBinder x0
  try clear_value x0
  extract_lets +onlyGivenNames -merge -useContext -underBinder x1
  try clear_value x1
  extract_lets +onlyGivenNames -merge -useContext -underBinder x2
  try clear_value x2
  refine Only.ite (fun _ => ?_) (fun _ => ?_)
  · exact Only.rfl
  · extract_lets +onlyGivenNames -merge -useContext -underBinder x3
    unfold x3
    extract_lets +onlyGivenNames -merge -useContext -underBinder x4
    try clear_value x4
    extract_lets +onlyGivenNames -merge -useContext -underBinder x5
    try clear_value x5
    split
    · exact State.modMgmt_only (sub_trans rfl hW)
    · refine Only.ite (fun _ => ?_) (fun _ => ?_)
      · exact State.modMgmt_only (sub_trans rfl hW)
      · refine Only.ite (fun _ => ?_) (fun _ => ?_)
        · exact Only.after (takeMessage_only (sub_trans rfl hW)) (State.modMgmt_only (sub_trans rfl hW))
        · exact State.modMgmt_only (sub_trans rfl hW)

theorem smbusPacket_only {W : List Blk} {a0 : Bytes} {a1 : Machine.State} (hW : sub [.adit, .mgmt] W = true) : Only W a1 (smbusPacket a0 a1) := by
  unfold smbusPacket
  refine Only.ite (fun _ => ?_) (fun _ => ?_)
  · exact Only.rfl
  · refine Only.ite (fun _ => ?_) (fun _ => ?_)
    · exact State.modMgmt_only (sub_trans rfl hW)
    · exact Only.after (watch_only (sub_trans rfl hW)) (mctpPacket_only (sub_trans rfl hW))

theorem answer_only {W : List Blk} {a0 : Bytes → Bool} {a1 : MctpReq → Machine.State → Reply} {a2 : Machine.State} (hW : sub [.adit, .mgmt] W = true) (g0 : ∀ v0 v1, OnlyVia Prod.snd W v1 (a1 v0 v1)) : Only W a2 (answer a0 a1 a2) := by
  unfold answer
  refine Only.ite (fun _ => ?_) (fun _ => ?_)
  · exact Only.rfl
  · split
    · exact Only.rfl
    · extract_lets +onlyGivenNames -merge -useContext -underBinder x0
      have h1 : Only W a2 x0 := by
        unfold x0
        exact State.modMgmt_only (sub_trans rfl hW)
      clear_value x0
      refine Only.ite (fun _ => ?_) (fun _ => ?_)
      · exact Only.after (mctpSend_only (sub_trans rfl hW)) (h1)
      · split
        · rename_i y3 y4 q5
          have h2 := Only.ofEq (p := Prod.snd) (g0 _ _) q5 (W := W) (s := a2) (by
            exact h1
            )
          exact Only.after (watch_only (sub_trans rfl hW)) (Only.after (mctpSend_only (sub_trans rfl hW)) (h2))

theorem ctl_only {W : List Blk} {a0 : Nat} {a1 : MctpReq → Machine.State → Nat × Bytes × Machine.State} {a2 : Machine.State} (hW : sub [.adit, .mgmt] W = true) (g0 : ∀ v0 v1, OnlyVia (fun r => r.2.2) W v1 (a1 v0 v1)) : Only W a2 (ctl a0 a1 a2) := by
  unfold ctl
  refine Only.after (answer_only (sub_trans rfl hW) (fun _ t0 => ?_)) ?_
  · split
    · rename_i y2 y3 y4 q5
      have h1 := Only.ofEq (p := (fun r => r.2.2)) (g0 _ _) q5 (W := W) (s := t0) (by
        exact Only.rfl
        )
      refine Only.via2 ?_
      exact h1
  · exact Only.rfl

theorem setEid_only {W : List Blk} {a0 : Machine.State} (hW : sub [.adit, .mgmt] W = true) : Only W a0 (setEid a0) := by
  unfold setEid
  refine Only.after (ctl_only (sub_trans rfl hW) (fun _ t0 => ?_)) ?_
  · extract_lets +onlyGivenNames -merge -useContext -underBinder x1
    try clear_value x1
    refine Only.iteV (fun _ => ?_) (fun _ => ?_)
    · refine Only.via3 ?_
      exact Only.rfl
    · refine Only.via3 ?_
      exact State.modMgmt_only (sub_trans rfl hW)
  · exact Only.rfl

theorem getEid_only {W : List Blk} {a0 : Machine.State} (hW : sub [.adit, .mgmt] W = true) : Only W a0 (getEid a0) := by
  unfold getEid
  refine Only.after (ctl_only (sub_trans rfl hW) (fun _ t0 => ?_)) ?_
  · refine Only.via3 ?_
    exact Only.rfl
  · exact Only.rfl

theorem getUuid_only {W : List Blk} {a0 : Machine.State} (hW : sub [.adit, .mgmt] W = true) : Only W a0 (getUuid a0) := by
  unfold getUuid
  refine Only.after (ctl_only (sub_trans rfl hW) (fun _ t0 => ?_)) ?_
  · refine Only.via3 ?_
    exact Only.rfl
  · exact Only.rfl

theorem getVersions_only {W : List Blk} {a0 : Machine.State} (hW : sub [.adit, .mgmt] W = true) : Only W a0 (getVersions a0) := by
  unfold getVersions
  refine Only.after (ctl_only (sub_trans rfl hW) (fun _ t0 => ?_)) ?_
  · refine Only.via3 ?_
    exact Only.rfl
  · exact Only.rfl

theorem getTypes_only {W : List Blk} {a0 : Machine.State} (hW : sub [.adit, .mgmt] W = true) : Only W a0 (getTypes a0) := by
  unfold getTypes
  refine Only.after (ctl_only (sub_trans rfl hW) (fun _ t0 => ?_)) ?_
  · refine Only.via3 ?_
    exact Only.rfl
  · exact Only.rfl

theorem ctlUnsupported_only {W : List Blk} {a0 : Machine.State} (hW : sub [.adit, .mgmt] W = true) : Only W a0 (ctlUnsupported a0) := by
  unfold ctlUnsupported
  refine Only.after (answer_only (sub_trans rfl hW) (fun _ t0 => ?_)) ?_
  · refine Only.via2 ?_
    exact Only.rfl
  · exact Only.rfl

theorem pldm_only {W : List Blk} {a0 : Nat} {a1 : Nat} {a2 : MctpReq → Machine.State → Nat × Bytes × Machine.State} {a3 : Machine.State} (hW : sub [.adit, .mgmt] W = true) (g0 : ∀ v0 v1, OnlyVia (fun r => r.2.2) W v1 (a2 v0 v1)) : Only W a3 (pldm a0 a1 a2 a3) := by
  unfold pldm
  refine Only.after (answer_only (sub_trans rfl hW) (fun _ t0 => ?_)) ?_
  · split
    · rename_i y2 y3 y4 q5
      have h1 := Only.ofEq (p := (fun r => r.2.2)) (g0 _ _) q5 (W := W) (s := t0) (by
        exact Only.rfl
        )
      refine Only.via2 ?_
      exact h1
  · exact Only.rfl

theorem getTid_only {W : List Blk} {a0 : Machine.State} (hW : sub [.adit, .mgmt] W = true) : Only W a0 (getTid a0) := by
  unfold getTid
  refine Only.after (pldm_only (sub_trans rfl hW) (fun _ t0 => ?_)) ?_
  · refine Only.via3 ?_
    exact Only.rfl
  · exact Only.rfl

theorem setTid_only {W : List Blk} {a0 : Machine.State} (hW : sub [.adit, .mgmt] W = true) : Only W a0 (setTid a0) := by
  unfold setTid
  refine Only.after (pldm_only (sub_trans rfl hW) (fun _ t0 => ?_)) ?_
  · extract_lets +onlyGivenNames -merge -useContext -underBinder x1
    try clear_value x1
    refine Only.iteV (fun _ => ?_) (fun _ => ?_)
    · refine Only.via3 ?_
      exact Only.rfl
    · refine Only.via3 ?_
      exact State.modMgmt_only (sub_trans rfl hW)
  · exact Only.rfl

theorem getPldmVersion_only {W : List Blk} {a0 : Machine.State} (hW : sub [.adit, .mgmt] W = true) : Only W a0 (getPldmVersion a0) := by
  unfold getPldmVersion
  refine Only.after (pldm_only (sub_trans rfl hW) (fun _ t0 => ?_)) ?_
  · extract_lets +onlyGivenNames -merge -useContext -underBinder x1
    try clear_value x1
    refine Only.iteV (fun _ => ?_) (fun _ => ?_)
    · refine Only.via3 ?_
      exact Only.rfl
    · refine Only.via3 ?_
      exact Only.rfl
  · exact Only.rfl

theorem getPldmTypes_only {W : List Blk} {a0 : Machine.State} (hW : sub [.adit, .mgmt] W = true) : Only W a0 (getPldmTypes a0) := by
  unfold getPldmTypes
  refine Only.after (pldm_only (sub_trans rfl hW) (fun _ t0 => ?_)) ?_
  · refine Only.via3 ?_
    exact Only.rfl
  · exact Only.rfl

theorem getPldmCommands_only {W : List Blk} {a0 : Machine.State} (hW : sub [.adit, .mgmt] W = true) : Only W a0 (getPldmCommands a0) := by
  unfold getPldmCommands
  refine Only.after (pldm_only (sub_trans rfl hW) (fun _ t0 => ?_)) ?_
  · extract_lets +onlyGivenNames -merge -useContext -underBinder x1
    try clear_value x1
    refine Only.iteV (fun _ => ?_) (fun _ => ?_)
    · refine Only.via3 ?_
      exact Only.rfl
    · refine Only.via3 ?_
      exact Only.rfl
  · exact Only.rfl

theorem pldmUnsupported_only {W : List Blk} {a0 : Machine.State} (hW : sub [.adit, .mgmt] W = true) : Only W a0 (pldmUnsupported a0) := by
  unfold pldmUnsupported
  refine Only.after (answer_only (sub_trans rfl hW) (fun _ t0 => ?_)) ?_
  · refine Only.via2 ?_
    exact Only.rfl
  · exact Only.rfl

theorem setReceiver_only {W : List Blk} {a0 : Machine.State} (hW : sub [.adit, .mgmt] W = true) : Only W a0 (setReceiver a0) := by
  unfold setReceiver
  refine Only.after (pldm_only (sub_trans rfl hW) (fun _ t0 => ?_)) ?_
  · extract_lets +onlyGivenNames -merge -useContext -underBinder x1
    try clear_value x1
    refine Only.iteV (fun _ => ?_) (fun _ => ?_)
    · refine Only.via3 ?_
      exact State.modMgmt_only (sub_trans rfl hW)
    · refine Only.iteV (fun _ => ?_) (fun _ => ?_)
      · refine Only.via3 ?_
        exact State.modMgmt_only (sub_trans rfl hW)
      · refine Only.via3 ?_
        exact Only.rfl
  · exact Only.rfl

-- SKIP Sys2Proof.Machine.stateEffecters
-- SKIP Sys2Proof.Machine.pdrCount
-- SKIP Sys2Proof.Machine.oemIdentity

theorem getPdrInfo_only {W : List Blk} {a0 : Machine.State} (hW : sub [.adit, .mgmt] W = true) : Only W a0 (getPdrInfo a0) := by
  unfold getPdrInfo
  refine Only.after (pldm_only (sub_trans rfl hW) (fun _ t0 => ?_)) ?_
  · refine Only.via3 ?_
    exact Only.rfl
  · exact Only.rfl

theorem getPdr_only {W : List Blk} {a0 : Machine.State} (hW : sub [.adit, .mgmt] W = true) : Only W a0 (getPdr a0) := by
  unfold getPdr
  refine Only.after (pldm_only (sub_trans rfl hW) (fun _ t0 => ?_)) ?_
  · extract_lets +onlyGivenNames -merge -useContext -underBinder x1
    try clear_value x1
    extract_lets +onlyGivenNames -merge -useContext -underBinder x2
    try clear_value x2
    refine Only.iteV (fun _ => ?_) (fun _ => ?_)
    · refine Only.via3 ?_
      exact Only.rfl
    · refine Only.via3 ?_
      exact Only.rfl
  · exact Only.rfl

theorem getSensor_only {W : List Blk} {a0 : Machine.State} (hW : sub [.adit, .mgmt] W = true) : Only W a0 (getSensor a0) := by
  unfold getSensor
  refine Only.after (pldm_only (sub_trans rfl hW) (fun _ t0 => ?_)) ?_
  · extract_lets +onlyGivenNames -merge -useContext -underBinder x1
    try clear_value x1
    refine Only.iteV (fun _ => ?_) (fun _ => ?_)
    · refine Only.via3 ?_
      exact Only.rfl
    · extract_lets +onlyGivenNames -merge -useContext -underBinder x2
      try clear_value x2
      split
      · refine Only.via3 ?_
        exact Only.rfl
      · refine Only.via3 ?_
        exact Only.rfl
  · exact Only.rfl

theorem getStateSensor_only {W : List Blk} {a0 : Machine.State} (hW : sub [.adit, .mgmt] W = true) : Only W a0 (getStateSensor a0) := by
  unfold getStateSensor
  refine Only.after (pldm_only (sub_trans rfl hW) (fun _ t0 => ?_)) ?_
  · extract_lets +onlyGivenNames -merge -useContext -underBinder x1
    try clear_value x1
    refine Only.iteV (fun _ => ?_) (fun _ => ?_)
    · refine Only.via3 ?_
      exact Only.rfl
    · extract_lets +onlyGivenNames -merge -useContext -underBinder x2
      try clear_value x2
      refine Only.via3 ?_
      exact Only.rfl
  · exact Only.rfl

-- SKIP Sys2Proof.Machine.numEffecter

theorem putNumeric_only {W : List Blk} {a0 : Nat} {a1 : Nat} {a2 : Machine.State} (hW : sub [.adit, .mgmt, .power, .pump] W = true) : OnlyVia Prod.snd W a2 (putNumeric a0 a1 a2) := by
  unfold putNumeric
  refine Only.iteV (fun _ => ?_) (fun _ => ?_)
  · refine Only.via2 ?_
    exact Only.rfl
  · refine Only.iteV (fun _ => ?_) (fun _ => ?_)
    · refine Only.via2 ?_
      exact Only.rfl
    · refine Only.iteV (fun _ => ?_) (fun _ => ?_)
      · refine Only.via2 ?_
        exact setCapTo_only (sub_trans rfl hW)
      · refine Only.iteV (fun _ => ?_) (fun _ => ?_)
        · refine Only.iteV (fun _ => ?_) (fun _ => ?_)
          · refine Only.via2 ?_
            exact Only.rfl
          · refine Only.via2 ?_
            exact Only.after (coolantChanged_only (sub_trans rfl hW)) (Only.after (State.modPump_only (sub_trans rfl hW)) (abortCapture_only (sub_trans rfl hW)))
        · refine Only.iteV (fun _ => ?_) (fun _ => ?_)
          · refine Only.iteV (fun _ => ?_) (fun _ => ?_)
            · refine Only.via2 ?_
              exact Only.rfl
            · refine Only.via2 ?_
              exact Only.after (coolantChanged_only (sub_trans rfl hW)) (State.modPump_only (sub_trans rfl hW))
          · refine Only.iteV (fun _ => ?_) (fun _ => ?_)
            · refine Only.iteV (fun _ => ?_) (fun _ => ?_)
              · refine Only.via2 ?_
                exact Only.rfl
              · refine Only.via2 ?_
                exact Only.after (coolantChanged_only (sub_trans rfl hW)) (State.modPump_only (sub_trans rfl hW))
            · refine Only.iteV (fun _ => ?_) (fun _ => ?_)
              · refine Only.via2 ?_
                exact Only.rfl
              · refine Only.via2 ?_
                exact setSilence_only (sub_trans rfl hW)

theorem setNumeric_only {W : List Blk} {a0 : Machine.State} (hW : sub [.adit, .mgmt, .power, .pump] W = true) : Only W a0 (setNumeric a0) := by
  unfold setNumeric
  refine Only.after (pldm_only (sub_trans rfl hW) (fun _ t0 => ?_)) ?_
  · extract_lets +onlyGivenNames -merge -useContext -underBinder x1
    try clear_value x1
    split
    · rename_i y3 y4 q5
      have h2 := Only.ofEq (p := Prod.snd) (putNumeric_only (sub_trans rfl hW)) q5 (W := W) (s := t0) (by
        exact Only.rfl
        )
      refine Only.via3 ?_
      exact h2
  · exact Only.rfl

theorem getNumeric_only {W : List Blk} {a0 : Machine.State} (hW : sub [.adit, .mgmt] W = true) : Only W a0 (getNumeric a0) := by
  unfold getNumeric
  refine Only.after (pldm_only (sub_trans rfl hW) (fun _ t0 => ?_)) ?_
  · extract_lets +onlyGivenNames -merge -useContext -underBinder x1
    try clear_value x1
    refine Only.iteV (fun _ => ?_) (fun _ => ?_)
    · refine Only.via3 ?_
      exact Only.rfl
    · extract_lets +onlyGivenNames -merge -useContext -underBinder x2
      try clear_value x2
      refine Only.via3 ?_
      exact Only.rfl
  · exact Only.rfl

-- SKIP Sys2Proof.Machine.stateEffecter

theorem setFluidTo_only {W : List Blk} {a0 : Nat} {a1 : Machine.State} (hW : sub [.adit, .mgmt, .pump] W = true) : Only W a1 (setFluidTo a0 a1) := by
  unfold setFluidTo
  extract_lets +onlyGivenNames -merge -useContext -underBinder x0
  have h1 : Only W a1 x0 := by
    unfold x0
    exact Only.after (coolantChanged_only (sub_trans rfl hW)) (State.modPump_only (sub_trans rfl hW))
  clear_value x0
  refine Only.ite (fun _ => ?_) (fun _ => ?_)
  · exact h1
  · exact Only.after (loopEvent_only (sub_trans rfl hW)) (h1)

theorem putState_only {W : List Blk} {a0 : Nat} {a1 : Nat} {a2 : Machine.State} (hW : sub [.ao, .sup, .adit, .host, .rings, .cages, .beat, .mem, .mgmt, .links, .coll, .power, .heat, .pump, .bus] W = true) : OnlyVia Prod.snd W a2 (putState a0 a1 a2) := by
  unfold putState
  refine Only.iteV (fun _ => ?_) (fun _ => ?_)
  · refine Only.via2 ?_
    exact Only.rfl
  · refine Only.iteV (fun _ => ?_) (fun _ => ?_)
    · refine Only.via2 ?_
      exact Only.rfl
    · refine Only.iteV (fun _ => ?_) (fun _ => ?_)
      · refine Only.via2 ?_
        exact Only.rfl
      · refine Only.iteV (fun _ => ?_) (fun _ => ?_)
        · refine Only.via2 ?_
          exact Only.after (powerChanged_only (sub_trans rfl hW)) (State.modPower_only (sub_trans rfl hW))
        · refine Only.iteV (fun _ => ?_) (fun _ => ?_)
          · refine Only.via2 ?_
            exact Only.after (coolantChanged_only (sub_trans rfl hW)) (Only.after (setMode_only (sub_trans rfl hW)) (abortCapture_only (sub_trans rfl hW)))
          · refine Only.iteV (fun _ => ?_) (fun _ => ?_)
            · refine Only.via2 ?_
              exact setFluidTo_only (sub_trans rfl hW)
            · refine Only.iteV (fun _ => ?_) (fun _ => ?_)
              · refine Only.via2 ?_
                refine Only.ite (fun _ => ?_) (fun _ => ?_)
                · exact computeReset_only (sub_trans rfl hW)
                · refine Only.ite (fun _ => ?_) (fun _ => ?_)
                  · exact askReset_only (sub_trans rfl hW)
                  · exact Only.rfl
              · refine Only.iteV (fun _ => ?_) (fun _ => ?_)
                · refine Only.via2 ?_
                  exact setHold_only (sub_trans rfl hW)
                · refine Only.iteV (fun _ => ?_) (fun _ => ?_)
                  · refine Only.via2 ?_
                    exact Only.rfl
                  · split
                    · rename_i y1 y2 q3
                      have h0 := Only.ofEq (p := Prod.snd) (busOrder_only (sub_trans rfl hW)) q3 (W := W) (s := a2) (by
                        exact Only.rfl
                        )
                      refine Only.via2 ?_
                      exact h0

theorem setState_only {W : List Blk} {a0 : Machine.State} (hW : sub [.ao, .sup, .adit, .host, .rings, .cages, .beat, .mem, .mgmt, .links, .coll, .power, .heat, .pump, .bus] W = true) : Only W a0 (setState a0) := by
  unfold setState
  refine Only.after (pldm_only (sub_trans rfl hW) (fun _ t0 => ?_)) ?_
  · refine Only.iteV (fun _ => ?_) (fun _ => ?_)
    · refine Only.via3 ?_
      exact Only.rfl
    · refine Only.iteV (fun _ => ?_) (fun _ => ?_)
      · refine Only.via3 ?_
        exact Only.rfl
      · split
        · rename_i y2 y3 q4
          have h1 := Only.ofEq (p := Prod.snd) (putState_only (sub_trans rfl hW)) q4 (W := W) (s := t0) (by
            exact Only.rfl
            )
          refine Only.via3 ?_
          exact h1
  · exact Only.rfl

theorem getState_only {W : List Blk} {a0 : Machine.State} (hW : sub [.adit, .mgmt] W = true) : Only W a0 (getState a0) := by
  unfold getState
  refine Only.after (pldm_only (sub_trans rfl hW) (fun _ t0 => ?_)) ?_
  · extract_lets +onlyGivenNames -merge -useContext -underBinder x1
    try clear_value x1
    refine Only.iteV (fun _ => ?_) (fun _ => ?_)
    · refine Only.via3 ?_
      exact Only.rfl
    · extract_lets +onlyGivenNames -merge -useContext -underBinder x2
      try clear_value x2
      refine Only.via3 ?_
      exact Only.rfl
  · exact Only.rfl

-- SKIP Sys2Proof.Machine.eventMessage

theorem sendHead_only {W : List Blk} {a0 : Machine.State} (hW : sub [.mgmt] W = true) : Only W a0 (sendHead a0) := by
  unfold sendHead
  split
  · exact mctpSend_only (sub_trans rfl hW)
  · exact Only.rfl

theorem eventSend_only {W : List Blk} {a0 : Machine.State} (hW : sub [.mgmt] W = true) : Only W a0 (eventSend a0) := by
  unfold eventSend
  refine Only.ite (fun _ => ?_) (fun _ => ?_)
  · exact Only.rfl
  · exact Only.after (sendHead_only (sub_trans rfl hW)) (State.modMgmt_only (sub_trans rfl hW))

theorem eventResponse_only {W : List Blk} {a0 : Machine.State} (hW : sub [.adit, .mgmt] W = true) : Only W a0 (eventResponse a0) := by
  unfold eventResponse
  refine Only.ite (fun _ => ?_) (fun _ => ?_)
  · exact Only.rfl
  · exact Only.after (watch_only (sub_trans rfl hW)) (Only.after (hostActive_only (sub_trans rfl hW)) (State.modMgmt_only (sub_trans rfl hW)))

theorem eventRetry_only {W : List Blk} {a0 : Machine.State} (hW : sub [.mgmt] W = true) : Only W a0 (eventRetry a0) := by
  unfold eventRetry
  refine Only.ite (fun _ => ?_) (fun _ => ?_)
  · exact Only.rfl
  · refine Only.ite (fun _ => ?_) (fun _ => ?_)
    · exact Only.after (sendHead_only (sub_trans rfl hW)) (State.modMgmt_only (sub_trans rfl hW))
    · exact State.modMgmt_only (sub_trans rfl hW)

theorem alertResponse_only {W : List Blk} {a0 : Machine.State} (hW : sub [.mgmt] W = true) : Only W a0 (alertResponse a0) := by
  unfold alertResponse
  refine Only.ite (fun _ => ?_) (fun _ => ?_)
  · exact Only.rfl
  · exact State.modMgmt_only (sub_trans rfl hW)

theorem vendor_only {W : List Blk} {a0 : Nat} {a1 : Bytes → Machine.State → Nat × Bytes × Machine.State} {a2 : Machine.State} (hW : sub [.adit, .mgmt] W = true) (g0 : ∀ v0 v1, OnlyVia (fun r => r.2.2) W v1 (a1 v0 v1)) : Only W a2 (vendor a0 a1 a2) := by
  unfold vendor
  refine Only.after (answer_only (sub_trans rfl hW) (fun _ t0 => ?_)) ?_
  · split
    · rename_i y2 y3 y4 q5
      have h1 := Only.ofEq (p := (fun r => r.2.2)) (g0 _ _) q5 (W := W) (s := t0) (by
        exact Only.rfl
        )
      refine Only.via2 ?_
      exact h1
  · exact Only.rfl

-- SKIP Sys2Proof.Machine.inactiveSlot

theorem setInactive_only {W : List Blk} {a0 : FwSlot} {a1 : Machine.State} (hW : sub [.mgmt] W = true) : Only W a1 (setInactive a0 a1) := by
  unfold setInactive
  exact State.modMgmt_only (sub_trans rfl hW)

theorem fwEvent_only {W : List Blk} {a0 : Nat} {a1 : Nat} {a2 : Machine.State} (hW : sub [.adit] W = true) : Only W a2 (fwEvent a0 a1 a2) := by
  unfold fwEvent
  exact a6Rec_only (sub_trans rfl hW)

-- SKIP Sys2Proof.Machine.inUse

theorem fwWrite_only {W : List Blk} {a0 : Machine.State} (hW : sub [.adit, .mgmt] W = true) : Only W a0 (fwWrite a0) := by
  unfold fwWrite
  refine Only.after (vendor_only (sub_trans rfl hW) (fun _ t0 => ?_)) ?_
  · extract_lets +onlyGivenNames -merge -useContext -underBinder x1
    try clear_value x1
    extract_lets +onlyGivenNames -merge -useContext -underBinder x2
    try clear_value x2
    refine Only.iteV (fun _ => ?_) (fun _ => ?_)
    · refine Only.via3 ?_
      exact Only.rfl
    · refine Only.iteV (fun _ => ?_) (fun _ => ?_)
      · refine Only.via3 ?_
        exact Only.rfl
      · extract_lets +onlyGivenNames -merge -useContext -underBinder x3
        try clear_value x3
        extract_lets +onlyGivenNames -merge -useContext -underBinder x4
        try clear_value x4
        refine Only.via3 ?_
        exact Only.after (fwEvent_only (sub_trans rfl hW)) (setInactive_only (sub_trans rfl hW))
  · exact Only.rfl

theorem fwVerify_only {W : List Blk} {a0 : Machine.State} (hW : sub [.adit, .mgmt] W = true) : Only W a0 (fwVerify a0) := by
  unfold fwVerify
  refine Only.after (vendor_only (sub_trans rfl hW) (fun _ t0 => ?_)) ?_
  · extract_lets +onlyGivenNames -merge -useContext -underBinder x1
    try clear_value x1
    extract_lets +onlyGivenNames -merge -useContext -underBinder x2
    try clear_value x2
    refine Only.iteV (fun _ => ?_) (fun _ => ?_)
    · refine Only.via3 ?_
      exact Only.rfl
    · refine Only.iteV (fun _ => ?_) (fun _ => ?_)
      · refine Only.via3 ?_
        exact Only.rfl
      · refine Only.iteV (fun _ => ?_) (fun _ => ?_)
        · refine Only.via3 ?_
          exact Only.after (fwEvent_only (sub_trans rfl hW)) (setInactive_only (sub_trans rfl hW))
        · refine Only.via3 ?_
          exact Only.after (fwEvent_only (sub_trans rfl hW)) (setInactive_only (sub_trans rfl hW))
  · exact Only.rfl

theorem fwActivate_only {W : List Blk} {a0 : Machine.State} (hW : sub [.ao, .adit, .mgmt] W = true) : Only W a0 (fwActivate a0) := by
  unfold fwActivate
  refine Only.after (vendor_only (sub_trans rfl hW) (fun _ t0 => ?_)) ?_
  · refine Only.iteV (fun _ => ?_) (fun _ => ?_)
    · refine Only.via3 ?_
      exact Only.rfl
    · refine Only.iteV (fun _ => ?_) (fun _ => ?_)
      · refine Only.via3 ?_
        exact Only.rfl
      · refine Only.via3 ?_
        exact Only.after (askReset_only (sub_trans rfl hW)) (Only.after (fwEvent_only (sub_trans rfl hW)) (State.modMgmt_only (sub_trans rfl hW)))
  · exact Only.rfl

theorem lcEvent_only {W : List Blk} {a0 : Nat} {a1 : Nat} {a2 : Machine.State} (hW : sub [.adit] W = true) : Only W a2 (lcEvent a0 a1 a2) := by
  unfold lcEvent
  exact a6Rec_only (sub_trans rfl hW)

theorem getNonce_only {W : List Blk} {a0 : Machine.State} (hW : sub [.free, .adit, .mgmt] W = true) : Only W a0 (getNonce a0) := by
  unfold getNonce
  refine Only.after (vendor_only (sub_trans rfl hW) (fun _ t0 => ?_)) ?_
  · split
    · rename_i y2 y3 q4
      have h1 := Only.ofEq (p := Prod.snd) (draw_only (sub_trans rfl hW)) q4 (W := W) (s := t0) (by
        exact Only.rfl
        )
      refine Only.via3 ?_
      exact Only.after (State.modMgmt_only (sub_trans rfl hW)) (h1)
  · exact Only.rfl

theorem nonceExpiry_only {W : List Blk} {a0 : Machine.State} (hW : sub [.mgmt] W = true) : Only W a0 (nonceExpiry a0) := by
  unfold nonceExpiry
  exact State.modMgmt_only (sub_trans rfl hW)

theorem fuse_only {W : List Blk} {a0 : Fuses → Fuses} {a1 : Machine.State} (hW : sub [.mgmt] W = true) : Only W a1 (fuse a0 a1) := by
  unfold fuse
  exact State.modMgmt_only (sub_trans rfl hW)

theorem ownerEnrol_only {W : List Blk} {a0 : Machine.State} (hW : sub [.adit, .mgmt] W = true) : Only W a0 (ownerEnrol a0) := by
  unfold ownerEnrol
  refine Only.after (vendor_only (sub_trans rfl hW) (fun _ t0 => ?_)) ?_
  · extract_lets +onlyGivenNames -merge -useContext -underBinder x1
    try clear_value x1
    refine Only.iteV (fun _ => ?_) (fun _ => ?_)
    · refine Only.via3 ?_
      exact Only.rfl
    · refine Only.iteV (fun _ => ?_) (fun _ => ?_)
      · refine Only.via3 ?_
        exact Only.rfl
      · refine Only.iteV (fun _ => ?_) (fun _ => ?_)
        · refine Only.via3 ?_
          exact Only.rfl
        · refine Only.via3 ?_
          exact Only.after (lcEvent_only (sub_trans rfl hW)) (fuse_only (sub_trans rfl hW))
  · exact Only.rfl

-- SKIP Sys2Proof.Machine.signedCheck

theorem signed_only {W : List Blk} {a0 : Nat} {a1 : LifeCycle → Option Bool} {a2 : Bytes → Machine.State → Nat} {a3 : Bytes → Machine.State → Machine.State} {a4 : Machine.State} (hW : sub [.adit, .mgmt] W = true) (g0 : ∀ v0 v1, Only W v1 (a3 v0 v1)) : Only W a4 (signed a0 a1 a2 a3 a4) := by
  unfold signed
  refine Only.after (vendor_only (sub_trans rfl hW) (fun _ t0 => ?_)) ?_
  · extract_lets +onlyGivenNames -merge -useContext -underBinder x1
    try clear_value x1
    refine Only.iteV (fun _ => ?_) (fun _ => ?_)
    · refine Only.via3 ?_
      exact lcEvent_only (sub_trans rfl hW)
    · refine Only.via3 ?_
      exact Only.after (g0 _ _) (State.modMgmt_only (sub_trans rfl hW))
  · exact Only.rfl

theorem eraseRegions_only {W : List Blk} {a0 : Machine.State} (hW : sub [.mgmt] W = true) : Only W a0 (eraseRegions a0) := by
  unfold eraseRegions
  exact State.modMgmt_only (sub_trans rfl hW)

theorem transition_only {W : List Blk} {a0 : LifeCycle} {a1 : Machine.State} (hW : sub [.ao, .adit, .mgmt] W = true) : Only W a1 (transition a0 a1) := by
  unfold transition
  exact Only.after (askReset_only (sub_trans rfl hW)) (Only.after (lcEvent_only (sub_trans rfl hW)) (Only.after (fuse_only (sub_trans rfl hW)) (lcEvent_only (sub_trans rfl hW))))

theorem returnRequest_only {W : List Blk} {a0 : Machine.State} (hW : sub [.adit, .mgmt] W = true) : Only W a0 (returnRequest a0) := by
  unfold returnRequest
  refine Only.after (signed_only (sub_trans rfl hW) (fun _ t0 => ?_)) ?_
  · exact Only.after (State.modMgmt_only (sub_trans rfl hW)) (Only.after (fuse_only (sub_trans rfl hW)) (lcEvent_only (sub_trans rfl hW)))
  · exact Only.rfl

theorem eraseDone_only {W : List Blk} {a0 : Machine.State} (hW : sub [.ao, .adit, .mgmt] W = true) : Only W a0 (eraseDone a0) := by
  unfold eraseDone
  refine Only.ite (fun _ => ?_) (fun _ => ?_)
  · exact Only.rfl
  · exact Only.after (askReset_only (sub_trans rfl hW)) (Only.after (lcEvent_only (sub_trans rfl hW)) (Only.after (eraseRegions_only (sub_trans rfl hW)) (State.modMgmt_only (sub_trans rfl hW))))

theorem retireRequest_only {W : List Blk} {a0 : Machine.State} (hW : sub [.ao, .adit, .mgmt] W = true) : Only W a0 (retireRequest a0) := by
  unfold retireRequest
  refine Only.after (signed_only (sub_trans rfl hW) (fun _ t0 => ?_)) ?_
  · exact transition_only (sub_trans rfl hW)
  · exact Only.rfl

theorem debugUnlock_only {W : List Blk} {a0 : Machine.State} (hW : sub [.adit, .mgmt] W = true) : Only W a0 (debugUnlock a0) := by
  unfold debugUnlock
  refine Only.after (signed_only (sub_trans rfl hW) (fun _ t0 => ?_)) ?_
  · exact Only.after (lcEvent_only (sub_trans rfl hW)) (State.modMgmt_only (sub_trans rfl hW))
  · exact Only.rfl

theorem makerTransition_only {W : List Blk} {a0 : Machine.State} (hW : sub [.ao, .adit, .mgmt] W = true) : Only W a0 (makerTransition a0) := by
  unfold makerTransition
  refine Only.after (signed_only (sub_trans rfl hW) (fun _ t0 => ?_)) ?_
  · refine Only.ite (fun _ => ?_) (fun _ => ?_)
    · exact Only.after (transition_only (sub_trans rfl hW)) (eraseRegions_only (sub_trans rfl hW))
    · exact transition_only (sub_trans rfl hW)
  · exact Only.rfl

-- SKIP Sys2Proof.Machine.bootSlot

theorem loadRegion_only {W : List Blk} {a0 : Nat} {a1 : Machine.State} (hW : sub [.adit, .mgmt, .power, .heat, .pump, .ward] W = true) : Only W a1 (loadRegion a0 a1) := by
  unfold loadRegion
  split
  · exact Only.rfl
  · extract_lets +onlyGivenNames -merge -useContext -underBinder x0
    have h1 : Only W a1 x0 := by
      unfold x0
      exact storeEvent_only (sub_trans rfl hW)
    clear_value x0
    refine Only.ite (fun _ => ?_) (fun _ => ?_)
    · exact Only.after (State.modPump_only (sub_trans rfl hW)) (h1)
    · exact h1
  · extract_lets +onlyGivenNames -merge -useContext -underBinder x2
    try clear_value x2
    refine Only.ite (fun _ => ?_) (fun _ => ?_)
    · exact State.modPower_only (sub_trans rfl hW)
    · refine Only.ite (fun _ => ?_) (fun _ => ?_)
      · exact takePower_only (sub_trans rfl hW)
      · refine Only.ite (fun _ => ?_) (fun _ => ?_)
        · exact takeCool_only (sub_trans rfl hW)
        · refine Only.ite (fun _ => ?_) (fun _ => ?_)
          · exact State.modPump_only (sub_trans rfl hW)
          · refine Only.ite (fun _ => ?_) (fun _ => ?_)
            · exact State.modPump_only (sub_trans rfl hW)
            · exact State.modWard_only (sub_trans rfl hW)

theorem bootLeak_only {W : List Blk} {a0 : Machine.State} (hW : sub [.ao, .sup, .adit, .host, .rings, .cages, .beat, .mem, .mgmt, .links, .coll, .power, .heat, .pump, .bus] W = true) : Only W a0 (bootLeak a0) := by
  unfold bootLeak
  extract_lets +onlyGivenNames -merge -useContext -underBinder x0
  have h1 : Only W a0 x0 := by
    unfold x0
    refine Only.ite (fun _ => ?_) (fun _ => ?_)
    · exact Only.rfl
    · exact Only.after (kill_only (sub_trans rfl hW)) (State.modAo_only (sub_trans rfl hW))
  clear_value x0
  refine Only.ite (fun _ => ?_) (fun _ => ?_)
  · exact Only.after (kill_only (sub_trans rfl hW)) (Only.after (latchLeak_only (sub_trans rfl hW)) (h1))
  · exact h1

theorem bootPump_only {W : List Blk} {a0 : Machine.State} (hW : sub [.pump] W = true) : Only W a0 (bootPump a0) := by
  unfold bootPump
  refine Only.ite (fun _ => ?_) (fun _ => ?_)
  · exact Only.rfl
  · refine Only.ite (fun _ => ?_) (fun _ => ?_)
    · extract_lets +onlyGivenNames -merge -useContext -underBinder x0
      try clear_value x0
      exact State.modPump_only (sub_trans rfl hW)
    · exact startKick_only (sub_trans rfl hW)

theorem boot_only {W : List Blk} {a0 : Machine.State} (hW : sub [.ao, .sup, .adit, .host, .rings, .cages, .beat, .mem, .mgmt, .links, .coll, .power, .heat, .pump, .bus, .ward] W = true) : Only W a0 (boot a0) := by
  unfold boot
  refine Only.ite (fun _ => ?_) (fun _ => ?_)
  · exact Only.rfl
  · split
    · exact Only.rfl
    · extract_lets +onlyGivenNames -merge -useContext -underBinder x0
      try clear_value x0
      extract_lets +onlyGivenNames -merge -useContext -underBinder x1
      try clear_value x1
      extract_lets +onlyGivenNames -merge -useContext -underBinder x2
      have h3 : Only W a0 x2 := by
        unfold x2
        exact Only.after (State.modMgmt_only (sub_trans rfl hW)) (State.modSup_only (sub_trans rfl hW))
      clear_value x2
      extract_lets +onlyGivenNames -merge -useContext -underBinder x4
      have h5 : Only W a0 x4 := by
        unfold x4
        refine Only.ite (fun _ => ?_) (fun _ => ?_)
        · exact Only.after (a6Rec_only (sub_trans rfl hW)) (Only.after (State.modAo_only (sub_trans rfl hW)) (h3))
        · exact h3
      clear_value x4
      extract_lets +onlyGivenNames -merge -useContext -underBinder x6
      have h7 : Only W a0 x6 := by
        unfold x6
        refine Only.ite (fun _ => ?_) (fun _ => ?_)
        · exact Only.after (fwEvent_only (sub_trans rfl hW)) (h5)
        · exact h5
      clear_value x6
      extract_lets +onlyGivenNames -merge -useContext -underBinder x8
      have h9 : Only W a0 x8 := by
        unfold x8
        refine Only.after (bootLeak_only (sub_trans rfl hW)) ?_
        · refine Only.after (forEach_only (fun _ t10 => ?_)) ?_
          · exact loadRegion_only (sub_trans rfl hW)
          · exact h7
      clear_value x8
      refine Only.ite (fun _ => ?_) (fun _ => ?_)
      · refine Only.ite (fun _ => ?_) (fun _ => ?_)
        · exact Only.after (State.modMgmt_only (sub_trans rfl hW)) (h9)
        · exact h9
      · extract_lets +onlyGivenNames -merge -useContext -underBinder x11
        have h12 : Only W a0 x11 := by
          unfold x11
          exact Only.after (bootPump_only (sub_trans rfl hW)) (h9)
        clear_value x11
        refine Only.ite (fun _ => ?_) (fun _ => ?_)
        · exact Only.after (startListen_only (sub_trans rfl hW)) (h12)
        · exact h12

theorem watchdog_only {W : List Blk} {a0 : Machine.State} (hW : sub [.ao] W = true) : Only W a0 (watchdog a0) := by
  unfold watchdog
  refine Only.ite (fun _ => ?_) (fun _ => ?_)
  · exact Only.rfl
  · extract_lets +onlyGivenNames -merge -useContext -underBinder x0
    try clear_value x0
    refine Only.after (askReset_only (sub_trans rfl hW)) ?_
    · refine Only.ite (fun _ => ?_) (fun _ => ?_)
      · exact State.modAo_only (sub_trans rfl hW)
      · exact Only.rfl

theorem dieTrip_only {W : List Blk} {a0 : Machine.State} (hW : sub [.ao, .sup, .adit, .host, .rings, .cages, .beat, .mem, .mgmt, .links, .coll, .power, .heat, .pump, .bus] W = true) : Only W a0 (dieTrip a0) := by
  unfold dieTrip
  refine Only.ite (fun _ => ?_) (fun _ => ?_)
  · exact Only.rfl
  · exact Only.after (kill_only (sub_trans rfl hW)) (State.modAo_only (sub_trans rfl hW))

theorem dieClear_only {W : List Blk} {a0 : Machine.State} (hW : sub [.ao] W = true) : Only W a0 (dieClear a0) := by
  unfold dieClear
  exact State.modAo_only (sub_trans rfl hW)

theorem tapeIsWet_only {W : List Blk} {a0 : Machine.State} (hW : sub [.ao, .sup, .adit, .host, .rings, .cages, .beat, .mem, .mgmt, .links, .coll, .power, .heat, .pump, .bus] W = true) : Only W a0 (tapeIsWet a0) := by
  unfold tapeIsWet
  refine Only.ite (fun _ => ?_) (fun _ => ?_)
  · exact Only.rfl
  · extract_lets +onlyGivenNames -merge -useContext -underBinder x0
    have h1 : Only W a0 x0 := by
      unfold x0
      exact State.modAo_only (sub_trans rfl hW)
    clear_value x0
    extract_lets +onlyGivenNames -merge -useContext -underBinder x2
    have h3 : Only W a0 x2 := by
      unfold x2
      refine Only.ite (fun _ => ?_) (fun _ => ?_)
      · exact Only.after (leakAlert_only (sub_trans rfl hW)) (Only.after (fabricAlert_only (sub_trans rfl hW)) (Only.after (latchLeak_only (sub_trans rfl hW)) (h1)))
      · exact h1
    clear_value x2
    exact Only.after (kill_only (sub_trans rfl hW)) (h3)

theorem tapeIsDry_only {W : List Blk} {a0 : Machine.State} (hW : sub [.ao, .sup, .pump] W = true) : Only W a0 (tapeIsDry a0) := by
  unfold tapeIsDry
  exact Only.after (leakLifted_only (sub_trans rfl hW)) (State.modAo_only (sub_trans rfl hW))

theorem externalTrip_only {W : List Blk} {a0 : Nat} {a1 : Machine.State} (hW : sub [.free, .ao, .sup, .adit, .host, .rings, .cages, .beat, .mem, .mgmt, .links, .coll, .power, .heat, .pump, .bus] W = true) : Only W a1 (externalTrip a0 a1) := by
  unfold externalTrip
  refine Only.ite (fun _ => ?_) (fun _ => ?_)
  · exact Only.rfl
  · refine Only.ite (fun _ => ?_) (fun _ => ?_)
    · exact kill_only (sub_trans rfl hW)
    · split
      · rename_i y1 y2 q3
        have h0 := Only.ofEq (p := Prod.snd) (draw_only (sub_trans rfl hW)) q3 (W := W) (s := a1) (by
          exact Only.rfl
          )
        refine Only.ite (fun _ => ?_) (fun _ => ?_)
        · exact Only.after (kill_only (sub_trans rfl hW)) (h0)
        · exact h0

theorem stackTripLine_only {W : List Blk} {a0 : Nat} {a1 : Option Int} {a2 : Machine.State} (hW : sub [.ao, .sup, .adit, .host, .rings, .cages, .beat, .mem, .mgmt, .links, .coll, .power, .heat, .pump, .bus] W = true) : Only W a2 (stackTripLine a0 a1 a2) := by
  unfold stackTripLine
  refine Only.ite (fun _ => ?_) (fun _ => ?_)
  · exact Only.rfl
  · extract_lets +onlyGivenNames -merge -useContext -underBinder x0
    try clear_value x0
    extract_lets +onlyGivenNames -merge -useContext -underBinder x1
    try clear_value x1
    extract_lets +onlyGivenNames -merge -useContext -underBinder x2
    have h3 : Only W a2 x2 := by
      unfold x2
      exact State.modAo_only (sub_trans rfl hW)
    clear_value x2
    refine Only.ite (fun _ => ?_) (fun _ => ?_)
    · exact Only.after (kill_only (sub_trans rfl hW)) (Only.after (State.modAo_only (sub_trans rfl hW)) (h3))
    · exact h3

theorem unsolicitedMain_only {W : List Blk} {a0 : Machine.State} (hW : sub [.sup, .adit] W = true) : Only W a0 (unsolicitedMain a0) := by
  unfold unsolicitedMain
  refine Only.ite (fun _ => ?_) (fun _ => ?_)
  · exact Only.rfl
  · extract_lets +onlyGivenNames -merge -useContext -underBinder x0
    have h1 : Only W a0 x0 := by
      unfold x0
      exact State.modSup_only (sub_trans rfl hW)
    clear_value x0
    refine Only.ite (fun _ => ?_) (fun _ => ?_)
    · exact Only.after (a6Rec_only (sub_trans rfl hW)) (h1)
    · exact h1

theorem mainInRating_only {W : List Blk} {a0 : Machine.State} (hW : sub [.sup] W = true) : Only W a0 (mainInRating a0) := by
  unfold mainInRating
  refine Only.ite (fun _ => ?_) (fun _ => ?_)
  · exact State.modSup_only (sub_trans rfl hW)
  · exact Only.rfl

theorem regsUp_only {W : List Blk} {a0 : Machine.State} (hW : sub [.sup, .power] W = true) : Only W a0 (regsUp a0) := by
  unfold regsUp
  refine Only.ite (fun _ => ?_) (fun _ => ?_)
  · exact Only.after (State.modPower_only (sub_trans rfl hW)) (State.modSup_only (sub_trans rfl hW))
  · exact Only.rfl

theorem planesReady_only {W : List Blk} {a0 : Machine.State} (hW : sub [.free, .sup, .adit, .host, .links, .coll] W = true) : Only W a0 (planesReady a0) := by
  unfold planesReady
  refine Only.ite (fun _ => ?_) (fun _ => ?_)
  · exact Only.rfl
  · extract_lets +onlyGivenNames -merge -useContext -underBinder x0
    have h1 : Only W a0 x0 := by
      unfold x0
      exact State.modSup_only (sub_trans rfl hW)
    clear_value x0
    split
    · rename_i y3 y4 q5
      have h2 := Only.ofEq (p := Prod.snd) (draw_only (sub_trans rfl hW)) q5 (W := W) (s := a0) (by
        exact h1
        )
      extract_lets +onlyGivenNames -merge -useContext -underBinder x6
      have h7 : Only W a0 x6 := by
        unfold x6
        exact Only.after (State.modColl_only (sub_trans rfl hW)) (h2)
      clear_value x6
      extract_lets +onlyGivenNames -merge -useContext -underBinder x8
      have h9 : Only W a0 x8 := by
        unfold x8
        exact Only.after (State.modHost_only (sub_trans rfl hW)) (h7)
      clear_value x8
      extract_lets +onlyGivenNames -merge -useContext -underBinder x10
      have h11 : Only W a0 x10 := by
        unfold x10
        refine Only.after (forEach_only (fun _ t12 => ?_)) ?_
        · exact train_only (sub_trans rfl hW)
        · exact h9
      clear_value x10
      exact Only.after (startEvent_only (sub_trans rfl hW)) (h11)

theorem mainFailure_only {W : List Blk} {a0 : Nat} {a1 : Option Nat} {a2 : Machine.State} (hW : sub [.ao, .sup, .adit, .host, .rings, .cages, .beat, .mem, .mgmt, .links, .coll, .power, .heat, .pump] W = true) : Only W a2 (mainFailure a0 a1 a2) := by
  unfold mainFailure
  extract_lets +onlyGivenNames -merge -useContext -underBinder x0
  have h1 : Only W a2 x0 := by
    unfold x0
    exact Only.after (mainDown_only (sub_trans rfl hW)) (State.modSup_only (sub_trans rfl hW))
  clear_value x0
  exact Only.after (dumpStart_only (sub_trans rfl hW)) (Only.after (startEvent_only (sub_trans rfl hW)) (h1))

theorem mainTimeout_only {W : List Blk} {a0 : Machine.State} (hW : sub [.ao, .sup, .adit, .host, .rings, .cages, .beat, .mem, .mgmt, .links, .coll, .power, .heat, .pump] W = true) : Only W a0 (mainTimeout a0) := by
  unfold mainTimeout
  refine Only.ite (fun _ => ?_) (fun _ => ?_)
  · exact mainFailure_only (sub_trans rfl hW)
  · exact Only.rfl

theorem mainRetry_only {W : List Blk} {a0 : Machine.State} (hW : sub [.sup] W = true) : Only W a0 (mainRetry a0) := by
  unfold mainRetry
  exact State.modSup_only (sub_trans rfl hW)

theorem mainLost_only {W : List Blk} {a0 : Machine.State} (hW : sub [.ao, .sup, .adit, .host, .rings, .cages, .beat, .mem, .mgmt, .links, .coll, .power, .heat, .pump] W = true) : Only W a0 (mainLost a0) := by
  unfold mainLost
  refine Only.ite (fun _ => ?_) (fun _ => ?_)
  · exact mainFailure_only (sub_trans rfl hW)
  · exact Only.rfl

-- SKIP Sys2Proof.Machine.offBarred

theorem polMainOff_only {W : List Blk} {a0 : Machine.State} (hW : sub [.sup, .adit, .mgmt] W = true) : Only W a0 (polMainOff a0) := by
  unfold polMainOff
  refine Only.after (policyRun_only (sub_trans rfl hW) (fun _ t0 => ?_)) ?_
  · refine Only.iteV (fun _ => ?_) (fun _ => ?_)
    · refine Only.via3 ?_
      exact Only.rfl
    · refine Only.iteV (fun _ => ?_) (fun _ => ?_)
      · refine Only.via3 ?_
        exact Only.rfl
      · refine Only.via3 ?_
        exact State.modSup_only (sub_trans rfl hW)
  · exact Only.rfl

theorem mainOffRelease_only {W : List Blk} {a0 : Machine.State} (hW : sub [.ao, .sup, .adit, .host, .rings, .cages, .beat, .mem, .mgmt, .links, .coll, .power, .heat, .pump] W = true) : Only W a0 (mainOffRelease a0) := by
  unfold mainOffRelease
  refine Only.ite (fun _ => ?_) (fun _ => ?_)
  · exact Only.after (dumpStart_only (sub_trans rfl hW)) (Only.after (startEvent_only (sub_trans rfl hW)) (mainDown_only (sub_trans rfl hW)))
  · exact Only.rfl

theorem perstLow_only {W : List Blk} {a0 : Machine.State} (hW : sub [.ao, .sup, .adit, .host, .rings, .cages, .beat, .mem, .mgmt, .links, .coll, .power, .heat, .pump] W = true) : Only W a0 (perstLow a0) := by
  unfold perstLow
  refine Only.ite (fun _ => ?_) (fun _ => ?_)
  · exact Only.rfl
  · exact Only.after (computeReset_only (sub_trans rfl hW)) (State.modSup_only (sub_trans rfl hW))

theorem perstRise_only {W : List Blk} {a0 : Machine.State} (hW : sub [.sup, .host] W = true) : Only W a0 (perstRise a0) := by
  unfold perstRise
  refine Only.ite (fun _ => ?_) (fun _ => ?_)
  · exact Only.rfl
  · extract_lets +onlyGivenNames -merge -useContext -underBinder x0
    have h1 : Only W a0 x0 := by
      unfold x0
      exact State.modSup_only (sub_trans rfl hW)
    clear_value x0
    refine Only.ite (fun _ => ?_) (fun _ => ?_)
    · exact Only.after (State.modHost_only (sub_trans rfl hW)) (h1)
    · exact h1

theorem pcieReset_only {W : List Blk} {a0 : Nat} {a1 : Machine.State} (hW : sub [.ao, .sup, .adit, .host, .rings, .cages, .beat, .mem, .mgmt, .links, .coll, .power, .heat, .pump] W = true) : Only W a1 (pcieReset a0 a1) := by
  unfold pcieReset
  refine Only.ite (fun _ => ?_) (fun _ => ?_)
  · exact computeReset_only (sub_trans rfl hW)
  · exact Only.rfl

theorem controlReady_only {W : List Blk} {a0 : Machine.State} (hW : sub [.host] W = true) : Only W a0 (controlReady a0) := by
  unfold controlReady
  refine Only.ite (fun _ => ?_) (fun _ => ?_)
  · exact State.modHost_only (sub_trans rfl hW)
  · exact Only.rfl

-- SKIP Sys2Proof.Machine.tapPermitted

theorem tapInstruction_only {W : List Blk} {a0 : Nat} {a1 : Machine.State} (hW : sub [.ao, .sup, .adit, .host, .rings, .cages, .beat, .mem, .mgmt, .links, .coll, .power, .heat, .pump] W = true) : Only W a1 (tapInstruction a0 a1) := by
  unfold tapInstruction
  extract_lets +onlyGivenNames -merge -useContext -underBinder x0
  try clear_value x0
  extract_lets +onlyGivenNames -merge -useContext -underBinder x1
  try clear_value x1
  extract_lets +onlyGivenNames -merge -useContext -underBinder x2
  have h3 : Only W a1 x2 := by
    unfold x2
    refine Only.ite (fun _ => ?_) (fun _ => ?_)
    · exact computeReset_only (sub_trans rfl hW)
    · exact Only.rfl
  clear_value x2
  exact Only.after (State.modAo_only (sub_trans rfl hW)) (h3)

-- SKIP Sys2Proof.Machine.unmetStart

theorem startCheck_only {W : List Blk} {a0 : Machine.State} (hW : sub [.sup, .adit] W = true) : Only W a0 (startCheck a0) := by
  unfold startCheck
  refine Only.ite (fun _ => ?_) (fun _ => ?_)
  · exact Only.rfl
  · extract_lets +onlyGivenNames -merge -useContext -underBinder x0
    try clear_value x0
    refine Only.ite (fun _ => ?_) (fun _ => ?_)
    · exact Only.after (startEvent_only (sub_trans rfl hW)) (State.modSup_only (sub_trans rfl hW))
    · refine Only.ite (fun _ => ?_) (fun _ => ?_)
      · exact Only.rfl
      · exact Only.after (startEvent_only (sub_trans rfl hW)) (State.modSup_only (sub_trans rfl hW))

-- SKIP Sys2Proof.Machine.flowsMet

theorem moduleCycle_only {W : List Blk} {a0 : Machine.State} (hW : sub [.ao, .sup, .adit, .host, .rings, .cages, .beat, .mem, .mgmt, .links, .coll, .power, .heat, .pump, .bus] W = true) : Only W a0 (moduleCycle a0) := by
  unfold moduleCycle
  refine Only.ite (fun _ => ?_) (fun _ => ?_)
  · exact Only.rfl
  · extract_lets +onlyGivenNames -merge -useContext -underBinder x0
    try clear_value x0
    extract_lets +onlyGivenNames -merge -useContext -underBinder x1
    have h2 : Only W a0 x1 := by
      unfold x1
      exact State.modSup_only (sub_trans rfl hW)
    clear_value x1
    extract_lets +onlyGivenNames -merge -useContext -underBinder x3
    have h4 : Only W a0 x3 := by
      unfold x3
      exact Only.after (pumpCycle_only (sub_trans rfl hW)) (h2)
    clear_value x3
    extract_lets +onlyGivenNames -merge -useContext -underBinder x5
    have h6 : Only W a0 x5 := by
      unfold x5
      refine Only.ite (fun _ => ?_) (fun _ => ?_)
      · exact Only.after (kill_only (sub_trans rfl hW)) (Only.after (leakAlert_only (sub_trans rfl hW)) (Only.after (fabricAlert_only (sub_trans rfl hW)) (h4)))
      · exact h4
    clear_value x5
    exact Only.after (startCheck_only (sub_trans rfl hW)) (Only.after (coolHealth_only (sub_trans rfl hW)) (h6))

theorem clearLeak_only {W : List Blk} {a0 : Machine.State} (hW : sub [.ao, .sup, .adit, .mgmt, .pump, .bus] W = true) : Only W a0 (clearLeak a0) := by
  unfold clearLeak
  extract_lets +onlyGivenNames -merge -useContext -underBinder x0
  try clear_value x0
  extract_lets +onlyGivenNames -merge -useContext -underBinder x1
  have h2 : Only W a0 x1 := by
    unfold x1
    exact polClearLeak_only (sub_trans rfl hW)
  clear_value x1
  refine Only.ite (fun _ => ?_) (fun _ => ?_)
  · exact Only.after (leakLifted_only (sub_trans rfl hW)) (Only.after (leakAlert_only (sub_trans rfl hW)) (h2))
  · exact h2

-- SKIP Sys2Proof.Machine.windowOpen

end Sys2Proof.Machine
end

