-- ==== Sys2Proof/Laws/FrameRegs.lean ====
section
/-! SUPPORT. Frame lemmas: the parts of the state that each operation may change, for the registers, the adits, the parts a command meets and the tick.
Each says of one operation that from the state it is given nothing but the parts it names changes. -/

namespace Sys2Proof.Machine

open Sys2Proof

theorem windowAccess_only {W : List Blk} {a0 : Nat} {a1 : Machine.State → Machine.State} {a2 : Machine.State} (hW : sub [.host] W = true) (g0 : ∀ v0, Only W v0 (a1 v0)) : Only W a2 (windowAccess a0 a1 a2) := by
  unfold windowAccess
  refine Only.ite (fun _ => ?_) (fun _ => ?_)
  · exact Only.rfl
  · extract_lets +onlyGivenNames -merge -useContext -underBinder x0
    have h1 : Only W a2 x0 := by
      unfold x0
      exact State.modHost_only (sub_trans rfl hW)
    clear_value x0
    refine Only.ite (fun _ => ?_) (fun _ => ?_)
    · exact Only.after (g0 _) (h1)
    · exact Only.after (aerUncorrectable_only (sub_trans rfl hW)) (h1)

theorem badSize_only {W : List Blk} {a0 : Nat} {a1 : Machine.State} (hW : sub [.host] W = true) : Only W a1 (badSize a0 a1) := by
  unfold badSize
  exact State.modFn_only (sub_trans rfl hW)

-- SKIP Sys2Proof.Machine.readFn
-- SKIP Sys2Proof.Machine.fmaxAll
-- SKIP Sys2Proof.Machine.pwrInfo
-- SKIP Sys2Proof.Machine.readPf
-- SKIP Sys2Proof.Machine.readMsix
-- SKIP Sys2Proof.Machine.readPba
-- SKIP Sys2Proof.Machine.readReg

theorem writeDblCtl_only {W : List Blk} {a0 : Nat} {a1 : Nat} {a2 : Machine.State} (hW : sub [.host] W = true) : Only W a2 (writeDblCtl a0 a1 a2) := by
  unfold writeDblCtl
  extract_lets +onlyGivenNames -merge -useContext -underBinder x0
  try clear_value x0
  extract_lets +onlyGivenNames -merge -useContext -underBinder x1
  have h2 : Only W a2 x1 := by
    unfold x1
    refine Only.ite (fun _ => ?_) (fun _ => ?_)
    · exact Only.rfl
    · exact State.modFn_only (sub_trans rfl hW)
  clear_value x1
  refine Only.ite (fun _ => ?_) (fun _ => ?_)
  · refine Only.ite (fun _ => ?_) (fun _ => ?_)
    · exact Only.after (State.modFn_only (sub_trans rfl hW)) (h2)
    · exact Only.after (dblCheck_only (sub_trans rfl hW)) (Only.after (State.modFn_only (sub_trans rfl hW)) (h2))
  · refine Only.ite (fun _ => ?_) (fun _ => ?_)
    · exact Only.after (dblCheck_only (sub_trans rfl hW)) (Only.after (State.modFn_only (sub_trans rfl hW)) (h2))
    · exact h2

theorem ringEnable_only {W : List Blk} {a0 : Nat} {a1 : Nat} {a2 : Machine.State} (hW : sub [.host, .rings] W = true) : Only W a2 (ringEnable a0 a1 a2) := by
  unfold ringEnable
  extract_lets +onlyGivenNames -merge -useContext -underBinder x0
  try clear_value x0
  extract_lets +onlyGivenNames -merge -useContext -underBinder x1
  try clear_value x1
  extract_lets +onlyGivenNames -merge -useContext -underBinder x2
  try clear_value x2
  extract_lets +onlyGivenNames -merge -useContext -underBinder x3
  try clear_value x3
  extract_lets +onlyGivenNames -merge -useContext -underBinder x4
  try clear_value x4
  refine Only.ite (fun _ => ?_) (fun _ => ?_)
  · exact State.modRpt_only (sub_trans rfl hW)
  · extract_lets +onlyGivenNames -merge -useContext -underBinder x5
    have h6 : Only W a2 x5 := by
      unfold x5
      exact State.modRing_only (sub_trans rfl hW)
    clear_value x5
    exact Only.after (dblCheck_only (sub_trans rfl hW)) (Only.after (State.modFn_only (sub_trans rfl hW)) (h6))

theorem ringDisable_only {W : List Blk} {a0 : Nat} {a1 : Nat} {a2 : Machine.State} (hW : sub [.free, .host, .rings, .cages, .beat, .mem, .mgmt, .links, .coll] W = true) : Only W a2 (ringDisable a0 a1 a2) := by
  unfold ringDisable
  extract_lets +onlyGivenNames -merge -useContext -underBinder x0
  try clear_value x0
  extract_lets +onlyGivenNames -merge -useContext -underBinder x1
  have h2 : Only W a2 x1 := by
    unfold x1
    exact State.modRing_only (sub_trans rfl hW)
  clear_value x1
  extract_lets +onlyGivenNames -merge -useContext -underBinder x3
  have h4 : Only W a2 x3 := by
    unfold x3
    split
    · refine Only.ite (fun _ => ?_) (fun _ => ?_)
      · exact h2
      · exact Only.after (swapOut_only (sub_trans rfl hW)) (h2)
    · exact h2
  clear_value x3
  exact Only.after (settle_only (sub_trans rfl hW)) (Only.after (dblCheck_only (sub_trans rfl hW)) (h4))

theorem writeRingCfg_only {W : List Blk} {a0 : Nat} {a1 : Nat} {a2 : Nat} {a3 : Machine.State} (hW : sub [.free, .host, .rings, .cages, .beat, .mem, .mgmt, .links, .coll] W = true) : Only W a3 (writeRingCfg a0 a1 a2 a3) := by
  unfold writeRingCfg
  extract_lets +onlyGivenNames -merge -useContext -underBinder x0
  try clear_value x0
  extract_lets +onlyGivenNames -merge -useContext -underBinder x1
  try clear_value x1
  extract_lets +onlyGivenNames -merge -useContext -underBinder x2
  have h3 : Only W a3 x2 := by
    unfold x2
    refine Only.ite (fun _ => ?_) (fun _ => ?_)
    · exact Only.rfl
    · exact State.modRing_only (sub_trans rfl hW)
  clear_value x2
  refine Only.ite (fun _ => ?_) (fun _ => ?_)
  · exact Only.after (ringEnable_only (sub_trans rfl hW)) (h3)
  · refine Only.ite (fun _ => ?_) (fun _ => ?_)
    · exact Only.after (ringDisable_only (sub_trans rfl hW)) (h3)
    · exact h3

theorem rptEnable_only {W : List Blk} {a0 : Nat} {a1 : Machine.State} (hW : sub [.rings] W = true) : Only W a1 (rptEnable a0 a1) := by
  unfold rptEnable
  extract_lets +onlyGivenNames -merge -useContext -underBinder x0
  try clear_value x0
  extract_lets +onlyGivenNames -merge -useContext -underBinder x1
  try clear_value x1
  extract_lets +onlyGivenNames -merge -useContext -underBinder x2
  try clear_value x2
  extract_lets +onlyGivenNames -merge -useContext -underBinder x3
  try clear_value x3
  exact State.modRpt_only (sub_trans rfl hW)

theorem rptDisable_only {W : List Blk} {a0 : Nat} {a1 : Machine.State} (hW : sub [.host, .rings] W = true) : Only W a1 (rptDisable a0 a1) := by
  unfold rptDisable
  extract_lets +onlyGivenNames -merge -useContext -underBinder x0
  have h1 : Only W a1 x0 := by
    unfold x0
    exact State.modRpt_only (sub_trans rfl hW)
  clear_value x0
  extract_lets +onlyGivenNames -merge -useContext -underBinder x2
  try clear_value x2
  extract_lets +onlyGivenNames -merge -useContext -underBinder x3
  have h4 : Only W a1 x3 := by
    unfold x3
    exact Only.after (State.modRings_only (sub_trans rfl hW)) (h1)
  clear_value x3
  refine Only.foldl (fun t5 _ => ?_) ?_
  · exact report_only (sub_trans rfl hW)
  · exact h4

theorem writeRptCfg_only {W : List Blk} {a0 : Nat} {a1 : Nat} {a2 : Machine.State} (hW : sub [.host, .rings] W = true) : Only W a2 (writeRptCfg a0 a1 a2) := by
  unfold writeRptCfg
  extract_lets +onlyGivenNames -merge -useContext -underBinder x0
  try clear_value x0
  extract_lets +onlyGivenNames -merge -useContext -underBinder x1
  have h2 : Only W a2 x1 := by
    unfold x1
    refine Only.ite (fun _ => ?_) (fun _ => ?_)
    · exact Only.rfl
    · exact State.modRpt_only (sub_trans rfl hW)
  clear_value x1
  refine Only.ite (fun _ => ?_) (fun _ => ?_)
  · exact Only.after (rptEnable_only (sub_trans rfl hW)) (h2)
  · refine Only.ite (fun _ => ?_) (fun _ => ?_)
    · exact Only.after (rptDisable_only (sub_trans rfl hW)) (h2)
    · exact h2

theorem writeLinkCtl_only {W : List Blk} {a0 : Nat} {a1 : Nat} {a2 : Machine.State} (hW : sub [.host, .rings, .links, .coll] W = true) : Only W a2 (writeLinkCtl a0 a1 a2) := by
  unfold writeLinkCtl
  extract_lets +onlyGivenNames -merge -useContext -underBinder x0
  try clear_value x0
  extract_lets +onlyGivenNames -merge -useContext -underBinder x1
  have h2 : Only W a2 x1 := by
    unfold x1
    refine Only.ite (fun _ => ?_) (fun _ => ?_)
    · exact Only.rfl
    · exact State.modLink_only (sub_trans rfl hW)
  clear_value x1
  refine Only.ite (fun _ => ?_) (fun _ => ?_)
  · extract_lets +onlyGivenNames -merge -useContext -underBinder x3
    have h4 : Only W a2 x3 := by
      unfold x3
      exact Only.after (State.modLink_only (sub_trans rfl hW)) (h2)
    clear_value x3
    refine Only.ite (fun _ => ?_) (fun _ => ?_)
    · exact Only.after (train_only (sub_trans rfl hW)) (h4)
    · exact h4
  · refine Only.ite (fun _ => ?_) (fun _ => ?_)
    · extract_lets +onlyGivenNames -merge -useContext -underBinder x5
      try clear_value x5
      extract_lets +onlyGivenNames -merge -useContext -underBinder x6
      have h7 : Only W a2 x6 := by
        unfold x6
        exact Only.after (State.modLink_only (sub_trans rfl hW)) (h2)
      clear_value x6
      refine Only.ite (fun _ => ?_) (fun _ => ?_)
      · exact Only.after (resetLink_only (sub_trans rfl hW)) (h7)
      · exact Only.after (linkRec_only (sub_trans rfl hW)) (Only.after (State.modLink_only (sub_trans rfl hW)) (h7))
    · exact h2

theorem writeTraceCtl_only {W : List Blk} {a0 : Nat} {a1 : Machine.State} (hW : sub [.mgmt] W = true) : Only W a1 (writeTraceCtl a0 a1) := by
  unfold writeTraceCtl
  exact State.modMgmt_only (sub_trans rfl hW)

theorem writeCollCtl_only {W : List Blk} {a0 : Nat} {a1 : Machine.State} (hW : sub [.coll] W = true) : Only W a1 (writeCollCtl a0 a1) := by
  unfold writeCollCtl
  refine Only.ite (fun _ => ?_) (fun _ => ?_)
  · exact Only.rfl
  · exact State.modColl_only (sub_trans rfl hW)

theorem writeW1c_only {W : List Blk} {a0 : Nat} {a1 : Nat} {a2 : Nat} {a3 : Machine.State} (hW : sub [.host, .rings] W = true) : Only W a3 (writeW1c a0 a1 a2 a3) := by
  unfold writeW1c
  refine Only.ite (fun _ => ?_) (fun _ => ?_)
  · exact State.modFn_only (sub_trans rfl hW)
  · refine Only.ite (fun _ => ?_) (fun _ => ?_)
    · exact State.modRpt_only (sub_trans rfl hW)
    · exact Only.rfl

theorem writeLocked_only {W : List Blk} {a0 : Nat} {a1 : Nat} {a2 : Machine.State} (hW : sub [.adit, .beat] W = true) : Only W a2 (writeLocked a0 a1 a2) := by
  unfold writeLocked
  refine Only.ite (fun _ => ?_) (fun _ => ?_)
  · exact Only.rfl
  · refine Only.ite (fun _ => ?_) (fun _ => ?_)
    · refine Only.after (forEach_only (fun _ t0 => ?_)) ?_
      · exact State.modBeat_only (sub_trans rfl hW)
      · exact Only.rfl
    · refine Only.ite (fun _ => ?_) (fun _ => ?_)
      · exact a3Up_only (sub_trans rfl hW)
      · exact Only.rfl

theorem writeSetup_only {W : List Blk} {a0 : Nat} {a1 : Nat} {a2 : W32} {a3 : Machine.State} (hW : sub [.free, .adit, .host, .rings, .cages, .beat, .mem, .mgmt, .links, .coll] W = true) : Only W a3 (writeSetup a0 a1 a2 a3) := by
  unfold writeSetup
  extract_lets +onlyGivenNames -merge -useContext -underBinder x0
  try clear_value x0
  refine Only.ite (fun _ => ?_) (fun _ => ?_)
  · exact Only.ite (fun _ => Only.rfl) (fun _ => State.modFn_only (sub_trans rfl hW))
  · refine Only.ite (fun _ => ?_) (fun _ => ?_)
    · exact writeDblCtl_only (sub_trans rfl hW)
    · refine Only.ite (fun _ => ?_) (fun _ => ?_)
      · exact writeW1c_only (sub_trans rfl hW)
      · refine Only.ite (fun _ => ?_) (fun _ => ?_)
        · exact Only.ite (fun _ => Only.rfl) (fun _ => State.modRpt_only (sub_trans rfl hW))
        · refine Only.ite (fun _ => ?_) (fun _ => ?_)
          · exact writeRptCfg_only (sub_trans rfl hW)
          · refine Only.ite (fun _ => ?_) (fun _ => ?_)
            · extract_lets +onlyGivenNames -merge -useContext -underBinder x1
              try clear_value x1
              extract_lets +onlyGivenNames -merge -useContext -underBinder x2
              try clear_value x2
              refine Only.ite (fun _ => ?_) (fun _ => ?_)
              · exact Only.ite (fun _ => Only.rfl) (fun _ => State.modRing_only (sub_trans rfl hW))
              · refine Only.ite (fun _ => ?_) (fun _ => ?_)
                · exact Only.ite (fun _ => Only.rfl) (fun _ => State.modRing_only (sub_trans rfl hW))
                · refine Only.ite (fun _ => ?_) (fun _ => ?_)
                  · exact writeRingCfg_only (sub_trans rfl hW)
                  · exact Only.rfl
            · refine Only.ite (fun _ => ?_) (fun _ => ?_)
              · exact Only.rfl
              · refine Only.ite (fun _ => ?_) (fun _ => ?_)
                · exact scrubWrite_only (sub_trans rfl hW)
                · refine Only.ite (fun _ => ?_) (fun _ => ?_)
                  · exact writeLinkCtl_only (sub_trans rfl hW)
                  · refine Only.ite (fun _ => ?_) (fun _ => ?_)
                    · exact writeCollCtl_only (sub_trans rfl hW)
                    · refine Only.ite (fun _ => ?_) (fun _ => ?_)
                      · exact writeTraceCtl_only (sub_trans rfl hW)
                      · exact writeLocked_only (sub_trans rfl hW)

theorem writeMsix_only {W : List Blk} {a0 : Nat} {a1 : Nat} {a2 : W32} {a3 : Machine.State} (hW : sub [.host] W = true) : Only W a3 (writeMsix a0 a1 a2 a3) := by
  unfold writeMsix
  extract_lets +onlyGivenNames -merge -useContext -underBinder x0
  try clear_value x0
  refine Only.ite (fun _ => ?_) (fun _ => ?_)
  · exact Only.rfl
  · split
    · exact modVec_only (sub_trans rfl hW)
    · exact modVec_only (sub_trans rfl hW)
    · exact modVec_only (sub_trans rfl hW)
    · exact Only.after (flushMsi_only (sub_trans rfl hW)) (modVec_only (sub_trans rfl hW))

theorem write4_only {W : List Blk} {a0 : Nat} {a1 : Nat} {a2 : W32} {a3 : Machine.State} (hW : sub [.free, .adit, .host, .rings, .cages, .beat, .mem, .mgmt, .links, .coll] W = true) : Only W a3 (write4 a0 a1 a2 a3) := by
  unfold write4
  refine Only.ite (fun _ => ?_) (fun _ => ?_)
  · exact writeSetup_only (sub_trans rfl hW)
  · refine Only.ite (fun _ => ?_) (fun _ => ?_)
    · exact writeMsix_only (sub_trans rfl hW)
    · exact Only.rfl

theorem writeReg_only {W : List Blk} {a0 : Nat} {a1 : Nat} {a2 : Nat} {a3 : W64} {a4 : Machine.State} (hW : sub [.free, .adit, .host, .rings, .cages, .beat, .mem, .mgmt, .links, .coll] W = true) : Only W a4 (writeReg a0 a1 a2 a3 a4) := by
  unfold writeReg
  refine Only.after (windowAccess_only (sub_trans rfl hW) (fun t0 => ?_)) ?_
  · refine Only.ite (fun _ => ?_) (fun _ => ?_)
    · extract_lets +onlyGivenNames -merge -useContext -underBinder x1
      have h2 : Only W t0 x1 := by
        unfold x1
        exact write4_only (sub_trans rfl hW)
      clear_value x1
      refine Only.ite (fun _ => ?_) (fun _ => ?_)
      · exact Only.after (write4_only (sub_trans rfl hW)) (h2)
      · exact h2
    · refine Only.ite (fun _ => ?_) (fun _ => ?_)
      · exact badSize_only (sub_trans rfl hW)
      · exact Only.rfl
  · exact Only.rfl

theorem writeRow_only {W : List Blk} {a0 : Nat} {a1 : Nat} {a2 : Nat} {a3 : Machine.State} (hW : sub [.free, .adit, .host, .rings, .cages, .beat, .mem, .mgmt, .links, .coll] W = true) : Only W a3 (writeRow a0 a1 a2 a3) := by
  unfold writeRow
  refine Only.after (windowAccess_only (sub_trans rfl hW) (fun t0 => ?_)) ?_
  · exact write4_only (sub_trans rfl hW)
  · exact Only.rfl

theorem applyMargin_only {W : List Blk} {a0 : Nat} {a1 : Machine.State} (hW : sub [.beat, .mgmt] W = true) : Only W a1 (applyMargin a0 a1) := by
  unfold applyMargin
  extract_lets +onlyGivenNames -merge -useContext -underBinder x0
  try clear_value x0
  refine Only.ite (fun _ => ?_) (fun _ => ?_)
  · exact Only.rfl
  · exact Only.after (State.modGroup_only (sub_trans rfl hW)) (traceAdd_only (sub_trans rfl hW))

theorem a1In_only {W : List Blk} {a0 : BitVec 112} {a1 : Machine.State} (hW : sub [.beat, .mgmt] W = true) : Only W a1 (a1In a0 a1) := by
  unfold a1In
  refine Only.ite (fun _ => ?_) (fun _ => ?_)
  · exact Only.rfl
  · extract_lets +onlyGivenNames -merge -useContext -underBinder x0
    try clear_value x0
    extract_lets +onlyGivenNames -merge -useContext -underBinder x1
    have h2 : Only W a1 x1 := by
      unfold x1
      exact State.modBeat_only (sub_trans rfl hW)
    clear_value x1
    refine Only.after (forEach_only (fun _ t3 => ?_)) ?_
    · exact Only.after (applyMargin_only (sub_trans rfl hW)) (State.modGroup_only (sub_trans rfl hW))
    · exact h2

theorem a1Stale_only {W : List Blk} {a0 : Machine.State} (hW : sub [.beat] W = true) : Only W a0 (a1Stale a0) := by
  unfold a1Stale
  refine Only.ite (fun _ => ?_) (fun _ => ?_)
  · exact State.modBeat_only (sub_trans rfl hW)
  · exact Only.rfl

-- SKIP Sys2Proof.Machine.a2Rec
-- SKIP Sys2Proof.Machine.a2Stack
-- SKIP Sys2Proof.Machine.a2Frame

theorem a2Close_only {W : List Blk} {a0 : Machine.State} (hW : sub [.adit, .beat, .mem] W = true) : Only W a0 (a2Close a0) := by
  unfold a2Close
  refine Only.ite (fun _ => ?_) (fun _ => ?_)
  · exact Only.rfl
  · extract_lets +onlyGivenNames -merge -useContext -underBinder x0
    try clear_value x0
    extract_lets +onlyGivenNames -merge -useContext -underBinder x1
    have h2 : Only W a0 x1 := by
      unfold x1
      exact State.modAdit_only (sub_trans rfl hW)
    clear_value x1
    extract_lets +onlyGivenNames -merge -useContext -underBinder x3
    have h4 : Only W a0 x3 := by
      unfold x3
      exact Only.after (State.modBeat_only (sub_trans rfl hW)) (h2)
    clear_value x3
    extract_lets +onlyGivenNames -merge -useContext -underBinder x5
    have h6 : Only W a0 x5 := by
      unfold x5
      refine Only.after (forEach_only (fun _ t7 => ?_)) ?_
      · exact State.modClus_only (sub_trans rfl hW)
      · exact h4
    clear_value x5
    refine Only.ite (fun _ => ?_) (fun _ => ?_)
    · refine Only.after (forEach_only (fun _ t8 => ?_)) ?_
      · exact State.modStack_only (sub_trans rfl hW)
      · exact h6
    · exact h6

theorem a6Deliver_only {W : List Blk} {a0 : Machine.State} (hW : sub [.adit, .host, .rings] W = true) : Only W a0 (a6Deliver a0) := by
  unfold a6Deliver
  refine Only.ite (fun _ => ?_) (fun _ => ?_)
  · exact Only.rfl
  · split
    · exact Only.rfl
    · extract_lets +onlyGivenNames -merge -useContext -underBinder x0
      try clear_value x0
      extract_lets +onlyGivenNames -merge -useContext -underBinder x1
      have h2 : Only W a0 x1 := by
        unfold x1
        exact State.modAdit_only (sub_trans rfl hW)
      clear_value x1
      extract_lets +onlyGivenNames -merge -useContext -underBinder x3
      have h4 : Only W a0 x3 := by
        unfold x3
        exact Only.after (report_only (sub_trans rfl hW)) (Only.after (State.modRings_only (sub_trans rfl hW)) (h2))
      clear_value x3
      refine Only.ite (fun _ => ?_) (fun _ => ?_)
      · exact Only.after (report_only (sub_trans rfl hW)) (h4)
      · exact h4

theorem mirrorIn_only {W : List Blk} {a0 : Machine.State} (hW : sub [.adit] W = true) : Only W a0 (mirrorIn a0) := by
  unfold mirrorIn
  refine Only.ite (fun _ => ?_) (fun _ => ?_)
  · exact Only.rfl
  · split
    · exact Only.rfl
    · exact State.modAdit_only (sub_trans rfl hW)

theorem takeDown_only {W : List Blk} {a0 : Type} {a1 : A3Msg → Option a0} {a2 : a0 → Machine.State → Machine.State} {a3 : Machine.State} (hW : sub [.adit] W = true) (g0 : ∀ v0 v1, Only W v1 (a2 v0 v1)) : Only W a3 (takeDown a1 a2 a3) := by
  unfold takeDown
  refine Only.ite (fun _ => ?_) (fun _ => ?_)
  · exact Only.rfl
  · split
    · exact Only.rfl
    · split
      · exact Only.after (g0 _ _) (State.modAdit_only (sub_trans rfl hW))
      · exact Only.rfl

-- SKIP Sys2Proof.Machine.offeredAdm

theorem takeHold_only {W : List Blk} {a0 : Machine.State} (hW : sub [.adit] W = true) : Only W a0 (takeHold a0) := by
  unfold takeHold
  refine Only.after (takeDown_only (sub_trans rfl hW) (fun _ t0 => ?_)) ?_
  · exact Only.rfl
  · exact Only.rfl

theorem takeRelease_only {W : List Blk} {a0 : Machine.State} (hW : sub [.free, .adit, .host, .rings, .cages, .beat, .mem, .mgmt, .links, .coll] W = true) : Only W a0 (takeRelease a0) := by
  unfold takeRelease
  refine Only.after (takeDown_only (sub_trans rfl hW) (fun _ t0 => ?_)) ?_
  · split
    · exact Only.rfl
    · exact Only.after (settle_only (sub_trans rfl hW)) (Only.after (startProgram_only (sub_trans rfl hW)) (State.modAdm_only (sub_trans rfl hW)))
  · exact Only.rfl

theorem takeRefuse_only {W : List Blk} {a0 : Machine.State} (hW : sub [.free, .adit, .host, .rings, .cages, .beat, .mem, .mgmt, .links, .coll] W = true) : Only W a0 (takeRefuse a0) := by
  unfold takeRefuse
  refine Only.after (takeDown_only (sub_trans rfl hW) (fun _ t0 => ?_)) ?_
  · split
    · exact Only.rfl
    · exact Only.after (settle_only (sub_trans rfl hW)) (Only.after (failAdm_only (sub_trans rfl hW)) (State.modAdm_only (sub_trans rfl hW)))
  · exact Only.rfl

theorem offerBackstop_only {W : List Blk} {a0 : Nat} {a1 : Machine.State} (hW : sub [.free, .adit, .host, .rings, .cages, .beat, .mem, .mgmt, .links, .coll] W = true) : Only W a1 (offerBackstop a0 a1) := by
  unfold offerBackstop
  split
  · exact Only.rfl
  · refine Only.ite (fun _ => ?_) (fun _ => ?_)
    · exact Only.after (settle_only (sub_trans rfl hW)) (Only.after (failAdm_only (sub_trans rfl hW)) (withdraw_only (sub_trans rfl hW)))
    · exact Only.rfl

theorem takePermit_only {W : List Blk} {a0 : Bytes} {a1 : Machine.State} (hW : sub [.cages] W = true) : Only W a1 (takePermit a0 a1) := by
  unfold takePermit
  extract_lets +onlyGivenNames -merge -useContext -underBinder x0
  try clear_value x0
  refine Only.ite (fun _ => ?_) (fun _ => ?_)
  · exact Only.rfl
  · exact State.modCages_only (sub_trans rfl hW)

theorem takePolicyAck_only {W : List Blk} {a0 : Machine.State} (hW : sub [.free, .adit, .host, .rings, .cages, .beat, .mem, .mgmt, .links, .coll] W = true) : Only W a0 (takePolicyAck a0) := by
  unfold takePolicyAck
  refine Only.after (takeDown_only (sub_trans rfl hW) (fun _ t0 => ?_)) ?_
  · split
    · exact Only.rfl
    · extract_lets +onlyGivenNames -merge -useContext -underBinder x1
      have h2 : Only W t0 x1 := by
        unfold x1
        exact State.modRings_only (sub_trans rfl hW)
      clear_value x1
      extract_lets +onlyGivenNames -merge -useContext -underBinder x3
      have h4 : Only W t0 x3 := by
        unfold x3
        refine Only.ite (fun _ => ?_) (fun _ => ?_)
        · exact Only.after (takePermit_only (sub_trans rfl hW)) (h2)
        · exact h2
      clear_value x3
      exact Only.after (settle_only (sub_trans rfl hW)) (Only.after (endCmd_only (sub_trans rfl hW)) (h4))
  · exact Only.rfl

theorem policyTimeout_only {W : List Blk} {a0 : Nat} {a1 : Machine.State} (hW : sub [.free, .host, .rings, .cages, .beat, .mem, .mgmt, .links, .coll] W = true) : Only W a1 (policyTimeout a0 a1) := by
  unfold policyTimeout
  refine Only.ite (fun _ => ?_) (fun _ => ?_)
  · exact Only.after (settle_only (sub_trans rfl hW)) (Only.after (endCmd_only (sub_trans rfl hW)) (State.modRings_only (sub_trans rfl hW)))
  · exact Only.rfl

theorem takePolicy_only {W : List Blk} {a0 : Machine.State} (hW : sub [.adit, .mgmt, .pump] W = true) : Only W a0 (takePolicy a0) := by
  unfold takePolicy
  refine Only.ite (fun _ => ?_) (fun _ => ?_)
  · exact Only.rfl
  · refine Only.after (takeA3_only (sub_trans rfl hW) (fun _ t0 => ?_)) ?_
    · split
      · exact mctpPacket_only (sub_trans rfl hW)
      · exact State.modPump_only (sub_trans rfl hW)
      · extract_lets +onlyGivenNames -merge -useContext -underBinder x1
        have h2 : Only W t0 x1 := by
          unfold x1
          exact hostActive_only (sub_trans rfl hW)
        clear_value x1
        refine Only.ite (fun _ => ?_) (fun _ => ?_)
        · exact Only.after (policyAck_only (sub_trans rfl hW)) (h2)
        · refine Only.ite (fun _ => ?_) (fun _ => ?_)
          · exact Only.after (policyAck_only (sub_trans rfl hW)) (h2)
          · exact Only.after (State.modMgmt_only (sub_trans rfl hW)) (h2)
    · exact Only.rfl

theorem offerIn_only {W : List Blk} {a0 : Machine.State} (hW : sub [.adit, .mgmt, .heat, .pump] W = true) : Only W a0 (offerIn a0) := by
  unfold offerIn
  refine Only.after (takeA3_only (sub_trans rfl hW) (fun _ t0 => ?_)) ?_
  · exact Only.after (takeOffer_only (sub_trans rfl hW)) (hostActive_only (sub_trans rfl hW))
  · exact Only.rfl

theorem startIn_only {W : List Blk} {a0 : Machine.State} (hW : sub [.adit, .mgmt, .power, .heat, .pump] W = true) : Only W a0 (startIn a0) := by
  unfold startIn
  refine Only.after (takeA3_only (sub_trans rfl hW) (fun _ t0 => ?_)) ?_
  · exact Only.after (takeStart_only (sub_trans rfl hW)) (hostActive_only (sub_trans rfl hW))
  · exact Only.rfl

theorem finishIn_only {W : List Blk} {a0 : Machine.State} (hW : sub [.adit, .mgmt, .power, .heat, .pump] W = true) : Only W a0 (finishIn a0) := by
  unfold finishIn
  refine Only.after (takeA3_only (sub_trans rfl hW) (fun _ t0 => ?_)) ?_
  · exact Only.after (takeFinish_only (sub_trans rfl hW)) (hostActive_only (sub_trans rfl hW))
  · exact Only.rfl

theorem withdrawIn_only {W : List Blk} {a0 : Machine.State} (hW : sub [.adit, .heat, .pump] W = true) : Only W a0 (withdrawIn a0) := by
  unfold withdrawIn
  refine Only.after (takeA3_only (sub_trans rfl hW) (fun _ t0 => ?_)) ?_
  · exact takeWithdraw_only (sub_trans rfl hW)
  · exact Only.rfl

theorem mctpVdm_only {W : List Blk} {a0 : Nat} {a1 : Bytes} {a2 : Machine.State} (hW : sub [.adit, .rings] W = true) : Only W a2 (mctpVdm a0 a1 a2) := by
  unfold mctpVdm
  refine Only.ite (fun _ => ?_) (fun _ => ?_)
  · exact Only.rfl
  · refine Only.ite (fun _ => ?_) (fun _ => ?_)
    · exact State.modRings_only (sub_trans rfl hW)
    · exact a3Up_only (sub_trans rfl hW)

theorem mgmtTurn_only {W : List Blk} {a0 : Machine.State → Machine.State} {a1 : Machine.State} (hW : sub [.adit, .mgmt] W = true) (g0 : ∀ v0, Only W v0 (a0 v0)) : Only W a1 (mgmtTurn a0 a1) := by
  unfold mgmtTurn
  refine Only.ite (fun _ => ?_) (fun _ => ?_)
  · exact Only.after (watch_only (sub_trans rfl hW)) (g0 _)
  · exact Only.rfl

theorem edgeTurn_only {W : List Blk} {a0 : Machine.State → Machine.State} {a1 : Machine.State} (hW : sub [.adit, .mgmt] W = true) (g0 : ∀ v0, Only W v0 (a0 v0)) : Only W a1 (edgeTurn a0 a1) := by
  unfold edgeTurn
  exact Only.after (watch_only (sub_trans rfl hW)) (g0 _)

theorem ctlTurn_only {W : List Blk} {a0 : Machine.State → Machine.State} {a1 : Machine.State} (hW : sub [.free, .host, .rings, .cages, .beat, .mem, .mgmt, .links, .coll] W = true) (g0 : ∀ v0, Only W v0 (a0 v0)) : Only W a1 (ctlTurn a0 a1) := by
  unfold ctlTurn
  refine Only.ite (fun _ => ?_) (fun _ => ?_)
  · exact Only.after (settle_only (sub_trans rfl hW)) (g0 _)
  · exact Only.rfl

theorem dataTurn_only {W : List Blk} {a0 : Machine.State → Machine.State} {a1 : Machine.State} (hW : sub [.free, .host, .rings, .cages, .beat, .mem, .mgmt, .links, .coll] W = true) (g0 : ∀ v0, Only W v0 (a0 v0)) : Only W a1 (dataTurn a0 a1) := by
  unfold dataTurn
  refine Only.ite (fun _ => ?_) (fun _ => ?_)
  · exact Only.after (settle_only (sub_trans rfl hW)) (g0 _)
  · exact Only.rfl

theorem linkTurn_only {W : List Blk} {a0 : Nat} {a1 : Machine.State → Machine.State} {a2 : Machine.State} (hW : sub [.free, .host, .rings, .cages, .beat, .mem, .mgmt, .links, .coll] W = true) (g0 : ∀ v0, Only W v0 (a1 v0)) : Only W a2 (linkTurn a0 a1 a2) := by
  unfold linkTurn
  refine Only.ite (fun _ => ?_) (fun _ => ?_)
  · refine Only.after (dataTurn_only (sub_trans rfl hW) (fun t0 => ?_)) ?_
    · exact Only.after (linkSettle_only (sub_trans rfl hW)) (g0 _)
    · exact Only.rfl
  · exact Only.rfl

theorem cfgTurn_only {W : List Blk} {a0 : Nat} {a1 : Machine.State → Machine.State} {a2 : Machine.State} (hW : sub [.free, .host, .rings, .cages, .beat, .mem, .mgmt, .links, .coll] W = true) (g0 : ∀ v0, Only W v0 (a1 v0)) : Only W a2 (cfgTurn a0 a1 a2) := by
  unfold cfgTurn
  refine Only.ite (fun _ => ?_) (fun _ => ?_)
  · exact Only.rfl
  · refine Only.ite (fun _ => ?_) (fun _ => ?_)
    · exact reply_only (sub_trans rfl hW)
    · refine Only.ite (fun _ => ?_) (fun _ => ?_)
      · exact Only.after (reply_only (sub_trans rfl hW)) (aerUncorrectable_only (sub_trans rfl hW))
      · refine Only.ite (fun _ => ?_) (fun _ => ?_)
        · exact reply_only (sub_trans rfl hW)
        · exact Only.after (settle_only (sub_trans rfl hW)) (Only.after (reply_only (sub_trans rfl hW)) (g0 _))

theorem onlyIf_only {W : List Blk} {a0 : Machine.State → Bool} {a1 : Machine.State → Machine.State} {a2 : Machine.State} (hW : sub [] W = true) (g0 : ∀ v0, Only W v0 (a1 v0)) : Only W a2 (onlyIf a0 a1 a2) := by
  unfold onlyIf
  refine Only.ite (fun _ => ?_) (fun _ => ?_)
  · exact g0 _
  · exact Only.rfl

theorem setAts_only {W : List Blk} {a0 : Nat} {a1 : Bool} {a2 : Machine.State} (hW : sub [.host] W = true) : Only W a2 (setAts a0 a1 a2) := by
  unfold setAts
  exact Only.after (dropAtc_only (sub_trans rfl hW)) (State.modFn_only (sub_trans rfl hW))

theorem busMasterOff_only {W : List Blk} {a0 : Nat} {a1 : Machine.State} (hW : sub [.host] W = true) : Only W a1 (busMasterOff a0 a1) := by
  unfold busMasterOff
  exact Only.after (dblCheck_only (sub_trans rfl hW)) (State.modFn_only (sub_trans rfl hW))

theorem busMasterSet_only {W : List Blk} {a0 : Nat} {a1 : Machine.State} (hW : sub [.free, .host, .rings, .cages, .beat, .mem, .mgmt, .links, .coll] W = true) : Only W a1 (busMasterSet a0 a1) := by
  unfold busMasterSet
  refine Only.ite (fun _ => ?_) (fun _ => ?_)
  · exact Only.rfl
  · exact busMasterOn_only (sub_trans rfl hW)

theorem windowError_only {W : List Blk} {a0 : Nat} {a1 : AerErr} {a2 : Machine.State} (hW : sub [.host] W = true) : Only W a2 (windowError a0 a1 a2) := by
  unfold windowError
  exact aerUncorrectable_only (sub_trans rfl hW)

theorem ecrcFail_only {W : List Blk} {a0 : Nat} {a1 : Option ReadRef} {a2 : Machine.State} (hW : sub [.free, .host, .rings, .cages, .beat, .mem, .mgmt] W = true) : Only W a2 (ecrcFail a0 a1 a2) := by
  unfold ecrcFail
  refine Only.ite (fun _ => ?_) (fun _ => ?_)
  · exact Only.rfl
  · split
    · exact windowError_only (sub_trans rfl hW)
    · exact readLost_only (sub_trans rfl hW)

theorem fatalInternal_only {W : List Blk} {a0 : Machine.State} (hW : sub [.host] W = true) : Only W a0 (fatalInternal a0) := by
  unfold fatalInternal
  exact Only.after (State.modHost_only (sub_trans rfl hW)) (aerUncorrectable_only (sub_trans rfl hW))

theorem enterL1_only {W : List Blk} {a0 : Machine.State} (hW : sub [.host] W = true) : Only W a0 (enterL1 a0) := by
  unfold enterL1
  refine Only.ite (fun _ => ?_) (fun _ => ?_)
  · exact State.modHost_only (sub_trans rfl hW)
  · exact Only.rfl

theorem msixUnmask_only {W : List Blk} {a0 : Nat} {a1 : Nat} {a2 : Machine.State} (hW : sub [.host] W = true) : Only W a2 (msixUnmask a0 a1 a2) := by
  unfold msixUnmask
  refine Only.ite (fun _ => ?_) (fun _ => ?_)
  · exact Only.after (flushMsi_only (sub_trans rfl hW)) (modVec_only (sub_trans rfl hW))
  · exact Only.rfl

theorem dblPoll_only {W : List Blk} {a0 : Nat} {a1 : Machine.State} (hW : sub [.host] W = true) : Only W a1 (dblPoll a0 a1) := by
  unfold dblPoll
  refine Only.ite (fun _ => ?_) (fun _ => ?_)
  · exact Only.rfl
  · exact issueDoorbell_only (sub_trans rfl hW)

theorem lnMessage_only {W : List Blk} {a0 : Nat} {a1 : Machine.State} (hW : sub [.host] W = true) : Only W a1 (lnMessage a0 a1) := by
  unfold lnMessage
  refine Only.ite (fun _ => ?_) (fun _ => ?_)
  · exact Only.after (issueDoorbell_only (sub_trans rfl hW)) (State.modFn_only (sub_trans rfl hW))
  · exact Only.rfl

theorem lnBackstop_only {W : List Blk} {a0 : Nat} {a1 : Machine.State} (hW : sub [.host] W = true) : Only W a1 (lnBackstop a0 a1) := by
  unfold lnBackstop
  refine Only.ite (fun _ => ?_) (fun _ => ?_)
  · exact issueDoorbell_only (sub_trans rfl hW)
  · exact Only.rfl

theorem dblTagFree_only {W : List Blk} {a0 : Nat} {a1 : Machine.State} (hW : sub [.host] W = true) : Only W a1 (dblTagFree a0 a1) := by
  unfold dblTagFree
  split
  · exact Only.rfl
  · refine Only.ite (fun _ => ?_) (fun _ => ?_)
    · exact issueDoorbell_only (sub_trans rfl hW)
    · exact Only.rfl

theorem dblComplete_only {W : List Blk} {a0 : Nat} {a1 : ReadResult} {a2 : Machine.State} (hW : sub [.host, .rings] W = true) : Only W a2 (dblComplete a0 a1 a2) := by
  unfold dblComplete
  refine Only.ite (fun _ => ?_) (fun _ => ?_)
  · exact Only.rfl
  · split
    · refine Only.ite (fun _ => ?_) (fun _ => ?_)
      · refine Only.after (popDoorbell_only (sub_trans rfl hW) (fun _ t0 => ?_)) ?_
        · exact dblData_only (sub_trans rfl hW)
        · exact Only.rfl
      · exact Only.rfl
    · refine Only.after (popDoorbell_only (sub_trans rfl hW) (fun _ t1 => ?_)) ?_
      · exact dblFailed_only (sub_trans rfl hW)
      · exact aerUncorrectable_only (sub_trans rfl hW)
    · refine Only.after (popDoorbell_only (sub_trans rfl hW) (fun _ t2 => ?_)) ?_
      · exact dblFailed_only (sub_trans rfl hW)
      · exact Only.rfl

theorem swapDone_only {W : List Blk} {a0 : Nat} {a1 : Machine.State} (hW : sub [.rings] W = true) : Only W a1 (swapDone a0 a1) := by
  unfold swapDone
  refine Only.ite (fun _ => ?_) (fun _ => ?_)
  · exact State.modSlot_only (sub_trans rfl hW)
  · exact Only.rfl

theorem slotLoaded_only {W : List Blk} {a0 : Nat} {a1 : Machine.State} (hW : sub [.rings] W = true) : Only W a1 (slotLoaded a0 a1) := by
  unfold slotLoaded
  refine Only.ite (fun _ => ?_) (fun _ => ?_)
  · exact State.modSlot_only (sub_trans rfl hW)
  · exact Only.rfl

theorem idleOut_only {W : List Blk} {a0 : Nat} {a1 : Machine.State} (hW : sub [.rings] W = true) : Only W a1 (idleOut a0 a1) := by
  unfold idleOut
  refine Only.ite (fun _ => ?_) (fun _ => ?_)
  · exact swapOut_only (sub_trans rfl hW)
  · exact Only.rfl

theorem boundLong_only {W : List Blk} {a0 : Nat} {a1 : Machine.State} (hW : sub [.rings] W = true) : Only W a1 (boundLong a0 a1) := by
  unfold boundLong
  refine Only.ite (fun _ => ?_) (fun _ => ?_)
  · exact State.modSlot_only (sub_trans rfl hW)
  · exact Only.rfl

theorem descrComplete_only {W : List Blk} {a0 : Nat} {a1 : Bytes} {a2 : Option ReadFail} {a3 : Machine.State} (hW : sub [.host, .rings] W = true) : Only W a3 (descrComplete a0 a1 a2 a3) := by
  unfold descrComplete
  split
  · exact Only.rfl
  · split
    · refine Only.ite (fun _ => ?_) (fun _ => ?_)
      · exact descrArrive_only (sub_trans rfl hW)
      · exact Only.rfl
    · exact Only.after (descrArrive_only (sub_trans rfl hW)) (aerUncorrectable_only (sub_trans rfl hW))
    · exact descrArrive_only (sub_trans rfl hW)

-- SKIP Sys2Proof.Machine.waiting
-- SKIP Sys2Proof.Machine.waitCounter

theorem waitReached_only {W : List Blk} {a0 : Nat} {a1 : Machine.State} (hW : sub [.rings] W = true) : Only W a1 (waitReached a0 a1) := by
  unfold waitReached
  refine Only.ite (fun _ => ?_) (fun _ => ?_)
  · exact endOk_only (sub_trans rfl hW)
  · exact Only.rfl

theorem waitTimeout_only {W : List Blk} {a0 : Nat} {a1 : Machine.State} (hW : sub [.rings] W = true) : Only W a1 (waitTimeout a0 a1) := by
  unfold waitTimeout
  refine Only.ite (fun _ => ?_) (fun _ => ?_)
  · exact endCmd_only (sub_trans rfl hW)
  · exact Only.rfl

theorem pinResume_only {W : List Blk} {a0 : Nat} {a1 : Machine.State} (hW : sub [.rings] W = true) : Only W a1 (pinResume a0 a1) := by
  unfold pinResume
  extract_lets +onlyGivenNames -merge -useContext -underBinder x0
  try clear_value x0
  refine Only.ite (fun _ => ?_) (fun _ => ?_)
  · exact State.modCtx_only (sub_trans rfl hW)
  · exact Only.rfl

theorem endCageCmds_only {W : List Blk} {a0 : Nat} {a1 : Machine.State} (hW : sub [.rings, .cages] W = true) : Only W a1 (endCageCmds a0 a1) := by
  unfold endCageCmds
  refine Only.after (forEach_only (fun _ t0 => ?_)) ?_
  · extract_lets +onlyGivenNames -merge -useContext -underBinder x1
    try clear_value x1
    refine Only.ite (fun _ => ?_) (fun _ => ?_)
    · exact Only.after (endCmd_only (sub_trans rfl hW)) (cancelPlans_only (sub_trans rfl hW))
    · exact Only.rfl
  · exact Only.rfl

theorem bodyDestroy_only {W : List Blk} {a0 : Nat} {a1 : Machine.State} (hW : sub [.free, .adit, .host, .rings, .cages, .beat, .mem, .mgmt, .links, .coll] W = true) : Only W a1 (bodyDestroy a0 a1) := by
  unfold bodyDestroy
  extract_lets +onlyGivenNames -merge -useContext -underBinder x0
  try clear_value x0
  split
  · exact endCmd_only (sub_trans rfl hW)
  · exact endCmd_only (sub_trans rfl hW)
  · exact endCmd_only (sub_trans rfl hW)
  · extract_lets +onlyGivenNames -merge -useContext -underBinder x1
    have h2 : Only W a1 x1 := by
      unfold x1
      exact Only.after (State.modCtx_only (sub_trans rfl hW)) (State.modCage_only (sub_trans rfl hW))
    clear_value x1
    extract_lets +onlyGivenNames -merge -useContext -underBinder x3
    have h4 : Only W a1 x3 := by
      unfold x3
      exact Only.after (abortAll_only (sub_trans rfl hW)) (h2)
    clear_value x3
    extract_lets +onlyGivenNames -merge -useContext -underBinder x5
    have h6 : Only W a1 x5 := by
      unfold x5
      exact Only.after (endCageCmds_only (sub_trans rfl hW)) (h4)
    clear_value x5
    refine Only.after (forEach_only (fun _ t7 => ?_)) ?_
    · exact destroyGroup_only (sub_trans rfl hW)
    · exact h6

-- SKIP Sys2Proof.Machine.destroyReady

theorem destroyPages_only {W : List Blk} {a0 : Nat} {a1 : Machine.State} (hW : sub [.free, .host, .rings, .cages, .beat, .mem, .mgmt] W = true) : Only W a1 (destroyPages a0 a1) := by
  unfold destroyPages
  extract_lets +onlyGivenNames -merge -useContext -underBinder x0
  try clear_value x0
  extract_lets +onlyGivenNames -merge -useContext -underBinder x1
  have h2 : Only W a1 x1 := by
    unfold x1
    refine Only.after (forEach_only (fun _ t3 => ?_)) ?_
    · exact Only.after (State.modPage_only (sub_trans rfl hW)) (unmapPage_only (sub_trans rfl hW))
    · exact Only.rfl
  clear_value x1
  extract_lets +onlyGivenNames -merge -useContext -underBinder x4
  have h5 : Only W a1 x4 := by
    unfold x4
    exact Only.after (State.modCages_only (sub_trans rfl hW)) (h2)
  clear_value x4
  refine Only.after (forEach_only (fun _ t6 => ?_)) ?_
  · exact mendPlan_only (sub_trans rfl hW)
  · exact h5

theorem destroyDone_only {W : List Blk} {a0 : Nat} {a1 : Machine.State} (hW : sub [.free, .host, .rings, .cages, .beat, .mem, .mgmt] W = true) : Only W a1 (destroyDone a0 a1) := by
  unfold destroyDone
  refine Only.ite (fun _ => ?_) (fun _ => ?_)
  · split
    · exact Only.rfl
    · extract_lets +onlyGivenNames -merge -useContext -underBinder x0
      have h1 : Only W a1 x0 := by
        unfold x0
        exact destroyPages_only (sub_trans rfl hW)
      clear_value x0
      exact Only.after (endOk_only (sub_trans rfl hW)) (Only.after (State.modCage_only (sub_trans rfl hW)) (h1))
  · exact Only.rfl

theorem queueExpired_only {W : List Blk} {a0 : Nat} {a1 : Machine.State} (hW : sub [.free, .host, .rings, .cages, .beat, .mem, .mgmt] W = true) : Only W a1 (queueExpired a0 a1) := by
  unfold queueExpired
  split
  · exact Only.rfl
  · refine Only.ite (fun _ => ?_) (fun _ => ?_)
    · exact failAdm_only (sub_trans rfl hW)
    · exact Only.rfl

theorem clusterScrubbed_only {W : List Blk} {a0 : Nat} {a1 : Machine.State} (hW : sub [.beat] W = true) : Only W a1 (clusterScrubbed a0 a1) := by
  unfold clusterScrubbed
  refine Only.ite (fun _ => ?_) (fun _ => ?_)
  · exact State.modClus_only (sub_trans rfl hW)
  · exact Only.rfl

theorem unmapDone_only {W : List Blk} {a0 : Nat} {a1 : Machine.State} (hW : sub [.rings, .cages] W = true) : Only W a1 (unmapDone a0 a1) := by
  unfold unmapDone
  extract_lets +onlyGivenNames -merge -useContext -underBinder x0
  try clear_value x0
  refine Only.ite (fun _ => ?_) (fun _ => ?_)
  · refine Only.after (endOk_only (sub_trans rfl hW)) ?_
    · refine Only.after (forEach_only (fun _ t1 => ?_)) ?_
      · exact unmapPage_only (sub_trans rfl hW)
      · exact Only.rfl
  · exact Only.rfl

theorem frameScrubbed_only {W : List Blk} {a0 : Nat} {a1 : Machine.State} (hW : sub [.cages, .mem] W = true) : Only W a1 (frameScrubbed a0 a1) := by
  unfold frameScrubbed
  refine Only.ite (fun _ => ?_) (fun _ => ?_)
  · exact Only.after (State.setFrame_only (sub_trans rfl hW)) (zeroFrame_only (sub_trans rfl hW))
  · exact Only.rfl

theorem demandZeroed_only {W : List Blk} {a0 : Nat} {a1 : Nat} {a2 : Machine.State} (hW : sub [.cages, .mem] W = true) : Only W a2 (demandZeroed a0 a1 a2) := by
  unfold demandZeroed
  refine Only.ite (fun _ => ?_) (fun _ => ?_)
  · exact Only.after (State.modPage_only (sub_trans rfl hW)) (zeroFrame_only (sub_trans rfl hW))
  · exact Only.rfl

theorem evictEnd_only {W : List Blk} {a0 : Nat} {a1 : Nat} {a2 : Machine.State} (hW : sub [.host, .rings, .cages] W = true) : Only W a2 (evictEnd a0 a1 a2) := by
  unfold evictEnd
  split
  · exact Only.rfl
  · refine Only.ite (fun _ => ?_) (fun _ => ?_)
    · exact evictDone_only (sub_trans rfl hW)
    · exact Only.rfl

theorem restoreEnd_only {W : List Blk} {a0 : Nat} {a1 : Nat} {a2 : Machine.State} (hW : sub [.host, .rings, .cages, .mem] W = true) : Only W a2 (restoreEnd a0 a1 a2) := by
  unfold restoreEnd
  split
  · exact Only.rfl
  · refine Only.ite (fun _ => ?_) (fun _ => ?_)
    · exact restoreDone_only (sub_trans rfl hW)
    · exact Only.rfl

-- SKIP Sys2Proof.Machine.bookPinned

theorem pageBook_only {W : List Blk} {a0 : Machine.State} (hW : sub [.host, .rings] W = true) : Only W a0 (pageBook a0) := by
  unfold pageBook
  exact reportCtl_only (sub_trans rfl hW)

theorem pieceLanded_only {W : List Blk} {a0 : Nat} {a1 : Nat} {a2 : Machine.State} (hW : sub [.free, .beat, .mem] W = true) : Only W a2 (pieceLanded a0 a1 a2) := by
  unfold pieceLanded
  split
  · exact Only.rfl
  · refine Only.ite (fun _ => ?_) (fun _ => ?_)
    · exact Only.rfl
    · refine Only.ite (fun _ => ?_) (fun _ => ?_)
      · refine Only.ite (fun _ => ?_) (fun _ => ?_)
        · exact landPiece_only (sub_trans rfl hW)
        · exact Only.rfl
      · exact landPiece_only (sub_trans rfl hW)

theorem shadowStop_only {W : List Blk} {a0 : Nat} {a1 : Machine.State} (hW : sub [.beat] W = true) : Only W a1 (shadowStop a0 a1) := by
  unfold shadowStop
  refine Only.ite (fun _ => ?_) (fun _ => ?_)
  · exact haltGroup_only (sub_trans rfl hW)
  · exact Only.rfl

theorem gateExpired_only {W : List Blk} {a0 : Nat} {a1 : Machine.State} (hW : sub [.beat, .mgmt] W = true) : Only W a1 (gateExpired a0 a1) := by
  unfold gateExpired
  extract_lets +onlyGivenNames -merge -useContext -underBinder x0
  try clear_value x0
  refine Only.ite (fun _ => ?_) (fun _ => ?_)
  · exact Only.after (haltGroup_only (sub_trans rfl hW)) (noteBreach_only (sub_trans rfl hW))
  · exact Only.rfl

theorem stackRead_only {W : List Blk} {a0 : Nat} {a1 : Option Int} {a2 : Machine.State} (hW : sub [.ao, .sup, .adit, .host, .rings, .cages, .beat, .mem, .mgmt, .links, .coll, .power, .heat, .pump, .bus] W = true) : Only W a2 (stackRead a0 a1 a2) := by
  unfold stackRead
  refine Only.ite (fun _ => ?_) (fun _ => ?_)
  · exact Only.after (stackTripLine_only (sub_trans rfl hW)) (stackReadout_only (sub_trans rfl hW))
  · exact Only.rfl

theorem lineTurn_only {W : List Blk} {a0 : Nat} {a1 : LineOp} {a2 : LineErr} {a3 : Machine.State} (hW : sub [.host, .rings, .mem] W = true) : Only W a3 (lineTurn a0 a1 a2 a3) := by
  unfold lineTurn
  refine Only.ite (fun _ => ?_) (fun _ => ?_)
  · exact lineAccess_only (sub_trans rfl hW)
  · exact Only.rfl

theorem patrolTurn_only {W : List Blk} {a0 : Nat} {a1 : LineErr} {a2 : Machine.State} (hW : sub [.host, .rings, .mem] W = true) : Only W a2 (patrolTurn a0 a1 a2) := by
  unfold patrolTurn
  refine Only.ite (fun _ => ?_) (fun _ => ?_)
  · exact patrolRead_only (sub_trans rfl hW)
  · exact Only.rfl

theorem trainResume_only {W : List Blk} {a0 : Nat} {a1 : Machine.State} (hW : sub [.free, .host, .rings, .cages, .links, .coll] W = true) : Only W a1 (trainResume a0 a1) := by
  unfold trainResume
  split
  · exact bodyAdmit_only (sub_trans rfl hW)
  · exact bodyMap_only (sub_trans rfl hW)
  · exact bodyCollOp_only (sub_trans rfl hW)
  · exact bodyCollOp_only (sub_trans rfl hW)
  · exact bodyCopy_only (sub_trans rfl hW)

theorem trainedAll_only {W : List Blk} {a0 : Nat} {a1 : Machine.State} (hW : sub [.free, .host, .rings, .cages, .mem, .links, .coll] W = true) : Only W a1 (trainedAll a0 a1) := by
  unfold trainedAll
  refine Only.ite (fun _ => ?_) (fun _ => ?_)
  · exact Only.rfl
  · extract_lets +onlyGivenNames -merge -useContext -underBinder x0
    have h1 : Only W a1 x0 := by
      unfold x0
      exact trainingEnd_only (sub_trans rfl hW)
    clear_value x0
    refine Only.after (forEach_only (fun _ t2 => ?_)) ?_
    · exact trainResume_only (sub_trans rfl hW)
    · exact h1

theorem trainTimeout_only {W : List Blk} {a0 : Nat} {a1 : Machine.State} (hW : sub [.host, .rings, .links] W = true) : Only W a1 (trainTimeout a0 a1) := by
  unfold trainTimeout
  refine Only.ite (fun _ => ?_) (fun _ => ?_)
  · exact trainFail_only (sub_trans rfl hW)
  · exact Only.rfl

theorem trainAgain_only {W : List Blk} {a0 : Nat} {a1 : Machine.State} (hW : sub [.links] W = true) : Only W a1 (trainAgain a0 a1) := by
  unfold trainAgain
  refine Only.ite (fun _ => ?_) (fun _ => ?_)
  · exact train_only (sub_trans rfl hW)
  · exact Only.rfl

theorem replayNow_only {W : List Blk} {a0 : Nat} {a1 : Machine.State} (hW : sub [.links] W = true) : Only W a1 (replayNow a0 a1) := by
  unfold replayNow
  refine Only.ite (fun _ => ?_) (fun _ => ?_)
  · exact State.modLink_only (sub_trans rfl hW)
  · exact Only.rfl

theorem nakAgain_only {W : List Blk} {a0 : Nat} {a1 : Machine.State} (hW : sub [.links] W = true) : Only W a1 (nakAgain a0 a1) := by
  unfold nakAgain
  refine Only.ite (fun _ => ?_) (fun _ => ?_)
  · exact State.modLink_only (sub_trans rfl hW)
  · exact Only.rfl

theorem auditNow_only {W : List Blk} {a0 : Nat} {a1 : Machine.State} (hW : sub [.links] W = true) : Only W a1 (auditNow a0 a1) := by
  unfold auditNow
  refine Only.ite (fun _ => ?_) (fun _ => ?_)
  · exact State.modLink_only (sub_trans rfl hW)
  · exact Only.rfl

theorem laneLost_only {W : List Blk} {a0 : Nat} {a1 : Machine.State} (hW : sub [.links] W = true) : Only W a1 (laneLost a0 a1) := by
  unfold laneLost
  refine Only.ite (fun _ => ?_) (fun _ => ?_)
  · exact State.modLink_only (sub_trans rfl hW)
  · exact Only.rfl

theorem retrainLate_only {W : List Blk} {a0 : Nat} {a1 : Machine.State} (hW : sub [.host, .rings, .links, .coll] W = true) : Only W a1 (retrainLate a0 a1) := by
  unfold retrainLate
  refine Only.ite (fun _ => ?_) (fun _ => ?_)
  · exact resetLink_only (sub_trans rfl hW)
  · exact Only.rfl

theorem peerSilent_only {W : List Blk} {a0 : Nat} {a1 : Machine.State} (hW : sub [.host, .rings, .links, .coll] W = true) : Only W a1 (peerSilent a0 a1) := by
  unfold peerSilent
  refine Only.ite (fun _ => ?_) (fun _ => ?_)
  · exact resetLink_only (sub_trans rfl hW)
  · exact Only.rfl

theorem plugSeen_only {W : List Blk} {a0 : Bool} {a1 : Machine.State} (hW : sub [.sup] W = true) : Only W a1 (plugSeen a0 a1) := by
  unfold plugSeen
  refine Only.ite (fun _ => ?_) (fun _ => ?_)
  · exact State.modSup_only (sub_trans rfl hW)
  · exact Only.rfl

theorem onBusOnly_only {W : List Blk} {a0 : Nat} {a1 : Nat} {a2 : Frame → Machine.State → Machine.State} {a3 : Frame} {a4 : Machine.State} (hW : sub [] W = true) (g0 : ∀ v0 v1, Only W v1 (a2 v0 v1)) : Only W a4 (onBusOnly a0 a1 a2 a3 a4) := by
  unfold onBusOnly
  refine Only.ite (fun _ => ?_) (fun _ => ?_)
  · exact g0 _ _
  · exact Only.rfl

theorem makerFrame_only {W : List Blk} {a0 : Nat} {a1 : Frame} {a2 : Machine.State} (hW : sub [.adit, .bus] W = true) : Only W a2 (makerFrame a0 a1 a2) := by
  unfold makerFrame
  refine Only.ite (fun _ => ?_) (fun _ => ?_)
  · refine Only.after (busIn_only (sub_trans rfl hW) (fun _ t0 => ?_)) ?_
    · exact Only.rfl
    · exact Only.rfl
  · exact Only.rfl

theorem mirrorSegment_only {W : List Blk} {a0 : Frame} {a1 : Machine.State} (hW : sub [.mgmt, .ward] W = true) : Only W a1 (mirrorSegment a0 a1) := by
  unfold mirrorSegment
  exact takeMirror_only (sub_trans rfl hW)

theorem wrongSize_only {W : List Blk} {a0 : Nat} {a1 : Nat} {a2 : Nat} {a3 : Machine.State} (hW : sub [.host] W = true) : Only W a3 (wrongSize a0 a1 a2 a3) := by
  unfold wrongSize
  refine Only.ite (fun _ => ?_) (fun _ => ?_)
  · exact badSize_only (sub_trans rfl hW)
  · exact Only.rfl

theorem tickRow_only {W : List Blk} {a0 : Machine.State} (hW : sub [.ao, .bus] W = true) : Only W a0 (tickRow a0) := by
  unfold tickRow
  refine Only.ite (fun _ => ?_) (fun _ => ?_)
  · extract_lets +onlyGivenNames -merge -useContext -underBinder x0
    try clear_value x0
    exact Only.put (V := [.ao, .bus]) (Only.rfl) (fun b hb => by cases b <;> first | exact Eq.refl _ | exact absurd hb (by decide)) hW
  · exact Only.rfl

theorem tickKeepalive_only {W : List Blk} {a0 : Machine.State} (hW : sub [.ward] W = true) : Only W a0 (tickKeepalive a0) := by
  unfold tickKeepalive
  refine Only.ite (fun _ => ?_) (fun _ => ?_)
  · exact wlSend_only (sub_trans rfl hW)
  · exact Only.rfl

theorem tick_only {W : List Blk} {a0 : Machine.State} (hW : sub [.now, .ao, .power, .bus, .ward] W = true) : Only W a0 (tick a0) := by
  unfold tick
  exact Only.after (tickKeepalive_only (sub_trans rfl hW)) (Only.after (railTick_only (sub_trans rfl hW)) (Only.after (tickRow_only (sub_trans rfl hW)) (Only.put (V := [.now, .ao, .power, .bus, .ward]) (Only.rfl) (fun b hb => by cases b <;> first | exact Eq.refl _ | exact absurd hb (by decide)) hW)))

end Sys2Proof.Machine
end

