-- ==== Sys2Proof/Laws/FrameExec.lean ====
section
/-! SUPPORT. Frame lemmas of the commands: the parts of the state that each command may change when it answers a next state. -/

namespace Sys2Proof.Machine

open Sys2Proof

theorem execA1Word_only {W : List Blk} {a0 : BitVec 112} {a1 : Machine.State} {t : Machine.State} (hW : sub [.free, .host, .rings, .cages, .beat, .mem, .mgmt, .links, .coll] W = true) (h : execA1Word a0 a1 = .next t) : Only W a1 t := by
  unfold execA1Word at h
  cases h
  refine Only.after (dataTurn_only (sub_trans rfl hW) (fun t0 => ?_)) ?_
  · exact a1In_only (sub_trans rfl hW)
  · exact Only.rfl

theorem execA1StaleTimeout_only {W : List Blk} {a0 : Machine.State} {t : Machine.State} (hW : sub [.free, .host, .rings, .cages, .beat, .mem, .mgmt, .links, .coll] W = true) (h : execA1StaleTimeout a0 = .next t) : Only W a0 t := by
  unfold execA1StaleTimeout at h
  cases h
  refine Only.after (dataTurn_only (sub_trans rfl hW) (fun t0 => ?_)) ?_
  · exact a1Stale_only (sub_trans rfl hW)
  · exact Only.rfl

theorem execA2WindowClose_only {W : List Blk} {a0 : Machine.State} {t : Machine.State} (hW : sub [.free, .adit, .host, .rings, .cages, .beat, .mem, .mgmt, .links, .coll] W = true) (h : execA2WindowClose a0 = .next t) : Only W a0 t := by
  unfold execA2WindowClose at h
  cases h
  refine Only.after (dataTurn_only (sub_trans rfl hW) (fun t0 => ?_)) ?_
  · exact a2Close_only (sub_trans rfl hW)
  · exact Only.rfl

theorem execInnerStep_only {W : List Blk} {a0 : Machine.State} {t : Machine.State} (hW : sub [.adit, .mgmt, .power, .heat] W = true) (h : execInnerStep a0 = .next t) : Only W a0 t := by
  unfold execInnerStep at h
  cases h
  refine Only.after (mgmtTurn_only (sub_trans rfl hW) (fun t0 => ?_)) ?_
  · exact innerStep_only (sub_trans rfl hW)
  · exact Only.rfl

theorem execA6RecordDelivered_only {W : List Blk} {a0 : Machine.State} {t : Machine.State} (hW : sub [.free, .adit, .host, .rings, .cages, .beat, .mem, .mgmt, .links, .coll] W = true) (h : execA6RecordDelivered a0 = .next t) : Only W a0 t := by
  unfold execA6RecordDelivered at h
  cases h
  refine Only.after (ctlTurn_only (sub_trans rfl hW) (fun t0 => ?_)) ?_
  · exact a6Deliver_only (sub_trans rfl hW)
  · exact Only.rfl

theorem execMirrorRegisterRefresh_only {W : List Blk} {a0 : Machine.State} {t : Machine.State} (hW : sub [.free, .adit, .host, .rings, .cages, .beat, .mem, .mgmt, .links, .coll] W = true) (h : execMirrorRegisterRefresh a0 = .next t) : Only W a0 t := by
  unfold execMirrorRegisterRefresh at h
  cases h
  refine Only.after (dataTurn_only (sub_trans rfl hW) (fun t0 => ?_)) ?_
  · exact mirrorIn_only (sub_trans rfl hW)
  · exact Only.rfl

theorem execOffer_only {W : List Blk} {a0 : Machine.State} {t : Machine.State} (hW : sub [.adit, .mgmt, .heat, .pump] W = true) (h : execOffer a0 = .next t) : Only W a0 t := by
  unfold execOffer at h
  cases h
  refine Only.after (mgmtTurn_only (sub_trans rfl hW) (fun t0 => ?_)) ?_
  · exact offerIn_only (sub_trans rfl hW)
  · exact Only.rfl

theorem execHold_only {W : List Blk} {a0 : Machine.State} {t : Machine.State} (hW : sub [.free, .adit, .host, .rings, .cages, .beat, .mem, .mgmt, .links, .coll] W = true) (h : execHold a0 = .next t) : Only W a0 t := by
  unfold execHold at h
  cases h
  refine Only.after (dataTurn_only (sub_trans rfl hW) (fun t0 => ?_)) ?_
  · exact takeHold_only (sub_trans rfl hW)
  · exact Only.rfl

theorem execRelease_only {W : List Blk} {a0 : Machine.State} {t : Machine.State} (hW : sub [.free, .adit, .host, .rings, .cages, .beat, .mem, .mgmt, .links, .coll] W = true) (h : execRelease a0 = .next t) : Only W a0 t := by
  unfold execRelease at h
  cases h
  refine Only.after (dataTurn_only (sub_trans rfl hW) (fun t0 => ?_)) ?_
  · exact takeRelease_only (sub_trans rfl hW)
  · exact Only.rfl

theorem execRefuse_only {W : List Blk} {a0 : Machine.State} {t : Machine.State} (hW : sub [.free, .adit, .host, .rings, .cages, .beat, .mem, .mgmt, .links, .coll] W = true) (h : execRefuse a0 = .next t) : Only W a0 t := by
  unfold execRefuse at h
  cases h
  refine Only.after (dataTurn_only (sub_trans rfl hW) (fun t0 => ?_)) ?_
  · exact takeRefuse_only (sub_trans rfl hW)
  · exact Only.rfl

theorem execWithdraw_only {W : List Blk} {a0 : Machine.State} {t : Machine.State} (hW : sub [.adit, .mgmt, .heat, .pump] W = true) (h : execWithdraw a0 = .next t) : Only W a0 t := by
  unfold execWithdraw at h
  cases h
  refine Only.after (mgmtTurn_only (sub_trans rfl hW) (fun t0 => ?_)) ?_
  · exact withdrawIn_only (sub_trans rfl hW)
  · exact Only.rfl

theorem execStartMessage_only {W : List Blk} {a0 : Machine.State} {t : Machine.State} (hW : sub [.adit, .mgmt, .power, .heat, .pump] W = true) (h : execStartMessage a0 = .next t) : Only W a0 t := by
  unfold execStartMessage at h
  cases h
  refine Only.after (mgmtTurn_only (sub_trans rfl hW) (fun t0 => ?_)) ?_
  · exact startIn_only (sub_trans rfl hW)
  · exact Only.rfl

theorem execEndMessage_only {W : List Blk} {a0 : Machine.State} {t : Machine.State} (hW : sub [.adit, .mgmt, .power, .heat, .pump] W = true) (h : execEndMessage a0 = .next t) : Only W a0 t := by
  unfold execEndMessage at h
  cases h
  refine Only.after (mgmtTurn_only (sub_trans rfl hW) (fun t0 => ?_)) ?_
  · exact finishIn_only (sub_trans rfl hW)
  · exact Only.rfl

theorem execPolicyMessage_only {W : List Blk} {a0 : Machine.State} {t : Machine.State} (hW : sub [.adit, .mgmt, .pump] W = true) (h : execPolicyMessage a0 = .next t) : Only W a0 t := by
  unfold execPolicyMessage at h
  cases h
  refine Only.after (mgmtTurn_only (sub_trans rfl hW) (fun t0 => ?_)) ?_
  · exact takePolicy_only (sub_trans rfl hW)
  · exact Only.rfl

theorem execPolicyAck_only {W : List Blk} {a0 : Machine.State} {t : Machine.State} (hW : sub [.free, .adit, .host, .rings, .cages, .beat, .mem, .mgmt, .links, .coll] W = true) (h : execPolicyAck a0 = .next t) : Only W a0 t := by
  unfold execPolicyAck at h
  cases h
  refine Only.after (dataTurn_only (sub_trans rfl hW) (fun t0 => ?_)) ?_
  · exact takePolicyAck_only (sub_trans rfl hW)
  · exact Only.rfl

theorem execPolicyTimeout_only {W : List Blk} {a0 : Nat} {a1 : Machine.State} {t : Machine.State} (hW : sub [.free, .host, .rings, .cages, .beat, .mem, .mgmt, .links, .coll] W = true) (h : execPolicyTimeout a0 a1 = .next t) : Only W a1 t := by
  unfold execPolicyTimeout at h
  cases h
  refine Only.after (dataTurn_only (sub_trans rfl hW) (fun t0 => ?_)) ?_
  · exact policyTimeout_only (sub_trans rfl hW)
  · exact Only.rfl

theorem execJoinListenEnd_only {W : List Blk} {a0 : Nat} {a1 : Machine.State} {t : Machine.State} (hW : sub [.sup, .adit, .mgmt, .bus, .ward] W = true) (h : execJoinListenEnd a0 a1 = .next t) : Only W a1 t := by
  unfold execJoinListenEnd at h
  cases h
  refine Only.after (mgmtTurn_only (sub_trans rfl hW) (fun t0 => ?_)) ?_
  · exact joinListenEnd_only (sub_trans rfl hW)
  · exact Only.rfl

theorem execRxFifoDrain_only {W : List Blk} {a0 : Nat} {a1 : Machine.State} {t : Machine.State} (hW : sub [.adit, .mgmt, .bus] W = true) (h : execRxFifoDrain a0 a1 = .next t) : Only W a1 t := by
  unfold execRxFifoDrain at h
  cases h
  refine Only.after (mgmtTurn_only (sub_trans rfl hW) (fun t0 => ?_)) ?_
  · exact rxDrain_only (sub_trans rfl hW)
  · exact Only.rfl

theorem execRxOverflow_only {W : List Blk} {a0 : Nat} {a1 : Machine.State} {t : Machine.State} (hW : sub [.adit, .mgmt, .bus] W = true) (h : execRxOverflow a0 a1 = .next t) : Only W a1 t := by
  unfold execRxOverflow at h
  cases h
  refine Only.after (mgmtTurn_only (sub_trans rfl hW) (fun t0 => ?_)) ?_
  · exact rxOverflow_only (sub_trans rfl hW)
  · exact Only.rfl

theorem execBusMessagePhase_only {W : List Blk} {a0 : Nat} {a1 : Nat} {a2 : Machine.State} {t : Machine.State} (hW : sub [.sup, .adit, .mgmt, .power, .pump, .bus, .ward] W = true) (h : execBusMessagePhase a0 a1 a2 = .next t) : Only W a2 t := by
  unfold execBusMessagePhase at h
  cases h
  refine Only.after (mgmtTurn_only (sub_trans rfl hW) (fun t0 => ?_)) ?_
  · exact messagePhase_only (sub_trans rfl hW)
  · exact Only.rfl

theorem execFrameSent_only {W : List Blk} {a0 : Nat} {a1 : Machine.State} {t : Machine.State} (hW : sub [.adit, .mgmt, .bus] W = true) (h : execFrameSent a0 a1 = .next t) : Only W a1 t := by
  unfold execFrameSent at h
  cases h
  refine Only.after (mgmtTurn_only (sub_trans rfl hW) (fun t0 => ?_)) ?_
  · exact frameSent_only (sub_trans rfl hW)
  · exact Only.rfl

theorem execTxExpiry_only {W : List Blk} {a0 : Nat} {a1 : Nat} {a2 : Machine.State} {t : Machine.State} (hW : sub [.adit, .mgmt, .bus] W = true) (h : execTxExpiry a0 a1 a2 = .next t) : Only W a2 t := by
  unfold execTxExpiry at h
  cases h
  refine Only.after (mgmtTurn_only (sub_trans rfl hW) (fun t0 => ?_)) ?_
  · exact txExpire_only (sub_trans rfl hW)
  · exact Only.rfl

theorem execCanError_only {W : List Blk} {a0 : Nat} {a1 : Nat} {a2 : Nat} {a3 : Machine.State} {t : Machine.State} (hW : sub [.adit, .mgmt, .bus] W = true) (h : execCanError a0 a1 a2 a3 = .next t) : Only W a3 t := by
  unfold execCanError at h
  cases h
  refine Only.after (mgmtTurn_only (sub_trans rfl hW) (fun t0 => ?_)) ?_
  · exact canError_only (sub_trans rfl hW)
  · exact Only.rfl

theorem execBusOffWaitExpiry_only {W : List Blk} {a0 : Nat} {a1 : Machine.State} {t : Machine.State} (hW : sub [.adit, .mgmt, .bus] W = true) (h : execBusOffWaitExpiry a0 a1 = .next t) : Only W a1 t := by
  unfold execBusOffWaitExpiry at h
  cases h
  refine Only.after (mgmtTurn_only (sub_trans rfl hW) (fun t0 => ?_)) ?_
  · exact busOffWait_only (sub_trans rfl hW)
  · exact Only.rfl

theorem execBusOffRecovered_only {W : List Blk} {a0 : Nat} {a1 : Machine.State} {t : Machine.State} (hW : sub [.adit, .mgmt, .bus] W = true) (h : execBusOffRecovered a0 a1 = .next t) : Only W a1 t := by
  unfold execBusOffRecovered at h
  cases h
  refine Only.after (mgmtTurn_only (sub_trans rfl hW) (fun t0 => ?_)) ?_
  · exact busRecovered_only (sub_trans rfl hW)
  · exact Only.rfl

theorem execLeakAlert_only {W : List Blk} {a0 : Nat} {a1 : Frame} {a2 : Machine.State} {t : Machine.State} (hW : sub [.adit, .mgmt, .bus, .ward] W = true) (h : execLeakAlert a0 a1 a2 = .next t) : Only W a2 t := by
  unfold execLeakAlert at h
  cases h
  refine Only.after (mgmtTurn_only (sub_trans rfl hW) (fun t0 => ?_)) ?_
  · refine Only.after (busIn_only (sub_trans rfl hW) (fun _ t1 => ?_)) ?_
    · refine Only.after (onBusOnly_only (sub_trans rfl hW) (fun _ t2 => ?_)) ?_
      · exact takeLeakAlert_only (sub_trans rfl hW)
      · exact Only.rfl
    · exact Only.rfl
  · exact Only.rfl

theorem execTripNotice_only {W : List Blk} {a0 : Nat} {a1 : Frame} {a2 : Machine.State} {t : Machine.State} (hW : sub [.adit, .mgmt, .bus, .ward] W = true) (h : execTripNotice a0 a1 a2 = .next t) : Only W a2 t := by
  unfold execTripNotice at h
  cases h
  refine Only.after (mgmtTurn_only (sub_trans rfl hW) (fun t0 => ?_)) ?_
  · refine Only.after (busIn_only (sub_trans rfl hW) (fun _ t1 => ?_)) ?_
    · refine Only.after (onBusOnly_only (sub_trans rfl hW) (fun _ t2 => ?_)) ?_
      · exact takeTrip_only (sub_trans rfl hW)
      · exact Only.rfl
    · exact Only.rfl
  · exact Only.rfl

theorem execStageAlarm_only {W : List Blk} {a0 : Nat} {a1 : Frame} {a2 : Machine.State} {t : Machine.State} (hW : sub [.sup, .adit, .mgmt, .power, .pump, .bus, .ward] W = true) (h : execStageAlarm a0 a1 a2 = .next t) : Only W a2 t := by
  unfold execStageAlarm at h
  cases h
  refine Only.after (mgmtTurn_only (sub_trans rfl hW) (fun t0 => ?_)) ?_
  · refine Only.after (busIn_only (sub_trans rfl hW) (fun _ t1 => ?_)) ?_
    · exact takeStageAlarm_only (sub_trans rfl hW)
    · exact Only.rfl
  · exact Only.rfl

theorem execRackAlert_only {W : List Blk} {a0 : Nat} {a1 : Frame} {a2 : Machine.State} {t : Machine.State} (hW : sub [.adit, .mgmt, .bus, .ward] W = true) (h : execRackAlert a0 a1 a2 = .next t) : Only W a2 t := by
  unfold execRackAlert at h
  cases h
  refine Only.after (mgmtTurn_only (sub_trans rfl hW) (fun t0 => ?_)) ?_
  · refine Only.after (busIn_only (sub_trans rfl hW) (fun _ t1 => ?_)) ?_
    · refine Only.after (onBusOnly_only (sub_trans rfl hW) (fun _ t2 => ?_)) ?_
      · exact takeRackAlert_only (sub_trans rfl hW)
      · exact Only.rfl
    · exact Only.rfl
  · exact Only.rfl

theorem execClaimCmd_only {W : List Blk} {a0 : Nat} {a1 : Frame} {a2 : Machine.State} {t : Machine.State} (hW : sub [.adit, .mgmt, .bus] W = true) (h : execClaimCmd a0 a1 a2 = .next t) : Only W a2 t := by
  unfold execClaimCmd at h
  cases h
  refine Only.after (mgmtTurn_only (sub_trans rfl hW) (fun t0 => ?_)) ?_
  · refine Only.after (busIn_only (sub_trans rfl hW) (fun _ t1 => ?_)) ?_
    · exact Only.rfl
    · exact Only.rfl
  · exact Only.rfl

theorem execWardenHb_only {W : List Blk} {a0 : Nat} {a1 : Frame} {a2 : Machine.State} {t : Machine.State} (hW : sub [.adit, .mgmt, .bus, .ward] W = true) (h : execWardenHb a0 a1 a2 = .next t) : Only W a2 t := by
  unfold execWardenHb at h
  cases h
  refine Only.after (mgmtTurn_only (sub_trans rfl hW) (fun t0 => ?_)) ?_
  · refine Only.after (busIn_only (sub_trans rfl hW) (fun _ t1 => ?_)) ?_
    · exact takeHb_only (sub_trans rfl hW)
    · exact Only.rfl
  · exact Only.rfl

theorem execStageStatus_only {W : List Blk} {a0 : Nat} {a1 : Frame} {a2 : Machine.State} {t : Machine.State} (hW : sub [.adit, .mgmt, .bus, .ward] W = true) (h : execStageStatus a0 a1 a2 = .next t) : Only W a2 t := by
  unfold execStageStatus at h
  cases h
  refine Only.after (mgmtTurn_only (sub_trans rfl hW) (fun t0 => ?_)) ?_
  · refine Only.after (busIn_only (sub_trans rfl hW) (fun _ t1 => ?_)) ?_
    · exact takeStatus_only (sub_trans rfl hW)
    · exact Only.rfl
  · exact Only.rfl

theorem execSync_only {W : List Blk} {a0 : Nat} {a1 : Frame} {a2 : Machine.State} {t : Machine.State} (hW : sub [.ao, .adit, .mgmt, .bus] W = true) (h : execSync a0 a1 a2 = .next t) : Only W a2 t := by
  unfold execSync at h
  cases h
  refine Only.after (mgmtTurn_only (sub_trans rfl hW) (fun t0 => ?_)) ?_
  · refine Only.after (busIn_only (sub_trans rfl hW) (fun _ t1 => ?_)) ?_
    · exact syncIn_only (sub_trans rfl hW)
    · exact Only.rfl
  · exact Only.rfl

theorem execSyncHoldover_only {W : List Blk} {a0 : Machine.State} {t : Machine.State} (hW : sub [.adit, .mgmt, .bus] W = true) (h : execSyncHoldover a0 = .next t) : Only W a0 t := by
  unfold execSyncHoldover at h
  cases h
  refine Only.after (mgmtTurn_only (sub_trans rfl hW) (fun t0 => ?_)) ?_
  · exact syncHoldover_only (sub_trans rfl hW)
  · exact Only.rfl

theorem execModuleBudget_only {W : List Blk} {a0 : Nat} {a1 : Frame} {a2 : Machine.State} {t : Machine.State} (hW : sub [.adit, .mgmt, .bus, .ward] W = true) (h : execModuleBudget a0 a1 a2 = .next t) : Only W a2 t := by
  unfold execModuleBudget at h
  cases h
  refine Only.after (mgmtTurn_only (sub_trans rfl hW) (fun t0 => ?_)) ?_
  · refine Only.after (busIn_only (sub_trans rfl hW) (fun _ t1 => ?_)) ?_
    · refine Only.after (onBusOnly_only (sub_trans rfl hW) (fun _ t2 => ?_)) ?_
      · exact takeModuleBudget_only (sub_trans rfl hW)
      · exact Only.rfl
    · exact Only.rfl
  · exact Only.rfl

theorem execAlloc_only {W : List Blk} {a0 : Nat} {a1 : Frame} {a2 : Machine.State} {t : Machine.State} (hW : sub [.sup, .adit, .mgmt, .power, .pump, .bus, .ward] W = true) (h : execAlloc a0 a1 a2 = .next t) : Only W a2 t := by
  unfold execAlloc at h
  cases h
  refine Only.after (mgmtTurn_only (sub_trans rfl hW) (fun t0 => ?_)) ?_
  · refine Only.after (busIn_only (sub_trans rfl hW) (fun _ t1 => ?_)) ?_
    · exact takeAlloc_only (sub_trans rfl hW)
    · exact Only.rfl
  · exact Only.rfl

theorem execRackBudget_only {W : List Blk} {a0 : Nat} {a1 : Frame} {a2 : Machine.State} {t : Machine.State} (hW : sub [.adit, .mgmt, .bus, .ward] W = true) (h : execRackBudget a0 a1 a2 = .next t) : Only W a2 t := by
  unfold execRackBudget at h
  cases h
  refine Only.after (mgmtTurn_only (sub_trans rfl hW) (fun t0 => ?_)) ?_
  · refine Only.after (busIn_only (sub_trans rfl hW) (fun _ t1 => ?_)) ?_
    · refine Only.after (onBusOnly_only (sub_trans rfl hW) (fun _ t2 => ?_)) ?_
      · exact takeRackBudgetMsg_only (sub_trans rfl hW)
      · exact Only.rfl
    · exact Only.rfl
  · exact Only.rfl

theorem execModuleTelem_only {W : List Blk} {a0 : Nat} {a1 : Frame} {a2 : Machine.State} {t : Machine.State} (hW : sub [.adit, .mgmt, .bus, .ward] W = true) (h : execModuleTelem a0 a1 a2 = .next t) : Only W a2 t := by
  unfold execModuleTelem at h
  cases h
  refine Only.after (mgmtTurn_only (sub_trans rfl hW) (fun t0 => ?_)) ?_
  · refine Only.after (busIn_only (sub_trans rfl hW) (fun _ t1 => ?_)) ?_
    · refine Only.after (onBusOnly_only (sub_trans rfl hW) (fun _ t2 => ?_)) ?_
      · exact takeModuleTelem_only (sub_trans rfl hW)
      · exact Only.rfl
    · exact Only.rfl
  · exact Only.rfl

theorem execRackTelem_only {W : List Blk} {a0 : Nat} {a1 : Frame} {a2 : Machine.State} {t : Machine.State} (hW : sub [.adit, .mgmt, .bus, .ward] W = true) (h : execRackTelem a0 a1 a2 = .next t) : Only W a2 t := by
  unfold execRackTelem at h
  cases h
  refine Only.after (mgmtTurn_only (sub_trans rfl hW) (fun t0 => ?_)) ?_
  · refine Only.after (busIn_only (sub_trans rfl hW) (fun _ t1 => ?_)) ?_
    · refine Only.after (onBusOnly_only (sub_trans rfl hW) (fun _ t2 => ?_)) ?_
      · exact takeRackTelem_only (sub_trans rfl hW)
      · exact Only.rfl
    · exact Only.rfl
  · exact Only.rfl

theorem execMirror_only {W : List Blk} {a0 : Nat} {a1 : Frame} {a2 : Machine.State} {t : Machine.State} (hW : sub [.adit, .mgmt, .bus, .ward] W = true) (h : execMirror a0 a1 a2 = .next t) : Only W a2 t := by
  unfold execMirror at h
  cases h
  refine Only.after (mgmtTurn_only (sub_trans rfl hW) (fun t0 => ?_)) ?_
  · refine Only.after (busIn_only (sub_trans rfl hW) (fun _ t1 => ?_)) ?_
    · exact mirrorSegment_only (sub_trans rfl hW)
    · exact Only.rfl
  · exact Only.rfl

theorem execNodeAnnounce_only {W : List Blk} {a0 : Nat} {a1 : Frame} {a2 : Machine.State} {t : Machine.State} (hW : sub [.adit, .mgmt, .bus] W = true) (h : execNodeAnnounce a0 a1 a2 = .next t) : Only W a2 t := by
  unfold execNodeAnnounce at h
  cases h
  refine Only.after (mgmtTurn_only (sub_trans rfl hW) (fun t0 => ?_)) ?_
  · refine Only.after (busIn_only (sub_trans rfl hW) (fun _ t1 => ?_)) ?_
    · exact Only.rfl
    · exact Only.rfl
  · exact Only.rfl

theorem execAnnounceReq_only {W : List Blk} {a0 : Nat} {a1 : Frame} {a2 : Machine.State} {t : Machine.State} (hW : sub [.adit, .mgmt, .bus] W = true) (h : execAnnounceReq a0 a1 a2 = .next t) : Only W a2 t := by
  unfold execAnnounceReq at h
  cases h
  refine Only.after (mgmtTurn_only (sub_trans rfl hW) (fun t0 => ?_)) ?_
  · refine Only.after (busIn_only (sub_trans rfl hW) (fun _ t1 => ?_)) ?_
    · exact takeAnnounceReq_only (sub_trans rfl hW)
    · exact Only.rfl
  · exact Only.rfl

theorem execBusSleep_only {W : List Blk} {a0 : Nat} {a1 : Frame} {a2 : Machine.State} {t : Machine.State} (hW : sub [.adit, .mgmt, .bus] W = true) (h : execBusSleep a0 a1 a2 = .next t) : Only W a2 t := by
  unfold execBusSleep at h
  cases h
  refine Only.after (mgmtTurn_only (sub_trans rfl hW) (fun t0 => ?_)) ?_
  · refine Only.after (busIn_only (sub_trans rfl hW) (fun _ t1 => ?_)) ?_
    · exact sleepIn_only (sub_trans rfl hW)
    · exact Only.rfl
  · exact Only.rfl

theorem execBusWake_only {W : List Blk} {a0 : Nat} {a1 : Frame} {a2 : Machine.State} {t : Machine.State} (hW : sub [.adit, .mgmt, .bus] W = true) (h : execBusWake a0 a1 a2 = .next t) : Only W a2 t := by
  unfold execBusWake at h
  cases h
  refine Only.after (mgmtTurn_only (sub_trans rfl hW) (fun t0 => ?_)) ?_
  · exact busWake_only (sub_trans rfl hW)
  · exact Only.rfl

theorem execRowBusDominantWake_only {W : List Blk} {a0 : Machine.State} {t : Machine.State} (hW : sub [.adit, .mgmt, .bus] W = true) (h : execRowBusDominantWake a0 = .next t) : Only W a0 t := by
  unfold execRowBusDominantWake at h
  cases h
  refine Only.after (mgmtTurn_only (sub_trans rfl hW) (fun t0 => ?_)) ?_
  · exact rowWake_only (sub_trans rfl hW)
  · exact Only.rfl

theorem execMakerFrame_only {W : List Blk} {a0 : Nat} {a1 : Frame} {a2 : Machine.State} {t : Machine.State} (hW : sub [.adit, .mgmt, .bus] W = true) (h : execMakerFrame a0 a1 a2 = .next t) : Only W a2 t := by
  unfold execMakerFrame at h
  cases h
  refine Only.after (mgmtTurn_only (sub_trans rfl hW) (fun t0 => ?_)) ?_
  · exact makerFrame_only (sub_trans rfl hW)
  · exact Only.rfl

theorem execBusCountsTimer_only {W : List Blk} {a0 : Nat} {a1 : Machine.State} {t : Machine.State} (hW : sub [.adit, .mgmt, .bus] W = true) (h : execBusCountsTimer a0 a1 = .next t) : Only W a1 t := by
  unfold execBusCountsTimer at h
  cases h
  refine Only.after (mgmtTurn_only (sub_trans rfl hW) (fun t0 => ?_)) ?_
  · exact busCounts_only (sub_trans rfl hW)
  · exact Only.rfl

theorem execMbxSelect_only {W : List Blk} {a0 : Nat} {a1 : Machine.State} {t : Machine.State} (hW : sub [.adit, .mgmt, .bus] W = true) (h : execMbxSelect a0 a1 = .next t) : Only W a1 t := by
  unfold execMbxSelect at h
  cases h
  refine Only.after (mgmtTurn_only (sub_trans rfl hW) (fun t0 => ?_)) ?_
  · exact mbxSelect_only (sub_trans rfl hW)
  · exact Only.rfl

theorem execMbxWord0Read_only {W : List Blk} {a0 : Machine.State} {t : Machine.State} (hW : sub [.adit, .mgmt, .bus] W = true) (h : execMbxWord0Read a0 = .next t) : Only W a0 t := by
  unfold execMbxWord0Read at h
  cases h
  refine Only.after (mgmtTurn_only (sub_trans rfl hW) (fun t0 => ?_)) ?_
  · exact mbxWord0_only (sub_trans rfl hW)
  · exact Only.rfl

theorem execMbxWord17Read_only {W : List Blk} {a0 : Machine.State} {t : Machine.State} (hW : sub [.adit, .mgmt, .bus] W = true) (h : execMbxWord17Read a0 = .next t) : Only W a0 t := by
  unfold execMbxWord17Read at h
  cases h
  refine Only.after (mgmtTurn_only (sub_trans rfl hW) (fun t0 => ?_)) ?_
  · exact mbxWord17_only (sub_trans rfl hW)
  · exact Only.rfl

theorem execMbxLockTimeout_only {W : List Blk} {a0 : Machine.State} {t : Machine.State} (hW : sub [.adit, .mgmt, .bus] W = true) (h : execMbxLockTimeout a0 = .next t) : Only W a0 t := by
  unfold execMbxLockTimeout at h
  cases h
  refine Only.after (mgmtTurn_only (sub_trans rfl hW) (fun t0 => ?_)) ?_
  · exact mbxTimeout_only (sub_trans rfl hW)
  · exact Only.rfl

theorem execMalformedFrame_only {W : List Blk} {a0 : Nat} {a1 : Bool} {a2 : Frame} {a3 : Machine.State} {t : Machine.State} (hW : sub [.adit, .mgmt, .bus] W = true) (h : execMalformedFrame a0 a1 a2 a3 = .next t) : Only W a3 t := by
  unfold execMalformedFrame at h
  cases h
  refine Only.after (mgmtTurn_only (sub_trans rfl hW) (fun t0 => ?_)) ?_
  · exact malformedFrame_only (sub_trans rfl hW)
  · exact Only.rfl

theorem execAdmitCmd_only {W : List Blk} {a0 : Nat} {a1 : Nat} {a2 : Machine.State} {t : Machine.State} (hW : sub [.free, .host, .rings, .cages, .beat, .mem, .mgmt, .links, .coll] W = true) (h : execAdmitCmd a0 a1 a2 = .next t) : Only W a2 t := by
  unfold execAdmitCmd at h
  cases h
  refine Only.after (ringOp_only (sub_trans rfl hW) (fun _ t0 => ?_)) ?_
  · exact bodyAdmit_only (sub_trans rfl hW)
  · exact Only.rfl

theorem execAdmitQueueServed_only {W : List Blk} {a0 : Machine.State} {t : Machine.State} (hW : sub [.free, .host, .rings, .cages, .beat, .mem, .mgmt, .links, .coll] W = true) (h : execAdmitQueueServed a0 = .next t) : Only W a0 t := by
  unfold execAdmitQueueServed at h
  cases h
  refine Only.after (ctlTurn_only (sub_trans rfl hW) (fun t0 => ?_)) ?_
  · exact serveQueue_only (sub_trans rfl hW)
  · exact Only.rfl

theorem execAdmitWaitExpiry_only {W : List Blk} {a0 : Nat} {a1 : Machine.State} {t : Machine.State} (hW : sub [.free, .host, .rings, .cages, .beat, .mem, .mgmt, .links, .coll] W = true) (h : execAdmitWaitExpiry a0 a1 = .next t) : Only W a1 t := by
  unfold execAdmitWaitExpiry at h
  cases h
  refine Only.after (ctlTurn_only (sub_trans rfl hW) (fun t0 => ?_)) ?_
  · exact queueExpired_only (sub_trans rfl hW)
  · exact Only.rfl

theorem execAdmitResidencyComplete_only {W : List Blk} {a0 : Nat} {a1 : Machine.State} {t : Machine.State} (hW : sub [.free, .adit, .host, .rings, .cages, .beat, .mem, .mgmt, .links, .coll] W = true) (h : execAdmitResidencyComplete a0 a1 = .next t) : Only W a1 t := by
  unfold execAdmitResidencyComplete at h
  cases h
  refine Only.after (ctlTurn_only (sub_trans rfl hW) (fun t0 => ?_)) ?_
  · exact residencyComplete_only (sub_trans rfl hW)
  · exact Only.rfl

theorem execProgramLoadComplete_only {W : List Blk} {a0 : Nat} {a1 : Machine.State} {t : Machine.State} (hW : sub [.free, .adit, .host, .rings, .cages, .beat, .mem, .mgmt, .links, .coll] W = true) (h : execProgramLoadComplete a0 a1 = .next t) : Only W a1 t := by
  unfold execProgramLoadComplete at h
  cases h
  refine Only.after (ctlTurn_only (sub_trans rfl hW) (fun t0 => ?_)) ?_
  · exact loadComplete_only (sub_trans rfl hW)
  · exact Only.rfl

theorem execOfferBackstop_only {W : List Blk} {a0 : Nat} {a1 : Machine.State} {t : Machine.State} (hW : sub [.free, .adit, .host, .rings, .cages, .beat, .mem, .mgmt, .links, .coll] W = true) (h : execOfferBackstop a0 a1 = .next t) : Only W a1 t := by
  unfold execOfferBackstop at h
  cases h
  refine Only.after (ctlTurn_only (sub_trans rfl hW) (fun t0 => ?_)) ?_
  · exact offerBackstop_only (sub_trans rfl hW)
  · exact Only.rfl

theorem execProgramAbort_only {W : List Blk} {a0 : Nat} {a1 : Nat} {a2 : Machine.State} {t : Machine.State} (hW : sub [.free, .adit, .host, .rings, .cages, .beat, .mem, .mgmt, .links, .coll] W = true) (h : execProgramAbort a0 a1 a2 = .next t) : Only W a2 t := by
  unfold execProgramAbort at h
  cases h
  refine Only.after (ringOp_only (sub_trans rfl hW) (fun _ t0 => ?_)) ?_
  · exact bodyAbort_only (sub_trans rfl hW)
  · exact Only.rfl

theorem execAbortDrainComplete_only {W : List Blk} {a0 : Nat} {a1 : Machine.State} {t : Machine.State} (hW : sub [.free, .adit, .host, .rings, .cages, .beat, .mem, .mgmt, .links, .coll] W = true) (h : execAbortDrainComplete a0 a1 = .next t) : Only W a1 t := by
  unfold execAbortDrainComplete at h
  cases h
  refine Only.after (dataTurn_only (sub_trans rfl hW) (fun t0 => ?_)) ?_
  · exact drainDone_only (sub_trans rfl hW)
  · exact Only.rfl

theorem execClusterScrubComplete_only {W : List Blk} {a0 : Nat} {a1 : Machine.State} {t : Machine.State} (hW : sub [.free, .host, .rings, .cages, .beat, .mem, .mgmt, .links, .coll] W = true) (h : execClusterScrubComplete a0 a1 = .next t) : Only W a1 t := by
  unfold execClusterScrubComplete at h
  cases h
  refine Only.after (dataTurn_only (sub_trans rfl hW) (fun t0 => ?_)) ?_
  · exact clusterScrubbed_only (sub_trans rfl hW)
  · exact Only.rfl

theorem execPageMap_only {W : List Blk} {a0 : Nat} {a1 : Nat} {a2 : Machine.State} {t : Machine.State} (hW : sub [.free, .host, .rings, .cages, .beat, .mem, .mgmt, .links, .coll] W = true) (h : execPageMap a0 a1 a2 = .next t) : Only W a2 t := by
  unfold execPageMap at h
  cases h
  refine Only.after (ringOp_only (sub_trans rfl hW) (fun _ t0 => ?_)) ?_
  · exact bodyMap_only (sub_trans rfl hW)
  · exact Only.rfl

theorem execPageUnmap_only {W : List Blk} {a0 : Nat} {a1 : Nat} {a2 : Machine.State} {t : Machine.State} (hW : sub [.free, .host, .rings, .cages, .beat, .mem, .mgmt, .links, .coll] W = true) (h : execPageUnmap a0 a1 a2 = .next t) : Only W a2 t := by
  unfold execPageUnmap at h
  cases h
  refine Only.after (ringOp_only (sub_trans rfl hW) (fun _ t0 => ?_)) ?_
  · exact bodyUnmap_only (sub_trans rfl hW)
  · exact Only.rfl

theorem execPageUnmapComplete_only {W : List Blk} {a0 : Nat} {a1 : Machine.State} {t : Machine.State} (hW : sub [.free, .host, .rings, .cages, .beat, .mem, .mgmt, .links, .coll] W = true) (h : execPageUnmapComplete a0 a1 = .next t) : Only W a1 t := by
  unfold execPageUnmapComplete at h
  cases h
  refine Only.after (ctlTurn_only (sub_trans rfl hW) (fun t0 => ?_)) ?_
  · exact unmapDone_only (sub_trans rfl hW)
  · exact Only.rfl

theorem execPoolSet_only {W : List Blk} {a0 : Nat} {a1 : Nat} {a2 : Machine.State} {t : Machine.State} (hW : sub [.free, .host, .rings, .cages, .beat, .mem, .mgmt, .links, .coll] W = true) (h : execPoolSet a0 a1 a2 = .next t) : Only W a2 t := by
  unfold execPoolSet at h
  cases h
  refine Only.after (ringOp_only (sub_trans rfl hW) (fun _ t0 => ?_)) ?_
  · exact bodyPool_only (sub_trans rfl hW)
  · exact Only.rfl

theorem execCageCreate_only {W : List Blk} {a0 : Nat} {a1 : Nat} {a2 : Machine.State} {t : Machine.State} (hW : sub [.free, .host, .rings, .cages, .beat, .mem, .mgmt, .links, .coll] W = true) (h : execCageCreate a0 a1 a2 = .next t) : Only W a2 t := by
  unfold execCageCreate at h
  cases h
  refine Only.after (ringOp_only (sub_trans rfl hW) (fun _ t0 => ?_)) ?_
  · exact bodyCreate_only (sub_trans rfl hW)
  · exact Only.rfl

theorem execCageDestroy_only {W : List Blk} {a0 : Nat} {a1 : Nat} {a2 : Machine.State} {t : Machine.State} (hW : sub [.free, .adit, .host, .rings, .cages, .beat, .mem, .mgmt, .links, .coll] W = true) (h : execCageDestroy a0 a1 a2 = .next t) : Only W a2 t := by
  unfold execCageDestroy at h
  cases h
  refine Only.after (ringOp_only (sub_trans rfl hW) (fun _ t0 => ?_)) ?_
  · exact bodyDestroy_only (sub_trans rfl hW)
  · exact Only.rfl

theorem execCageDestroyComplete_only {W : List Blk} {a0 : Nat} {a1 : Machine.State} {t : Machine.State} (hW : sub [.free, .host, .rings, .cages, .beat, .mem, .mgmt, .links, .coll] W = true) (h : execCageDestroyComplete a0 a1 = .next t) : Only W a1 t := by
  unfold execCageDestroyComplete at h
  cases h
  refine Only.after (ctlTurn_only (sub_trans rfl hW) (fun t0 => ?_)) ?_
  · exact destroyDone_only (sub_trans rfl hW)
  · exact Only.rfl

theorem execCageQuota_only {W : List Blk} {a0 : Nat} {a1 : Nat} {a2 : Machine.State} {t : Machine.State} (hW : sub [.free, .host, .rings, .cages, .beat, .mem, .mgmt, .links, .coll] W = true) (h : execCageQuota a0 a1 a2 = .next t) : Only W a2 t := by
  unfold execCageQuota at h
  cases h
  refine Only.after (ringOp_only (sub_trans rfl hW) (fun _ t0 => ?_)) ?_
  · exact bodyQuota_only (sub_trans rfl hW)
  · exact Only.rfl

theorem execFrameScrubbed_only {W : List Blk} {a0 : Nat} {a1 : Machine.State} {t : Machine.State} (hW : sub [.free, .host, .rings, .cages, .beat, .mem, .mgmt, .links, .coll] W = true) (h : execFrameScrubbed a0 a1 = .next t) : Only W a1 t := by
  unfold execFrameScrubbed at h
  cases h
  refine Only.after (dataTurn_only (sub_trans rfl hW) (fun t0 => ?_)) ?_
  · exact frameScrubbed_only (sub_trans rfl hW)
  · exact Only.rfl

theorem execDemandZeroComplete_only {W : List Blk} {a0 : Nat} {a1 : Nat} {a2 : Machine.State} {t : Machine.State} (hW : sub [.free, .host, .rings, .cages, .beat, .mem, .mgmt, .links, .coll] W = true) (h : execDemandZeroComplete a0 a1 a2 = .next t) : Only W a2 t := by
  unfold execDemandZeroComplete at h
  cases h
  refine Only.after (dataTurn_only (sub_trans rfl hW) (fun t0 => ?_)) ?_
  · exact demandZeroed_only (sub_trans rfl hW)
  · exact Only.rfl

theorem execEvictionComplete_only {W : List Blk} {a0 : Nat} {a1 : Nat} {a2 : Machine.State} {t : Machine.State} (hW : sub [.free, .host, .rings, .cages, .beat, .mem, .mgmt, .links, .coll] W = true) (h : execEvictionComplete a0 a1 a2 = .next t) : Only W a2 t := by
  unfold execEvictionComplete at h
  cases h
  refine Only.after (ctlTurn_only (sub_trans rfl hW) (fun t0 => ?_)) ?_
  · exact evictEnd_only (sub_trans rfl hW)
  · exact Only.rfl

theorem execRestoreComplete_only {W : List Blk} {a0 : Nat} {a1 : Nat} {a2 : Machine.State} {t : Machine.State} (hW : sub [.free, .host, .rings, .cages, .beat, .mem, .mgmt, .links, .coll] W = true) (h : execRestoreComplete a0 a1 a2 = .next t) : Only W a2 t := by
  unfold execRestoreComplete at h
  cases h
  refine Only.after (ctlTurn_only (sub_trans rfl hW) (fun t0 => ?_)) ?_
  · exact restoreEnd_only (sub_trans rfl hW)
  · exact Only.rfl

theorem execPageBookTimer_only {W : List Blk} {a0 : Machine.State} {t : Machine.State} (hW : sub [.free, .host, .rings, .cages, .beat, .mem, .mgmt, .links, .coll] W = true) (h : execPageBookTimer a0 = .next t) : Only W a0 t := by
  unfold execPageBookTimer at h
  cases h
  refine Only.after (ctlTurn_only (sub_trans rfl hW) (fun t0 => ?_)) ?_
  · exact pageBook_only (sub_trans rfl hW)
  · exact Only.rfl

theorem execBeatSlot_only {W : List Blk} {a0 : Nat} {a1 : Machine.State} {t : Machine.State} (hW : sub [.free, .host, .rings, .cages, .beat, .mem, .mgmt, .links, .coll] W = true) (h : execBeatSlot a0 a1 = .next t) : Only W a1 t := by
  unfold execBeatSlot at h
  cases h
  refine Only.after (dataTurn_only (sub_trans rfl hW) (fun t0 => ?_)) ?_
  · refine Only.after (onlyIf_only (sub_trans rfl hW) (fun t1 => ?_)) ?_
    · exact slotStep_only (sub_trans rfl hW)
    · exact Only.rfl
  · exact Only.rfl

theorem execStreamPieceLanded_only {W : List Blk} {a0 : Nat} {a1 : Nat} {a2 : Machine.State} {t : Machine.State} (hW : sub [.free, .host, .rings, .cages, .beat, .mem, .mgmt, .links, .coll] W = true) (h : execStreamPieceLanded a0 a1 a2 = .next t) : Only W a2 t := by
  unfold execStreamPieceLanded at h
  cases h
  refine Only.after (dataTurn_only (sub_trans rfl hW) (fun t0 => ?_)) ?_
  · exact pieceLanded_only (sub_trans rfl hW)
  · exact Only.rfl

theorem execProgramEnd_only {W : List Blk} {a0 : Nat} {a1 : Machine.State} {t : Machine.State} (hW : sub [.free, .adit, .host, .rings, .cages, .beat, .mem, .mgmt, .links, .coll] W = true) (h : execProgramEnd a0 a1 = .next t) : Only W a1 t := by
  unfold execProgramEnd at h
  cases h
  refine Only.after (dataTurn_only (sub_trans rfl hW) (fun t0 => ?_)) ?_
  · exact programDone_only (sub_trans rfl hW)
  · exact Only.rfl

theorem execGateLimitExpiry_only {W : List Blk} {a0 : Nat} {a1 : Machine.State} {t : Machine.State} (hW : sub [.free, .host, .rings, .cages, .beat, .mem, .mgmt, .links, .coll] W = true) (h : execGateLimitExpiry a0 a1 = .next t) : Only W a1 t := by
  unfold execGateLimitExpiry at h
  cases h
  refine Only.after (dataTurn_only (sub_trans rfl hW) (fun t0 => ?_)) ?_
  · exact gateExpired_only (sub_trans rfl hW)
  · exact Only.rfl

theorem execDroopCrossing_only {W : List Blk} {a0 : Nat} {a1 : Machine.State} {t : Machine.State} (hW : sub [.free, .host, .rings, .cages, .beat, .mem, .mgmt, .links, .coll, .power] W = true) (h : execDroopCrossing a0 a1 = .next t) : Only W a1 t := by
  unfold execDroopCrossing at h
  cases h
  refine Only.after (dataTurn_only (sub_trans rfl hW) (fun t0 => ?_)) ?_
  · exact droop_only (sub_trans rfl hW)
  · exact Only.rfl

theorem execShadowAccessFail_only {W : List Blk} {a0 : Nat} {a1 : Machine.State} {t : Machine.State} (hW : sub [.free, .host, .rings, .cages, .beat, .mem, .mgmt, .links, .coll] W = true) (h : execShadowAccessFail a0 a1 = .next t) : Only W a1 t := by
  unfold execShadowAccessFail at h
  cases h
  refine Only.after (dataTurn_only (sub_trans rfl hW) (fun t0 => ?_)) ?_
  · exact shadowStop_only (sub_trans rfl hW)
  · exact Only.rfl

theorem execCollGroupCreate_only {W : List Blk} {a0 : Nat} {a1 : Nat} {a2 : Machine.State} {t : Machine.State} (hW : sub [.free, .host, .rings, .cages, .beat, .mem, .mgmt, .links, .coll] W = true) (h : execCollGroupCreate a0 a1 a2 = .next t) : Only W a2 t := by
  unfold execCollGroupCreate at h
  cases h
  refine Only.after (ringOp_only (sub_trans rfl hW) (fun _ t0 => ?_)) ?_
  · exact bodyCollCreate_only (sub_trans rfl hW)
  · exact Only.rfl

theorem execCollGroupDestroy_only {W : List Blk} {a0 : Nat} {a1 : Nat} {a2 : Machine.State} {t : Machine.State} (hW : sub [.free, .host, .rings, .cages, .beat, .mem, .mgmt, .links, .coll] W = true) (h : execCollGroupDestroy a0 a1 a2 = .next t) : Only W a2 t := by
  unfold execCollGroupDestroy at h
  cases h
  refine Only.after (ringOp_only (sub_trans rfl hW) (fun _ t0 => ?_)) ?_
  · exact bodyCollDestroy_only (sub_trans rfl hW)
  · exact Only.rfl

theorem execCollBufRegister_only {W : List Blk} {a0 : Nat} {a1 : Nat} {a2 : Machine.State} {t : Machine.State} (hW : sub [.free, .host, .rings, .cages, .beat, .mem, .mgmt, .links, .coll] W = true) (h : execCollBufRegister a0 a1 a2 = .next t) : Only W a2 t := by
  unfold execCollBufRegister at h
  cases h
  refine Only.after (ringOp_only (sub_trans rfl hW) (fun _ t0 => ?_)) ?_
  · exact bodyCollReg_only (sub_trans rfl hW)
  · exact Only.rfl

theorem execReduceScatter_only {W : List Blk} {a0 : Nat} {a1 : Nat} {a2 : Machine.State} {t : Machine.State} (hW : sub [.free, .host, .rings, .cages, .beat, .mem, .mgmt, .links, .coll] W = true) (h : execReduceScatter a0 a1 a2 = .next t) : Only W a2 t := by
  unfold execReduceScatter at h
  cases h
  refine Only.after (ringOp_only (sub_trans rfl hW) (fun _ t0 => ?_)) ?_
  · exact bodyCollOp_only (sub_trans rfl hW)
  · exact Only.rfl

theorem execAllGather_only {W : List Blk} {a0 : Nat} {a1 : Nat} {a2 : Machine.State} {t : Machine.State} (hW : sub [.free, .host, .rings, .cages, .beat, .mem, .mgmt, .links, .coll] W = true) (h : execAllGather a0 a1 a2 = .next t) : Only W a2 t := by
  unfold execAllGather at h
  cases h
  refine Only.after (ringOp_only (sub_trans rfl hW) (fun _ t0 => ?_)) ?_
  · exact bodyCollOp_only (sub_trans rfl hW)
  · exact Only.rfl

theorem execGroupHello_only {W : List Blk} {a0 : Nat} {a1 : Machine.State} {t : Machine.State} (hW : sub [.free, .host, .rings, .cages, .beat, .mem, .mgmt, .links, .coll] W = true) (h : execGroupHello a0 a1 = .next t) : Only W a1 t := by
  unfold execGroupHello at h
  cases h
  refine Only.after (linkTurn_only (sub_trans rfl hW) (fun t0 => ?_)) ?_
  · refine Only.after (withMsg_only (sub_trans rfl hW) (fun _ t1 => ?_)) ?_
    · exact helloMsg_only (sub_trans rfl hW)
    · exact Only.rfl
  · exact Only.rfl

theorem execGroupHelloResend_only {W : List Blk} {a0 : Nat} {a1 : Machine.State} {t : Machine.State} (hW : sub [.free, .host, .rings, .cages, .beat, .mem, .mgmt, .links, .coll] W = true) (h : execGroupHelloResend a0 a1 = .next t) : Only W a1 t := by
  unfold execGroupHelloResend at h
  cases h
  refine Only.after (dataTurn_only (sub_trans rfl hW) (fun t0 => ?_)) ?_
  · exact helloAgain_only (sub_trans rfl hW)
  · exact Only.rfl

theorem execGroupAck_only {W : List Blk} {a0 : Nat} {a1 : Machine.State} {t : Machine.State} (hW : sub [.free, .host, .rings, .cages, .beat, .mem, .mgmt, .links, .coll] W = true) (h : execGroupAck a0 a1 = .next t) : Only W a1 t := by
  unfold execGroupAck at h
  cases h
  refine Only.after (linkTurn_only (sub_trans rfl hW) (fun t0 => ?_)) ?_
  · refine Only.after (withMsg_only (sub_trans rfl hW) (fun _ t1 => ?_)) ?_
    · exact ackMsg_only (sub_trans rfl hW)
    · exact Only.rfl
  · exact Only.rfl

theorem execKeyOffer_only {W : List Blk} {a0 : Nat} {a1 : Machine.State} {t : Machine.State} (hW : sub [.free, .host, .rings, .cages, .beat, .mem, .mgmt, .links, .coll] W = true) (h : execKeyOffer a0 a1 = .next t) : Only W a1 t := by
  unfold execKeyOffer at h
  cases h
  refine Only.after (linkTurn_only (sub_trans rfl hW) (fun t0 => ?_)) ?_
  · refine Only.after (withMsg_only (sub_trans rfl hW) (fun _ t1 => ?_)) ?_
    · exact keyMsg_only (sub_trans rfl hW)
    · exact Only.rfl
  · exact Only.rfl

theorem execGroupBye_only {W : List Blk} {a0 : Nat} {a1 : Machine.State} {t : Machine.State} (hW : sub [.free, .host, .rings, .cages, .beat, .mem, .mgmt, .links, .coll] W = true) (h : execGroupBye a0 a1 = .next t) : Only W a1 t := by
  unfold execGroupBye at h
  cases h
  refine Only.after (linkTurn_only (sub_trans rfl hW) (fun t0 => ?_)) ?_
  · refine Only.after (withMsg_only (sub_trans rfl hW) (fun _ t1 => ?_)) ?_
    · exact byeMsg_only (sub_trans rfl hW)
    · exact Only.rfl
  · exact Only.rfl

theorem execCollWaitExpiry_only {W : List Blk} {a0 : Nat} {a1 : Nat} {a2 : Nat} {a3 : Machine.State} {t : Machine.State} (hW : sub [.free, .host, .rings, .cages, .beat, .mem, .mgmt, .links, .coll] W = true) (h : execCollWaitExpiry a0 a1 a2 a3 = .next t) : Only W a3 t := by
  unfold execCollWaitExpiry at h
  cases h
  refine Only.after (dataTurn_only (sub_trans rfl hW) (fun t0 => ?_)) ?_
  · exact waitExpired_only (sub_trans rfl hW)
  · exact Only.rfl

theorem execCollOpStart_only {W : List Blk} {a0 : Nat} {a1 : Machine.State} {t : Machine.State} (hW : sub [.free, .host, .rings, .cages, .beat, .mem, .mgmt, .links, .coll] W = true) (h : execCollOpStart a0 a1 = .next t) : Only W a1 t := by
  unfold execCollOpStart at h
  cases h
  refine Only.after (dataTurn_only (sub_trans rfl hW) (fun t0 => ?_)) ?_
  · exact opStart_only (sub_trans rfl hW)
  · exact Only.rfl

theorem execBindStartWaitEnd_only {W : List Blk} {a0 : Nat} {a1 : Machine.State} {t : Machine.State} (hW : sub [.free, .host, .rings, .cages, .beat, .mem, .mgmt, .links, .coll] W = true) (h : execBindStartWaitEnd a0 a1 = .next t) : Only W a1 t := by
  unfold execBindStartWaitEnd at h
  cases h
  refine Only.after (dataTurn_only (sub_trans rfl hW) (fun t0 => ?_)) ?_
  · exact bindWaitEnd_only (sub_trans rfl hW)
  · exact Only.rfl

theorem execBindSourceGateMet_only {W : List Blk} {a0 : Nat} {a1 : Machine.State} {t : Machine.State} (hW : sub [.free, .host, .rings, .cages, .beat, .mem, .mgmt, .links, .coll] W = true) (h : execBindSourceGateMet a0 a1 = .next t) : Only W a1 t := by
  unfold execBindSourceGateMet at h
  cases h
  refine Only.after (dataTurn_only (sub_trans rfl hW) (fun t0 => ?_)) ?_
  · exact sourceGate_only (sub_trans rfl hW)
  · exact Only.rfl

theorem execOpReady_only {W : List Blk} {a0 : Nat} {a1 : Machine.State} {t : Machine.State} (hW : sub [.free, .host, .rings, .cages, .beat, .mem, .mgmt, .links, .coll] W = true) (h : execOpReady a0 a1 = .next t) : Only W a1 t := by
  unfold execOpReady at h
  cases h
  refine Only.after (linkTurn_only (sub_trans rfl hW) (fun t0 => ?_)) ?_
  · refine Only.after (withMsg_only (sub_trans rfl hW) (fun _ t1 => ?_)) ?_
    · exact readyMsg_only (sub_trans rfl hW)
    · exact Only.rfl
  · exact Only.rfl

theorem execChunkStart_only {W : List Blk} {a0 : Nat} {a1 : Machine.State} {t : Machine.State} (hW : sub [.free, .host, .rings, .cages, .beat, .mem, .mgmt, .links, .coll] W = true) (h : execChunkStart a0 a1 = .next t) : Only W a1 t := by
  unfold execChunkStart at h
  cases h
  refine Only.after (dataTurn_only (sub_trans rfl hW) (fun t0 => ?_)) ?_
  · refine Only.after (onlyIf_only (sub_trans rfl hW) (fun t1 => ?_)) ?_
    · exact chunkStart_only (sub_trans rfl hW)
    · exact Only.rfl
  · exact Only.rfl

theorem execCollData_only {W : List Blk} {a0 : Nat} {a1 : Nat} {a2 : Machine.State} {t : Machine.State} (hW : sub [.free, .host, .rings, .cages, .beat, .mem, .mgmt, .links, .coll] W = true) (h : execCollData a0 a1 a2 = .next t) : Only W a2 t := by
  unfold execCollData at h
  cases h
  refine Only.after (linkTurn_only (sub_trans rfl hW) (fun t0 => ?_)) ?_
  · exact collDataIn_only (sub_trans rfl hW)
  · exact Only.rfl

theorem execChunkEnd_only {W : List Blk} {a0 : Nat} {a1 : Nat} {a2 : Machine.State} {t : Machine.State} (hW : sub [.free, .host, .rings, .cages, .beat, .mem, .mgmt, .links, .coll] W = true) (h : execChunkEnd a0 a1 a2 = .next t) : Only W a2 t := by
  unfold execChunkEnd at h
  cases h
  refine Only.after (linkTurn_only (sub_trans rfl hW) (fun t0 => ?_)) ?_
  · refine Only.after (withMsg_only (sub_trans rfl hW) (fun _ t1 => ?_)) ?_
    · exact chunkEndMsg_only (sub_trans rfl hW)
    · exact Only.rfl
  · exact Only.rfl

theorem execChunkCheck_only {W : List Blk} {a0 : Nat} {a1 : Nat} {a2 : Nat} {a3 : Machine.State} {t : Machine.State} (hW : sub [.free, .host, .rings, .cages, .beat, .mem, .mgmt, .links, .coll] W = true) (h : execChunkCheck a0 a1 a2 a3 = .next t) : Only W a3 t := by
  unfold execChunkCheck at h
  cases h
  refine Only.after (dataTurn_only (sub_trans rfl hW) (fun t0 => ?_)) ?_
  · exact chunkCheck_only (sub_trans rfl hW)
  · exact Only.rfl

theorem execChunkAck_only {W : List Blk} {a0 : Nat} {a1 : Machine.State} {t : Machine.State} (hW : sub [.free, .host, .rings, .cages, .beat, .mem, .mgmt, .links, .coll] W = true) (h : execChunkAck a0 a1 = .next t) : Only W a1 t := by
  unfold execChunkAck at h
  cases h
  refine Only.after (linkTurn_only (sub_trans rfl hW) (fun t0 => ?_)) ?_
  · refine Only.after (withMsg_only (sub_trans rfl hW) (fun _ t1 => ?_)) ?_
    · exact chunkAckMsg_only (sub_trans rfl hW)
    · exact Only.rfl
  · exact Only.rfl

theorem execOpAbort_only {W : List Blk} {a0 : Nat} {a1 : Machine.State} {t : Machine.State} (hW : sub [.free, .host, .rings, .cages, .beat, .mem, .mgmt, .links, .coll] W = true) (h : execOpAbort a0 a1 = .next t) : Only W a1 t := by
  unfold execOpAbort at h
  cases h
  refine Only.after (linkTurn_only (sub_trans rfl hW) (fun t0 => ?_)) ?_
  · refine Only.after (withMsg_only (sub_trans rfl hW) (fun _ t1 => ?_)) ?_
    · exact abortMsg_only (sub_trans rfl hW)
    · exact Only.rfl
  · exact Only.rfl

theorem execCollProgressTimeout_only {W : List Blk} {a0 : Nat} {a1 : Nat} {a2 : Machine.State} {t : Machine.State} (hW : sub [.free, .host, .rings, .cages, .beat, .mem, .mgmt, .links, .coll] W = true) (h : execCollProgressTimeout a0 a1 a2 = .next t) : Only W a2 t := by
  unfold execCollProgressTimeout at h
  cases h
  refine Only.after (dataTurn_only (sub_trans rfl hW) (fun t0 => ?_)) ?_
  · exact progressTimeout_only (sub_trans rfl hW)
  · exact Only.rfl

theorem execCollDrainComplete_only {W : List Blk} {a0 : Nat} {a1 : Machine.State} {t : Machine.State} (hW : sub [.free, .host, .rings, .cages, .beat, .mem, .mgmt, .links, .coll] W = true) (h : execCollDrainComplete a0 a1 = .next t) : Only W a1 t := by
  unfold execCollDrainComplete at h
  cases h
  refine Only.after (dataTurn_only (sub_trans rfl hW) (fun t0 => ?_)) ?_
  · exact collDrained_only (sub_trans rfl hW)
  · exact Only.rfl

theorem execCollErrCountTimer_only {W : List Blk} {a0 : Machine.State} {t : Machine.State} (hW : sub [.free, .host, .rings, .cages, .beat, .mem, .mgmt, .links, .coll] W = true) (h : execCollErrCountTimer a0 = .next t) : Only W a0 t := by
  unfold execCollErrCountTimer at h
  cases h
  refine Only.after (dataTurn_only (sub_trans rfl hW) (fun t0 => ?_)) ?_
  · exact collErrCount_only (sub_trans rfl hW)
  · exact Only.rfl

theorem execDieSensorSample_only {W : List Blk} {a0 : List (Option Int)} {a1 : Machine.State} {t : Machine.State} (hW : sub [.adit, .mgmt, .power, .heat] W = true) (h : execDieSensorSample a0 a1 = .next t) : Only W a1 t := by
  unfold execDieSensorSample at h
  cases h
  refine Only.after (mgmtTurn_only (sub_trans rfl hW) (fun t0 => ?_)) ?_
  · exact dieSample_only (sub_trans rfl hW)
  · exact Only.rfl

theorem execCoolantSensorSample_only {W : List Blk} {a0 : CoolantIn} {a1 : Machine.State} {t : Machine.State} (hW : sub [.adit, .mgmt, .power, .heat, .pump] W = true) (h : execCoolantSensorSample a0 a1 = .next t) : Only W a1 t := by
  unfold execCoolantSensorSample at h
  cases h
  refine Only.after (mgmtTurn_only (sub_trans rfl hW) (fun t0 => ?_)) ?_
  · exact coolantSample_only (sub_trans rfl hW)
  · exact Only.rfl

theorem execHumiditySample_only {W : List Blk} {a0 : Option Int} {a1 : Option Int} {a2 : Option Int} {a3 : Machine.State} {t : Machine.State} (hW : sub [.adit, .mgmt, .heat] W = true) (h : execHumiditySample a0 a1 a2 a3 = .next t) : Only W a3 t := by
  unfold execHumiditySample at h
  cases h
  refine Only.after (mgmtTurn_only (sub_trans rfl hW) (fun t0 => ?_)) ?_
  · exact humiditySample_only (sub_trans rfl hW)
  · exact Only.rfl

theorem execSensorValidAgain_only {W : List Blk} {a0 : Nat} {a1 : Machine.State} {t : Machine.State} (hW : sub [.adit, .mgmt, .heat] W = true) (h : execSensorValidAgain a0 a1 = .next t) : Only W a1 t := by
  unfold execSensorValidAgain at h
  cases h
  refine Only.after (mgmtTurn_only (sub_trans rfl hW) (fun t0 => ?_)) ?_
  · exact sensorAgain_only (sub_trans rfl hW)
  · exact Only.rfl

theorem execProbeDisagree_only {W : List Blk} {a0 : Nat} {a1 : Machine.State} {t : Machine.State} (hW : sub [.adit, .mgmt, .heat] W = true) (h : execProbeDisagree a0 a1 = .next t) : Only W a1 t := by
  unfold execProbeDisagree at h
  cases h
  refine Only.after (mgmtTurn_only (sub_trans rfl hW) (fun t0 => ?_)) ?_
  · exact probeDisagree_only (sub_trans rfl hW)
  · exact Only.rfl

theorem execZoneRecovery_only {W : List Blk} {a0 : Nat} {a1 : Machine.State} {t : Machine.State} (hW : sub [.adit, .mgmt, .power, .heat] W = true) (h : execZoneRecovery a0 a1 = .next t) : Only W a1 t := by
  unfold execZoneRecovery at h
  cases h
  refine Only.after (mgmtTurn_only (sub_trans rfl hW) (fun t0 => ?_)) ?_
  · exact zoneRecover_only (sub_trans rfl hW)
  · exact Only.rfl

theorem execThresholdDwellExpiry_only {W : List Blk} {a0 : Nat} {a1 : Machine.State} {t : Machine.State} (hW : sub [.adit, .mgmt, .heat] W = true) (h : execThresholdDwellExpiry a0 a1 = .next t) : Only W a1 t := by
  unfold execThresholdDwellExpiry at h
  cases h
  refine Only.after (mgmtTurn_only (sub_trans rfl hW) (fun t0 => ?_)) ?_
  · exact thrDwell_only (sub_trans rfl hW)
  · exact Only.rfl

theorem execThermalDemandUpdate_only {W : List Blk} {a0 : Machine.State} {t : Machine.State} (hW : sub [.adit, .mgmt, .heat] W = true) (h : execThermalDemandUpdate a0 = .next t) : Only W a0 t := by
  unfold execThermalDemandUpdate at h
  cases h
  refine Only.after (mgmtTurn_only (sub_trans rfl hW) (fun t0 => ?_)) ?_
  · exact thermalDemand_only (sub_trans rfl hW)
  · exact Only.rfl

theorem execCoolantDemandUpdate_only {W : List Blk} {a0 : Machine.State} {t : Machine.State} (hW : sub [.adit, .mgmt, .heat] W = true) (h : execCoolantDemandUpdate a0 = .next t) : Only W a0 t := by
  unfold execCoolantDemandUpdate at h
  cases h
  refine Only.after (mgmtTurn_only (sub_trans rfl hW) (fun t0 => ?_)) ?_
  · exact coolantDemand_only (sub_trans rfl hW)
  · exact Only.rfl

theorem execDewMarginDwell_only {W : List Blk} {a0 : Machine.State} {t : Machine.State} (hW : sub [.adit, .mgmt, .heat] W = true) (h : execDewMarginDwell a0 = .next t) : Only W a0 t := by
  unfold execDewMarginDwell at h
  cases h
  refine Only.after (mgmtTurn_only (sub_trans rfl hW) (fun t0 => ?_)) ?_
  · exact dewDwell_only (sub_trans rfl hW)
  · exact Only.rfl

theorem execBreachCheck_only {W : List Blk} {a0 : Machine.State} {t : Machine.State} (hW : sub [.adit, .mgmt, .heat, .pump] W = true) (h : execBreachCheck a0 = .next t) : Only W a0 t := by
  unfold execBreachCheck at h
  cases h
  refine Only.after (mgmtTurn_only (sub_trans rfl hW) (fun t0 => ?_)) ?_
  · exact breachCheck_only (sub_trans rfl hW)
  · exact Only.rfl

theorem execThermalTimeout_only {W : List Blk} {a0 : Nat} {a1 : Machine.State} {t : Machine.State} (hW : sub [.adit, .mgmt, .heat, .pump] W = true) (h : execThermalTimeout a0 a1 = .next t) : Only W a1 t := by
  unfold execThermalTimeout at h
  cases h
  refine Only.after (mgmtTurn_only (sub_trans rfl hW) (fun t0 => ?_)) ?_
  · exact thermalTimeout_only (sub_trans rfl hW)
  · exact Only.rfl

theorem execSetAdmit_only {W : List Blk} {a0 : Machine.State} {t : Machine.State} (hW : sub [.adit, .mgmt, .heat] W = true) (h : execSetAdmit a0 = .next t) : Only W a0 t := by
  unfold execSetAdmit at h
  cases h
  refine Only.after (mgmtTurn_only (sub_trans rfl hW) (fun t0 => ?_)) ?_
  · exact polSetAdmit_only (sub_trans rfl hW)
  · exact Only.rfl

theorem execSetBreach_only {W : List Blk} {a0 : Machine.State} {t : Machine.State} (hW : sub [.adit, .mgmt, .heat] W = true) (h : execSetBreach a0 = .next t) : Only W a0 t := by
  unfold execSetBreach at h
  cases h
  refine Only.after (mgmtTurn_only (sub_trans rfl hW) (fun t0 => ?_)) ?_
  · exact polSetBreach_only (sub_trans rfl hW)
  · exact Only.rfl

theorem execHeatNow_only {W : List Blk} {a0 : Machine.State} {t : Machine.State} (hW : sub [.adit, .mgmt] W = true) (h : execHeatNow a0 = .next t) : Only W a0 t := by
  unfold execHeatNow at h
  cases h
  refine Only.after (mgmtTurn_only (sub_trans rfl hW) (fun t0 => ?_)) ?_
  · exact polHeatNow_only (sub_trans rfl hW)
  · exact Only.rfl

theorem execHeatStatusTimer_only {W : List Blk} {a0 : Machine.State} {t : Machine.State} (hW : sub [.adit, .mgmt] W = true) (h : execHeatStatusTimer a0 = .next t) : Only W a0 t := by
  unfold execHeatStatusTimer at h
  cases h
  refine Only.after (mgmtTurn_only (sub_trans rfl hW) (fun t0 => ?_)) ?_
  · exact heatStatus_only (sub_trans rfl hW)
  · exact Only.rfl

theorem execConfigRequest_only {W : List Blk} {a0 : Nat} {a1 : CfgOp} {a2 : Machine.State} {t : Machine.State} (hW : sub [.free, .host, .rings, .cages, .beat, .mem, .mgmt, .links, .coll] W = true) (h : execConfigRequest a0 a1 a2 = .next t) : Only W a2 t := by
  unfold execConfigRequest at h
  cases h
  exact Only.after (settle_only (sub_trans rfl hW)) (configRequest_only (sub_trans rfl hW))

theorem execControlPlaneReady_only {W : List Blk} {a0 : Machine.State} {t : Machine.State} (hW : sub [.host] W = true) (h : execControlPlaneReady a0 = .next t) : Only W a0 t := by
  unfold execControlPlaneReady at h
  cases h
  exact controlReady_only (sub_trans rfl hW)

theorem execVfEnableSet_only {W : List Blk} {a0 : Machine.State} {t : Machine.State} (hW : sub [.free, .host, .rings, .cages, .beat, .mem, .mgmt, .links, .coll] W = true) (h : execVfEnableSet a0 = .next t) : Only W a0 t := by
  unfold execVfEnableSet at h
  cases h
  refine Only.after (cfgTurn_only (sub_trans rfl hW) (fun t0 => ?_)) ?_
  · exact vfEnable_only (sub_trans rfl hW)
  · exact Only.rfl

theorem execVfEnableClear_only {W : List Blk} {a0 : Machine.State} {t : Machine.State} (hW : sub [.free, .ao, .adit, .host, .rings, .cages, .beat, .mem, .mgmt, .links, .coll] W = true) (h : execVfEnableClear a0 = .next t) : Only W a0 t := by
  unfold execVfEnableClear at h
  cases h
  refine Only.after (cfgTurn_only (sub_trans rfl hW) (fun t0 => ?_)) ?_
  · exact vfDisable_only (sub_trans rfl hW)
  · exact Only.rfl

theorem execVfRrsEnd_only {W : List Blk} {a0 : Machine.State} {t : Machine.State} (hW : sub [.free, .host, .rings, .cages, .beat, .mem, .mgmt, .links, .coll] W = true) (h : execVfRrsEnd a0 = .next t) : Only W a0 t := by
  unfold execVfRrsEnd at h
  cases h
  refine Only.after (ctlTurn_only (sub_trans rfl hW) (fun t0 => ?_)) ?_
  · exact vfRrsEnd_only (sub_trans rfl hW)
  · exact Only.rfl

theorem execFlr_only {W : List Blk} {a0 : Nat} {a1 : Machine.State} {t : Machine.State} (hW : sub [.free, .ao, .adit, .host, .rings, .cages, .beat, .mem, .mgmt, .links, .coll] W = true) (h : execFlr a0 a1 = .next t) : Only W a1 t := by
  unfold execFlr at h
  cases h
  refine Only.after (cfgTurn_only (sub_trans rfl hW) (fun t0 => ?_)) ?_
  · exact flr_only (sub_trans rfl hW)
  · exact Only.rfl

theorem execFlrComplete_only {W : List Blk} {a0 : Nat} {a1 : Machine.State} {t : Machine.State} (hW : sub [.free, .host, .rings, .cages, .beat, .mem, .mgmt, .links, .coll] W = true) (h : execFlrComplete a0 a1 = .next t) : Only W a1 t := by
  unfold execFlrComplete at h
  cases h
  refine Only.after (ctlTurn_only (sub_trans rfl hW) (fun t0 => ?_)) ?_
  · exact flrComplete_only (sub_trans rfl hW)
  · exact Only.rfl

theorem execD3hotEntry_only {W : List Blk} {a0 : Nat} {a1 : Machine.State} {t : Machine.State} (hW : sub [.free, .ao, .adit, .host, .rings, .cages, .beat, .mem, .mgmt, .links, .coll] W = true) (h : execD3hotEntry a0 a1 = .next t) : Only W a1 t := by
  unfold execD3hotEntry at h
  cases h
  refine Only.after (cfgTurn_only (sub_trans rfl hW) (fun t0 => ?_)) ?_
  · exact flr_only (sub_trans rfl hW)
  · exact Only.rfl

theorem execBusMasterEnableClear_only {W : List Blk} {a0 : Nat} {a1 : Machine.State} {t : Machine.State} (hW : sub [.free, .host, .rings, .cages, .beat, .mem, .mgmt, .links, .coll] W = true) (h : execBusMasterEnableClear a0 a1 = .next t) : Only W a1 t := by
  unfold execBusMasterEnableClear at h
  cases h
  refine Only.after (cfgTurn_only (sub_trans rfl hW) (fun t0 => ?_)) ?_
  · exact busMasterOff_only (sub_trans rfl hW)
  · exact Only.rfl

theorem execBusMasterEnableSet_only {W : List Blk} {a0 : Nat} {a1 : Machine.State} {t : Machine.State} (hW : sub [.free, .host, .rings, .cages, .beat, .mem, .mgmt, .links, .coll] W = true) (h : execBusMasterEnableSet a0 a1 = .next t) : Only W a1 t := by
  unfold execBusMasterEnableSet at h
  cases h
  refine Only.after (cfgTurn_only (sub_trans rfl hW) (fun t0 => ?_)) ?_
  · exact busMasterSet_only (sub_trans rfl hW)
  · exact Only.rfl

theorem execAtsEnableChange_only {W : List Blk} {a0 : Nat} {a1 : Bool} {a2 : Machine.State} {t : Machine.State} (hW : sub [.free, .host, .rings, .cages, .beat, .mem, .mgmt, .links, .coll] W = true) (h : execAtsEnableChange a0 a1 a2 = .next t) : Only W a2 t := by
  unfold execAtsEnableChange at h
  cases h
  refine Only.after (cfgTurn_only (sub_trans rfl hW) (fun t0 => ?_)) ?_
  · exact setAts_only (sub_trans rfl hW)
  · exact Only.rfl

theorem execTranslationCompletion_only {W : List Blk} {a0 : Nat} {a1 : XlResult} {a2 : Machine.State} {t : Machine.State} (hW : sub [.free, .host, .rings, .cages, .beat, .mem, .mgmt, .links, .coll] W = true) (h : execTranslationCompletion a0 a1 a2 = .next t) : Only W a2 t := by
  unfold execTranslationCompletion at h
  cases h
  refine Only.after (ctlTurn_only (sub_trans rfl hW) (fun t0 => ?_)) ?_
  · exact xlComplete_only (sub_trans rfl hW)
  · exact Only.rfl

theorem execInvalidateRequest_only {W : List Blk} {a0 : Nat} {a1 : Nat} {a2 : Nat} {a3 : Machine.State} {t : Machine.State} (hW : sub [.free, .host, .rings, .cages, .beat, .mem, .mgmt, .links, .coll] W = true) (h : execInvalidateRequest a0 a1 a2 a3 = .next t) : Only W a3 t := by
  unfold execInvalidateRequest at h
  cases h
  refine Only.after (ctlTurn_only (sub_trans rfl hW) (fun t0 => ?_)) ?_
  · exact invalidate_only (sub_trans rfl hW)
  · exact Only.rfl

theorem execInvalidateComplete_only {W : List Blk} {a0 : Nat} {a1 : Nat} {a2 : Nat} {a3 : Machine.State} {t : Machine.State} (hW : sub [.free, .host, .rings, .cages, .beat, .mem, .mgmt, .links, .coll] W = true) (h : execInvalidateComplete a0 a1 a2 a3 = .next t) : Only W a3 t := by
  unfold execInvalidateComplete at h
  cases h
  refine Only.after (ctlTurn_only (sub_trans rfl hW) (fun t0 => ?_)) ?_
  · exact invalidateDone_only (sub_trans rfl hW)
  · exact Only.rfl

theorem execHostReadCompletion_only {W : List Blk} {a0 : Nat} {a1 : ReadResult} {a2 : Machine.State} {t : Machine.State} (hW : sub [.free, .host, .rings, .cages, .beat, .mem, .mgmt, .links, .coll] W = true) (h : execHostReadCompletion a0 a1 a2 = .next t) : Only W a2 t := by
  unfold execHostReadCompletion at h
  cases h
  refine Only.after (ctlTurn_only (sub_trans rfl hW) (fun t0 => ?_)) ?_
  · exact readComplete_only (sub_trans rfl hW)
  · exact Only.rfl

theorem execCompletionTimeout_only {W : List Blk} {a0 : ReadRef} {a1 : Machine.State} {t : Machine.State} (hW : sub [.free, .host, .rings, .cages, .beat, .mem, .mgmt, .links, .coll] W = true) (h : execCompletionTimeout a0 a1 = .next t) : Only W a1 t := by
  unfold execCompletionTimeout at h
  cases h
  refine Only.after (ctlTurn_only (sub_trans rfl hW) (fun t0 => ?_)) ?_
  · exact readTimeout_only (sub_trans rfl hW)
  · exact Only.rfl

theorem execAckDllp_only {W : List Blk} {a0 : Nat} {a1 : Machine.State} {t : Machine.State} (hW : sub [.free, .host, .rings, .cages, .beat, .mem, .mgmt, .links, .coll] W = true) (h : execAckDllp a0 a1 = .next t) : Only W a1 t := by
  unfold execAckDllp at h
  cases h
  refine Only.after (ctlTurn_only (sub_trans rfl hW) (fun t0 => ?_)) ?_
  · exact ackTlps_only (sub_trans rfl hW)
  · exact Only.rfl

theorem execUnsupportedRequest_only {W : List Blk} {a0 : Nat} {a1 : Machine.State} {t : Machine.State} (hW : sub [.free, .host, .rings, .cages, .beat, .mem, .mgmt, .links, .coll] W = true) (h : execUnsupportedRequest a0 a1 = .next t) : Only W a1 t := by
  unfold execUnsupportedRequest at h
  cases h
  refine Only.after (ctlTurn_only (sub_trans rfl hW) (fun t0 => ?_)) ?_
  · exact windowError_only (sub_trans rfl hW)
  · exact Only.rfl

theorem execPoisonedWindowWrite_only {W : List Blk} {a0 : Nat} {a1 : Machine.State} {t : Machine.State} (hW : sub [.free, .host, .rings, .cages, .beat, .mem, .mgmt, .links, .coll] W = true) (h : execPoisonedWindowWrite a0 a1 = .next t) : Only W a1 t := by
  unfold execPoisonedWindowWrite at h
  cases h
  refine Only.after (ctlTurn_only (sub_trans rfl hW) (fun t0 => ?_)) ?_
  · refine Only.after (onlyIf_only (sub_trans rfl hW) (fun t1 => ?_)) ?_
    · exact windowError_only (sub_trans rfl hW)
    · exact Only.rfl
  · exact Only.rfl

theorem execUncorrectableInternalError_only {W : List Blk} {a0 : Machine.State} {t : Machine.State} (hW : sub [.free, .host, .rings, .cages, .beat, .mem, .mgmt, .links, .coll] W = true) (h : execUncorrectableInternalError a0 = .next t) : Only W a0 t := by
  unfold execUncorrectableInternalError at h
  cases h
  refine Only.after (ctlTurn_only (sub_trans rfl hW) (fun t0 => ?_)) ?_
  · exact fatalInternal_only (sub_trans rfl hW)
  · exact Only.rfl

theorem execMsixUnmask_only {W : List Blk} {a0 : Nat} {a1 : Nat} {a2 : Machine.State} {t : Machine.State} (hW : sub [.host] W = true) (h : execMsixUnmask a0 a1 a2 = .next t) : Only W a2 t := by
  unfold execMsixUnmask at h
  cases h
  refine Only.after (windowAccess_only (sub_trans rfl hW) (fun t0 => ?_)) ?_
  · exact msixUnmask_only (sub_trans rfl hW)
  · exact Only.rfl

theorem execCoalTimeExpiry_only {W : List Blk} {a0 : Nat} {a1 : Nat} {a2 : Machine.State} {t : Machine.State} (hW : sub [.free, .host, .rings, .cages, .beat, .mem, .mgmt, .links, .coll] W = true) (h : execCoalTimeExpiry a0 a1 a2 = .next t) : Only W a2 t := by
  unfold execCoalTimeExpiry at h
  cases h
  refine Only.after (ctlTurn_only (sub_trans rfl hW) (fun t0 => ?_)) ?_
  · exact coalExpired_only (sub_trans rfl hW)
  · exact Only.rfl

theorem execAspmL1Entry_only {W : List Blk} {a0 : Machine.State} {t : Machine.State} (hW : sub [.free, .host, .rings, .cages, .beat, .mem, .mgmt, .links, .coll] W = true) (h : execAspmL1Entry a0 = .next t) : Only W a0 t := by
  unfold execAspmL1Entry at h
  cases h
  refine Only.after (ctlTurn_only (sub_trans rfl hW) (fun t0 => ?_)) ?_
  · exact enterL1_only (sub_trans rfl hW)
  · exact Only.rfl

theorem execMctpVdm_only {W : List Blk} {a0 : Nat} {a1 : Bytes} {a2 : Machine.State} {t : Machine.State} (hW : sub [.free, .adit, .host, .rings, .cages, .beat, .mem, .mgmt, .links, .coll] W = true) (h : execMctpVdm a0 a1 a2 = .next t) : Only W a2 t := by
  unfold execMctpVdm at h
  cases h
  refine Only.after (ctlTurn_only (sub_trans rfl hW) (fun t0 => ?_)) ?_
  · exact mctpVdm_only (sub_trans rfl hW)
  · exact Only.rfl

theorem execDblCtlEnSet_only {W : List Blk} {a0 : Nat} {a1 : W32} {a2 : Machine.State} {t : Machine.State} (hW : sub [.free, .adit, .host, .rings, .cages, .beat, .mem, .mgmt, .links, .coll] W = true) (h : execDblCtlEnSet a0 a1 a2 = .next t) : Only W a2 t := by
  unfold execDblCtlEnSet at h
  cases h
  exact writeRow_only (sub_trans rfl hW)

theorem execDblCtlEnClear_only {W : List Blk} {a0 : Nat} {a1 : W32} {a2 : Machine.State} {t : Machine.State} (hW : sub [.free, .adit, .host, .rings, .cages, .beat, .mem, .mgmt, .links, .coll] W = true) (h : execDblCtlEnClear a0 a1 a2 = .next t) : Only W a2 t := by
  unfold execDblCtlEnClear at h
  cases h
  exact writeRow_only (sub_trans rfl hW)

theorem execDoorbellPoll_only {W : List Blk} {a0 : Nat} {a1 : Machine.State} {t : Machine.State} (hW : sub [.free, .host, .rings, .cages, .beat, .mem, .mgmt, .links, .coll] W = true) (h : execDoorbellPoll a0 a1 = .next t) : Only W a1 t := by
  unfold execDoorbellPoll at h
  cases h
  refine Only.after (ctlTurn_only (sub_trans rfl hW) (fun t0 => ?_)) ?_
  · exact dblPoll_only (sub_trans rfl hW)
  · exact Only.rfl

theorem execDoorbellTagFree_only {W : List Blk} {a0 : Nat} {a1 : Machine.State} {t : Machine.State} (hW : sub [.free, .host, .rings, .cages, .beat, .mem, .mgmt, .links, .coll] W = true) (h : execDoorbellTagFree a0 a1 = .next t) : Only W a1 t := by
  unfold execDoorbellTagFree at h
  cases h
  refine Only.after (ctlTurn_only (sub_trans rfl hW) (fun t0 => ?_)) ?_
  · exact dblTagFree_only (sub_trans rfl hW)
  · exact Only.rfl

theorem execDoorbellReadComplete_only {W : List Blk} {a0 : Nat} {a1 : ReadResult} {a2 : Machine.State} {t : Machine.State} (hW : sub [.free, .host, .rings, .cages, .beat, .mem, .mgmt, .links, .coll] W = true) (h : execDoorbellReadComplete a0 a1 a2 = .next t) : Only W a2 t := by
  unfold execDoorbellReadComplete at h
  cases h
  refine Only.after (ctlTurn_only (sub_trans rfl hW) (fun t0 => ?_)) ?_
  · exact dblComplete_only (sub_trans rfl hW)
  · exact Only.rfl

theorem execLnMessage_only {W : List Blk} {a0 : Nat} {a1 : Machine.State} {t : Machine.State} (hW : sub [.free, .host, .rings, .cages, .beat, .mem, .mgmt, .links, .coll] W = true) (h : execLnMessage a0 a1 = .next t) : Only W a1 t := by
  unfold execLnMessage at h
  cases h
  refine Only.after (ctlTurn_only (sub_trans rfl hW) (fun t0 => ?_)) ?_
  · exact lnMessage_only (sub_trans rfl hW)
  · exact Only.rfl

theorem execLnBackstop_only {W : List Blk} {a0 : Nat} {a1 : Machine.State} {t : Machine.State} (hW : sub [.free, .host, .rings, .cages, .beat, .mem, .mgmt, .links, .coll] W = true) (h : execLnBackstop a0 a1 = .next t) : Only W a1 t := by
  unfold execLnBackstop at h
  cases h
  refine Only.after (ctlTurn_only (sub_trans rfl hW) (fun t0 => ?_)) ?_
  · exact lnBackstop_only (sub_trans rfl hW)
  · exact Only.rfl

theorem execReceiverError_only {W : List Blk} {a0 : Machine.State} {t : Machine.State} (hW : sub [.free, .host, .rings, .cages, .beat, .mem, .mgmt, .links, .coll] W = true) (h : execReceiverError a0 = .next t) : Only W a0 t := by
  unfold execReceiverError at h
  cases h
  refine Only.after (ctlTurn_only (sub_trans rfl hW) (fun t0 => ?_)) ?_
  · exact aerCorrectable_only (sub_trans rfl hW)
  · exact Only.rfl

theorem execCorrectedInternalError_only {W : List Blk} {a0 : Machine.State} {t : Machine.State} (hW : sub [.free, .host, .rings, .cages, .beat, .mem, .mgmt, .links, .coll] W = true) (h : execCorrectedInternalError a0 = .next t) : Only W a0 t := by
  unfold execCorrectedInternalError at h
  cases h
  refine Only.after (ctlTurn_only (sub_trans rfl hW) (fun t0 => ?_)) ?_
  · exact aerCorrectable_only (sub_trans rfl hW)
  · exact Only.rfl

theorem execEcrcError_only {W : List Blk} {a0 : Nat} {a1 : Option ReadRef} {a2 : Machine.State} {t : Machine.State} (hW : sub [.free, .host, .rings, .cages, .beat, .mem, .mgmt, .links, .coll] W = true) (h : execEcrcError a0 a1 a2 = .next t) : Only W a2 t := by
  unfold execEcrcError at h
  cases h
  refine Only.after (ctlTurn_only (sub_trans rfl hW) (fun t0 => ?_)) ?_
  · exact ecrcFail_only (sub_trans rfl hW)
  · exact Only.rfl

theorem execMalformedTlp_only {W : List Blk} {a0 : Machine.State} {t : Machine.State} (hW : sub [.free, .host, .rings, .cages, .beat, .mem, .mgmt, .links, .coll] W = true) (h : execMalformedTlp a0 = .next t) : Only W a0 t := by
  unfold execMalformedTlp at h
  cases h
  refine Only.after (ctlTurn_only (sub_trans rfl hW) (fun t0 => ?_)) ?_
  · exact aerUncorrectable_only (sub_trans rfl hW)
  · exact Only.rfl

theorem execLinkEnSet_only {W : List Blk} {a0 : Nat} {a1 : W32} {a2 : Machine.State} {t : Machine.State} (hW : sub [.free, .adit, .host, .rings, .cages, .beat, .mem, .mgmt, .links, .coll] W = true) (h : execLinkEnSet a0 a1 a2 = .next t) : Only W a2 t := by
  unfold execLinkEnSet at h
  cases h
  exact writeRow_only (sub_trans rfl hW)

theorem execLinkEnClear_only {W : List Blk} {a0 : Nat} {a1 : W32} {a2 : Machine.State} {t : Machine.State} (hW : sub [.free, .adit, .host, .rings, .cages, .beat, .mem, .mgmt, .links, .coll] W = true) (h : execLinkEnClear a0 a1 a2 = .next t) : Only W a2 t := by
  unfold execLinkEnClear at h
  cases h
  exact writeRow_only (sub_trans rfl hW)

theorem execLaneStartupComplete_only {W : List Blk} {a0 : Nat} {a1 : Nat} {a2 : Machine.State} {t : Machine.State} (hW : sub [.free, .host, .rings, .cages, .beat, .mem, .mgmt, .links, .coll] W = true) (h : execLaneStartupComplete a0 a1 a2 = .next t) : Only W a2 t := by
  unfold execLaneStartupComplete at h
  cases h
  refine Only.after (linkTurn_only (sub_trans rfl hW) (fun t0 => ?_)) ?_
  · exact laneDone_only (sub_trans rfl hW)
  · exact Only.rfl

theorem execHello_only {W : List Blk} {a0 : Nat} {a1 : Bytes} {a2 : Machine.State} {t : Machine.State} (hW : sub [.free, .host, .rings, .cages, .beat, .mem, .mgmt, .links, .coll] W = true) (h : execHello a0 a1 a2 = .next t) : Only W a2 t := by
  unfold execHello at h
  cases h
  refine Only.after (linkTurn_only (sub_trans rfl hW) (fun t0 => ?_)) ?_
  · exact helloIn_only (sub_trans rfl hW)
  · exact Only.rfl

theorem execLinkTrainingTimeout_only {W : List Blk} {a0 : Nat} {a1 : Machine.State} {t : Machine.State} (hW : sub [.free, .host, .rings, .cages, .beat, .mem, .mgmt, .links, .coll] W = true) (h : execLinkTrainingTimeout a0 a1 = .next t) : Only W a1 t := by
  unfold execLinkTrainingTimeout at h
  cases h
  refine Only.after (linkTurn_only (sub_trans rfl hW) (fun t0 => ?_)) ?_
  · exact trainTimeout_only (sub_trans rfl hW)
  · exact Only.rfl

theorem execLinkRetryTimer_only {W : List Blk} {a0 : Nat} {a1 : Machine.State} {t : Machine.State} (hW : sub [.free, .host, .rings, .cages, .beat, .mem, .mgmt, .links, .coll] W = true) (h : execLinkRetryTimer a0 a1 = .next t) : Only W a1 t := by
  unfold execLinkRetryTimer at h
  cases h
  refine Only.after (linkTurn_only (sub_trans rfl hW) (fun t0 => ?_)) ?_
  · exact trainAgain_only (sub_trans rfl hW)
  · exact Only.rfl

theorem execCodewordPairUncorrectable_only {W : List Blk} {a0 : Nat} {a1 : Machine.State} {t : Machine.State} (hW : sub [.free, .host, .rings, .cages, .beat, .mem, .mgmt, .links, .coll] W = true) (h : execCodewordPairUncorrectable a0 a1 = .next t) : Only W a1 t := by
  unfold execCodewordPairUncorrectable at h
  cases h
  refine Only.after (linkTurn_only (sub_trans rfl hW) (fun t0 => ?_)) ?_
  · exact pairLost_only (sub_trans rfl hW)
  · exact Only.rfl

theorem execDataFlitReceived_only {W : List Blk} {a0 : Nat} {a1 : Bytes} {a2 : Machine.State} {t : Machine.State} (hW : sub [.free, .adit, .host, .rings, .cages, .beat, .mem, .mgmt, .links, .coll] W = true) (h : execDataFlitReceived a0 a1 a2 = .next t) : Only W a2 t := by
  unfold execDataFlitReceived at h
  cases h
  refine Only.after (linkTurn_only (sub_trans rfl hW) (fun t0 => ?_)) ?_
  · exact dataIn_only (sub_trans rfl hW)
  · exact Only.rfl

theorem execLctlReceived_only {W : List Blk} {a0 : Nat} {a1 : Bytes} {a2 : Machine.State} {t : Machine.State} (hW : sub [.free, .host, .rings, .cages, .beat, .mem, .mgmt, .links, .coll] W = true) (h : execLctlReceived a0 a1 a2 = .next t) : Only W a2 t := by
  unfold execLctlReceived at h
  cases h
  refine Only.after (linkTurn_only (sub_trans rfl hW) (fun t0 => ?_)) ?_
  · exact lctlIn_only (sub_trans rfl hW)
  · exact Only.rfl

theorem execReplayTimeout_only {W : List Blk} {a0 : Nat} {a1 : Machine.State} {t : Machine.State} (hW : sub [.free, .host, .rings, .cages, .beat, .mem, .mgmt, .links, .coll] W = true) (h : execReplayTimeout a0 a1 = .next t) : Only W a1 t := by
  unfold execReplayTimeout at h
  cases h
  refine Only.after (linkTurn_only (sub_trans rfl hW) (fun t0 => ?_)) ?_
  · exact replayNow_only (sub_trans rfl hW)
  · exact Only.rfl

theorem execNakHoldoffExpiry_only {W : List Blk} {a0 : Nat} {a1 : Machine.State} {t : Machine.State} (hW : sub [.free, .host, .rings, .cages, .beat, .mem, .mgmt, .links, .coll] W = true) (h : execNakHoldoffExpiry a0 a1 = .next t) : Only W a1 t := by
  unfold execNakHoldoffExpiry at h
  cases h
  refine Only.after (linkTurn_only (sub_trans rfl hW) (fun t0 => ?_)) ?_
  · exact nakAgain_only (sub_trans rfl hW)
  · exact Only.rfl

theorem execFlitSlotTransmit_only {W : List Blk} {a0 : Nat} {a1 : Machine.State} {t : Machine.State} (hW : sub [.free, .adit, .host, .rings, .cages, .beat, .mem, .mgmt, .links, .coll] W = true) (h : execFlitSlotTransmit a0 a1 = .next t) : Only W a1 t := by
  unfold execFlitSlotTransmit at h
  cases h
  refine Only.after (linkTurn_only (sub_trans rfl hW) (fun t0 => ?_)) ?_
  · exact flitSlot_only (sub_trans rfl hW)
  · exact Only.rfl

theorem execAuditSend_only {W : List Blk} {a0 : Nat} {a1 : Machine.State} {t : Machine.State} (hW : sub [.free, .host, .rings, .cages, .beat, .mem, .mgmt, .links, .coll] W = true) (h : execAuditSend a0 a1 = .next t) : Only W a1 t := by
  unfold execAuditSend at h
  cases h
  refine Only.after (linkTurn_only (sub_trans rfl hW) (fun t0 => ?_)) ?_
  · exact auditNow_only (sub_trans rfl hW)
  · exact Only.rfl

theorem execLaneLockLost_only {W : List Blk} {a0 : Nat} {a1 : Machine.State} {t : Machine.State} (hW : sub [.free, .host, .rings, .cages, .beat, .mem, .mgmt, .links, .coll] W = true) (h : execLaneLockLost a0 a1 = .next t) : Only W a1 t := by
  unfold execLaneLockLost at h
  cases h
  refine Only.after (linkTurn_only (sub_trans rfl hW) (fun t0 => ?_)) ?_
  · exact laneLost_only (sub_trans rfl hW)
  · exact Only.rfl

theorem execFastRetrainComplete_only {W : List Blk} {a0 : Nat} {a1 : Machine.State} {t : Machine.State} (hW : sub [.free, .host, .rings, .cages, .beat, .mem, .mgmt, .links, .coll] W = true) (h : execFastRetrainComplete a0 a1 = .next t) : Only W a1 t := by
  unfold execFastRetrainComplete at h
  cases h
  refine Only.after (linkTurn_only (sub_trans rfl hW) (fun t0 => ?_)) ?_
  · exact retrainDone_only (sub_trans rfl hW)
  · exact Only.rfl

theorem execFastRetrainTimeout_only {W : List Blk} {a0 : Nat} {a1 : Machine.State} {t : Machine.State} (hW : sub [.free, .host, .rings, .cages, .beat, .mem, .mgmt, .links, .coll] W = true) (h : execFastRetrainTimeout a0 a1 = .next t) : Only W a1 t := by
  unfold execFastRetrainTimeout at h
  cases h
  refine Only.after (linkTurn_only (sub_trans rfl hW) (fun t0 => ?_)) ?_
  · exact retrainLate_only (sub_trans rfl hW)
  · exact Only.rfl

theorem execPeerSilentTimeout_only {W : List Blk} {a0 : Nat} {a1 : Machine.State} {t : Machine.State} (hW : sub [.free, .host, .rings, .cages, .beat, .mem, .mgmt, .links, .coll] W = true) (h : execPeerSilentTimeout a0 a1 = .next t) : Only W a1 t := by
  unfold execPeerSilentTimeout at h
  cases h
  refine Only.after (linkTurn_only (sub_trans rfl hW) (fun t0 => ?_)) ?_
  · exact peerSilent_only (sub_trans rfl hW)
  · exact Only.rfl

theorem execMwrite_only {W : List Blk} {a0 : Nat} {a1 : Machine.State} {t : Machine.State} (hW : sub [.free, .host, .rings, .cages, .beat, .mem, .mgmt, .links, .coll] W = true) (h : execMwrite a0 a1 = .next t) : Only W a1 t := by
  unfold execMwrite at h
  cases h
  refine Only.after (linkTurn_only (sub_trans rfl hW) (fun t0 => ?_)) ?_
  · refine Only.after (withMsg_only (sub_trans rfl hW) (fun _ t1 => ?_)) ?_
    · exact mwriteIn_only (sub_trans rfl hW)
    · exact Only.rfl
  · exact Only.rfl

theorem execMwriteLinesAcked_only {W : List Blk} {a0 : Nat} {a1 : Machine.State} {t : Machine.State} (hW : sub [.free, .host, .rings, .cages, .beat, .mem, .mgmt, .links, .coll] W = true) (h : execMwriteLinesAcked a0 a1 = .next t) : Only W a1 t := by
  unfold execMwriteLinesAcked at h
  cases h
  refine Only.after (linkTurn_only (sub_trans rfl hW) (fun t0 => ?_)) ?_
  · exact respReady_only (sub_trans rfl hW)
  · exact Only.rfl

theorem execMread_only {W : List Blk} {a0 : Nat} {a1 : Machine.State} {t : Machine.State} (hW : sub [.free, .host, .rings, .cages, .beat, .mem, .mgmt, .links, .coll] W = true) (h : execMread a0 a1 = .next t) : Only W a1 t := by
  unfold execMread at h
  cases h
  refine Only.after (linkTurn_only (sub_trans rfl hW) (fun t0 => ?_)) ?_
  · refine Only.after (withMsg_only (sub_trans rfl hW) (fun _ t1 => ?_)) ?_
    · exact mreadIn_only (sub_trans rfl hW)
    · exact Only.rfl
  · exact Only.rfl

theorem execMreadDataReady_only {W : List Blk} {a0 : Nat} {a1 : Machine.State} {t : Machine.State} (hW : sub [.free, .host, .rings, .cages, .beat, .mem, .mgmt, .links, .coll] W = true) (h : execMreadDataReady a0 a1 = .next t) : Only W a1 t := by
  unfold execMreadDataReady at h
  cases h
  refine Only.after (linkTurn_only (sub_trans rfl hW) (fun t0 => ?_)) ?_
  · exact respReady_only (sub_trans rfl hW)
  · exact Only.rfl

theorem execMdata_only {W : List Blk} {a0 : Nat} {a1 : Machine.State} {t : Machine.State} (hW : sub [.free, .host, .rings, .cages, .beat, .mem, .mgmt, .links, .coll] W = true) (h : execMdata a0 a1 = .next t) : Only W a1 t := by
  unfold execMdata at h
  cases h
  refine Only.after (linkTurn_only (sub_trans rfl hW) (fun t0 => ?_)) ?_
  · refine Only.after (withMsg_only (sub_trans rfl hW) (fun _ t1 => ?_)) ?_
    · exact mdataIn_only (sub_trans rfl hW)
    · exact Only.rfl
  · exact Only.rfl

theorem execMack_only {W : List Blk} {a0 : Nat} {a1 : Machine.State} {t : Machine.State} (hW : sub [.free, .host, .rings, .cages, .beat, .mem, .mgmt, .links, .coll] W = true) (h : execMack a0 a1 = .next t) : Only W a1 t := by
  unfold execMack at h
  cases h
  refine Only.after (linkTurn_only (sub_trans rfl hW) (fun t0 => ?_)) ?_
  · refine Only.after (withMsg_only (sub_trans rfl hW) (fun _ t1 => ?_)) ?_
    · exact mackIn_only (sub_trans rfl hW)
    · exact Only.rfl
  · exact Only.rfl

theorem execVcMemTimeout_only {W : List Blk} {a0 : Nat} {a1 : Nat} {a2 : Machine.State} {t : Machine.State} (hW : sub [.free, .host, .rings, .cages, .beat, .mem, .mgmt, .links, .coll] W = true) (h : execVcMemTimeout a0 a1 a2 = .next t) : Only W a2 t := by
  unfold execVcMemTimeout at h
  cases h
  refine Only.after (linkTurn_only (sub_trans rfl hW) (fun t0 => ?_)) ?_
  · exact memTimeout_only (sub_trans rfl hW)
  · exact Only.rfl

theorem execLinkErrRateTimer_only {W : List Blk} {a0 : Nat} {a1 : Nat} {a2 : Machine.State} {t : Machine.State} (hW : sub [.free, .host, .rings, .cages, .beat, .mem, .mgmt, .links, .coll] W = true) (h : execLinkErrRateTimer a0 a1 a2 = .next t) : Only W a2 t := by
  unfold execLinkErrRateTimer at h
  cases h
  refine Only.after (linkTurn_only (sub_trans rfl hW) (fun t0 => ?_)) ?_
  · exact linkErrRate_only (sub_trans rfl hW)
  · exact Only.rfl

theorem execMctpSmbusPacket_only {W : List Blk} {a0 : Bytes} {a1 : Machine.State} {t : Machine.State} (hW : sub [.adit, .mgmt] W = true) (h : execMctpSmbusPacket a0 a1 = .next t) : Only W a1 t := by
  unfold execMctpSmbusPacket at h
  cases h
  refine Only.after (edgeTurn_only (sub_trans rfl hW) (fun t0 => ?_)) ?_
  · exact smbusPacket_only (sub_trans rfl hW)
  · exact Only.rfl

theorem execSetEndpointId_only {W : List Blk} {a0 : Machine.State} {t : Machine.State} (hW : sub [.adit, .mgmt] W = true) (h : execSetEndpointId a0 = .next t) : Only W a0 t := by
  unfold execSetEndpointId at h
  cases h
  refine Only.after (mgmtTurn_only (sub_trans rfl hW) (fun t0 => ?_)) ?_
  · exact setEid_only (sub_trans rfl hW)
  · exact Only.rfl

theorem execGetEndpointId_only {W : List Blk} {a0 : Machine.State} {t : Machine.State} (hW : sub [.adit, .mgmt] W = true) (h : execGetEndpointId a0 = .next t) : Only W a0 t := by
  unfold execGetEndpointId at h
  cases h
  refine Only.after (mgmtTurn_only (sub_trans rfl hW) (fun t0 => ?_)) ?_
  · exact getEid_only (sub_trans rfl hW)
  · exact Only.rfl

theorem execGetEndpointUuid_only {W : List Blk} {a0 : Machine.State} {t : Machine.State} (hW : sub [.adit, .mgmt] W = true) (h : execGetEndpointUuid a0 = .next t) : Only W a0 t := by
  unfold execGetEndpointUuid at h
  cases h
  refine Only.after (mgmtTurn_only (sub_trans rfl hW) (fun t0 => ?_)) ?_
  · exact getUuid_only (sub_trans rfl hW)
  · exact Only.rfl

theorem execGetMctpVersionSupport_only {W : List Blk} {a0 : Machine.State} {t : Machine.State} (hW : sub [.adit, .mgmt] W = true) (h : execGetMctpVersionSupport a0 = .next t) : Only W a0 t := by
  unfold execGetMctpVersionSupport at h
  cases h
  refine Only.after (mgmtTurn_only (sub_trans rfl hW) (fun t0 => ?_)) ?_
  · exact getVersions_only (sub_trans rfl hW)
  · exact Only.rfl

theorem execGetMessageTypeSupport_only {W : List Blk} {a0 : Machine.State} {t : Machine.State} (hW : sub [.adit, .mgmt] W = true) (h : execGetMessageTypeSupport a0 = .next t) : Only W a0 t := by
  unfold execGetMessageTypeSupport at h
  cases h
  refine Only.after (mgmtTurn_only (sub_trans rfl hW) (fun t0 => ?_)) ?_
  · exact getTypes_only (sub_trans rfl hW)
  · exact Only.rfl

theorem execUnsupportedMctpControl_only {W : List Blk} {a0 : Machine.State} {t : Machine.State} (hW : sub [.adit, .mgmt] W = true) (h : execUnsupportedMctpControl a0 = .next t) : Only W a0 t := by
  unfold execUnsupportedMctpControl at h
  cases h
  refine Only.after (mgmtTurn_only (sub_trans rfl hW) (fun t0 => ?_)) ?_
  · exact ctlUnsupported_only (sub_trans rfl hW)
  · exact Only.rfl

theorem execGetTid_only {W : List Blk} {a0 : Machine.State} {t : Machine.State} (hW : sub [.adit, .mgmt] W = true) (h : execGetTid a0 = .next t) : Only W a0 t := by
  unfold execGetTid at h
  cases h
  refine Only.after (mgmtTurn_only (sub_trans rfl hW) (fun t0 => ?_)) ?_
  · exact getTid_only (sub_trans rfl hW)
  · exact Only.rfl

theorem execSetTid_only {W : List Blk} {a0 : Machine.State} {t : Machine.State} (hW : sub [.adit, .mgmt] W = true) (h : execSetTid a0 = .next t) : Only W a0 t := by
  unfold execSetTid at h
  cases h
  refine Only.after (mgmtTurn_only (sub_trans rfl hW) (fun t0 => ?_)) ?_
  · exact setTid_only (sub_trans rfl hW)
  · exact Only.rfl

theorem execGetPldmVersion_only {W : List Blk} {a0 : Machine.State} {t : Machine.State} (hW : sub [.adit, .mgmt] W = true) (h : execGetPldmVersion a0 = .next t) : Only W a0 t := by
  unfold execGetPldmVersion at h
  cases h
  refine Only.after (mgmtTurn_only (sub_trans rfl hW) (fun t0 => ?_)) ?_
  · exact getPldmVersion_only (sub_trans rfl hW)
  · exact Only.rfl

theorem execGetPldmTypes_only {W : List Blk} {a0 : Machine.State} {t : Machine.State} (hW : sub [.adit, .mgmt] W = true) (h : execGetPldmTypes a0 = .next t) : Only W a0 t := by
  unfold execGetPldmTypes at h
  cases h
  refine Only.after (mgmtTurn_only (sub_trans rfl hW) (fun t0 => ?_)) ?_
  · exact getPldmTypes_only (sub_trans rfl hW)
  · exact Only.rfl

theorem execGetPldmCommands_only {W : List Blk} {a0 : Machine.State} {t : Machine.State} (hW : sub [.adit, .mgmt] W = true) (h : execGetPldmCommands a0 = .next t) : Only W a0 t := by
  unfold execGetPldmCommands at h
  cases h
  refine Only.after (mgmtTurn_only (sub_trans rfl hW) (fun t0 => ?_)) ?_
  · exact getPldmCommands_only (sub_trans rfl hW)
  · exact Only.rfl

theorem execSetEventReceiver_only {W : List Blk} {a0 : Machine.State} {t : Machine.State} (hW : sub [.adit, .mgmt] W = true) (h : execSetEventReceiver a0 = .next t) : Only W a0 t := by
  unfold execSetEventReceiver at h
  cases h
  refine Only.after (mgmtTurn_only (sub_trans rfl hW) (fun t0 => ?_)) ?_
  · exact setReceiver_only (sub_trans rfl hW)
  · exact Only.rfl

theorem execGetPdrRepositoryInfo_only {W : List Blk} {a0 : Machine.State} {t : Machine.State} (hW : sub [.adit, .mgmt] W = true) (h : execGetPdrRepositoryInfo a0 = .next t) : Only W a0 t := by
  unfold execGetPdrRepositoryInfo at h
  cases h
  refine Only.after (mgmtTurn_only (sub_trans rfl hW) (fun t0 => ?_)) ?_
  · exact getPdrInfo_only (sub_trans rfl hW)
  · exact Only.rfl

theorem execGetPdr_only {W : List Blk} {a0 : Machine.State} {t : Machine.State} (hW : sub [.adit, .mgmt] W = true) (h : execGetPdr a0 = .next t) : Only W a0 t := by
  unfold execGetPdr at h
  cases h
  refine Only.after (mgmtTurn_only (sub_trans rfl hW) (fun t0 => ?_)) ?_
  · exact getPdr_only (sub_trans rfl hW)
  · exact Only.rfl

theorem execGetSensorReading_only {W : List Blk} {a0 : Machine.State} {t : Machine.State} (hW : sub [.adit, .mgmt] W = true) (h : execGetSensorReading a0 = .next t) : Only W a0 t := by
  unfold execGetSensorReading at h
  cases h
  refine Only.after (mgmtTurn_only (sub_trans rfl hW) (fun t0 => ?_)) ?_
  · exact getSensor_only (sub_trans rfl hW)
  · exact Only.rfl

theorem execGetStateSensorReadings_only {W : List Blk} {a0 : Machine.State} {t : Machine.State} (hW : sub [.adit, .mgmt] W = true) (h : execGetStateSensorReadings a0 = .next t) : Only W a0 t := by
  unfold execGetStateSensorReadings at h
  cases h
  refine Only.after (mgmtTurn_only (sub_trans rfl hW) (fun t0 => ?_)) ?_
  · exact getStateSensor_only (sub_trans rfl hW)
  · exact Only.rfl

theorem execSetNumericEffecterValue_only {W : List Blk} {a0 : Machine.State} {t : Machine.State} (hW : sub [.adit, .mgmt, .power, .pump] W = true) (h : execSetNumericEffecterValue a0 = .next t) : Only W a0 t := by
  unfold execSetNumericEffecterValue at h
  cases h
  refine Only.after (mgmtTurn_only (sub_trans rfl hW) (fun t0 => ?_)) ?_
  · exact setNumeric_only (sub_trans rfl hW)
  · exact Only.rfl

theorem execGetNumericEffecterValue_only {W : List Blk} {a0 : Machine.State} {t : Machine.State} (hW : sub [.adit, .mgmt] W = true) (h : execGetNumericEffecterValue a0 = .next t) : Only W a0 t := by
  unfold execGetNumericEffecterValue at h
  cases h
  refine Only.after (mgmtTurn_only (sub_trans rfl hW) (fun t0 => ?_)) ?_
  · exact getNumeric_only (sub_trans rfl hW)
  · exact Only.rfl

theorem execSetStateEffecterStates_only {W : List Blk} {a0 : Machine.State} {t : Machine.State} (hW : sub [.ao, .sup, .adit, .host, .rings, .cages, .beat, .mem, .mgmt, .links, .coll, .power, .heat, .pump, .bus] W = true) (h : execSetStateEffecterStates a0 = .next t) : Only W a0 t := by
  unfold execSetStateEffecterStates at h
  cases h
  refine Only.after (mgmtTurn_only (sub_trans rfl hW) (fun t0 => ?_)) ?_
  · exact setState_only (sub_trans rfl hW)
  · exact Only.rfl

theorem execGetStateEffecterStates_only {W : List Blk} {a0 : Machine.State} {t : Machine.State} (hW : sub [.adit, .mgmt] W = true) (h : execGetStateEffecterStates a0 = .next t) : Only W a0 t := by
  unfold execGetStateEffecterStates at h
  cases h
  refine Only.after (mgmtTurn_only (sub_trans rfl hW) (fun t0 => ?_)) ?_
  · exact getState_only (sub_trans rfl hW)
  · exact Only.rfl

theorem execUnsupportedPldm_only {W : List Blk} {a0 : Machine.State} {t : Machine.State} (hW : sub [.adit, .mgmt] W = true) (h : execUnsupportedPldm a0 = .next t) : Only W a0 t := by
  unfold execUnsupportedPldm at h
  cases h
  refine Only.after (mgmtTurn_only (sub_trans rfl hW) (fun t0 => ?_)) ?_
  · exact pldmUnsupported_only (sub_trans rfl hW)
  · exact Only.rfl

theorem execPldmEventSend_only {W : List Blk} {a0 : Machine.State} {t : Machine.State} (hW : sub [.adit, .mgmt] W = true) (h : execPldmEventSend a0 = .next t) : Only W a0 t := by
  unfold execPldmEventSend at h
  cases h
  refine Only.after (mgmtTurn_only (sub_trans rfl hW) (fun t0 => ?_)) ?_
  · exact eventSend_only (sub_trans rfl hW)
  · exact Only.rfl

theorem execPldmEventResponse_only {W : List Blk} {a0 : Machine.State} {t : Machine.State} (hW : sub [.adit, .mgmt] W = true) (h : execPldmEventResponse a0 = .next t) : Only W a0 t := by
  unfold execPldmEventResponse at h
  cases h
  refine Only.after (mgmtTurn_only (sub_trans rfl hW) (fun t0 => ?_)) ?_
  · exact eventResponse_only (sub_trans rfl hW)
  · exact Only.rfl

theorem execPldmEventRetry_only {W : List Blk} {a0 : Machine.State} {t : Machine.State} (hW : sub [.adit, .mgmt] W = true) (h : execPldmEventRetry a0 = .next t) : Only W a0 t := by
  unfold execPldmEventRetry at h
  cases h
  refine Only.after (mgmtTurn_only (sub_trans rfl hW) (fun t0 => ?_)) ?_
  · exact eventRetry_only (sub_trans rfl hW)
  · exact Only.rfl

theorem execSmbusAlertResponse_only {W : List Blk} {a0 : Machine.State} {t : Machine.State} (hW : sub [.adit, .mgmt] W = true) (h : execSmbusAlertResponse a0 = .next t) : Only W a0 t := by
  unfold execSmbusAlertResponse at h
  cases h
  refine Only.after (mgmtTurn_only (sub_trans rfl hW) (fun t0 => ?_)) ?_
  · exact alertResponse_only (sub_trans rfl hW)
  · exact Only.rfl

theorem execFwWrite_only {W : List Blk} {a0 : Machine.State} {t : Machine.State} (hW : sub [.adit, .mgmt] W = true) (h : execFwWrite a0 = .next t) : Only W a0 t := by
  unfold execFwWrite at h
  cases h
  refine Only.after (mgmtTurn_only (sub_trans rfl hW) (fun t0 => ?_)) ?_
  · exact fwWrite_only (sub_trans rfl hW)
  · exact Only.rfl

theorem execFwVerify_only {W : List Blk} {a0 : Machine.State} {t : Machine.State} (hW : sub [.adit, .mgmt] W = true) (h : execFwVerify a0 = .next t) : Only W a0 t := by
  unfold execFwVerify at h
  cases h
  refine Only.after (mgmtTurn_only (sub_trans rfl hW) (fun t0 => ?_)) ?_
  · exact fwVerify_only (sub_trans rfl hW)
  · exact Only.rfl

theorem execFwActivate_only {W : List Blk} {a0 : Machine.State} {t : Machine.State} (hW : sub [.ao, .adit, .mgmt] W = true) (h : execFwActivate a0 = .next t) : Only W a0 t := by
  unfold execFwActivate at h
  cases h
  refine Only.after (mgmtTurn_only (sub_trans rfl hW) (fun t0 => ?_)) ?_
  · exact fwActivate_only (sub_trans rfl hW)
  · exact Only.rfl

theorem execGetNonce_only {W : List Blk} {a0 : Machine.State} {t : Machine.State} (hW : sub [.free, .adit, .mgmt] W = true) (h : execGetNonce a0 = .next t) : Only W a0 t := by
  unfold execGetNonce at h
  cases h
  refine Only.after (mgmtTurn_only (sub_trans rfl hW) (fun t0 => ?_)) ?_
  · exact getNonce_only (sub_trans rfl hW)
  · exact Only.rfl

theorem execNonceExpiry_only {W : List Blk} {a0 : Machine.State} {t : Machine.State} (hW : sub [.adit, .mgmt] W = true) (h : execNonceExpiry a0 = .next t) : Only W a0 t := by
  unfold execNonceExpiry at h
  cases h
  refine Only.after (mgmtTurn_only (sub_trans rfl hW) (fun t0 => ?_)) ?_
  · exact nonceExpiry_only (sub_trans rfl hW)
  · exact Only.rfl

theorem execOwnerEnrol_only {W : List Blk} {a0 : Machine.State} {t : Machine.State} (hW : sub [.adit, .mgmt] W = true) (h : execOwnerEnrol a0 = .next t) : Only W a0 t := by
  unfold execOwnerEnrol at h
  cases h
  refine Only.after (mgmtTurn_only (sub_trans rfl hW) (fun t0 => ?_)) ?_
  · exact ownerEnrol_only (sub_trans rfl hW)
  · exact Only.rfl

theorem execReturnRequest_only {W : List Blk} {a0 : Machine.State} {t : Machine.State} (hW : sub [.adit, .mgmt] W = true) (h : execReturnRequest a0 = .next t) : Only W a0 t := by
  unfold execReturnRequest at h
  cases h
  refine Only.after (mgmtTurn_only (sub_trans rfl hW) (fun t0 => ?_)) ?_
  · exact returnRequest_only (sub_trans rfl hW)
  · exact Only.rfl

theorem execRetireRequest_only {W : List Blk} {a0 : Machine.State} {t : Machine.State} (hW : sub [.ao, .adit, .mgmt] W = true) (h : execRetireRequest a0 = .next t) : Only W a0 t := by
  unfold execRetireRequest at h
  cases h
  refine Only.after (mgmtTurn_only (sub_trans rfl hW) (fun t0 => ?_)) ?_
  · exact retireRequest_only (sub_trans rfl hW)
  · exact Only.rfl

theorem execDebugUnlock_only {W : List Blk} {a0 : Machine.State} {t : Machine.State} (hW : sub [.adit, .mgmt] W = true) (h : execDebugUnlock a0 = .next t) : Only W a0 t := by
  unfold execDebugUnlock at h
  cases h
  refine Only.after (mgmtTurn_only (sub_trans rfl hW) (fun t0 => ?_)) ?_
  · exact debugUnlock_only (sub_trans rfl hW)
  · exact Only.rfl

theorem execMakerTransition_only {W : List Blk} {a0 : Machine.State} {t : Machine.State} (hW : sub [.ao, .adit, .mgmt] W = true) (h : execMakerTransition a0 = .next t) : Only W a0 t := by
  unfold execMakerTransition at h
  cases h
  refine Only.after (mgmtTurn_only (sub_trans rfl hW) (fun t0 => ?_)) ?_
  · exact makerTransition_only (sub_trans rfl hW)
  · exact Only.rfl

theorem execSetHostSilent_only {W : List Blk} {a0 : Machine.State} {t : Machine.State} (hW : sub [.adit, .mgmt] W = true) (h : execSetHostSilent a0 = .next t) : Only W a0 t := by
  unfold execSetHostSilent at h
  cases h
  refine Only.after (mgmtTurn_only (sub_trans rfl hW) (fun t0 => ?_)) ?_
  · exact polHostSilent_only (sub_trans rfl hW)
  · exact Only.rfl

theorem execStoreHold_only {W : List Blk} {a0 : Machine.State} {t : Machine.State} (hW : sub [.adit, .mgmt] W = true) (h : execStoreHold a0 = .next t) : Only W a0 t := by
  unfold execStoreHold at h
  cases h
  refine Only.after (mgmtTurn_only (sub_trans rfl hW) (fun t0 => ?_)) ?_
  · exact polStoreHold_only (sub_trans rfl hW)
  · exact Only.rfl

theorem execBusOrder_only {W : List Blk} {a0 : Machine.State} {t : Machine.State} (hW : sub [.adit, .mgmt, .bus] W = true) (h : execBusOrder a0 = .next t) : Only W a0 t := by
  unfold execBusOrder at h
  cases h
  refine Only.after (mgmtTurn_only (sub_trans rfl hW) (fun t0 => ?_)) ?_
  · exact polBusOrder_only (sub_trans rfl hW)
  · exact Only.rfl

theorem execMgmtNow_only {W : List Blk} {a0 : Machine.State} {t : Machine.State} (hW : sub [.adit, .mgmt] W = true) (h : execMgmtNow a0 = .next t) : Only W a0 t := by
  unfold execMgmtNow at h
  cases h
  refine Only.after (mgmtTurn_only (sub_trans rfl hW) (fun t0 => ?_)) ?_
  · exact polMgmtNow_only (sub_trans rfl hW)
  · exact Only.rfl

theorem execHostSilenceTimeout_only {W : List Blk} {a0 : Machine.State} {t : Machine.State} (hW : sub [.adit, .mgmt] W = true) (h : execHostSilenceTimeout a0 = .next t) : Only W a0 t := by
  unfold execHostSilenceTimeout at h
  cases h
  refine Only.after (mgmtTurn_only (sub_trans rfl hW) (fun t0 => ?_)) ?_
  · exact hostTimeout_only (sub_trans rfl hW)
  · exact Only.rfl

theorem execStoreStart_only {W : List Blk} {a0 : Machine.State} {t : Machine.State} (hW : sub [.adit, .mgmt] W = true) (h : execStoreStart a0 = .next t) : Only W a0 t := by
  unfold execStoreStart at h
  cases h
  refine Only.after (mgmtTurn_only (sub_trans rfl hW) (fun t0 => ?_)) ?_
  · exact storeStart_only (sub_trans rfl hW)
  · exact Only.rfl

theorem execStoreComplete_only {W : List Blk} {a0 : Bool} {a1 : Machine.State} {t : Machine.State} (hW : sub [.adit, .mgmt] W = true) (h : execStoreComplete a0 a1 = .next t) : Only W a1 t := by
  unfold execStoreComplete at h
  cases h
  refine Only.after (mgmtTurn_only (sub_trans rfl hW) (fun t0 => ?_)) ?_
  · exact storeDone_only (sub_trans rfl hW)
  · exact Only.rfl

theorem execMgmtStatusTimer_only {W : List Blk} {a0 : Machine.State} {t : Machine.State} (hW : sub [.adit, .mgmt] W = true) (h : execMgmtStatusTimer a0 = .next t) : Only W a0 t := by
  unfold execMgmtStatusTimer at h
  cases h
  refine Only.after (mgmtTurn_only (sub_trans rfl hW) (fun t0 => ?_)) ?_
  · exact mgmtTimer_only (sub_trans rfl hW)
  · exact Only.rfl

theorem execPmbusRead_only {W : List Blk} {a0 : List (Option (Nat × Nat))} {a1 : Machine.State} {t : Machine.State} (hW : sub [.adit, .mgmt, .power] W = true) (h : execPmbusRead a0 a1 = .next t) : Only W a1 t := by
  unfold execPmbusRead at h
  cases h
  refine Only.after (mgmtTurn_only (sub_trans rfl hW) (fun t0 => ?_)) ?_
  · exact pmbusRead_only (sub_trans rfl hW)
  · exact Only.rfl

theorem execOuterUpdate_only {W : List Blk} {a0 : Machine.State} {t : Machine.State} (hW : sub [.adit, .mgmt, .power, .pump] W = true) (h : execOuterUpdate a0 = .next t) : Only W a0 t := by
  unfold execOuterUpdate at h
  cases h
  refine Only.after (mgmtTurn_only (sub_trans rfl hW) (fun t0 => ?_)) ?_
  · exact outerUpdate_only (sub_trans rfl hW)
  · exact Only.rfl

theorem execDerateUpdate_only {W : List Blk} {a0 : Machine.State} {t : Machine.State} (hW : sub [.adit, .mgmt, .power] W = true) (h : execDerateUpdate a0 = .next t) : Only W a0 t := by
  unfold execDerateUpdate at h
  cases h
  refine Only.after (mgmtTurn_only (sub_trans rfl hW) (fun t0 => ?_)) ?_
  · exact derateUpdate_only (sub_trans rfl hW)
  · exact Only.rfl

theorem execRailAtLevel_only {W : List Blk} {a0 : Nat} {a1 : Machine.State} {t : Machine.State} (hW : sub [.adit, .mgmt, .power, .heat] W = true) (h : execRailAtLevel a0 a1 = .next t) : Only W a1 t := by
  unfold execRailAtLevel at h
  cases h
  refine Only.after (mgmtTurn_only (sub_trans rfl hW) (fun t0 => ?_)) ?_
  · exact railAtLevel_only (sub_trans rfl hW)
  · exact Only.rfl

theorem execSetCap_only {W : List Blk} {a0 : Machine.State} {t : Machine.State} (hW : sub [.adit, .mgmt, .power] W = true) (h : execSetCap a0 = .next t) : Only W a0 t := by
  unfold execSetCap at h
  cases h
  refine Only.after (mgmtTurn_only (sub_trans rfl hW) (fun t0 => ?_)) ?_
  · exact polSetCap_only (sub_trans rfl hW)
  · exact Only.rfl

theorem execSetMode_only {W : List Blk} {a0 : Machine.State} {t : Machine.State} (hW : sub [.adit, .mgmt, .power] W = true) (h : execSetMode a0 = .next t) : Only W a0 t := by
  unfold execSetMode at h
  cases h
  refine Only.after (mgmtTurn_only (sub_trans rfl hW) (fun t0 => ?_)) ?_
  · exact polSetMode_only (sub_trans rfl hW)
  · exact Only.rfl

theorem execLockPermit_only {W : List Blk} {a0 : Machine.State} {t : Machine.State} (hW : sub [.adit, .mgmt] W = true) (h : execLockPermit a0 = .next t) : Only W a0 t := by
  unfold execLockPermit at h
  cases h
  refine Only.after (mgmtTurn_only (sub_trans rfl hW) (fun t0 => ?_)) ?_
  · exact polLockPermit_only (sub_trans rfl hW)
  · exact Only.rfl

theorem execCountersNow_only {W : List Blk} {a0 : Machine.State} {t : Machine.State} (hW : sub [.adit, .mgmt] W = true) (h : execCountersNow a0 = .next t) : Only W a0 t := by
  unfold execCountersNow at h
  cases h
  refine Only.after (mgmtTurn_only (sub_trans rfl hW) (fun t0 => ?_)) ?_
  · exact polCounters_only (sub_trans rfl hW)
  · exact Only.rfl

theorem execLogReplay_only {W : List Blk} {a0 : Machine.State} {t : Machine.State} (hW : sub [.adit, .mgmt] W = true) (h : execLogReplay a0 = .next t) : Only W a0 t := by
  unfold execLogReplay at h
  cases h
  refine Only.after (mgmtTurn_only (sub_trans rfl hW) (fun t0 => ?_)) ?_
  · exact polLogReplay_only (sub_trans rfl hW)
  · exact Only.rfl

theorem execPowerPolicyStore_only {W : List Blk} {a0 : Machine.State} {t : Machine.State} (hW : sub [.adit, .mgmt] W = true) (h : execPowerPolicyStore a0 = .next t) : Only W a0 t := by
  unfold execPowerPolicyStore at h
  cases h
  refine Only.after (mgmtTurn_only (sub_trans rfl hW) (fun t0 => ?_)) ?_
  · exact policyStore_only (sub_trans rfl hW)
  · exact Only.rfl

theorem execLockJoin_only {W : List Blk} {a0 : Machine.State} {t : Machine.State} (hW : sub [.adit, .mgmt, .power] W = true) (h : execLockJoin a0 = .next t) : Only W a0 t := by
  unfold execLockJoin at h
  cases h
  refine Only.after (mgmtTurn_only (sub_trans rfl hW) (fun t0 => ?_)) ?_
  · refine Only.after (withA5_only (sub_trans rfl hW) (fun _ _ t1 => ?_)) ?_
    · exact takeLock_only (sub_trans rfl hW)
    · exact Only.rfl
  · exact Only.rfl

theorem execLockDemand_only {W : List Blk} {a0 : Machine.State} {t : Machine.State} (hW : sub [.adit, .mgmt, .power] W = true) (h : execLockDemand a0 = .next t) : Only W a0 t := by
  unfold execLockDemand at h
  cases h
  refine Only.after (mgmtTurn_only (sub_trans rfl hW) (fun t0 => ?_)) ?_
  · refine Only.after (withA5_only (sub_trans rfl hW) (fun _ _ t1 => ?_)) ?_
    · exact takeLock_only (sub_trans rfl hW)
    · exact Only.rfl
  · exact Only.rfl

theorem execLockLeave_only {W : List Blk} {a0 : Machine.State} {t : Machine.State} (hW : sub [.adit, .mgmt, .power] W = true) (h : execLockLeave a0 = .next t) : Only W a0 t := by
  unfold execLockLeave at h
  cases h
  refine Only.after (mgmtTurn_only (sub_trans rfl hW) (fun t0 => ?_)) ?_
  · refine Only.after (withA5_only (sub_trans rfl hW) (fun _ _ t1 => ?_)) ?_
    · exact takeLock_only (sub_trans rfl hW)
    · exact Only.rfl
  · exact Only.rfl

theorem execLockOriginSilent_only {W : List Blk} {a0 : Nat} {a1 : Nat} {a2 : Machine.State} {t : Machine.State} (hW : sub [.adit, .mgmt, .power] W = true) (h : execLockOriginSilent a0 a1 a2 = .next t) : Only W a2 t := by
  unfold execLockOriginSilent at h
  cases h
  refine Only.after (mgmtTurn_only (sub_trans rfl hW) (fun t0 => ?_)) ?_
  · exact lockSilent_only (sub_trans rfl hW)
  · exact Only.rfl

theorem execLockEntryExpiry_only {W : List Blk} {a0 : Nat} {a1 : Nat} {a2 : Machine.State} {t : Machine.State} (hW : sub [.adit, .mgmt, .power] W = true) (h : execLockEntryExpiry a0 a1 a2 = .next t) : Only W a2 t := by
  unfold execLockEntryExpiry at h
  cases h
  refine Only.after (mgmtTurn_only (sub_trans rfl hW) (fun t0 => ?_)) ?_
  · exact lockForget_only (sub_trans rfl hW)
  · exact Only.rfl

theorem execLockQueueSend_only {W : List Blk} {a0 : Nat} {a1 : Machine.State} {t : Machine.State} (hW : sub [.adit, .mgmt, .power] W = true) (h : execLockQueueSend a0 a1 = .next t) : Only W a1 t := by
  unfold execLockQueueSend at h
  cases h
  refine Only.after (mgmtTurn_only (sub_trans rfl hW) (fun t0 => ?_)) ?_
  · exact lockSend_only (sub_trans rfl hW)
  · exact Only.rfl

theorem execPwrStatusTimer_only {W : List Blk} {a0 : Machine.State} {t : Machine.State} (hW : sub [.adit, .mgmt] W = true) (h : execPwrStatusTimer a0 = .next t) : Only W a0 t := by
  unfold execPwrStatusTimer at h
  cases h
  refine Only.after (mgmtTurn_only (sub_trans rfl hW) (fun t0 => ?_)) ?_
  · exact Only.after (mirrorAll_only (sub_trans rfl hW)) (pwrStatus_only (sub_trans rfl hW))
  · exact Only.rfl

theorem execPwrLockStatusTimer_only {W : List Blk} {a0 : Machine.State} {t : Machine.State} (hW : sub [.adit, .mgmt] W = true) (h : execPwrLockStatusTimer a0 = .next t) : Only W a0 t := by
  unfold execPwrLockStatusTimer at h
  cases h
  refine Only.after (mgmtTurn_only (sub_trans rfl hW) (fun t0 => ?_)) ?_
  · exact pwrLockStatus_only (sub_trans rfl hW)
  · exact Only.rfl

theorem execThrottleCountersTimer_only {W : List Blk} {a0 : Machine.State} {t : Machine.State} (hW : sub [.adit, .mgmt] W = true) (h : execThrottleCountersTimer a0 = .next t) : Only W a0 t := by
  unfold execThrottleCountersTimer at h
  cases h
  refine Only.after (mgmtTurn_only (sub_trans rfl hW) (fun t0 => ?_)) ?_
  · exact throttleCounters_only (sub_trans rfl hW)
  · exact Only.rfl

theorem execPwrDroopTimer_only {W : List Blk} {a0 : Machine.State} {t : Machine.State} (hW : sub [.adit, .mgmt, .power] W = true) (h : execPwrDroopTimer a0 = .next t) : Only W a0 t := by
  unfold execPwrDroopTimer at h
  cases h
  refine Only.after (mgmtTurn_only (sub_trans rfl hW) (fun t0 => ?_)) ?_
  · exact pwrDroop_only (sub_trans rfl hW)
  · exact Only.rfl

theorem execModuleCycle_only {W : List Blk} {a0 : Machine.State} {t : Machine.State} (hW : sub [.ao, .sup, .adit, .host, .rings, .cages, .beat, .mem, .mgmt, .links, .coll, .power, .heat, .pump, .bus] W = true) (h : execModuleCycle a0 = .next t) : Only W a0 t := by
  unfold execModuleCycle at h
  cases h
  refine Only.after (mgmtTurn_only (sub_trans rfl hW) (fun t0 => ?_)) ?_
  · exact moduleCycle_only (sub_trans rfl hW)
  · exact Only.rfl

theorem execBemfZeroCrossing_only {W : List Blk} {a0 : Nat} {a1 : List Nat} {a2 : Machine.State} {t : Machine.State} (hW : sub [.adit, .mgmt, .pump] W = true) (h : execBemfZeroCrossing a0 a1 a2 = .next t) : Only W a2 t := by
  unfold execBemfZeroCrossing at h
  cases h
  refine Only.after (mgmtTurn_only (sub_trans rfl hW) (fun t0 => ?_)) ?_
  · exact zeroCrossing_only (sub_trans rfl hW)
  · exact Only.rfl

theorem execKickTimeout_only {W : List Blk} {a0 : Machine.State} {t : Machine.State} (hW : sub [.adit, .mgmt, .pump] W = true) (h : execKickTimeout a0 = .next t) : Only W a0 t := by
  unfold execKickTimeout at h
  cases h
  refine Only.after (mgmtTurn_only (sub_trans rfl hW) (fun t0 => ?_)) ?_
  · exact kickTimeout_only (sub_trans rfl hW)
  · exact Only.rfl

theorem execSpeedLoop_only {W : List Blk} {a0 : Bool} {a1 : Machine.State} {t : Machine.State} (hW : sub [.free, .adit, .mgmt, .pump] W = true) (h : execSpeedLoop a0 a1 = .next t) : Only W a1 t := by
  unfold execSpeedLoop at h
  cases h
  refine Only.after (mgmtTurn_only (sub_trans rfl hW) (fun t0 => ?_)) ?_
  · exact speedLoop_only (sub_trans rfl hW)
  · exact Only.rfl

theorem execStallDetect_only {W : List Blk} {a0 : Machine.State} {t : Machine.State} (hW : sub [.adit, .mgmt, .pump] W = true) (h : execStallDetect a0 = .next t) : Only W a0 t := by
  unfold execStallDetect at h
  cases h
  refine Only.after (mgmtTurn_only (sub_trans rfl hW) (fun t0 => ?_)) ?_
  · exact stallDetect_only (sub_trans rfl hW)
  · exact Only.rfl

theorem execPumpOvercurrent_only {W : List Blk} {a0 : Machine.State} {t : Machine.State} (hW : sub [.adit, .mgmt, .pump] W = true) (h : execPumpOvercurrent a0 = .next t) : Only W a0 t := by
  unfold execPumpOvercurrent at h
  cases h
  refine Only.after (mgmtTurn_only (sub_trans rfl hW) (fun t0 => ?_)) ?_
  · exact pumpOvercurrent_only (sub_trans rfl hW)
  · exact Only.rfl

theorem execStallRetry_only {W : List Blk} {a0 : Machine.State} {t : Machine.State} (hW : sub [.adit, .mgmt, .pump] W = true) (h : execStallRetry a0 = .next t) : Only W a0 t := by
  unfold execStallRetry at h
  cases h
  refine Only.after (mgmtTurn_only (sub_trans rfl hW) (fun t0 => ?_)) ?_
  · exact stallRetry_only (sub_trans rfl hW)
  · exact Only.rfl

theorem execDiagPulse_only {W : List Blk} {a0 : List Nat} {a1 : Machine.State} {t : Machine.State} (hW : sub [.adit, .mgmt, .pump] W = true) (h : execDiagPulse a0 a1 = .next t) : Only W a1 t := by
  unfold execDiagPulse at h
  cases h
  refine Only.after (mgmtTurn_only (sub_trans rfl hW) (fun t0 => ?_)) ?_
  · exact diagPulse_only (sub_trans rfl hW)
  · exact Only.rfl

theorem execAgeingEvaluation_only {W : List Blk} {a0 : Machine.State} {t : Machine.State} (hW : sub [.adit, .mgmt, .pump] W = true) (h : execAgeingEvaluation a0 = .next t) : Only W a0 t := by
  unfold execAgeingEvaluation at h
  cases h
  refine Only.after (mgmtTurn_only (sub_trans rfl hW) (fun t0 => ?_)) ?_
  · exact ageingEval_only (sub_trans rfl hW)
  · exact Only.rfl

theorem execBaselinePoint_only {W : List Blk} {a0 : Machine.State} {t : Machine.State} (hW : sub [.adit, .mgmt, .pump] W = true) (h : execBaselinePoint a0 = .next t) : Only W a0 t := by
  unfold execBaselinePoint at h
  cases h
  refine Only.after (mgmtTurn_only (sub_trans rfl hW) (fun t0 => ?_)) ?_
  · exact baselinePoint_only (sub_trans rfl hW)
  · exact Only.rfl

theorem execReverseFlowDetect_only {W : List Blk} {a0 : Machine.State} {t : Machine.State} (hW : sub [.adit, .mgmt, .pump] W = true) (h : execReverseFlowDetect a0 = .next t) : Only W a0 t := by
  unfold execReverseFlowDetect at h
  cases h
  refine Only.after (mgmtTurn_only (sub_trans rfl hW) (fun t0 => ?_)) ?_
  · exact reverseDetect_only (sub_trans rfl hW)
  · exact Only.rfl

theorem execLowFlowDetect_only {W : List Blk} {a0 : Machine.State} {t : Machine.State} (hW : sub [.adit, .mgmt, .pump] W = true) (h : execLowFlowDetect a0 = .next t) : Only W a0 t := by
  unfold execLowFlowDetect at h
  cases h
  refine Only.after (mgmtTurn_only (sub_trans rfl hW) (fun t0 => ?_)) ?_
  · exact lowFlowDetect_only (sub_trans rfl hW)
  · exact Only.rfl

theorem execTapeLoopCheck_only {W : List Blk} {a0 : Bool} {a1 : Machine.State} {t : Machine.State} (hW : sub [.adit, .mgmt, .pump] W = true) (h : execTapeLoopCheck a0 a1 = .next t) : Only W a1 t := by
  unfold execTapeLoopCheck at h
  cases h
  refine Only.after (mgmtTurn_only (sub_trans rfl hW) (fun t0 => ?_)) ?_
  · exact tapeCheck_only (sub_trans rfl hW)
  · exact Only.rfl

theorem execWlDetectSample_only {W : List Blk} {a0 : Bool} {a1 : Machine.State} {t : Machine.State} (hW : sub [.sup, .adit, .mgmt] W = true) (h : execWlDetectSample a0 a1 = .next t) : Only W a1 t := by
  unfold execWlDetectSample at h
  cases h
  refine Only.after (mgmtTurn_only (sub_trans rfl hW) (fun t0 => ?_)) ?_
  · exact plugSeen_only (sub_trans rfl hW)
  · exact Only.rfl

theorem execSetPumpMode_only {W : List Blk} {a0 : Machine.State} {t : Machine.State} (hW : sub [.adit, .mgmt, .pump] W = true) (h : execSetPumpMode a0 = .next t) : Only W a0 t := by
  unfold execSetPumpMode at h
  cases h
  refine Only.after (mgmtTurn_only (sub_trans rfl hW) (fun t0 => ?_)) ?_
  · exact polPumpMode_only (sub_trans rfl hW)
  · exact Only.rfl

theorem execSetSpeed_only {W : List Blk} {a0 : Machine.State} {t : Machine.State} (hW : sub [.adit, .mgmt, .pump] W = true) (h : execSetSpeed a0 = .next t) : Only W a0 t := by
  unfold execSetSpeed at h
  cases h
  refine Only.after (mgmtTurn_only (sub_trans rfl hW) (fun t0 => ?_)) ?_
  · exact polSetSpeed_only (sub_trans rfl hW)
  · exact Only.rfl

theorem execSetFlowLimits_only {W : List Blk} {a0 : Machine.State} {t : Machine.State} (hW : sub [.adit, .mgmt, .pump] W = true) (h : execSetFlowLimits a0 = .next t) : Only W a0 t := by
  unfold execSetFlowLimits at h
  cases h
  refine Only.after (mgmtTurn_only (sub_trans rfl hW) (fun t0 => ?_)) ?_
  · exact polFlowLimits_only (sub_trans rfl hW)
  · exact Only.rfl

theorem execSetRamp_only {W : List Blk} {a0 : Machine.State} {t : Machine.State} (hW : sub [.adit, .mgmt, .pump] W = true) (h : execSetRamp a0 = .next t) : Only W a0 t := by
  unfold execSetRamp at h
  cases h
  refine Only.after (mgmtTurn_only (sub_trans rfl hW) (fun t0 => ?_)) ?_
  · exact polSetRamp_only (sub_trans rfl hW)
  · exact Only.rfl

theorem execSetFluid_only {W : List Blk} {a0 : Machine.State} {t : Machine.State} (hW : sub [.adit, .mgmt, .pump] W = true) (h : execSetFluid a0 = .next t) : Only W a0 t := by
  unfold execSetFluid at h
  cases h
  refine Only.after (mgmtTurn_only (sub_trans rfl hW) (fun t0 => ?_)) ?_
  · exact polSetFluid_only (sub_trans rfl hW)
  · exact Only.rfl

theorem execBaseline_only {W : List Blk} {a0 : Machine.State} {t : Machine.State} (hW : sub [.adit, .mgmt, .pump] W = true) (h : execBaseline a0 = .next t) : Only W a0 t := by
  unfold execBaseline at h
  cases h
  refine Only.after (mgmtTurn_only (sub_trans rfl hW) (fun t0 => ?_)) ?_
  · exact polBaseline_only (sub_trans rfl hW)
  · exact Only.rfl

theorem execClearLeak_only {W : List Blk} {a0 : Machine.State} {t : Machine.State} (hW : sub [.ao, .sup, .adit, .mgmt, .pump, .bus] W = true) (h : execClearLeak a0 = .next t) : Only W a0 t := by
  unfold execClearLeak at h
  cases h
  refine Only.after (mgmtTurn_only (sub_trans rfl hW) (fun t0 => ?_)) ?_
  · exact clearLeak_only (sub_trans rfl hW)
  · exact Only.rfl

theorem execPumpNow_only {W : List Blk} {a0 : Machine.State} {t : Machine.State} (hW : sub [.adit, .mgmt] W = true) (h : execPumpNow a0 = .next t) : Only W a0 t := by
  unfold execPumpNow at h
  cases h
  refine Only.after (mgmtTurn_only (sub_trans rfl hW) (fun t0 => ?_)) ?_
  · exact polPumpNow_only (sub_trans rfl hW)
  · exact Only.rfl

theorem execPumpStatusTimer_only {W : List Blk} {a0 : Machine.State} {t : Machine.State} (hW : sub [.adit, .mgmt] W = true) (h : execPumpStatusTimer a0 = .next t) : Only W a0 t := by
  unfold execPumpStatusTimer at h
  cases h
  refine Only.after (mgmtTurn_only (sub_trans rfl hW) (fun t0 => ?_)) ?_
  · exact pumpStatus_only (sub_trans rfl hW)
  · exact Only.rfl

theorem execTraceCtlEnWrite_only {W : List Blk} {a0 : W32} {a1 : Machine.State} {t : Machine.State} (hW : sub [.free, .adit, .host, .rings, .cages, .beat, .mem, .mgmt, .links, .coll] W = true) (h : execTraceCtlEnWrite a0 a1 = .next t) : Only W a1 t := by
  unfold execTraceCtlEnWrite at h
  cases h
  exact writeRow_only (sub_trans rfl hW)

theorem execW1cWrite_only {W : List Blk} {a0 : Nat} {a1 : Nat} {a2 : W32} {a3 : Machine.State} {t : Machine.State} (hW : sub [.host, .rings] W = true) (h : execW1cWrite a0 a1 a2 a3 = .next t) : Only W a3 t := by
  unfold execW1cWrite at h
  cases h
  refine Only.after (windowAccess_only (sub_trans rfl hW) (fun t0 => ?_)) ?_
  · exact writeW1c_only (sub_trans rfl hW)
  · exact Only.rfl

theorem execLockedWrite_only {W : List Blk} {a0 : Nat} {a1 : W32} {a2 : Machine.State} {t : Machine.State} (hW : sub [.adit, .host, .beat] W = true) (h : execLockedWrite a0 a1 a2 = .next t) : Only W a2 t := by
  unfold execLockedWrite at h
  cases h
  refine Only.after (windowAccess_only (sub_trans rfl hW) (fun t0 => ?_)) ?_
  · exact writeLocked_only (sub_trans rfl hW)
  · exact Only.rfl

theorem execBadSizeWindowAccess_only {W : List Blk} {a0 : Nat} {a1 : Nat} {a2 : Nat} {a3 : Machine.State} {t : Machine.State} (hW : sub [.host] W = true) (h : execBadSizeWindowAccess a0 a1 a2 a3 = .next t) : Only W a3 t := by
  unfold execBadSizeWindowAccess at h
  cases h
  refine Only.after (windowAccess_only (sub_trans rfl hW) (fun t0 => ?_)) ?_
  · exact wrongSize_only (sub_trans rfl hW)
  · exact Only.rfl

theorem execRegisterWrite_only {W : List Blk} {a0 : Nat} {a1 : Nat} {a2 : Nat} {a3 : W64} {a4 : Machine.State} {t : Machine.State} (hW : sub [.free, .adit, .host, .rings, .cages, .beat, .mem, .mgmt, .links, .coll] W = true) (h : execRegisterWrite a0 a1 a2 a3 a4 = .next t) : Only W a4 t := by
  unfold execRegisterWrite at h
  cases h
  exact writeReg_only (sub_trans rfl hW)

theorem execSwapOutComplete_only {W : List Blk} {a0 : Nat} {a1 : Machine.State} {t : Machine.State} (hW : sub [.free, .host, .rings, .cages, .beat, .mem, .mgmt, .links, .coll] W = true) (h : execSwapOutComplete a0 a1 = .next t) : Only W a1 t := by
  unfold execSwapOutComplete at h
  cases h
  refine Only.after (ctlTurn_only (sub_trans rfl hW) (fun t0 => ?_)) ?_
  · exact swapDone_only (sub_trans rfl hW)
  · exact Only.rfl

theorem execSlotStateLoaded_only {W : List Blk} {a0 : Nat} {a1 : Machine.State} {t : Machine.State} (hW : sub [.free, .host, .rings, .cages, .beat, .mem, .mgmt, .links, .coll] W = true) (h : execSlotStateLoaded a0 a1 = .next t) : Only W a1 t := by
  unfold execSlotStateLoaded at h
  cases h
  refine Only.after (ctlTurn_only (sub_trans rfl hW) (fun t0 => ?_)) ?_
  · exact slotLoaded_only (sub_trans rfl hW)
  · exact Only.rfl

theorem execRingIdleTimeout_only {W : List Blk} {a0 : Nat} {a1 : Machine.State} {t : Machine.State} (hW : sub [.free, .host, .rings, .cages, .beat, .mem, .mgmt, .links, .coll] W = true) (h : execRingIdleTimeout a0 a1 = .next t) : Only W a1 t := by
  unfold execRingIdleTimeout at h
  cases h
  refine Only.after (ctlTurn_only (sub_trans rfl hW) (fun t0 => ?_)) ?_
  · exact idleOut_only (sub_trans rfl hW)
  · exact Only.rfl

theorem execRingBound50us_only {W : List Blk} {a0 : Nat} {a1 : Machine.State} {t : Machine.State} (hW : sub [.free, .host, .rings, .cages, .beat, .mem, .mgmt, .links, .coll] W = true) (h : execRingBound50us a0 a1 = .next t) : Only W a1 t := by
  unfold execRingBound50us at h
  cases h
  refine Only.after (ctlTurn_only (sub_trans rfl hW) (fun t0 => ?_)) ?_
  · exact boundLong_only (sub_trans rfl hW)
  · exact Only.rfl

theorem execRingEnSet_only {W : List Blk} {a0 : Nat} {a1 : Nat} {a2 : W32} {a3 : Machine.State} {t : Machine.State} (hW : sub [.free, .adit, .host, .rings, .cages, .beat, .mem, .mgmt, .links, .coll] W = true) (h : execRingEnSet a0 a1 a2 a3 = .next t) : Only W a3 t := by
  unfold execRingEnSet at h
  cases h
  exact writeRow_only (sub_trans rfl hW)

theorem execRingEnClear_only {W : List Blk} {a0 : Nat} {a1 : Nat} {a2 : W32} {a3 : Machine.State} {t : Machine.State} (hW : sub [.free, .adit, .host, .rings, .cages, .beat, .mem, .mgmt, .links, .coll] W = true) (h : execRingEnClear a0 a1 a2 a3 = .next t) : Only W a3 t := by
  unfold execRingEnClear at h
  cases h
  exact writeRow_only (sub_trans rfl hW)

theorem execRptCfgEnSet_only {W : List Blk} {a0 : Nat} {a1 : W32} {a2 : Machine.State} {t : Machine.State} (hW : sub [.free, .adit, .host, .rings, .cages, .beat, .mem, .mgmt, .links, .coll] W = true) (h : execRptCfgEnSet a0 a1 a2 = .next t) : Only W a2 t := by
  unfold execRptCfgEnSet at h
  cases h
  exact writeRow_only (sub_trans rfl hW)

theorem execRptCfgEnClear_only {W : List Blk} {a0 : Nat} {a1 : W32} {a2 : Machine.State} {t : Machine.State} (hW : sub [.free, .adit, .host, .rings, .cages, .beat, .mem, .mgmt, .links, .coll] W = true) (h : execRptCfgEnClear a0 a1 a2 = .next t) : Only W a2 t := by
  unfold execRptCfgEnClear at h
  cases h
  exact writeRow_only (sub_trans rfl hW)

theorem execDescriptorFetch_only {W : List Blk} {a0 : Nat} {a1 : Machine.State} {t : Machine.State} (hW : sub [.free, .host, .rings, .cages, .beat, .mem, .mgmt, .links, .coll] W = true) (h : execDescriptorFetch a0 a1 = .next t) : Only W a1 t := by
  unfold execDescriptorFetch at h
  cases h
  refine Only.after (ctlTurn_only (sub_trans rfl hW) (fun t0 => ?_)) ?_
  · exact issueDescr_only (sub_trans rfl hW)
  · exact Only.rfl

theorem execDescriptorReadComplete_only {W : List Blk} {a0 : Nat} {a1 : Bytes} {a2 : Option ReadFail} {a3 : Machine.State} {t : Machine.State} (hW : sub [.free, .host, .rings, .cages, .beat, .mem, .mgmt, .links, .coll] W = true) (h : execDescriptorReadComplete a0 a1 a2 a3 = .next t) : Only W a3 t := by
  unfold execDescriptorReadComplete at h
  cases h
  refine Only.after (ctlTurn_only (sub_trans rfl hW) (fun t0 => ?_)) ?_
  · exact descrComplete_only (sub_trans rfl hW)
  · exact Only.rfl

theorem execUndefinedOpcode_only {W : List Blk} {a0 : Nat} {a1 : Nat} {a2 : Machine.State} {t : Machine.State} (hW : sub [.free, .host, .rings, .cages, .beat, .mem, .mgmt, .links, .coll] W = true) (h : execUndefinedOpcode a0 a1 a2 = .next t) : Only W a2 t := by
  unfold execUndefinedOpcode at h
  cases h
  exact ringUnknown_only (sub_trans rfl hW)

theorem execNop_only {W : List Blk} {a0 : Nat} {a1 : Nat} {a2 : Machine.State} {t : Machine.State} (hW : sub [.free, .host, .rings, .cages, .beat, .mem, .mgmt, .links, .coll] W = true) (h : execNop a0 a1 a2 = .next t) : Only W a2 t := by
  unfold execNop at h
  cases h
  refine Only.after (ringOp_only (sub_trans rfl hW) (fun _ t0 => ?_)) ?_
  · exact endOk_only (sub_trans rfl hW)
  · exact Only.rfl

theorem execCopyH2d_only {W : List Blk} {a0 : Nat} {a1 : Nat} {a2 : Machine.State} {t : Machine.State} (hW : sub [.free, .host, .rings, .cages, .beat, .mem, .mgmt, .links, .coll] W = true) (h : execCopyH2d a0 a1 a2 = .next t) : Only W a2 t := by
  unfold execCopyH2d at h
  cases h
  refine Only.after (ringOp_only (sub_trans rfl hW) (fun _ t0 => ?_)) ?_
  · exact bodyCopy_only (sub_trans rfl hW)
  · exact Only.rfl

theorem execCopyD2h_only {W : List Blk} {a0 : Nat} {a1 : Nat} {a2 : Machine.State} {t : Machine.State} (hW : sub [.free, .host, .rings, .cages, .beat, .mem, .mgmt, .links, .coll] W = true) (h : execCopyD2h a0 a1 a2 = .next t) : Only W a2 t := by
  unfold execCopyD2h at h
  cases h
  refine Only.after (ringOp_only (sub_trans rfl hW) (fun _ t0 => ?_)) ?_
  · exact bodyCopy_only (sub_trans rfl hW)
  · exact Only.rfl

theorem execCopyD2d_only {W : List Blk} {a0 : Nat} {a1 : Nat} {a2 : Machine.State} {t : Machine.State} (hW : sub [.free, .host, .rings, .cages, .beat, .mem, .mgmt, .links, .coll] W = true) (h : execCopyD2d a0 a1 a2 = .next t) : Only W a2 t := by
  unfold execCopyD2d at h
  cases h
  refine Only.after (ringOp_only (sub_trans rfl hW) (fun _ t0 => ?_)) ?_
  · exact bodyCopy_only (sub_trans rfl hW)
  · exact Only.rfl

theorem execFill_only {W : List Blk} {a0 : Nat} {a1 : Nat} {a2 : Machine.State} {t : Machine.State} (hW : sub [.free, .host, .rings, .cages, .beat, .mem, .mgmt, .links, .coll] W = true) (h : execFill a0 a1 a2 = .next t) : Only W a2 t := by
  unfold execFill at h
  cases h
  refine Only.after (ringOp_only (sub_trans rfl hW) (fun _ t0 => ?_)) ?_
  · exact bodyCopy_only (sub_trans rfl hW)
  · exact Only.rfl

theorem execEventSignal_only {W : List Blk} {a0 : Nat} {a1 : Nat} {a2 : Machine.State} {t : Machine.State} (hW : sub [.free, .host, .rings, .cages, .beat, .mem, .mgmt, .links, .coll] W = true) (h : execEventSignal a0 a1 a2 = .next t) : Only W a2 t := by
  unfold execEventSignal at h
  cases h
  refine Only.after (ringOp_only (sub_trans rfl hW) (fun _ t0 => ?_)) ?_
  · exact bodySignal_only (sub_trans rfl hW)
  · exact Only.rfl

theorem execEventWait_only {W : List Blk} {a0 : Nat} {a1 : Nat} {a2 : Machine.State} {t : Machine.State} (hW : sub [.free, .host, .rings, .cages, .beat, .mem, .mgmt, .links, .coll] W = true) (h : execEventWait a0 a1 a2 = .next t) : Only W a2 t := by
  unfold execEventWait at h
  cases h
  refine Only.after (ringOp_only (sub_trans rfl hW) (fun _ t0 => ?_)) ?_
  · exact bodyWait_only (sub_trans rfl hW)
  · exact Only.rfl

theorem execEventWaitMet_only {W : List Blk} {a0 : Nat} {a1 : Machine.State} {t : Machine.State} (hW : sub [.free, .host, .rings, .cages, .beat, .mem, .mgmt, .links, .coll] W = true) (h : execEventWaitMet a0 a1 = .next t) : Only W a1 t := by
  unfold execEventWaitMet at h
  cases h
  refine Only.after (ctlTurn_only (sub_trans rfl hW) (fun t0 => ?_)) ?_
  · exact waitReached_only (sub_trans rfl hW)
  · exact Only.rfl

theorem execEventWaitTimeout_only {W : List Blk} {a0 : Nat} {a1 : Machine.State} {t : Machine.State} (hW : sub [.free, .host, .rings, .cages, .beat, .mem, .mgmt, .links, .coll] W = true) (h : execEventWaitTimeout a0 a1 = .next t) : Only W a1 t := by
  unfold execEventWaitTimeout at h
  cases h
  refine Only.after (ctlTurn_only (sub_trans rfl hW) (fun t0 => ?_)) ?_
  · exact waitTimeout_only (sub_trans rfl hW)
  · exact Only.rfl

theorem execHostWrite_only {W : List Blk} {a0 : Nat} {a1 : Nat} {a2 : Machine.State} {t : Machine.State} (hW : sub [.free, .host, .rings, .cages, .beat, .mem, .mgmt, .links, .coll] W = true) (h : execHostWrite a0 a1 a2 = .next t) : Only W a2 t := by
  unfold execHostWrite at h
  cases h
  refine Only.after (ringOp_only (sub_trans rfl hW) (fun _ t0 => ?_)) ?_
  · exact bodyHostWrite_only (sub_trans rfl hW)
  · exact Only.rfl

theorem execSchedSet_only {W : List Blk} {a0 : Nat} {a1 : Nat} {a2 : Machine.State} {t : Machine.State} (hW : sub [.free, .host, .rings, .cages, .beat, .mem, .mgmt, .links, .coll] W = true) (h : execSchedSet a0 a1 a2 = .next t) : Only W a2 t := by
  unfold execSchedSet at h
  cases h
  refine Only.after (ringOp_only (sub_trans rfl hW) (fun _ t0 => ?_)) ?_
  · exact bodySched_only (sub_trans rfl hW)
  · exact Only.rfl

theorem execPolicy_only {W : List Blk} {a0 : Nat} {a1 : Nat} {a2 : Machine.State} {t : Machine.State} (hW : sub [.free, .adit, .host, .rings, .cages, .beat, .mem, .mgmt, .links, .coll] W = true) (h : execPolicy a0 a1 a2 = .next t) : Only W a2 t := by
  unfold execPolicy at h
  cases h
  refine Only.after (ringOp_only (sub_trans rfl hW) (fun _ t0 => ?_)) ?_
  · exact bodyPolicy_only (sub_trans rfl hW)
  · exact Only.rfl

theorem execPinnedWriteResume_only {W : List Blk} {a0 : Nat} {a1 : Machine.State} {t : Machine.State} (hW : sub [.free, .host, .rings, .cages, .beat, .mem, .mgmt, .links, .coll] W = true) (h : execPinnedWriteResume a0 a1 = .next t) : Only W a1 t := by
  unfold execPinnedWriteResume at h
  cases h
  refine Only.after (ctlTurn_only (sub_trans rfl hW) (fun t0 => ?_)) ?_
  · exact pinResume_only (sub_trans rfl hW)
  · exact Only.rfl

theorem execCommandComplete_only {W : List Blk} {a0 : Nat} {a1 : Machine.State} {t : Machine.State} (hW : sub [.free, .host, .rings, .cages, .beat, .mem, .mgmt, .links, .coll] W = true) (h : execCommandComplete a0 a1 = .next t) : Only W a1 t := by
  unfold execCommandComplete at h
  cases h
  refine Only.after (ctlTurn_only (sub_trans rfl hW) (fun t0 => ?_)) ?_
  · exact tryComplete_only (sub_trans rfl hW)
  · exact Only.rfl

theorem execStackLineAccess_only {W : List Blk} {a0 : Nat} {a1 : LineOp} {a2 : LineErr} {a3 t : Machine.State} (hW : sub [.free, .host, .rings, .cages, .beat, .mem, .mgmt, .links, .coll] W = true)
    (h : execStackLineAccess a0 a1 a2 a3 = .next t) : Only W a3 t := by
  unfold execStackLineAccess at h
  split at h
  · cases h
    refine Only.after (dataTurn_only (sub_trans rfl hW) (fun t0 => ?_)) ?_
    · exact lineTurn_only (sub_trans rfl hW)
    · exact Only.rfl
  · cases h

theorem execStackReadout_only {W : List Blk} {a0 : Nat} {a1 : Option Int} {a2 : Machine.State} {t : Machine.State} (hW : sub [.ao, .sup, .adit, .host, .rings, .cages, .beat, .mem, .mgmt, .links, .coll, .power, .heat, .pump, .bus] W = true) (h : execStackReadout a0 a1 a2 = .next t) : Only W a2 t := by
  unfold execStackReadout at h
  cases h
  refine Only.after (edgeTurn_only (sub_trans rfl hW) (fun t0 => ?_)) ?_
  · exact stackRead_only (sub_trans rfl hW)
  · exact Only.rfl

theorem execPatrolScrubRead_only {W : List Blk} {a0 : Nat} {a1 : LineErr} {a2 : Machine.State} {t : Machine.State} (hW : sub [.free, .host, .rings, .cages, .beat, .mem, .mgmt, .links, .coll] W = true) (h : execPatrolScrubRead a0 a1 a2 = .next t) : Only W a2 t := by
  unfold execPatrolScrubRead at h
  cases h
  refine Only.after (dataTurn_only (sub_trans rfl hW) (fun t0 => ?_)) ?_
  · exact patrolTurn_only (sub_trans rfl hW)
  · exact Only.rfl

theorem execStackCeRateTimer_only {W : List Blk} {a0 : Nat} {a1 : Machine.State} {t : Machine.State} (hW : sub [.free, .host, .rings, .cages, .beat, .mem, .mgmt, .links, .coll] W = true) (h : execStackCeRateTimer a0 a1 = .next t) : Only W a1 t := by
  unfold execStackCeRateTimer at h
  cases h
  refine Only.after (dataTurn_only (sub_trans rfl hW) (fun t0 => ?_)) ?_
  · refine Only.after (onlyIf_only (sub_trans rfl hW) (fun t1 => ?_)) ?_
    · exact ceRate_only (sub_trans rfl hW)
    · exact Only.rfl
  · exact Only.rfl

theorem execScrubCtlLock_only {W : List Blk} {a0 : W32} {a1 : Machine.State} {t : Machine.State} (hW : sub [.free, .adit, .host, .rings, .cages, .beat, .mem, .mgmt, .links, .coll] W = true) (h : execScrubCtlLock a0 a1 = .next t) : Only W a1 t := by
  unfold execScrubCtlLock at h
  cases h
  exact writeRow_only (sub_trans rfl hW)

theorem execStackTrainingEnd_only {W : List Blk} {a0 : Nat} {a1 : Machine.State} {t : Machine.State} (hW : sub [.free, .host, .rings, .cages, .beat, .mem, .mgmt, .links, .coll] W = true) (h : execStackTrainingEnd a0 a1 = .next t) : Only W a1 t := by
  unfold execStackTrainingEnd at h
  cases h
  refine Only.after (ctlTurn_only (sub_trans rfl hW) (fun t0 => ?_)) ?_
  · exact trainedAll_only (sub_trans rfl hW)
  · exact Only.rfl

theorem execAuxApplied_only {W : List Blk} {a0 : Nat} {a1 : Nat} {a2 : Nat} {a3 : Bool} {a4 : Machine.State} {t : Machine.State} (hW : sub [.ao, .sup, .adit, .host, .rings, .cages, .beat, .mem, .mgmt, .links, .coll, .power, .heat, .pump, .bus, .ward] W = true) (h : execAuxApplied a0 a1 a2 a3 a4 = .next t) : Only W a4 t := by
  unfold execAuxApplied at h
  cases h
  refine Only.after (edgeTurn_only (sub_trans rfl hW) (fun t0 => ?_)) ?_
  · exact auxApplied_only (sub_trans rfl hW)
  · exact Only.rfl

theorem execAuxBrownOut_only {W : List Blk} {a0 : Machine.State} {t : Machine.State} (hW : sub [.ao, .sup, .adit, .host, .rings, .cages, .beat, .mem, .mgmt, .links, .coll, .power, .heat, .pump, .bus, .ward] W = true) (h : execAuxBrownOut a0 = .next t) : Only W a0 t := by
  unfold execAuxBrownOut at h
  cases h
  refine Only.after (edgeTurn_only (sub_trans rfl hW) (fun t0 => ?_)) ?_
  · exact brownOut_only (sub_trans rfl hW)
  · exact Only.rfl

theorem execStewardWatchdogExpiry_only {W : List Blk} {a0 : Machine.State} {t : Machine.State} (hW : sub [.ao, .adit, .mgmt] W = true) (h : execStewardWatchdogExpiry a0 = .next t) : Only W a0 t := by
  unfold execStewardWatchdogExpiry at h
  cases h
  refine Only.after (edgeTurn_only (sub_trans rfl hW) (fun t0 => ?_)) ?_
  · exact watchdog_only (sub_trans rfl hW)
  · exact Only.rfl

theorem execModuleReset_only {W : List Blk} {a0 : Nat} {a1 : Nat} {a2 : Nat} {a3 : Machine.State} {t : Machine.State} (hW : sub [.ao, .sup, .adit, .host, .rings, .cages, .beat, .mem, .mgmt, .links, .coll, .power, .heat, .pump, .bus, .ward] W = true) (h : execModuleReset a0 a1 a2 a3 = .next t) : Only W a3 t := by
  unfold execModuleReset at h
  cases h
  refine Only.after (edgeTurn_only (sub_trans rfl hW) (fun t0 => ?_)) ?_
  · exact moduleReset_only (sub_trans rfl hW)
  · exact Only.rfl

theorem execStewardBootComplete_only {W : List Blk} {a0 : Machine.State} {t : Machine.State} (hW : sub [.ao, .sup, .adit, .host, .rings, .cages, .beat, .mem, .mgmt, .links, .coll, .power, .heat, .pump, .bus, .ward] W = true) (h : execStewardBootComplete a0 = .next t) : Only W a0 t := by
  unfold execStewardBootComplete at h
  cases h
  refine Only.after (edgeTurn_only (sub_trans rfl hW) (fun t0 => ?_)) ?_
  · exact boot_only (sub_trans rfl hW)
  · exact Only.rfl

theorem execReturnEraseComplete_only {W : List Blk} {a0 : Machine.State} {t : Machine.State} (hW : sub [.ao, .adit, .mgmt] W = true) (h : execReturnEraseComplete a0 = .next t) : Only W a0 t := by
  unfold execReturnEraseComplete at h
  cases h
  refine Only.after (mgmtTurn_only (sub_trans rfl hW) (fun t0 => ?_)) ?_
  · exact eraseDone_only (sub_trans rfl hW)
  · exact Only.rfl

theorem execPciePerstAssert_only {W : List Blk} {a0 : Machine.State} {t : Machine.State} (hW : sub [.ao, .sup, .adit, .host, .rings, .cages, .beat, .mem, .mgmt, .links, .coll, .power, .heat, .pump] W = true) (h : execPciePerstAssert a0 = .next t) : Only W a0 t := by
  unfold execPciePerstAssert at h
  cases h
  refine Only.after (edgeTurn_only (sub_trans rfl hW) (fun t0 => ?_)) ?_
  · exact perstLow_only (sub_trans rfl hW)
  · exact Only.rfl

theorem execPciePerstDeassert_only {W : List Blk} {a0 : Machine.State} {t : Machine.State} (hW : sub [.sup, .adit, .host, .mgmt] W = true) (h : execPciePerstDeassert a0 = .next t) : Only W a0 t := by
  unfold execPciePerstDeassert at h
  cases h
  refine Only.after (edgeTurn_only (sub_trans rfl hW) (fun t0 => ?_)) ?_
  · exact perstRise_only (sub_trans rfl hW)
  · exact Only.rfl

theorem execHotReset_only {W : List Blk} {a0 : Machine.State} {t : Machine.State} (hW : sub [.ao, .sup, .adit, .host, .rings, .cages, .beat, .mem, .mgmt, .links, .coll, .power, .heat, .pump] W = true) (h : execHotReset a0 = .next t) : Only W a0 t := by
  unfold execHotReset at h
  cases h
  refine Only.after (edgeTurn_only (sub_trans rfl hW) (fun t0 => ?_)) ?_
  · exact pcieReset_only (sub_trans rfl hW)
  · exact Only.rfl

theorem execDlDown_only {W : List Blk} {a0 : Machine.State} {t : Machine.State} (hW : sub [.ao, .sup, .adit, .host, .rings, .cages, .beat, .mem, .mgmt, .links, .coll, .power, .heat, .pump] W = true) (h : execDlDown a0 = .next t) : Only W a0 t := by
  unfold execDlDown at h
  cases h
  refine Only.after (edgeTurn_only (sub_trans rfl hW) (fun t0 => ?_)) ?_
  · exact pcieReset_only (sub_trans rfl hW)
  · exact Only.rfl

theorem execTapInstruction_only {W : List Blk} {a0 : Nat} {a1 : Machine.State} {t : Machine.State} (hW : sub [.ao, .sup, .adit, .host, .rings, .cages, .beat, .mem, .mgmt, .links, .coll, .power, .heat, .pump] W = true) (h : execTapInstruction a0 a1 = .next t) : Only W a1 t := by
  unfold execTapInstruction at h
  cases h
  refine Only.after (edgeTurn_only (sub_trans rfl hW) (fun t0 => ?_)) ?_
  · exact tapInstruction_only (sub_trans rfl hW)
  · exact Only.rfl

theorem execDieTrip_only {W : List Blk} {a0 : Machine.State} {t : Machine.State} (hW : sub [.ao, .sup, .adit, .host, .rings, .cages, .beat, .mem, .mgmt, .links, .coll, .power, .heat, .pump, .bus] W = true) (h : execDieTrip a0 = .next t) : Only W a0 t := by
  unfold execDieTrip at h
  cases h
  refine Only.after (edgeTurn_only (sub_trans rfl hW) (fun t0 => ?_)) ?_
  · exact dieTrip_only (sub_trans rfl hW)
  · exact Only.rfl

theorem execLeakTapeWet_only {W : List Blk} {a0 : Machine.State} {t : Machine.State} (hW : sub [.ao, .sup, .adit, .host, .rings, .cages, .beat, .mem, .mgmt, .links, .coll, .power, .heat, .pump, .bus] W = true) (h : execLeakTapeWet a0 = .next t) : Only W a0 t := by
  unfold execLeakTapeWet at h
  cases h
  refine Only.after (edgeTurn_only (sub_trans rfl hW) (fun t0 => ?_)) ?_
  · exact tapeIsWet_only (sub_trans rfl hW)
  · exact Only.rfl

theorem execExternalTrip_only {W : List Blk} {a0 : Nat} {a1 : Machine.State} {t : Machine.State} (hW : sub [.free, .ao, .sup, .adit, .host, .rings, .cages, .beat, .mem, .mgmt, .links, .coll, .power, .heat, .pump, .bus] W = true) (h : execExternalTrip a0 a1 = .next t) : Only W a1 t := by
  unfold execExternalTrip at h
  cases h
  refine Only.after (edgeTurn_only (sub_trans rfl hW) (fun t0 => ?_)) ?_
  · exact externalTrip_only (sub_trans rfl hW)
  · exact Only.rfl

theorem execDieComparatorDeassert_only {W : List Blk} {a0 : Machine.State} {t : Machine.State} (hW : sub [.ao, .adit, .mgmt] W = true) (h : execDieComparatorDeassert a0 = .next t) : Only W a0 t := by
  unfold execDieComparatorDeassert at h
  cases h
  refine Only.after (edgeTurn_only (sub_trans rfl hW) (fun t0 => ?_)) ?_
  · exact dieClear_only (sub_trans rfl hW)
  · exact Only.rfl

theorem execTripReleaseWindow_only {W : List Blk} {a0 : Bool} {a1 : Machine.State} {t : Machine.State} (hW : sub [.ao, .adit, .mgmt, .bus] W = true) (h : execTripReleaseWindow a0 a1 = .next t) : Only W a1 t := by
  unfold execTripReleaseWindow at h
  cases h
  refine Only.after (edgeTurn_only (sub_trans rfl hW) (fun t0 => ?_)) ?_
  · exact releaseWindow_only (sub_trans rfl hW)
  · exact Only.rfl

theorem execReleasedModeClear_only {W : List Blk} {a0 : Machine.State} {t : Machine.State} (hW : sub [.ao, .adit, .mgmt, .bus] W = true) (h : execReleasedModeClear a0 = .next t) : Only W a0 t := by
  unfold execReleasedModeClear at h
  cases h
  refine Only.after (edgeTurn_only (sub_trans rfl hW) (fun t0 => ?_)) ?_
  · exact releasedClear_only (sub_trans rfl hW)
  · exact Only.rfl

theorem execUnsolicitedMain_only {W : List Blk} {a0 : Machine.State} {t : Machine.State} (hW : sub [.sup, .adit, .mgmt] W = true) (h : execUnsolicitedMain a0 = .next t) : Only W a0 t := by
  unfold execUnsolicitedMain at h
  cases h
  refine Only.after (edgeTurn_only (sub_trans rfl hW) (fun t0 => ?_)) ?_
  · exact unsolicitedMain_only (sub_trans rfl hW)
  · exact Only.rfl

theorem execMainSupplyInRating_only {W : List Blk} {a0 : Machine.State} {t : Machine.State} (hW : sub [.sup, .adit, .mgmt] W = true) (h : execMainSupplyInRating a0 = .next t) : Only W a0 t := by
  unfold execMainSupplyInRating at h
  cases h
  refine Only.after (edgeTurn_only (sub_trans rfl hW) (fun t0 => ?_)) ?_
  · exact mainInRating_only (sub_trans rfl hW)
  · exact Only.rfl

theorem execMainSupplyTimeout_only {W : List Blk} {a0 : Machine.State} {t : Machine.State} (hW : sub [.ao, .sup, .adit, .host, .rings, .cages, .beat, .mem, .mgmt, .links, .coll, .power, .heat, .pump] W = true) (h : execMainSupplyTimeout a0 = .next t) : Only W a0 t := by
  unfold execMainSupplyTimeout at h
  cases h
  refine Only.after (edgeTurn_only (sub_trans rfl hW) (fun t0 => ?_)) ?_
  · exact mainTimeout_only (sub_trans rfl hW)
  · exact Only.rfl

theorem execRegulatorsInRegulation_only {W : List Blk} {a0 : Machine.State} {t : Machine.State} (hW : sub [.sup, .adit, .mgmt, .power] W = true) (h : execRegulatorsInRegulation a0 = .next t) : Only W a0 t := by
  unfold execRegulatorsInRegulation at h
  cases h
  refine Only.after (edgeTurn_only (sub_trans rfl hW) (fun t0 => ?_)) ?_
  · exact regsUp_only (sub_trans rfl hW)
  · exact Only.rfl

theorem execMainPlanesReady_only {W : List Blk} {a0 : Machine.State} {t : Machine.State} (hW : sub [.free, .sup, .adit, .host, .mgmt, .links, .coll] W = true) (h : execMainPlanesReady a0 = .next t) : Only W a0 t := by
  unfold execMainPlanesReady at h
  cases h
  refine Only.after (edgeTurn_only (sub_trans rfl hW) (fun t0 => ?_)) ?_
  · exact planesReady_only (sub_trans rfl hW)
  · exact Only.rfl

theorem execMainRetryTimer_only {W : List Blk} {a0 : Machine.State} {t : Machine.State} (hW : sub [.sup, .adit, .mgmt] W = true) (h : execMainRetryTimer a0 = .next t) : Only W a0 t := by
  unfold execMainRetryTimer at h
  cases h
  refine Only.after (edgeTurn_only (sub_trans rfl hW) (fun t0 => ?_)) ?_
  · exact mainRetry_only (sub_trans rfl hW)
  · exact Only.rfl

theorem execMainLost_only {W : List Blk} {a0 : Machine.State} {t : Machine.State} (hW : sub [.ao, .sup, .adit, .host, .rings, .cages, .beat, .mem, .mgmt, .links, .coll, .power, .heat, .pump] W = true) (h : execMainLost a0 = .next t) : Only W a0 t := by
  unfold execMainLost at h
  cases h
  refine Only.after (edgeTurn_only (sub_trans rfl hW) (fun t0 => ?_)) ?_
  · exact mainLost_only (sub_trans rfl hW)
  · exact Only.rfl

theorem execMainOff_only {W : List Blk} {a0 : Machine.State} {t : Machine.State} (hW : sub [.sup, .adit, .mgmt] W = true) (h : execMainOff a0 = .next t) : Only W a0 t := by
  unfold execMainOff at h
  cases h
  refine Only.after (mgmtTurn_only (sub_trans rfl hW) (fun t0 => ?_)) ?_
  · exact polMainOff_only (sub_trans rfl hW)
  · exact Only.rfl

theorem execMainOffRelease_only {W : List Blk} {a0 : Machine.State} {t : Machine.State} (hW : sub [.ao, .sup, .adit, .host, .rings, .cages, .beat, .mem, .mgmt, .links, .coll, .power, .heat, .pump] W = true) (h : execMainOffRelease a0 = .next t) : Only W a0 t := by
  unfold execMainOffRelease at h
  cases h
  refine Only.after (edgeTurn_only (sub_trans rfl hW) (fun t0 => ?_)) ?_
  · exact mainOffRelease_only (sub_trans rfl hW)
  · exact Only.rfl

theorem execHeatDumpEnd_only {W : List Blk} {a0 : Machine.State} {t : Machine.State} (hW : sub [.sup, .adit, .mgmt, .pump] W = true) (h : execHeatDumpEnd a0 = .next t) : Only W a0 t := by
  unfold execHeatDumpEnd at h
  cases h
  refine Only.after (mgmtTurn_only (sub_trans rfl hW) (fun t0 => ?_)) ?_
  · exact dumpEnd_only (sub_trans rfl hW)
  · exact Only.rfl

theorem execLeakTapeDry_only {W : List Blk} {a0 : Machine.State} {t : Machine.State} (hW : sub [.ao, .sup, .adit, .mgmt, .pump] W = true) (h : execLeakTapeDry a0 = .next t) : Only W a0 t := by
  unfold execLeakTapeDry at h
  cases h
  refine Only.after (edgeTurn_only (sub_trans rfl hW) (fun t0 => ?_)) ?_
  · exact tapeIsDry_only (sub_trans rfl hW)
  · exact Only.rfl

theorem execTripSourcesClean_only {W : List Blk} {a0 : Machine.State} {t : Machine.State} (hW : sub [.ao, .adit, .mgmt] W = true) (h : execTripSourcesClean a0 = .next t) : Only W a0 t := by
  unfold execTripSourcesClean at h
  cases h
  refine Only.after (edgeTurn_only (sub_trans rfl hW) (fun t0 => ?_)) ?_
  · exact sourcesClean_only (sub_trans rfl hW)
  · exact Only.rfl

theorem execWardenStartActive_only {W : List Blk} {a0 : Machine.State} {t : Machine.State} (hW : sub [.adit, .mgmt, .bus, .ward] W = true) (h : execWardenStartActive a0 = .next t) : Only W a0 t := by
  unfold execWardenStartActive at h
  cases h
  refine Only.after (mgmtTurn_only (sub_trans rfl hW) (fun t0 => ?_)) ?_
  · exact startActive_only (sub_trans rfl hW)
  · exact Only.rfl

theorem execStandbyEvaluation_only {W : List Blk} {a0 : Machine.State} {t : Machine.State} (hW : sub [.adit, .mgmt, .bus, .ward] W = true) (h : execStandbyEvaluation a0 = .next t) : Only W a0 t := by
  unfold execStandbyEvaluation at h
  cases h
  refine Only.after (mgmtTurn_only (sub_trans rfl hW) (fun t0 => ?_)) ?_
  · exact standbyEval_only (sub_trans rfl hW)
  · exact Only.rfl

theorem execRackCycle_only {W : List Blk} {a0 : Machine.State} {t : Machine.State} (hW : sub [.adit, .mgmt, .ward] W = true) (h : execRackCycle a0 = .next t) : Only W a0 t := by
  unfold execRackCycle at h
  cases h
  refine Only.after (mgmtTurn_only (sub_trans rfl hW) (fun t0 => ?_)) ?_
  · exact rackCycle_only (sub_trans rfl hW)
  · exact Only.rfl

theorem execRowCycle_only {W : List Blk} {a0 : Machine.State} {t : Machine.State} (hW : sub [.adit, .mgmt, .ward] W = true) (h : execRowCycle a0 = .next t) : Only W a0 t := by
  unfold execRowCycle at h
  cases h
  refine Only.after (mgmtTurn_only (sub_trans rfl hW) (fun t0 => ?_)) ?_
  · exact rowCycle_only (sub_trans rfl hW)
  · exact Only.rfl

theorem execRowAllocSilence_only {W : List Blk} {a0 : Machine.State} {t : Machine.State} (hW : sub [.adit, .mgmt, .ward] W = true) (h : execRowAllocSilence a0 = .next t) : Only W a0 t := by
  unfold execRowAllocSilence at h
  cases h
  refine Only.after (mgmtTurn_only (sub_trans rfl hW) (fun t0 => ?_)) ?_
  · exact rowAllocSilence_only (sub_trans rfl hW)
  · exact Only.rfl

theorem execLeakResponseDelay_only {W : List Blk} {a0 : Nat} {a1 : Machine.State} {t : Machine.State} (hW : sub [.adit, .mgmt, .bus, .ward] W = true) (h : execLeakResponseDelay a0 a1 = .next t) : Only W a1 t := by
  unfold execLeakResponseDelay at h
  cases h
  refine Only.after (mgmtTurn_only (sub_trans rfl hW) (fun t0 => ?_)) ?_
  · exact leakDelay_only (sub_trans rfl hW)
  · exact Only.rfl

theorem execWlState_only {W : List Blk} {a0 : Nat} {a1 : Nat} {a2 : Bool} {a3 : Bytes} {a4 : Machine.State} {t : Machine.State} (hW : sub [.adit, .mgmt, .ward] W = true) (h : execWlState a0 a1 a2 a3 a4 = .next t) : Only W a4 t := by
  unfold execWlState at h
  cases h
  refine Only.after (mgmtTurn_only (sub_trans rfl hW) (fun t0 => ?_)) ?_
  · refine Only.after (wlIn_only (sub_trans rfl hW) (fun _ t1 => ?_)) ?_
    · exact takeState_only (sub_trans rfl hW)
    · exact Only.rfl
  · exact Only.rfl

theorem execWlMirror_only {W : List Blk} {a0 : Nat} {a1 : Nat} {a2 : Bool} {a3 : Bytes} {a4 : Machine.State} {t : Machine.State} (hW : sub [.adit, .mgmt, .ward] W = true) (h : execWlMirror a0 a1 a2 a3 a4 = .next t) : Only W a4 t := by
  unfold execWlMirror at h
  cases h
  refine Only.after (mgmtTurn_only (sub_trans rfl hW) (fun t0 => ?_)) ?_
  · refine Only.after (wlIn_only (sub_trans rfl hW) (fun _ t1 => ?_)) ?_
    · exact takeMirror_only (sub_trans rfl hW)
    · exact Only.rfl
  · exact Only.rfl

theorem execHandover_only {W : List Blk} {a0 : Nat} {a1 : Nat} {a2 : Bool} {a3 : Bytes} {a4 : Machine.State} {t : Machine.State} (hW : sub [.adit, .mgmt, .bus, .ward] W = true) (h : execHandover a0 a1 a2 a3 a4 = .next t) : Only W a4 t := by
  unfold execHandover at h
  cases h
  refine Only.after (mgmtTurn_only (sub_trans rfl hW) (fun t0 => ?_)) ?_
  · refine Only.after (wlIn_only (sub_trans rfl hW) (fun _ t1 => ?_)) ?_
    · exact takeHandover_only (sub_trans rfl hW)
    · exact Only.rfl
  · exact Only.rfl

theorem execHandoverAck_only {W : List Blk} {a0 : Nat} {a1 : Nat} {a2 : Bool} {a3 : Bytes} {a4 : Machine.State} {t : Machine.State} (hW : sub [.adit, .mgmt, .bus, .ward] W = true) (h : execHandoverAck a0 a1 a2 a3 a4 = .next t) : Only W a4 t := by
  unfold execHandoverAck at h
  cases h
  refine Only.after (mgmtTurn_only (sub_trans rfl hW) (fun t0 => ?_)) ?_
  · refine Only.after (wlIn_only (sub_trans rfl hW) (fun _ t1 => ?_)) ?_
    · exact takeHandoverAck_only (sub_trans rfl hW)
    · exact Only.rfl
  · exact Only.rfl

theorem execHandoverTimeout_only {W : List Blk} {a0 : Machine.State} {t : Machine.State} (hW : sub [.adit, .mgmt, .ward] W = true) (h : execHandoverTimeout a0 = .next t) : Only W a0 t := by
  unfold execHandoverTimeout at h
  cases h
  refine Only.after (mgmtTurn_only (sub_trans rfl hW) (fun t0 => ?_)) ?_
  · exact handoverTimeout_only (sub_trans rfl hW)
  · exact Only.rfl

theorem execKeepalive_only {W : List Blk} {a0 : Nat} {a1 : Nat} {a2 : Bool} {a3 : Bytes} {a4 : Machine.State} {t : Machine.State} (hW : sub [.adit, .mgmt, .ward] W = true) (h : execKeepalive a0 a1 a2 a3 a4 = .next t) : Only W a4 t := by
  unfold execKeepalive at h
  cases h
  refine Only.after (mgmtTurn_only (sub_trans rfl hW) (fun t0 => ?_)) ?_
  · refine Only.after (wlIn_only (sub_trans rfl hW) (fun _ t1 => ?_)) ?_
    · exact Only.rfl
    · exact Only.rfl
  · exact Only.rfl

theorem execWlLaneDown_only {W : List Blk} {a0 : Nat} {a1 : Machine.State} {t : Machine.State} (hW : sub [.adit, .mgmt, .ward] W = true) (h : execWlLaneDown a0 a1 = .next t) : Only W a1 t := by
  unfold execWlLaneDown at h
  cases h
  refine Only.after (mgmtTurn_only (sub_trans rfl hW) (fun t0 => ?_)) ?_
  · exact laneDown_only (sub_trans rfl hW)
  · exact Only.rfl

theorem execMirrorTimer_only {W : List Blk} {a0 : Machine.State} {t : Machine.State} (hW : sub [.adit, .mgmt, .bus, .ward] W = true) (h : execMirrorTimer a0 = .next t) : Only W a0 t := by
  unfold execMirrorTimer at h
  cases h
  refine Only.after (mgmtTurn_only (sub_trans rfl hW) (fun t0 => ?_)) ?_
  · exact mirrorTimer_only (sub_trans rfl hW)
  · exact Only.rfl

theorem execCanaryTestExpiry_only {W : List Blk} {a0 : Machine.State} {t : Machine.State} (hW : sub [.adit, .mgmt, .ward] W = true) (h : execCanaryTestExpiry a0 = .next t) : Only W a0 t := by
  unfold execCanaryTestExpiry at h
  cases h
  refine Only.after (mgmtTurn_only (sub_trans rfl hW) (fun t0 => ?_)) ?_
  · exact canaryExpiry_only (sub_trans rfl hW)
  · exact Only.rfl

theorem execFabricAlert_only {W : List Blk} {a0 : Machine.State} {t : Machine.State} (hW : sub [.adit, .mgmt] W = true) (h : execFabricAlert a0 = .next t) : Only W a0 t := by
  unfold execFabricAlert at h
  cases h
  refine Only.after (mgmtTurn_only (sub_trans rfl hW) (fun t0 => ?_)) ?_
  · refine Only.after (withA5_only (sub_trans rfl hW) (fun _ _ t1 => ?_)) ?_
    · exact takeFabric_only (sub_trans rfl hW)
    · exact Only.rfl
  · exact Only.rfl

theorem execCommission_only {W : List Blk} {a0 : Machine.State} {t : Machine.State} (hW : sub [.adit, .mgmt, .bus, .ward] W = true) (h : execCommission a0 = .next t) : Only W a0 t := by
  unfold execCommission at h
  cases h
  refine Only.after (mgmtTurn_only (sub_trans rfl hW) (fun t0 => ?_)) ?_
  · exact polCommission_only (sub_trans rfl hW)
  · exact Only.rfl

theorem execDecommission_only {W : List Blk} {a0 : Machine.State} {t : Machine.State} (hW : sub [.adit, .mgmt, .bus, .ward] W = true) (h : execDecommission a0 = .next t) : Only W a0 t := by
  unfold execDecommission at h
  cases h
  refine Only.after (mgmtTurn_only (sub_trans rfl hW) (fun t0 => ?_)) ?_
  · exact polDecommission_only (sub_trans rfl hW)
  · exact Only.rfl

theorem execSetStageMap_only {W : List Blk} {a0 : Machine.State} {t : Machine.State} (hW : sub [.adit, .mgmt, .ward] W = true) (h : execSetStageMap a0 = .next t) : Only W a0 t := by
  unfold execSetStageMap at h
  cases h
  refine Only.after (mgmtTurn_only (sub_trans rfl hW) (fun t0 => ?_)) ?_
  · exact polStageMap_only (sub_trans rfl hW)
  · exact Only.rfl

theorem execSetBudget_only {W : List Blk} {a0 : Machine.State} {t : Machine.State} (hW : sub [.adit, .mgmt, .ward] W = true) (h : execSetBudget a0 = .next t) : Only W a0 t := by
  unfold execSetBudget at h
  cases h
  refine Only.after (mgmtTurn_only (sub_trans rfl hW) (fun t0 => ?_)) ?_
  · exact polSetBudget_only (sub_trans rfl hW)
  · exact Only.rfl

theorem execSetExchange_only {W : List Blk} {a0 : Machine.State} {t : Machine.State} (hW : sub [.adit, .mgmt, .ward] W = true) (h : execSetExchange a0 = .next t) : Only W a0 t := by
  unfold execSetExchange at h
  cases h
  refine Only.after (mgmtTurn_only (sub_trans rfl hW) (fun t0 => ?_)) ?_
  · exact polExchange_only (sub_trans rfl hW)
  · exact Only.rfl

theorem execSetSlew_only {W : List Blk} {a0 : Machine.State} {t : Machine.State} (hW : sub [.adit, .mgmt, .ward] W = true) (h : execSetSlew a0 = .next t) : Only W a0 t := by
  unfold execSetSlew at h
  cases h
  refine Only.after (mgmtTurn_only (sub_trans rfl hW) (fun t0 => ?_)) ?_
  · exact polSlew_only (sub_trans rfl hW)
  · exact Only.rfl

theorem execSetLeak_only {W : List Blk} {a0 : Machine.State} {t : Machine.State} (hW : sub [.adit, .mgmt, .ward] W = true) (h : execSetLeak a0 = .next t) : Only W a0 t := by
  unfold execSetLeak at h
  cases h
  refine Only.after (mgmtTurn_only (sub_trans rfl hW) (fun t0 => ?_)) ?_
  · exact polLeak_only (sub_trans rfl hW)
  · exact Only.rfl

theorem execSlotValve_only {W : List Blk} {a0 : Machine.State} {t : Machine.State} (hW : sub [.adit, .mgmt, .ward] W = true) (h : execSlotValve a0 = .next t) : Only W a0 t := by
  unfold execSlotValve at h
  cases h
  refine Only.after (mgmtTurn_only (sub_trans rfl hW) (fun t0 => ?_)) ?_
  · exact polSlotValve_only (sub_trans rfl hW)
  · exact Only.rfl

theorem execSlotRelease_only {W : List Blk} {a0 : Machine.State} {t : Machine.State} (hW : sub [.adit, .mgmt, .ward] W = true) (h : execSlotRelease a0 = .next t) : Only W a0 t := by
  unfold execSlotRelease at h
  cases h
  refine Only.after (mgmtTurn_only (sub_trans rfl hW) (fun t0 => ?_)) ?_
  · exact polSlotRelease_only (sub_trans rfl hW)
  · exact Only.rfl

theorem execCanarySwap_only {W : List Blk} {a0 : Machine.State} {t : Machine.State} (hW : sub [.adit, .mgmt, .ward] W = true) (h : execCanarySwap a0 = .next t) : Only W a0 t := by
  unfold execCanarySwap at h
  cases h
  refine Only.after (mgmtTurn_only (sub_trans rfl hW) (fun t0 => ?_)) ?_
  · exact polCanary_only (sub_trans rfl hW)
  · exact Only.rfl

theorem execLeakReset_only {W : List Blk} {a0 : Machine.State} {t : Machine.State} (hW : sub [.adit, .mgmt, .ward] W = true) (h : execLeakReset a0 = .next t) : Only W a0 t := by
  unfold execLeakReset at h
  cases h
  refine Only.after (mgmtTurn_only (sub_trans rfl hW) (fun t0 => ?_)) ?_
  · exact polLeakReset_only (sub_trans rfl hW)
  · exact Only.rfl

theorem execWardNow_only {W : List Blk} {a0 : Machine.State} {t : Machine.State} (hW : sub [.adit, .mgmt] W = true) (h : execWardNow a0 = .next t) : Only W a0 t := by
  unfold execWardNow at h
  cases h
  refine Only.after (mgmtTurn_only (sub_trans rfl hW) (fun t0 => ?_)) ?_
  · exact polWardNow_only (sub_trans rfl hW)
  · exact Only.rfl

theorem execWardStatusTimer_only {W : List Blk} {a0 : Machine.State} {t : Machine.State} (hW : sub [.adit, .mgmt] W = true) (h : execWardStatusTimer a0 = .next t) : Only W a0 t := by
  unfold execWardStatusTimer at h
  cases h
  refine Only.after (mgmtTurn_only (sub_trans rfl hW) (fun t0 => ?_)) ?_
  · exact wardStatus_only (sub_trans rfl hW)
  · exact Only.rfl

end Sys2Proof.Machine
end

