-- ==== Sys2Proof/Laws/Memory.lean ====
section
/-! SUPPORT. The laws of the byte memories: a read after a write, and the canonical form. -/

namespace Sys2Proof.Machine

open Sys2Proof

/-! ### Reads after writes -/

theorem mrd_mins_same (m : Mem) (a : Nat) (v : Byte) : mrd (mins m a v) a = v := by
  induction m with
  | nil => simp [mins, mrd]
  | cons c r ih =>
    obtain ⟨j, w⟩ := c
    unfold mins
    split
    · simp [mrd]
    · split
      · simp [mrd]
      · simp [mrd, *]

theorem mrd_mins_other {m : Mem} {a b : Nat} {v : Byte} (h : b ≠ a) : mrd (mins m a v) b = mrd m b := by
  induction m with
  | nil => simp [mins, mrd, h.symm]
  | cons c r ih =>
    obtain ⟨j, w⟩ := c
    unfold mins
    split
    · simp [mrd, h.symm]
    · split
      · subst_vars; simp [mrd, h.symm]
      · simp [mrd, ih]

theorem mrd_filter {m : Mem} {p : Nat → Bool} {b : Nat} : mrd (m.filter (fun c => p c.1)) b = if p b then mrd m b else 0 := by
  induction m with
  | nil => simp [mrd]
  | cons c r ih =>
    obtain ⟨j, w⟩ := c
    by_cases hj : j = b
    · subst hj
      cases hp : p j <;> simp [mrd, hp, ih]
    · cases hp : p j <;> simp [mrd, hp, hj, ih]

/-- A byte written reads back. -/
@[simp] theorem mrd_mwr_same (m : Mem) (a : Nat) (v : Byte) : mrd (mwr m a v) a = v := by
  unfold mwr
  split
  · have h := mrd_filter (m := m) (p := fun j => j != a) (b := a)
    simp_all
  · exact mrd_mins_same m a v

/-- A write leaves every other byte alone. -/
theorem mrd_mwr_other {m : Mem} {a b : Nat} {v : Byte} (h : b ≠ a) : mrd (mwr m a v) b = mrd m b := by
  unfold mwr
  split
  · have k := mrd_filter (m := m) (p := fun j => j != a) (b := b)
    simp_all
  · exact mrd_mins_other h

/-- A byte string written leaves every byte outside it alone. -/
theorem mrd_mwrN_other {m : Mem} {a b : Nat} {bs : Bytes} (h : b < a ∨ a + bs.length ≤ b) : mrd (mwrN m a bs) b = mrd m b := by
  induction bs generalizing m a with
  | nil => rfl
  | cons v r ih =>
    rw [List.length_cons] at h
    rw [mwrN, ih (by omega), mrd_mwr_other (by omega)]

/-- A byte string written reads back byte for byte. -/
theorem mrd_mwrN_at {m : Mem} {a i : Nat} {bs : Bytes} (h : i < bs.length) : mrd (mwrN m a bs) (a + i) = bs[i] := by
  induction bs generalizing m a i with
  | nil => simp at h
  | cons v r ih =>
    rw [mwrN]
    cases i with
    | zero => rw [mrd_mwrN_other (by omega), Nat.add_zero, mrd_mwr_same]; rfl
    | succ i =>
      have e : a + (i + 1) = a + 1 + i := by omega
      rw [e, ih (by simpa using h)]
      rfl

/-- A byte string written reads back. -/
@[simp] theorem mrdN_mwrN_same (m : Mem) (a : Nat) (bs : Bytes) : mrdN (mwrN m a bs) a bs.length = bs := by
  apply List.ext_getElem
  · simp [mrdN]
  · intro i h k
    simpa [mrdN] using mrd_mwrN_at k

/-- A cleared range reads 0, the rest as before. -/
theorem mrd_mclear {m : Mem} {lo hi b : Nat} : mrd (mclear m lo hi) b = if b < lo ∨ hi ≤ b then mrd m b else 0 := by
  have h := mrd_filter (m := m) (p := fun j => j < lo || hi ≤ j) (b := b)
  simpa [mclear] using h

/-! ### The canonical form -/

/-- The canonical form, said without recursion. -/
theorem wf_iff {m : Mem} : Memory.wf m = true ↔ m.Pairwise (fun a b => a.1 < b.1) ∧ ∀ c ∈ m, c.2 ≠ 0 := by
  induction m with
  | nil => simp [Memory.wf]
  | cons a r ih =>
    cases r with
    | nil => simp [Memory.wf]
    | cons b r =>
      simp only [Memory.wf, Bool.and_eq_true, decide_eq_true_eq, bne_iff_ne, ne_eq, ih]
      constructor
      · rintro ⟨⟨hab, ha⟩, hp, hz⟩
        refine ⟨List.pairwise_cons.2 ⟨fun c hc => ?_, hp⟩, fun c hc => ?_⟩
        · rcases List.mem_cons.1 hc with rfl | hc
          · exact hab
          · exact Nat.lt_trans hab ((List.pairwise_cons.1 hp).1 c hc)
        · rcases List.mem_cons.1 hc with rfl | hc
          · exact ha
          · exact hz c hc
      · rintro ⟨hp, hz⟩
        obtain ⟨h1, h2⟩ := List.pairwise_cons.1 hp
        exact ⟨⟨h1 b (by simp), hz a (by simp)⟩, h2, fun c hc => hz c (List.mem_cons_of_mem _ hc)⟩

theorem filter_wf {m : Mem} {p : Host.Cell → Bool} (h : Memory.wf m = true) : Memory.wf (m.filter p) = true := by
  rw [wf_iff] at *
  exact ⟨h.1.filter _, fun c hc => h.2 c ((List.mem_filter.1 hc).1)⟩

theorem mem_mins {m : Mem} {a : Nat} {v : Byte} {c : Host.Cell} (h : c ∈ mins m a v) : c = (a, v) ∨ c ∈ m := by
  induction m with
  | nil => simpa [mins] using h
  | cons d r ih =>
    obtain ⟨j, w⟩ := d
    unfold mins at h
    split at h
    · simpa using h
    · split at h
      · rcases List.mem_cons.1 h with h | h
        · exact .inl h
        · exact .inr (List.mem_cons_of_mem _ h)
      · rcases List.mem_cons.1 h with h | h
        · exact .inr (h ▸ List.mem_cons_self)
        · exact (ih h).imp id (List.mem_cons_of_mem _)

theorem mins_wf {m : Mem} {a : Nat} {v : Byte} (hv : v ≠ 0) (h : Memory.wf m = true) : Memory.wf (mins m a v) = true := by
  rw [wf_iff] at *
  refine ⟨?_, fun c hc => ?_⟩
  · obtain ⟨hp, -⟩ := h
    induction m with
    | nil => simp [mins]
    | cons d r ih =>
      obtain ⟨j, w⟩ := d
      obtain ⟨h1, h2⟩ := List.pairwise_cons.1 hp
      unfold mins
      split
      · refine List.pairwise_cons.2 ⟨fun c hc => ?_, hp⟩
        rcases List.mem_cons.1 hc with rfl | hc
        · assumption
        · exact Nat.lt_trans ‹_› (h1 c hc)
      · split
        · subst_vars
          exact List.pairwise_cons.2 ⟨h1, h2⟩
        · refine List.pairwise_cons.2 ⟨fun c hc => ?_, ih h2⟩
          rcases mem_mins hc with rfl | hc
          · show j < a
            omega
          · exact h1 c hc
  · rcases mem_mins hc with rfl | hc
    · exact hv
    · exact h.2 c hc

/-- A write of one byte keeps the canonical form. -/
theorem mwr_wf {m : Mem} {a : Nat} {v : Byte} (h : Memory.wf m = true) : Memory.wf (mwr m a v) = true := by
  unfold mwr
  split
  · exact filter_wf h
  · exact mins_wf ‹_› h

/-- A write of a byte string keeps the canonical form. -/
theorem mwrN_wf {m : Mem} {a : Nat} {bs : Bytes} (h : Memory.wf m = true) : Memory.wf (mwrN m a bs) = true := by
  induction bs generalizing m a with
  | nil => exact h
  | cons v r ih => exact ih (mwr_wf h)

/-- Clearing a range keeps the canonical form. -/
theorem mclear_wf {m : Mem} {lo hi : Nat} (h : Memory.wf m = true) : Memory.wf (mclear m lo hi) = true := filter_wf h

/-- A cell of a canonical memory reads as its value. -/
theorem mrd_mem {m : Mem} {c : Host.Cell} (h : Memory.wf m = true) (hc : c ∈ m) : mrd m c.1 = c.2 := by
  obtain ⟨hp, -⟩ := wf_iff.1 h
  clear h
  induction m with
  | nil => cases hc
  | cons d r ih =>
    obtain ⟨j, w⟩ := d
    obtain ⟨h1, h2⟩ := List.pairwise_cons.1 hp
    rcases List.mem_cons.1 hc with rfl | hc
    · simp [mrd]
    · have := h1 c hc
      rw [mrd, if_neg (by omega)]
      exact ih hc h2

end Sys2Proof.Machine
end

