-- ==== Sys2Proof/Laws/Canon.lean ====
section
/-! SUPPORT. Every operation and every command keeps device memory in its canonical form. -/

namespace Sys2Proof.Machine

open Sys2Proof

/-- From s to t device memory keeps its canonical form. -/
def MemOk (s t : State) : Prop := Memory.wf s.mem.mem = true → Memory.wf t.mem.mem = true

abbrev MemVia {β : Type} (p : β → State) (s : State) (r : β) : Prop := MemOk s (p r)

abbrev MemOpt (s : State) (r : Option State) : Prop := ∀ t, r = some t → MemOk s t

theorem MemOk.rfl {s : State} : MemOk s s := id

theorem MemOk.after {s t u : State} (k : MemOk t u) (h : MemOk s t) : MemOk s u := fun w => k (h w)

theorem MemOk.ofOnly {W : List Blk} {s t : State} (h : Only W s t) (k : W.contains .mem = false) : MemOk s t := by
  have e : t.mem = s.mem := h .mem k
  intro w
  rw [e]
  exact w

theorem MemOpt.ofOnly {W : List Blk} {s : State} {r : Option State} (h : OnlyOpt W s r) (k : W.contains .mem = false) : MemOpt s r := fun t e => MemOk.ofOnly (h t e) k

theorem MemOk.put {s t u : State} (h : MemOk s t) (k : Memory.wf t.mem.mem = true → Memory.wf u.mem.mem = true) : MemOk s u := fun w => k (h w)

theorem MemOk.ite {s a b : State} {c : Prop} [Decidable c] (ha : c → MemOk s a) (hb : ¬c → MemOk s b) : MemOk s (if c then a else b) := by
  split
  · exact ha ‹_›
  · exact hb ‹_›

theorem MemOk.iteV {β : Type} {p : β → State} {s : State} {a b : β} {c : Prop} [Decidable c] (ha : c → MemVia p s a) (hb : ¬c → MemVia p s b) : MemVia p s (if c then a else b) := by
  split
  · exact ha ‹_›
  · exact hb ‹_›

theorem MemOk.via2 {α : Type} {s x : State} {a : α} (h : MemOk s x) : MemVia Prod.snd s (a, x) := h

theorem MemOk.via1 {α : Type} {s x : State} {a : α} (h : MemOk s x) : MemVia Prod.fst s (x, a) := h

theorem MemOk.via3 {α β : Type} {s x : State} {a : α} {b : β} (h : MemOk s x) : MemVia (fun r : α × β × State => r.2.2) s (a, b, x) := h

theorem MemOk.ofEq {β : Type} {p : β → State} {s t : State} {q r : β} (k : MemVia p t q) (e : q = r) (h : MemOk s t) : MemVia p s r := e ▸ MemOk.after k h

theorem MemOpt.none {s : State} : MemOpt s none := fun _ h => by cases h

theorem MemOpt.some {s t : State} (h : MemOk s t) : MemOpt s (some t) := fun _ e => by cases e; exact h

theorem MemOk.foldl {α : Type} {s t : State} {g : State → α → State} {l : List α} (k : ∀ t x, MemOk t (g t x)) (h : MemOk s t) : MemOk s (l.foldl g t) := by
  induction l generalizing t with
  | nil => exact h
  | cons a r ih => exact ih ((k t a).after h)

theorem forEach_memOk {s : State} {l : List Nat} {g : Nat → State → State} (k : ∀ n t, MemOk t (g n t)) : MemOk s (forEach l g s) :=
  MemOk.foldl (fun t n => k n t) MemOk.rfl

theorem State.modMem_memOk {s : State} {f : MemBlk → MemBlk} (h : ∀ m, Memory.wf m.mem = true → Memory.wf (f m).mem = true) : MemOk s (s.modMem f) := h s.mem

theorem issueWhen_memOk {a0 : Nat → Bool} {a1 : Nat} {a2 : Nat} {a3 : Nat → Machine.State → Machine.State} {a4 : Machine.State} (g0 : ∀ v0 v1, MemOk v1 (a3 v0 v1)) : MemOk a4 (issueWhen a0 a1 a2 a3 a4) := by
  unfold issueWhen
  split
  · exact MemOk.rfl
  · refine MemOk.ite (fun _ => ?_) (fun _ => ?_)
    · exact MemOk.after (MemOk.ofOnly (refresh_only (W := [.rings]) rfl) rfl) (MemOk.after (MemOk.ofOnly (tryFail_only (W := [.host, .rings]) rfl) rfl) (MemOk.after (g0 _ _) (MemOk.ofOnly (took_only (W := [.rings]) rfl) rfl)))
    · exact MemOk.rfl

theorem issueOp_memOk {a0 : Nat} {a1 : OpSpec} {a2 : Nat} {a3 : Nat} {a4 : Nat → Machine.State → Machine.State} {a5 : Machine.State} (g0 : ∀ v0 v1, MemOk v1 (a4 v0 v1)) : MemOk a5 (issueOp a0 a1 a2 a3 a4 a5) := by
  unfold issueOp
  refine MemOk.after (issueWhen_memOk (fun _ t0 => ?_)) ?_
  · split
    · exact MemOk.ofOnly (endCmd_only (W := [.rings]) rfl) rfl
    · exact g0 _ _
  · exact MemOk.rfl

theorem setLinePoison_memOk {a0 : Nat} {a1 : Bool} {a2 : Machine.State} : MemOk a2 (setLinePoison a0 a1 a2) := by
  unfold setLinePoison
  exact State.modMem_memOk (by intro m h; first | exact h | exact mwrN_wf h | exact mwr_wf h | exact mclear_wf h | rfl)

theorem poisonFrame_memOk {a0 : Nat} {a1 : Machine.State} : MemOk a1 (poisonFrame a0 a1) := by
  unfold poisonFrame
  exact State.modMem_memOk (by intro m h; first | exact h | exact mwrN_wf h | exact mwr_wf h | exact mclear_wf h | rfl)

theorem zeroFrame_memOk {a0 : Nat} {a1 : Machine.State} : MemOk a1 (zeroFrame a0 a1) := by
  unfold zeroFrame
  exact State.modMem_memOk (by intro m h; first | exact h | exact mwrN_wf h | exact mwr_wf h | exact mclear_wf h | rfl)

theorem devWrite_memOk {a0 : Nat} {a1 : Nat} {a2 : Nat} {a3 : Nat} {a4 : Nat} {a5 : Bytes} {a6 : Machine.State} : MemVia Prod.fst a6 (devWrite a0 a1 a2 a3 a4 a5 a6) := by
  induction a3 generalizing a0 a1 a2 a4 a5 a6 with
  | zero =>
    unfold devWrite
    refine MemOk.via1 ?_
    exact MemOk.rfl
  | succ n ih =>
    unfold devWrite
    refine MemOk.iteV (fun _ => ?_) (fun _ => ?_)
    · refine MemOk.via1 ?_
      exact MemOk.rfl
    · extract_lets +onlyGivenNames -merge -useContext -underBinder x0
      try clear_value x0
      extract_lets +onlyGivenNames -merge -useContext -underBinder x1
      try clear_value x1
      split
      · refine MemOk.via1 ?_
        exact MemOk.rfl
      · refine MemOk.iteV (fun _ => ?_) (fun _ => ?_)
        · refine MemOk.via1 ?_
          exact MemOk.rfl
        · extract_lets +onlyGivenNames -merge -useContext -underBinder x2
          have h3 : MemOk a6 x2 := by
            unfold x2
            exact State.modMem_memOk (by intro m h; first | exact h | exact mwrN_wf h | exact mwr_wf h | exact mclear_wf h | rfl)
          clear_value x2
          extract_lets +onlyGivenNames -merge -useContext -underBinder x4
          have h5 : MemOk a6 x4 := by
            unfold x4
            refine MemOk.ite (fun _ => ?_) (fun _ => ?_)
            · exact MemOk.after (setLinePoison_memOk) (h3)
            · exact h3
          clear_value x4
          extract_lets +onlyGivenNames -merge -useContext -underBinder x6
          try clear_value x6
          extract_lets +onlyGivenNames -merge -useContext -underBinder x7
          have h8 : MemOk a6 x7 := by
            unfold x7
            refine MemOk.ite (fun _ => ?_) (fun _ => ?_)
            · exact MemOk.after (MemOk.ofOnly (State.modPage_only (W := [.cages]) rfl) rfl) (h5)
            · exact h5
          clear_value x7
          exact MemOk.after (by apply ih) (h8)

theorem restoreDone_memOk {a0 : Nat} {a1 : Nat} {a2 : Machine.State} : MemOk a2 (restoreDone a0 a1 a2) := by
  unfold restoreDone
  extract_lets +onlyGivenNames -merge -useContext -underBinder x0
  try clear_value x0
  extract_lets +onlyGivenNames -merge -useContext -underBinder x1
  have h2 : MemOk a2 x1 := by
    unfold x1
    exact MemOk.ofOnly (dropMove_only (W := [.cages]) rfl) rfl
  clear_value x1
  extract_lets +onlyGivenNames -merge -useContext -underBinder x3
  have h4 : MemOk a2 x3 := by
    unfold x3
    exact MemOk.after (MemOk.ofOnly (State.modPage_only (W := [.cages]) rfl) rfl) (MemOk.after (MemOk.ofOnly (State.setFrame_only (W := [.cages]) rfl) rfl) (h2))
  clear_value x3
  extract_lets +onlyGivenNames -merge -useContext -underBinder x5
  have h6 : MemOk a2 x5 := by
    unfold x5
    refine MemOk.ite (fun _ => ?_) (fun _ => ?_)
    · exact MemOk.after (MemOk.ofOnly (reportCtl_only (W := [.host, .rings]) rfl) rfl) (MemOk.after (poisonFrame_memOk) (h4))
    · exact h4
  clear_value x5
  exact MemOk.after (MemOk.ofOnly (kickMoves_only (W := [.host, .cages]) rfl) rfl) (MemOk.after (MemOk.ofOnly (dropPlans_only (W := [.cages]) rfl) rfl) (h6))

theorem restoreFail_memOk {a0 : Nat} {a1 : Nat} {a2 : Machine.State} : MemOk a2 (restoreFail a0 a1 a2) := by
  unfold restoreFail
  extract_lets +onlyGivenNames -merge -useContext -underBinder x0
  try clear_value x0
  extract_lets +onlyGivenNames -merge -useContext -underBinder x1
  have h2 : MemOk a2 x1 := by
    unfold x1
    exact MemOk.ofOnly (dropMove_only (W := [.cages]) rfl) rfl
  clear_value x1
  extract_lets +onlyGivenNames -merge -useContext -underBinder x3
  have h4 : MemOk a2 x3 := by
    unfold x3
    exact MemOk.after (MemOk.ofOnly (State.modPage_only (W := [.cages]) rfl) rfl) (MemOk.after (MemOk.ofOnly (State.setFrame_only (W := [.cages]) rfl) rfl) (h2))
  clear_value x3
  exact MemOk.after (MemOk.ofOnly (kickMoves_only (W := [.host, .cages]) rfl) rfl) (MemOk.after (MemOk.ofOnly (dropPlans_only (W := [.cages]) rfl) rfl) (MemOk.after (MemOk.ofOnly (reportCtl_only (W := [.host, .rings]) rfl) rfl) (MemOk.after (poisonFrame_memOk) (h4))))

theorem memGate_memOk {a0 : Nat} {a1 : Machine.State → Machine.State} {a2 : Machine.State} (g0 : ∀ v0, MemOk v0 (a1 v0)) : MemOk a2 (memGate a0 a1 a2) := by
  unfold memGate
  refine MemOk.ite (fun _ => ?_) (fun _ => ?_)
  · exact MemOk.ofOnly (endCmd_only (W := [.rings]) rfl) rfl
  · refine MemOk.ite (fun _ => ?_) (fun _ => ?_)
    · exact MemOk.ofOnly (State.modCtx_only (W := [.rings]) rfl) rfl
    · exact MemOk.after (g0 _) (MemOk.ofOnly (State.modCtx_only (W := [.rings]) rfl) rfl)

theorem looseTail_memOk {a0 : Nat} {a1 : Nat} {a2 : Nat} {a3 : Machine.State} : MemOk a3 (looseTail a0 a1 a2 a3) := by
  unfold looseTail
  split
  · rename_i y1 y2 q3
    have h0 := MemOk.ofEq (p := Prod.snd) (MemOk.ofOnly (drawBytes_only (W := [.free]) rfl) rfl) q3 (s := a3) (by
      exact MemOk.rfl
      )
    split
    · rename_i y5 y6 q7
      have h4 := MemOk.ofEq (p := Prod.snd) (MemOk.ofOnly (drawBytes_only (W := [.free]) rfl) rfl) q7 (s := a3) (by
        exact h0
        )
      extract_lets +onlyGivenNames -merge -useContext -underBinder x8
      try clear_value x8
      extract_lets +onlyGivenNames -merge -useContext -underBinder x9
      try clear_value x9
      refine MemOk.foldl (fun t10 _ => ?_) ?_
      · split
        · exact State.modMem_memOk (by intro m h; first | exact h | exact mwrN_wf h | exact mwr_wf h | exact mclear_wf h | rfl)
        · exact MemOk.rfl
      · exact h4

theorem endingOr_memOk {a0 : Nat} {a1 : Machine.State → Machine.State} {a2 : Machine.State} (g0 : ∀ v0, MemOk v0 (a1 v0)) : MemOk a2 (endingOr a0 a1 a2) := by
  unfold endingOr
  refine MemOk.ite (fun _ => ?_) (fun _ => ?_)
  · exact MemOk.ofOnly (endCmd_only (W := [.rings]) rfl) rfl
  · exact g0 _

theorem h2dData_memOk {a0 : Nat} {a1 : Nat} {a2 : Bytes} {a3 : Machine.State} : MemOk a3 (h2dData a0 a1 a2 a3) := by
  unfold h2dData
  extract_lets +onlyGivenNames -merge -useContext -underBinder x0
  try clear_value x0
  extract_lets +onlyGivenNames -merge -useContext -underBinder x1
  try clear_value x1
  split
  · rename_i y3 y4 q5
    have h2 := MemOk.ofEq (p := Prod.fst) (devWrite_memOk) q5 (s := a3) (by
      exact MemOk.rfl
      )
    split
    · exact MemOk.after (MemOk.ofOnly (endCmd_only (W := [.rings]) rfl) rfl) (h2)
    · refine MemOk.after (endingOr_memOk (fun t6 => ?_)) ?_
      · exact MemOk.ofOnly (h2dNext_only (W := [.host, .rings]) rfl) rfl
      · exact MemOk.after (MemOk.ofOnly (State.modCtx_only (W := [.rings]) rfl) rfl) (h2)

theorem d2dRun_memOk {a0 : Nat} {a1 : Machine.State} : MemOk a1 (d2dRun a0 a1) := by
  unfold d2dRun
  extract_lets +onlyGivenNames -merge -useContext -underBinder x0
  try clear_value x0
  extract_lets +onlyGivenNames -merge -useContext -underBinder x1
  try clear_value x1
  extract_lets +onlyGivenNames -merge -useContext -underBinder x2
  try clear_value x2
  extract_lets +onlyGivenNames -merge -useContext -underBinder x3
  try clear_value x3
  split
  · split
    · rename_i y5 y6 q7
      have h4 := MemOk.ofEq (p := Prod.fst) (devWrite_memOk) q7 (s := a1) (by
        exact MemOk.rfl
        )
      split
      · exact MemOk.after (MemOk.ofOnly (endCmd_only (W := [.rings]) rfl) rfl) (h4)
      · exact MemOk.after (MemOk.ofOnly (endCmd_only (W := [.rings]) rfl) rfl) (h4)
      · exact MemOk.after (MemOk.ofOnly (endOk_only (W := [.rings]) rfl) rfl) (h4)

theorem fillRun_memOk {a0 : Nat} {a1 : Machine.State} : MemOk a1 (fillRun a0 a1) := by
  unfold fillRun
  extract_lets +onlyGivenNames -merge -useContext -underBinder x0
  try clear_value x0
  extract_lets +onlyGivenNames -merge -useContext -underBinder x1
  try clear_value x1
  extract_lets +onlyGivenNames -merge -useContext -underBinder x2
  try clear_value x2
  extract_lets +onlyGivenNames -merge -useContext -underBinder x3
  try clear_value x3
  split
  · rename_i y5 y6 q7
    have h4 := MemOk.ofEq (p := Prod.fst) (devWrite_memOk) q7 (s := a1) (by
      exact MemOk.rfl
      )
    split
    · exact MemOk.after (MemOk.ofOnly (endCmd_only (W := [.rings]) rfl) rfl) (h4)
    · exact MemOk.after (MemOk.ofOnly (endOk_only (W := [.rings]) rfl) rfl) (h4)

theorem copyFail_memOk {a0 : Nat} {a1 : Nat} {a2 : Nat} {a3 : Machine.State} : MemOk a3 (copyFail a0 a1 a2 a3) := by
  unfold copyFail
  extract_lets +onlyGivenNames -merge -useContext -underBinder x0
  try clear_value x0
  extract_lets +onlyGivenNames -merge -useContext -underBinder x1
  have h2 : MemOk a3 x1 := by
    unfold x1
    refine MemOk.ite (fun _ => ?_) (fun _ => ?_)
    · exact looseTail_memOk
    · exact MemOk.rfl
  clear_value x1
  refine MemOk.after (endingOr_memOk (fun t3 => ?_)) ?_
  · exact MemOk.ofOnly (endCmd_only (W := [.rings]) rfl) rfl
  · exact h2

theorem landPiece_memOk {a0 : Machine.Stream} {a1 : Nat} {a2 : Option Bytes} {a3 : Machine.State} : MemOk a3 (landPiece a0 a1 a2 a3) := by
  unfold landPiece
  extract_lets +onlyGivenNames -merge -useContext -underBinder x0
  try clear_value x0
  extract_lets +onlyGivenNames -merge -useContext -underBinder x1
  try clear_value x1
  extract_lets +onlyGivenNames -merge -useContext -underBinder x2
  try clear_value x2
  extract_lets +onlyGivenNames -merge -useContext -underBinder x3
  try clear_value x3
  extract_lets +onlyGivenNames -merge -useContext -underBinder x4
  have h5 : MemOk a3 x4 := by
    unfold x4
    exact MemOk.after (MemOk.ofOnly (modStream_only (W := [.beat]) rfl) rfl) (MemOk.ofOnly (State.modClus_only (W := [.beat]) rfl) rfl)
  clear_value x4
  extract_lets +onlyGivenNames -merge -useContext -underBinder x6
  have h7 : MemOk a3 x6 := by
    unfold x6
    split
    · split
      · exact MemOk.after (MemOk.ofOnly (spWrite_only (W := [.beat]) rfl) rfl) (h5)
      · split
        · exact MemOk.after (MemOk.ofOnly (spWrite_only (W := [.beat]) rfl) rfl) (h5)
        · refine MemOk.ite (fun _ => ?_) (fun _ => ?_)
          · split
            · rename_i y9 y10 q11
              have h8 := MemOk.ofEq (p := Prod.snd) (MemOk.ofOnly (drawBytes_only (W := [.free]) rfl) rfl) q11 (s := a3) (by
                exact h5
                )
              exact MemOk.after (MemOk.ofOnly (spWrite_only (W := [.beat]) rfl) rfl) (h8)
          · split
            · rename_i y13 y14 q15
              have h12 := MemOk.ofEq (p := Prod.snd) (MemOk.ofOnly (pieceData_only (W := [.free]) rfl) rfl) q15 (s := a3) (by
                exact h5
                )
              exact MemOk.after (MemOk.ofOnly (spWrite_only (W := [.beat]) rfl) rfl) (h12)
    · refine MemOk.ite (fun _ => ?_) (fun _ => ?_)
      · exact h5
      · split
        · exact h5
        · split
          · split
            · rename_i y17 y18 q19
              have h16 := MemOk.ofEq (p := Prod.snd) (MemOk.ofOnly (pieceData_only (W := [.free]) rfl) rfl) q19 (s := a3) (by
                exact h5
                )
              exact MemOk.after (setLinePoison_memOk) (MemOk.after (State.modMem_memOk (by intro m h; first | exact h | exact mwrN_wf h | exact mwr_wf h | exact mclear_wf h | rfl)) (h16))
    · split
      · extract_lets +onlyGivenNames -merge -useContext -underBinder x20
        try clear_value x20
        split
        · rename_i y22 y23 q24
          have h21 := MemOk.ofEq (p := Prod.snd) (MemOk.ofOnly (pieceData_only (W := [.free]) rfl) rfl) q24 (s := a3) (by
            exact h5
            )
          exact MemOk.after (MemOk.ofOnly (spWrite_only (W := [.beat]) rfl) rfl) (h21)
  clear_value x6
  extract_lets +onlyGivenNames -merge -useContext -underBinder x25
  have h26 : MemOk a3 x25 := by
    unfold x25
    exact MemOk.after (MemOk.ofOnly (countArrival_only (W := [.beat]) rfl) rfl) (h7)
  clear_value x25
  exact MemOk.after (MemOk.ofOnly (State.modBeat_only (W := [.beat]) rfl) rfl) (h26)

theorem dropStreams_memOk {a0 : Nat} {a1 : Machine.State} : MemOk a1 (dropStreams a0 a1) := by
  unfold dropStreams
  extract_lets +onlyGivenNames -merge -useContext -underBinder x0
  have h1 : MemOk a1 x0 := by
    unfold x0
    refine MemOk.foldl (fun t2 _ => ?_) ?_
    · refine MemOk.ite (fun _ => ?_) (fun _ => ?_)
      · refine MemOk.after (forEach_memOk (fun _ t3 => ?_)) ?_
        · split
          · rename_i y5 y6 q7
            have h4 := MemOk.ofEq (p := Prod.snd) (MemOk.ofOnly (draw_only (W := [.free]) rfl) rfl) q7 (s := t3) (by
              exact MemOk.rfl
              )
            refine MemOk.ite (fun _ => ?_) (fun _ => ?_)
            · exact MemOk.after (landPiece_memOk) (h4)
            · exact h4
        · exact MemOk.rfl
      · exact MemOk.rfl
    · exact MemOk.rfl
  clear_value x0
  extract_lets +onlyGivenNames -merge -useContext -underBinder x8
  have h9 : MemOk a1 x8 := by
    unfold x8
    exact MemOk.after (MemOk.ofOnly (State.modBeat_only (W := [.beat]) rfl) rfl) (h1)
  clear_value x8
  exact MemOk.after (MemOk.ofOnly (State.modHost_only (W := [.host]) rfl) rfl) (h9)

theorem releaseAdm_memOk {a0 : Adm} {a1 : Machine.State} : MemOk a1 (releaseAdm a0 a1) := by
  unfold releaseAdm
  extract_lets +onlyGivenNames -merge -useContext -underBinder x0
  have h1 : MemOk a1 x0 := by
    unfold x0
    refine MemOk.ite (fun _ => ?_) (fun _ => ?_)
    · exact MemOk.ofOnly (unpinPages_only (W := [.cages]) rfl) rfl
    · exact MemOk.rfl
  clear_value x0
  extract_lets +onlyGivenNames -merge -useContext -underBinder x2
  have h3 : MemOk a1 x2 := by
    unfold x2
    exact MemOk.after (MemOk.ofOnly (cancelPlans_only (W := [.cages]) rfl) rfl) (h1)
  clear_value x2
  extract_lets +onlyGivenNames -merge -useContext -underBinder x4
  have h5 : MemOk a1 x4 := by
    unfold x4
    refine MemOk.after (forEach_memOk (fun _ t6 => ?_)) ?_
    · exact MemOk.ofOnly (releaseCluster_only (W := [.beat]) rfl) rfl
    · exact h3
  clear_value x4
  extract_lets +onlyGivenNames -merge -useContext -underBinder x7
  have h8 : MemOk a1 x7 := by
    unfold x7
    refine MemOk.ite (fun _ => ?_) (fun _ => ?_)
    · exact h5
    · exact MemOk.after (MemOk.ofOnly (releaseGroup_only (W := [.beat, .mgmt]) rfl) rfl) (MemOk.after (dropStreams_memOk) (h5))
  clear_value x7
  exact MemOk.after (MemOk.ofOnly (State.modCages_only (W := [.cages]) rfl) rfl) (h8)

theorem failAdm_memOk {a0 : Nat} {a1 : Nat} {a2 : Nat} {a3 : Nat} {a4 : Machine.State} : MemOk a4 (failAdm a0 a1 a2 a3 a4) := by
  unfold failAdm
  split
  · exact MemOk.ofOnly (endCmd_only (W := [.rings]) rfl) rfl
  · exact MemOk.after (MemOk.ofOnly (endCmd_only (W := [.rings]) rfl) rfl) (releaseAdm_memOk)

theorem failDeficit_memOk {a0 : Nat} {a1 : Deficit} {a2 : Machine.State} : MemOk a2 (failDeficit a0 a1 a2) := by
  unfold failDeficit
  exact failAdm_memOk

theorem planPages_memOk {a0 : Nat} {a1 : Machine.State} : MemOk a1 (planPages a0 a1) := by
  unfold planPages
  split
  · exact MemOk.rfl
  · extract_lets +onlyGivenNames -merge -useContext -underBinder x0
    try clear_value x0
    extract_lets +onlyGivenNames -merge -useContext -underBinder x1
    try clear_value x1
    extract_lets +onlyGivenNames -merge -useContext -underBinder x2
    try clear_value x2
    extract_lets +onlyGivenNames -merge -useContext -underBinder x3
    try clear_value x3
    refine MemOk.ite (fun _ => ?_) (fun _ => ?_)
    · exact failAdm_memOk
    · extract_lets +onlyGivenNames -merge -useContext -underBinder x4
      try clear_value x4
      refine MemOk.ite (fun _ => ?_) (fun _ => ?_)
      · extract_lets +onlyGivenNames -merge -useContext -underBinder x5
        have h6 : MemOk a1 x5 := by
          unfold x5
          exact MemOk.ofOnly (State.modAdm_only (W := [.cages]) rfl) rfl
        clear_value x5
        extract_lets +onlyGivenNames -merge -useContext -underBinder x7
        have h8 : MemOk a1 x7 := by
          unfold x7
          exact MemOk.after (MemOk.ofOnly (State.modCtx_only (W := [.rings]) rfl) rfl) (h6)
        clear_value x7
        split
        · rename_i y10 q11
          have h9 := MemOk.after (s := a1) (MemOpt.ofOnly (makePlan_only (W := [.free, .host, .cages]) rfl) rfl _ q11) (by
            exact h8
            )
          exact h9
        · exact MemOk.after (failDeficit_memOk) (h8)
      · refine MemOk.ite (fun _ => ?_) (fun _ => ?_)
        · extract_lets +onlyGivenNames -merge -useContext -underBinder x12
          have h13 : MemOk a1 x12 := by
            unfold x12
            exact MemOk.ofOnly (State.modAdm_only (W := [.cages]) rfl) rfl
          clear_value x12
          extract_lets +onlyGivenNames -merge -useContext -underBinder x14
          have h15 : MemOk a1 x14 := by
            unfold x14
            exact MemOk.after (MemOk.ofOnly (State.modCtx_only (W := [.rings]) rfl) rfl) (h13)
          clear_value x14
          split
          · rename_i y17 q18
            have h16 := MemOk.after (s := a1) (MemOpt.ofOnly (makeShadowPlan_only (W := [.free, .host, .cages]) rfl) rfl _ q18) (by
              exact h15
              )
            exact h16
          · exact MemOk.after (failDeficit_memOk) (h15)
        · exact failDeficit_memOk

theorem grantAdm_memOk {a0 : Nat} {a1 : Nat} {a2 : List Nat} {a3 : Machine.State} : MemOk a3 (grantAdm a0 a1 a2 a3) := by
  unfold grantAdm
  extract_lets +onlyGivenNames -merge -useContext -underBinder x0
  have h1 : MemOk a3 x0 := by
    unfold x0
    exact MemOk.ofOnly (State.modAdm_only (W := [.cages]) rfl) rfl
  clear_value x0
  extract_lets +onlyGivenNames -merge -useContext -underBinder x2
  have h3 : MemOk a3 x2 := by
    unfold x2
    split
    · exact h1
    · exact MemOk.after (MemOk.ofOnly (State.modGroup_only (W := [.beat]) rfl) rfl) (h1)
  clear_value x2
  extract_lets +onlyGivenNames -merge -useContext -underBinder x4
  have h5 : MemOk a3 x4 := by
    unfold x4
    refine MemOk.after (forEach_memOk (fun _ t6 => ?_)) ?_
    · exact MemOk.ofOnly (State.modClus_only (W := [.beat]) rfl) rfl
    · exact h3
  clear_value x4
  exact MemOk.after (planPages_memOk) (h5)

theorem admitImage_memOk {a0 : Nat} {a1 : Bytes} {a2 : Machine.State} : MemOk a2 (admitImage a0 a1 a2) := by
  unfold admitImage
  extract_lets +onlyGivenNames -merge -useContext -underBinder x0
  try clear_value x0
  extract_lets +onlyGivenNames -merge -useContext -underBinder x1
  try clear_value x1
  split
  · exact MemOk.ofOnly (endCmd_only (W := [.rings]) rfl) rfl
  · refine MemOk.ite (fun _ => ?_) (fun _ => ?_)
    · exact MemOk.ofOnly (endCmd_only (W := [.rings]) rfl) rfl
    · extract_lets +onlyGivenNames -merge -useContext -underBinder x2
      try clear_value x2
      extract_lets +onlyGivenNames -merge -useContext -underBinder x3
      try clear_value x3
      extract_lets +onlyGivenNames -merge -useContext -underBinder x4
      try clear_value x4
      split
      · exact MemOk.ofOnly (endCmd_only (W := [.rings]) rfl) rfl
      · refine MemOk.ite (fun _ => ?_) (fun _ => ?_)
        · exact MemOk.ofOnly (endCmd_only (W := [.rings]) rfl) rfl
        · refine MemOk.ite (fun _ => ?_) (fun _ => ?_)
          · exact MemOk.ofOnly (endCmd_only (W := [.rings]) rfl) rfl
          · extract_lets +onlyGivenNames -merge -useContext -underBinder x5
            try clear_value x5
            extract_lets +onlyGivenNames -merge -useContext -underBinder x6
            try clear_value x6
            extract_lets +onlyGivenNames -merge -useContext -underBinder x7
            have h8 : MemOk a2 x7 := by
              unfold x7
              exact MemOk.ofOnly (State.modCtx_only (W := [.rings]) rfl) rfl
            clear_value x7
            extract_lets +onlyGivenNames -merge -useContext -underBinder x9
            try clear_value x9
            split
            · exact MemOk.after (grantAdm_memOk) (MemOk.after (MemOk.ofOnly (State.modCages_only (W := [.cages]) rfl) rfl) (h8))
            · refine MemOk.ite (fun _ => ?_) (fun _ => ?_)
              · exact MemOk.after (MemOk.ofOnly (State.modCages_only (W := [.cages]) rfl) rfl) (h8)
              · exact MemOk.after (MemOk.ofOnly (endCmd_only (W := [.rings]) rfl) rfl) (h8)

theorem admitRead_memOk {a0 : Nat} {a1 : Machine.State} : MemOk a1 (admitRead a0 a1) := by
  unfold admitRead
  extract_lets +onlyGivenNames -merge -useContext -underBinder x0
  try clear_value x0
  extract_lets +onlyGivenNames -merge -useContext -underBinder x1
  try clear_value x1
  split
  · split
    · exact MemOk.ofOnly (endCmd_only (W := [.rings]) rfl) rfl
    · exact admitImage_memOk

theorem serveQueue_memOk {a0 : Machine.State} : MemOk a0 (serveQueue a0) := by
  unfold serveQueue
  split
  · exact MemOk.rfl
  · refine MemOk.ite (fun _ => ?_) (fun _ => ?_)
    · exact failAdm_memOk
    · split
      · exact grantAdm_memOk
      · exact MemOk.rfl

theorem residencyComplete_memOk {a0 : Nat} {a1 : Machine.State} : MemOk a1 (residencyComplete a0 a1) := by
  unfold residencyComplete
  split
  · exact MemOk.rfl
  · refine MemOk.ite (fun _ => ?_) (fun _ => ?_)
    · exact MemOk.rfl
    · refine MemOk.ite (fun _ => ?_) (fun _ => ?_)
      · exact failAdm_memOk
      · refine MemOk.ite (fun _ => ?_) (fun _ => ?_)
        · exact MemOk.rfl
        · extract_lets +onlyGivenNames -merge -useContext -underBinder x0
          have h1 : MemOk a1 x0 := by
            unfold x0
            refine MemOk.after (forEach_memOk (fun _ t2 => ?_)) ?_
            · exact MemOk.ofOnly (State.modPage_only (W := [.cages]) rfl) rfl
            · exact MemOk.rfl
          clear_value x0
          extract_lets +onlyGivenNames -merge -useContext -underBinder x3
          have h4 : MemOk a1 x3 := by
            unfold x3
            refine MemOk.after (forEach_memOk (fun _ t5 => ?_)) ?_
            · exact MemOk.ofOnly (State.modPage_only (W := [.cages]) rfl) rfl
            · exact h1
          clear_value x3
          extract_lets +onlyGivenNames -merge -useContext -underBinder x6
          have h7 : MemOk a1 x6 := by
            unfold x6
            refine MemOk.foldl (fun t8 _ => ?_) ?_
            · exact MemOk.ofOnly (State.modClus_only (W := [.beat]) rfl) rfl
            · exact h4
          clear_value x6
          extract_lets +onlyGivenNames -merge -useContext -underBinder x9
          have h10 : MemOk a1 x9 := by
            unfold x9
            exact MemOk.after (MemOk.ofOnly (State.modCtx_only (W := [.rings]) rfl) rfl) (h7)
          clear_value x9
          extract_lets +onlyGivenNames -merge -useContext -underBinder x11
          have h12 : MemOk a1 x11 := by
            unfold x11
            exact MemOk.after (MemOk.ofOnly (State.modAdm_only (W := [.cages]) rfl) rfl) (h10)
          clear_value x11
          exact MemOk.after (MemOk.ofOnly (a3Up_only (W := [.adit]) rfl) rfl) (h12)

theorem endProgram_memOk {a0 : Nat} {a1 : Machine.State} : MemOk a1 (endProgram a0 a1) := by
  unfold endProgram
  split
  · exact MemOk.rfl
  · extract_lets +onlyGivenNames -merge -useContext -underBinder x0
    try clear_value x0
    extract_lets +onlyGivenNames -merge -useContext -underBinder x1
    try clear_value x1
    extract_lets +onlyGivenNames -merge -useContext -underBinder x2
    try clear_value x2
    extract_lets +onlyGivenNames -merge -useContext -underBinder x3
    have h4 : MemOk a1 x3 := by
      unfold x3
      exact MemOk.after (MemOk.ofOnly (traceAdd_only (W := [.mgmt]) rfl) rfl) (MemOk.ofOnly (a3Up_only (W := [.adit]) rfl) rfl)
    clear_value x3
    exact MemOk.after (MemOk.ofOnly (endCmd_only (W := [.rings]) rfl) rfl) (MemOk.after (releaseAdm_memOk) (h4))

theorem programDone_memOk {a0 : Nat} {a1 : Machine.State} : MemOk a1 (programDone a0 a1) := by
  unfold programDone
  extract_lets +onlyGivenNames -merge -useContext -underBinder x0
  try clear_value x0
  refine MemOk.ite (fun _ => ?_) (fun _ => ?_)
  · exact endProgram_memOk
  · exact MemOk.rfl

theorem drainDone_memOk {a0 : Nat} {a1 : Machine.State} : MemOk a1 (drainDone a0 a1) := by
  unfold drainDone
  extract_lets +onlyGivenNames -merge -useContext -underBinder x0
  try clear_value x0
  refine MemOk.ite (fun _ => ?_) (fun _ => ?_)
  · exact MemOk.after (endProgram_memOk) (dropStreams_memOk)
  · exact MemOk.rfl

theorem abortAdm_memOk {a0 : Nat} {a1 : Adm} {a2 : Machine.State} : MemVia Prod.fst a2 (abortAdm a0 a1 a2) := by
  unfold abortAdm
  refine MemOk.iteV (fun _ => ?_) (fun _ => ?_)
  · extract_lets +onlyGivenNames -merge -useContext -underBinder x0
    try clear_value x0
    refine MemOk.iteV (fun _ => ?_) (fun _ => ?_)
    · refine MemOk.via1 ?_
      extract_lets +onlyGivenNames -merge -useContext -underBinder x1
      have h2 : MemOk a2 x1 := by
        unfold x1
        exact MemOk.ofOnly (State.modGroup_only (W := [.beat]) rfl) rfl
      clear_value x1
      exact MemOk.after (MemOk.ofOnly (State.modCtx_only (W := [.rings]) rfl) rfl) (h2)
    · refine MemOk.via1 ?_
      exact MemOk.rfl
  · refine MemOk.via1 ?_
    exact MemOk.after (failAdm_memOk) (MemOk.after (MemOk.ofOnly (withdraw_only (W := [.adit]) rfl) rfl) (MemOk.ofOnly (State.modCtx_only (W := [.rings]) rfl) rfl))

theorem abortAll_memOk {a0 : Nat} {a1 : List Adm} {a2 : Machine.State} : MemVia Prod.fst a2 (abortAll a0 a1 a2) := by
  induction a1 generalizing a0 a2 with
  | nil =>
    unfold abortAll
    refine MemOk.via1 ?_
    exact MemOk.rfl
  | cons hd tl ih =>
    unfold abortAll
    split
    · rename_i y1 y2 q3
      have h0 := MemOk.ofEq (p := Prod.fst) (abortAdm_memOk) q3 (s := a2) (by
        exact MemOk.rfl
        )
      split
      · rename_i y5 y6 q7
        have h4 := MemOk.ofEq (p := Prod.fst) (by apply ih) q7 (s := a2) (by
          exact h0
          )
        refine MemOk.via1 ?_
        exact h4

theorem bodyAbort_memOk {a0 : Nat} {a1 : Machine.State} : MemOk a1 (bodyAbort a0 a1) := by
  unfold bodyAbort
  extract_lets +onlyGivenNames -merge -useContext -underBinder x0
  try clear_value x0
  extract_lets +onlyGivenNames -merge -useContext -underBinder x1
  try clear_value x1
  extract_lets +onlyGivenNames -merge -useContext -underBinder x2
  try clear_value x2
  extract_lets +onlyGivenNames -merge -useContext -underBinder x3
  try clear_value x3
  split
  · rename_i y5 y6 q7
    have h4 := MemOk.ofEq (p := Prod.fst) (abortAll_memOk) q7 (s := a1) (by
      exact MemOk.rfl
      )
    exact MemOk.after (MemOk.ofOnly (endOk_only (W := [.rings]) rfl) rfl) (h4)

theorem dropAdm_memOk {a0 : Adm} {a1 : Machine.State} : MemOk a1 (dropAdm a0 a1) := by
  unfold dropAdm
  refine MemOk.ite (fun _ => ?_) (fun _ => ?_)
  · extract_lets +onlyGivenNames -merge -useContext -underBinder x0
    try clear_value x0
    extract_lets +onlyGivenNames -merge -useContext -underBinder x1
    have h2 : MemOk a1 x1 := by
      unfold x1
      exact MemOk.after (MemOk.ofOnly (traceAdd_only (W := [.mgmt]) rfl) rfl) (MemOk.after (MemOk.ofOnly (traceAdd_only (W := [.mgmt]) rfl) rfl) (MemOk.ofOnly (a3Up_only (W := [.adit]) rfl) rfl))
    clear_value x1
    exact MemOk.after (releaseAdm_memOk) (h2)
  · exact MemOk.after (releaseAdm_memOk) (MemOk.ofOnly (withdraw_only (W := [.adit]) rfl) rfl)

theorem failPlan_memOk {a0 : Plan} {a1 : Machine.State} : MemOk a1 (failPlan a0 a1) := by
  unfold failPlan
  extract_lets +onlyGivenNames -merge -useContext -underBinder x0
  try clear_value x0
  extract_lets +onlyGivenNames -merge -useContext -underBinder x1
  try clear_value x1
  split
  · exact failAdm_memOk
  · extract_lets +onlyGivenNames -merge -useContext -underBinder x2
    have h3 : MemOk a1 x2 := by
      unfold x2
      exact MemOk.ofOnly (cancelPlans_only (W := [.cages]) rfl) rfl
    clear_value x2
    refine MemOk.ite (fun _ => ?_) (fun _ => ?_)
    · refine MemOk.after (MemOk.ofOnly (endCmd_only (W := [.rings]) rfl) rfl) ?_
      · refine MemOk.after (forEach_memOk (fun _ t4 => ?_)) ?_
        · exact MemOk.ofOnly (unmapPage_only (W := [.cages]) rfl) rfl
        · exact h3
    · exact MemOk.after (MemOk.ofOnly (endCmd_only (W := [.rings]) rfl) rfl) (h3)

theorem mendPlan_memOk {a0 : Nat} {a1 : Machine.State} : MemOk a1 (mendPlan a0 a1) := by
  unfold mendPlan
  split
  · exact MemOk.rfl
  · extract_lets +onlyGivenNames -merge -useContext -underBinder x0
    try clear_value x0
    refine MemOk.ite (fun _ => ?_) (fun _ => ?_)
    · exact MemOk.rfl
    · split
      · rename_i y2 y3 q4
        have h1 := MemOk.ofEq (p := Prod.snd) (MemOk.ofOnly (handOut_only (W := [.free, .cages]) rfl) rfl) q4 (s := a1) (by
          exact MemOk.rfl
          )
        extract_lets +onlyGivenNames -merge -useContext -underBinder x5
        have h6 : MemOk a1 x5 := by
          unfold x5
          exact MemOk.after (MemOk.ofOnly (modPlan_only (W := [.cages]) rfl) rfl) (h1)
        clear_value x5
        refine MemOk.ite (fun _ => ?_) (fun _ => ?_)
        · exact MemOk.after (MemOk.ofOnly (dropPlans_only (W := [.cages]) rfl) rfl) (h6)
        · split
          · rename_i y8 q9
            have h7 := MemOk.after (s := a1) (MemOpt.ofOnly (planVictims_only (W := [.free, .cages]) rfl) rfl _ q9) (by
              exact h6
              )
            exact MemOk.after (MemOk.ofOnly (kickMoves_only (W := [.host, .cages]) rfl) rfl) (h7)
          · exact MemOk.after (failPlan_memOk) (h6)

theorem evictFault_memOk {a0 : Nat} {a1 : Nat} {a2 : Nat} {a3 : Machine.State} : MemOk a3 (evictFault a0 a1 a2 a3) := by
  unfold evictFault
  split
  · exact MemOk.rfl
  · extract_lets +onlyGivenNames -merge -useContext -underBinder x0
    try clear_value x0
    extract_lets +onlyGivenNames -merge -useContext -underBinder x1
    try clear_value x1
    extract_lets +onlyGivenNames -merge -useContext -underBinder x2
    have h3 : MemOk a3 x2 := by
      unfold x2
      exact MemOk.ofOnly (dropMove_only (W := [.cages]) rfl) rfl
    clear_value x2
    extract_lets +onlyGivenNames -merge -useContext -underBinder x4
    have h5 : MemOk a3 x4 := by
      unfold x4
      refine MemOk.ite (fun _ => ?_) (fun _ => ?_)
      · exact MemOk.after (MemOk.ofOnly (State.modPage_only (W := [.cages]) rfl) rfl) (h3)
      · exact MemOk.after (MemOk.ofOnly (State.modPage_only (W := [.cages]) rfl) rfl) (MemOk.after (MemOk.ofOnly (State.setFrame_only (W := [.cages]) rfl) rfl) (h3))
    clear_value x4
    extract_lets +onlyGivenNames -merge -useContext -underBinder x6
    have h7 : MemOk a3 x6 := by
      unfold x6
      exact MemOk.after (MemOk.ofOnly (State.modCage_only (W := [.cages]) rfl) rfl) (h5)
    clear_value x6
    extract_lets +onlyGivenNames -merge -useContext -underBinder x8
    have h9 : MemOk a3 x8 := by
      unfold x8
      exact MemOk.after (MemOk.ofOnly (reportCtl_only (W := [.host, .rings]) rfl) rfl) (h7)
    clear_value x8
    extract_lets +onlyGivenNames -merge -useContext -underBinder x10
    have h11 : MemOk a3 x10 := by
      unfold x10
      split
      · exact h9
      · split
        · refine MemOk.ite (fun _ => ?_) (fun _ => ?_)
          · exact MemOk.after (failPlan_memOk) (h9)
          · exact h9
        · exact h9
    clear_value x10
    exact MemOk.after (MemOk.ofOnly (kickMoves_only (W := [.host, .cages]) rfl) rfl) (MemOk.after (mendPlan_memOk) (h11))

theorem restoreFailed_memOk {a0 : Nat} {a1 : Nat} {a2 : Nat} {a3 : Machine.State} : MemOk a3 (restoreFailed a0 a1 a2 a3) := by
  unfold restoreFailed
  extract_lets +onlyGivenNames -merge -useContext -underBinder x0
  have h1 : MemOk a3 x0 := by
    unfold x0
    exact restoreFail_memOk
  clear_value x0
  extract_lets +onlyGivenNames -merge -useContext -underBinder x2
  try clear_value x2
  refine MemOk.after (forEach_memOk (fun _ t3 => ?_)) ?_
  · exact MemOk.after (failAdm_memOk) (MemOk.ofOnly (cancelPlans_only (W := [.cages]) rfl) rfl)
  · exact h1

theorem startMoving_memOk {a0 : Nat} {a1 : Machine.State} : MemOk a1 (startMoving a0 a1) := by
  unfold startMoving
  extract_lets +onlyGivenNames -merge -useContext -underBinder x0
  try clear_value x0
  extract_lets +onlyGivenNames -merge -useContext -underBinder x1
  have h2 : MemOk a1 x1 := by
    unfold x1
    exact MemOk.after (MemOk.ofOnly (touchPages_only (W := [.cages]) rfl) rfl) (MemOk.ofOnly (State.modCtx_only (W := [.rings]) rfl) rfl)
  clear_value x1
  split
  · exact MemOk.after (MemOk.ofOnly (h2dNext_only (W := [.host, .rings]) rfl) rfl) (h2)
  · exact MemOk.after (MemOk.ofOnly (d2hRun_only (W := [.host, .rings]) rfl) rfl) (h2)
  · exact MemOk.after (d2dRun_memOk) (h2)
  · exact MemOk.after (fillRun_memOk) (h2)
  · exact MemOk.after (admitRead_memOk) (h2)
  · exact MemOk.after (MemOk.ofOnly (endOk_only (W := [.rings]) rfl) rfl) (h2)

theorem advance_memOk {a0 : Nat} {a1 : Machine.State} : MemOk a1 (advance a0 a1) := by
  unfold advance
  extract_lets +onlyGivenNames -merge -useContext -underBinder x0
  try clear_value x0
  refine MemOk.ite (fun _ => ?_) (fun _ => ?_)
  · exact MemOk.rfl
  · extract_lets +onlyGivenNames -merge -useContext -underBinder x1
    have h2 : MemOk a1 x1 := by
      unfold x1
      refine MemOk.ite (fun _ => ?_) (fun _ => ?_)
      · exact MemOk.rfl
      · exact MemOk.ofOnly (prepare_only (W := [.free, .host, .rings, .cages]) rfl) rfl
    clear_value x1
    extract_lets +onlyGivenNames -merge -useContext -underBinder x3
    try clear_value x3
    refine MemOk.ite (fun _ => ?_) (fun _ => ?_)
    · exact MemOk.after (startMoving_memOk) (h2)
    · exact h2

theorem progress_memOk {a0 : Machine.State} : MemOk a0 (progress a0) := by
  unfold progress
  refine MemOk.after (MemOk.ofOnly (spillLate_only (W := [.free, .host, .cages]) rfl) rfl) ?_
  · refine MemOk.after (forEach_memOk (fun _ t0 => ?_)) ?_
    · exact advance_memOk
    · exact MemOk.rfl

theorem popDoorbell_memOk {a0 : Nat} {a1 : DblKind → Machine.State → Machine.State} {a2 : Machine.State} (g0 : ∀ v0 v1, MemOk v1 (a1 v0 v1)) : MemOk a2 (popDoorbell a0 a1 a2) := by
  unfold popDoorbell
  split
  · exact MemOk.rfl
  · extract_lets +onlyGivenNames -merge -useContext -underBinder x0
    have h1 : MemOk a2 x0 := by
      unfold x0
      exact MemOk.ofOnly (State.modFn_only (W := [.host]) rfl) rfl
    clear_value x0
    refine MemOk.ite (fun _ => ?_) (fun _ => ?_)
    · exact h1
    · exact MemOk.after (g0 _ _) (h1)

theorem restoreData_memOk {a0 : Nat} {a1 : Nat} {a2 : Bytes} {a3 : Machine.State} : MemOk a3 (restoreData a0 a1 a2 a3) := by
  unfold restoreData
  split
  · exact MemOk.rfl
  · extract_lets +onlyGivenNames -merge -useContext -underBinder x0
    try clear_value x0
    extract_lets +onlyGivenNames -merge -useContext -underBinder x1
    have h2 : MemOk a3 x1 := by
      unfold x1
      exact State.modMem_memOk (by intro m h; first | exact h | exact mwrN_wf h | exact mwr_wf h | exact mclear_wf h | rfl)
    clear_value x1
    exact MemOk.after (MemOk.ofOnly (restoreStep_only (W := [.host]) rfl) rfl) (MemOk.after (MemOk.ofOnly (modMove_only (W := [.cages]) rfl) rfl) (h2))

theorem readDone_memOk {a0 : HReq} {a1 : Bytes} {a2 : Machine.State} : MemOk a2 (readDone a0 a1 a2) := by
  unfold readDone
  split
  · exact h2dData_memOk
  · exact restoreData_memOk
  · split
    · exact landPiece_memOk
    · exact MemOk.rfl
  · exact MemOk.rfl

theorem readFailed_memOk {a0 : HReq} {a1 : Nat} {a2 : Machine.State} : MemOk a2 (readFailed a0 a1 a2) := by
  unfold readFailed
  split
  · exact copyFail_memOk
  · exact copyFail_memOk
  · exact restoreFailed_memOk
  · exact MemOk.ofOnly (shadowFailed_only (W := [.beat]) rfl) rfl
  · exact MemOk.ofOnly (shadowFailed_only (W := [.beat]) rfl) rfl
  · exact MemOk.rfl

theorem xlRefused_memOk {a0 : HReq} {a1 : Machine.State} : MemOk a1 (xlRefused a0 a1) := by
  unfold xlRefused
  split
  · refine MemOk.after (endingOr_memOk (fun t0 => ?_)) ?_
    · exact MemOk.ofOnly (endCmd_only (W := [.rings]) rfl) rfl
    · exact MemOk.rfl
  · exact MemOk.ofOnly (cplRefused_only (W := [.host, .rings]) rfl) rfl
  · exact MemOk.ofOnly (rptRefused_only (W := [.host, .rings]) rfl) rfl
  · exact MemOk.ofOnly (dblFailed_only (W := [.host, .rings]) rfl) rfl
  · exact MemOk.after (MemOk.ofOnly (descrArrive_only (W := [.host, .rings]) rfl) rfl) (MemOk.ofOnly (State.modSlot_only (W := [.rings]) rfl) rfl)
  · exact evictFault_memOk
  · exact readFailed_memOk

theorem xlComplete_memOk {a0 : Nat} {a1 : XlResult} {a2 : Machine.State} : MemOk a2 (xlComplete a0 a1 a2) := by
  unfold xlComplete
  split
  · exact MemOk.rfl
  · extract_lets +onlyGivenNames -merge -useContext -underBinder x0
    have h1 : MemOk a2 x0 := by
      unfold x0
      exact MemOk.ofOnly (dropReq_only (W := [.host]) rfl) rfl
    clear_value x0
    split
    · exact MemOk.after (xlRefused_memOk) (h1)
    · refine MemOk.ite (fun _ => ?_) (fun _ => ?_)
      · exact MemOk.after (MemOk.ofOnly (translated_only (W := [.free, .host, .rings, .cages, .beat]) rfl) rfl) (MemOk.after (MemOk.ofOnly (atcInsert_only (W := [.host]) rfl) rfl) (h1))
      · exact MemOk.after (xlRefused_memOk) (h1)

theorem readComplete_memOk {a0 : Nat} {a1 : ReadResult} {a2 : Machine.State} : MemOk a2 (readComplete a0 a1 a2) := by
  unfold readComplete
  split
  · exact MemOk.ofOnly (aerUncorrectable_only (W := [.host]) rfl) rfl
  · split
    · refine MemOk.ite (fun _ => ?_) (fun _ => ?_)
      · exact MemOk.after (readDone_memOk) (MemOk.ofOnly (dropReq_only (W := [.host]) rfl) rfl)
      · exact MemOk.rfl
    · exact MemOk.after (readFailed_memOk) (MemOk.ofOnly (dropReq_only (W := [.host]) rfl) rfl)
    · exact MemOk.after (readFailed_memOk) (MemOk.ofOnly (dropReq_only (W := [.host]) rfl) rfl)
    · exact MemOk.after (readFailed_memOk) (MemOk.after (MemOk.ofOnly (aerUncorrectable_only (W := [.host]) rfl) rfl) (MemOk.ofOnly (dropReq_only (W := [.host]) rfl) rfl))

theorem readLost_memOk {a0 : AerErr} {a1 : ReadRef} {a2 : Machine.State} : MemOk a2 (readLost a0 a1 a2) := by
  unfold readLost
  split
  · split
    · exact MemOk.rfl
    · exact MemOk.after (readFailed_memOk) (MemOk.after (MemOk.ofOnly (aerUncorrectable_only (W := [.host]) rfl) rfl) (MemOk.ofOnly (dropReq_only (W := [.host]) rfl) rfl))
  · refine MemOk.ite (fun _ => ?_) (fun _ => ?_)
    · exact MemOk.rfl
    · refine MemOk.after (popDoorbell_memOk (fun _ t0 => ?_)) ?_
      · exact MemOk.ofOnly (dblFailed_only (W := [.host, .rings]) rfl) rfl
      · exact MemOk.ofOnly (aerUncorrectable_only (W := [.host]) rfl) rfl
  · split
    · exact MemOk.rfl
    · exact MemOk.after (MemOk.ofOnly (descrArrive_only (W := [.host, .rings]) rfl) rfl) (MemOk.ofOnly (aerUncorrectable_only (W := [.host]) rfl) rfl)

theorem readTimeout_memOk {a0 : ReadRef} {a1 : Machine.State} : MemOk a1 (readTimeout a0 a1) := by
  unfold readTimeout
  exact readLost_memOk

theorem State.modStack_memOk {a0 : Machine.State} {a1 : Nat} {a2 : Stack → Stack} : MemOk a0 (State.modStack a0 a1 a2) := by
  unfold State.modStack
  exact State.modMem_memOk (by intro m h; first | exact h | exact mwrN_wf h | exact mwr_wf h | exact mclear_wf h | rfl)

theorem markLine_memOk {a0 : Nat} {a1 : Bool} {a2 : Machine.State} : MemOk a2 (markLine a0 a1 a2) := by
  unfold markLine
  refine MemOk.ite (fun _ => ?_) (fun _ => ?_)
  · exact MemOk.rfl
  · extract_lets +onlyGivenNames -merge -useContext -underBinder x0
    try clear_value x0
    extract_lets +onlyGivenNames -merge -useContext -underBinder x1
    have h2 : MemOk a2 x1 := by
      unfold x1
      exact MemOk.after (setLinePoison_memOk) (State.modStack_memOk)
    clear_value x1
    exact MemOk.after (MemOk.ofOnly (report_only (W := [.host, .rings]) rfl) rfl) (h2)

theorem countErr_memOk {a0 : Nat} {a1 : LineErr} {a2 : Machine.State} : MemOk a2 (countErr a0 a1 a2) := by
  unfold countErr
  extract_lets +onlyGivenNames -merge -useContext -underBinder x0
  try clear_value x0
  split
  · exact State.modStack_memOk
  · exact State.modStack_memOk
  · exact MemOk.rfl

theorem countAccess_memOk {a0 : Nat} {a1 : Machine.State} : MemOk a1 (countAccess a0 a1) := by
  unfold countAccess
  exact State.modStack_memOk

theorem lineAccess_memOk {a0 : Nat} {a1 : LineOp} {a2 : LineErr} {a3 : Machine.State} : MemOk a3 (lineAccess a0 a1 a2 a3) := by
  unfold lineAccess
  extract_lets +onlyGivenNames -merge -useContext -underBinder x0
  try clear_value x0
  extract_lets +onlyGivenNames -merge -useContext -underBinder x1
  have h2 : MemOk a3 x1 := by
    unfold x1
    exact countAccess_memOk
  clear_value x1
  split
  · exact MemOk.after (setLinePoison_memOk) (MemOk.after (State.modMem_memOk (by intro m h; first | exact h | exact mwrN_wf h | exact mwr_wf h | exact mclear_wf h | rfl)) (h2))
  · refine MemOk.ite (fun _ => ?_) (fun _ => ?_)
    · exact MemOk.after (markLine_memOk) (h2)
    · exact MemOk.after (countErr_memOk) (h2)
  · refine MemOk.ite (fun _ => ?_) (fun _ => ?_)
    · exact MemOk.after (markLine_memOk) (h2)
    · extract_lets +onlyGivenNames -merge -useContext -underBinder x3
      have h4 : MemOk a3 x3 := by
        unfold x3
        exact MemOk.after (countErr_memOk) (h2)
      clear_value x3
      refine MemOk.ite (fun _ => ?_) (fun _ => ?_)
      · exact h4
      · exact MemOk.after (State.modMem_memOk (by intro m h; first | exact h | exact mwrN_wf h | exact mwr_wf h | exact mclear_wf h | rfl)) (h4)

theorem patrolRead_memOk {a0 : Nat} {a1 : LineErr} {a2 : Machine.State} : MemOk a2 (patrolRead a0 a1 a2) := by
  unfold patrolRead
  extract_lets +onlyGivenNames -merge -useContext -underBinder x0
  try clear_value x0
  extract_lets +onlyGivenNames -merge -useContext -underBinder x1
  have h2 : MemOk a2 x1 := by
    unfold x1
    exact State.modStack_memOk
  clear_value x1
  refine MemOk.ite (fun _ => ?_) (fun _ => ?_)
  · refine MemOk.ite (fun _ => ?_) (fun _ => ?_)
    · exact MemOk.after (markLine_memOk) (h2)
    · exact MemOk.after (setLinePoison_memOk) (MemOk.after (State.modMem_memOk (by intro m h; first | exact h | exact mwrN_wf h | exact mwr_wf h | exact mclear_wf h | rfl)) (h2))
  · exact MemOk.after (countErr_memOk) (h2)

theorem setRefresh_memOk {a0 : Nat} {a1 : Bool} {a2 : Nat} {a3 : Machine.State} : MemOk a3 (setRefresh a0 a1 a2 a3) := by
  unfold setRefresh
  refine MemOk.ite (fun _ => ?_) (fun _ => ?_)
  · exact MemOk.rfl
  · extract_lets +onlyGivenNames -merge -useContext -underBinder x0
    have h1 : MemOk a3 x0 := by
      unfold x0
      exact State.modStack_memOk
    clear_value x0
    exact MemOk.after (MemOk.ofOnly (reportCtl_only (W := [.host, .rings]) rfl) rfl) (h1)

theorem stackReadout_memOk {a0 : Nat} {a1 : Option Int} {a2 : Machine.State} : MemOk a2 (stackReadout a0 a1 a2) := by
  unfold stackReadout
  split
  · extract_lets +onlyGivenNames -merge -useContext -underBinder x0
    have h1 : MemOk a2 x0 := by
      unfold x0
      exact State.modStack_memOk
    clear_value x0
    exact MemOk.after (setRefresh_memOk) (MemOk.after (MemOk.ofOnly (reportCtl_only (W := [.host, .rings]) rfl) rfl) (h1))
  · extract_lets +onlyGivenNames -merge -useContext -underBinder x2
    have h3 : MemOk a2 x2 := by
      unfold x2
      exact State.modStack_memOk
    clear_value x2
    refine MemOk.ite (fun _ => ?_) (fun _ => ?_)
    · exact MemOk.after (setRefresh_memOk) (h3)
    · refine MemOk.ite (fun _ => ?_) (fun _ => ?_)
      · exact MemOk.after (setRefresh_memOk) (h3)
      · exact h3

theorem ceRate_memOk {a0 : Nat} {a1 : Machine.State} : MemOk a1 (ceRate a0 a1) := by
  unfold ceRate
  extract_lets +onlyGivenNames -merge -useContext -underBinder x0
  try clear_value x0
  extract_lets +onlyGivenNames -merge -useContext -underBinder x1
  try clear_value x1
  extract_lets +onlyGivenNames -merge -useContext -underBinder x2
  have h3 : MemOk a1 x2 := by
    unfold x2
    refine MemOk.ite (fun _ => ?_) (fun _ => ?_)
    · exact MemOk.ofOnly (reportCtl_only (W := [.host, .rings]) rfl) rfl
    · exact MemOk.rfl
  clear_value x2
  exact MemOk.after (State.modStack_memOk) (h3)

theorem trainingEnd_memOk {a0 : Nat} {a1 : Machine.State} : MemOk a1 (trainingEnd a0 a1) := by
  unfold trainingEnd
  extract_lets +onlyGivenNames -merge -useContext -underBinder x0
  have h1 : MemOk a1 x0 := by
    unfold x0
    refine MemOk.after (forEach_memOk (fun _ t2 => ?_)) ?_
    · exact State.modStack_memOk
    · exact MemOk.rfl
  clear_value x0
  extract_lets +onlyGivenNames -merge -useContext -underBinder x3
  try clear_value x3
  extract_lets +onlyGivenNames -merge -useContext -underBinder x4
  have h5 : MemOk a1 x4 := by
    unfold x4
    exact MemOk.after (State.modMem_memOk (by intro m h; first | exact h | exact mwrN_wf h | exact mwr_wf h | exact mclear_wf h | rfl)) (h1)
  clear_value x4
  refine MemOk.ite (fun _ => ?_) (fun _ => ?_)
  · exact MemOk.after (MemOk.ofOnly (reportCtl_only (W := [.host, .rings]) rfl) rfl) (h5)
  · exact h5

theorem scrubWrite_memOk {a0 : Nat} {a1 : Machine.State} : MemOk a1 (scrubWrite a0 a1) := by
  unfold scrubWrite
  refine MemOk.ite (fun _ => ?_) (fun _ => ?_)
  · exact MemOk.rfl
  · exact State.modMem_memOk (by intro m h; first | exact h | exact mwrN_wf h | exact mwr_wf h | exact mclear_wf h | rfl)

theorem withMsg_memOk {a0 : Nat} {a1 : Nat} {a2 : Nat} {a3 : Bytes → Machine.State → Machine.State} {a4 : Machine.State} (g0 : ∀ v0 v1, MemOk v1 (a3 v0 v1)) : MemOk a4 (withMsg a0 a1 a2 a3 a4) := by
  unfold withMsg
  split
  · exact MemOk.rfl
  · refine MemOk.ite (fun _ => ?_) (fun _ => ?_)
    · exact MemOk.after (g0 _ _) (MemOk.ofOnly (popInbox_only (W := [.links]) rfl) rfl)
    · exact MemOk.rfl

theorem mwriteIn_memOk {a0 : Nat} {a1 : Bytes} {a2 : Machine.State} : MemOk a2 (mwriteIn a0 a1 a2) := by
  unfold mwriteIn
  extract_lets +onlyGivenNames -merge -useContext -underBinder x0
  have h1 : MemOk a2 x0 := by
    unfold x0
    exact MemOk.ofOnly (State.modLink_only (W := [.links]) rfl) rfl
  clear_value x0
  refine MemOk.ite (fun _ => ?_) (fun _ => ?_)
  · exact h1
  · extract_lets +onlyGivenNames -merge -useContext -underBinder x2
    try clear_value x2
    refine MemOk.ite (fun _ => ?_) (fun _ => ?_)
    · refine MemOk.ite (fun _ => ?_) (fun _ => ?_)
      · exact MemOk.ofOnly (sendOn_only (W := [.links]) rfl) rfl
      · exact h1
    · split
      · exact MemOk.rfl
      · extract_lets +onlyGivenNames -merge -useContext -underBinder x3
        try clear_value x3
        extract_lets +onlyGivenNames -merge -useContext -underBinder x4
        try clear_value x4
        split
        · rename_i y6 y7 q8
          have h5 := MemOk.ofEq (p := Prod.fst) (devWrite_memOk) q8 (s := a2) (by
            exact MemOk.rfl
            )
          refine MemOk.ite (fun _ => ?_) (fun _ => ?_)
          · exact MemOk.after (MemOk.ofOnly (State.modLink_only (W := [.links]) rfl) rfl) (h5)
          · exact h5

theorem writeLines_memOk {a0 : Nat} {a1 : Nat} {a2 : List CLine} {a3 : Machine.State} : MemOk a3 (writeLines a0 a1 a2 a3) := by
  induction a2 generalizing a1 a3 with
  | nil => exact MemOk.rfl
  | cons hd tl ih =>
    unfold writeLines
    extract_lets x
    have h : MemOk a3 x := by
      unfold x
      split
      · exact MemOk.after setLinePoison_memOk (State.modMem_memOk fun m h => mwrN_wf h)
      · exact MemOk.rfl
    exact MemOk.after ih h

theorem flushFinals_memOk {a0 : Nat} {a1 : Machine.State} : MemOk a1 (flushFinals a0 a1) := by
  unfold flushFinals
  split
  · exact MemOk.rfl
  · split
    · exact MemOk.rfl
    · refine MemOk.ite (fun _ => ?_) (fun _ => ?_)
      · exact MemOk.rfl
      · extract_lets +onlyGivenNames -merge -useContext -underBinder x0
        have h1 : MemOk a1 x0 := by
          unfold x0
          refine MemOk.after (forEach_memOk (fun _ t2 => ?_)) ?_
          · extract_lets +onlyGivenNames -merge -useContext -underBinder x3
            try clear_value x3
            refine MemOk.foldl (fun t4 _ => ?_) ?_
            · extract_lets +onlyGivenNames -merge -useContext -underBinder x5
              try clear_value x5
              split
              · rename_i y7 y8 q9
                have h6 := MemOk.ofEq (p := Prod.snd) (MemOk.ofOnly (readChunk_only (W := [.free]) rfl) rfl) q9 (s := t4) (by
                  exact MemOk.rfl
                  )
                extract_lets +onlyGivenNames -merge -useContext -underBinder x10
                try clear_value x10
                extract_lets +onlyGivenNames -merge -useContext -underBinder x11
                have h12 : MemOk t4 x11 := by
                  unfold x11
                  exact MemOk.after (writeLines_memOk) (h6)
                clear_value x11
                extract_lets +onlyGivenNames -merge -useContext -underBinder x13
                have h14 : MemOk t4 x13 := by
                  unfold x13
                  exact MemOk.after (MemOk.ofOnly (notePoison_only (W := [.coll]) rfl) rfl) (h12)
                clear_value x13
                exact MemOk.after (MemOk.ofOnly (modOp_only (W := [.coll]) rfl) rfl) (MemOk.after (MemOk.ofOnly (modStrand_only (W := [.coll]) rfl) rfl) (h14))
            · exact MemOk.rfl
          · exact MemOk.rfl
        clear_value x0
        exact MemOk.after (MemOk.ofOnly (checkDone_only (W := [.rings, .links, .coll]) rfl) rfl) (MemOk.after (MemOk.ofOnly (countLanded_only (W := [.beat, .coll]) rfl) rfl) (h1))

theorem chunkPassed_memOk {a0 : Nat} {a1 : Nat} {a2 : Machine.State} : MemOk a2 (chunkPassed a0 a1 a2) := by
  unfold chunkPassed
  split
  · exact MemOk.rfl
  · split
    · exact MemOk.rfl
    · extract_lets +onlyGivenNames -merge -useContext -underBinder x0
      try clear_value x0
      extract_lets +onlyGivenNames -merge -useContext -underBinder x1
      try clear_value x1
      extract_lets +onlyGivenNames -merge -useContext -underBinder x2
      try clear_value x2
      extract_lets +onlyGivenNames -merge -useContext -underBinder x3
      try clear_value x3
      extract_lets +onlyGivenNames -merge -useContext -underBinder x4
      have h5 : MemOk a2 x4 := by
        unfold x4
        exact MemOk.after (MemOk.ofOnly (sendChunkAck_only (W := [.links]) rfl) rfl) (MemOk.ofOnly (modStrand_only (W := [.coll]) rfl) rfl)
      clear_value x4
      refine MemOk.ite (fun _ => ?_) (fun _ => ?_)
      · exact MemOk.after (flushFinals_memOk) (h5)
      · exact MemOk.after (MemOk.ofOnly (checkDone_only (W := [.rings, .links, .coll]) rfl) rfl) (MemOk.after (MemOk.ofOnly (countLanded_only (W := [.beat, .coll]) rfl) rfl) (MemOk.after (MemOk.ofOnly (modOp_only (W := [.coll]) rfl) rfl) (h5)))

theorem chunkCheck_memOk {a0 : Nat} {a1 : Nat} {a2 : Nat} {a3 : Machine.State} : MemOk a3 (chunkCheck a0 a1 a2 a3) := by
  unfold chunkCheck
  split
  · exact MemOk.rfl
  · split
    · exact MemOk.rfl
    · extract_lets +onlyGivenNames -merge -useContext -underBinder x0
      try clear_value x0
      refine MemOk.ite (fun _ => ?_) (fun _ => ?_)
      · exact MemOk.rfl
      · refine MemOk.ite (fun _ => ?_) (fun _ => ?_)
        · exact MemOk.ofOnly (chunkFailed_only (W := [.links, .coll]) rfl) rfl
        · extract_lets +onlyGivenNames -merge -useContext -underBinder x1
          have h2 : MemOk a3 x1 := by
            unfold x1
            refine MemOk.ite (fun _ => ?_) (fun _ => ?_)
            · exact MemOk.ofOnly (State.modColl_only (W := [.coll]) rfl) rfl
            · exact MemOk.rfl
          clear_value x1
          refine MemOk.ite (fun _ => ?_) (fun _ => ?_)
          · exact MemOk.after (MemOk.ofOnly (collEnd_only (W := [.links, .coll]) rfl) rfl) (h2)
          · exact MemOk.after (chunkPassed_memOk) (h2)

theorem dataMsg_memOk {a0 : Nat} {a1 : Bytes} {a2 : Machine.State} : MemOk a2 (dataMsg a0 a1 a2) := by
  unfold dataMsg
  split
  · exact MemOk.ofOnly (collDiscard_only (W := [.coll]) rfl) rfl
  · split
    · exact MemOk.ofOnly (collDiscard_only (W := [.coll]) rfl) rfl
    · split
      · exact MemOk.ofOnly (collDiscard_only (W := [.coll]) rfl) rfl
      · extract_lets +onlyGivenNames -merge -useContext -underBinder x0
        try clear_value x0
        extract_lets +onlyGivenNames -merge -useContext -underBinder x1
        try clear_value x1
        extract_lets +onlyGivenNames -merge -useContext -underBinder x2
        try clear_value x2
        refine MemOk.ite (fun _ => ?_) (fun _ => ?_)
        · exact MemOk.ofOnly (collDiscard_only (W := [.coll]) rfl) rfl
        · extract_lets +onlyGivenNames -merge -useContext -underBinder x3
          try clear_value x3
          extract_lets +onlyGivenNames -merge -useContext -underBinder x4
          have h5 : MemOk a2 x4 := by
            unfold x4
            exact MemOk.ofOnly (modStrand_only (W := [.coll]) rfl) rfl
          clear_value x4
          refine MemOk.ite (fun _ => ?_) (fun _ => ?_)
          · exact h5
          · exact MemOk.after (MemOk.ofOnly (notePoison_only (W := [.coll]) rfl) rfl) (MemOk.after (writeLines_memOk) (h5))

theorem collDataIn_memOk {a0 : Nat} {a1 : Nat} {a2 : Machine.State} : MemOk a2 (collDataIn a0 a1 a2) := by
  unfold collDataIn
  split
  · exact MemOk.rfl
  · refine MemOk.ite (fun _ => ?_) (fun _ => ?_)
    · exact MemOk.after (dataMsg_memOk) (MemOk.ofOnly (popInbox_only (W := [.links]) rfl) rfl)
    · exact MemOk.rfl

theorem mdataIn_memOk {a0 : Nat} {a1 : Bytes} {a2 : Machine.State} : MemOk a2 (mdataIn a0 a1 a2) := by
  unfold mdataIn
  split
  · exact MemOk.rfl
  · extract_lets +onlyGivenNames -merge -useContext -underBinder x0
    have h1 : MemOk a2 x0 := by
      unfold x0
      exact MemOk.ofOnly (dropMemReq_only (W := [.links]) rfl) rfl
    clear_value x0
    refine MemOk.ite (fun _ => ?_) (fun _ => ?_)
    · exact MemOk.after (MemOk.ofOnly (collEnd_only (W := [.links, .coll]) rfl) rfl) (h1)
    · split
      · exact h1
      · split
        · exact h1
        · extract_lets +onlyGivenNames -merge -useContext -underBinder x2
          try clear_value x2
          extract_lets +onlyGivenNames -merge -useContext -underBinder x3
          try clear_value x3
          extract_lets +onlyGivenNames -merge -useContext -underBinder x4
          have h5 : MemOk a2 x4 := by
            unfold x4
            exact MemOk.after (MemOk.ofOnly (notePoison_only (W := [.coll]) rfl) rfl) (MemOk.after (writeLines_memOk) (h1))
          clear_value x4
          exact MemOk.after (MemOk.ofOnly (askLines_only (W := [.links, .coll]) rfl) rfl) (MemOk.after (MemOk.ofOnly (modStrand_only (W := [.coll]) rfl) rfl) (h5))

theorem sourceGate_memOk {a0 : Nat} {a1 : Machine.State} : MemOk a1 (sourceGate a0 a1) := by
  unfold sourceGate
  split
  · exact MemOk.rfl
  · split
    · exact MemOk.rfl
    · refine MemOk.ite (fun _ => ?_) (fun _ => ?_)
      · exact MemOk.after (flushFinals_memOk) (MemOk.ofOnly (modOp_only (W := [.coll]) rfl) rfl)
      · exact MemOk.rfl

theorem collRefresh_memOk {a0 : Machine.State} : MemOk a0 (collRefresh a0) := by
  unfold collRefresh
  refine MemOk.after (forEach_memOk (fun _ t0 => ?_)) ?_
  · extract_lets +onlyGivenNames -merge -useContext -underBinder x1
    have h2 : MemOk t0 x1 := by
      unfold x1
      exact MemOk.ofOnly (State.modGrp_only (W := [.coll]) rfl) rfl
    clear_value x1
    split
    · refine MemOk.ite (fun _ => ?_) (fun _ => ?_)
      · refine MemOk.after (flushFinals_memOk) ?_
        · refine MemOk.ite (fun _ => ?_) (fun _ => ?_)
          · exact MemOk.after (MemOk.ofOnly (tryReady_only (W := [.links, .coll]) rfl) rfl) (h2)
          · exact h2
      · refine MemOk.ite (fun _ => ?_) (fun _ => ?_)
        · exact MemOk.after (MemOk.ofOnly (tryReady_only (W := [.links, .coll]) rfl) rfl) (h2)
        · exact h2
    · exact h2
  · exact MemOk.rfl

theorem policyRun_memOk {a0 : Nat} {a1 : Nat} {a2 : List (Nat × Nat)} {a3 : Bytes → Option Nat} {a4 : Bytes → Machine.State → PolicyOut} {a5 : Machine.State} (g0 : ∀ v0 v1, MemVia (fun r => r.2.2) v1 (a4 v0 v1)) : MemOk a5 (policyRun a0 a1 a2 a3 a4 a5) := by
  unfold policyRun
  split
  · exact MemOk.rfl
  · refine MemOk.ite (fun _ => ?_) (fun _ => ?_)
    · exact MemOk.rfl
    · extract_lets +onlyGivenNames -merge -useContext -underBinder x0
      have h1 : MemOk a5 x0 := by
        unfold x0
        exact MemOk.ofOnly (State.modMgmt_only (W := [.mgmt]) rfl) rfl
      clear_value x0
      split
      · exact MemOk.after (MemOk.ofOnly (policyAck_only (W := [.adit]) rfl) rfl) (h1)
      · split
        · exact MemOk.after (MemOk.ofOnly (policyAck_only (W := [.adit]) rfl) rfl) (h1)
        · split
          · rename_i y3 y4 y5 q6
            have h2 := MemOk.ofEq (p := (fun r => r.2.2)) (g0 _ _) q6 (s := a5) (by
              exact h1
              )
            exact MemOk.after (MemOk.ofOnly (policyAck_only (W := [.adit]) rfl) rfl) (h2)

theorem withA5_memOk {a0 : Nat} {a1 : Nat → Bytes → Machine.State → Machine.State} {a2 : Machine.State} (g0 : ∀ v0 v1 v2, MemOk v2 (a1 v0 v1 v2)) : MemOk a2 (withA5 a0 a1 a2) := by
  unfold withA5
  split
  · exact MemOk.rfl
  · refine MemOk.ite (fun _ => ?_) (fun _ => ?_)
    · exact MemOk.after (g0 _ _ _) (MemOk.ofOnly (State.modAdit_only (W := [.adit]) rfl) rfl)
    · exact MemOk.rfl

theorem takeA3_memOk {a0 : Type} {a1 : A3Msg → Option a0} {a2 : a0 → Machine.State → Machine.State} {a3 : Machine.State} (g0 : ∀ v0 v1, MemOk v1 (a2 v0 v1)) : MemOk a3 (takeA3 a1 a2 a3) := by
  unfold takeA3
  refine MemOk.ite (fun _ => ?_) (fun _ => ?_)
  · exact MemOk.rfl
  · split
    · exact MemOk.rfl
    · split
      · exact MemOk.after (g0 _ _) (MemOk.ofOnly (State.modAdit_only (W := [.adit]) rfl) rfl)
      · exact MemOk.rfl

theorem takeFrame_memOk {a0 : Nat} {a1 : Frame} {a2 : Frame → Machine.State → Machine.State} {a3 : Machine.State} (g0 : ∀ v0 v1, MemOk v1 (a2 v0 v1)) : MemOk a3 (takeFrame a0 a1 a2 a3) := by
  unfold takeFrame
  extract_lets +onlyGivenNames -merge -useContext -underBinder x0
  try clear_value x0
  extract_lets +onlyGivenNames -merge -useContext -underBinder x1
  try clear_value x1
  extract_lets +onlyGivenNames -merge -useContext -underBinder x2
  try clear_value x2
  refine MemOk.ite (fun _ => ?_) (fun _ => ?_)
  · exact MemOk.ofOnly (State.modBus_only (W := [.bus]) rfl) rfl
  · extract_lets +onlyGivenNames -merge -useContext -underBinder x3
    have h4 : MemOk a3 x3 := by
      unfold x3
      exact MemOk.ofOnly (State.modBus_only (W := [.bus]) rfl) rfl
    clear_value x3
    refine MemOk.ite (fun _ => ?_) (fun _ => ?_)
    · exact MemOk.after (g0 _ _) (h4)
    · exact h4

theorem busIn_memOk {a0 : Nat} {a1 : Nat} {a2 : Frame} {a3 : Frame → Machine.State → Machine.State} {a4 : Machine.State} (g0 : ∀ v0 v1, MemOk v1 (a3 v0 v1)) : MemOk a4 (busIn a0 a1 a2 a3 a4) := by
  unfold busIn
  refine MemOk.ite (fun _ => ?_) (fun _ => ?_)
  · exact MemOk.rfl
  · split
    · exact MemOk.ofOnly (countDrop_only (W := [.bus]) rfl) rfl
    · extract_lets +onlyGivenNames -merge -useContext -underBinder x0
      have h1 : MemOk a4 x0 := by
        unfold x0
        exact MemOk.ofOnly (State.modBus_only (W := [.bus]) rfl) rfl
      clear_value x0
      refine MemOk.ite (fun _ => ?_) (fun _ => ?_)
      · exact MemOk.after (MemOk.ofOnly (ownIdHeard_only (W := [.adit, .bus]) rfl) rfl) (h1)
      · refine MemOk.after (takeFrame_memOk (fun _ t2 => ?_)) ?_
        · exact g0 _ _
        · exact h1

theorem lowerFirst_memOk {a0 : List Nat} {a1 : Machine.State → Nat → Alloc} {a2 : Nat → (Alloc → Alloc) → Machine.State → Machine.State} {a3 : Nat → Nat} {a4 : Machine.State → Nat} {a5 : Machine.State} (g0 : ∀ v0 v1 v2, MemOk v2 (a2 v0 v1 v2)) : MemOk a5 (lowerFirst a0 a1 a2 a3 a4 a5) := by
  unfold lowerFirst
  extract_lets +onlyGivenNames -merge -useContext -underBinder x0
  try clear_value x0
  extract_lets +onlyGivenNames -merge -useContext -underBinder x1
  have h2 : MemOk a5 x1 := by
    unfold x1
    refine MemOk.after (forEach_memOk (fun _ t3 => ?_)) ?_
    · refine MemOk.ite (fun _ => ?_) (fun _ => ?_)
      · exact g0 _ _ _
      · exact MemOk.rfl
    · exact MemOk.rfl
  clear_value x1
  refine MemOk.ite (fun _ => ?_) (fun _ => ?_)
  · refine MemOk.after (forEach_memOk (fun _ t4 => ?_)) ?_
    · refine MemOk.ite (fun _ => ?_) (fun _ => ?_)
      · exact g0 _ _ _
      · exact MemOk.rfl
    · exact h2
  · exact h2

theorem wlIn_memOk {a0 : Nat} {a1 : Nat} {a2 : Nat} {a3 : Bool} {a4 : Bytes} {a5 : Bytes → Machine.State → Machine.State} {a6 : Machine.State} (g0 : ∀ v0 v1, MemOk v1 (a5 v0 v1)) : MemOk a6 (wlIn a0 a1 a2 a3 a4 a5 a6) := by
  unfold wlIn
  refine MemOk.ite (fun _ => ?_) (fun _ => ?_)
  · exact MemOk.rfl
  · refine MemOk.ite (fun _ => ?_) (fun _ => ?_)
    · exact MemOk.ofOnly (State.modWard_only (W := [.ward]) rfl) rfl
    · extract_lets +onlyGivenNames -merge -useContext -underBinder x0
      have h1 : MemOk a6 x0 := by
        unfold x0
        exact MemOk.ofOnly (laneGood_only (W := [.adit, .ward]) rfl) rfl
      clear_value x0
      refine MemOk.ite (fun _ => ?_) (fun _ => ?_)
      · exact h1
      · exact MemOk.after (g0 _ _) (MemOk.after (MemOk.ofOnly (State.modWard_only (W := [.ward]) rfl) rfl) (h1))

theorem settle_memOk {a0 : Machine.State} : MemOk a0 (settle a0) := by
  unfold settle
  exact MemOk.after (collRefresh_memOk) (MemOk.after (MemOk.ofOnly (refresh_only (W := [.rings]) rfl) rfl) (progress_memOk))

theorem busMasterOn_memOk {a0 : Nat} {a1 : Machine.State} : MemOk a1 (busMasterOn a0 a1) := by
  unfold busMasterOn
  extract_lets +onlyGivenNames -merge -useContext -underBinder x0
  have h1 : MemOk a1 x0 := by
    unfold x0
    exact MemOk.ofOnly (State.modFn_only (W := [.host]) rfl) rfl
  clear_value x0
  extract_lets +onlyGivenNames -merge -useContext -underBinder x2
  have h3 : MemOk a1 x2 := by
    unfold x2
    refine MemOk.after (forEach_memOk (fun _ t4 => ?_)) ?_
    · exact MemOk.ofOnly (tryComplete_only (W := [.host, .rings, .cages]) rfl) rfl
    · exact h1
  clear_value x2
  exact MemOk.after (settle_memOk) (MemOk.after (MemOk.ofOnly (dblCheck_only (W := [.host]) rfl) rfl) (MemOk.after (MemOk.ofOnly (flushMsi_only (W := [.host]) rfl) rfl) (MemOk.after (MemOk.ofOnly (resumeFn_only (W := [.free, .host, .rings, .cages, .beat]) rfl) rfl) (h3))))

theorem ringOp_memOk {a0 : Nat} {a1 : OpSpec} {a2 : Nat} {a3 : Nat} {a4 : Nat → Machine.State → Machine.State} {a5 : Machine.State} (g0 : ∀ v0 v1, MemOk v1 (a4 v0 v1)) : MemOk a5 (ringOp a0 a1 a2 a3 a4 a5) := by
  unfold ringOp
  refine MemOk.after (settle_memOk) ?_
  · refine MemOk.after (issueOp_memOk (fun _ t0 => ?_)) ?_
    · exact g0 _ _
    · exact MemOk.rfl

theorem ringUnknown_memOk {a0 : Nat} {a1 : Nat} {a2 : Machine.State} : MemOk a2 (ringUnknown a0 a1 a2) := by
  unfold ringUnknown
  refine MemOk.after (settle_memOk) ?_
  · refine MemOk.after (issueWhen_memOk (fun _ t0 => ?_)) ?_
    · exact MemOk.ofOnly (endCmd_only (W := [.rings]) rfl) rfl
    · exact MemOk.rfl

theorem resetPages_memOk {a0 : Nat} {a1 : Machine.State} : MemOk a1 (resetPages a0 a1) := by
  unfold resetPages
  extract_lets +onlyGivenNames -merge -useContext -underBinder x0
  try clear_value x0
  extract_lets +onlyGivenNames -merge -useContext -underBinder x1
  have h2 : MemOk a1 x1 := by
    unfold x1
    refine MemOk.after (forEach_memOk (fun _ t3 => ?_)) ?_
    · exact MemOk.after (MemOk.ofOnly (State.modPage_only (W := [.cages]) rfl) rfl) (MemOk.ofOnly (unmapPage_only (W := [.cages]) rfl) rfl)
    · exact MemOk.rfl
  clear_value x1
  extract_lets +onlyGivenNames -merge -useContext -underBinder x4
  have h5 : MemOk a1 x4 := by
    unfold x4
    exact MemOk.after (MemOk.ofOnly (State.modCages_only (W := [.cages]) rfl) rfl) (h2)
  clear_value x4
  extract_lets +onlyGivenNames -merge -useContext -underBinder x6
  have h7 : MemOk a1 x6 := by
    unfold x6
    exact MemOk.after (MemOk.ofOnly (State.modCage_only (W := [.cages]) rfl) rfl) (h5)
  clear_value x6
  refine MemOk.after (forEach_memOk (fun _ t8 => ?_)) ?_
  · exact mendPlan_memOk
  · exact h7

theorem funcEffects_memOk {a0 : Nat} {a1 : Bool} {a2 : Machine.State} : MemOk a2 (funcEffects a0 a1 a2) := by
  unfold funcEffects
  extract_lets +onlyGivenNames -merge -useContext -underBinder x0
  have h1 : MemOk a2 x0 := by
    unfold x0
    refine MemOk.foldl (fun t2 _ => ?_) ?_
    · exact dropAdm_memOk
    · exact MemOk.rfl
  clear_value x0
  extract_lets +onlyGivenNames -merge -useContext -underBinder x3
  have h4 : MemOk a2 x3 := by
    unfold x3
    refine MemOk.after (forEach_memOk (fun _ t5 => ?_)) ?_
    · exact MemOk.ofOnly (forgetGroup_only (W := [.links, .coll]) rfl) rfl
    · exact h1
  clear_value x3
  extract_lets +onlyGivenNames -merge -useContext -underBinder x6
  have h7 : MemOk a2 x6 := by
    unfold x6
    refine MemOk.after (forEach_memOk (fun _ t8 => ?_)) ?_
    · exact MemOk.ofOnly (cancelPlans_only (W := [.cages]) rfl) rfl
    · exact h4
  clear_value x6
  extract_lets +onlyGivenNames -merge -useContext -underBinder x9
  have h10 : MemOk a2 x9 := by
    unfold x9
    exact MemOk.after (resetPages_memOk) (MemOk.after (MemOk.ofOnly (resetRings_only (W := [.rings]) rfl) rfl) (MemOk.after (MemOk.ofOnly (resetReqs_only (W := [.host]) rfl) rfl) (h7)))
  clear_value x9
  exact MemOk.after (MemOk.ofOnly (State.modFn_only (W := [.host]) rfl) rfl) (h10)

theorem funcReset_memOk {a0 : Nat} {a1 : Nat} {a2 : Bool} {a3 : Machine.State} : MemOk a3 (funcReset a0 a1 a2 a3) := by
  unfold funcReset
  refine MemOk.ite (fun _ => ?_) (fun _ => ?_)
  · exact MemOk.rfl
  · exact MemOk.after (settle_memOk) (MemOk.after (MemOk.ofOnly (funcNotice_only (W := [.ao, .host, .rings]) rfl) rfl) (funcEffects_memOk))

theorem endVfs_memOk {a0 : Machine.State} : MemOk a0 (endVfs a0) := by
  unfold endVfs
  extract_lets +onlyGivenNames -merge -useContext -underBinder x0
  have h1 : MemOk a0 x0 := by
    unfold x0
    refine MemOk.after (forEach_memOk (fun _ t2 => ?_)) ?_
    · refine MemOk.ite (fun _ => ?_) (fun _ => ?_)
      · exact MemOk.rfl
      · exact funcEffects_memOk
    · exact MemOk.rfl
  clear_value x0
  extract_lets +onlyGivenNames -merge -useContext -underBinder x3
  have h4 : MemOk a0 x3 := by
    unfold x3
    refine MemOk.after (forEach_memOk (fun _ t5 => ?_)) ?_
    · exact MemOk.after (MemOk.ofOnly (State.modCage_only (W := [.cages]) rfl) rfl) (MemOk.ofOnly (State.modFn_only (W := [.host]) rfl) rfl)
    · exact h1
  clear_value x3
  exact MemOk.after (MemOk.ofOnly (State.modHost_only (W := [.host]) rfl) rfl) (h4)

theorem vfDisable_memOk {a0 : Machine.State} : MemOk a0 (vfDisable a0) := by
  unfold vfDisable
  refine MemOk.ite (fun _ => ?_) (fun _ => ?_)
  · exact MemOk.rfl
  · exact MemOk.after (settle_memOk) (MemOk.after (MemOk.ofOnly (funcNotice_only (W := [.ao, .host, .rings]) rfl) rfl) (endVfs_memOk))

theorem pfReset_memOk {a0 : Nat} {a1 : Bool} {a2 : Machine.State} : MemOk a2 (pfReset a0 a1 a2) := by
  unfold pfReset
  refine MemOk.ite (fun _ => ?_) (fun _ => ?_)
  · exact MemOk.rfl
  · extract_lets +onlyGivenNames -merge -useContext -underBinder x0
    have h1 : MemOk a2 x0 := by
      unfold x0
      exact MemOk.after (funcEffects_memOk) (endVfs_memOk)
    clear_value x0
    extract_lets +onlyGivenNames -merge -useContext -underBinder x2
    have h3 : MemOk a2 x2 := by
      unfold x2
      exact MemOk.after (MemOk.ofOnly (State.modHost_only (W := [.host]) rfl) rfl) (h1)
    clear_value x2
    extract_lets +onlyGivenNames -merge -useContext -underBinder x4
    have h5 : MemOk a2 x4 := by
      unfold x4
      exact MemOk.after (MemOk.ofOnly (State.modCages_only (W := [.cages]) rfl) rfl) (h3)
    clear_value x4
    exact MemOk.after (settle_memOk) (MemOk.after (MemOk.ofOnly (funcNotice_only (W := [.ao, .host, .rings]) rfl) rfl) (h5))

theorem flr_memOk {a0 : Nat} {a1 : Bool} {a2 : Machine.State} : MemOk a2 (flr a0 a1 a2) := by
  unfold flr
  refine MemOk.ite (fun _ => ?_) (fun _ => ?_)
  · exact MemOk.rfl
  · refine MemOk.ite (fun _ => ?_) (fun _ => ?_)
    · refine MemOk.ite (fun _ => ?_) (fun _ => ?_)
      · exact MemOk.ofOnly (State.modFn_only (W := [.host]) rfl) rfl
      · exact MemOk.rfl
    · refine MemOk.ite (fun _ => ?_) (fun _ => ?_)
      · exact pfReset_memOk
      · exact funcReset_memOk

theorem flrComplete_memOk {a0 : Nat} {a1 : Machine.State} : MemOk a1 (flrComplete a0 a1) := by
  unfold flrComplete
  refine MemOk.ite (fun _ => ?_) (fun _ => ?_)
  · exact MemOk.rfl
  · extract_lets +onlyGivenNames -merge -useContext -underBinder x0
    have h1 : MemOk a1 x0 := by
      unfold x0
      exact MemOk.ofOnly (State.modRings_only (W := [.rings]) rfl) rfl
    clear_value x0
    exact MemOk.after (settle_memOk) (MemOk.after (MemOk.ofOnly (State.modFn_only (W := [.host]) rfl) rfl) (h1))

theorem wipeMain_memOk {a0 : Machine.State} : MemOk a0 (wipeMain a0) := by
  unfold wipeMain
  extract_lets +onlyGivenNames -merge -useContext -underBinder x0
  have h1 : MemOk a0 x0 := by
    unfold x0
    exact MemOk.put (MemOk.rfl) (by first | exact fun h => h | exact fun _ => rfl)
  clear_value x0
  extract_lets +onlyGivenNames -merge -useContext -underBinder x2
  have h3 : MemOk a0 x2 := by
    unfold x2
    exact MemOk.after (MemOk.ofOnly (State.modAdit_only (W := [.adit]) rfl) rfl) (h1)
  clear_value x2
  exact MemOk.after (MemOk.ofOnly (State.modMgmt_only (W := [.mgmt]) rfl) rfl) (h3)

theorem computeReset_memOk {a0 : Nat} {a1 : Machine.State} : MemOk a1 (computeReset a0 a1) := by
  unfold computeReset
  refine MemOk.ite (fun _ => ?_) (fun _ => ?_)
  · exact MemOk.rfl
  · extract_lets +onlyGivenNames -merge -useContext -underBinder x0
    have h1 : MemOk a1 x0 := by
      unfold x0
      exact MemOk.after (MemOk.ofOnly (mainGone_only (W := [.adit, .power, .heat, .pump]) rfl) rfl) (wipeMain_memOk)
    clear_value x0
    exact MemOk.after (MemOk.ofOnly (noteReset_only (W := [.ao, .adit]) rfl) rfl) (MemOk.after (MemOk.ofOnly (State.modSup_only (W := [.sup]) rfl) rfl) (h1))

theorem mainDown_memOk {a0 : Option Nat} {a1 : Machine.State} : MemOk a1 (mainDown a0 a1) := by
  unfold mainDown
  extract_lets +onlyGivenNames -merge -useContext -underBinder x0
  try clear_value x0
  extract_lets +onlyGivenNames -merge -useContext -underBinder x1
  have h2 : MemOk a1 x1 := by
    unfold x1
    refine MemOk.ite (fun _ => ?_) (fun _ => ?_)
    · exact MemOk.after (MemOk.ofOnly (mainGone_only (W := [.adit, .power, .heat, .pump]) rfl) rfl) (wipeMain_memOk)
    · exact MemOk.rfl
  clear_value x1
  extract_lets +onlyGivenNames -merge -useContext -underBinder x3
  have h4 : MemOk a1 x3 := by
    unfold x3
    exact MemOk.after (MemOk.ofOnly (State.modPower_only (W := [.power]) rfl) rfl) (MemOk.after (MemOk.ofOnly (State.modSup_only (W := [.sup]) rfl) rfl) (h2))
  clear_value x3
  extract_lets +onlyGivenNames -merge -useContext -underBinder x5
  have h6 : MemOk a1 x5 := by
    unfold x5
    exact MemOk.after (MemOk.ofOnly (State.modAo_only (W := [.ao]) rfl) rfl) (MemOk.after (MemOk.ofOnly (State.modMgmt_only (W := [.mgmt]) rfl) rfl) (h4))
  clear_value x5
  split
  · exact MemOk.after (MemOk.ofOnly (noteReset_only (W := [.ao, .adit]) rfl) rfl) (h6)
  · exact h6

theorem kill_memOk {a0 : Nat} {a1 : Machine.State} : MemOk a1 (kill a0 a1) := by
  unfold kill
  extract_lets +onlyGivenNames -merge -useContext -underBinder x0
  try clear_value x0
  extract_lets +onlyGivenNames -merge -useContext -underBinder x1
  have h2 : MemOk a1 x1 := by
    unfold x1
    exact MemOk.ofOnly (State.modAo_only (W := [.ao]) rfl) rfl
  clear_value x1
  refine MemOk.ite (fun _ => ?_) (fun _ => ?_)
  · refine MemOk.ite (fun _ => ?_) (fun _ => ?_)
    · exact MemOk.after (MemOk.ofOnly (leakStop_only (W := [.sup, .adit, .pump]) rfl) rfl) (h2)
    · exact h2
  · extract_lets +onlyGivenNames -merge -useContext -underBinder x3
    try clear_value x3
    extract_lets +onlyGivenNames -merge -useContext -underBinder x4
    try clear_value x4
    extract_lets +onlyGivenNames -merge -useContext -underBinder x5
    try clear_value x5
    extract_lets +onlyGivenNames -merge -useContext -underBinder x6
    have h7 : MemOk a1 x6 := by
      unfold x6
      exact MemOk.after (MemOk.ofOnly (State.modAo_only (W := [.ao]) rfl) rfl) (h2)
    clear_value x6
    extract_lets +onlyGivenNames -merge -useContext -underBinder x8
    try clear_value x8
    extract_lets +onlyGivenNames -merge -useContext -underBinder x9
    have h10 : MemOk a1 x9 := by
      unfold x9
      exact MemOk.after (MemOk.ofOnly (fabricAlert_only (W := [.adit]) rfl) rfl) (h7)
    clear_value x9
    extract_lets +onlyGivenNames -merge -useContext -underBinder x11
    have h12 : MemOk a1 x11 := by
      unfold x11
      exact MemOk.after (mainDown_memOk) (h10)
    clear_value x11
    extract_lets +onlyGivenNames -merge -useContext -underBinder x13
    have h14 : MemOk a1 x13 := by
      unfold x13
      refine MemOk.ite (fun _ => ?_) (fun _ => ?_)
      · exact MemOk.after (MemOk.ofOnly (startEvent_only (W := [.adit]) rfl) rfl) (h12)
      · exact h12
    clear_value x13
    extract_lets +onlyGivenNames -merge -useContext -underBinder x15
    have h16 : MemOk a1 x15 := by
      unfold x15
      refine MemOk.ite (fun _ => ?_) (fun _ => ?_)
      · exact MemOk.after (MemOk.ofOnly (tripNotice_only (W := [.adit, .bus]) rfl) rfl) (h14)
      · exact h14
    clear_value x15
    refine MemOk.ite (fun _ => ?_) (fun _ => ?_)
    · exact MemOk.after (MemOk.ofOnly (leakStop_only (W := [.sup, .adit, .pump]) rfl) rfl) (h16)
    · refine MemOk.ite (fun _ => ?_) (fun _ => ?_)
      · exact MemOk.after (MemOk.ofOnly (dumpStart_only (W := [.sup, .adit]) rfl) rfl) (h16)
      · exact h16

theorem moduleReset_memOk {a0 : Nat} {a1 : Nat} {a2 : Nat} {a3 : Machine.State} : MemOk a3 (moduleReset a0 a1 a2 a3) := by
  unfold moduleReset
  split
  · exact MemOk.rfl
  · refine MemOk.ite (fun _ => ?_) (fun _ => ?_)
    · exact MemOk.rfl
    · extract_lets +onlyGivenNames -merge -useContext -underBinder x0
      have h1 : MemOk a3 x0 := by
        unfold x0
        exact MemOk.after (MemOk.ofOnly (wipeSteward_only (W := [.sup, .adit, .mgmt, .power, .heat, .pump, .bus, .ward]) rfl) rfl) (mainDown_memOk)
      clear_value x0
      extract_lets +onlyGivenNames -merge -useContext -underBinder x2
      have h3 : MemOk a3 x2 := by
        unfold x2
        exact MemOk.after (MemOk.ofOnly (keepCause_only (W := [.ao]) rfl) rfl) (MemOk.after (MemOk.ofOnly (State.modAo_only (W := [.ao]) rfl) rfl) (h1))
      clear_value x2
      refine MemOk.ite (fun _ => ?_) (fun _ => ?_)
      · exact h3
      · exact MemOk.after (MemOk.ofOnly (readStraps_only (W := [.ao]) rfl) rfl) (h3)

theorem coldWipe_memOk {a0 : Machine.State} : MemOk a0 (coldWipe a0) := by
  unfold coldWipe
  extract_lets +onlyGivenNames -merge -useContext -underBinder x0
  try clear_value x0
  exact MemOk.put (MemOk.rfl) (by first | exact fun h => h | exact fun _ => rfl)

theorem auxApplied_memOk {a0 : Nat} {a1 : Nat} {a2 : Nat} {a3 : Bool} {a4 : Machine.State} : MemOk a4 (auxApplied a0 a1 a2 a3 a4) := by
  unfold auxApplied
  refine MemOk.ite (fun _ => ?_) (fun _ => ?_)
  · exact MemOk.rfl
  · extract_lets +onlyGivenNames -merge -useContext -underBinder x0
    try clear_value x0
    extract_lets +onlyGivenNames -merge -useContext -underBinder x1
    have h2 : MemOk a4 x1 := by
      unfold x1
      exact MemOk.after (MemOk.ofOnly (keepCause_only (W := [.ao]) rfl) rfl) (coldWipe_memOk)
    clear_value x1
    refine MemOk.ite (fun _ => ?_) (fun _ => ?_)
    · exact h2
    · exact MemOk.after (MemOk.ofOnly (readStraps_only (W := [.ao]) rfl) rfl) (h2)

theorem brownOut_memOk {a0 : Machine.State} : MemOk a0 (brownOut a0) := by
  unfold brownOut
  refine MemOk.ite (fun _ => ?_) (fun _ => ?_)
  · exact MemOk.rfl
  · extract_lets +onlyGivenNames -merge -useContext -underBinder x0
    have h1 : MemOk a0 x0 := by
      unfold x0
      exact coldWipe_memOk
    clear_value x0
    exact MemOk.after (MemOk.ofOnly (keepCause_only (W := [.ao]) rfl) rfl) (MemOk.after (MemOk.ofOnly (State.modAo_only (W := [.ao]) rfl) rfl) (h1))

theorem answer_memOk {a0 : Bytes → Bool} {a1 : MctpReq → Machine.State → Reply} {a2 : Machine.State} (g0 : ∀ v0 v1, MemVia Prod.snd v1 (a1 v0 v1)) : MemOk a2 (answer a0 a1 a2) := by
  unfold answer
  refine MemOk.ite (fun _ => ?_) (fun _ => ?_)
  · exact MemOk.rfl
  · split
    · exact MemOk.rfl
    · extract_lets +onlyGivenNames -merge -useContext -underBinder x0
      have h1 : MemOk a2 x0 := by
        unfold x0
        exact MemOk.ofOnly (State.modMgmt_only (W := [.mgmt]) rfl) rfl
      clear_value x0
      refine MemOk.ite (fun _ => ?_) (fun _ => ?_)
      · exact MemOk.after (MemOk.ofOnly (mctpSend_only (W := [.mgmt]) rfl) rfl) (h1)
      · split
        · rename_i y3 y4 q5
          have h2 := MemOk.ofEq (p := Prod.snd) (g0 _ _) q5 (s := a2) (by
            exact h1
            )
          exact MemOk.after (MemOk.ofOnly (watch_only (W := [.adit, .mgmt]) rfl) rfl) (MemOk.after (MemOk.ofOnly (mctpSend_only (W := [.mgmt]) rfl) rfl) (h2))

theorem ctl_memOk {a0 : Nat} {a1 : MctpReq → Machine.State → Nat × Bytes × Machine.State} {a2 : Machine.State} (g0 : ∀ v0 v1, MemVia (fun r => r.2.2) v1 (a1 v0 v1)) : MemOk a2 (ctl a0 a1 a2) := by
  unfold ctl
  refine MemOk.after (answer_memOk (fun _ t0 => ?_)) ?_
  · split
    · rename_i y2 y3 y4 q5
      have h1 := MemOk.ofEq (p := (fun r => r.2.2)) (g0 _ _) q5 (s := t0) (by
        exact MemOk.rfl
        )
      refine MemOk.via2 ?_
      exact h1
  · exact MemOk.rfl

theorem pldm_memOk {a0 : Nat} {a1 : Nat} {a2 : MctpReq → Machine.State → Nat × Bytes × Machine.State} {a3 : Machine.State} (g0 : ∀ v0 v1, MemVia (fun r => r.2.2) v1 (a2 v0 v1)) : MemOk a3 (pldm a0 a1 a2 a3) := by
  unfold pldm
  refine MemOk.after (answer_memOk (fun _ t0 => ?_)) ?_
  · split
    · rename_i y2 y3 y4 q5
      have h1 := MemOk.ofEq (p := (fun r => r.2.2)) (g0 _ _) q5 (s := t0) (by
        exact MemOk.rfl
        )
      refine MemOk.via2 ?_
      exact h1
  · exact MemOk.rfl

theorem putState_memOk {a0 : Nat} {a1 : Nat} {a2 : Machine.State} : MemVia Prod.snd a2 (putState a0 a1 a2) := by
  unfold putState
  refine MemOk.iteV (fun _ => ?_) (fun _ => ?_)
  · refine MemOk.via2 ?_
    exact MemOk.rfl
  · refine MemOk.iteV (fun _ => ?_) (fun _ => ?_)
    · refine MemOk.via2 ?_
      exact MemOk.rfl
    · refine MemOk.iteV (fun _ => ?_) (fun _ => ?_)
      · refine MemOk.via2 ?_
        exact MemOk.rfl
      · refine MemOk.iteV (fun _ => ?_) (fun _ => ?_)
        · refine MemOk.via2 ?_
          exact MemOk.after (MemOk.ofOnly (powerChanged_only (W := [.mgmt]) rfl) rfl) (MemOk.ofOnly (State.modPower_only (W := [.power]) rfl) rfl)
        · refine MemOk.iteV (fun _ => ?_) (fun _ => ?_)
          · refine MemOk.via2 ?_
            exact MemOk.after (MemOk.ofOnly (coolantChanged_only (W := [.mgmt]) rfl) rfl) (MemOk.after (MemOk.ofOnly (setMode_only (W := [.pump]) rfl) rfl) (MemOk.ofOnly (abortCapture_only (W := [.adit, .pump]) rfl) rfl))
          · refine MemOk.iteV (fun _ => ?_) (fun _ => ?_)
            · refine MemOk.via2 ?_
              exact MemOk.ofOnly (setFluidTo_only (W := [.adit, .mgmt, .pump]) rfl) rfl
            · refine MemOk.iteV (fun _ => ?_) (fun _ => ?_)
              · refine MemOk.via2 ?_
                refine MemOk.ite (fun _ => ?_) (fun _ => ?_)
                · exact computeReset_memOk
                · refine MemOk.ite (fun _ => ?_) (fun _ => ?_)
                  · exact MemOk.ofOnly (askReset_only (W := [.ao]) rfl) rfl
                  · exact MemOk.rfl
              · refine MemOk.iteV (fun _ => ?_) (fun _ => ?_)
                · refine MemOk.via2 ?_
                  exact MemOk.ofOnly (setHold_only (W := [.adit, .mgmt]) rfl) rfl
                · refine MemOk.iteV (fun _ => ?_) (fun _ => ?_)
                  · refine MemOk.via2 ?_
                    exact MemOk.rfl
                  · split
                    · rename_i y1 y2 q3
                      have h0 := MemOk.ofEq (p := Prod.snd) (MemOk.ofOnly (busOrder_only (W := [.adit, .bus]) rfl) rfl) q3 (s := a2) (by
                        exact MemOk.rfl
                        )
                      refine MemOk.via2 ?_
                      exact h0

theorem setState_memOk {a0 : Machine.State} : MemOk a0 (setState a0) := by
  unfold setState
  refine MemOk.after (pldm_memOk (fun _ t0 => ?_)) ?_
  · refine MemOk.iteV (fun _ => ?_) (fun _ => ?_)
    · refine MemOk.via3 ?_
      exact MemOk.rfl
    · refine MemOk.iteV (fun _ => ?_) (fun _ => ?_)
      · refine MemOk.via3 ?_
        exact MemOk.rfl
      · split
        · rename_i y2 y3 q4
          have h1 := MemOk.ofEq (p := Prod.snd) (putState_memOk) q4 (s := t0) (by
            exact MemOk.rfl
            )
          refine MemOk.via3 ?_
          exact h1
  · exact MemOk.rfl

theorem vendor_memOk {a0 : Nat} {a1 : Bytes → Machine.State → Nat × Bytes × Machine.State} {a2 : Machine.State} (g0 : ∀ v0 v1, MemVia (fun r => r.2.2) v1 (a1 v0 v1)) : MemOk a2 (vendor a0 a1 a2) := by
  unfold vendor
  refine MemOk.after (answer_memOk (fun _ t0 => ?_)) ?_
  · split
    · rename_i y2 y3 y4 q5
      have h1 := MemOk.ofEq (p := (fun r => r.2.2)) (g0 _ _) q5 (s := t0) (by
        exact MemOk.rfl
        )
      refine MemOk.via2 ?_
      exact h1
  · exact MemOk.rfl

theorem signed_memOk {a0 : Nat} {a1 : LifeCycle → Option Bool} {a2 : Bytes → Machine.State → Nat} {a3 : Bytes → Machine.State → Machine.State} {a4 : Machine.State} (g0 : ∀ v0 v1, MemOk v1 (a3 v0 v1)) : MemOk a4 (signed a0 a1 a2 a3 a4) := by
  unfold signed
  refine MemOk.after (vendor_memOk (fun _ t0 => ?_)) ?_
  · extract_lets +onlyGivenNames -merge -useContext -underBinder x1
    try clear_value x1
    refine MemOk.iteV (fun _ => ?_) (fun _ => ?_)
    · refine MemOk.via3 ?_
      exact MemOk.ofOnly (lcEvent_only (W := [.adit]) rfl) rfl
    · refine MemOk.via3 ?_
      exact MemOk.after (g0 _ _) (MemOk.ofOnly (State.modMgmt_only (W := [.mgmt]) rfl) rfl)
  · exact MemOk.rfl

theorem bootLeak_memOk {a0 : Machine.State} : MemOk a0 (bootLeak a0) := by
  unfold bootLeak
  extract_lets +onlyGivenNames -merge -useContext -underBinder x0
  have h1 : MemOk a0 x0 := by
    unfold x0
    refine MemOk.ite (fun _ => ?_) (fun _ => ?_)
    · exact MemOk.rfl
    · exact MemOk.after (kill_memOk) (MemOk.ofOnly (State.modAo_only (W := [.ao]) rfl) rfl)
  clear_value x0
  refine MemOk.ite (fun _ => ?_) (fun _ => ?_)
  · exact MemOk.after (kill_memOk) (MemOk.after (MemOk.ofOnly (latchLeak_only (W := [.adit, .mgmt, .pump]) rfl) rfl) (h1))
  · exact h1

theorem boot_memOk {a0 : Machine.State} : MemOk a0 (boot a0) := by
  unfold boot
  refine MemOk.ite (fun _ => ?_) (fun _ => ?_)
  · exact MemOk.rfl
  · split
    · exact MemOk.rfl
    · extract_lets +onlyGivenNames -merge -useContext -underBinder x0
      try clear_value x0
      extract_lets +onlyGivenNames -merge -useContext -underBinder x1
      try clear_value x1
      extract_lets +onlyGivenNames -merge -useContext -underBinder x2
      have h3 : MemOk a0 x2 := by
        unfold x2
        exact MemOk.after (MemOk.ofOnly (State.modMgmt_only (W := [.mgmt]) rfl) rfl) (MemOk.ofOnly (State.modSup_only (W := [.sup]) rfl) rfl)
      clear_value x2
      extract_lets +onlyGivenNames -merge -useContext -underBinder x4
      have h5 : MemOk a0 x4 := by
        unfold x4
        refine MemOk.ite (fun _ => ?_) (fun _ => ?_)
        · exact MemOk.after (MemOk.ofOnly (a6Rec_only (W := [.adit]) rfl) rfl) (MemOk.after (MemOk.ofOnly (State.modAo_only (W := [.ao]) rfl) rfl) (h3))
        · exact h3
      clear_value x4
      extract_lets +onlyGivenNames -merge -useContext -underBinder x6
      have h7 : MemOk a0 x6 := by
        unfold x6
        refine MemOk.ite (fun _ => ?_) (fun _ => ?_)
        · exact MemOk.after (MemOk.ofOnly (fwEvent_only (W := [.adit]) rfl) rfl) (h5)
        · exact h5
      clear_value x6
      extract_lets +onlyGivenNames -merge -useContext -underBinder x8
      have h9 : MemOk a0 x8 := by
        unfold x8
        refine MemOk.after (bootLeak_memOk) ?_
        · refine MemOk.after (forEach_memOk (fun _ t10 => ?_)) ?_
          · exact MemOk.ofOnly (loadRegion_only (W := [.adit, .mgmt, .power, .heat, .pump, .ward]) rfl) rfl
          · exact h7
      clear_value x8
      refine MemOk.ite (fun _ => ?_) (fun _ => ?_)
      · refine MemOk.ite (fun _ => ?_) (fun _ => ?_)
        · exact MemOk.after (MemOk.ofOnly (State.modMgmt_only (W := [.mgmt]) rfl) rfl) (h9)
        · exact h9
      · extract_lets +onlyGivenNames -merge -useContext -underBinder x11
        have h12 : MemOk a0 x11 := by
          unfold x11
          exact MemOk.after (MemOk.ofOnly (bootPump_only (W := [.pump]) rfl) rfl) (h9)
        clear_value x11
        refine MemOk.ite (fun _ => ?_) (fun _ => ?_)
        · exact MemOk.after (MemOk.ofOnly (startListen_only (W := [.bus]) rfl) rfl) (h12)
        · exact h12

theorem dieTrip_memOk {a0 : Machine.State} : MemOk a0 (dieTrip a0) := by
  unfold dieTrip
  refine MemOk.ite (fun _ => ?_) (fun _ => ?_)
  · exact MemOk.rfl
  · exact MemOk.after (kill_memOk) (MemOk.ofOnly (State.modAo_only (W := [.ao]) rfl) rfl)

theorem tapeIsWet_memOk {a0 : Machine.State} : MemOk a0 (tapeIsWet a0) := by
  unfold tapeIsWet
  refine MemOk.ite (fun _ => ?_) (fun _ => ?_)
  · exact MemOk.rfl
  · extract_lets +onlyGivenNames -merge -useContext -underBinder x0
    have h1 : MemOk a0 x0 := by
      unfold x0
      exact MemOk.ofOnly (State.modAo_only (W := [.ao]) rfl) rfl
    clear_value x0
    extract_lets +onlyGivenNames -merge -useContext -underBinder x2
    have h3 : MemOk a0 x2 := by
      unfold x2
      refine MemOk.ite (fun _ => ?_) (fun _ => ?_)
      · exact MemOk.after (MemOk.ofOnly (leakAlert_only (W := [.adit, .bus]) rfl) rfl) (MemOk.after (MemOk.ofOnly (fabricAlert_only (W := [.adit]) rfl) rfl) (MemOk.after (MemOk.ofOnly (latchLeak_only (W := [.adit, .mgmt, .pump]) rfl) rfl) (h1)))
      · exact h1
    clear_value x2
    exact MemOk.after (kill_memOk) (h3)

theorem externalTrip_memOk {a0 : Nat} {a1 : Machine.State} : MemOk a1 (externalTrip a0 a1) := by
  unfold externalTrip
  refine MemOk.ite (fun _ => ?_) (fun _ => ?_)
  · exact MemOk.rfl
  · refine MemOk.ite (fun _ => ?_) (fun _ => ?_)
    · exact kill_memOk
    · split
      · rename_i y1 y2 q3
        have h0 := MemOk.ofEq (p := Prod.snd) (MemOk.ofOnly (draw_only (W := [.free]) rfl) rfl) q3 (s := a1) (by
          exact MemOk.rfl
          )
        refine MemOk.ite (fun _ => ?_) (fun _ => ?_)
        · exact MemOk.after (kill_memOk) (h0)
        · exact h0

theorem stackTripLine_memOk {a0 : Nat} {a1 : Option Int} {a2 : Machine.State} : MemOk a2 (stackTripLine a0 a1 a2) := by
  unfold stackTripLine
  refine MemOk.ite (fun _ => ?_) (fun _ => ?_)
  · exact MemOk.rfl
  · extract_lets +onlyGivenNames -merge -useContext -underBinder x0
    try clear_value x0
    extract_lets +onlyGivenNames -merge -useContext -underBinder x1
    try clear_value x1
    extract_lets +onlyGivenNames -merge -useContext -underBinder x2
    have h3 : MemOk a2 x2 := by
      unfold x2
      exact MemOk.ofOnly (State.modAo_only (W := [.ao]) rfl) rfl
    clear_value x2
    refine MemOk.ite (fun _ => ?_) (fun _ => ?_)
    · exact MemOk.after (kill_memOk) (MemOk.after (MemOk.ofOnly (State.modAo_only (W := [.ao]) rfl) rfl) (h3))
    · exact h3

theorem mainFailure_memOk {a0 : Nat} {a1 : Option Nat} {a2 : Machine.State} : MemOk a2 (mainFailure a0 a1 a2) := by
  unfold mainFailure
  extract_lets +onlyGivenNames -merge -useContext -underBinder x0
  have h1 : MemOk a2 x0 := by
    unfold x0
    exact MemOk.after (mainDown_memOk) (MemOk.ofOnly (State.modSup_only (W := [.sup]) rfl) rfl)
  clear_value x0
  exact MemOk.after (MemOk.ofOnly (dumpStart_only (W := [.sup, .adit]) rfl) rfl) (MemOk.after (MemOk.ofOnly (startEvent_only (W := [.adit]) rfl) rfl) (h1))

theorem mainTimeout_memOk {a0 : Machine.State} : MemOk a0 (mainTimeout a0) := by
  unfold mainTimeout
  refine MemOk.ite (fun _ => ?_) (fun _ => ?_)
  · exact mainFailure_memOk
  · exact MemOk.rfl

theorem mainLost_memOk {a0 : Machine.State} : MemOk a0 (mainLost a0) := by
  unfold mainLost
  refine MemOk.ite (fun _ => ?_) (fun _ => ?_)
  · exact mainFailure_memOk
  · exact MemOk.rfl

theorem mainOffRelease_memOk {a0 : Machine.State} : MemOk a0 (mainOffRelease a0) := by
  unfold mainOffRelease
  refine MemOk.ite (fun _ => ?_) (fun _ => ?_)
  · exact MemOk.after (MemOk.ofOnly (dumpStart_only (W := [.sup, .adit]) rfl) rfl) (MemOk.after (MemOk.ofOnly (startEvent_only (W := [.adit]) rfl) rfl) (mainDown_memOk))
  · exact MemOk.rfl

theorem perstLow_memOk {a0 : Machine.State} : MemOk a0 (perstLow a0) := by
  unfold perstLow
  refine MemOk.ite (fun _ => ?_) (fun _ => ?_)
  · exact MemOk.rfl
  · exact MemOk.after (computeReset_memOk) (MemOk.ofOnly (State.modSup_only (W := [.sup]) rfl) rfl)

theorem pcieReset_memOk {a0 : Nat} {a1 : Machine.State} : MemOk a1 (pcieReset a0 a1) := by
  unfold pcieReset
  refine MemOk.ite (fun _ => ?_) (fun _ => ?_)
  · exact computeReset_memOk
  · exact MemOk.rfl

theorem tapInstruction_memOk {a0 : Nat} {a1 : Machine.State} : MemOk a1 (tapInstruction a0 a1) := by
  unfold tapInstruction
  extract_lets +onlyGivenNames -merge -useContext -underBinder x0
  try clear_value x0
  extract_lets +onlyGivenNames -merge -useContext -underBinder x1
  try clear_value x1
  extract_lets +onlyGivenNames -merge -useContext -underBinder x2
  have h3 : MemOk a1 x2 := by
    unfold x2
    refine MemOk.ite (fun _ => ?_) (fun _ => ?_)
    · exact computeReset_memOk
    · exact MemOk.rfl
  clear_value x2
  exact MemOk.after (MemOk.ofOnly (State.modAo_only (W := [.ao]) rfl) rfl) (h3)

theorem moduleCycle_memOk {a0 : Machine.State} : MemOk a0 (moduleCycle a0) := by
  unfold moduleCycle
  refine MemOk.ite (fun _ => ?_) (fun _ => ?_)
  · exact MemOk.rfl
  · extract_lets +onlyGivenNames -merge -useContext -underBinder x0
    try clear_value x0
    extract_lets +onlyGivenNames -merge -useContext -underBinder x1
    have h2 : MemOk a0 x1 := by
      unfold x1
      exact MemOk.ofOnly (State.modSup_only (W := [.sup]) rfl) rfl
    clear_value x1
    extract_lets +onlyGivenNames -merge -useContext -underBinder x3
    have h4 : MemOk a0 x3 := by
      unfold x3
      exact MemOk.after (MemOk.ofOnly (pumpCycle_only (W := [.ao, .adit, .mgmt, .power, .heat, .pump]) rfl) rfl) (h2)
    clear_value x3
    extract_lets +onlyGivenNames -merge -useContext -underBinder x5
    have h6 : MemOk a0 x5 := by
      unfold x5
      refine MemOk.ite (fun _ => ?_) (fun _ => ?_)
      · exact MemOk.after (kill_memOk) (MemOk.after (MemOk.ofOnly (leakAlert_only (W := [.adit, .bus]) rfl) rfl) (MemOk.after (MemOk.ofOnly (fabricAlert_only (W := [.adit]) rfl) rfl) (h4)))
      · exact h4
    clear_value x5
    exact MemOk.after (MemOk.ofOnly (startCheck_only (W := [.sup, .adit]) rfl) rfl) (MemOk.after (MemOk.ofOnly (coolHealth_only (W := [.adit, .mgmt]) rfl) rfl) (h6))

theorem windowAccess_memOk {a0 : Nat} {a1 : Machine.State → Machine.State} {a2 : Machine.State} (g0 : ∀ v0, MemOk v0 (a1 v0)) : MemOk a2 (windowAccess a0 a1 a2) := by
  unfold windowAccess
  refine MemOk.ite (fun _ => ?_) (fun _ => ?_)
  · exact MemOk.rfl
  · extract_lets +onlyGivenNames -merge -useContext -underBinder x0
    have h1 : MemOk a2 x0 := by
      unfold x0
      exact MemOk.ofOnly (State.modHost_only (W := [.host]) rfl) rfl
    clear_value x0
    refine MemOk.ite (fun _ => ?_) (fun _ => ?_)
    · exact MemOk.after (g0 _) (h1)
    · exact MemOk.after (MemOk.ofOnly (aerUncorrectable_only (W := [.host]) rfl) rfl) (h1)

theorem ringDisable_memOk {a0 : Nat} {a1 : Nat} {a2 : Machine.State} : MemOk a2 (ringDisable a0 a1 a2) := by
  unfold ringDisable
  extract_lets +onlyGivenNames -merge -useContext -underBinder x0
  try clear_value x0
  extract_lets +onlyGivenNames -merge -useContext -underBinder x1
  have h2 : MemOk a2 x1 := by
    unfold x1
    exact MemOk.ofOnly (State.modRing_only (W := [.rings]) rfl) rfl
  clear_value x1
  extract_lets +onlyGivenNames -merge -useContext -underBinder x3
  have h4 : MemOk a2 x3 := by
    unfold x3
    split
    · refine MemOk.ite (fun _ => ?_) (fun _ => ?_)
      · exact h2
      · exact MemOk.after (MemOk.ofOnly (swapOut_only (W := [.rings]) rfl) rfl) (h2)
    · exact h2
  clear_value x3
  exact MemOk.after (settle_memOk) (MemOk.after (MemOk.ofOnly (dblCheck_only (W := [.host]) rfl) rfl) (h4))

theorem writeRingCfg_memOk {a0 : Nat} {a1 : Nat} {a2 : Nat} {a3 : Machine.State} : MemOk a3 (writeRingCfg a0 a1 a2 a3) := by
  unfold writeRingCfg
  extract_lets +onlyGivenNames -merge -useContext -underBinder x0
  try clear_value x0
  extract_lets +onlyGivenNames -merge -useContext -underBinder x1
  try clear_value x1
  extract_lets +onlyGivenNames -merge -useContext -underBinder x2
  have h3 : MemOk a3 x2 := by
    unfold x2
    refine MemOk.ite (fun _ => ?_) (fun _ => ?_)
    · exact MemOk.rfl
    · exact MemOk.ofOnly (State.modRing_only (W := [.rings]) rfl) rfl
  clear_value x2
  refine MemOk.ite (fun _ => ?_) (fun _ => ?_)
  · exact MemOk.after (MemOk.ofOnly (ringEnable_only (W := [.host, .rings]) rfl) rfl) (h3)
  · refine MemOk.ite (fun _ => ?_) (fun _ => ?_)
    · exact MemOk.after (ringDisable_memOk) (h3)
    · exact h3

theorem writeSetup_memOk {a0 : Nat} {a1 : Nat} {a2 : W32} {a3 : Machine.State} : MemOk a3 (writeSetup a0 a1 a2 a3) := by
  unfold writeSetup
  extract_lets +onlyGivenNames -merge -useContext -underBinder x0
  try clear_value x0
  refine MemOk.ite (fun _ => ?_) (fun _ => ?_)
  · exact MemOk.ite (fun _ => MemOk.rfl) (fun _ => MemOk.ofOnly (State.modFn_only (W := [.host]) rfl) rfl)
  · refine MemOk.ite (fun _ => ?_) (fun _ => ?_)
    · exact MemOk.ofOnly (writeDblCtl_only (W := [.host]) rfl) rfl
    · refine MemOk.ite (fun _ => ?_) (fun _ => ?_)
      · exact MemOk.ofOnly (writeW1c_only (W := [.host, .rings]) rfl) rfl
      · refine MemOk.ite (fun _ => ?_) (fun _ => ?_)
        · exact MemOk.ite (fun _ => MemOk.rfl) (fun _ => MemOk.ofOnly (State.modRpt_only (W := [.rings]) rfl) rfl)
        · refine MemOk.ite (fun _ => ?_) (fun _ => ?_)
          · exact MemOk.ofOnly (writeRptCfg_only (W := [.host, .rings]) rfl) rfl
          · refine MemOk.ite (fun _ => ?_) (fun _ => ?_)
            · extract_lets +onlyGivenNames -merge -useContext -underBinder x1
              try clear_value x1
              extract_lets +onlyGivenNames -merge -useContext -underBinder x2
              try clear_value x2
              refine MemOk.ite (fun _ => ?_) (fun _ => ?_)
              · exact MemOk.ite (fun _ => MemOk.rfl) (fun _ => MemOk.ofOnly (State.modRing_only (W := [.rings]) rfl) rfl)
              · refine MemOk.ite (fun _ => ?_) (fun _ => ?_)
                · exact MemOk.ite (fun _ => MemOk.rfl) (fun _ => MemOk.ofOnly (State.modRing_only (W := [.rings]) rfl) rfl)
                · refine MemOk.ite (fun _ => ?_) (fun _ => ?_)
                  · exact writeRingCfg_memOk
                  · exact MemOk.rfl
            · refine MemOk.ite (fun _ => ?_) (fun _ => ?_)
              · exact MemOk.rfl
              · refine MemOk.ite (fun _ => ?_) (fun _ => ?_)
                · exact scrubWrite_memOk
                · refine MemOk.ite (fun _ => ?_) (fun _ => ?_)
                  · exact MemOk.ofOnly (writeLinkCtl_only (W := [.host, .rings, .links, .coll]) rfl) rfl
                  · refine MemOk.ite (fun _ => ?_) (fun _ => ?_)
                    · exact MemOk.ofOnly (writeCollCtl_only (W := [.coll]) rfl) rfl
                    · refine MemOk.ite (fun _ => ?_) (fun _ => ?_)
                      · exact MemOk.ofOnly (writeTraceCtl_only (W := [.mgmt]) rfl) rfl
                      · exact MemOk.ofOnly (writeLocked_only (W := [.adit, .beat]) rfl) rfl

theorem write4_memOk {a0 : Nat} {a1 : Nat} {a2 : W32} {a3 : Machine.State} : MemOk a3 (write4 a0 a1 a2 a3) := by
  unfold write4
  refine MemOk.ite (fun _ => ?_) (fun _ => ?_)
  · exact writeSetup_memOk
  · refine MemOk.ite (fun _ => ?_) (fun _ => ?_)
    · exact MemOk.ofOnly (writeMsix_only (W := [.host]) rfl) rfl
    · exact MemOk.rfl

theorem writeReg_memOk {a0 : Nat} {a1 : Nat} {a2 : Nat} {a3 : W64} {a4 : Machine.State} : MemOk a4 (writeReg a0 a1 a2 a3 a4) := by
  unfold writeReg
  refine MemOk.after (windowAccess_memOk (fun t0 => ?_)) ?_
  · refine MemOk.ite (fun _ => ?_) (fun _ => ?_)
    · extract_lets +onlyGivenNames -merge -useContext -underBinder x1
      have h2 : MemOk t0 x1 := by
        unfold x1
        exact write4_memOk
      clear_value x1
      refine MemOk.ite (fun _ => ?_) (fun _ => ?_)
      · exact MemOk.after (write4_memOk) (h2)
      · exact h2
    · refine MemOk.ite (fun _ => ?_) (fun _ => ?_)
      · exact MemOk.ofOnly (badSize_only (W := [.host]) rfl) rfl
      · exact MemOk.rfl
  · exact MemOk.rfl

theorem writeRow_memOk {a0 : Nat} {a1 : Nat} {a2 : Nat} {a3 : Machine.State} : MemOk a3 (writeRow a0 a1 a2 a3) := by
  unfold writeRow
  refine MemOk.after (windowAccess_memOk (fun t0 => ?_)) ?_
  · exact write4_memOk
  · exact MemOk.rfl

theorem a2Close_memOk {a0 : Machine.State} : MemOk a0 (a2Close a0) := by
  unfold a2Close
  refine MemOk.ite (fun _ => ?_) (fun _ => ?_)
  · exact MemOk.rfl
  · extract_lets +onlyGivenNames -merge -useContext -underBinder x0
    try clear_value x0
    extract_lets +onlyGivenNames -merge -useContext -underBinder x1
    have h2 : MemOk a0 x1 := by
      unfold x1
      exact MemOk.ofOnly (State.modAdit_only (W := [.adit]) rfl) rfl
    clear_value x1
    extract_lets +onlyGivenNames -merge -useContext -underBinder x3
    have h4 : MemOk a0 x3 := by
      unfold x3
      exact MemOk.after (MemOk.ofOnly (State.modBeat_only (W := [.beat]) rfl) rfl) (h2)
    clear_value x3
    extract_lets +onlyGivenNames -merge -useContext -underBinder x5
    have h6 : MemOk a0 x5 := by
      unfold x5
      refine MemOk.after (forEach_memOk (fun _ t7 => ?_)) ?_
      · exact MemOk.ofOnly (State.modClus_only (W := [.beat]) rfl) rfl
      · exact h4
    clear_value x5
    refine MemOk.ite (fun _ => ?_) (fun _ => ?_)
    · refine MemOk.after (forEach_memOk (fun _ t8 => ?_)) ?_
      · exact State.modStack_memOk
      · exact h6
    · exact h6

theorem takeDown_memOk {a0 : Type} {a1 : A3Msg → Option a0} {a2 : a0 → Machine.State → Machine.State} {a3 : Machine.State} (g0 : ∀ v0 v1, MemOk v1 (a2 v0 v1)) : MemOk a3 (takeDown a1 a2 a3) := by
  unfold takeDown
  refine MemOk.ite (fun _ => ?_) (fun _ => ?_)
  · exact MemOk.rfl
  · split
    · exact MemOk.rfl
    · split
      · exact MemOk.after (g0 _ _) (MemOk.ofOnly (State.modAdit_only (W := [.adit]) rfl) rfl)
      · exact MemOk.rfl

theorem takeRelease_memOk {a0 : Machine.State} : MemOk a0 (takeRelease a0) := by
  unfold takeRelease
  refine MemOk.after (takeDown_memOk (fun _ t0 => ?_)) ?_
  · split
    · exact MemOk.rfl
    · exact MemOk.after (settle_memOk) (MemOk.after (MemOk.ofOnly (startProgram_only (W := [.adit, .host, .rings, .cages, .beat, .mgmt]) rfl) rfl) (MemOk.ofOnly (State.modAdm_only (W := [.cages]) rfl) rfl))
  · exact MemOk.rfl

theorem takeRefuse_memOk {a0 : Machine.State} : MemOk a0 (takeRefuse a0) := by
  unfold takeRefuse
  refine MemOk.after (takeDown_memOk (fun _ t0 => ?_)) ?_
  · split
    · exact MemOk.rfl
    · exact MemOk.after (settle_memOk) (MemOk.after (failAdm_memOk) (MemOk.ofOnly (State.modAdm_only (W := [.cages]) rfl) rfl))
  · exact MemOk.rfl

theorem offerBackstop_memOk {a0 : Nat} {a1 : Machine.State} : MemOk a1 (offerBackstop a0 a1) := by
  unfold offerBackstop
  split
  · exact MemOk.rfl
  · refine MemOk.ite (fun _ => ?_) (fun _ => ?_)
    · exact MemOk.after (settle_memOk) (MemOk.after (failAdm_memOk) (MemOk.ofOnly (withdraw_only (W := [.adit]) rfl) rfl))
    · exact MemOk.rfl

theorem takePolicyAck_memOk {a0 : Machine.State} : MemOk a0 (takePolicyAck a0) := by
  unfold takePolicyAck
  refine MemOk.after (takeDown_memOk (fun _ t0 => ?_)) ?_
  · split
    · exact MemOk.rfl
    · extract_lets +onlyGivenNames -merge -useContext -underBinder x1
      have h2 : MemOk t0 x1 := by
        unfold x1
        exact MemOk.ofOnly (State.modRings_only (W := [.rings]) rfl) rfl
      clear_value x1
      extract_lets +onlyGivenNames -merge -useContext -underBinder x3
      have h4 : MemOk t0 x3 := by
        unfold x3
        refine MemOk.ite (fun _ => ?_) (fun _ => ?_)
        · exact MemOk.after (MemOk.ofOnly (takePermit_only (W := [.cages]) rfl) rfl) (h2)
        · exact h2
      clear_value x3
      exact MemOk.after (settle_memOk) (MemOk.after (MemOk.ofOnly (endCmd_only (W := [.rings]) rfl) rfl) (h4))
  · exact MemOk.rfl

theorem policyTimeout_memOk {a0 : Nat} {a1 : Machine.State} : MemOk a1 (policyTimeout a0 a1) := by
  unfold policyTimeout
  refine MemOk.ite (fun _ => ?_) (fun _ => ?_)
  · exact MemOk.after (settle_memOk) (MemOk.after (MemOk.ofOnly (endCmd_only (W := [.rings]) rfl) rfl) (MemOk.ofOnly (State.modRings_only (W := [.rings]) rfl) rfl))
  · exact MemOk.rfl

theorem mgmtTurn_memOk {a0 : Machine.State → Machine.State} {a1 : Machine.State} (g0 : ∀ v0, MemOk v0 (a0 v0)) : MemOk a1 (mgmtTurn a0 a1) := by
  unfold mgmtTurn
  refine MemOk.ite (fun _ => ?_) (fun _ => ?_)
  · exact MemOk.after (MemOk.ofOnly (watch_only (W := [.adit, .mgmt]) rfl) rfl) (g0 _)
  · exact MemOk.rfl

theorem edgeTurn_memOk {a0 : Machine.State → Machine.State} {a1 : Machine.State} (g0 : ∀ v0, MemOk v0 (a0 v0)) : MemOk a1 (edgeTurn a0 a1) := by
  unfold edgeTurn
  exact MemOk.after (MemOk.ofOnly (watch_only (W := [.adit, .mgmt]) rfl) rfl) (g0 _)

theorem ctlTurn_memOk {a0 : Machine.State → Machine.State} {a1 : Machine.State} (g0 : ∀ v0, MemOk v0 (a0 v0)) : MemOk a1 (ctlTurn a0 a1) := by
  unfold ctlTurn
  refine MemOk.ite (fun _ => ?_) (fun _ => ?_)
  · exact MemOk.after (settle_memOk) (g0 _)
  · exact MemOk.rfl

theorem dataTurn_memOk {a0 : Machine.State → Machine.State} {a1 : Machine.State} (g0 : ∀ v0, MemOk v0 (a0 v0)) : MemOk a1 (dataTurn a0 a1) := by
  unfold dataTurn
  refine MemOk.ite (fun _ => ?_) (fun _ => ?_)
  · exact MemOk.after (settle_memOk) (g0 _)
  · exact MemOk.rfl

theorem linkTurn_memOk {a0 : Nat} {a1 : Machine.State → Machine.State} {a2 : Machine.State} (g0 : ∀ v0, MemOk v0 (a1 v0)) : MemOk a2 (linkTurn a0 a1 a2) := by
  unfold linkTurn
  refine MemOk.ite (fun _ => ?_) (fun _ => ?_)
  · refine MemOk.after (dataTurn_memOk (fun t0 => ?_)) ?_
    · exact MemOk.after (MemOk.ofOnly (linkSettle_only (W := [.host, .rings, .links, .coll]) rfl) rfl) (g0 _)
    · exact MemOk.rfl
  · exact MemOk.rfl

theorem cfgTurn_memOk {a0 : Nat} {a1 : Machine.State → Machine.State} {a2 : Machine.State} (g0 : ∀ v0, MemOk v0 (a1 v0)) : MemOk a2 (cfgTurn a0 a1 a2) := by
  unfold cfgTurn
  refine MemOk.ite (fun _ => ?_) (fun _ => ?_)
  · exact MemOk.rfl
  · refine MemOk.ite (fun _ => ?_) (fun _ => ?_)
    · exact MemOk.ofOnly (reply_only (W := [.host]) rfl) rfl
    · refine MemOk.ite (fun _ => ?_) (fun _ => ?_)
      · exact MemOk.after (MemOk.ofOnly (reply_only (W := [.host]) rfl) rfl) (MemOk.ofOnly (aerUncorrectable_only (W := [.host]) rfl) rfl)
      · refine MemOk.ite (fun _ => ?_) (fun _ => ?_)
        · exact MemOk.ofOnly (reply_only (W := [.host]) rfl) rfl
        · exact MemOk.after (settle_memOk) (MemOk.after (MemOk.ofOnly (reply_only (W := [.host]) rfl) rfl) (g0 _))

theorem onlyIf_memOk {a0 : Machine.State → Bool} {a1 : Machine.State → Machine.State} {a2 : Machine.State} (g0 : ∀ v0, MemOk v0 (a1 v0)) : MemOk a2 (onlyIf a0 a1 a2) := by
  unfold onlyIf
  refine MemOk.ite (fun _ => ?_) (fun _ => ?_)
  · exact g0 _
  · exact MemOk.rfl

theorem busMasterSet_memOk {a0 : Nat} {a1 : Machine.State} : MemOk a1 (busMasterSet a0 a1) := by
  unfold busMasterSet
  refine MemOk.ite (fun _ => ?_) (fun _ => ?_)
  · exact MemOk.rfl
  · exact busMasterOn_memOk

theorem ecrcFail_memOk {a0 : Nat} {a1 : Option ReadRef} {a2 : Machine.State} : MemOk a2 (ecrcFail a0 a1 a2) := by
  unfold ecrcFail
  refine MemOk.ite (fun _ => ?_) (fun _ => ?_)
  · exact MemOk.rfl
  · split
    · exact MemOk.ofOnly (windowError_only (W := [.host]) rfl) rfl
    · exact readLost_memOk

theorem bodyDestroy_memOk {a0 : Nat} {a1 : Machine.State} : MemOk a1 (bodyDestroy a0 a1) := by
  unfold bodyDestroy
  extract_lets +onlyGivenNames -merge -useContext -underBinder x0
  try clear_value x0
  split
  · exact MemOk.ofOnly (endCmd_only (W := [.rings]) rfl) rfl
  · exact MemOk.ofOnly (endCmd_only (W := [.rings]) rfl) rfl
  · exact MemOk.ofOnly (endCmd_only (W := [.rings]) rfl) rfl
  · extract_lets +onlyGivenNames -merge -useContext -underBinder x1
    have h2 : MemOk a1 x1 := by
      unfold x1
      exact MemOk.after (MemOk.ofOnly (State.modCtx_only (W := [.rings]) rfl) rfl) (MemOk.ofOnly (State.modCage_only (W := [.cages]) rfl) rfl)
    clear_value x1
    extract_lets +onlyGivenNames -merge -useContext -underBinder x3
    have h4 : MemOk a1 x3 := by
      unfold x3
      exact MemOk.after (abortAll_memOk) (h2)
    clear_value x3
    extract_lets +onlyGivenNames -merge -useContext -underBinder x5
    have h6 : MemOk a1 x5 := by
      unfold x5
      exact MemOk.after (MemOk.ofOnly (endCageCmds_only (W := [.rings, .cages]) rfl) rfl) (h4)
    clear_value x5
    refine MemOk.after (forEach_memOk (fun _ t7 => ?_)) ?_
    · exact MemOk.ofOnly (destroyGroup_only (W := [.rings, .links, .coll]) rfl) rfl
    · exact h6

theorem destroyPages_memOk {a0 : Nat} {a1 : Machine.State} : MemOk a1 (destroyPages a0 a1) := by
  unfold destroyPages
  extract_lets +onlyGivenNames -merge -useContext -underBinder x0
  try clear_value x0
  extract_lets +onlyGivenNames -merge -useContext -underBinder x1
  have h2 : MemOk a1 x1 := by
    unfold x1
    refine MemOk.after (forEach_memOk (fun _ t3 => ?_)) ?_
    · exact MemOk.after (MemOk.ofOnly (State.modPage_only (W := [.cages]) rfl) rfl) (MemOk.ofOnly (unmapPage_only (W := [.cages]) rfl) rfl)
    · exact MemOk.rfl
  clear_value x1
  extract_lets +onlyGivenNames -merge -useContext -underBinder x4
  have h5 : MemOk a1 x4 := by
    unfold x4
    exact MemOk.after (MemOk.ofOnly (State.modCages_only (W := [.cages]) rfl) rfl) (h2)
  clear_value x4
  refine MemOk.after (forEach_memOk (fun _ t6 => ?_)) ?_
  · exact mendPlan_memOk
  · exact h5

theorem destroyDone_memOk {a0 : Nat} {a1 : Machine.State} : MemOk a1 (destroyDone a0 a1) := by
  unfold destroyDone
  refine MemOk.ite (fun _ => ?_) (fun _ => ?_)
  · split
    · exact MemOk.rfl
    · extract_lets +onlyGivenNames -merge -useContext -underBinder x0
      have h1 : MemOk a1 x0 := by
        unfold x0
        exact destroyPages_memOk
      clear_value x0
      exact MemOk.after (MemOk.ofOnly (endOk_only (W := [.rings]) rfl) rfl) (MemOk.after (MemOk.ofOnly (State.modCage_only (W := [.cages]) rfl) rfl) (h1))
  · exact MemOk.rfl

theorem queueExpired_memOk {a0 : Nat} {a1 : Machine.State} : MemOk a1 (queueExpired a0 a1) := by
  unfold queueExpired
  split
  · exact MemOk.rfl
  · refine MemOk.ite (fun _ => ?_) (fun _ => ?_)
    · exact failAdm_memOk
    · exact MemOk.rfl

theorem frameScrubbed_memOk {a0 : Nat} {a1 : Machine.State} : MemOk a1 (frameScrubbed a0 a1) := by
  unfold frameScrubbed
  refine MemOk.ite (fun _ => ?_) (fun _ => ?_)
  · exact MemOk.after (MemOk.ofOnly (State.setFrame_only (W := [.cages]) rfl) rfl) (zeroFrame_memOk)
  · exact MemOk.rfl

theorem demandZeroed_memOk {a0 : Nat} {a1 : Nat} {a2 : Machine.State} : MemOk a2 (demandZeroed a0 a1 a2) := by
  unfold demandZeroed
  refine MemOk.ite (fun _ => ?_) (fun _ => ?_)
  · exact MemOk.after (MemOk.ofOnly (State.modPage_only (W := [.cages]) rfl) rfl) (zeroFrame_memOk)
  · exact MemOk.rfl

theorem restoreEnd_memOk {a0 : Nat} {a1 : Nat} {a2 : Machine.State} : MemOk a2 (restoreEnd a0 a1 a2) := by
  unfold restoreEnd
  split
  · exact MemOk.rfl
  · refine MemOk.ite (fun _ => ?_) (fun _ => ?_)
    · exact restoreDone_memOk
    · exact MemOk.rfl

theorem pieceLanded_memOk {a0 : Nat} {a1 : Nat} {a2 : Machine.State} : MemOk a2 (pieceLanded a0 a1 a2) := by
  unfold pieceLanded
  split
  · exact MemOk.rfl
  · refine MemOk.ite (fun _ => ?_) (fun _ => ?_)
    · exact MemOk.rfl
    · refine MemOk.ite (fun _ => ?_) (fun _ => ?_)
      · refine MemOk.ite (fun _ => ?_) (fun _ => ?_)
        · exact landPiece_memOk
        · exact MemOk.rfl
      · exact landPiece_memOk

theorem stackRead_memOk {a0 : Nat} {a1 : Option Int} {a2 : Machine.State} : MemOk a2 (stackRead a0 a1 a2) := by
  unfold stackRead
  refine MemOk.ite (fun _ => ?_) (fun _ => ?_)
  · exact MemOk.after (stackTripLine_memOk) (stackReadout_memOk)
  · exact MemOk.rfl

theorem lineTurn_memOk {a0 : Nat} {a1 : LineOp} {a2 : LineErr} {a3 : Machine.State} : MemOk a3 (lineTurn a0 a1 a2 a3) := by
  unfold lineTurn
  refine MemOk.ite (fun _ => ?_) (fun _ => ?_)
  · exact lineAccess_memOk
  · exact MemOk.rfl

theorem patrolTurn_memOk {a0 : Nat} {a1 : LineErr} {a2 : Machine.State} : MemOk a2 (patrolTurn a0 a1 a2) := by
  unfold patrolTurn
  refine MemOk.ite (fun _ => ?_) (fun _ => ?_)
  · exact patrolRead_memOk
  · exact MemOk.rfl

theorem trainedAll_memOk {a0 : Nat} {a1 : Machine.State} : MemOk a1 (trainedAll a0 a1) := by
  unfold trainedAll
  refine MemOk.ite (fun _ => ?_) (fun _ => ?_)
  · exact MemOk.rfl
  · extract_lets +onlyGivenNames -merge -useContext -underBinder x0
    have h1 : MemOk a1 x0 := by
      unfold x0
      exact trainingEnd_memOk
    clear_value x0
    refine MemOk.after (forEach_memOk (fun _ t2 => ?_)) ?_
    · exact MemOk.ofOnly (trainResume_only (W := [.free, .host, .rings, .cages, .links, .coll]) rfl) rfl
    · exact h1

theorem onBusOnly_memOk {a0 : Nat} {a1 : Nat} {a2 : Frame → Machine.State → Machine.State} {a3 : Frame} {a4 : Machine.State} (g0 : ∀ v0 v1, MemOk v1 (a2 v0 v1)) : MemOk a4 (onBusOnly a0 a1 a2 a3 a4) := by
  unfold onBusOnly
  refine MemOk.ite (fun _ => ?_) (fun _ => ?_)
  · exact g0 _ _
  · exact MemOk.rfl

end Sys2Proof.Machine
end

