-- ==== Sys2Proof/Laws/CanonExec.lean ====
section
/-! SUPPORT. Every command that may touch device memory keeps its canonical form. -/

namespace Sys2Proof.Machine

open Sys2Proof

theorem execA1Word_memOk {a0 : BitVec 112} {a1 : Machine.State} {t : Machine.State} (h : execA1Word a0 a1 = .next t) : MemOk a1 t := by
  unfold execA1Word at h
  cases h
  refine MemOk.after (dataTurn_memOk (fun t0 => ?_)) ?_
  · exact MemOk.ofOnly (a1In_only (W := [.beat, .mgmt]) rfl) rfl
  · exact MemOk.rfl

theorem execA1StaleTimeout_memOk {a0 : Machine.State} {t : Machine.State} (h : execA1StaleTimeout a0 = .next t) : MemOk a0 t := by
  unfold execA1StaleTimeout at h
  cases h
  refine MemOk.after (dataTurn_memOk (fun t0 => ?_)) ?_
  · exact MemOk.ofOnly (a1Stale_only (W := [.beat]) rfl) rfl
  · exact MemOk.rfl

theorem execA2WindowClose_memOk {a0 : Machine.State} {t : Machine.State} (h : execA2WindowClose a0 = .next t) : MemOk a0 t := by
  unfold execA2WindowClose at h
  cases h
  refine MemOk.after (dataTurn_memOk (fun t0 => ?_)) ?_
  · exact a2Close_memOk
  · exact MemOk.rfl

theorem execA6RecordDelivered_memOk {a0 : Machine.State} {t : Machine.State} (h : execA6RecordDelivered a0 = .next t) : MemOk a0 t := by
  unfold execA6RecordDelivered at h
  cases h
  refine MemOk.after (ctlTurn_memOk (fun t0 => ?_)) ?_
  · exact MemOk.ofOnly (a6Deliver_only (W := [.adit, .host, .rings]) rfl) rfl
  · exact MemOk.rfl

theorem execMirrorRegisterRefresh_memOk {a0 : Machine.State} {t : Machine.State} (h : execMirrorRegisterRefresh a0 = .next t) : MemOk a0 t := by
  unfold execMirrorRegisterRefresh at h
  cases h
  refine MemOk.after (dataTurn_memOk (fun t0 => ?_)) ?_
  · exact MemOk.ofOnly (mirrorIn_only (W := [.adit]) rfl) rfl
  · exact MemOk.rfl

theorem execHold_memOk {a0 : Machine.State} {t : Machine.State} (h : execHold a0 = .next t) : MemOk a0 t := by
  unfold execHold at h
  cases h
  refine MemOk.after (dataTurn_memOk (fun t0 => ?_)) ?_
  · exact MemOk.ofOnly (takeHold_only (W := [.adit]) rfl) rfl
  · exact MemOk.rfl

theorem execRelease_memOk {a0 : Machine.State} {t : Machine.State} (h : execRelease a0 = .next t) : MemOk a0 t := by
  unfold execRelease at h
  cases h
  refine MemOk.after (dataTurn_memOk (fun t0 => ?_)) ?_
  · exact takeRelease_memOk
  · exact MemOk.rfl

theorem execRefuse_memOk {a0 : Machine.State} {t : Machine.State} (h : execRefuse a0 = .next t) : MemOk a0 t := by
  unfold execRefuse at h
  cases h
  refine MemOk.after (dataTurn_memOk (fun t0 => ?_)) ?_
  · exact takeRefuse_memOk
  · exact MemOk.rfl

theorem execPolicyAck_memOk {a0 : Machine.State} {t : Machine.State} (h : execPolicyAck a0 = .next t) : MemOk a0 t := by
  unfold execPolicyAck at h
  cases h
  refine MemOk.after (dataTurn_memOk (fun t0 => ?_)) ?_
  · exact takePolicyAck_memOk
  · exact MemOk.rfl

theorem execPolicyTimeout_memOk {a0 : Nat} {a1 : Machine.State} {t : Machine.State} (h : execPolicyTimeout a0 a1 = .next t) : MemOk a1 t := by
  unfold execPolicyTimeout at h
  cases h
  refine MemOk.after (dataTurn_memOk (fun t0 => ?_)) ?_
  · exact policyTimeout_memOk
  · exact MemOk.rfl

theorem execAdmitCmd_memOk {a0 : Nat} {a1 : Nat} {a2 : Machine.State} {t : Machine.State} (h : execAdmitCmd a0 a1 a2 = .next t) : MemOk a2 t := by
  unfold execAdmitCmd at h
  cases h
  refine MemOk.after (ringOp_memOk (fun _ t0 => ?_)) ?_
  · exact MemOk.ofOnly (bodyAdmit_only (W := [.free, .host, .rings, .cages]) rfl) rfl
  · exact MemOk.rfl

theorem execAdmitQueueServed_memOk {a0 : Machine.State} {t : Machine.State} (h : execAdmitQueueServed a0 = .next t) : MemOk a0 t := by
  unfold execAdmitQueueServed at h
  cases h
  refine MemOk.after (ctlTurn_memOk (fun t0 => ?_)) ?_
  · exact serveQueue_memOk
  · exact MemOk.rfl

theorem execAdmitWaitExpiry_memOk {a0 : Nat} {a1 : Machine.State} {t : Machine.State} (h : execAdmitWaitExpiry a0 a1 = .next t) : MemOk a1 t := by
  unfold execAdmitWaitExpiry at h
  cases h
  refine MemOk.after (ctlTurn_memOk (fun t0 => ?_)) ?_
  · exact queueExpired_memOk
  · exact MemOk.rfl

theorem execAdmitResidencyComplete_memOk {a0 : Nat} {a1 : Machine.State} {t : Machine.State} (h : execAdmitResidencyComplete a0 a1 = .next t) : MemOk a1 t := by
  unfold execAdmitResidencyComplete at h
  cases h
  refine MemOk.after (ctlTurn_memOk (fun t0 => ?_)) ?_
  · exact residencyComplete_memOk
  · exact MemOk.rfl

theorem execProgramLoadComplete_memOk {a0 : Nat} {a1 : Machine.State} {t : Machine.State} (h : execProgramLoadComplete a0 a1 = .next t) : MemOk a1 t := by
  unfold execProgramLoadComplete at h
  cases h
  refine MemOk.after (ctlTurn_memOk (fun t0 => ?_)) ?_
  · exact MemOk.ofOnly (loadComplete_only (W := [.adit, .host, .rings, .cages, .beat, .mgmt]) rfl) rfl
  · exact MemOk.rfl

theorem execOfferBackstop_memOk {a0 : Nat} {a1 : Machine.State} {t : Machine.State} (h : execOfferBackstop a0 a1 = .next t) : MemOk a1 t := by
  unfold execOfferBackstop at h
  cases h
  refine MemOk.after (ctlTurn_memOk (fun t0 => ?_)) ?_
  · exact offerBackstop_memOk
  · exact MemOk.rfl

theorem execProgramAbort_memOk {a0 : Nat} {a1 : Nat} {a2 : Machine.State} {t : Machine.State} (h : execProgramAbort a0 a1 a2 = .next t) : MemOk a2 t := by
  unfold execProgramAbort at h
  cases h
  refine MemOk.after (ringOp_memOk (fun _ t0 => ?_)) ?_
  · exact bodyAbort_memOk
  · exact MemOk.rfl

theorem execAbortDrainComplete_memOk {a0 : Nat} {a1 : Machine.State} {t : Machine.State} (h : execAbortDrainComplete a0 a1 = .next t) : MemOk a1 t := by
  unfold execAbortDrainComplete at h
  cases h
  refine MemOk.after (dataTurn_memOk (fun t0 => ?_)) ?_
  · exact drainDone_memOk
  · exact MemOk.rfl

theorem execClusterScrubComplete_memOk {a0 : Nat} {a1 : Machine.State} {t : Machine.State} (h : execClusterScrubComplete a0 a1 = .next t) : MemOk a1 t := by
  unfold execClusterScrubComplete at h
  cases h
  refine MemOk.after (dataTurn_memOk (fun t0 => ?_)) ?_
  · exact MemOk.ofOnly (clusterScrubbed_only (W := [.beat]) rfl) rfl
  · exact MemOk.rfl

theorem execPageMap_memOk {a0 : Nat} {a1 : Nat} {a2 : Machine.State} {t : Machine.State} (h : execPageMap a0 a1 a2 = .next t) : MemOk a2 t := by
  unfold execPageMap at h
  cases h
  refine MemOk.after (ringOp_memOk (fun _ t0 => ?_)) ?_
  · exact MemOk.ofOnly (bodyMap_only (W := [.free, .host, .rings, .cages]) rfl) rfl
  · exact MemOk.rfl

theorem execPageUnmap_memOk {a0 : Nat} {a1 : Nat} {a2 : Machine.State} {t : Machine.State} (h : execPageUnmap a0 a1 a2 = .next t) : MemOk a2 t := by
  unfold execPageUnmap at h
  cases h
  refine MemOk.after (ringOp_memOk (fun _ t0 => ?_)) ?_
  · exact MemOk.ofOnly (bodyUnmap_only (W := [.rings, .cages]) rfl) rfl
  · exact MemOk.rfl

theorem execPageUnmapComplete_memOk {a0 : Nat} {a1 : Machine.State} {t : Machine.State} (h : execPageUnmapComplete a0 a1 = .next t) : MemOk a1 t := by
  unfold execPageUnmapComplete at h
  cases h
  refine MemOk.after (ctlTurn_memOk (fun t0 => ?_)) ?_
  · exact MemOk.ofOnly (unmapDone_only (W := [.rings, .cages]) rfl) rfl
  · exact MemOk.rfl

theorem execPoolSet_memOk {a0 : Nat} {a1 : Nat} {a2 : Machine.State} {t : Machine.State} (h : execPoolSet a0 a1 a2 = .next t) : MemOk a2 t := by
  unfold execPoolSet at h
  cases h
  refine MemOk.after (ringOp_memOk (fun _ t0 => ?_)) ?_
  · exact MemOk.ofOnly (bodyPool_only (W := [.rings, .cages]) rfl) rfl
  · exact MemOk.rfl

theorem execCageCreate_memOk {a0 : Nat} {a1 : Nat} {a2 : Machine.State} {t : Machine.State} (h : execCageCreate a0 a1 a2 = .next t) : MemOk a2 t := by
  unfold execCageCreate at h
  cases h
  refine MemOk.after (ringOp_memOk (fun _ t0 => ?_)) ?_
  · exact MemOk.ofOnly (bodyCreate_only (W := [.rings, .cages]) rfl) rfl
  · exact MemOk.rfl

theorem execCageDestroy_memOk {a0 : Nat} {a1 : Nat} {a2 : Machine.State} {t : Machine.State} (h : execCageDestroy a0 a1 a2 = .next t) : MemOk a2 t := by
  unfold execCageDestroy at h
  cases h
  refine MemOk.after (ringOp_memOk (fun _ t0 => ?_)) ?_
  · exact bodyDestroy_memOk
  · exact MemOk.rfl

theorem execCageDestroyComplete_memOk {a0 : Nat} {a1 : Machine.State} {t : Machine.State} (h : execCageDestroyComplete a0 a1 = .next t) : MemOk a1 t := by
  unfold execCageDestroyComplete at h
  cases h
  refine MemOk.after (ctlTurn_memOk (fun t0 => ?_)) ?_
  · exact destroyDone_memOk
  · exact MemOk.rfl

theorem execCageQuota_memOk {a0 : Nat} {a1 : Nat} {a2 : Machine.State} {t : Machine.State} (h : execCageQuota a0 a1 a2 = .next t) : MemOk a2 t := by
  unfold execCageQuota at h
  cases h
  refine MemOk.after (ringOp_memOk (fun _ t0 => ?_)) ?_
  · exact MemOk.ofOnly (bodyQuota_only (W := [.rings]) rfl) rfl
  · exact MemOk.rfl

theorem execFrameScrubbed_memOk {a0 : Nat} {a1 : Machine.State} {t : Machine.State} (h : execFrameScrubbed a0 a1 = .next t) : MemOk a1 t := by
  unfold execFrameScrubbed at h
  cases h
  refine MemOk.after (dataTurn_memOk (fun t0 => ?_)) ?_
  · exact frameScrubbed_memOk
  · exact MemOk.rfl

theorem execDemandZeroComplete_memOk {a0 : Nat} {a1 : Nat} {a2 : Machine.State} {t : Machine.State} (h : execDemandZeroComplete a0 a1 a2 = .next t) : MemOk a2 t := by
  unfold execDemandZeroComplete at h
  cases h
  refine MemOk.after (dataTurn_memOk (fun t0 => ?_)) ?_
  · exact demandZeroed_memOk
  · exact MemOk.rfl

theorem execEvictionComplete_memOk {a0 : Nat} {a1 : Nat} {a2 : Machine.State} {t : Machine.State} (h : execEvictionComplete a0 a1 a2 = .next t) : MemOk a2 t := by
  unfold execEvictionComplete at h
  cases h
  refine MemOk.after (ctlTurn_memOk (fun t0 => ?_)) ?_
  · exact MemOk.ofOnly (evictEnd_only (W := [.host, .rings, .cages]) rfl) rfl
  · exact MemOk.rfl

theorem execRestoreComplete_memOk {a0 : Nat} {a1 : Nat} {a2 : Machine.State} {t : Machine.State} (h : execRestoreComplete a0 a1 a2 = .next t) : MemOk a2 t := by
  unfold execRestoreComplete at h
  cases h
  refine MemOk.after (ctlTurn_memOk (fun t0 => ?_)) ?_
  · exact restoreEnd_memOk
  · exact MemOk.rfl

theorem execPageBookTimer_memOk {a0 : Machine.State} {t : Machine.State} (h : execPageBookTimer a0 = .next t) : MemOk a0 t := by
  unfold execPageBookTimer at h
  cases h
  refine MemOk.after (ctlTurn_memOk (fun t0 => ?_)) ?_
  · exact MemOk.ofOnly (pageBook_only (W := [.host, .rings]) rfl) rfl
  · exact MemOk.rfl

theorem execBeatSlot_memOk {a0 : Nat} {a1 : Machine.State} {t : Machine.State} (h : execBeatSlot a0 a1 = .next t) : MemOk a1 t := by
  unfold execBeatSlot at h
  cases h
  refine MemOk.after (dataTurn_memOk (fun t0 => ?_)) ?_
  · refine MemOk.after (onlyIf_memOk (fun t1 => ?_)) ?_
    · exact MemOk.ofOnly (slotStep_only (W := [.free, .host, .cages, .beat, .mgmt]) rfl) rfl
    · exact MemOk.rfl
  · exact MemOk.rfl

theorem execStreamPieceLanded_memOk {a0 : Nat} {a1 : Nat} {a2 : Machine.State} {t : Machine.State} (h : execStreamPieceLanded a0 a1 a2 = .next t) : MemOk a2 t := by
  unfold execStreamPieceLanded at h
  cases h
  refine MemOk.after (dataTurn_memOk (fun t0 => ?_)) ?_
  · exact pieceLanded_memOk
  · exact MemOk.rfl

theorem execProgramEnd_memOk {a0 : Nat} {a1 : Machine.State} {t : Machine.State} (h : execProgramEnd a0 a1 = .next t) : MemOk a1 t := by
  unfold execProgramEnd at h
  cases h
  refine MemOk.after (dataTurn_memOk (fun t0 => ?_)) ?_
  · exact programDone_memOk
  · exact MemOk.rfl

theorem execGateLimitExpiry_memOk {a0 : Nat} {a1 : Machine.State} {t : Machine.State} (h : execGateLimitExpiry a0 a1 = .next t) : MemOk a1 t := by
  unfold execGateLimitExpiry at h
  cases h
  refine MemOk.after (dataTurn_memOk (fun t0 => ?_)) ?_
  · exact MemOk.ofOnly (gateExpired_only (W := [.beat, .mgmt]) rfl) rfl
  · exact MemOk.rfl

theorem execDroopCrossing_memOk {a0 : Nat} {a1 : Machine.State} {t : Machine.State} (h : execDroopCrossing a0 a1 = .next t) : MemOk a1 t := by
  unfold execDroopCrossing at h
  cases h
  refine MemOk.after (dataTurn_memOk (fun t0 => ?_)) ?_
  · exact MemOk.ofOnly (droop_only (W := [.beat, .power]) rfl) rfl
  · exact MemOk.rfl

theorem execShadowAccessFail_memOk {a0 : Nat} {a1 : Machine.State} {t : Machine.State} (h : execShadowAccessFail a0 a1 = .next t) : MemOk a1 t := by
  unfold execShadowAccessFail at h
  cases h
  refine MemOk.after (dataTurn_memOk (fun t0 => ?_)) ?_
  · exact MemOk.ofOnly (shadowStop_only (W := [.beat]) rfl) rfl
  · exact MemOk.rfl

theorem execCollGroupCreate_memOk {a0 : Nat} {a1 : Nat} {a2 : Machine.State} {t : Machine.State} (h : execCollGroupCreate a0 a1 a2 = .next t) : MemOk a2 t := by
  unfold execCollGroupCreate at h
  cases h
  refine MemOk.after (ringOp_memOk (fun _ t0 => ?_)) ?_
  · exact MemOk.ofOnly (bodyCollCreate_only (W := [.rings, .links, .coll]) rfl) rfl
  · exact MemOk.rfl

theorem execCollGroupDestroy_memOk {a0 : Nat} {a1 : Nat} {a2 : Machine.State} {t : Machine.State} (h : execCollGroupDestroy a0 a1 a2 = .next t) : MemOk a2 t := by
  unfold execCollGroupDestroy at h
  cases h
  refine MemOk.after (ringOp_memOk (fun _ t0 => ?_)) ?_
  · exact MemOk.ofOnly (bodyCollDestroy_only (W := [.rings, .links, .coll]) rfl) rfl
  · exact MemOk.rfl

theorem execCollBufRegister_memOk {a0 : Nat} {a1 : Nat} {a2 : Machine.State} {t : Machine.State} (h : execCollBufRegister a0 a1 a2 = .next t) : MemOk a2 t := by
  unfold execCollBufRegister at h
  cases h
  refine MemOk.after (ringOp_memOk (fun _ t0 => ?_)) ?_
  · exact MemOk.ofOnly (bodyCollReg_only (W := [.rings, .links, .coll]) rfl) rfl
  · exact MemOk.rfl

theorem execReduceScatter_memOk {a0 : Nat} {a1 : Nat} {a2 : Machine.State} {t : Machine.State} (h : execReduceScatter a0 a1 a2 = .next t) : MemOk a2 t := by
  unfold execReduceScatter at h
  cases h
  refine MemOk.after (ringOp_memOk (fun _ t0 => ?_)) ?_
  · exact MemOk.ofOnly (bodyCollOp_only (W := [.rings, .coll]) rfl) rfl
  · exact MemOk.rfl

theorem execAllGather_memOk {a0 : Nat} {a1 : Nat} {a2 : Machine.State} {t : Machine.State} (h : execAllGather a0 a1 a2 = .next t) : MemOk a2 t := by
  unfold execAllGather at h
  cases h
  refine MemOk.after (ringOp_memOk (fun _ t0 => ?_)) ?_
  · exact MemOk.ofOnly (bodyCollOp_only (W := [.rings, .coll]) rfl) rfl
  · exact MemOk.rfl

theorem execGroupHello_memOk {a0 : Nat} {a1 : Machine.State} {t : Machine.State} (h : execGroupHello a0 a1 = .next t) : MemOk a1 t := by
  unfold execGroupHello at h
  cases h
  refine MemOk.after (linkTurn_memOk (fun t0 => ?_)) ?_
  · refine MemOk.after (withMsg_memOk (fun _ t1 => ?_)) ?_
    · exact MemOk.ofOnly (helloMsg_only (W := [.rings, .links, .coll]) rfl) rfl
    · exact MemOk.rfl
  · exact MemOk.rfl

theorem execGroupHelloResend_memOk {a0 : Nat} {a1 : Machine.State} {t : Machine.State} (h : execGroupHelloResend a0 a1 = .next t) : MemOk a1 t := by
  unfold execGroupHelloResend at h
  cases h
  refine MemOk.after (dataTurn_memOk (fun t0 => ?_)) ?_
  · exact MemOk.ofOnly (helloAgain_only (W := [.links]) rfl) rfl
  · exact MemOk.rfl

theorem execGroupAck_memOk {a0 : Nat} {a1 : Machine.State} {t : Machine.State} (h : execGroupAck a0 a1 = .next t) : MemOk a1 t := by
  unfold execGroupAck at h
  cases h
  refine MemOk.after (linkTurn_memOk (fun t0 => ?_)) ?_
  · refine MemOk.after (withMsg_memOk (fun _ t1 => ?_)) ?_
    · exact MemOk.ofOnly (ackMsg_only (W := [.rings, .coll]) rfl) rfl
    · exact MemOk.rfl
  · exact MemOk.rfl

theorem execKeyOffer_memOk {a0 : Nat} {a1 : Machine.State} {t : Machine.State} (h : execKeyOffer a0 a1 = .next t) : MemOk a1 t := by
  unfold execKeyOffer at h
  cases h
  refine MemOk.after (linkTurn_memOk (fun t0 => ?_)) ?_
  · refine MemOk.after (withMsg_memOk (fun _ t1 => ?_)) ?_
    · exact MemOk.ofOnly (keyMsg_only (W := [.rings, .coll]) rfl) rfl
    · exact MemOk.rfl
  · exact MemOk.rfl

theorem execGroupBye_memOk {a0 : Nat} {a1 : Machine.State} {t : Machine.State} (h : execGroupBye a0 a1 = .next t) : MemOk a1 t := by
  unfold execGroupBye at h
  cases h
  refine MemOk.after (linkTurn_memOk (fun t0 => ?_)) ?_
  · refine MemOk.after (withMsg_memOk (fun _ t1 => ?_)) ?_
    · exact MemOk.ofOnly (byeMsg_only (W := [.host, .rings, .links, .coll]) rfl) rfl
    · exact MemOk.rfl
  · exact MemOk.rfl

theorem execCollWaitExpiry_memOk {a0 : Nat} {a1 : Nat} {a2 : Nat} {a3 : Machine.State} {t : Machine.State} (h : execCollWaitExpiry a0 a1 a2 a3 = .next t) : MemOk a3 t := by
  unfold execCollWaitExpiry at h
  cases h
  refine MemOk.after (dataTurn_memOk (fun t0 => ?_)) ?_
  · exact MemOk.ofOnly (waitExpired_only (W := [.rings, .links, .coll]) rfl) rfl
  · exact MemOk.rfl

theorem execCollOpStart_memOk {a0 : Nat} {a1 : Machine.State} {t : Machine.State} (h : execCollOpStart a0 a1 = .next t) : MemOk a1 t := by
  unfold execCollOpStart at h
  cases h
  refine MemOk.after (dataTurn_memOk (fun t0 => ?_)) ?_
  · exact MemOk.ofOnly (opStart_only (W := [.links, .coll]) rfl) rfl
  · exact MemOk.rfl

theorem execBindStartWaitEnd_memOk {a0 : Nat} {a1 : Machine.State} {t : Machine.State} (h : execBindStartWaitEnd a0 a1 = .next t) : MemOk a1 t := by
  unfold execBindStartWaitEnd at h
  cases h
  refine MemOk.after (dataTurn_memOk (fun t0 => ?_)) ?_
  · exact MemOk.ofOnly (bindWaitEnd_only (W := [.links, .coll]) rfl) rfl
  · exact MemOk.rfl

theorem execBindSourceGateMet_memOk {a0 : Nat} {a1 : Machine.State} {t : Machine.State} (h : execBindSourceGateMet a0 a1 = .next t) : MemOk a1 t := by
  unfold execBindSourceGateMet at h
  cases h
  refine MemOk.after (dataTurn_memOk (fun t0 => ?_)) ?_
  · exact sourceGate_memOk
  · exact MemOk.rfl

theorem execOpReady_memOk {a0 : Nat} {a1 : Machine.State} {t : Machine.State} (h : execOpReady a0 a1 = .next t) : MemOk a1 t := by
  unfold execOpReady at h
  cases h
  refine MemOk.after (linkTurn_memOk (fun t0 => ?_)) ?_
  · refine MemOk.after (withMsg_memOk (fun _ t1 => ?_)) ?_
    · exact MemOk.ofOnly (readyMsg_only (W := [.links, .coll]) rfl) rfl
    · exact MemOk.rfl
  · exact MemOk.rfl

theorem execChunkStart_memOk {a0 : Nat} {a1 : Machine.State} {t : Machine.State} (h : execChunkStart a0 a1 = .next t) : MemOk a1 t := by
  unfold execChunkStart at h
  cases h
  refine MemOk.after (dataTurn_memOk (fun t0 => ?_)) ?_
  · refine MemOk.after (onlyIf_memOk (fun t1 => ?_)) ?_
    · exact MemOk.ofOnly (chunkStart_only (W := [.free, .rings, .links, .coll]) rfl) rfl
    · exact MemOk.rfl
  · exact MemOk.rfl

theorem execCollData_memOk {a0 : Nat} {a1 : Nat} {a2 : Machine.State} {t : Machine.State} (h : execCollData a0 a1 a2 = .next t) : MemOk a2 t := by
  unfold execCollData at h
  cases h
  refine MemOk.after (linkTurn_memOk (fun t0 => ?_)) ?_
  · exact collDataIn_memOk
  · exact MemOk.rfl

theorem execChunkEnd_memOk {a0 : Nat} {a1 : Nat} {a2 : Machine.State} {t : Machine.State} (h : execChunkEnd a0 a1 a2 = .next t) : MemOk a2 t := by
  unfold execChunkEnd at h
  cases h
  refine MemOk.after (linkTurn_memOk (fun t0 => ?_)) ?_
  · refine MemOk.after (withMsg_memOk (fun _ t1 => ?_)) ?_
    · exact MemOk.ofOnly (chunkEndMsg_only (W := [.coll]) rfl) rfl
    · exact MemOk.rfl
  · exact MemOk.rfl

theorem execChunkCheck_memOk {a0 : Nat} {a1 : Nat} {a2 : Nat} {a3 : Machine.State} {t : Machine.State} (h : execChunkCheck a0 a1 a2 a3 = .next t) : MemOk a3 t := by
  unfold execChunkCheck at h
  cases h
  refine MemOk.after (dataTurn_memOk (fun t0 => ?_)) ?_
  · exact chunkCheck_memOk
  · exact MemOk.rfl

theorem execChunkAck_memOk {a0 : Nat} {a1 : Machine.State} {t : Machine.State} (h : execChunkAck a0 a1 = .next t) : MemOk a1 t := by
  unfold execChunkAck at h
  cases h
  refine MemOk.after (linkTurn_memOk (fun t0 => ?_)) ?_
  · refine MemOk.after (withMsg_memOk (fun _ t1 => ?_)) ?_
    · exact MemOk.ofOnly (chunkAckMsg_only (W := [.rings, .links, .coll]) rfl) rfl
    · exact MemOk.rfl
  · exact MemOk.rfl

theorem execOpAbort_memOk {a0 : Nat} {a1 : Machine.State} {t : Machine.State} (h : execOpAbort a0 a1 = .next t) : MemOk a1 t := by
  unfold execOpAbort at h
  cases h
  refine MemOk.after (linkTurn_memOk (fun t0 => ?_)) ?_
  · refine MemOk.after (withMsg_memOk (fun _ t1 => ?_)) ?_
    · exact MemOk.ofOnly (abortMsg_only (W := [.links, .coll]) rfl) rfl
    · exact MemOk.rfl
  · exact MemOk.rfl

theorem execCollProgressTimeout_memOk {a0 : Nat} {a1 : Nat} {a2 : Machine.State} {t : Machine.State} (h : execCollProgressTimeout a0 a1 a2 = .next t) : MemOk a2 t := by
  unfold execCollProgressTimeout at h
  cases h
  refine MemOk.after (dataTurn_memOk (fun t0 => ?_)) ?_
  · exact MemOk.ofOnly (progressTimeout_only (W := [.links, .coll]) rfl) rfl
  · exact MemOk.rfl

theorem execCollDrainComplete_memOk {a0 : Nat} {a1 : Machine.State} {t : Machine.State} (h : execCollDrainComplete a0 a1 = .next t) : MemOk a1 t := by
  unfold execCollDrainComplete at h
  cases h
  refine MemOk.after (dataTurn_memOk (fun t0 => ?_)) ?_
  · exact MemOk.ofOnly (collDrained_only (W := [.rings, .links, .coll]) rfl) rfl
  · exact MemOk.rfl

theorem execCollErrCountTimer_memOk {a0 : Machine.State} {t : Machine.State} (h : execCollErrCountTimer a0 = .next t) : MemOk a0 t := by
  unfold execCollErrCountTimer at h
  cases h
  refine MemOk.after (dataTurn_memOk (fun t0 => ?_)) ?_
  · exact MemOk.ofOnly (collErrCount_only (W := [.host, .rings, .coll]) rfl) rfl
  · exact MemOk.rfl

theorem execConfigRequest_memOk {a0 : Nat} {a1 : CfgOp} {a2 : Machine.State} {t : Machine.State} (h : execConfigRequest a0 a1 a2 = .next t) : MemOk a2 t := by
  unfold execConfigRequest at h
  cases h
  exact MemOk.after (settle_memOk) (MemOk.ofOnly (configRequest_only (W := [.host]) rfl) rfl)

theorem execVfEnableSet_memOk {a0 : Machine.State} {t : Machine.State} (h : execVfEnableSet a0 = .next t) : MemOk a0 t := by
  unfold execVfEnableSet at h
  cases h
  refine MemOk.after (cfgTurn_memOk (fun t0 => ?_)) ?_
  · exact MemOk.ofOnly (vfEnable_only (W := [.host, .cages]) rfl) rfl
  · exact MemOk.rfl

theorem execVfEnableClear_memOk {a0 : Machine.State} {t : Machine.State} (h : execVfEnableClear a0 = .next t) : MemOk a0 t := by
  unfold execVfEnableClear at h
  cases h
  refine MemOk.after (cfgTurn_memOk (fun t0 => ?_)) ?_
  · exact vfDisable_memOk
  · exact MemOk.rfl

theorem execVfRrsEnd_memOk {a0 : Machine.State} {t : Machine.State} (h : execVfRrsEnd a0 = .next t) : MemOk a0 t := by
  unfold execVfRrsEnd at h
  cases h
  refine MemOk.after (ctlTurn_memOk (fun t0 => ?_)) ?_
  · exact MemOk.ofOnly (vfRrsEnd_only (W := [.host]) rfl) rfl
  · exact MemOk.rfl

theorem execFlr_memOk {a0 : Nat} {a1 : Machine.State} {t : Machine.State} (h : execFlr a0 a1 = .next t) : MemOk a1 t := by
  unfold execFlr at h
  cases h
  refine MemOk.after (cfgTurn_memOk (fun t0 => ?_)) ?_
  · exact flr_memOk
  · exact MemOk.rfl

theorem execFlrComplete_memOk {a0 : Nat} {a1 : Machine.State} {t : Machine.State} (h : execFlrComplete a0 a1 = .next t) : MemOk a1 t := by
  unfold execFlrComplete at h
  cases h
  refine MemOk.after (ctlTurn_memOk (fun t0 => ?_)) ?_
  · exact flrComplete_memOk
  · exact MemOk.rfl

theorem execD3hotEntry_memOk {a0 : Nat} {a1 : Machine.State} {t : Machine.State} (h : execD3hotEntry a0 a1 = .next t) : MemOk a1 t := by
  unfold execD3hotEntry at h
  cases h
  refine MemOk.after (cfgTurn_memOk (fun t0 => ?_)) ?_
  · exact flr_memOk
  · exact MemOk.rfl

theorem execBusMasterEnableClear_memOk {a0 : Nat} {a1 : Machine.State} {t : Machine.State} (h : execBusMasterEnableClear a0 a1 = .next t) : MemOk a1 t := by
  unfold execBusMasterEnableClear at h
  cases h
  refine MemOk.after (cfgTurn_memOk (fun t0 => ?_)) ?_
  · exact MemOk.ofOnly (busMasterOff_only (W := [.host]) rfl) rfl
  · exact MemOk.rfl

theorem execBusMasterEnableSet_memOk {a0 : Nat} {a1 : Machine.State} {t : Machine.State} (h : execBusMasterEnableSet a0 a1 = .next t) : MemOk a1 t := by
  unfold execBusMasterEnableSet at h
  cases h
  refine MemOk.after (cfgTurn_memOk (fun t0 => ?_)) ?_
  · exact busMasterSet_memOk
  · exact MemOk.rfl

theorem execAtsEnableChange_memOk {a0 : Nat} {a1 : Bool} {a2 : Machine.State} {t : Machine.State} (h : execAtsEnableChange a0 a1 a2 = .next t) : MemOk a2 t := by
  unfold execAtsEnableChange at h
  cases h
  refine MemOk.after (cfgTurn_memOk (fun t0 => ?_)) ?_
  · exact MemOk.ofOnly (setAts_only (W := [.host]) rfl) rfl
  · exact MemOk.rfl

theorem execTranslationCompletion_memOk {a0 : Nat} {a1 : XlResult} {a2 : Machine.State} {t : Machine.State} (h : execTranslationCompletion a0 a1 a2 = .next t) : MemOk a2 t := by
  unfold execTranslationCompletion at h
  cases h
  refine MemOk.after (ctlTurn_memOk (fun t0 => ?_)) ?_
  · exact xlComplete_memOk
  · exact MemOk.rfl

theorem execInvalidateRequest_memOk {a0 : Nat} {a1 : Nat} {a2 : Nat} {a3 : Machine.State} {t : Machine.State} (h : execInvalidateRequest a0 a1 a2 a3 = .next t) : MemOk a3 t := by
  unfold execInvalidateRequest at h
  cases h
  refine MemOk.after (ctlTurn_memOk (fun t0 => ?_)) ?_
  · exact MemOk.ofOnly (invalidate_only (W := [.host]) rfl) rfl
  · exact MemOk.rfl

theorem execInvalidateComplete_memOk {a0 : Nat} {a1 : Nat} {a2 : Nat} {a3 : Machine.State} {t : Machine.State} (h : execInvalidateComplete a0 a1 a2 a3 = .next t) : MemOk a3 t := by
  unfold execInvalidateComplete at h
  cases h
  refine MemOk.after (ctlTurn_memOk (fun t0 => ?_)) ?_
  · exact MemOk.ofOnly (invalidateDone_only (W := [.host]) rfl) rfl
  · exact MemOk.rfl

theorem execHostReadCompletion_memOk {a0 : Nat} {a1 : ReadResult} {a2 : Machine.State} {t : Machine.State} (h : execHostReadCompletion a0 a1 a2 = .next t) : MemOk a2 t := by
  unfold execHostReadCompletion at h
  cases h
  refine MemOk.after (ctlTurn_memOk (fun t0 => ?_)) ?_
  · exact readComplete_memOk
  · exact MemOk.rfl

theorem execCompletionTimeout_memOk {a0 : ReadRef} {a1 : Machine.State} {t : Machine.State} (h : execCompletionTimeout a0 a1 = .next t) : MemOk a1 t := by
  unfold execCompletionTimeout at h
  cases h
  refine MemOk.after (ctlTurn_memOk (fun t0 => ?_)) ?_
  · exact readTimeout_memOk
  · exact MemOk.rfl

theorem execAckDllp_memOk {a0 : Nat} {a1 : Machine.State} {t : Machine.State} (h : execAckDllp a0 a1 = .next t) : MemOk a1 t := by
  unfold execAckDllp at h
  cases h
  refine MemOk.after (ctlTurn_memOk (fun t0 => ?_)) ?_
  · exact MemOk.ofOnly (ackTlps_only (W := [.host, .rings]) rfl) rfl
  · exact MemOk.rfl

theorem execUnsupportedRequest_memOk {a0 : Nat} {a1 : Machine.State} {t : Machine.State} (h : execUnsupportedRequest a0 a1 = .next t) : MemOk a1 t := by
  unfold execUnsupportedRequest at h
  cases h
  refine MemOk.after (ctlTurn_memOk (fun t0 => ?_)) ?_
  · exact MemOk.ofOnly (windowError_only (W := [.host]) rfl) rfl
  · exact MemOk.rfl

theorem execPoisonedWindowWrite_memOk {a0 : Nat} {a1 : Machine.State} {t : Machine.State} (h : execPoisonedWindowWrite a0 a1 = .next t) : MemOk a1 t := by
  unfold execPoisonedWindowWrite at h
  cases h
  refine MemOk.after (ctlTurn_memOk (fun t0 => ?_)) ?_
  · refine MemOk.after (onlyIf_memOk (fun t1 => ?_)) ?_
    · exact MemOk.ofOnly (windowError_only (W := [.host]) rfl) rfl
    · exact MemOk.rfl
  · exact MemOk.rfl

theorem execUncorrectableInternalError_memOk {a0 : Machine.State} {t : Machine.State} (h : execUncorrectableInternalError a0 = .next t) : MemOk a0 t := by
  unfold execUncorrectableInternalError at h
  cases h
  refine MemOk.after (ctlTurn_memOk (fun t0 => ?_)) ?_
  · exact MemOk.ofOnly (fatalInternal_only (W := [.host]) rfl) rfl
  · exact MemOk.rfl

theorem execCoalTimeExpiry_memOk {a0 : Nat} {a1 : Nat} {a2 : Machine.State} {t : Machine.State} (h : execCoalTimeExpiry a0 a1 a2 = .next t) : MemOk a2 t := by
  unfold execCoalTimeExpiry at h
  cases h
  refine MemOk.after (ctlTurn_memOk (fun t0 => ?_)) ?_
  · exact MemOk.ofOnly (coalExpired_only (W := [.host, .rings]) rfl) rfl
  · exact MemOk.rfl

theorem execAspmL1Entry_memOk {a0 : Machine.State} {t : Machine.State} (h : execAspmL1Entry a0 = .next t) : MemOk a0 t := by
  unfold execAspmL1Entry at h
  cases h
  refine MemOk.after (ctlTurn_memOk (fun t0 => ?_)) ?_
  · exact MemOk.ofOnly (enterL1_only (W := [.host]) rfl) rfl
  · exact MemOk.rfl

theorem execMctpVdm_memOk {a0 : Nat} {a1 : Bytes} {a2 : Machine.State} {t : Machine.State} (h : execMctpVdm a0 a1 a2 = .next t) : MemOk a2 t := by
  unfold execMctpVdm at h
  cases h
  refine MemOk.after (ctlTurn_memOk (fun t0 => ?_)) ?_
  · exact MemOk.ofOnly (mctpVdm_only (W := [.adit, .rings]) rfl) rfl
  · exact MemOk.rfl

theorem execDblCtlEnSet_memOk {a0 : Nat} {a1 : W32} {a2 : Machine.State} {t : Machine.State} (h : execDblCtlEnSet a0 a1 a2 = .next t) : MemOk a2 t := by
  unfold execDblCtlEnSet at h
  cases h
  exact writeRow_memOk

theorem execDblCtlEnClear_memOk {a0 : Nat} {a1 : W32} {a2 : Machine.State} {t : Machine.State} (h : execDblCtlEnClear a0 a1 a2 = .next t) : MemOk a2 t := by
  unfold execDblCtlEnClear at h
  cases h
  exact writeRow_memOk

theorem execDoorbellPoll_memOk {a0 : Nat} {a1 : Machine.State} {t : Machine.State} (h : execDoorbellPoll a0 a1 = .next t) : MemOk a1 t := by
  unfold execDoorbellPoll at h
  cases h
  refine MemOk.after (ctlTurn_memOk (fun t0 => ?_)) ?_
  · exact MemOk.ofOnly (dblPoll_only (W := [.host]) rfl) rfl
  · exact MemOk.rfl

theorem execDoorbellTagFree_memOk {a0 : Nat} {a1 : Machine.State} {t : Machine.State} (h : execDoorbellTagFree a0 a1 = .next t) : MemOk a1 t := by
  unfold execDoorbellTagFree at h
  cases h
  refine MemOk.after (ctlTurn_memOk (fun t0 => ?_)) ?_
  · exact MemOk.ofOnly (dblTagFree_only (W := [.host]) rfl) rfl
  · exact MemOk.rfl

theorem execDoorbellReadComplete_memOk {a0 : Nat} {a1 : ReadResult} {a2 : Machine.State} {t : Machine.State} (h : execDoorbellReadComplete a0 a1 a2 = .next t) : MemOk a2 t := by
  unfold execDoorbellReadComplete at h
  cases h
  refine MemOk.after (ctlTurn_memOk (fun t0 => ?_)) ?_
  · exact MemOk.ofOnly (dblComplete_only (W := [.host, .rings]) rfl) rfl
  · exact MemOk.rfl

theorem execLnMessage_memOk {a0 : Nat} {a1 : Machine.State} {t : Machine.State} (h : execLnMessage a0 a1 = .next t) : MemOk a1 t := by
  unfold execLnMessage at h
  cases h
  refine MemOk.after (ctlTurn_memOk (fun t0 => ?_)) ?_
  · exact MemOk.ofOnly (lnMessage_only (W := [.host]) rfl) rfl
  · exact MemOk.rfl

theorem execLnBackstop_memOk {a0 : Nat} {a1 : Machine.State} {t : Machine.State} (h : execLnBackstop a0 a1 = .next t) : MemOk a1 t := by
  unfold execLnBackstop at h
  cases h
  refine MemOk.after (ctlTurn_memOk (fun t0 => ?_)) ?_
  · exact MemOk.ofOnly (lnBackstop_only (W := [.host]) rfl) rfl
  · exact MemOk.rfl

theorem execReceiverError_memOk {a0 : Machine.State} {t : Machine.State} (h : execReceiverError a0 = .next t) : MemOk a0 t := by
  unfold execReceiverError at h
  cases h
  refine MemOk.after (ctlTurn_memOk (fun t0 => ?_)) ?_
  · exact MemOk.ofOnly (aerCorrectable_only (W := [.host]) rfl) rfl
  · exact MemOk.rfl

theorem execCorrectedInternalError_memOk {a0 : Machine.State} {t : Machine.State} (h : execCorrectedInternalError a0 = .next t) : MemOk a0 t := by
  unfold execCorrectedInternalError at h
  cases h
  refine MemOk.after (ctlTurn_memOk (fun t0 => ?_)) ?_
  · exact MemOk.ofOnly (aerCorrectable_only (W := [.host]) rfl) rfl
  · exact MemOk.rfl

theorem execEcrcError_memOk {a0 : Nat} {a1 : Option ReadRef} {a2 : Machine.State} {t : Machine.State} (h : execEcrcError a0 a1 a2 = .next t) : MemOk a2 t := by
  unfold execEcrcError at h
  cases h
  refine MemOk.after (ctlTurn_memOk (fun t0 => ?_)) ?_
  · exact ecrcFail_memOk
  · exact MemOk.rfl

theorem execMalformedTlp_memOk {a0 : Machine.State} {t : Machine.State} (h : execMalformedTlp a0 = .next t) : MemOk a0 t := by
  unfold execMalformedTlp at h
  cases h
  refine MemOk.after (ctlTurn_memOk (fun t0 => ?_)) ?_
  · exact MemOk.ofOnly (aerUncorrectable_only (W := [.host]) rfl) rfl
  · exact MemOk.rfl

theorem execLinkEnSet_memOk {a0 : Nat} {a1 : W32} {a2 : Machine.State} {t : Machine.State} (h : execLinkEnSet a0 a1 a2 = .next t) : MemOk a2 t := by
  unfold execLinkEnSet at h
  cases h
  exact writeRow_memOk

theorem execLinkEnClear_memOk {a0 : Nat} {a1 : W32} {a2 : Machine.State} {t : Machine.State} (h : execLinkEnClear a0 a1 a2 = .next t) : MemOk a2 t := by
  unfold execLinkEnClear at h
  cases h
  exact writeRow_memOk

theorem execLaneStartupComplete_memOk {a0 : Nat} {a1 : Nat} {a2 : Machine.State} {t : Machine.State} (h : execLaneStartupComplete a0 a1 a2 = .next t) : MemOk a2 t := by
  unfold execLaneStartupComplete at h
  cases h
  refine MemOk.after (linkTurn_memOk (fun t0 => ?_)) ?_
  · exact MemOk.ofOnly (laneDone_only (W := [.host, .rings, .links]) rfl) rfl
  · exact MemOk.rfl

theorem execHello_memOk {a0 : Nat} {a1 : Bytes} {a2 : Machine.State} {t : Machine.State} (h : execHello a0 a1 a2 = .next t) : MemOk a2 t := by
  unfold execHello at h
  cases h
  refine MemOk.after (linkTurn_memOk (fun t0 => ?_)) ?_
  · exact MemOk.ofOnly (helloIn_only (W := [.host, .rings, .links]) rfl) rfl
  · exact MemOk.rfl

theorem execLinkTrainingTimeout_memOk {a0 : Nat} {a1 : Machine.State} {t : Machine.State} (h : execLinkTrainingTimeout a0 a1 = .next t) : MemOk a1 t := by
  unfold execLinkTrainingTimeout at h
  cases h
  refine MemOk.after (linkTurn_memOk (fun t0 => ?_)) ?_
  · exact MemOk.ofOnly (trainTimeout_only (W := [.host, .rings, .links]) rfl) rfl
  · exact MemOk.rfl

theorem execLinkRetryTimer_memOk {a0 : Nat} {a1 : Machine.State} {t : Machine.State} (h : execLinkRetryTimer a0 a1 = .next t) : MemOk a1 t := by
  unfold execLinkRetryTimer at h
  cases h
  refine MemOk.after (linkTurn_memOk (fun t0 => ?_)) ?_
  · exact MemOk.ofOnly (trainAgain_only (W := [.links]) rfl) rfl
  · exact MemOk.rfl

theorem execCodewordPairUncorrectable_memOk {a0 : Nat} {a1 : Machine.State} {t : Machine.State} (h : execCodewordPairUncorrectable a0 a1 = .next t) : MemOk a1 t := by
  unfold execCodewordPairUncorrectable at h
  cases h
  refine MemOk.after (linkTurn_memOk (fun t0 => ?_)) ?_
  · exact MemOk.ofOnly (pairLost_only (W := [.links]) rfl) rfl
  · exact MemOk.rfl

theorem execDataFlitReceived_memOk {a0 : Nat} {a1 : Bytes} {a2 : Machine.State} {t : Machine.State} (h : execDataFlitReceived a0 a1 a2 = .next t) : MemOk a2 t := by
  unfold execDataFlitReceived at h
  cases h
  refine MemOk.after (linkTurn_memOk (fun t0 => ?_)) ?_
  · exact MemOk.ofOnly (dataIn_only (W := [.adit, .links]) rfl) rfl
  · exact MemOk.rfl

theorem execLctlReceived_memOk {a0 : Nat} {a1 : Bytes} {a2 : Machine.State} {t : Machine.State} (h : execLctlReceived a0 a1 a2 = .next t) : MemOk a2 t := by
  unfold execLctlReceived at h
  cases h
  refine MemOk.after (linkTurn_memOk (fun t0 => ?_)) ?_
  · exact MemOk.ofOnly (lctlIn_only (W := [.links]) rfl) rfl
  · exact MemOk.rfl

theorem execReplayTimeout_memOk {a0 : Nat} {a1 : Machine.State} {t : Machine.State} (h : execReplayTimeout a0 a1 = .next t) : MemOk a1 t := by
  unfold execReplayTimeout at h
  cases h
  refine MemOk.after (linkTurn_memOk (fun t0 => ?_)) ?_
  · exact MemOk.ofOnly (replayNow_only (W := [.links]) rfl) rfl
  · exact MemOk.rfl

theorem execNakHoldoffExpiry_memOk {a0 : Nat} {a1 : Machine.State} {t : Machine.State} (h : execNakHoldoffExpiry a0 a1 = .next t) : MemOk a1 t := by
  unfold execNakHoldoffExpiry at h
  cases h
  refine MemOk.after (linkTurn_memOk (fun t0 => ?_)) ?_
  · exact MemOk.ofOnly (nakAgain_only (W := [.links]) rfl) rfl
  · exact MemOk.rfl

theorem execFlitSlotTransmit_memOk {a0 : Nat} {a1 : Machine.State} {t : Machine.State} (h : execFlitSlotTransmit a0 a1 = .next t) : MemOk a1 t := by
  unfold execFlitSlotTransmit at h
  cases h
  refine MemOk.after (linkTurn_memOk (fun t0 => ?_)) ?_
  · exact MemOk.ofOnly (flitSlot_only (W := [.adit, .links]) rfl) rfl
  · exact MemOk.rfl

theorem execAuditSend_memOk {a0 : Nat} {a1 : Machine.State} {t : Machine.State} (h : execAuditSend a0 a1 = .next t) : MemOk a1 t := by
  unfold execAuditSend at h
  cases h
  refine MemOk.after (linkTurn_memOk (fun t0 => ?_)) ?_
  · exact MemOk.ofOnly (auditNow_only (W := [.links]) rfl) rfl
  · exact MemOk.rfl

theorem execLaneLockLost_memOk {a0 : Nat} {a1 : Machine.State} {t : Machine.State} (h : execLaneLockLost a0 a1 = .next t) : MemOk a1 t := by
  unfold execLaneLockLost at h
  cases h
  refine MemOk.after (linkTurn_memOk (fun t0 => ?_)) ?_
  · exact MemOk.ofOnly (laneLost_only (W := [.links]) rfl) rfl
  · exact MemOk.rfl

theorem execFastRetrainComplete_memOk {a0 : Nat} {a1 : Machine.State} {t : Machine.State} (h : execFastRetrainComplete a0 a1 = .next t) : MemOk a1 t := by
  unfold execFastRetrainComplete at h
  cases h
  refine MemOk.after (linkTurn_memOk (fun t0 => ?_)) ?_
  · exact MemOk.ofOnly (retrainDone_only (W := [.links]) rfl) rfl
  · exact MemOk.rfl

theorem execFastRetrainTimeout_memOk {a0 : Nat} {a1 : Machine.State} {t : Machine.State} (h : execFastRetrainTimeout a0 a1 = .next t) : MemOk a1 t := by
  unfold execFastRetrainTimeout at h
  cases h
  refine MemOk.after (linkTurn_memOk (fun t0 => ?_)) ?_
  · exact MemOk.ofOnly (retrainLate_only (W := [.host, .rings, .links, .coll]) rfl) rfl
  · exact MemOk.rfl

theorem execPeerSilentTimeout_memOk {a0 : Nat} {a1 : Machine.State} {t : Machine.State} (h : execPeerSilentTimeout a0 a1 = .next t) : MemOk a1 t := by
  unfold execPeerSilentTimeout at h
  cases h
  refine MemOk.after (linkTurn_memOk (fun t0 => ?_)) ?_
  · exact MemOk.ofOnly (peerSilent_only (W := [.host, .rings, .links, .coll]) rfl) rfl
  · exact MemOk.rfl

theorem execMwrite_memOk {a0 : Nat} {a1 : Machine.State} {t : Machine.State} (h : execMwrite a0 a1 = .next t) : MemOk a1 t := by
  unfold execMwrite at h
  cases h
  refine MemOk.after (linkTurn_memOk (fun t0 => ?_)) ?_
  · refine MemOk.after (withMsg_memOk (fun _ t1 => ?_)) ?_
    · exact mwriteIn_memOk
    · exact MemOk.rfl
  · exact MemOk.rfl

theorem execMwriteLinesAcked_memOk {a0 : Nat} {a1 : Machine.State} {t : Machine.State} (h : execMwriteLinesAcked a0 a1 = .next t) : MemOk a1 t := by
  unfold execMwriteLinesAcked at h
  cases h
  refine MemOk.after (linkTurn_memOk (fun t0 => ?_)) ?_
  · exact MemOk.ofOnly (respReady_only (W := [.links]) rfl) rfl
  · exact MemOk.rfl

theorem execMread_memOk {a0 : Nat} {a1 : Machine.State} {t : Machine.State} (h : execMread a0 a1 = .next t) : MemOk a1 t := by
  unfold execMread at h
  cases h
  refine MemOk.after (linkTurn_memOk (fun t0 => ?_)) ?_
  · refine MemOk.after (withMsg_memOk (fun _ t1 => ?_)) ?_
    · exact MemOk.ofOnly (mreadIn_only (W := [.free, .links]) rfl) rfl
    · exact MemOk.rfl
  · exact MemOk.rfl

theorem execMreadDataReady_memOk {a0 : Nat} {a1 : Machine.State} {t : Machine.State} (h : execMreadDataReady a0 a1 = .next t) : MemOk a1 t := by
  unfold execMreadDataReady at h
  cases h
  refine MemOk.after (linkTurn_memOk (fun t0 => ?_)) ?_
  · exact MemOk.ofOnly (respReady_only (W := [.links]) rfl) rfl
  · exact MemOk.rfl

theorem execMdata_memOk {a0 : Nat} {a1 : Machine.State} {t : Machine.State} (h : execMdata a0 a1 = .next t) : MemOk a1 t := by
  unfold execMdata at h
  cases h
  refine MemOk.after (linkTurn_memOk (fun t0 => ?_)) ?_
  · refine MemOk.after (withMsg_memOk (fun _ t1 => ?_)) ?_
    · exact mdataIn_memOk
    · exact MemOk.rfl
  · exact MemOk.rfl

theorem execMack_memOk {a0 : Nat} {a1 : Machine.State} {t : Machine.State} (h : execMack a0 a1 = .next t) : MemOk a1 t := by
  unfold execMack at h
  cases h
  refine MemOk.after (linkTurn_memOk (fun t0 => ?_)) ?_
  · refine MemOk.after (withMsg_memOk (fun _ t1 => ?_)) ?_
    · exact MemOk.ofOnly (mackIn_only (W := [.links]) rfl) rfl
    · exact MemOk.rfl
  · exact MemOk.rfl

theorem execVcMemTimeout_memOk {a0 : Nat} {a1 : Nat} {a2 : Machine.State} {t : Machine.State} (h : execVcMemTimeout a0 a1 a2 = .next t) : MemOk a2 t := by
  unfold execVcMemTimeout at h
  cases h
  refine MemOk.after (linkTurn_memOk (fun t0 => ?_)) ?_
  · exact MemOk.ofOnly (memTimeout_only (W := [.links, .coll]) rfl) rfl
  · exact MemOk.rfl

theorem execLinkErrRateTimer_memOk {a0 : Nat} {a1 : Nat} {a2 : Machine.State} {t : Machine.State} (h : execLinkErrRateTimer a0 a1 a2 = .next t) : MemOk a2 t := by
  unfold execLinkErrRateTimer at h
  cases h
  refine MemOk.after (linkTurn_memOk (fun t0 => ?_)) ?_
  · exact MemOk.ofOnly (linkErrRate_only (W := [.host, .rings, .links]) rfl) rfl
  · exact MemOk.rfl

theorem execSetStateEffecterStates_memOk {a0 : Machine.State} {t : Machine.State} (h : execSetStateEffecterStates a0 = .next t) : MemOk a0 t := by
  unfold execSetStateEffecterStates at h
  cases h
  refine MemOk.after (mgmtTurn_memOk (fun t0 => ?_)) ?_
  · exact setState_memOk
  · exact MemOk.rfl

theorem execModuleCycle_memOk {a0 : Machine.State} {t : Machine.State} (h : execModuleCycle a0 = .next t) : MemOk a0 t := by
  unfold execModuleCycle at h
  cases h
  refine MemOk.after (mgmtTurn_memOk (fun t0 => ?_)) ?_
  · exact moduleCycle_memOk
  · exact MemOk.rfl

theorem execTraceCtlEnWrite_memOk {a0 : W32} {a1 : Machine.State} {t : Machine.State} (h : execTraceCtlEnWrite a0 a1 = .next t) : MemOk a1 t := by
  unfold execTraceCtlEnWrite at h
  cases h
  exact writeRow_memOk

theorem execRegisterWrite_memOk {a0 : Nat} {a1 : Nat} {a2 : Nat} {a3 : W64} {a4 : Machine.State} {t : Machine.State} (h : execRegisterWrite a0 a1 a2 a3 a4 = .next t) : MemOk a4 t := by
  unfold execRegisterWrite at h
  cases h
  exact writeReg_memOk

theorem execSwapOutComplete_memOk {a0 : Nat} {a1 : Machine.State} {t : Machine.State} (h : execSwapOutComplete a0 a1 = .next t) : MemOk a1 t := by
  unfold execSwapOutComplete at h
  cases h
  refine MemOk.after (ctlTurn_memOk (fun t0 => ?_)) ?_
  · exact MemOk.ofOnly (swapDone_only (W := [.rings]) rfl) rfl
  · exact MemOk.rfl

theorem execSlotStateLoaded_memOk {a0 : Nat} {a1 : Machine.State} {t : Machine.State} (h : execSlotStateLoaded a0 a1 = .next t) : MemOk a1 t := by
  unfold execSlotStateLoaded at h
  cases h
  refine MemOk.after (ctlTurn_memOk (fun t0 => ?_)) ?_
  · exact MemOk.ofOnly (slotLoaded_only (W := [.rings]) rfl) rfl
  · exact MemOk.rfl

theorem execRingIdleTimeout_memOk {a0 : Nat} {a1 : Machine.State} {t : Machine.State} (h : execRingIdleTimeout a0 a1 = .next t) : MemOk a1 t := by
  unfold execRingIdleTimeout at h
  cases h
  refine MemOk.after (ctlTurn_memOk (fun t0 => ?_)) ?_
  · exact MemOk.ofOnly (idleOut_only (W := [.rings]) rfl) rfl
  · exact MemOk.rfl

theorem execRingBound50us_memOk {a0 : Nat} {a1 : Machine.State} {t : Machine.State} (h : execRingBound50us a0 a1 = .next t) : MemOk a1 t := by
  unfold execRingBound50us at h
  cases h
  refine MemOk.after (ctlTurn_memOk (fun t0 => ?_)) ?_
  · exact MemOk.ofOnly (boundLong_only (W := [.rings]) rfl) rfl
  · exact MemOk.rfl

theorem execRingEnSet_memOk {a0 : Nat} {a1 : Nat} {a2 : W32} {a3 : Machine.State} {t : Machine.State} (h : execRingEnSet a0 a1 a2 a3 = .next t) : MemOk a3 t := by
  unfold execRingEnSet at h
  cases h
  exact writeRow_memOk

theorem execRingEnClear_memOk {a0 : Nat} {a1 : Nat} {a2 : W32} {a3 : Machine.State} {t : Machine.State} (h : execRingEnClear a0 a1 a2 a3 = .next t) : MemOk a3 t := by
  unfold execRingEnClear at h
  cases h
  exact writeRow_memOk

theorem execRptCfgEnSet_memOk {a0 : Nat} {a1 : W32} {a2 : Machine.State} {t : Machine.State} (h : execRptCfgEnSet a0 a1 a2 = .next t) : MemOk a2 t := by
  unfold execRptCfgEnSet at h
  cases h
  exact writeRow_memOk

theorem execRptCfgEnClear_memOk {a0 : Nat} {a1 : W32} {a2 : Machine.State} {t : Machine.State} (h : execRptCfgEnClear a0 a1 a2 = .next t) : MemOk a2 t := by
  unfold execRptCfgEnClear at h
  cases h
  exact writeRow_memOk

theorem execDescriptorFetch_memOk {a0 : Nat} {a1 : Machine.State} {t : Machine.State} (h : execDescriptorFetch a0 a1 = .next t) : MemOk a1 t := by
  unfold execDescriptorFetch at h
  cases h
  refine MemOk.after (ctlTurn_memOk (fun t0 => ?_)) ?_
  · exact MemOk.ofOnly (issueDescr_only (W := [.host, .rings]) rfl) rfl
  · exact MemOk.rfl

theorem execDescriptorReadComplete_memOk {a0 : Nat} {a1 : Bytes} {a2 : Option ReadFail} {a3 : Machine.State} {t : Machine.State} (h : execDescriptorReadComplete a0 a1 a2 a3 = .next t) : MemOk a3 t := by
  unfold execDescriptorReadComplete at h
  cases h
  refine MemOk.after (ctlTurn_memOk (fun t0 => ?_)) ?_
  · exact MemOk.ofOnly (descrComplete_only (W := [.host, .rings]) rfl) rfl
  · exact MemOk.rfl

theorem execUndefinedOpcode_memOk {a0 : Nat} {a1 : Nat} {a2 : Machine.State} {t : Machine.State} (h : execUndefinedOpcode a0 a1 a2 = .next t) : MemOk a2 t := by
  unfold execUndefinedOpcode at h
  cases h
  exact ringUnknown_memOk

theorem execNop_memOk {a0 : Nat} {a1 : Nat} {a2 : Machine.State} {t : Machine.State} (h : execNop a0 a1 a2 = .next t) : MemOk a2 t := by
  unfold execNop at h
  cases h
  refine MemOk.after (ringOp_memOk (fun _ t0 => ?_)) ?_
  · exact MemOk.ofOnly (endOk_only (W := [.rings]) rfl) rfl
  · exact MemOk.rfl

theorem execCopyH2d_memOk {a0 : Nat} {a1 : Nat} {a2 : Machine.State} {t : Machine.State} (h : execCopyH2d a0 a1 a2 = .next t) : MemOk a2 t := by
  unfold execCopyH2d at h
  cases h
  refine MemOk.after (ringOp_memOk (fun _ t0 => ?_)) ?_
  · exact MemOk.ofOnly (bodyCopy_only (W := [.free, .host, .rings, .cages]) rfl) rfl
  · exact MemOk.rfl

theorem execCopyD2h_memOk {a0 : Nat} {a1 : Nat} {a2 : Machine.State} {t : Machine.State} (h : execCopyD2h a0 a1 a2 = .next t) : MemOk a2 t := by
  unfold execCopyD2h at h
  cases h
  refine MemOk.after (ringOp_memOk (fun _ t0 => ?_)) ?_
  · exact MemOk.ofOnly (bodyCopy_only (W := [.free, .host, .rings, .cages]) rfl) rfl
  · exact MemOk.rfl

theorem execCopyD2d_memOk {a0 : Nat} {a1 : Nat} {a2 : Machine.State} {t : Machine.State} (h : execCopyD2d a0 a1 a2 = .next t) : MemOk a2 t := by
  unfold execCopyD2d at h
  cases h
  refine MemOk.after (ringOp_memOk (fun _ t0 => ?_)) ?_
  · exact MemOk.ofOnly (bodyCopy_only (W := [.free, .host, .rings, .cages]) rfl) rfl
  · exact MemOk.rfl

theorem execFill_memOk {a0 : Nat} {a1 : Nat} {a2 : Machine.State} {t : Machine.State} (h : execFill a0 a1 a2 = .next t) : MemOk a2 t := by
  unfold execFill at h
  cases h
  refine MemOk.after (ringOp_memOk (fun _ t0 => ?_)) ?_
  · exact MemOk.ofOnly (bodyCopy_only (W := [.free, .host, .rings, .cages]) rfl) rfl
  · exact MemOk.rfl

theorem execEventSignal_memOk {a0 : Nat} {a1 : Nat} {a2 : Machine.State} {t : Machine.State} (h : execEventSignal a0 a1 a2 = .next t) : MemOk a2 t := by
  unfold execEventSignal at h
  cases h
  refine MemOk.after (ringOp_memOk (fun _ t0 => ?_)) ?_
  · exact MemOk.ofOnly (bodySignal_only (W := [.rings]) rfl) rfl
  · exact MemOk.rfl

theorem execEventWait_memOk {a0 : Nat} {a1 : Nat} {a2 : Machine.State} {t : Machine.State} (h : execEventWait a0 a1 a2 = .next t) : MemOk a2 t := by
  unfold execEventWait at h
  cases h
  refine MemOk.after (ringOp_memOk (fun _ t0 => ?_)) ?_
  · exact MemOk.ofOnly (bodyWait_only (W := [.rings]) rfl) rfl
  · exact MemOk.rfl

theorem execEventWaitMet_memOk {a0 : Nat} {a1 : Machine.State} {t : Machine.State} (h : execEventWaitMet a0 a1 = .next t) : MemOk a1 t := by
  unfold execEventWaitMet at h
  cases h
  refine MemOk.after (ctlTurn_memOk (fun t0 => ?_)) ?_
  · exact MemOk.ofOnly (waitReached_only (W := [.rings]) rfl) rfl
  · exact MemOk.rfl

theorem execEventWaitTimeout_memOk {a0 : Nat} {a1 : Machine.State} {t : Machine.State} (h : execEventWaitTimeout a0 a1 = .next t) : MemOk a1 t := by
  unfold execEventWaitTimeout at h
  cases h
  refine MemOk.after (ctlTurn_memOk (fun t0 => ?_)) ?_
  · exact MemOk.ofOnly (waitTimeout_only (W := [.rings]) rfl) rfl
  · exact MemOk.rfl

theorem execHostWrite_memOk {a0 : Nat} {a1 : Nat} {a2 : Machine.State} {t : Machine.State} (h : execHostWrite a0 a1 a2 = .next t) : MemOk a2 t := by
  unfold execHostWrite at h
  cases h
  refine MemOk.after (ringOp_memOk (fun _ t0 => ?_)) ?_
  · exact MemOk.ofOnly (bodyHostWrite_only (W := [.host, .rings]) rfl) rfl
  · exact MemOk.rfl

theorem execSchedSet_memOk {a0 : Nat} {a1 : Nat} {a2 : Machine.State} {t : Machine.State} (h : execSchedSet a0 a1 a2 = .next t) : MemOk a2 t := by
  unfold execSchedSet at h
  cases h
  refine MemOk.after (ringOp_memOk (fun _ t0 => ?_)) ?_
  · exact MemOk.ofOnly (bodySched_only (W := [.rings, .cages]) rfl) rfl
  · exact MemOk.rfl

theorem execPolicy_memOk {a0 : Nat} {a1 : Nat} {a2 : Machine.State} {t : Machine.State} (h : execPolicy a0 a1 a2 = .next t) : MemOk a2 t := by
  unfold execPolicy at h
  cases h
  refine MemOk.after (ringOp_memOk (fun _ t0 => ?_)) ?_
  · exact MemOk.ofOnly (bodyPolicy_only (W := [.adit, .rings]) rfl) rfl
  · exact MemOk.rfl

theorem execPinnedWriteResume_memOk {a0 : Nat} {a1 : Machine.State} {t : Machine.State} (h : execPinnedWriteResume a0 a1 = .next t) : MemOk a1 t := by
  unfold execPinnedWriteResume at h
  cases h
  refine MemOk.after (ctlTurn_memOk (fun t0 => ?_)) ?_
  · exact MemOk.ofOnly (pinResume_only (W := [.rings]) rfl) rfl
  · exact MemOk.rfl

theorem execCommandComplete_memOk {a0 : Nat} {a1 : Machine.State} {t : Machine.State} (h : execCommandComplete a0 a1 = .next t) : MemOk a1 t := by
  unfold execCommandComplete at h
  cases h
  refine MemOk.after (ctlTurn_memOk (fun t0 => ?_)) ?_
  · exact MemOk.ofOnly (tryComplete_only (W := [.host, .rings, .cages]) rfl) rfl
  · exact MemOk.rfl

theorem execStackLineAccess_memOk {a0 : Nat} {a1 : LineOp} {a2 : LineErr} {a3 t : Machine.State} (h : execStackLineAccess a0 a1 a2 a3 = .next t) : MemOk a3 t := by
  unfold execStackLineAccess at h
  split at h
  · cases h
    refine MemOk.after (dataTurn_memOk (fun t0 => ?_)) ?_
    · exact lineTurn_memOk
    · exact MemOk.rfl
  · cases h

theorem execStackReadout_memOk {a0 : Nat} {a1 : Option Int} {a2 : Machine.State} {t : Machine.State} (h : execStackReadout a0 a1 a2 = .next t) : MemOk a2 t := by
  unfold execStackReadout at h
  cases h
  refine MemOk.after (edgeTurn_memOk (fun t0 => ?_)) ?_
  · exact stackRead_memOk
  · exact MemOk.rfl

theorem execPatrolScrubRead_memOk {a0 : Nat} {a1 : LineErr} {a2 : Machine.State} {t : Machine.State} (h : execPatrolScrubRead a0 a1 a2 = .next t) : MemOk a2 t := by
  unfold execPatrolScrubRead at h
  cases h
  refine MemOk.after (dataTurn_memOk (fun t0 => ?_)) ?_
  · exact patrolTurn_memOk
  · exact MemOk.rfl

theorem execStackCeRateTimer_memOk {a0 : Nat} {a1 : Machine.State} {t : Machine.State} (h : execStackCeRateTimer a0 a1 = .next t) : MemOk a1 t := by
  unfold execStackCeRateTimer at h
  cases h
  refine MemOk.after (dataTurn_memOk (fun t0 => ?_)) ?_
  · refine MemOk.after (onlyIf_memOk (fun t1 => ?_)) ?_
    · exact ceRate_memOk
    · exact MemOk.rfl
  · exact MemOk.rfl

theorem execScrubCtlLock_memOk {a0 : W32} {a1 : Machine.State} {t : Machine.State} (h : execScrubCtlLock a0 a1 = .next t) : MemOk a1 t := by
  unfold execScrubCtlLock at h
  cases h
  exact writeRow_memOk

theorem execStackTrainingEnd_memOk {a0 : Nat} {a1 : Machine.State} {t : Machine.State} (h : execStackTrainingEnd a0 a1 = .next t) : MemOk a1 t := by
  unfold execStackTrainingEnd at h
  cases h
  refine MemOk.after (ctlTurn_memOk (fun t0 => ?_)) ?_
  · exact trainedAll_memOk
  · exact MemOk.rfl

theorem execAuxApplied_memOk {a0 : Nat} {a1 : Nat} {a2 : Nat} {a3 : Bool} {a4 : Machine.State} {t : Machine.State} (h : execAuxApplied a0 a1 a2 a3 a4 = .next t) : MemOk a4 t := by
  unfold execAuxApplied at h
  cases h
  refine MemOk.after (edgeTurn_memOk (fun t0 => ?_)) ?_
  · exact auxApplied_memOk
  · exact MemOk.rfl

theorem execAuxBrownOut_memOk {a0 : Machine.State} {t : Machine.State} (h : execAuxBrownOut a0 = .next t) : MemOk a0 t := by
  unfold execAuxBrownOut at h
  cases h
  refine MemOk.after (edgeTurn_memOk (fun t0 => ?_)) ?_
  · exact brownOut_memOk
  · exact MemOk.rfl

theorem execModuleReset_memOk {a0 : Nat} {a1 : Nat} {a2 : Nat} {a3 : Machine.State} {t : Machine.State} (h : execModuleReset a0 a1 a2 a3 = .next t) : MemOk a3 t := by
  unfold execModuleReset at h
  cases h
  refine MemOk.after (edgeTurn_memOk (fun t0 => ?_)) ?_
  · exact moduleReset_memOk
  · exact MemOk.rfl

theorem execStewardBootComplete_memOk {a0 : Machine.State} {t : Machine.State} (h : execStewardBootComplete a0 = .next t) : MemOk a0 t := by
  unfold execStewardBootComplete at h
  cases h
  refine MemOk.after (edgeTurn_memOk (fun t0 => ?_)) ?_
  · exact boot_memOk
  · exact MemOk.rfl

theorem execPciePerstAssert_memOk {a0 : Machine.State} {t : Machine.State} (h : execPciePerstAssert a0 = .next t) : MemOk a0 t := by
  unfold execPciePerstAssert at h
  cases h
  refine MemOk.after (edgeTurn_memOk (fun t0 => ?_)) ?_
  · exact perstLow_memOk
  · exact MemOk.rfl

theorem execHotReset_memOk {a0 : Machine.State} {t : Machine.State} (h : execHotReset a0 = .next t) : MemOk a0 t := by
  unfold execHotReset at h
  cases h
  refine MemOk.after (edgeTurn_memOk (fun t0 => ?_)) ?_
  · exact pcieReset_memOk
  · exact MemOk.rfl

theorem execDlDown_memOk {a0 : Machine.State} {t : Machine.State} (h : execDlDown a0 = .next t) : MemOk a0 t := by
  unfold execDlDown at h
  cases h
  refine MemOk.after (edgeTurn_memOk (fun t0 => ?_)) ?_
  · exact pcieReset_memOk
  · exact MemOk.rfl

theorem execTapInstruction_memOk {a0 : Nat} {a1 : Machine.State} {t : Machine.State} (h : execTapInstruction a0 a1 = .next t) : MemOk a1 t := by
  unfold execTapInstruction at h
  cases h
  refine MemOk.after (edgeTurn_memOk (fun t0 => ?_)) ?_
  · exact tapInstruction_memOk
  · exact MemOk.rfl

theorem execDieTrip_memOk {a0 : Machine.State} {t : Machine.State} (h : execDieTrip a0 = .next t) : MemOk a0 t := by
  unfold execDieTrip at h
  cases h
  refine MemOk.after (edgeTurn_memOk (fun t0 => ?_)) ?_
  · exact dieTrip_memOk
  · exact MemOk.rfl

theorem execLeakTapeWet_memOk {a0 : Machine.State} {t : Machine.State} (h : execLeakTapeWet a0 = .next t) : MemOk a0 t := by
  unfold execLeakTapeWet at h
  cases h
  refine MemOk.after (edgeTurn_memOk (fun t0 => ?_)) ?_
  · exact tapeIsWet_memOk
  · exact MemOk.rfl

theorem execExternalTrip_memOk {a0 : Nat} {a1 : Machine.State} {t : Machine.State} (h : execExternalTrip a0 a1 = .next t) : MemOk a1 t := by
  unfold execExternalTrip at h
  cases h
  refine MemOk.after (edgeTurn_memOk (fun t0 => ?_)) ?_
  · exact externalTrip_memOk
  · exact MemOk.rfl

theorem execMainSupplyTimeout_memOk {a0 : Machine.State} {t : Machine.State} (h : execMainSupplyTimeout a0 = .next t) : MemOk a0 t := by
  unfold execMainSupplyTimeout at h
  cases h
  refine MemOk.after (edgeTurn_memOk (fun t0 => ?_)) ?_
  · exact mainTimeout_memOk
  · exact MemOk.rfl

theorem execMainLost_memOk {a0 : Machine.State} {t : Machine.State} (h : execMainLost a0 = .next t) : MemOk a0 t := by
  unfold execMainLost at h
  cases h
  refine MemOk.after (edgeTurn_memOk (fun t0 => ?_)) ?_
  · exact mainLost_memOk
  · exact MemOk.rfl

theorem execMainOffRelease_memOk {a0 : Machine.State} {t : Machine.State} (h : execMainOffRelease a0 = .next t) : MemOk a0 t := by
  unfold execMainOffRelease at h
  cases h
  refine MemOk.after (edgeTurn_memOk (fun t0 => ?_)) ?_
  · exact mainOffRelease_memOk
  · exact MemOk.rfl

end Sys2Proof.Machine
end

