-- ==== Sys2Proof/Laws/State.lean ====
section
/-! SUPPORT. What each update of the state does to each part of it, and the laws of the sparse tables. -/

namespace Sys2Proof.Machine

open Sys2Proof

/-! ### Parts of the state under updates of a whole part -/

@[simp] theorem State.modHost_pending (s : State) (f : HostLink → HostLink) : (s.modHost f).pending = s.pending := rfl
@[simp] theorem State.modHost_free (s : State) (f : HostLink → HostLink) : (s.modHost f).free = s.free := rfl
@[simp] theorem State.modHost_now (s : State) (f : HostLink → HostLink) : (s.modHost f).now = s.now := rfl
@[simp] theorem State.modHost_ao (s : State) (f : HostLink → HostLink) : (s.modHost f).ao = s.ao := rfl
@[simp] theorem State.modHost_sup (s : State) (f : HostLink → HostLink) : (s.modHost f).sup = s.sup := rfl
@[simp] theorem State.modHost_adit (s : State) (f : HostLink → HostLink) : (s.modHost f).adit = s.adit := rfl
@[simp] theorem State.modHost_host (s : State) (f : HostLink → HostLink) : (s.modHost f).host = f s.host := rfl
@[simp] theorem State.modHost_rings (s : State) (f : HostLink → HostLink) : (s.modHost f).rings = s.rings := rfl
@[simp] theorem State.modHost_cages (s : State) (f : HostLink → HostLink) : (s.modHost f).cages = s.cages := rfl
@[simp] theorem State.modHost_beat (s : State) (f : HostLink → HostLink) : (s.modHost f).beat = s.beat := rfl
@[simp] theorem State.modHost_mem (s : State) (f : HostLink → HostLink) : (s.modHost f).mem = s.mem := rfl
@[simp] theorem State.modHost_mgmt (s : State) (f : HostLink → HostLink) : (s.modHost f).mgmt = s.mgmt := rfl
@[simp] theorem State.modHost_links (s : State) (f : HostLink → HostLink) : (s.modHost f).links = s.links := rfl
@[simp] theorem State.modHost_coll (s : State) (f : HostLink → HostLink) : (s.modHost f).coll = s.coll := rfl
@[simp] theorem State.modHost_power (s : State) (f : HostLink → HostLink) : (s.modHost f).power = s.power := rfl
@[simp] theorem State.modHost_heat (s : State) (f : HostLink → HostLink) : (s.modHost f).heat = s.heat := rfl
@[simp] theorem State.modHost_pump (s : State) (f : HostLink → HostLink) : (s.modHost f).pump = s.pump := rfl
@[simp] theorem State.modHost_bus (s : State) (f : HostLink → HostLink) : (s.modHost f).bus = s.bus := rfl
@[simp] theorem State.modHost_ward (s : State) (f : HostLink → HostLink) : (s.modHost f).ward = s.ward := rfl

@[simp] theorem State.modRings_pending (s : State) (f : Rings → Rings) : (s.modRings f).pending = s.pending := rfl
@[simp] theorem State.modRings_free (s : State) (f : Rings → Rings) : (s.modRings f).free = s.free := rfl
@[simp] theorem State.modRings_now (s : State) (f : Rings → Rings) : (s.modRings f).now = s.now := rfl
@[simp] theorem State.modRings_ao (s : State) (f : Rings → Rings) : (s.modRings f).ao = s.ao := rfl
@[simp] theorem State.modRings_sup (s : State) (f : Rings → Rings) : (s.modRings f).sup = s.sup := rfl
@[simp] theorem State.modRings_adit (s : State) (f : Rings → Rings) : (s.modRings f).adit = s.adit := rfl
@[simp] theorem State.modRings_host (s : State) (f : Rings → Rings) : (s.modRings f).host = s.host := rfl
@[simp] theorem State.modRings_rings (s : State) (f : Rings → Rings) : (s.modRings f).rings = f s.rings := rfl
@[simp] theorem State.modRings_cages (s : State) (f : Rings → Rings) : (s.modRings f).cages = s.cages := rfl
@[simp] theorem State.modRings_beat (s : State) (f : Rings → Rings) : (s.modRings f).beat = s.beat := rfl
@[simp] theorem State.modRings_mem (s : State) (f : Rings → Rings) : (s.modRings f).mem = s.mem := rfl
@[simp] theorem State.modRings_mgmt (s : State) (f : Rings → Rings) : (s.modRings f).mgmt = s.mgmt := rfl
@[simp] theorem State.modRings_links (s : State) (f : Rings → Rings) : (s.modRings f).links = s.links := rfl
@[simp] theorem State.modRings_coll (s : State) (f : Rings → Rings) : (s.modRings f).coll = s.coll := rfl
@[simp] theorem State.modRings_power (s : State) (f : Rings → Rings) : (s.modRings f).power = s.power := rfl
@[simp] theorem State.modRings_heat (s : State) (f : Rings → Rings) : (s.modRings f).heat = s.heat := rfl
@[simp] theorem State.modRings_pump (s : State) (f : Rings → Rings) : (s.modRings f).pump = s.pump := rfl
@[simp] theorem State.modRings_bus (s : State) (f : Rings → Rings) : (s.modRings f).bus = s.bus := rfl
@[simp] theorem State.modRings_ward (s : State) (f : Rings → Rings) : (s.modRings f).ward = s.ward := rfl

@[simp] theorem State.modCages_pending (s : State) (f : Cages → Cages) : (s.modCages f).pending = s.pending := rfl
@[simp] theorem State.modCages_free (s : State) (f : Cages → Cages) : (s.modCages f).free = s.free := rfl
@[simp] theorem State.modCages_now (s : State) (f : Cages → Cages) : (s.modCages f).now = s.now := rfl
@[simp] theorem State.modCages_ao (s : State) (f : Cages → Cages) : (s.modCages f).ao = s.ao := rfl
@[simp] theorem State.modCages_sup (s : State) (f : Cages → Cages) : (s.modCages f).sup = s.sup := rfl
@[simp] theorem State.modCages_adit (s : State) (f : Cages → Cages) : (s.modCages f).adit = s.adit := rfl
@[simp] theorem State.modCages_host (s : State) (f : Cages → Cages) : (s.modCages f).host = s.host := rfl
@[simp] theorem State.modCages_rings (s : State) (f : Cages → Cages) : (s.modCages f).rings = s.rings := rfl
@[simp] theorem State.modCages_cages (s : State) (f : Cages → Cages) : (s.modCages f).cages = f s.cages := rfl
@[simp] theorem State.modCages_beat (s : State) (f : Cages → Cages) : (s.modCages f).beat = s.beat := rfl
@[simp] theorem State.modCages_mem (s : State) (f : Cages → Cages) : (s.modCages f).mem = s.mem := rfl
@[simp] theorem State.modCages_mgmt (s : State) (f : Cages → Cages) : (s.modCages f).mgmt = s.mgmt := rfl
@[simp] theorem State.modCages_links (s : State) (f : Cages → Cages) : (s.modCages f).links = s.links := rfl
@[simp] theorem State.modCages_coll (s : State) (f : Cages → Cages) : (s.modCages f).coll = s.coll := rfl
@[simp] theorem State.modCages_power (s : State) (f : Cages → Cages) : (s.modCages f).power = s.power := rfl
@[simp] theorem State.modCages_heat (s : State) (f : Cages → Cages) : (s.modCages f).heat = s.heat := rfl
@[simp] theorem State.modCages_pump (s : State) (f : Cages → Cages) : (s.modCages f).pump = s.pump := rfl
@[simp] theorem State.modCages_bus (s : State) (f : Cages → Cages) : (s.modCages f).bus = s.bus := rfl
@[simp] theorem State.modCages_ward (s : State) (f : Cages → Cages) : (s.modCages f).ward = s.ward := rfl

@[simp] theorem State.modBeat_pending (s : State) (f : BeatBlk → BeatBlk) : (s.modBeat f).pending = s.pending := rfl
@[simp] theorem State.modBeat_free (s : State) (f : BeatBlk → BeatBlk) : (s.modBeat f).free = s.free := rfl
@[simp] theorem State.modBeat_now (s : State) (f : BeatBlk → BeatBlk) : (s.modBeat f).now = s.now := rfl
@[simp] theorem State.modBeat_ao (s : State) (f : BeatBlk → BeatBlk) : (s.modBeat f).ao = s.ao := rfl
@[simp] theorem State.modBeat_sup (s : State) (f : BeatBlk → BeatBlk) : (s.modBeat f).sup = s.sup := rfl
@[simp] theorem State.modBeat_adit (s : State) (f : BeatBlk → BeatBlk) : (s.modBeat f).adit = s.adit := rfl
@[simp] theorem State.modBeat_host (s : State) (f : BeatBlk → BeatBlk) : (s.modBeat f).host = s.host := rfl
@[simp] theorem State.modBeat_rings (s : State) (f : BeatBlk → BeatBlk) : (s.modBeat f).rings = s.rings := rfl
@[simp] theorem State.modBeat_cages (s : State) (f : BeatBlk → BeatBlk) : (s.modBeat f).cages = s.cages := rfl
@[simp] theorem State.modBeat_beat (s : State) (f : BeatBlk → BeatBlk) : (s.modBeat f).beat = f s.beat := rfl
@[simp] theorem State.modBeat_mem (s : State) (f : BeatBlk → BeatBlk) : (s.modBeat f).mem = s.mem := rfl
@[simp] theorem State.modBeat_mgmt (s : State) (f : BeatBlk → BeatBlk) : (s.modBeat f).mgmt = s.mgmt := rfl
@[simp] theorem State.modBeat_links (s : State) (f : BeatBlk → BeatBlk) : (s.modBeat f).links = s.links := rfl
@[simp] theorem State.modBeat_coll (s : State) (f : BeatBlk → BeatBlk) : (s.modBeat f).coll = s.coll := rfl
@[simp] theorem State.modBeat_power (s : State) (f : BeatBlk → BeatBlk) : (s.modBeat f).power = s.power := rfl
@[simp] theorem State.modBeat_heat (s : State) (f : BeatBlk → BeatBlk) : (s.modBeat f).heat = s.heat := rfl
@[simp] theorem State.modBeat_pump (s : State) (f : BeatBlk → BeatBlk) : (s.modBeat f).pump = s.pump := rfl
@[simp] theorem State.modBeat_bus (s : State) (f : BeatBlk → BeatBlk) : (s.modBeat f).bus = s.bus := rfl
@[simp] theorem State.modBeat_ward (s : State) (f : BeatBlk → BeatBlk) : (s.modBeat f).ward = s.ward := rfl

@[simp] theorem State.modMem_pending (s : State) (f : MemBlk → MemBlk) : (s.modMem f).pending = s.pending := rfl
@[simp] theorem State.modMem_free (s : State) (f : MemBlk → MemBlk) : (s.modMem f).free = s.free := rfl
@[simp] theorem State.modMem_now (s : State) (f : MemBlk → MemBlk) : (s.modMem f).now = s.now := rfl
@[simp] theorem State.modMem_ao (s : State) (f : MemBlk → MemBlk) : (s.modMem f).ao = s.ao := rfl
@[simp] theorem State.modMem_sup (s : State) (f : MemBlk → MemBlk) : (s.modMem f).sup = s.sup := rfl
@[simp] theorem State.modMem_adit (s : State) (f : MemBlk → MemBlk) : (s.modMem f).adit = s.adit := rfl
@[simp] theorem State.modMem_host (s : State) (f : MemBlk → MemBlk) : (s.modMem f).host = s.host := rfl
@[simp] theorem State.modMem_rings (s : State) (f : MemBlk → MemBlk) : (s.modMem f).rings = s.rings := rfl
@[simp] theorem State.modMem_cages (s : State) (f : MemBlk → MemBlk) : (s.modMem f).cages = s.cages := rfl
@[simp] theorem State.modMem_beat (s : State) (f : MemBlk → MemBlk) : (s.modMem f).beat = s.beat := rfl
@[simp] theorem State.modMem_mem (s : State) (f : MemBlk → MemBlk) : (s.modMem f).mem = f s.mem := rfl
@[simp] theorem State.modMem_mgmt (s : State) (f : MemBlk → MemBlk) : (s.modMem f).mgmt = s.mgmt := rfl
@[simp] theorem State.modMem_links (s : State) (f : MemBlk → MemBlk) : (s.modMem f).links = s.links := rfl
@[simp] theorem State.modMem_coll (s : State) (f : MemBlk → MemBlk) : (s.modMem f).coll = s.coll := rfl
@[simp] theorem State.modMem_power (s : State) (f : MemBlk → MemBlk) : (s.modMem f).power = s.power := rfl
@[simp] theorem State.modMem_heat (s : State) (f : MemBlk → MemBlk) : (s.modMem f).heat = s.heat := rfl
@[simp] theorem State.modMem_pump (s : State) (f : MemBlk → MemBlk) : (s.modMem f).pump = s.pump := rfl
@[simp] theorem State.modMem_bus (s : State) (f : MemBlk → MemBlk) : (s.modMem f).bus = s.bus := rfl
@[simp] theorem State.modMem_ward (s : State) (f : MemBlk → MemBlk) : (s.modMem f).ward = s.ward := rfl

@[simp] theorem State.modAdit_pending (s : State) (f : Adits → Adits) : (s.modAdit f).pending = s.pending := rfl
@[simp] theorem State.modAdit_free (s : State) (f : Adits → Adits) : (s.modAdit f).free = s.free := rfl
@[simp] theorem State.modAdit_now (s : State) (f : Adits → Adits) : (s.modAdit f).now = s.now := rfl
@[simp] theorem State.modAdit_ao (s : State) (f : Adits → Adits) : (s.modAdit f).ao = s.ao := rfl
@[simp] theorem State.modAdit_sup (s : State) (f : Adits → Adits) : (s.modAdit f).sup = s.sup := rfl
@[simp] theorem State.modAdit_adit (s : State) (f : Adits → Adits) : (s.modAdit f).adit = f s.adit := rfl
@[simp] theorem State.modAdit_host (s : State) (f : Adits → Adits) : (s.modAdit f).host = s.host := rfl
@[simp] theorem State.modAdit_rings (s : State) (f : Adits → Adits) : (s.modAdit f).rings = s.rings := rfl
@[simp] theorem State.modAdit_cages (s : State) (f : Adits → Adits) : (s.modAdit f).cages = s.cages := rfl
@[simp] theorem State.modAdit_beat (s : State) (f : Adits → Adits) : (s.modAdit f).beat = s.beat := rfl
@[simp] theorem State.modAdit_mem (s : State) (f : Adits → Adits) : (s.modAdit f).mem = s.mem := rfl
@[simp] theorem State.modAdit_mgmt (s : State) (f : Adits → Adits) : (s.modAdit f).mgmt = s.mgmt := rfl
@[simp] theorem State.modAdit_links (s : State) (f : Adits → Adits) : (s.modAdit f).links = s.links := rfl
@[simp] theorem State.modAdit_coll (s : State) (f : Adits → Adits) : (s.modAdit f).coll = s.coll := rfl
@[simp] theorem State.modAdit_power (s : State) (f : Adits → Adits) : (s.modAdit f).power = s.power := rfl
@[simp] theorem State.modAdit_heat (s : State) (f : Adits → Adits) : (s.modAdit f).heat = s.heat := rfl
@[simp] theorem State.modAdit_pump (s : State) (f : Adits → Adits) : (s.modAdit f).pump = s.pump := rfl
@[simp] theorem State.modAdit_bus (s : State) (f : Adits → Adits) : (s.modAdit f).bus = s.bus := rfl
@[simp] theorem State.modAdit_ward (s : State) (f : Adits → Adits) : (s.modAdit f).ward = s.ward := rfl

@[simp] theorem State.modAo_pending (s : State) (f : AlwaysOn → AlwaysOn) : (s.modAo f).pending = s.pending := rfl
@[simp] theorem State.modAo_free (s : State) (f : AlwaysOn → AlwaysOn) : (s.modAo f).free = s.free := rfl
@[simp] theorem State.modAo_now (s : State) (f : AlwaysOn → AlwaysOn) : (s.modAo f).now = s.now := rfl
@[simp] theorem State.modAo_ao (s : State) (f : AlwaysOn → AlwaysOn) : (s.modAo f).ao = f s.ao := rfl
@[simp] theorem State.modAo_sup (s : State) (f : AlwaysOn → AlwaysOn) : (s.modAo f).sup = s.sup := rfl
@[simp] theorem State.modAo_adit (s : State) (f : AlwaysOn → AlwaysOn) : (s.modAo f).adit = s.adit := rfl
@[simp] theorem State.modAo_host (s : State) (f : AlwaysOn → AlwaysOn) : (s.modAo f).host = s.host := rfl
@[simp] theorem State.modAo_rings (s : State) (f : AlwaysOn → AlwaysOn) : (s.modAo f).rings = s.rings := rfl
@[simp] theorem State.modAo_cages (s : State) (f : AlwaysOn → AlwaysOn) : (s.modAo f).cages = s.cages := rfl
@[simp] theorem State.modAo_beat (s : State) (f : AlwaysOn → AlwaysOn) : (s.modAo f).beat = s.beat := rfl
@[simp] theorem State.modAo_mem (s : State) (f : AlwaysOn → AlwaysOn) : (s.modAo f).mem = s.mem := rfl
@[simp] theorem State.modAo_mgmt (s : State) (f : AlwaysOn → AlwaysOn) : (s.modAo f).mgmt = s.mgmt := rfl
@[simp] theorem State.modAo_links (s : State) (f : AlwaysOn → AlwaysOn) : (s.modAo f).links = s.links := rfl
@[simp] theorem State.modAo_coll (s : State) (f : AlwaysOn → AlwaysOn) : (s.modAo f).coll = s.coll := rfl
@[simp] theorem State.modAo_power (s : State) (f : AlwaysOn → AlwaysOn) : (s.modAo f).power = s.power := rfl
@[simp] theorem State.modAo_heat (s : State) (f : AlwaysOn → AlwaysOn) : (s.modAo f).heat = s.heat := rfl
@[simp] theorem State.modAo_pump (s : State) (f : AlwaysOn → AlwaysOn) : (s.modAo f).pump = s.pump := rfl
@[simp] theorem State.modAo_bus (s : State) (f : AlwaysOn → AlwaysOn) : (s.modAo f).bus = s.bus := rfl
@[simp] theorem State.modAo_ward (s : State) (f : AlwaysOn → AlwaysOn) : (s.modAo f).ward = s.ward := rfl

@[simp] theorem State.modSup_pending (s : State) (f : Supply → Supply) : (s.modSup f).pending = s.pending := rfl
@[simp] theorem State.modSup_free (s : State) (f : Supply → Supply) : (s.modSup f).free = s.free := rfl
@[simp] theorem State.modSup_now (s : State) (f : Supply → Supply) : (s.modSup f).now = s.now := rfl
@[simp] theorem State.modSup_ao (s : State) (f : Supply → Supply) : (s.modSup f).ao = s.ao := rfl
@[simp] theorem State.modSup_sup (s : State) (f : Supply → Supply) : (s.modSup f).sup = f s.sup := rfl
@[simp] theorem State.modSup_adit (s : State) (f : Supply → Supply) : (s.modSup f).adit = s.adit := rfl
@[simp] theorem State.modSup_host (s : State) (f : Supply → Supply) : (s.modSup f).host = s.host := rfl
@[simp] theorem State.modSup_rings (s : State) (f : Supply → Supply) : (s.modSup f).rings = s.rings := rfl
@[simp] theorem State.modSup_cages (s : State) (f : Supply → Supply) : (s.modSup f).cages = s.cages := rfl
@[simp] theorem State.modSup_beat (s : State) (f : Supply → Supply) : (s.modSup f).beat = s.beat := rfl
@[simp] theorem State.modSup_mem (s : State) (f : Supply → Supply) : (s.modSup f).mem = s.mem := rfl
@[simp] theorem State.modSup_mgmt (s : State) (f : Supply → Supply) : (s.modSup f).mgmt = s.mgmt := rfl
@[simp] theorem State.modSup_links (s : State) (f : Supply → Supply) : (s.modSup f).links = s.links := rfl
@[simp] theorem State.modSup_coll (s : State) (f : Supply → Supply) : (s.modSup f).coll = s.coll := rfl
@[simp] theorem State.modSup_power (s : State) (f : Supply → Supply) : (s.modSup f).power = s.power := rfl
@[simp] theorem State.modSup_heat (s : State) (f : Supply → Supply) : (s.modSup f).heat = s.heat := rfl
@[simp] theorem State.modSup_pump (s : State) (f : Supply → Supply) : (s.modSup f).pump = s.pump := rfl
@[simp] theorem State.modSup_bus (s : State) (f : Supply → Supply) : (s.modSup f).bus = s.bus := rfl
@[simp] theorem State.modSup_ward (s : State) (f : Supply → Supply) : (s.modSup f).ward = s.ward := rfl

@[simp] theorem State.modColl_pending (s : State) (f : Coll → Coll) : (s.modColl f).pending = s.pending := rfl
@[simp] theorem State.modColl_free (s : State) (f : Coll → Coll) : (s.modColl f).free = s.free := rfl
@[simp] theorem State.modColl_now (s : State) (f : Coll → Coll) : (s.modColl f).now = s.now := rfl
@[simp] theorem State.modColl_ao (s : State) (f : Coll → Coll) : (s.modColl f).ao = s.ao := rfl
@[simp] theorem State.modColl_sup (s : State) (f : Coll → Coll) : (s.modColl f).sup = s.sup := rfl
@[simp] theorem State.modColl_adit (s : State) (f : Coll → Coll) : (s.modColl f).adit = s.adit := rfl
@[simp] theorem State.modColl_host (s : State) (f : Coll → Coll) : (s.modColl f).host = s.host := rfl
@[simp] theorem State.modColl_rings (s : State) (f : Coll → Coll) : (s.modColl f).rings = s.rings := rfl
@[simp] theorem State.modColl_cages (s : State) (f : Coll → Coll) : (s.modColl f).cages = s.cages := rfl
@[simp] theorem State.modColl_beat (s : State) (f : Coll → Coll) : (s.modColl f).beat = s.beat := rfl
@[simp] theorem State.modColl_mem (s : State) (f : Coll → Coll) : (s.modColl f).mem = s.mem := rfl
@[simp] theorem State.modColl_mgmt (s : State) (f : Coll → Coll) : (s.modColl f).mgmt = s.mgmt := rfl
@[simp] theorem State.modColl_links (s : State) (f : Coll → Coll) : (s.modColl f).links = s.links := rfl
@[simp] theorem State.modColl_coll (s : State) (f : Coll → Coll) : (s.modColl f).coll = f s.coll := rfl
@[simp] theorem State.modColl_power (s : State) (f : Coll → Coll) : (s.modColl f).power = s.power := rfl
@[simp] theorem State.modColl_heat (s : State) (f : Coll → Coll) : (s.modColl f).heat = s.heat := rfl
@[simp] theorem State.modColl_pump (s : State) (f : Coll → Coll) : (s.modColl f).pump = s.pump := rfl
@[simp] theorem State.modColl_bus (s : State) (f : Coll → Coll) : (s.modColl f).bus = s.bus := rfl
@[simp] theorem State.modColl_ward (s : State) (f : Coll → Coll) : (s.modColl f).ward = s.ward := rfl

@[simp] theorem State.modPower_pending (s : State) (f : Power → Power) : (s.modPower f).pending = s.pending := rfl
@[simp] theorem State.modPower_free (s : State) (f : Power → Power) : (s.modPower f).free = s.free := rfl
@[simp] theorem State.modPower_now (s : State) (f : Power → Power) : (s.modPower f).now = s.now := rfl
@[simp] theorem State.modPower_ao (s : State) (f : Power → Power) : (s.modPower f).ao = s.ao := rfl
@[simp] theorem State.modPower_sup (s : State) (f : Power → Power) : (s.modPower f).sup = s.sup := rfl
@[simp] theorem State.modPower_adit (s : State) (f : Power → Power) : (s.modPower f).adit = s.adit := rfl
@[simp] theorem State.modPower_host (s : State) (f : Power → Power) : (s.modPower f).host = s.host := rfl
@[simp] theorem State.modPower_rings (s : State) (f : Power → Power) : (s.modPower f).rings = s.rings := rfl
@[simp] theorem State.modPower_cages (s : State) (f : Power → Power) : (s.modPower f).cages = s.cages := rfl
@[simp] theorem State.modPower_beat (s : State) (f : Power → Power) : (s.modPower f).beat = s.beat := rfl
@[simp] theorem State.modPower_mem (s : State) (f : Power → Power) : (s.modPower f).mem = s.mem := rfl
@[simp] theorem State.modPower_mgmt (s : State) (f : Power → Power) : (s.modPower f).mgmt = s.mgmt := rfl
@[simp] theorem State.modPower_links (s : State) (f : Power → Power) : (s.modPower f).links = s.links := rfl
@[simp] theorem State.modPower_coll (s : State) (f : Power → Power) : (s.modPower f).coll = s.coll := rfl
@[simp] theorem State.modPower_power (s : State) (f : Power → Power) : (s.modPower f).power = f s.power := rfl
@[simp] theorem State.modPower_heat (s : State) (f : Power → Power) : (s.modPower f).heat = s.heat := rfl
@[simp] theorem State.modPower_pump (s : State) (f : Power → Power) : (s.modPower f).pump = s.pump := rfl
@[simp] theorem State.modPower_bus (s : State) (f : Power → Power) : (s.modPower f).bus = s.bus := rfl
@[simp] theorem State.modPower_ward (s : State) (f : Power → Power) : (s.modPower f).ward = s.ward := rfl

@[simp] theorem State.modHeat_pending (s : State) (f : Heat → Heat) : (s.modHeat f).pending = s.pending := rfl
@[simp] theorem State.modHeat_free (s : State) (f : Heat → Heat) : (s.modHeat f).free = s.free := rfl
@[simp] theorem State.modHeat_now (s : State) (f : Heat → Heat) : (s.modHeat f).now = s.now := rfl
@[simp] theorem State.modHeat_ao (s : State) (f : Heat → Heat) : (s.modHeat f).ao = s.ao := rfl
@[simp] theorem State.modHeat_sup (s : State) (f : Heat → Heat) : (s.modHeat f).sup = s.sup := rfl
@[simp] theorem State.modHeat_adit (s : State) (f : Heat → Heat) : (s.modHeat f).adit = s.adit := rfl
@[simp] theorem State.modHeat_host (s : State) (f : Heat → Heat) : (s.modHeat f).host = s.host := rfl
@[simp] theorem State.modHeat_rings (s : State) (f : Heat → Heat) : (s.modHeat f).rings = s.rings := rfl
@[simp] theorem State.modHeat_cages (s : State) (f : Heat → Heat) : (s.modHeat f).cages = s.cages := rfl
@[simp] theorem State.modHeat_beat (s : State) (f : Heat → Heat) : (s.modHeat f).beat = s.beat := rfl
@[simp] theorem State.modHeat_mem (s : State) (f : Heat → Heat) : (s.modHeat f).mem = s.mem := rfl
@[simp] theorem State.modHeat_mgmt (s : State) (f : Heat → Heat) : (s.modHeat f).mgmt = s.mgmt := rfl
@[simp] theorem State.modHeat_links (s : State) (f : Heat → Heat) : (s.modHeat f).links = s.links := rfl
@[simp] theorem State.modHeat_coll (s : State) (f : Heat → Heat) : (s.modHeat f).coll = s.coll := rfl
@[simp] theorem State.modHeat_power (s : State) (f : Heat → Heat) : (s.modHeat f).power = s.power := rfl
@[simp] theorem State.modHeat_heat (s : State) (f : Heat → Heat) : (s.modHeat f).heat = f s.heat := rfl
@[simp] theorem State.modHeat_pump (s : State) (f : Heat → Heat) : (s.modHeat f).pump = s.pump := rfl
@[simp] theorem State.modHeat_bus (s : State) (f : Heat → Heat) : (s.modHeat f).bus = s.bus := rfl
@[simp] theorem State.modHeat_ward (s : State) (f : Heat → Heat) : (s.modHeat f).ward = s.ward := rfl

@[simp] theorem State.modPump_pending (s : State) (f : Pump → Pump) : (s.modPump f).pending = s.pending := rfl
@[simp] theorem State.modPump_free (s : State) (f : Pump → Pump) : (s.modPump f).free = s.free := rfl
@[simp] theorem State.modPump_now (s : State) (f : Pump → Pump) : (s.modPump f).now = s.now := rfl
@[simp] theorem State.modPump_ao (s : State) (f : Pump → Pump) : (s.modPump f).ao = s.ao := rfl
@[simp] theorem State.modPump_sup (s : State) (f : Pump → Pump) : (s.modPump f).sup = s.sup := rfl
@[simp] theorem State.modPump_adit (s : State) (f : Pump → Pump) : (s.modPump f).adit = s.adit := rfl
@[simp] theorem State.modPump_host (s : State) (f : Pump → Pump) : (s.modPump f).host = s.host := rfl
@[simp] theorem State.modPump_rings (s : State) (f : Pump → Pump) : (s.modPump f).rings = s.rings := rfl
@[simp] theorem State.modPump_cages (s : State) (f : Pump → Pump) : (s.modPump f).cages = s.cages := rfl
@[simp] theorem State.modPump_beat (s : State) (f : Pump → Pump) : (s.modPump f).beat = s.beat := rfl
@[simp] theorem State.modPump_mem (s : State) (f : Pump → Pump) : (s.modPump f).mem = s.mem := rfl
@[simp] theorem State.modPump_mgmt (s : State) (f : Pump → Pump) : (s.modPump f).mgmt = s.mgmt := rfl
@[simp] theorem State.modPump_links (s : State) (f : Pump → Pump) : (s.modPump f).links = s.links := rfl
@[simp] theorem State.modPump_coll (s : State) (f : Pump → Pump) : (s.modPump f).coll = s.coll := rfl
@[simp] theorem State.modPump_power (s : State) (f : Pump → Pump) : (s.modPump f).power = s.power := rfl
@[simp] theorem State.modPump_heat (s : State) (f : Pump → Pump) : (s.modPump f).heat = s.heat := rfl
@[simp] theorem State.modPump_pump (s : State) (f : Pump → Pump) : (s.modPump f).pump = f s.pump := rfl
@[simp] theorem State.modPump_bus (s : State) (f : Pump → Pump) : (s.modPump f).bus = s.bus := rfl
@[simp] theorem State.modPump_ward (s : State) (f : Pump → Pump) : (s.modPump f).ward = s.ward := rfl

@[simp] theorem State.modBuses_pending (s : State) (f : Buses → Buses) : (s.modBuses f).pending = s.pending := rfl
@[simp] theorem State.modBuses_free (s : State) (f : Buses → Buses) : (s.modBuses f).free = s.free := rfl
@[simp] theorem State.modBuses_now (s : State) (f : Buses → Buses) : (s.modBuses f).now = s.now := rfl
@[simp] theorem State.modBuses_ao (s : State) (f : Buses → Buses) : (s.modBuses f).ao = s.ao := rfl
@[simp] theorem State.modBuses_sup (s : State) (f : Buses → Buses) : (s.modBuses f).sup = s.sup := rfl
@[simp] theorem State.modBuses_adit (s : State) (f : Buses → Buses) : (s.modBuses f).adit = s.adit := rfl
@[simp] theorem State.modBuses_host (s : State) (f : Buses → Buses) : (s.modBuses f).host = s.host := rfl
@[simp] theorem State.modBuses_rings (s : State) (f : Buses → Buses) : (s.modBuses f).rings = s.rings := rfl
@[simp] theorem State.modBuses_cages (s : State) (f : Buses → Buses) : (s.modBuses f).cages = s.cages := rfl
@[simp] theorem State.modBuses_beat (s : State) (f : Buses → Buses) : (s.modBuses f).beat = s.beat := rfl
@[simp] theorem State.modBuses_mem (s : State) (f : Buses → Buses) : (s.modBuses f).mem = s.mem := rfl
@[simp] theorem State.modBuses_mgmt (s : State) (f : Buses → Buses) : (s.modBuses f).mgmt = s.mgmt := rfl
@[simp] theorem State.modBuses_links (s : State) (f : Buses → Buses) : (s.modBuses f).links = s.links := rfl
@[simp] theorem State.modBuses_coll (s : State) (f : Buses → Buses) : (s.modBuses f).coll = s.coll := rfl
@[simp] theorem State.modBuses_power (s : State) (f : Buses → Buses) : (s.modBuses f).power = s.power := rfl
@[simp] theorem State.modBuses_heat (s : State) (f : Buses → Buses) : (s.modBuses f).heat = s.heat := rfl
@[simp] theorem State.modBuses_pump (s : State) (f : Buses → Buses) : (s.modBuses f).pump = s.pump := rfl
@[simp] theorem State.modBuses_bus (s : State) (f : Buses → Buses) : (s.modBuses f).bus = f s.bus := rfl
@[simp] theorem State.modBuses_ward (s : State) (f : Buses → Buses) : (s.modBuses f).ward = s.ward := rfl

@[simp] theorem State.modWard_pending (s : State) (f : Warden → Warden) : (s.modWard f).pending = s.pending := rfl
@[simp] theorem State.modWard_free (s : State) (f : Warden → Warden) : (s.modWard f).free = s.free := rfl
@[simp] theorem State.modWard_now (s : State) (f : Warden → Warden) : (s.modWard f).now = s.now := rfl
@[simp] theorem State.modWard_ao (s : State) (f : Warden → Warden) : (s.modWard f).ao = s.ao := rfl
@[simp] theorem State.modWard_sup (s : State) (f : Warden → Warden) : (s.modWard f).sup = s.sup := rfl
@[simp] theorem State.modWard_adit (s : State) (f : Warden → Warden) : (s.modWard f).adit = s.adit := rfl
@[simp] theorem State.modWard_host (s : State) (f : Warden → Warden) : (s.modWard f).host = s.host := rfl
@[simp] theorem State.modWard_rings (s : State) (f : Warden → Warden) : (s.modWard f).rings = s.rings := rfl
@[simp] theorem State.modWard_cages (s : State) (f : Warden → Warden) : (s.modWard f).cages = s.cages := rfl
@[simp] theorem State.modWard_beat (s : State) (f : Warden → Warden) : (s.modWard f).beat = s.beat := rfl
@[simp] theorem State.modWard_mem (s : State) (f : Warden → Warden) : (s.modWard f).mem = s.mem := rfl
@[simp] theorem State.modWard_mgmt (s : State) (f : Warden → Warden) : (s.modWard f).mgmt = s.mgmt := rfl
@[simp] theorem State.modWard_links (s : State) (f : Warden → Warden) : (s.modWard f).links = s.links := rfl
@[simp] theorem State.modWard_coll (s : State) (f : Warden → Warden) : (s.modWard f).coll = s.coll := rfl
@[simp] theorem State.modWard_power (s : State) (f : Warden → Warden) : (s.modWard f).power = s.power := rfl
@[simp] theorem State.modWard_heat (s : State) (f : Warden → Warden) : (s.modWard f).heat = s.heat := rfl
@[simp] theorem State.modWard_pump (s : State) (f : Warden → Warden) : (s.modWard f).pump = s.pump := rfl
@[simp] theorem State.modWard_bus (s : State) (f : Warden → Warden) : (s.modWard f).bus = s.bus := rfl
@[simp] theorem State.modWard_ward (s : State) (f : Warden → Warden) : (s.modWard f).ward = f s.ward := rfl

@[simp] theorem State.modMgmt_pending (s : State) (f : Mgmt → Mgmt) : (s.modMgmt f).pending = s.pending := rfl
@[simp] theorem State.modMgmt_free (s : State) (f : Mgmt → Mgmt) : (s.modMgmt f).free = s.free := rfl
@[simp] theorem State.modMgmt_now (s : State) (f : Mgmt → Mgmt) : (s.modMgmt f).now = s.now := rfl
@[simp] theorem State.modMgmt_ao (s : State) (f : Mgmt → Mgmt) : (s.modMgmt f).ao = s.ao := rfl
@[simp] theorem State.modMgmt_sup (s : State) (f : Mgmt → Mgmt) : (s.modMgmt f).sup = s.sup := rfl
@[simp] theorem State.modMgmt_adit (s : State) (f : Mgmt → Mgmt) : (s.modMgmt f).adit = s.adit := rfl
@[simp] theorem State.modMgmt_host (s : State) (f : Mgmt → Mgmt) : (s.modMgmt f).host = s.host := rfl
@[simp] theorem State.modMgmt_rings (s : State) (f : Mgmt → Mgmt) : (s.modMgmt f).rings = s.rings := rfl
@[simp] theorem State.modMgmt_cages (s : State) (f : Mgmt → Mgmt) : (s.modMgmt f).cages = s.cages := rfl
@[simp] theorem State.modMgmt_beat (s : State) (f : Mgmt → Mgmt) : (s.modMgmt f).beat = s.beat := rfl
@[simp] theorem State.modMgmt_mem (s : State) (f : Mgmt → Mgmt) : (s.modMgmt f).mem = s.mem := rfl
@[simp] theorem State.modMgmt_mgmt (s : State) (f : Mgmt → Mgmt) : (s.modMgmt f).mgmt = f s.mgmt := rfl
@[simp] theorem State.modMgmt_links (s : State) (f : Mgmt → Mgmt) : (s.modMgmt f).links = s.links := rfl
@[simp] theorem State.modMgmt_coll (s : State) (f : Mgmt → Mgmt) : (s.modMgmt f).coll = s.coll := rfl
@[simp] theorem State.modMgmt_power (s : State) (f : Mgmt → Mgmt) : (s.modMgmt f).power = s.power := rfl
@[simp] theorem State.modMgmt_heat (s : State) (f : Mgmt → Mgmt) : (s.modMgmt f).heat = s.heat := rfl
@[simp] theorem State.modMgmt_pump (s : State) (f : Mgmt → Mgmt) : (s.modMgmt f).pump = s.pump := rfl
@[simp] theorem State.modMgmt_bus (s : State) (f : Mgmt → Mgmt) : (s.modMgmt f).bus = s.bus := rfl
@[simp] theorem State.modMgmt_ward (s : State) (f : Mgmt → Mgmt) : (s.modMgmt f).ward = s.ward := rfl

/-! ### Sparse tables -/

theorem tget_tdel_same {α : Type} (d : α) (t : Tbl α) (k : Nat) : tget d (tdel t k) k = d := by
  induction t with
  | nil => rfl
  | cons e r ih =>
    obtain ⟨j, v⟩ := e
    by_cases h : j = k <;> simp_all [tdel, tget]

theorem tget_tdel_other {α : Type} {d : α} {t : Tbl α} {j k : Nat} (h : j ≠ k) : tget d (tdel t k) j = tget d t j := by
  induction t with
  | nil => rfl
  | cons e r ih =>
    obtain ⟨i, v⟩ := e
    by_cases hi : i = k
    · subst hi
      simp_all [tdel, tget, h.symm]
    · by_cases hj : i = j <;> simp_all [tdel, tget]

theorem tget_tins_same {α : Type} (d : α) (t : Tbl α) (k : Nat) (v : α) : tget d (tins t k v) k = v := by
  induction t with
  | nil => simp [tins, tget]
  | cons e r ih =>
    obtain ⟨j, w⟩ := e
    unfold tins
    split
    · simp [tget]
    · split
      · simp [tget]
      · simp [tget, *]

theorem tget_tins_other {α : Type} {d : α} {t : Tbl α} {j k : Nat} {v : α} (h : j ≠ k) : tget d (tins t k v) j = tget d t j := by
  induction t with
  | nil => simp [tins, tget, h.symm]
  | cons e r ih =>
    obtain ⟨i, w⟩ := e
    unfold tins
    split
    · simp [tget, h.symm]
    · split
      · subst_vars; simp [tget, h.symm]
      · simp [tget, ih]

/-- An entry written reads back. -/
@[simp] theorem tget_tput_same {α : Type} [DecidableEq α] (d : α) (t : Tbl α) (k : Nat) (v : α) : tget d (tput d t k v) k = v := by
  unfold tput
  split
  · subst_vars; exact tget_tdel_same ..
  · exact tget_tins_same ..

/-- A write leaves every other entry alone. -/
theorem tget_tput_other {α : Type} [DecidableEq α] {d : α} {t : Tbl α} {j k : Nat} {v : α} (h : j ≠ k) : tget d (tput d t k v) j = tget d t j := by
  unfold tput
  split
  · exact tget_tdel_other h
  · exact tget_tins_other h

/-! ### Numbered parts: one lemma for the entry updated, one for every other, one for each other part of the state -/

@[simp] theorem State.modFn_same (s : State) (f : Nat) (g : Fn → Fn) : (s.modFn f g).fn f = g (s.fn f) := tget_tput_same ..
@[simp] theorem State.modFn_other {s : State} {f : Nat} {g : Fn → Fn} {k : Nat} (h : k ≠ f) : (s.modFn f g).fn k = s.fn k := tget_tput_other h
@[simp] theorem State.modFn_pending (s : State) (f : Nat) (g : Fn → Fn) : (s.modFn f g).pending = s.pending := rfl
@[simp] theorem State.modFn_free (s : State) (f : Nat) (g : Fn → Fn) : (s.modFn f g).free = s.free := rfl
@[simp] theorem State.modFn_now (s : State) (f : Nat) (g : Fn → Fn) : (s.modFn f g).now = s.now := rfl
@[simp] theorem State.modFn_ao (s : State) (f : Nat) (g : Fn → Fn) : (s.modFn f g).ao = s.ao := rfl
@[simp] theorem State.modFn_sup (s : State) (f : Nat) (g : Fn → Fn) : (s.modFn f g).sup = s.sup := rfl
@[simp] theorem State.modFn_adit (s : State) (f : Nat) (g : Fn → Fn) : (s.modFn f g).adit = s.adit := rfl
@[simp] theorem State.modFn_rings (s : State) (f : Nat) (g : Fn → Fn) : (s.modFn f g).rings = s.rings := rfl
@[simp] theorem State.modFn_cages (s : State) (f : Nat) (g : Fn → Fn) : (s.modFn f g).cages = s.cages := rfl
@[simp] theorem State.modFn_beat (s : State) (f : Nat) (g : Fn → Fn) : (s.modFn f g).beat = s.beat := rfl
@[simp] theorem State.modFn_mem (s : State) (f : Nat) (g : Fn → Fn) : (s.modFn f g).mem = s.mem := rfl
@[simp] theorem State.modFn_mgmt (s : State) (f : Nat) (g : Fn → Fn) : (s.modFn f g).mgmt = s.mgmt := rfl
@[simp] theorem State.modFn_links (s : State) (f : Nat) (g : Fn → Fn) : (s.modFn f g).links = s.links := rfl
@[simp] theorem State.modFn_coll (s : State) (f : Nat) (g : Fn → Fn) : (s.modFn f g).coll = s.coll := rfl
@[simp] theorem State.modFn_power (s : State) (f : Nat) (g : Fn → Fn) : (s.modFn f g).power = s.power := rfl
@[simp] theorem State.modFn_heat (s : State) (f : Nat) (g : Fn → Fn) : (s.modFn f g).heat = s.heat := rfl
@[simp] theorem State.modFn_pump (s : State) (f : Nat) (g : Fn → Fn) : (s.modFn f g).pump = s.pump := rfl
@[simp] theorem State.modFn_bus (s : State) (f : Nat) (g : Fn → Fn) : (s.modFn f g).bus = s.bus := rfl
@[simp] theorem State.modFn_ward (s : State) (f : Nat) (g : Fn → Fn) : (s.modFn f g).ward = s.ward := rfl

@[simp] theorem State.modRpt_same (s : State) (f : Nat) (g : Rpt → Rpt) : (s.modRpt f g).rpt f = g (s.rpt f) := tget_tput_same ..
@[simp] theorem State.modRpt_other {s : State} {f : Nat} {g : Rpt → Rpt} {k : Nat} (h : k ≠ f) : (s.modRpt f g).rpt k = s.rpt k := tget_tput_other h
@[simp] theorem State.modRpt_pending (s : State) (f : Nat) (g : Rpt → Rpt) : (s.modRpt f g).pending = s.pending := rfl
@[simp] theorem State.modRpt_free (s : State) (f : Nat) (g : Rpt → Rpt) : (s.modRpt f g).free = s.free := rfl
@[simp] theorem State.modRpt_now (s : State) (f : Nat) (g : Rpt → Rpt) : (s.modRpt f g).now = s.now := rfl
@[simp] theorem State.modRpt_ao (s : State) (f : Nat) (g : Rpt → Rpt) : (s.modRpt f g).ao = s.ao := rfl
@[simp] theorem State.modRpt_sup (s : State) (f : Nat) (g : Rpt → Rpt) : (s.modRpt f g).sup = s.sup := rfl
@[simp] theorem State.modRpt_adit (s : State) (f : Nat) (g : Rpt → Rpt) : (s.modRpt f g).adit = s.adit := rfl
@[simp] theorem State.modRpt_host (s : State) (f : Nat) (g : Rpt → Rpt) : (s.modRpt f g).host = s.host := rfl
@[simp] theorem State.modRpt_cages (s : State) (f : Nat) (g : Rpt → Rpt) : (s.modRpt f g).cages = s.cages := rfl
@[simp] theorem State.modRpt_beat (s : State) (f : Nat) (g : Rpt → Rpt) : (s.modRpt f g).beat = s.beat := rfl
@[simp] theorem State.modRpt_mem (s : State) (f : Nat) (g : Rpt → Rpt) : (s.modRpt f g).mem = s.mem := rfl
@[simp] theorem State.modRpt_mgmt (s : State) (f : Nat) (g : Rpt → Rpt) : (s.modRpt f g).mgmt = s.mgmt := rfl
@[simp] theorem State.modRpt_links (s : State) (f : Nat) (g : Rpt → Rpt) : (s.modRpt f g).links = s.links := rfl
@[simp] theorem State.modRpt_coll (s : State) (f : Nat) (g : Rpt → Rpt) : (s.modRpt f g).coll = s.coll := rfl
@[simp] theorem State.modRpt_power (s : State) (f : Nat) (g : Rpt → Rpt) : (s.modRpt f g).power = s.power := rfl
@[simp] theorem State.modRpt_heat (s : State) (f : Nat) (g : Rpt → Rpt) : (s.modRpt f g).heat = s.heat := rfl
@[simp] theorem State.modRpt_pump (s : State) (f : Nat) (g : Rpt → Rpt) : (s.modRpt f g).pump = s.pump := rfl
@[simp] theorem State.modRpt_bus (s : State) (f : Nat) (g : Rpt → Rpt) : (s.modRpt f g).bus = s.bus := rfl
@[simp] theorem State.modRpt_ward (s : State) (f : Nat) (g : Rpt → Rpt) : (s.modRpt f g).ward = s.ward := rfl

@[simp] theorem State.modRing_same (s : State) (f : Nat) (g : Ring → Ring) : (s.modRing f g).ring f = g (s.ring f) := tget_tput_same ..
@[simp] theorem State.modRing_other {s : State} {f : Nat} {g : Ring → Ring} {k : Nat} (h : k ≠ f) : (s.modRing f g).ring k = s.ring k := tget_tput_other h
@[simp] theorem State.modRing_pending (s : State) (f : Nat) (g : Ring → Ring) : (s.modRing f g).pending = s.pending := rfl
@[simp] theorem State.modRing_free (s : State) (f : Nat) (g : Ring → Ring) : (s.modRing f g).free = s.free := rfl
@[simp] theorem State.modRing_now (s : State) (f : Nat) (g : Ring → Ring) : (s.modRing f g).now = s.now := rfl
@[simp] theorem State.modRing_ao (s : State) (f : Nat) (g : Ring → Ring) : (s.modRing f g).ao = s.ao := rfl
@[simp] theorem State.modRing_sup (s : State) (f : Nat) (g : Ring → Ring) : (s.modRing f g).sup = s.sup := rfl
@[simp] theorem State.modRing_adit (s : State) (f : Nat) (g : Ring → Ring) : (s.modRing f g).adit = s.adit := rfl
@[simp] theorem State.modRing_host (s : State) (f : Nat) (g : Ring → Ring) : (s.modRing f g).host = s.host := rfl
@[simp] theorem State.modRing_cages (s : State) (f : Nat) (g : Ring → Ring) : (s.modRing f g).cages = s.cages := rfl
@[simp] theorem State.modRing_beat (s : State) (f : Nat) (g : Ring → Ring) : (s.modRing f g).beat = s.beat := rfl
@[simp] theorem State.modRing_mem (s : State) (f : Nat) (g : Ring → Ring) : (s.modRing f g).mem = s.mem := rfl
@[simp] theorem State.modRing_mgmt (s : State) (f : Nat) (g : Ring → Ring) : (s.modRing f g).mgmt = s.mgmt := rfl
@[simp] theorem State.modRing_links (s : State) (f : Nat) (g : Ring → Ring) : (s.modRing f g).links = s.links := rfl
@[simp] theorem State.modRing_coll (s : State) (f : Nat) (g : Ring → Ring) : (s.modRing f g).coll = s.coll := rfl
@[simp] theorem State.modRing_power (s : State) (f : Nat) (g : Ring → Ring) : (s.modRing f g).power = s.power := rfl
@[simp] theorem State.modRing_heat (s : State) (f : Nat) (g : Ring → Ring) : (s.modRing f g).heat = s.heat := rfl
@[simp] theorem State.modRing_pump (s : State) (f : Nat) (g : Ring → Ring) : (s.modRing f g).pump = s.pump := rfl
@[simp] theorem State.modRing_bus (s : State) (f : Nat) (g : Ring → Ring) : (s.modRing f g).bus = s.bus := rfl
@[simp] theorem State.modRing_ward (s : State) (f : Nat) (g : Ring → Ring) : (s.modRing f g).ward = s.ward := rfl

@[simp] theorem State.modSlot_same (s : State) (f : Nat) (g : Slot → Slot) : (s.modSlot f g).slot f = g (s.slot f) := tget_tput_same ..
@[simp] theorem State.modSlot_other {s : State} {f : Nat} {g : Slot → Slot} {k : Nat} (h : k ≠ f) : (s.modSlot f g).slot k = s.slot k := tget_tput_other h
@[simp] theorem State.modSlot_pending (s : State) (f : Nat) (g : Slot → Slot) : (s.modSlot f g).pending = s.pending := rfl
@[simp] theorem State.modSlot_free (s : State) (f : Nat) (g : Slot → Slot) : (s.modSlot f g).free = s.free := rfl
@[simp] theorem State.modSlot_now (s : State) (f : Nat) (g : Slot → Slot) : (s.modSlot f g).now = s.now := rfl
@[simp] theorem State.modSlot_ao (s : State) (f : Nat) (g : Slot → Slot) : (s.modSlot f g).ao = s.ao := rfl
@[simp] theorem State.modSlot_sup (s : State) (f : Nat) (g : Slot → Slot) : (s.modSlot f g).sup = s.sup := rfl
@[simp] theorem State.modSlot_adit (s : State) (f : Nat) (g : Slot → Slot) : (s.modSlot f g).adit = s.adit := rfl
@[simp] theorem State.modSlot_host (s : State) (f : Nat) (g : Slot → Slot) : (s.modSlot f g).host = s.host := rfl
@[simp] theorem State.modSlot_cages (s : State) (f : Nat) (g : Slot → Slot) : (s.modSlot f g).cages = s.cages := rfl
@[simp] theorem State.modSlot_beat (s : State) (f : Nat) (g : Slot → Slot) : (s.modSlot f g).beat = s.beat := rfl
@[simp] theorem State.modSlot_mem (s : State) (f : Nat) (g : Slot → Slot) : (s.modSlot f g).mem = s.mem := rfl
@[simp] theorem State.modSlot_mgmt (s : State) (f : Nat) (g : Slot → Slot) : (s.modSlot f g).mgmt = s.mgmt := rfl
@[simp] theorem State.modSlot_links (s : State) (f : Nat) (g : Slot → Slot) : (s.modSlot f g).links = s.links := rfl
@[simp] theorem State.modSlot_coll (s : State) (f : Nat) (g : Slot → Slot) : (s.modSlot f g).coll = s.coll := rfl
@[simp] theorem State.modSlot_power (s : State) (f : Nat) (g : Slot → Slot) : (s.modSlot f g).power = s.power := rfl
@[simp] theorem State.modSlot_heat (s : State) (f : Nat) (g : Slot → Slot) : (s.modSlot f g).heat = s.heat := rfl
@[simp] theorem State.modSlot_pump (s : State) (f : Nat) (g : Slot → Slot) : (s.modSlot f g).pump = s.pump := rfl
@[simp] theorem State.modSlot_bus (s : State) (f : Nat) (g : Slot → Slot) : (s.modSlot f g).bus = s.bus := rfl
@[simp] theorem State.modSlot_ward (s : State) (f : Nat) (g : Slot → Slot) : (s.modSlot f g).ward = s.ward := rfl

@[simp] theorem State.modCtx_same (s : State) (f : Nat) (g : Ctx → Ctx) : (s.modCtx f g).ctx f = g (s.ctx f) := tget_tput_same ..
@[simp] theorem State.modCtx_other {s : State} {f : Nat} {g : Ctx → Ctx} {k : Nat} (h : k ≠ f) : (s.modCtx f g).ctx k = s.ctx k := tget_tput_other h
@[simp] theorem State.modCtx_pending (s : State) (f : Nat) (g : Ctx → Ctx) : (s.modCtx f g).pending = s.pending := rfl
@[simp] theorem State.modCtx_free (s : State) (f : Nat) (g : Ctx → Ctx) : (s.modCtx f g).free = s.free := rfl
@[simp] theorem State.modCtx_now (s : State) (f : Nat) (g : Ctx → Ctx) : (s.modCtx f g).now = s.now := rfl
@[simp] theorem State.modCtx_ao (s : State) (f : Nat) (g : Ctx → Ctx) : (s.modCtx f g).ao = s.ao := rfl
@[simp] theorem State.modCtx_sup (s : State) (f : Nat) (g : Ctx → Ctx) : (s.modCtx f g).sup = s.sup := rfl
@[simp] theorem State.modCtx_adit (s : State) (f : Nat) (g : Ctx → Ctx) : (s.modCtx f g).adit = s.adit := rfl
@[simp] theorem State.modCtx_host (s : State) (f : Nat) (g : Ctx → Ctx) : (s.modCtx f g).host = s.host := rfl
@[simp] theorem State.modCtx_cages (s : State) (f : Nat) (g : Ctx → Ctx) : (s.modCtx f g).cages = s.cages := rfl
@[simp] theorem State.modCtx_beat (s : State) (f : Nat) (g : Ctx → Ctx) : (s.modCtx f g).beat = s.beat := rfl
@[simp] theorem State.modCtx_mem (s : State) (f : Nat) (g : Ctx → Ctx) : (s.modCtx f g).mem = s.mem := rfl
@[simp] theorem State.modCtx_mgmt (s : State) (f : Nat) (g : Ctx → Ctx) : (s.modCtx f g).mgmt = s.mgmt := rfl
@[simp] theorem State.modCtx_links (s : State) (f : Nat) (g : Ctx → Ctx) : (s.modCtx f g).links = s.links := rfl
@[simp] theorem State.modCtx_coll (s : State) (f : Nat) (g : Ctx → Ctx) : (s.modCtx f g).coll = s.coll := rfl
@[simp] theorem State.modCtx_power (s : State) (f : Nat) (g : Ctx → Ctx) : (s.modCtx f g).power = s.power := rfl
@[simp] theorem State.modCtx_heat (s : State) (f : Nat) (g : Ctx → Ctx) : (s.modCtx f g).heat = s.heat := rfl
@[simp] theorem State.modCtx_pump (s : State) (f : Nat) (g : Ctx → Ctx) : (s.modCtx f g).pump = s.pump := rfl
@[simp] theorem State.modCtx_bus (s : State) (f : Nat) (g : Ctx → Ctx) : (s.modCtx f g).bus = s.bus := rfl
@[simp] theorem State.modCtx_ward (s : State) (f : Nat) (g : Ctx → Ctx) : (s.modCtx f g).ward = s.ward := rfl

@[simp] theorem State.modCage_same (s : State) (f : Nat) (g : Cage → Cage) : (s.modCage f g).cage f = g (s.cage f) := tget_tput_same ..
@[simp] theorem State.modCage_other {s : State} {f : Nat} {g : Cage → Cage} {k : Nat} (h : k ≠ f) : (s.modCage f g).cage k = s.cage k := tget_tput_other h
@[simp] theorem State.modCage_pending (s : State) (f : Nat) (g : Cage → Cage) : (s.modCage f g).pending = s.pending := rfl
@[simp] theorem State.modCage_free (s : State) (f : Nat) (g : Cage → Cage) : (s.modCage f g).free = s.free := rfl
@[simp] theorem State.modCage_now (s : State) (f : Nat) (g : Cage → Cage) : (s.modCage f g).now = s.now := rfl
@[simp] theorem State.modCage_ao (s : State) (f : Nat) (g : Cage → Cage) : (s.modCage f g).ao = s.ao := rfl
@[simp] theorem State.modCage_sup (s : State) (f : Nat) (g : Cage → Cage) : (s.modCage f g).sup = s.sup := rfl
@[simp] theorem State.modCage_adit (s : State) (f : Nat) (g : Cage → Cage) : (s.modCage f g).adit = s.adit := rfl
@[simp] theorem State.modCage_host (s : State) (f : Nat) (g : Cage → Cage) : (s.modCage f g).host = s.host := rfl
@[simp] theorem State.modCage_rings (s : State) (f : Nat) (g : Cage → Cage) : (s.modCage f g).rings = s.rings := rfl
@[simp] theorem State.modCage_beat (s : State) (f : Nat) (g : Cage → Cage) : (s.modCage f g).beat = s.beat := rfl
@[simp] theorem State.modCage_mem (s : State) (f : Nat) (g : Cage → Cage) : (s.modCage f g).mem = s.mem := rfl
@[simp] theorem State.modCage_mgmt (s : State) (f : Nat) (g : Cage → Cage) : (s.modCage f g).mgmt = s.mgmt := rfl
@[simp] theorem State.modCage_links (s : State) (f : Nat) (g : Cage → Cage) : (s.modCage f g).links = s.links := rfl
@[simp] theorem State.modCage_coll (s : State) (f : Nat) (g : Cage → Cage) : (s.modCage f g).coll = s.coll := rfl
@[simp] theorem State.modCage_power (s : State) (f : Nat) (g : Cage → Cage) : (s.modCage f g).power = s.power := rfl
@[simp] theorem State.modCage_heat (s : State) (f : Nat) (g : Cage → Cage) : (s.modCage f g).heat = s.heat := rfl
@[simp] theorem State.modCage_pump (s : State) (f : Nat) (g : Cage → Cage) : (s.modCage f g).pump = s.pump := rfl
@[simp] theorem State.modCage_bus (s : State) (f : Nat) (g : Cage → Cage) : (s.modCage f g).bus = s.bus := rfl
@[simp] theorem State.modCage_ward (s : State) (f : Nat) (g : Cage → Cage) : (s.modCage f g).ward = s.ward := rfl

@[simp] theorem State.modGroup_same (s : State) (f : Nat) (g : Group → Group) : (s.modGroup f g).group f = g (s.group f) := tget_tput_same ..
@[simp] theorem State.modGroup_other {s : State} {f : Nat} {g : Group → Group} {k : Nat} (h : k ≠ f) : (s.modGroup f g).group k = s.group k := tget_tput_other h
@[simp] theorem State.modGroup_pending (s : State) (f : Nat) (g : Group → Group) : (s.modGroup f g).pending = s.pending := rfl
@[simp] theorem State.modGroup_free (s : State) (f : Nat) (g : Group → Group) : (s.modGroup f g).free = s.free := rfl
@[simp] theorem State.modGroup_now (s : State) (f : Nat) (g : Group → Group) : (s.modGroup f g).now = s.now := rfl
@[simp] theorem State.modGroup_ao (s : State) (f : Nat) (g : Group → Group) : (s.modGroup f g).ao = s.ao := rfl
@[simp] theorem State.modGroup_sup (s : State) (f : Nat) (g : Group → Group) : (s.modGroup f g).sup = s.sup := rfl
@[simp] theorem State.modGroup_adit (s : State) (f : Nat) (g : Group → Group) : (s.modGroup f g).adit = s.adit := rfl
@[simp] theorem State.modGroup_host (s : State) (f : Nat) (g : Group → Group) : (s.modGroup f g).host = s.host := rfl
@[simp] theorem State.modGroup_rings (s : State) (f : Nat) (g : Group → Group) : (s.modGroup f g).rings = s.rings := rfl
@[simp] theorem State.modGroup_cages (s : State) (f : Nat) (g : Group → Group) : (s.modGroup f g).cages = s.cages := rfl
@[simp] theorem State.modGroup_mem (s : State) (f : Nat) (g : Group → Group) : (s.modGroup f g).mem = s.mem := rfl
@[simp] theorem State.modGroup_mgmt (s : State) (f : Nat) (g : Group → Group) : (s.modGroup f g).mgmt = s.mgmt := rfl
@[simp] theorem State.modGroup_links (s : State) (f : Nat) (g : Group → Group) : (s.modGroup f g).links = s.links := rfl
@[simp] theorem State.modGroup_coll (s : State) (f : Nat) (g : Group → Group) : (s.modGroup f g).coll = s.coll := rfl
@[simp] theorem State.modGroup_power (s : State) (f : Nat) (g : Group → Group) : (s.modGroup f g).power = s.power := rfl
@[simp] theorem State.modGroup_heat (s : State) (f : Nat) (g : Group → Group) : (s.modGroup f g).heat = s.heat := rfl
@[simp] theorem State.modGroup_pump (s : State) (f : Nat) (g : Group → Group) : (s.modGroup f g).pump = s.pump := rfl
@[simp] theorem State.modGroup_bus (s : State) (f : Nat) (g : Group → Group) : (s.modGroup f g).bus = s.bus := rfl
@[simp] theorem State.modGroup_ward (s : State) (f : Nat) (g : Group → Group) : (s.modGroup f g).ward = s.ward := rfl

@[simp] theorem State.modClus_same (s : State) (f : Nat) (g : Clus → Clus) : (s.modClus f g).clus f = g (s.clus f) := tget_tput_same ..
@[simp] theorem State.modClus_other {s : State} {f : Nat} {g : Clus → Clus} {k : Nat} (h : k ≠ f) : (s.modClus f g).clus k = s.clus k := tget_tput_other h
@[simp] theorem State.modClus_pending (s : State) (f : Nat) (g : Clus → Clus) : (s.modClus f g).pending = s.pending := rfl
@[simp] theorem State.modClus_free (s : State) (f : Nat) (g : Clus → Clus) : (s.modClus f g).free = s.free := rfl
@[simp] theorem State.modClus_now (s : State) (f : Nat) (g : Clus → Clus) : (s.modClus f g).now = s.now := rfl
@[simp] theorem State.modClus_ao (s : State) (f : Nat) (g : Clus → Clus) : (s.modClus f g).ao = s.ao := rfl
@[simp] theorem State.modClus_sup (s : State) (f : Nat) (g : Clus → Clus) : (s.modClus f g).sup = s.sup := rfl
@[simp] theorem State.modClus_adit (s : State) (f : Nat) (g : Clus → Clus) : (s.modClus f g).adit = s.adit := rfl
@[simp] theorem State.modClus_host (s : State) (f : Nat) (g : Clus → Clus) : (s.modClus f g).host = s.host := rfl
@[simp] theorem State.modClus_rings (s : State) (f : Nat) (g : Clus → Clus) : (s.modClus f g).rings = s.rings := rfl
@[simp] theorem State.modClus_cages (s : State) (f : Nat) (g : Clus → Clus) : (s.modClus f g).cages = s.cages := rfl
@[simp] theorem State.modClus_mem (s : State) (f : Nat) (g : Clus → Clus) : (s.modClus f g).mem = s.mem := rfl
@[simp] theorem State.modClus_mgmt (s : State) (f : Nat) (g : Clus → Clus) : (s.modClus f g).mgmt = s.mgmt := rfl
@[simp] theorem State.modClus_links (s : State) (f : Nat) (g : Clus → Clus) : (s.modClus f g).links = s.links := rfl
@[simp] theorem State.modClus_coll (s : State) (f : Nat) (g : Clus → Clus) : (s.modClus f g).coll = s.coll := rfl
@[simp] theorem State.modClus_power (s : State) (f : Nat) (g : Clus → Clus) : (s.modClus f g).power = s.power := rfl
@[simp] theorem State.modClus_heat (s : State) (f : Nat) (g : Clus → Clus) : (s.modClus f g).heat = s.heat := rfl
@[simp] theorem State.modClus_pump (s : State) (f : Nat) (g : Clus → Clus) : (s.modClus f g).pump = s.pump := rfl
@[simp] theorem State.modClus_bus (s : State) (f : Nat) (g : Clus → Clus) : (s.modClus f g).bus = s.bus := rfl
@[simp] theorem State.modClus_ward (s : State) (f : Nat) (g : Clus → Clus) : (s.modClus f g).ward = s.ward := rfl

@[simp] theorem State.modStack_same (s : State) (f : Nat) (g : Stack → Stack) : (s.modStack f g).stack f = g (s.stack f) := tget_tput_same ..
@[simp] theorem State.modStack_other {s : State} {f : Nat} {g : Stack → Stack} {k : Nat} (h : k ≠ f) : (s.modStack f g).stack k = s.stack k := tget_tput_other h
@[simp] theorem State.modStack_pending (s : State) (f : Nat) (g : Stack → Stack) : (s.modStack f g).pending = s.pending := rfl
@[simp] theorem State.modStack_free (s : State) (f : Nat) (g : Stack → Stack) : (s.modStack f g).free = s.free := rfl
@[simp] theorem State.modStack_now (s : State) (f : Nat) (g : Stack → Stack) : (s.modStack f g).now = s.now := rfl
@[simp] theorem State.modStack_ao (s : State) (f : Nat) (g : Stack → Stack) : (s.modStack f g).ao = s.ao := rfl
@[simp] theorem State.modStack_sup (s : State) (f : Nat) (g : Stack → Stack) : (s.modStack f g).sup = s.sup := rfl
@[simp] theorem State.modStack_adit (s : State) (f : Nat) (g : Stack → Stack) : (s.modStack f g).adit = s.adit := rfl
@[simp] theorem State.modStack_host (s : State) (f : Nat) (g : Stack → Stack) : (s.modStack f g).host = s.host := rfl
@[simp] theorem State.modStack_rings (s : State) (f : Nat) (g : Stack → Stack) : (s.modStack f g).rings = s.rings := rfl
@[simp] theorem State.modStack_cages (s : State) (f : Nat) (g : Stack → Stack) : (s.modStack f g).cages = s.cages := rfl
@[simp] theorem State.modStack_beat (s : State) (f : Nat) (g : Stack → Stack) : (s.modStack f g).beat = s.beat := rfl
@[simp] theorem State.modStack_mgmt (s : State) (f : Nat) (g : Stack → Stack) : (s.modStack f g).mgmt = s.mgmt := rfl
@[simp] theorem State.modStack_links (s : State) (f : Nat) (g : Stack → Stack) : (s.modStack f g).links = s.links := rfl
@[simp] theorem State.modStack_coll (s : State) (f : Nat) (g : Stack → Stack) : (s.modStack f g).coll = s.coll := rfl
@[simp] theorem State.modStack_power (s : State) (f : Nat) (g : Stack → Stack) : (s.modStack f g).power = s.power := rfl
@[simp] theorem State.modStack_heat (s : State) (f : Nat) (g : Stack → Stack) : (s.modStack f g).heat = s.heat := rfl
@[simp] theorem State.modStack_pump (s : State) (f : Nat) (g : Stack → Stack) : (s.modStack f g).pump = s.pump := rfl
@[simp] theorem State.modStack_bus (s : State) (f : Nat) (g : Stack → Stack) : (s.modStack f g).bus = s.bus := rfl
@[simp] theorem State.modStack_ward (s : State) (f : Nat) (g : Stack → Stack) : (s.modStack f g).ward = s.ward := rfl

@[simp] theorem State.modLink_same (s : State) (f : Nat) (g : Lk → Lk) : (s.modLink f g).link f = g (s.link f) := tget_tput_same ..
@[simp] theorem State.modLink_other {s : State} {f : Nat} {g : Lk → Lk} {k : Nat} (h : k ≠ f) : (s.modLink f g).link k = s.link k := tget_tput_other h
@[simp] theorem State.modLink_pending (s : State) (f : Nat) (g : Lk → Lk) : (s.modLink f g).pending = s.pending := rfl
@[simp] theorem State.modLink_free (s : State) (f : Nat) (g : Lk → Lk) : (s.modLink f g).free = s.free := rfl
@[simp] theorem State.modLink_now (s : State) (f : Nat) (g : Lk → Lk) : (s.modLink f g).now = s.now := rfl
@[simp] theorem State.modLink_ao (s : State) (f : Nat) (g : Lk → Lk) : (s.modLink f g).ao = s.ao := rfl
@[simp] theorem State.modLink_sup (s : State) (f : Nat) (g : Lk → Lk) : (s.modLink f g).sup = s.sup := rfl
@[simp] theorem State.modLink_adit (s : State) (f : Nat) (g : Lk → Lk) : (s.modLink f g).adit = s.adit := rfl
@[simp] theorem State.modLink_host (s : State) (f : Nat) (g : Lk → Lk) : (s.modLink f g).host = s.host := rfl
@[simp] theorem State.modLink_rings (s : State) (f : Nat) (g : Lk → Lk) : (s.modLink f g).rings = s.rings := rfl
@[simp] theorem State.modLink_cages (s : State) (f : Nat) (g : Lk → Lk) : (s.modLink f g).cages = s.cages := rfl
@[simp] theorem State.modLink_beat (s : State) (f : Nat) (g : Lk → Lk) : (s.modLink f g).beat = s.beat := rfl
@[simp] theorem State.modLink_mem (s : State) (f : Nat) (g : Lk → Lk) : (s.modLink f g).mem = s.mem := rfl
@[simp] theorem State.modLink_mgmt (s : State) (f : Nat) (g : Lk → Lk) : (s.modLink f g).mgmt = s.mgmt := rfl
@[simp] theorem State.modLink_coll (s : State) (f : Nat) (g : Lk → Lk) : (s.modLink f g).coll = s.coll := rfl
@[simp] theorem State.modLink_power (s : State) (f : Nat) (g : Lk → Lk) : (s.modLink f g).power = s.power := rfl
@[simp] theorem State.modLink_heat (s : State) (f : Nat) (g : Lk → Lk) : (s.modLink f g).heat = s.heat := rfl
@[simp] theorem State.modLink_pump (s : State) (f : Nat) (g : Lk → Lk) : (s.modLink f g).pump = s.pump := rfl
@[simp] theorem State.modLink_bus (s : State) (f : Nat) (g : Lk → Lk) : (s.modLink f g).bus = s.bus := rfl
@[simp] theorem State.modLink_ward (s : State) (f : Nat) (g : Lk → Lk) : (s.modLink f g).ward = s.ward := rfl

@[simp] theorem State.setFrame_same (s : State) (f : Nat) (v : FrameSt) : (s.setFrame f v).frame f = v := tget_tput_same ..
@[simp] theorem State.setFrame_other {s : State} {f : Nat} {v : FrameSt} {k : Nat} (h : k ≠ f) : (s.setFrame f v).frame k = s.frame k := tget_tput_other h
@[simp] theorem State.setFrame_pending (s : State) (f : Nat) (v : FrameSt) : (s.setFrame f v).pending = s.pending := rfl
@[simp] theorem State.setFrame_free (s : State) (f : Nat) (v : FrameSt) : (s.setFrame f v).free = s.free := rfl
@[simp] theorem State.setFrame_now (s : State) (f : Nat) (v : FrameSt) : (s.setFrame f v).now = s.now := rfl
@[simp] theorem State.setFrame_ao (s : State) (f : Nat) (v : FrameSt) : (s.setFrame f v).ao = s.ao := rfl
@[simp] theorem State.setFrame_sup (s : State) (f : Nat) (v : FrameSt) : (s.setFrame f v).sup = s.sup := rfl
@[simp] theorem State.setFrame_adit (s : State) (f : Nat) (v : FrameSt) : (s.setFrame f v).adit = s.adit := rfl
@[simp] theorem State.setFrame_host (s : State) (f : Nat) (v : FrameSt) : (s.setFrame f v).host = s.host := rfl
@[simp] theorem State.setFrame_rings (s : State) (f : Nat) (v : FrameSt) : (s.setFrame f v).rings = s.rings := rfl
@[simp] theorem State.setFrame_beat (s : State) (f : Nat) (v : FrameSt) : (s.setFrame f v).beat = s.beat := rfl
@[simp] theorem State.setFrame_mem (s : State) (f : Nat) (v : FrameSt) : (s.setFrame f v).mem = s.mem := rfl
@[simp] theorem State.setFrame_mgmt (s : State) (f : Nat) (v : FrameSt) : (s.setFrame f v).mgmt = s.mgmt := rfl
@[simp] theorem State.setFrame_links (s : State) (f : Nat) (v : FrameSt) : (s.setFrame f v).links = s.links := rfl
@[simp] theorem State.setFrame_coll (s : State) (f : Nat) (v : FrameSt) : (s.setFrame f v).coll = s.coll := rfl
@[simp] theorem State.setFrame_power (s : State) (f : Nat) (v : FrameSt) : (s.setFrame f v).power = s.power := rfl
@[simp] theorem State.setFrame_heat (s : State) (f : Nat) (v : FrameSt) : (s.setFrame f v).heat = s.heat := rfl
@[simp] theorem State.setFrame_pump (s : State) (f : Nat) (v : FrameSt) : (s.setFrame f v).pump = s.pump := rfl
@[simp] theorem State.setFrame_bus (s : State) (f : Nat) (v : FrameSt) : (s.setFrame f v).bus = s.bus := rfl
@[simp] theorem State.setFrame_ward (s : State) (f : Nat) (v : FrameSt) : (s.setFrame f v).ward = s.ward := rfl

@[simp] theorem modSensor_same (s : State) (f : Nat) (g : Sensor → Sensor) : (modSensor f g s).sensor f = g (s.sensor f) := tget_tput_same ..
@[simp] theorem modSensor_other {s : State} {f : Nat} {g : Sensor → Sensor} {k : Nat} (h : k ≠ f) : (modSensor f g s).sensor k = s.sensor k := tget_tput_other h
@[simp] theorem modSensor_pending (s : State) (f : Nat) (g : Sensor → Sensor) : (modSensor f g s).pending = s.pending := rfl
@[simp] theorem modSensor_free (s : State) (f : Nat) (g : Sensor → Sensor) : (modSensor f g s).free = s.free := rfl
@[simp] theorem modSensor_now (s : State) (f : Nat) (g : Sensor → Sensor) : (modSensor f g s).now = s.now := rfl
@[simp] theorem modSensor_ao (s : State) (f : Nat) (g : Sensor → Sensor) : (modSensor f g s).ao = s.ao := rfl
@[simp] theorem modSensor_sup (s : State) (f : Nat) (g : Sensor → Sensor) : (modSensor f g s).sup = s.sup := rfl
@[simp] theorem modSensor_adit (s : State) (f : Nat) (g : Sensor → Sensor) : (modSensor f g s).adit = s.adit := rfl
@[simp] theorem modSensor_host (s : State) (f : Nat) (g : Sensor → Sensor) : (modSensor f g s).host = s.host := rfl
@[simp] theorem modSensor_rings (s : State) (f : Nat) (g : Sensor → Sensor) : (modSensor f g s).rings = s.rings := rfl
@[simp] theorem modSensor_cages (s : State) (f : Nat) (g : Sensor → Sensor) : (modSensor f g s).cages = s.cages := rfl
@[simp] theorem modSensor_beat (s : State) (f : Nat) (g : Sensor → Sensor) : (modSensor f g s).beat = s.beat := rfl
@[simp] theorem modSensor_mem (s : State) (f : Nat) (g : Sensor → Sensor) : (modSensor f g s).mem = s.mem := rfl
@[simp] theorem modSensor_mgmt (s : State) (f : Nat) (g : Sensor → Sensor) : (modSensor f g s).mgmt = s.mgmt := rfl
@[simp] theorem modSensor_links (s : State) (f : Nat) (g : Sensor → Sensor) : (modSensor f g s).links = s.links := rfl
@[simp] theorem modSensor_coll (s : State) (f : Nat) (g : Sensor → Sensor) : (modSensor f g s).coll = s.coll := rfl
@[simp] theorem modSensor_power (s : State) (f : Nat) (g : Sensor → Sensor) : (modSensor f g s).power = s.power := rfl
@[simp] theorem modSensor_pump (s : State) (f : Nat) (g : Sensor → Sensor) : (modSensor f g s).pump = s.pump := rfl
@[simp] theorem modSensor_bus (s : State) (f : Nat) (g : Sensor → Sensor) : (modSensor f g s).bus = s.bus := rfl
@[simp] theorem modSensor_ward (s : State) (f : Nat) (g : Sensor → Sensor) : (modSensor f g s).ward = s.ward := rfl

@[simp] theorem modZone_same (s : State) (f : Nat) (g : Zone → Zone) : (modZone f g s).zone f = g (s.zone f) := tget_tput_same ..
@[simp] theorem modZone_other {s : State} {f : Nat} {g : Zone → Zone} {k : Nat} (h : k ≠ f) : (modZone f g s).zone k = s.zone k := tget_tput_other h
@[simp] theorem modZone_pending (s : State) (f : Nat) (g : Zone → Zone) : (modZone f g s).pending = s.pending := rfl
@[simp] theorem modZone_free (s : State) (f : Nat) (g : Zone → Zone) : (modZone f g s).free = s.free := rfl
@[simp] theorem modZone_now (s : State) (f : Nat) (g : Zone → Zone) : (modZone f g s).now = s.now := rfl
@[simp] theorem modZone_ao (s : State) (f : Nat) (g : Zone → Zone) : (modZone f g s).ao = s.ao := rfl
@[simp] theorem modZone_sup (s : State) (f : Nat) (g : Zone → Zone) : (modZone f g s).sup = s.sup := rfl
@[simp] theorem modZone_adit (s : State) (f : Nat) (g : Zone → Zone) : (modZone f g s).adit = s.adit := rfl
@[simp] theorem modZone_host (s : State) (f : Nat) (g : Zone → Zone) : (modZone f g s).host = s.host := rfl
@[simp] theorem modZone_rings (s : State) (f : Nat) (g : Zone → Zone) : (modZone f g s).rings = s.rings := rfl
@[simp] theorem modZone_cages (s : State) (f : Nat) (g : Zone → Zone) : (modZone f g s).cages = s.cages := rfl
@[simp] theorem modZone_beat (s : State) (f : Nat) (g : Zone → Zone) : (modZone f g s).beat = s.beat := rfl
@[simp] theorem modZone_mem (s : State) (f : Nat) (g : Zone → Zone) : (modZone f g s).mem = s.mem := rfl
@[simp] theorem modZone_mgmt (s : State) (f : Nat) (g : Zone → Zone) : (modZone f g s).mgmt = s.mgmt := rfl
@[simp] theorem modZone_links (s : State) (f : Nat) (g : Zone → Zone) : (modZone f g s).links = s.links := rfl
@[simp] theorem modZone_coll (s : State) (f : Nat) (g : Zone → Zone) : (modZone f g s).coll = s.coll := rfl
@[simp] theorem modZone_power (s : State) (f : Nat) (g : Zone → Zone) : (modZone f g s).power = s.power := rfl
@[simp] theorem modZone_pump (s : State) (f : Nat) (g : Zone → Zone) : (modZone f g s).pump = s.pump := rfl
@[simp] theorem modZone_bus (s : State) (f : Nat) (g : Zone → Zone) : (modZone f g s).bus = s.bus := rfl
@[simp] theorem modZone_ward (s : State) (f : Nat) (g : Zone → Zone) : (modZone f g s).ward = s.ward := rfl

@[simp] theorem modThr_same (s : State) (f : Nat) (g : Thr → Thr) : (modThr f g s).thr f = g (s.thr f) := tget_tput_same ..
@[simp] theorem modThr_other {s : State} {f : Nat} {g : Thr → Thr} {k : Nat} (h : k ≠ f) : (modThr f g s).thr k = s.thr k := tget_tput_other h
@[simp] theorem modThr_pending (s : State) (f : Nat) (g : Thr → Thr) : (modThr f g s).pending = s.pending := rfl
@[simp] theorem modThr_free (s : State) (f : Nat) (g : Thr → Thr) : (modThr f g s).free = s.free := rfl
@[simp] theorem modThr_now (s : State) (f : Nat) (g : Thr → Thr) : (modThr f g s).now = s.now := rfl
@[simp] theorem modThr_ao (s : State) (f : Nat) (g : Thr → Thr) : (modThr f g s).ao = s.ao := rfl
@[simp] theorem modThr_sup (s : State) (f : Nat) (g : Thr → Thr) : (modThr f g s).sup = s.sup := rfl
@[simp] theorem modThr_adit (s : State) (f : Nat) (g : Thr → Thr) : (modThr f g s).adit = s.adit := rfl
@[simp] theorem modThr_host (s : State) (f : Nat) (g : Thr → Thr) : (modThr f g s).host = s.host := rfl
@[simp] theorem modThr_rings (s : State) (f : Nat) (g : Thr → Thr) : (modThr f g s).rings = s.rings := rfl
@[simp] theorem modThr_cages (s : State) (f : Nat) (g : Thr → Thr) : (modThr f g s).cages = s.cages := rfl
@[simp] theorem modThr_beat (s : State) (f : Nat) (g : Thr → Thr) : (modThr f g s).beat = s.beat := rfl
@[simp] theorem modThr_mem (s : State) (f : Nat) (g : Thr → Thr) : (modThr f g s).mem = s.mem := rfl
@[simp] theorem modThr_mgmt (s : State) (f : Nat) (g : Thr → Thr) : (modThr f g s).mgmt = s.mgmt := rfl
@[simp] theorem modThr_links (s : State) (f : Nat) (g : Thr → Thr) : (modThr f g s).links = s.links := rfl
@[simp] theorem modThr_coll (s : State) (f : Nat) (g : Thr → Thr) : (modThr f g s).coll = s.coll := rfl
@[simp] theorem modThr_power (s : State) (f : Nat) (g : Thr → Thr) : (modThr f g s).power = s.power := rfl
@[simp] theorem modThr_pump (s : State) (f : Nat) (g : Thr → Thr) : (modThr f g s).pump = s.pump := rfl
@[simp] theorem modThr_bus (s : State) (f : Nat) (g : Thr → Thr) : (modThr f g s).bus = s.bus := rfl
@[simp] theorem modThr_ward (s : State) (f : Nat) (g : Thr → Thr) : (modThr f g s).ward = s.ward := rfl

@[simp] theorem modSlotBook_same (s : State) (f : Nat) (g : Alloc → Alloc) : (modSlotBook f g s).slotBook f = g (s.slotBook f) := tget_tput_same ..
@[simp] theorem modSlotBook_other {s : State} {f : Nat} {g : Alloc → Alloc} {k : Nat} (h : k ≠ f) : (modSlotBook f g s).slotBook k = s.slotBook k := tget_tput_other h
@[simp] theorem modSlotBook_pending (s : State) (f : Nat) (g : Alloc → Alloc) : (modSlotBook f g s).pending = s.pending := rfl
@[simp] theorem modSlotBook_free (s : State) (f : Nat) (g : Alloc → Alloc) : (modSlotBook f g s).free = s.free := rfl
@[simp] theorem modSlotBook_now (s : State) (f : Nat) (g : Alloc → Alloc) : (modSlotBook f g s).now = s.now := rfl
@[simp] theorem modSlotBook_ao (s : State) (f : Nat) (g : Alloc → Alloc) : (modSlotBook f g s).ao = s.ao := rfl
@[simp] theorem modSlotBook_sup (s : State) (f : Nat) (g : Alloc → Alloc) : (modSlotBook f g s).sup = s.sup := rfl
@[simp] theorem modSlotBook_adit (s : State) (f : Nat) (g : Alloc → Alloc) : (modSlotBook f g s).adit = s.adit := rfl
@[simp] theorem modSlotBook_host (s : State) (f : Nat) (g : Alloc → Alloc) : (modSlotBook f g s).host = s.host := rfl
@[simp] theorem modSlotBook_rings (s : State) (f : Nat) (g : Alloc → Alloc) : (modSlotBook f g s).rings = s.rings := rfl
@[simp] theorem modSlotBook_cages (s : State) (f : Nat) (g : Alloc → Alloc) : (modSlotBook f g s).cages = s.cages := rfl
@[simp] theorem modSlotBook_beat (s : State) (f : Nat) (g : Alloc → Alloc) : (modSlotBook f g s).beat = s.beat := rfl
@[simp] theorem modSlotBook_mem (s : State) (f : Nat) (g : Alloc → Alloc) : (modSlotBook f g s).mem = s.mem := rfl
@[simp] theorem modSlotBook_mgmt (s : State) (f : Nat) (g : Alloc → Alloc) : (modSlotBook f g s).mgmt = s.mgmt := rfl
@[simp] theorem modSlotBook_links (s : State) (f : Nat) (g : Alloc → Alloc) : (modSlotBook f g s).links = s.links := rfl
@[simp] theorem modSlotBook_coll (s : State) (f : Nat) (g : Alloc → Alloc) : (modSlotBook f g s).coll = s.coll := rfl
@[simp] theorem modSlotBook_power (s : State) (f : Nat) (g : Alloc → Alloc) : (modSlotBook f g s).power = s.power := rfl
@[simp] theorem modSlotBook_heat (s : State) (f : Nat) (g : Alloc → Alloc) : (modSlotBook f g s).heat = s.heat := rfl
@[simp] theorem modSlotBook_pump (s : State) (f : Nat) (g : Alloc → Alloc) : (modSlotBook f g s).pump = s.pump := rfl
@[simp] theorem modSlotBook_bus (s : State) (f : Nat) (g : Alloc → Alloc) : (modSlotBook f g s).bus = s.bus := rfl

@[simp] theorem modRackBook_same (s : State) (f : Nat) (g : Alloc → Alloc) : (modRackBook f g s).rackBook f = g (s.rackBook f) := tget_tput_same ..
@[simp] theorem modRackBook_other {s : State} {f : Nat} {g : Alloc → Alloc} {k : Nat} (h : k ≠ f) : (modRackBook f g s).rackBook k = s.rackBook k := tget_tput_other h
@[simp] theorem modRackBook_pending (s : State) (f : Nat) (g : Alloc → Alloc) : (modRackBook f g s).pending = s.pending := rfl
@[simp] theorem modRackBook_free (s : State) (f : Nat) (g : Alloc → Alloc) : (modRackBook f g s).free = s.free := rfl
@[simp] theorem modRackBook_now (s : State) (f : Nat) (g : Alloc → Alloc) : (modRackBook f g s).now = s.now := rfl
@[simp] theorem modRackBook_ao (s : State) (f : Nat) (g : Alloc → Alloc) : (modRackBook f g s).ao = s.ao := rfl
@[simp] theorem modRackBook_sup (s : State) (f : Nat) (g : Alloc → Alloc) : (modRackBook f g s).sup = s.sup := rfl
@[simp] theorem modRackBook_adit (s : State) (f : Nat) (g : Alloc → Alloc) : (modRackBook f g s).adit = s.adit := rfl
@[simp] theorem modRackBook_host (s : State) (f : Nat) (g : Alloc → Alloc) : (modRackBook f g s).host = s.host := rfl
@[simp] theorem modRackBook_rings (s : State) (f : Nat) (g : Alloc → Alloc) : (modRackBook f g s).rings = s.rings := rfl
@[simp] theorem modRackBook_cages (s : State) (f : Nat) (g : Alloc → Alloc) : (modRackBook f g s).cages = s.cages := rfl
@[simp] theorem modRackBook_beat (s : State) (f : Nat) (g : Alloc → Alloc) : (modRackBook f g s).beat = s.beat := rfl
@[simp] theorem modRackBook_mem (s : State) (f : Nat) (g : Alloc → Alloc) : (modRackBook f g s).mem = s.mem := rfl
@[simp] theorem modRackBook_mgmt (s : State) (f : Nat) (g : Alloc → Alloc) : (modRackBook f g s).mgmt = s.mgmt := rfl
@[simp] theorem modRackBook_links (s : State) (f : Nat) (g : Alloc → Alloc) : (modRackBook f g s).links = s.links := rfl
@[simp] theorem modRackBook_coll (s : State) (f : Nat) (g : Alloc → Alloc) : (modRackBook f g s).coll = s.coll := rfl
@[simp] theorem modRackBook_power (s : State) (f : Nat) (g : Alloc → Alloc) : (modRackBook f g s).power = s.power := rfl
@[simp] theorem modRackBook_heat (s : State) (f : Nat) (g : Alloc → Alloc) : (modRackBook f g s).heat = s.heat := rfl
@[simp] theorem modRackBook_pump (s : State) (f : Nat) (g : Alloc → Alloc) : (modRackBook f g s).pump = s.pump := rfl
@[simp] theorem modRackBook_bus (s : State) (f : Nat) (g : Alloc → Alloc) : (modRackBook f g s).bus = s.bus := rfl

theorem pageKey_inj {c d p q : Nat} (hp : p < 65536) (hq : q < 65536) (h : pageKey c p = pageKey d q) : c = d ∧ p = q := by
  unfold pageKey at h
  omega

@[simp] theorem State.modPage_same (s : State) (c p : Nat) (g : Page → Page) : (s.modPage c p g).page c p = g (s.page c p) := tget_tput_same ..
@[simp] theorem State.modPage_other {s : State} {c p d q : Nat} {g : Page → Page} (h : pageKey d q ≠ pageKey c p) : (s.modPage c p g).page d q = s.page d q := tget_tput_other h

@[simp] theorem State.modPage_pending (s : State) (c p : Nat) (g : Page → Page) : (s.modPage c p g).pending = s.pending := rfl
@[simp] theorem State.modPage_free (s : State) (c p : Nat) (g : Page → Page) : (s.modPage c p g).free = s.free := rfl
@[simp] theorem State.modPage_now (s : State) (c p : Nat) (g : Page → Page) : (s.modPage c p g).now = s.now := rfl
@[simp] theorem State.modPage_ao (s : State) (c p : Nat) (g : Page → Page) : (s.modPage c p g).ao = s.ao := rfl
@[simp] theorem State.modPage_sup (s : State) (c p : Nat) (g : Page → Page) : (s.modPage c p g).sup = s.sup := rfl
@[simp] theorem State.modPage_adit (s : State) (c p : Nat) (g : Page → Page) : (s.modPage c p g).adit = s.adit := rfl
@[simp] theorem State.modPage_host (s : State) (c p : Nat) (g : Page → Page) : (s.modPage c p g).host = s.host := rfl
@[simp] theorem State.modPage_rings (s : State) (c p : Nat) (g : Page → Page) : (s.modPage c p g).rings = s.rings := rfl
@[simp] theorem State.modPage_beat (s : State) (c p : Nat) (g : Page → Page) : (s.modPage c p g).beat = s.beat := rfl
@[simp] theorem State.modPage_mem (s : State) (c p : Nat) (g : Page → Page) : (s.modPage c p g).mem = s.mem := rfl
@[simp] theorem State.modPage_mgmt (s : State) (c p : Nat) (g : Page → Page) : (s.modPage c p g).mgmt = s.mgmt := rfl
@[simp] theorem State.modPage_links (s : State) (c p : Nat) (g : Page → Page) : (s.modPage c p g).links = s.links := rfl
@[simp] theorem State.modPage_coll (s : State) (c p : Nat) (g : Page → Page) : (s.modPage c p g).coll = s.coll := rfl
@[simp] theorem State.modPage_power (s : State) (c p : Nat) (g : Page → Page) : (s.modPage c p g).power = s.power := rfl
@[simp] theorem State.modPage_heat (s : State) (c p : Nat) (g : Page → Page) : (s.modPage c p g).heat = s.heat := rfl
@[simp] theorem State.modPage_pump (s : State) (c p : Nat) (g : Page → Page) : (s.modPage c p g).pump = s.pump := rfl
@[simp] theorem State.modPage_bus (s : State) (c p : Nat) (g : Page → Page) : (s.modPage c p g).bus = s.bus := rfl
@[simp] theorem State.modPage_ward (s : State) (c p : Nat) (g : Page → Page) : (s.modPage c p g).ward = s.ward := rfl

end Sys2Proof.Machine
end

