-- ==== Sys2Proof/Laws/Config.lean ====
section
/-! SUPPORT. Which operations leave the configuration of every function as it is. -/

namespace Sys2Proof.Machine

open Sys2Proof

/-- From s to t no configuration changes. -/
def CfgOk (s t : State) : Prop := linkCfg t.host = linkCfg s.host ∧ ∀ f, cfgOf (t.fn f) = cfgOf (s.fn f)

abbrev CfgVia {β : Type} (p : β → State) (s : State) (r : β) : Prop := CfgOk s (p r)

abbrev CfgOpt (s : State) (r : Option State) : Prop := ∀ t, r = some t → CfgOk s t

theorem CfgOk.rfl {s : State} : CfgOk s s := ⟨Eq.refl _, fun _ => Eq.refl _⟩

theorem CfgOk.after {s t u : State} (k : CfgOk t u) (h : CfgOk s t) : CfgOk s u := ⟨k.1.trans h.1, fun f => (k.2 f).trans (h.2 f)⟩

theorem CfgOk.ofOnly {W : List Blk} {s t : State} (h : Only W s t) (k : W.contains .host = false) : CfgOk s t := by
  have e : t.host = s.host := h .host k
  refine ⟨by rw [e], fun f => ?_⟩
  unfold State.fn
  rw [e]

theorem CfgOpt.ofOnly {W : List Blk} {s : State} {r : Option State} (h : OnlyOpt W s r) (k : W.contains .host = false) : CfgOpt s r := fun t e => CfgOk.ofOnly (h t e) k

theorem CfgOk.put {s t u : State} (h : CfgOk s t) (k : CfgOk t u) : CfgOk s u := ⟨k.1.trans h.1, fun f => (k.2 f).trans (h.2 f)⟩

theorem CfgOk.ite {s a b : State} {c : Prop} [Decidable c] (ha : c → CfgOk s a) (hb : ¬c → CfgOk s b) : CfgOk s (if c then a else b) := by
  split
  · exact ha ‹_›
  · exact hb ‹_›

theorem CfgOk.iteV {β : Type} {p : β → State} {s : State} {a b : β} {c : Prop} [Decidable c] (ha : c → CfgVia p s a) (hb : ¬c → CfgVia p s b) : CfgVia p s (if c then a else b) := by
  split
  · exact ha ‹_›
  · exact hb ‹_›

theorem CfgOk.via2 {α : Type} {s x : State} {a : α} (h : CfgOk s x) : CfgVia Prod.snd s (a, x) := h

theorem CfgOk.via1 {α : Type} {s x : State} {a : α} (h : CfgOk s x) : CfgVia Prod.fst s (x, a) := h

theorem CfgOk.via3 {α β : Type} {s x : State} {a : α} {b : β} (h : CfgOk s x) : CfgVia (fun r : α × β × State => r.2.2) s (a, b, x) := h

theorem CfgOk.ofEq {β : Type} {p : β → State} {s t : State} {q r : β} (k : CfgVia p t q) (e : q = r) (h : CfgOk s t) : CfgVia p s r := e ▸ CfgOk.after k h

theorem CfgOpt.none {s : State} : CfgOpt s none := fun _ h => by cases h

theorem CfgOpt.some {s t : State} (h : CfgOk s t) : CfgOpt s (some t) := fun _ e => by cases e; exact h

theorem CfgOk.foldl {α : Type} {s t : State} {g : State → α → State} {l : List α} (k : ∀ t x, CfgOk t (g t x)) (h : CfgOk s t) : CfgOk s (l.foldl g t) := by
  induction l generalizing t with
  | nil => exact h
  | cons a r ih => exact ih ((k t a).after h)

theorem forEach_cfgOk {s : State} {l : List Nat} {g : Nat → State → State} (k : ∀ n t, CfgOk t (g n t)) : CfgOk s (forEach l g s) :=
  CfgOk.foldl (fun t n => k n t) CfgOk.rfl

theorem quietStep_cfg (x : Fn) : cfgOf (quietStep x) = cfgOf x := by
  unfold quietStep
  split <;> exact Eq.refl _

theorem State.modFn_cfgOk {s : State} {f : Nat} {g : Fn → Fn} (h : ∀ x, cfgOf (g x) = cfgOf x) : CfgOk s (s.modFn f g) := by
  refine ⟨Eq.refl _, fun k => ?_⟩
  by_cases e : k = f
  · subst e
    rw [State.modFn_same]
    exact h _
  · rw [State.modFn_other e]

theorem State.modHost_cfgOk {s : State} {g : HostLink → HostLink} (h : ∀ x, linkCfg (g x) = linkCfg x ∧ (g x).fns = x.fns) : CfgOk s (s.modHost g) := by
  refine ⟨(h _).1, fun k => ?_⟩
  unfold State.fn
  rw [State.modHost_host, (h _).2]

theorem aerCorrectable_cfgOk {a0 : Nat} {a1 : AerErr} {a2 : Machine.State} : CfgOk a2 (aerCorrectable a0 a1 a2) := by
  unfold aerCorrectable
  exact State.modFn_cfgOk (by intro x; repeat' (first | exact Eq.refl _ | split))

theorem aerUncorrectable_cfgOk {a0 : Nat} {a1 : AerErr} {a2 : Machine.State} : CfgOk a2 (aerUncorrectable a0 a1 a2) := by
  unfold aerUncorrectable
  exact State.modFn_cfgOk (by intro x; repeat' (first | exact Eq.refl _ | split))

theorem atcTouch_cfgOk {a0 : Nat} {a1 : W64} {a2 : Machine.State} : CfgOk a2 (atcTouch a0 a1 a2) := by
  unfold atcTouch
  exact State.modHost_cfgOk (by intro x; repeat' (first | exact ⟨Eq.refl _, Eq.refl _⟩ | split))

theorem atcInsert_cfgOk {a0 : AtcEntry} {a1 : Machine.State} : CfgOk a1 (atcInsert a0 a1) := by
  unfold atcInsert
  exact State.modHost_cfgOk (by intro x; repeat' (first | exact ⟨Eq.refl _, Eq.refl _⟩ | split))

theorem post_cfgOk {a0 : Nat} {a1 : W64} {a2 : Bytes} {a3 : Option Nat} {a4 : Machine.State} : CfgOk a4 (post a0 a1 a2 a3 a4) := by
  unfold post
  exact State.modHost_cfgOk (by intro x; repeat' (first | exact ⟨Eq.refl _, Eq.refl _⟩ | split))

theorem postPage_cfgOk {a0 : Nat} {a1 : W64} {a2 : Bytes} {a3 : Nat} {a4 : Machine.State} : CfgOk a4 (postPage a0 a1 a2 a3 a4) := by
  unfold postPage
  exact State.modHost_cfgOk (by intro x; repeat' (first | exact ⟨Eq.refl _, Eq.refl _⟩ | split))

theorem pushReq_cfgOk {a0 : Nat} {a1 : W64} {a2 : Nat} {a3 : Bool} {a4 : Why} {a5 : Bool} {a6 : Machine.State} : CfgOk a6 (pushReq a0 a1 a2 a3 a4 a5 a6) := by
  unfold pushReq
  exact State.modHost_cfgOk (by intro x; repeat' (first | exact ⟨Eq.refl _, Eq.refl _⟩ | split))

theorem hostRead_cfgOk {a0 : Nat} {a1 : W64} {a2 : Nat} {a3 : Why} {a4 : Machine.State} : CfgOk a4 (hostRead a0 a1 a2 a3 a4) := by
  unfold hostRead
  split
  · exact CfgOk.after (pushReq_cfgOk) (atcTouch_cfgOk)
  · exact pushReq_cfgOk

theorem modVec_cfgOk {a0 : Nat} {a1 : Nat} {a2 : Vec → Vec} {a3 : Machine.State} : CfgOk a3 (modVec a0 a1 a2 a3) := by
  unfold modVec
  exact State.modFn_cfgOk (by intro x; repeat' (first | exact Eq.refl _ | split))

theorem sendMsi_cfgOk {a0 : Nat} {a1 : Nat} {a2 : Machine.State} : CfgOk a2 (sendMsi a0 a1 a2) := by
  unfold sendMsi
  extract_lets +onlyGivenNames -merge -useContext -underBinder x0
  try clear_value x0
  refine CfgOk.ite (fun _ => ?_) (fun _ => ?_)
  · exact CfgOk.rfl
  · refine CfgOk.ite (fun _ => ?_) (fun _ => ?_)
    · exact modVec_cfgOk
    · exact CfgOk.after (post_cfgOk) (modVec_cfgOk)

theorem rptAnnounce_cfgOk {a0 : Nat} {a1 : Machine.State} : CfgOk a1 (rptAnnounce a0 a1) := by
  unfold rptAnnounce
  extract_lets +onlyGivenNames -merge -useContext -underBinder x0
  try clear_value x0
  refine CfgOk.ite (fun _ => ?_) (fun _ => ?_)
  · exact CfgOk.after (sendMsi_cfgOk) (CfgOk.ofOnly (State.modRpt_only (W := [.rings]) rfl) rfl)
  · exact CfgOk.ofOnly (State.modRpt_only (W := [.rings]) rfl) rfl

theorem writeRec_cfgOk {a0 : Nat} {a1 : Rec} {a2 : W64} {a3 : Machine.State} : CfgOk a3 (writeRec a0 a1 a2 a3) := by
  unfold writeRec
  extract_lets +onlyGivenNames -merge -useContext -underBinder x0
  try clear_value x0
  extract_lets +onlyGivenNames -merge -useContext -underBinder x1
  try clear_value x1
  extract_lets +onlyGivenNames -merge -useContext -underBinder x2
  try clear_value x2
  extract_lets +onlyGivenNames -merge -useContext -underBinder x3
  try clear_value x3
  extract_lets +onlyGivenNames -merge -useContext -underBinder x4
  have h5 : CfgOk a3 x4 := by
    unfold x4
    exact CfgOk.ofOnly (State.modRings_only (W := [.rings]) rfl) rfl
  clear_value x4
  exact CfgOk.after (rptAnnounce_cfgOk) (CfgOk.after (post_cfgOk) (CfgOk.after (CfgOk.ofOnly (State.modRpt_only (W := [.rings]) rfl) rfl) (h5)))

theorem flushList_cfgOk {a0 : List (Nat × Rec)} {a1 : List Nat} {a2 : Machine.State} : CfgVia Prod.snd a2 (flushList a0 a1 a2) := by
  induction a0 generalizing a1 a2 with
  | nil =>
    unfold flushList
    refine CfgOk.via2 ?_
    exact CfgOk.rfl
  | cons hd tl ih =>
    unfold flushList
    refine CfgOk.iteV (fun _ => ?_) (fun _ => ?_)
    · split
      · rename_i y1 y2 q3
        have h0 := CfgOk.ofEq (p := Prod.snd) (by apply ih) q3 (s := a2) (by
          exact CfgOk.rfl
          )
        refine CfgOk.via2 ?_
        exact h0
    · split
      · exact CfgOk.after (by apply ih) (CfgOk.after (writeRec_cfgOk) (atcTouch_cfgOk))
      · split
        · rename_i y5 y6 q7
          have h4 := CfgOk.ofEq (p := Prod.snd) (by apply ih) q7 (s := a2) (by
            exact pushReq_cfgOk
            )
          refine CfgOk.via2 ?_
          exact h4

theorem flushReports_cfgOk {a0 : Machine.State} : CfgOk a0 (flushReports a0) := by
  unfold flushReports
  extract_lets +onlyGivenNames -merge -useContext -underBinder x0
  unfold x0
  exact CfgOk.after (CfgOk.ofOnly (State.modRings_only (W := [.rings]) rfl) rfl) (flushList_cfgOk)

theorem report_cfgOk {a0 : Nat} {a1 : Rec} {a2 : Machine.State} : CfgOk a2 (report a0 a1 a2) := by
  unfold report
  refine CfgOk.ite (fun _ => ?_) (fun _ => ?_)
  · exact CfgOk.rfl
  · extract_lets +onlyGivenNames -merge -useContext -underBinder x0
    try clear_value x0
    refine CfgOk.ite (fun _ => ?_) (fun _ => ?_)
    · exact CfgOk.ofOnly (State.modRings_only (W := [.rings]) rfl) rfl
    · exact CfgOk.after (flushReports_cfgOk) (CfgOk.ofOnly (State.modRings_only (W := [.rings]) rfl) rfl)

theorem reportCtl_cfgOk {a0 : Nat} {a1 : List Fld} {a2 : Nat} {a3 : Machine.State} : CfgOk a3 (reportCtl a0 a1 a2 a3) := by
  unfold reportCtl
  exact report_cfgOk

theorem stopRing_cfgOk {a0 : Nat} {a1 : Nat} {a2 : Machine.State} : CfgOk a2 (stopRing a0 a1 a2) := by
  unfold stopRing
  refine CfgOk.ite (fun _ => ?_) (fun _ => ?_)
  · exact CfgOk.rfl
  · extract_lets +onlyGivenNames -merge -useContext -underBinder x0
    have h1 : CfgOk a2 x0 := by
      unfold x0
      exact report_cfgOk
    clear_value x0
    extract_lets +onlyGivenNames -merge -useContext -underBinder x2
    have h3 : CfgOk a2 x2 := by
      unfold x2
      exact CfgOk.after (CfgOk.ofOnly (State.modRing_only (W := [.rings]) rfl) rfl) (h1)
    clear_value x2
    split
    · refine CfgOk.ite (fun _ => ?_) (fun _ => ?_)
      · exact h3
      · exact CfgOk.after (CfgOk.ofOnly (swapOut_only (W := [.rings]) rfl) rfl) (h3)
    · exact h3

theorem tryFail_cfgOk {a0 : Nat} {a1 : Machine.State} : CfgOk a1 (tryFail a0 a1) := by
  unfold tryFail
  extract_lets +onlyGivenNames -merge -useContext -underBinder x0
  try clear_value x0
  split
  · refine CfgOk.ite (fun _ => ?_) (fun _ => ?_)
    · exact CfgOk.rfl
    · extract_lets +onlyGivenNames -merge -useContext -underBinder x1
      try clear_value x1
      extract_lets +onlyGivenNames -merge -useContext -underBinder x2
      have h3 : CfgOk a1 x2 := by
        unfold x2
        exact CfgOk.ofOnly (State.modCtx_only (W := [.rings]) rfl) rfl
      clear_value x2
      extract_lets +onlyGivenNames -merge -useContext -underBinder x4
      have h5 : CfgOk a1 x4 := by
        unfold x4
        exact CfgOk.after (CfgOk.ofOnly (State.modSlot_only (W := [.rings]) rfl) rfl) (h3)
      clear_value x4
      exact CfgOk.after (stopRing_cfgOk) (CfgOk.after (CfgOk.ofOnly (State.modRing_only (W := [.rings]) rfl) rfl) (h5))
  · exact CfgOk.rfl

theorem issueWhen_cfgOk {a0 : Nat → Bool} {a1 : Nat} {a2 : Nat} {a3 : Nat → Machine.State → Machine.State} {a4 : Machine.State} (g0 : ∀ v0 v1, CfgOk v1 (a3 v0 v1)) : CfgOk a4 (issueWhen a0 a1 a2 a3 a4) := by
  unfold issueWhen
  split
  · exact CfgOk.rfl
  · refine CfgOk.ite (fun _ => ?_) (fun _ => ?_)
    · exact CfgOk.after (CfgOk.ofOnly (refresh_only (W := [.rings]) rfl) rfl) (CfgOk.after (tryFail_cfgOk) (CfgOk.after (g0 _ _) (CfgOk.ofOnly (took_only (W := [.rings]) rfl) rfl)))
    · exact CfgOk.rfl

theorem issueOp_cfgOk {a0 : Nat} {a1 : OpSpec} {a2 : Nat} {a3 : Nat} {a4 : Nat → Machine.State → Machine.State} {a5 : Machine.State} (g0 : ∀ v0 v1, CfgOk v1 (a4 v0 v1)) : CfgOk a5 (issueOp a0 a1 a2 a3 a4 a5) := by
  unfold issueOp
  refine CfgOk.after (issueWhen_cfgOk (fun _ t0 => ?_)) ?_
  · split
    · exact CfgOk.ofOnly (endCmd_only (W := [.rings]) rfl) rfl
    · exact g0 _ _
  · exact CfgOk.rfl

theorem ringAnnounce_cfgOk {a0 : Nat} {a1 : Machine.State} : CfgOk a1 (ringAnnounce a0 a1) := by
  unfold ringAnnounce
  extract_lets +onlyGivenNames -merge -useContext -underBinder x0
  try clear_value x0
  refine CfgOk.ite (fun _ => ?_) (fun _ => ?_)
  · exact CfgOk.after (sendMsi_cfgOk) (CfgOk.ofOnly (State.modRing_only (W := [.rings]) rfl) rfl)
  · exact CfgOk.ofOnly (State.modRing_only (W := [.rings]) rfl) rfl

theorem writeCpl_cfgOk {a0 : Nat} {a1 : W64} {a2 : Machine.State} : CfgOk a2 (writeCpl a0 a1 a2) := by
  unfold writeCpl
  extract_lets +onlyGivenNames -merge -useContext -underBinder x0
  have h1 : CfgOk a2 x0 := by
    unfold x0
    exact CfgOk.ofOnly (applyQuota_only (W := [.cages]) rfl) rfl
  clear_value x0
  extract_lets +onlyGivenNames -merge -useContext -underBinder x2
  try clear_value x2
  extract_lets +onlyGivenNames -merge -useContext -underBinder x3
  try clear_value x3
  extract_lets +onlyGivenNames -merge -useContext -underBinder x4
  try clear_value x4
  extract_lets +onlyGivenNames -merge -useContext -underBinder x5
  have h6 : CfgOk a2 x5 := by
    unfold x5
    exact CfgOk.after (post_cfgOk) (h1)
  clear_value x5
  extract_lets +onlyGivenNames -merge -useContext -underBinder x7
  have h8 : CfgOk a2 x7 := by
    unfold x7
    exact CfgOk.after (CfgOk.ofOnly (State.modRing_only (W := [.rings]) rfl) rfl) (h6)
  clear_value x7
  extract_lets +onlyGivenNames -merge -useContext -underBinder x9
  have h10 : CfgOk a2 x9 := by
    unfold x9
    exact CfgOk.after (CfgOk.ofOnly (State.modCtx_only (W := [.rings]) rfl) rfl) (h8)
  clear_value x9
  refine CfgOk.ite (fun _ => ?_) (fun _ => ?_)
  · exact CfgOk.after (ringAnnounce_cfgOk) (h10)
  · exact h10

theorem cplRefused_cfgOk {a0 : Nat} {a1 : Machine.State} : CfgOk a1 (cplRefused a0 a1) := by
  unfold cplRefused
  exact CfgOk.after (stopRing_cfgOk) (CfgOk.ofOnly (freeCtxOf_only (W := [.rings]) rfl) rfl)

theorem tryComplete_cfgOk {a0 : Nat} {a1 : Machine.State} : CfgOk a1 (tryComplete a0 a1) := by
  unfold tryComplete
  extract_lets +onlyGivenNames -merge -useContext -underBinder x0
  try clear_value x0
  refine CfgOk.ite (fun _ => ?_) (fun _ => ?_)
  · exact CfgOk.rfl
  · split
    · exact CfgOk.after (writeCpl_cfgOk) (atcTouch_cfgOk)
    · exact CfgOk.after (pushReq_cfgOk) (CfgOk.ofOnly (State.modCtx_only (W := [.rings]) rfl) rfl)

theorem evictStep_cfgOk {a0 : Nat} {a1 : Nat} {a2 : Nat} {a3 : Machine.State} : CfgOk a3 (evictStep a0 a1 a2 a3) := by
  induction a2 generalizing a0 a1 a3 with
  | zero =>
    unfold evictStep
    exact CfgOk.rfl
  | succ n ih =>
    unfold evictStep
    split
    · exact CfgOk.rfl
    · refine CfgOk.ite (fun _ => ?_) (fun _ => ?_)
      · exact CfgOk.rfl
      · extract_lets +onlyGivenNames -merge -useContext -underBinder x0
        try clear_value x0
        extract_lets +onlyGivenNames -merge -useContext -underBinder x1
        try clear_value x1
        extract_lets +onlyGivenNames -merge -useContext -underBinder x2
        try clear_value x2
        split
        · exact pushReq_cfgOk
        · extract_lets +onlyGivenNames -merge -useContext -underBinder x3
          have h4 : CfgOk a3 x3 := by
            unfold x3
            refine CfgOk.ite (fun _ => ?_) (fun _ => ?_)
            · exact CfgOk.ofOnly (State.modPage_only (W := [.cages]) rfl) rfl
            · exact CfgOk.rfl
          clear_value x3
          extract_lets +onlyGivenNames -merge -useContext -underBinder x5
          have h6 : CfgOk a3 x5 := by
            unfold x5
            exact CfgOk.after (postPage_cfgOk) (CfgOk.after (atcTouch_cfgOk) (h4))
          clear_value x5
          exact CfgOk.after (by apply ih) (CfgOk.after (CfgOk.ofOnly (modMove_only (W := [.cages]) rfl) rfl) (h6))

theorem restoreStep_cfgOk {a0 : Nat} {a1 : Nat} {a2 : Machine.State} : CfgOk a2 (restoreStep a0 a1 a2) := by
  unfold restoreStep
  split
  · exact CfgOk.rfl
  · refine CfgOk.ite (fun _ => ?_) (fun _ => ?_)
    · exact CfgOk.rfl
    · exact hostRead_cfgOk

theorem startMove_cfgOk {a0 : Nat} {a1 : Nat} {a2 : Machine.State} : CfgOk a2 (startMove a0 a1 a2) := by
  unfold startMove
  split
  · exact CfgOk.rfl
  · extract_lets +onlyGivenNames -merge -useContext -underBinder x0
    have h1 : CfgOk a2 x0 := by
      unfold x0
      exact CfgOk.ofOnly (modMove_only (W := [.cages]) rfl) rfl
    clear_value x0
    refine CfgOk.ite (fun _ => ?_) (fun _ => ?_)
    · extract_lets +onlyGivenNames -merge -useContext -underBinder x2
      have h3 : CfgOk a2 x2 := by
        unfold x2
        refine CfgOk.ite (fun _ => ?_) (fun _ => ?_)
        · exact h1
        · exact CfgOk.after (CfgOk.ofOnly (State.setFrame_only (W := [.cages]) rfl) rfl) (h1)
      clear_value x2
      exact CfgOk.after (evictStep_cfgOk) (CfgOk.after (CfgOk.ofOnly (State.modPage_only (W := [.cages]) rfl) rfl) (h3))
    · exact CfgOk.after (restoreStep_cfgOk) (h1)

theorem kickMoves_cfgOk {a0 : Nat} {a1 : Machine.State} : CfgOk a1 (kickMoves a0 a1) := by
  induction a0 generalizing a1 with
  | zero =>
    unfold kickMoves
    exact CfgOk.rfl
  | succ n ih =>
    unfold kickMoves
    refine CfgOk.ite (fun _ => ?_) (fun _ => ?_)
    · exact CfgOk.rfl
    · split
      · exact CfgOk.rfl
      · exact CfgOk.after (by apply ih) (startMove_cfgOk)

theorem makePlan_cfgOk {a0 : Nat} {a1 : Nat} {a2 : List Nat} {a3 : List Nat} {a4 : Machine.State} : CfgOpt a4 (makePlan a0 a1 a2 a3 a4) := by
  unfold makePlan
  extract_lets +onlyGivenNames -merge -useContext -underBinder x0
  try clear_value x0
  extract_lets +onlyGivenNames -merge -useContext -underBinder x1
  try clear_value x1
  split
  · exact CfgOpt.none
  · rename_i y3 q4
    have h2 := CfgOk.after (s := a4) (CfgOpt.ofOnly (planVictims_only (W := [.free, .cages]) rfl) rfl _ q4) (by
      exact CfgOk.rfl
      )
    extract_lets +onlyGivenNames -merge -useContext -underBinder x5
    have h6 : CfgOk a4 x5 := by
      unfold x5
      exact CfgOk.after (CfgOk.ofOnly (State.modCages_only (W := [.cages]) rfl) rfl) (h2)
    clear_value x5
    split
    · rename_i y8 y9 q10
      have h7 := CfgOk.ofEq (p := Prod.snd) (CfgOk.ofOnly (handOut_only (W := [.free, .cages]) rfl) rfl) q10 (s := a4) (by
        exact h6
        )
      extract_lets +onlyGivenNames -merge -useContext -underBinder x11
      have h12 : CfgOk a4 x11 := by
        unfold x11
        exact CfgOk.after (CfgOk.ofOnly (modPlan_only (W := [.cages]) rfl) rfl) (h7)
      clear_value x11
      refine CfgOpt.some ?_
      exact CfgOk.after (kickMoves_cfgOk) (h12)

theorem evictedRec_cfgOk {a0 : Nat} {a1 : Nat} {a2 : Machine.State} : CfgOk a2 (evictedRec a0 a1 a2) := by
  unfold evictedRec
  split
  · exact CfgOk.rfl
  · refine CfgOk.ite (fun _ => ?_) (fun _ => ?_)
    · exact CfgOk.rfl
    · exact reportCtl_cfgOk

theorem evictDone_cfgOk {a0 : Nat} {a1 : Nat} {a2 : Machine.State} : CfgOk a2 (evictDone a0 a1 a2) := by
  unfold evictDone
  split
  · exact CfgOk.rfl
  · extract_lets +onlyGivenNames -merge -useContext -underBinder x0
    try clear_value x0
    extract_lets +onlyGivenNames -merge -useContext -underBinder x1
    have h2 : CfgOk a2 x1 := by
      unfold x1
      exact CfgOk.ofOnly (dropMove_only (W := [.cages]) rfl) rfl
    clear_value x1
    extract_lets +onlyGivenNames -merge -useContext -underBinder x3
    have h4 : CfgOk a2 x3 := by
      unfold x3
      exact CfgOk.after (CfgOk.ofOnly (State.modPage_only (W := [.cages]) rfl) rfl) (h2)
    clear_value x3
    extract_lets +onlyGivenNames -merge -useContext -underBinder x5
    have h6 : CfgOk a2 x5 := by
      unfold x5
      refine CfgOk.ite (fun _ => ?_) (fun _ => ?_)
      · exact h4
      · exact CfgOk.after (CfgOk.ofOnly (State.setFrame_only (W := [.cages]) rfl) rfl) (h4)
    clear_value x5
    extract_lets +onlyGivenNames -merge -useContext -underBinder x7
    have h8 : CfgOk a2 x7 := by
      unfold x7
      exact CfgOk.after (CfgOk.ofOnly (modPlan_only (W := [.cages]) rfl) rfl) (h6)
    clear_value x7
    extract_lets +onlyGivenNames -merge -useContext -underBinder x9
    have h10 : CfgOk a2 x9 := by
      unfold x9
      exact CfgOk.after (evictedRec_cfgOk) (h8)
    clear_value x9
    extract_lets +onlyGivenNames -merge -useContext -underBinder x11
    have h12 : CfgOk a2 x11 := by
      unfold x11
      refine CfgOk.ite (fun _ => ?_) (fun _ => ?_)
      · exact h10
      · exact CfgOk.after (CfgOk.ofOnly (feedPlan_only (W := [.cages]) rfl) rfl) (h10)
    clear_value x11
    extract_lets +onlyGivenNames -merge -useContext -underBinder x13
    have h14 : CfgOk a2 x13 := by
      unfold x13
      refine CfgOk.foldl (fun t15 _ => ?_) ?_
      · refine CfgOk.ite (fun _ => ?_) (fun _ => ?_)
        · exact CfgOk.after (CfgOk.ofOnly (giveFrame_only (W := [.cages]) rfl) rfl) (CfgOk.ofOnly (modPlan_only (W := [.cages]) rfl) rfl)
        · exact CfgOk.rfl
      · exact h12
    clear_value x13
    exact CfgOk.after (kickMoves_cfgOk) (CfgOk.after (CfgOk.ofOnly (dropPlans_only (W := [.cages]) rfl) rfl) (h14))

theorem restoreDone_cfgOk {a0 : Nat} {a1 : Nat} {a2 : Machine.State} : CfgOk a2 (restoreDone a0 a1 a2) := by
  unfold restoreDone
  extract_lets +onlyGivenNames -merge -useContext -underBinder x0
  try clear_value x0
  extract_lets +onlyGivenNames -merge -useContext -underBinder x1
  have h2 : CfgOk a2 x1 := by
    unfold x1
    exact CfgOk.ofOnly (dropMove_only (W := [.cages]) rfl) rfl
  clear_value x1
  extract_lets +onlyGivenNames -merge -useContext -underBinder x3
  have h4 : CfgOk a2 x3 := by
    unfold x3
    exact CfgOk.after (CfgOk.ofOnly (State.modPage_only (W := [.cages]) rfl) rfl) (CfgOk.after (CfgOk.ofOnly (State.setFrame_only (W := [.cages]) rfl) rfl) (h2))
  clear_value x3
  extract_lets +onlyGivenNames -merge -useContext -underBinder x5
  have h6 : CfgOk a2 x5 := by
    unfold x5
    refine CfgOk.ite (fun _ => ?_) (fun _ => ?_)
    · exact CfgOk.after (reportCtl_cfgOk) (CfgOk.after (CfgOk.ofOnly (poisonFrame_only (W := [.mem]) rfl) rfl) (h4))
    · exact h4
  clear_value x5
  exact CfgOk.after (kickMoves_cfgOk) (CfgOk.after (CfgOk.ofOnly (dropPlans_only (W := [.cages]) rfl) rfl) (h6))

theorem restoreFail_cfgOk {a0 : Nat} {a1 : Nat} {a2 : Machine.State} : CfgOk a2 (restoreFail a0 a1 a2) := by
  unfold restoreFail
  extract_lets +onlyGivenNames -merge -useContext -underBinder x0
  try clear_value x0
  extract_lets +onlyGivenNames -merge -useContext -underBinder x1
  have h2 : CfgOk a2 x1 := by
    unfold x1
    exact CfgOk.ofOnly (dropMove_only (W := [.cages]) rfl) rfl
  clear_value x1
  extract_lets +onlyGivenNames -merge -useContext -underBinder x3
  have h4 : CfgOk a2 x3 := by
    unfold x3
    exact CfgOk.after (CfgOk.ofOnly (State.modPage_only (W := [.cages]) rfl) rfl) (CfgOk.after (CfgOk.ofOnly (State.setFrame_only (W := [.cages]) rfl) rfl) (h2))
  clear_value x3
  exact CfgOk.after (kickMoves_cfgOk) (CfgOk.after (CfgOk.ofOnly (dropPlans_only (W := [.cages]) rfl) rfl) (CfgOk.after (reportCtl_cfgOk) (CfgOk.after (CfgOk.ofOnly (poisonFrame_only (W := [.mem]) rfl) rfl) (h4))))

theorem memGate_cfgOk {a0 : Nat} {a1 : Machine.State → Machine.State} {a2 : Machine.State} (g0 : ∀ v0, CfgOk v0 (a1 v0)) : CfgOk a2 (memGate a0 a1 a2) := by
  unfold memGate
  refine CfgOk.ite (fun _ => ?_) (fun _ => ?_)
  · exact CfgOk.ofOnly (endCmd_only (W := [.rings]) rfl) rfl
  · refine CfgOk.ite (fun _ => ?_) (fun _ => ?_)
    · exact CfgOk.ofOnly (State.modCtx_only (W := [.rings]) rfl) rfl
    · exact CfgOk.after (g0 _) (CfgOk.ofOnly (State.modCtx_only (W := [.rings]) rfl) rfl)

theorem prepare_cfgOk {a0 : Nat} {a1 : Machine.State} : CfgOk a1 (prepare a0 a1) := by
  unfold prepare
  extract_lets +onlyGivenNames -merge -useContext -underBinder x0
  try clear_value x0
  refine CfgOk.ite (fun _ => ?_) (fun _ => ?_)
  · exact CfgOk.rfl
  · refine CfgOk.ite (fun _ => ?_) (fun _ => ?_)
    · exact CfgOk.ofOnly (endCmd_only (W := [.rings]) rfl) rfl
    · refine CfgOk.ite (fun _ => ?_) (fun _ => ?_)
      · exact CfgOk.ofOnly (State.modCtx_only (W := [.rings]) rfl) rfl
      · extract_lets +onlyGivenNames -merge -useContext -underBinder x1
        have h2 : CfgOk a1 x1 := by
          unfold x1
          exact CfgOk.ofOnly (State.modCtx_only (W := [.rings]) rfl) rfl
        clear_value x1
        extract_lets +onlyGivenNames -merge -useContext -underBinder x3
        try clear_value x3
        refine CfgOk.ite (fun _ => ?_) (fun _ => ?_)
        · exact h2
        · split
          · rename_i y5 q6
            have h4 := CfgOk.after (s := a1) (makePlan_cfgOk _ q6) (by
              exact h2
              )
            exact h4
          · extract_lets +onlyGivenNames -merge -useContext -underBinder x7
            try clear_value x7
            refine CfgOk.after (CfgOk.ofOnly (endCmd_only (W := [.rings]) rfl) rfl) ?_
            · refine CfgOk.ite (fun _ => ?_) (fun _ => ?_)
              · refine CfgOk.after (forEach_cfgOk (fun _ t8 => ?_)) ?_
                · exact CfgOk.ofOnly (State.modPage_only (W := [.cages]) rfl) rfl
                · exact h2
              · exact h2

theorem h2dNext_cfgOk {a0 : Nat} {a1 : Machine.State} : CfgOk a1 (h2dNext a0 a1) := by
  unfold h2dNext
  extract_lets +onlyGivenNames -merge -useContext -underBinder x0
  try clear_value x0
  refine CfgOk.ite (fun _ => ?_) (fun _ => ?_)
  · exact CfgOk.ofOnly (endOk_only (W := [.rings]) rfl) rfl
  · refine CfgOk.ite (fun _ => ?_) (fun _ => ?_)
    · exact CfgOk.rfl
    · exact hostRead_cfgOk

theorem endingOr_cfgOk {a0 : Nat} {a1 : Machine.State → Machine.State} {a2 : Machine.State} (g0 : ∀ v0, CfgOk v0 (a1 v0)) : CfgOk a2 (endingOr a0 a1 a2) := by
  unfold endingOr
  refine CfgOk.ite (fun _ => ?_) (fun _ => ?_)
  · exact CfgOk.ofOnly (endCmd_only (W := [.rings]) rfl) rfl
  · exact g0 _

theorem h2dData_cfgOk {a0 : Nat} {a1 : Nat} {a2 : Bytes} {a3 : Machine.State} : CfgOk a3 (h2dData a0 a1 a2 a3) := by
  unfold h2dData
  extract_lets +onlyGivenNames -merge -useContext -underBinder x0
  try clear_value x0
  extract_lets +onlyGivenNames -merge -useContext -underBinder x1
  try clear_value x1
  split
  · rename_i y3 y4 q5
    have h2 := CfgOk.ofEq (p := Prod.fst) (CfgOk.ofOnly (devWrite_only (W := [.cages, .mem]) rfl) rfl) q5 (s := a3) (by
      exact CfgOk.rfl
      )
    split
    · exact CfgOk.after (CfgOk.ofOnly (endCmd_only (W := [.rings]) rfl) rfl) (h2)
    · refine CfgOk.after (endingOr_cfgOk (fun t6 => ?_)) ?_
      · exact h2dNext_cfgOk
      · exact CfgOk.after (CfgOk.ofOnly (State.modCtx_only (W := [.rings]) rfl) rfl) (h2)

theorem d2hRun_cfgOk {a0 : Nat} {a1 : Nat} {a2 : Machine.State} : CfgOk a2 (d2hRun a0 a1 a2) := by
  induction a1 generalizing a0 a2 with
  | zero =>
    unfold d2hRun
    exact CfgOk.rfl
  | succ n ih =>
    unfold d2hRun
    extract_lets +onlyGivenNames -merge -useContext -underBinder x0
    try clear_value x0
    refine CfgOk.ite (fun _ => ?_) (fun _ => ?_)
    · exact CfgOk.ofOnly (endOk_only (W := [.rings]) rfl) rfl
    · refine CfgOk.ite (fun _ => ?_) (fun _ => ?_)
      · exact CfgOk.rfl
      · extract_lets +onlyGivenNames -merge -useContext -underBinder x1
        try clear_value x1
        extract_lets +onlyGivenNames -merge -useContext -underBinder x2
        try clear_value x2
        split
        · exact pushReq_cfgOk
        · split
          · extract_lets +onlyGivenNames -merge -useContext -underBinder x3
            have h4 : CfgOk a2 x3 := by
              unfold x3
              refine CfgOk.ite (fun _ => ?_) (fun _ => ?_)
              · exact CfgOk.rfl
              · exact CfgOk.after (post_cfgOk) (atcTouch_cfgOk)
            clear_value x3
            split
            · exact CfgOk.after (CfgOk.ofOnly (endCmd_only (W := [.rings]) rfl) rfl) (h4)
            · exact CfgOk.after (by apply ih) (CfgOk.after (CfgOk.ofOnly (State.modCtx_only (W := [.rings]) rfl) rfl) (h4))

theorem beginPages_cfgOk {a0 : Nat} {a1 : List Nat} {a2 : List Nat} {a3 : Machine.State} : CfgOk a3 (beginPages a0 a1 a2 a3) := by
  unfold beginPages
  exact CfgOk.after (prepare_cfgOk) (CfgOk.ofOnly (State.modCtx_only (W := [.rings]) rfl) rfl)

theorem bodyCopy_cfgOk {a0 : Nat} {a1 : Machine.State} : CfgOk a1 (bodyCopy a0 a1) := by
  unfold bodyCopy
  extract_lets +onlyGivenNames -merge -useContext -underBinder x0
  try clear_value x0
  extract_lets +onlyGivenNames -merge -useContext -underBinder x1
  try clear_value x1
  split
  · refine CfgOk.after (memGate_cfgOk (fun t2 => ?_)) ?_
    · exact beginPages_cfgOk
    · exact CfgOk.rfl
  · refine CfgOk.after (memGate_cfgOk (fun t3 => ?_)) ?_
    · exact beginPages_cfgOk
    · exact CfgOk.rfl
  · refine CfgOk.after (memGate_cfgOk (fun t4 => ?_)) ?_
    · exact beginPages_cfgOk
    · exact CfgOk.rfl
  · refine CfgOk.after (memGate_cfgOk (fun t5 => ?_)) ?_
    · exact beginPages_cfgOk
    · exact CfgOk.rfl

theorem bodyHostWrite_cfgOk {a0 : Nat} {a1 : Machine.State} : CfgOk a1 (bodyHostWrite a0 a1) := by
  unfold bodyHostWrite
  extract_lets +onlyGivenNames -merge -useContext -underBinder x0
  try clear_value x0
  extract_lets +onlyGivenNames -merge -useContext -underBinder x1
  try clear_value x1
  extract_lets +onlyGivenNames -merge -useContext -underBinder x2
  have h3 : CfgOk a1 x2 := by
    unfold x2
    exact CfgOk.ofOnly (State.modCtx_only (W := [.rings]) rfl) rfl
  clear_value x2
  refine CfgOk.ite (fun _ => ?_) (fun _ => ?_)
  · exact h3
  · split
    · exact CfgOk.after (pushReq_cfgOk) (h3)
    · exact CfgOk.after (CfgOk.ofOnly (endOk_only (W := [.rings]) rfl) rfl) (CfgOk.after (post_cfgOk) (CfgOk.after (atcTouch_cfgOk) (h3)))

theorem bodyMap_cfgOk {a0 : Nat} {a1 : Machine.State} : CfgOk a1 (bodyMap a0 a1) := by
  unfold bodyMap
  extract_lets +onlyGivenNames -merge -useContext -underBinder x0
  try clear_value x0
  extract_lets +onlyGivenNames -merge -useContext -underBinder x1
  try clear_value x1
  extract_lets +onlyGivenNames -merge -useContext -underBinder x2
  try clear_value x2
  extract_lets +onlyGivenNames -merge -useContext -underBinder x3
  try clear_value x3
  extract_lets +onlyGivenNames -merge -useContext -underBinder x4
  try clear_value x4
  extract_lets +onlyGivenNames -merge -useContext -underBinder x5
  try clear_value x5
  refine CfgOk.after (memGate_cfgOk (fun t6 => ?_)) ?_
  · refine CfgOk.ite (fun _ => ?_) (fun _ => ?_)
    · exact CfgOk.ofOnly (endCmd_only (W := [.rings]) rfl) rfl
    · refine CfgOk.ite (fun _ => ?_) (fun _ => ?_)
      · exact CfgOk.ofOnly (endCmd_only (W := [.rings]) rfl) rfl
      · refine CfgOk.ite (fun _ => ?_) (fun _ => ?_)
        · exact CfgOk.ofOnly (endCmd_only (W := [.rings]) rfl) rfl
        · extract_lets +onlyGivenNames -merge -useContext -underBinder x7
          have h8 : CfgOk t6 x7 := by
            unfold x7
            refine CfgOk.after (forEach_cfgOk (fun _ t9 => ?_)) ?_
            · exact CfgOk.ofOnly (mapPage_only (W := [.cages]) rfl) rfl
            · exact CfgOk.rfl
          clear_value x7
          refine CfgOk.ite (fun _ => ?_) (fun _ => ?_)
          · exact CfgOk.after (beginPages_cfgOk) (h8)
          · exact CfgOk.after (CfgOk.ofOnly (endOk_only (W := [.rings]) rfl) rfl) (h8)
  · exact CfgOk.rfl

theorem shadowPost_cfgOk {a0 : Machine.Stream} {a1 : Nat} {a2 : W64} {a3 : Machine.State} : CfgOk a3 (shadowPost a0 a1 a2 a3) := by
  unfold shadowPost
  extract_lets +onlyGivenNames -merge -useContext -underBinder x0
  try clear_value x0
  split
  · extract_lets +onlyGivenNames -merge -useContext -underBinder x1
    have h2 : CfgOk a3 x1 := by
      unfold x1
      refine CfgOk.ite (fun _ => ?_) (fun _ => ?_)
      · exact CfgOk.ofOnly (State.modPage_only (W := [.cages]) rfl) rfl
      · exact CfgOk.rfl
    clear_value x1
    refine CfgOk.ite (fun _ => ?_) (fun _ => ?_)
    · split
      · rename_i y4 y5 q6
        have h3 := CfgOk.ofEq (p := Prod.snd) (CfgOk.ofOnly (drawBytes_only (W := [.free]) rfl) rfl) q6 (s := a3) (by
          exact h2
          )
        exact CfgOk.after (post_cfgOk) (h3)
    · exact CfgOk.after (post_cfgOk) (h2)

theorem shadowRequest_cfgOk {a0 : Machine.Stream} {a1 : Nat} {a2 : Machine.State} : CfgOk a2 (shadowRequest a0 a1 a2) := by
  unfold shadowRequest
  extract_lets +onlyGivenNames -merge -useContext -underBinder x0
  try clear_value x0
  extract_lets +onlyGivenNames -merge -useContext -underBinder x1
  try clear_value x1
  refine CfgOk.ite (fun _ => ?_) (fun _ => ?_)
  · exact CfgOk.rfl
  · extract_lets +onlyGivenNames -merge -useContext -underBinder x2
    try clear_value x2
    extract_lets +onlyGivenNames -merge -useContext -underBinder x3
    have h4 : CfgOk a2 x3 := by
      unfold x3
      exact CfgOk.ofOnly (modStream_only (W := [.beat]) rfl) rfl
    clear_value x3
    refine CfgOk.ite (fun _ => ?_) (fun _ => ?_)
    · exact CfgOk.after (hostRead_cfgOk) (h4)
    · split
      · exact CfgOk.after (shadowPost_cfgOk) (CfgOk.after (atcTouch_cfgOk) (h4))
      · exact CfgOk.after (pushReq_cfgOk) (h4)

theorem kickShadow_cfgOk {a0 : Machine.State} : CfgOk a0 (kickShadow a0) := by
  unfold kickShadow
  refine CfgOk.foldl (fun t0 _ => ?_) ?_
  · refine CfgOk.after (forEach_cfgOk (fun _ t1 => ?_)) ?_
    · exact shadowRequest_cfgOk
    · exact CfgOk.rfl
  · exact CfgOk.rfl

theorem slotStep_cfgOk {a0 : Nat} {a1 : Machine.State} : CfgOk a1 (slotStep a0 a1) := by
  unfold slotStep
  extract_lets +onlyGivenNames -merge -useContext -underBinder x0
  try clear_value x0
  extract_lets +onlyGivenNames -merge -useContext -underBinder x1
  try clear_value x1
  extract_lets +onlyGivenNames -merge -useContext -underBinder x2
  try clear_value x2
  extract_lets +onlyGivenNames -merge -useContext -underBinder x3
  have h4 : CfgOk a1 x3 := by
    unfold x3
    exact CfgOk.after (CfgOk.ofOnly (countMoved_only (W := [.beat]) rfl) rfl) (CfgOk.ofOnly (State.modGroup_only (W := [.beat]) rfl) rfl)
  clear_value x3
  extract_lets +onlyGivenNames -merge -useContext -underBinder x5
  try clear_value x5
  refine CfgOk.ite (fun _ => ?_) (fun _ => ?_)
  · exact CfgOk.after (CfgOk.ofOnly (endOfSlot_only (W := [.beat, .mgmt]) rfl) rfl) (CfgOk.after (CfgOk.ofOnly (sampleGates_only (W := [.beat]) rfl) rfl) (h4))
  · refine CfgOk.ite (fun _ => ?_) (fun _ => ?_)
    · exact CfgOk.after (CfgOk.ofOnly (endOfSlot_only (W := [.beat, .mgmt]) rfl) rfl) (CfgOk.after (CfgOk.ofOnly (sampleGates_only (W := [.beat]) rfl) rfl) (CfgOk.after (CfgOk.ofOnly (heldSlot_only (W := [.beat, .mgmt]) rfl) rfl) (h4)))
    · extract_lets +onlyGivenNames -merge -useContext -underBinder x6
      have h7 : CfgOk a1 x6 := by
        unfold x6
        exact CfgOk.after (CfgOk.ofOnly (State.modGroup_only (W := [.beat]) rfl) rfl) (h4)
      clear_value x6
      split
      · rename_i y9 y10 q11
        have h8 := CfgOk.ofEq (p := Prod.fst) (CfgOk.ofOnly (runBeat_only (W := [.free, .beat]) rfl) rfl) q11 (s := a1) (by
          exact h7
          )
        extract_lets +onlyGivenNames -merge -useContext -underBinder x12
        try clear_value x12
        extract_lets +onlyGivenNames -merge -useContext -underBinder x13
        have h14 : CfgOk a1 x13 := by
          unfold x13
          split
          · refine CfgOk.ite (fun _ => ?_) (fun _ => ?_)
            · exact h8
            · exact CfgOk.after (CfgOk.ofOnly (noteBreach_only (W := [.beat, .mgmt]) rfl) rfl) (h8)
          · exact h8
        clear_value x13
        extract_lets +onlyGivenNames -merge -useContext -underBinder x15
        have h16 : CfgOk a1 x15 := by
          unfold x15
          exact CfgOk.after (CfgOk.ofOnly (State.modGroup_only (W := [.beat]) rfl) rfl) (h14)
        clear_value x15
        exact CfgOk.after (CfgOk.ofOnly (endOfSlot_only (W := [.beat, .mgmt]) rfl) rfl) (CfgOk.after (kickShadow_cfgOk) (CfgOk.after (CfgOk.ofOnly (sampleGates_only (W := [.beat]) rfl) rfl) (h16)))

theorem dropStreams_cfgOk {a0 : Nat} {a1 : Machine.State} : CfgOk a1 (dropStreams a0 a1) := by
  unfold dropStreams
  extract_lets +onlyGivenNames -merge -useContext -underBinder x0
  have h1 : CfgOk a1 x0 := by
    unfold x0
    refine CfgOk.foldl (fun t2 _ => ?_) ?_
    · refine CfgOk.ite (fun _ => ?_) (fun _ => ?_)
      · refine CfgOk.after (forEach_cfgOk (fun _ t3 => ?_)) ?_
        · split
          · rename_i y5 y6 q7
            have h4 := CfgOk.ofEq (p := Prod.snd) (CfgOk.ofOnly (draw_only (W := [.free]) rfl) rfl) q7 (s := t3) (by
              exact CfgOk.rfl
              )
            refine CfgOk.ite (fun _ => ?_) (fun _ => ?_)
            · exact CfgOk.after (CfgOk.ofOnly (landPiece_only (W := [.free, .beat, .mem]) rfl) rfl) (h4)
            · exact h4
        · exact CfgOk.rfl
      · exact CfgOk.rfl
    · exact CfgOk.rfl
  clear_value x0
  extract_lets +onlyGivenNames -merge -useContext -underBinder x8
  have h9 : CfgOk a1 x8 := by
    unfold x8
    exact CfgOk.after (CfgOk.ofOnly (State.modBeat_only (W := [.beat]) rfl) rfl) (h1)
  clear_value x8
  exact CfgOk.after (State.modHost_cfgOk (by intro x; repeat' (first | exact ⟨Eq.refl _, Eq.refl _⟩ | split))) (h9)

theorem releaseAdm_cfgOk {a0 : Adm} {a1 : Machine.State} : CfgOk a1 (releaseAdm a0 a1) := by
  unfold releaseAdm
  extract_lets +onlyGivenNames -merge -useContext -underBinder x0
  have h1 : CfgOk a1 x0 := by
    unfold x0
    refine CfgOk.ite (fun _ => ?_) (fun _ => ?_)
    · exact CfgOk.ofOnly (unpinPages_only (W := [.cages]) rfl) rfl
    · exact CfgOk.rfl
  clear_value x0
  extract_lets +onlyGivenNames -merge -useContext -underBinder x2
  have h3 : CfgOk a1 x2 := by
    unfold x2
    exact CfgOk.after (CfgOk.ofOnly (cancelPlans_only (W := [.cages]) rfl) rfl) (h1)
  clear_value x2
  extract_lets +onlyGivenNames -merge -useContext -underBinder x4
  have h5 : CfgOk a1 x4 := by
    unfold x4
    refine CfgOk.after (forEach_cfgOk (fun _ t6 => ?_)) ?_
    · exact CfgOk.ofOnly (releaseCluster_only (W := [.beat]) rfl) rfl
    · exact h3
  clear_value x4
  extract_lets +onlyGivenNames -merge -useContext -underBinder x7
  have h8 : CfgOk a1 x7 := by
    unfold x7
    refine CfgOk.ite (fun _ => ?_) (fun _ => ?_)
    · exact h5
    · exact CfgOk.after (CfgOk.ofOnly (releaseGroup_only (W := [.beat, .mgmt]) rfl) rfl) (CfgOk.after (dropStreams_cfgOk) (h5))
  clear_value x7
  exact CfgOk.after (CfgOk.ofOnly (State.modCages_only (W := [.cages]) rfl) rfl) (h8)

theorem failAdm_cfgOk {a0 : Nat} {a1 : Nat} {a2 : Nat} {a3 : Nat} {a4 : Machine.State} : CfgOk a4 (failAdm a0 a1 a2 a3 a4) := by
  unfold failAdm
  split
  · exact CfgOk.ofOnly (endCmd_only (W := [.rings]) rfl) rfl
  · exact CfgOk.after (CfgOk.ofOnly (endCmd_only (W := [.rings]) rfl) rfl) (releaseAdm_cfgOk)

theorem failDeficit_cfgOk {a0 : Nat} {a1 : Deficit} {a2 : Machine.State} : CfgOk a2 (failDeficit a0 a1 a2) := by
  unfold failDeficit
  exact failAdm_cfgOk

theorem makeShadowPlan_cfgOk {a0 : Nat} {a1 : Nat} {a2 : List Nat} {a3 : List Nat} {a4 : List Nat} {a5 : Machine.State} : CfgOpt a5 (makeShadowPlan a0 a1 a2 a3 a4 a5) := by
  unfold makeShadowPlan
  extract_lets +onlyGivenNames -merge -useContext -underBinder x0
  try clear_value x0
  extract_lets +onlyGivenNames -merge -useContext -underBinder x1
  try clear_value x1
  split
  · exact CfgOpt.none
  · rename_i y3 q4
    have h2 := CfgOk.after (s := a5) (CfgOpt.ofOnly (planVictims_only (W := [.free, .cages]) rfl) rfl _ q4) (by
      exact CfgOk.rfl
      )
    extract_lets +onlyGivenNames -merge -useContext -underBinder x5
    have h6 : CfgOk a5 x5 := by
      unfold x5
      exact CfgOk.after (CfgOk.ofOnly (spillPages_only (W := [.free, .cages]) rfl) rfl) (h2)
    clear_value x5
    extract_lets +onlyGivenNames -merge -useContext -underBinder x7
    have h8 : CfgOk a5 x7 := by
      unfold x7
      exact CfgOk.after (CfgOk.ofOnly (State.modCages_only (W := [.cages]) rfl) rfl) (h6)
    clear_value x7
    split
    · rename_i y10 y11 q12
      have h9 := CfgOk.ofEq (p := Prod.snd) (CfgOk.ofOnly (handOut_only (W := [.free, .cages]) rfl) rfl) q12 (s := a5) (by
        exact h8
        )
      refine CfgOpt.some ?_
      exact CfgOk.after (kickMoves_cfgOk) (CfgOk.after (CfgOk.ofOnly (modPlan_only (W := [.cages]) rfl) rfl) (h9))

theorem planPages_cfgOk {a0 : Nat} {a1 : Machine.State} : CfgOk a1 (planPages a0 a1) := by
  unfold planPages
  split
  · exact CfgOk.rfl
  · extract_lets +onlyGivenNames -merge -useContext -underBinder x0
    try clear_value x0
    extract_lets +onlyGivenNames -merge -useContext -underBinder x1
    try clear_value x1
    extract_lets +onlyGivenNames -merge -useContext -underBinder x2
    try clear_value x2
    extract_lets +onlyGivenNames -merge -useContext -underBinder x3
    try clear_value x3
    refine CfgOk.ite (fun _ => ?_) (fun _ => ?_)
    · exact failAdm_cfgOk
    · extract_lets +onlyGivenNames -merge -useContext -underBinder x4
      try clear_value x4
      refine CfgOk.ite (fun _ => ?_) (fun _ => ?_)
      · extract_lets +onlyGivenNames -merge -useContext -underBinder x5
        have h6 : CfgOk a1 x5 := by
          unfold x5
          exact CfgOk.ofOnly (State.modAdm_only (W := [.cages]) rfl) rfl
        clear_value x5
        extract_lets +onlyGivenNames -merge -useContext -underBinder x7
        have h8 : CfgOk a1 x7 := by
          unfold x7
          exact CfgOk.after (CfgOk.ofOnly (State.modCtx_only (W := [.rings]) rfl) rfl) (h6)
        clear_value x7
        split
        · rename_i y10 q11
          have h9 := CfgOk.after (s := a1) (makePlan_cfgOk _ q11) (by
            exact h8
            )
          exact h9
        · exact CfgOk.after (failDeficit_cfgOk) (h8)
      · refine CfgOk.ite (fun _ => ?_) (fun _ => ?_)
        · extract_lets +onlyGivenNames -merge -useContext -underBinder x12
          have h13 : CfgOk a1 x12 := by
            unfold x12
            exact CfgOk.ofOnly (State.modAdm_only (W := [.cages]) rfl) rfl
          clear_value x12
          extract_lets +onlyGivenNames -merge -useContext -underBinder x14
          have h15 : CfgOk a1 x14 := by
            unfold x14
            exact CfgOk.after (CfgOk.ofOnly (State.modCtx_only (W := [.rings]) rfl) rfl) (h13)
          clear_value x14
          split
          · rename_i y17 q18
            have h16 := CfgOk.after (s := a1) (makeShadowPlan_cfgOk _ q18) (by
              exact h15
              )
            exact h16
          · exact CfgOk.after (failDeficit_cfgOk) (h15)
        · exact failDeficit_cfgOk

theorem grantAdm_cfgOk {a0 : Nat} {a1 : Nat} {a2 : List Nat} {a3 : Machine.State} : CfgOk a3 (grantAdm a0 a1 a2 a3) := by
  unfold grantAdm
  extract_lets +onlyGivenNames -merge -useContext -underBinder x0
  have h1 : CfgOk a3 x0 := by
    unfold x0
    exact CfgOk.ofOnly (State.modAdm_only (W := [.cages]) rfl) rfl
  clear_value x0
  extract_lets +onlyGivenNames -merge -useContext -underBinder x2
  have h3 : CfgOk a3 x2 := by
    unfold x2
    split
    · exact h1
    · exact CfgOk.after (CfgOk.ofOnly (State.modGroup_only (W := [.beat]) rfl) rfl) (h1)
  clear_value x2
  extract_lets +onlyGivenNames -merge -useContext -underBinder x4
  have h5 : CfgOk a3 x4 := by
    unfold x4
    refine CfgOk.after (forEach_cfgOk (fun _ t6 => ?_)) ?_
    · exact CfgOk.ofOnly (State.modClus_only (W := [.beat]) rfl) rfl
    · exact h3
  clear_value x4
  exact CfgOk.after (planPages_cfgOk) (h5)

theorem admitImage_cfgOk {a0 : Nat} {a1 : Bytes} {a2 : Machine.State} : CfgOk a2 (admitImage a0 a1 a2) := by
  unfold admitImage
  extract_lets +onlyGivenNames -merge -useContext -underBinder x0
  try clear_value x0
  extract_lets +onlyGivenNames -merge -useContext -underBinder x1
  try clear_value x1
  split
  · exact CfgOk.ofOnly (endCmd_only (W := [.rings]) rfl) rfl
  · refine CfgOk.ite (fun _ => ?_) (fun _ => ?_)
    · exact CfgOk.ofOnly (endCmd_only (W := [.rings]) rfl) rfl
    · extract_lets +onlyGivenNames -merge -useContext -underBinder x2
      try clear_value x2
      extract_lets +onlyGivenNames -merge -useContext -underBinder x3
      try clear_value x3
      extract_lets +onlyGivenNames -merge -useContext -underBinder x4
      try clear_value x4
      split
      · exact CfgOk.ofOnly (endCmd_only (W := [.rings]) rfl) rfl
      · refine CfgOk.ite (fun _ => ?_) (fun _ => ?_)
        · exact CfgOk.ofOnly (endCmd_only (W := [.rings]) rfl) rfl
        · refine CfgOk.ite (fun _ => ?_) (fun _ => ?_)
          · exact CfgOk.ofOnly (endCmd_only (W := [.rings]) rfl) rfl
          · extract_lets +onlyGivenNames -merge -useContext -underBinder x5
            try clear_value x5
            extract_lets +onlyGivenNames -merge -useContext -underBinder x6
            try clear_value x6
            extract_lets +onlyGivenNames -merge -useContext -underBinder x7
            have h8 : CfgOk a2 x7 := by
              unfold x7
              exact CfgOk.ofOnly (State.modCtx_only (W := [.rings]) rfl) rfl
            clear_value x7
            extract_lets +onlyGivenNames -merge -useContext -underBinder x9
            try clear_value x9
            split
            · exact CfgOk.after (grantAdm_cfgOk) (CfgOk.after (CfgOk.ofOnly (State.modCages_only (W := [.cages]) rfl) rfl) (h8))
            · refine CfgOk.ite (fun _ => ?_) (fun _ => ?_)
              · exact CfgOk.after (CfgOk.ofOnly (State.modCages_only (W := [.cages]) rfl) rfl) (h8)
              · exact CfgOk.after (CfgOk.ofOnly (endCmd_only (W := [.rings]) rfl) rfl) (h8)

theorem bodyAdmit_cfgOk {a0 : Nat} {a1 : Machine.State} : CfgOk a1 (bodyAdmit a0 a1) := by
  unfold bodyAdmit
  extract_lets +onlyGivenNames -merge -useContext -underBinder x0
  try clear_value x0
  refine CfgOk.after (memGate_cfgOk (fun t1 => ?_)) ?_
  · exact beginPages_cfgOk
  · exact CfgOk.rfl

theorem admitRead_cfgOk {a0 : Nat} {a1 : Machine.State} : CfgOk a1 (admitRead a0 a1) := by
  unfold admitRead
  extract_lets +onlyGivenNames -merge -useContext -underBinder x0
  try clear_value x0
  extract_lets +onlyGivenNames -merge -useContext -underBinder x1
  try clear_value x1
  split
  · split
    · exact CfgOk.ofOnly (endCmd_only (W := [.rings]) rfl) rfl
    · exact admitImage_cfgOk

theorem serveQueue_cfgOk {a0 : Machine.State} : CfgOk a0 (serveQueue a0) := by
  unfold serveQueue
  split
  · exact CfgOk.rfl
  · refine CfgOk.ite (fun _ => ?_) (fun _ => ?_)
    · exact failAdm_cfgOk
    · split
      · exact grantAdm_cfgOk
      · exact CfgOk.rfl

theorem residencyComplete_cfgOk {a0 : Nat} {a1 : Machine.State} : CfgOk a1 (residencyComplete a0 a1) := by
  unfold residencyComplete
  split
  · exact CfgOk.rfl
  · refine CfgOk.ite (fun _ => ?_) (fun _ => ?_)
    · exact CfgOk.rfl
    · refine CfgOk.ite (fun _ => ?_) (fun _ => ?_)
      · exact failAdm_cfgOk
      · refine CfgOk.ite (fun _ => ?_) (fun _ => ?_)
        · exact CfgOk.rfl
        · extract_lets +onlyGivenNames -merge -useContext -underBinder x0
          have h1 : CfgOk a1 x0 := by
            unfold x0
            refine CfgOk.after (forEach_cfgOk (fun _ t2 => ?_)) ?_
            · exact CfgOk.ofOnly (State.modPage_only (W := [.cages]) rfl) rfl
            · exact CfgOk.rfl
          clear_value x0
          extract_lets +onlyGivenNames -merge -useContext -underBinder x3
          have h4 : CfgOk a1 x3 := by
            unfold x3
            refine CfgOk.after (forEach_cfgOk (fun _ t5 => ?_)) ?_
            · exact CfgOk.ofOnly (State.modPage_only (W := [.cages]) rfl) rfl
            · exact h1
          clear_value x3
          extract_lets +onlyGivenNames -merge -useContext -underBinder x6
          have h7 : CfgOk a1 x6 := by
            unfold x6
            refine CfgOk.foldl (fun t8 _ => ?_) ?_
            · exact CfgOk.ofOnly (State.modClus_only (W := [.beat]) rfl) rfl
            · exact h4
          clear_value x6
          extract_lets +onlyGivenNames -merge -useContext -underBinder x9
          have h10 : CfgOk a1 x9 := by
            unfold x9
            exact CfgOk.after (CfgOk.ofOnly (State.modCtx_only (W := [.rings]) rfl) rfl) (h7)
          clear_value x9
          extract_lets +onlyGivenNames -merge -useContext -underBinder x11
          have h12 : CfgOk a1 x11 := by
            unfold x11
            exact CfgOk.after (CfgOk.ofOnly (State.modAdm_only (W := [.cages]) rfl) rfl) (h10)
          clear_value x11
          exact CfgOk.after (CfgOk.ofOnly (a3Up_only (W := [.adit]) rfl) rfl) (h12)

theorem startProgram_cfgOk {a0 : Nat} {a1 : Machine.State} : CfgOk a1 (startProgram a0 a1) := by
  unfold startProgram
  split
  · exact CfgOk.rfl
  · refine CfgOk.ite (fun _ => ?_) (fun _ => ?_)
    · exact CfgOk.rfl
    · extract_lets +onlyGivenNames -merge -useContext -underBinder x0
      have h1 : CfgOk a1 x0 := by
        unfold x0
        exact CfgOk.ofOnly (State.modAdm_only (W := [.cages]) rfl) rfl
      clear_value x0
      extract_lets +onlyGivenNames -merge -useContext -underBinder x2
      have h3 : CfgOk a1 x2 := by
        unfold x2
        exact CfgOk.after (CfgOk.ofOnly (State.modGroup_only (W := [.beat]) rfl) rfl) (h1)
      clear_value x2
      extract_lets +onlyGivenNames -merge -useContext -underBinder x4
      have h5 : CfgOk a1 x4 := by
        unfold x4
        exact CfgOk.after (CfgOk.ofOnly (sampleGates_only (W := [.beat]) rfl) rfl) (h3)
      clear_value x4
      extract_lets +onlyGivenNames -merge -useContext -underBinder x6
      have h7 : CfgOk a1 x6 := by
        unfold x6
        exact CfgOk.after (CfgOk.ofOnly (traceAdd_only (W := [.mgmt]) rfl) rfl) (CfgOk.after (CfgOk.ofOnly (a3Up_only (W := [.adit]) rfl) rfl) (h5))
      clear_value x6
      extract_lets +onlyGivenNames -merge -useContext -underBinder x8
      have h9 : CfgOk a1 x8 := by
        unfold x8
        exact CfgOk.after (reportCtl_cfgOk) (h7)
      clear_value x8
      refine CfgOk.ite (fun _ => ?_) (fun _ => ?_)
      · exact CfgOk.after (CfgOk.ofOnly (State.setEvent_only (W := [.rings]) rfl) rfl) (h9)
      · exact h9

theorem loadComplete_cfgOk {a0 : Nat} {a1 : Machine.State} : CfgOk a1 (loadComplete a0 a1) := by
  unfold loadComplete
  split
  · exact CfgOk.rfl
  · refine CfgOk.ite (fun _ => ?_) (fun _ => ?_)
    · exact CfgOk.rfl
    · extract_lets +onlyGivenNames -merge -useContext -underBinder x0
      have h1 : CfgOk a1 x0 := by
        unfold x0
        refine CfgOk.foldl (fun t2 _ => ?_) ?_
        · extract_lets +onlyGivenNames -merge -useContext -underBinder x3
          try clear_value x3
          extract_lets +onlyGivenNames -merge -useContext -underBinder x4
          try clear_value x4
          exact CfgOk.ofOnly (State.modClus_only (W := [.beat]) rfl) rfl
        · exact CfgOk.rfl
      clear_value x0
      exact CfgOk.after (startProgram_cfgOk) (CfgOk.after (CfgOk.ofOnly (State.modAdm_only (W := [.cages]) rfl) rfl) (h1))

theorem endProgram_cfgOk {a0 : Nat} {a1 : Machine.State} : CfgOk a1 (endProgram a0 a1) := by
  unfold endProgram
  split
  · exact CfgOk.rfl
  · extract_lets +onlyGivenNames -merge -useContext -underBinder x0
    try clear_value x0
    extract_lets +onlyGivenNames -merge -useContext -underBinder x1
    try clear_value x1
    extract_lets +onlyGivenNames -merge -useContext -underBinder x2
    try clear_value x2
    extract_lets +onlyGivenNames -merge -useContext -underBinder x3
    have h4 : CfgOk a1 x3 := by
      unfold x3
      exact CfgOk.after (CfgOk.ofOnly (traceAdd_only (W := [.mgmt]) rfl) rfl) (CfgOk.ofOnly (a3Up_only (W := [.adit]) rfl) rfl)
    clear_value x3
    exact CfgOk.after (CfgOk.ofOnly (endCmd_only (W := [.rings]) rfl) rfl) (CfgOk.after (releaseAdm_cfgOk) (h4))

theorem programDone_cfgOk {a0 : Nat} {a1 : Machine.State} : CfgOk a1 (programDone a0 a1) := by
  unfold programDone
  extract_lets +onlyGivenNames -merge -useContext -underBinder x0
  try clear_value x0
  refine CfgOk.ite (fun _ => ?_) (fun _ => ?_)
  · exact endProgram_cfgOk
  · exact CfgOk.rfl

theorem drainDone_cfgOk {a0 : Nat} {a1 : Machine.State} : CfgOk a1 (drainDone a0 a1) := by
  unfold drainDone
  extract_lets +onlyGivenNames -merge -useContext -underBinder x0
  try clear_value x0
  refine CfgOk.ite (fun _ => ?_) (fun _ => ?_)
  · exact CfgOk.after (endProgram_cfgOk) (dropStreams_cfgOk)
  · exact CfgOk.rfl

theorem abortAdm_cfgOk {a0 : Nat} {a1 : Adm} {a2 : Machine.State} : CfgVia Prod.fst a2 (abortAdm a0 a1 a2) := by
  unfold abortAdm
  refine CfgOk.iteV (fun _ => ?_) (fun _ => ?_)
  · extract_lets +onlyGivenNames -merge -useContext -underBinder x0
    try clear_value x0
    refine CfgOk.iteV (fun _ => ?_) (fun _ => ?_)
    · refine CfgOk.via1 ?_
      extract_lets +onlyGivenNames -merge -useContext -underBinder x1
      have h2 : CfgOk a2 x1 := by
        unfold x1
        exact CfgOk.ofOnly (State.modGroup_only (W := [.beat]) rfl) rfl
      clear_value x1
      exact CfgOk.after (CfgOk.ofOnly (State.modCtx_only (W := [.rings]) rfl) rfl) (h2)
    · refine CfgOk.via1 ?_
      exact CfgOk.rfl
  · refine CfgOk.via1 ?_
    exact CfgOk.after (failAdm_cfgOk) (CfgOk.after (CfgOk.ofOnly (withdraw_only (W := [.adit]) rfl) rfl) (CfgOk.ofOnly (State.modCtx_only (W := [.rings]) rfl) rfl))

theorem abortAll_cfgOk {a0 : Nat} {a1 : List Adm} {a2 : Machine.State} : CfgVia Prod.fst a2 (abortAll a0 a1 a2) := by
  induction a1 generalizing a0 a2 with
  | nil =>
    unfold abortAll
    refine CfgOk.via1 ?_
    exact CfgOk.rfl
  | cons hd tl ih =>
    unfold abortAll
    split
    · rename_i y1 y2 q3
      have h0 := CfgOk.ofEq (p := Prod.fst) (abortAdm_cfgOk) q3 (s := a2) (by
        exact CfgOk.rfl
        )
      split
      · rename_i y5 y6 q7
        have h4 := CfgOk.ofEq (p := Prod.fst) (by apply ih) q7 (s := a2) (by
          exact h0
          )
        refine CfgOk.via1 ?_
        exact h4

theorem bodyAbort_cfgOk {a0 : Nat} {a1 : Machine.State} : CfgOk a1 (bodyAbort a0 a1) := by
  unfold bodyAbort
  extract_lets +onlyGivenNames -merge -useContext -underBinder x0
  try clear_value x0
  extract_lets +onlyGivenNames -merge -useContext -underBinder x1
  try clear_value x1
  extract_lets +onlyGivenNames -merge -useContext -underBinder x2
  try clear_value x2
  extract_lets +onlyGivenNames -merge -useContext -underBinder x3
  try clear_value x3
  split
  · rename_i y5 y6 q7
    have h4 := CfgOk.ofEq (p := Prod.fst) (abortAll_cfgOk) q7 (s := a1) (by
      exact CfgOk.rfl
      )
    exact CfgOk.after (CfgOk.ofOnly (endOk_only (W := [.rings]) rfl) rfl) (h4)

theorem dropAdm_cfgOk {a0 : Adm} {a1 : Machine.State} : CfgOk a1 (dropAdm a0 a1) := by
  unfold dropAdm
  refine CfgOk.ite (fun _ => ?_) (fun _ => ?_)
  · extract_lets +onlyGivenNames -merge -useContext -underBinder x0
    try clear_value x0
    extract_lets +onlyGivenNames -merge -useContext -underBinder x1
    have h2 : CfgOk a1 x1 := by
      unfold x1
      exact CfgOk.after (CfgOk.ofOnly (traceAdd_only (W := [.mgmt]) rfl) rfl) (CfgOk.after (CfgOk.ofOnly (traceAdd_only (W := [.mgmt]) rfl) rfl) (CfgOk.ofOnly (a3Up_only (W := [.adit]) rfl) rfl))
    clear_value x1
    exact CfgOk.after (releaseAdm_cfgOk) (h2)
  · exact CfgOk.after (releaseAdm_cfgOk) (CfgOk.ofOnly (withdraw_only (W := [.adit]) rfl) rfl)

theorem failPlan_cfgOk {a0 : Plan} {a1 : Machine.State} : CfgOk a1 (failPlan a0 a1) := by
  unfold failPlan
  extract_lets +onlyGivenNames -merge -useContext -underBinder x0
  try clear_value x0
  extract_lets +onlyGivenNames -merge -useContext -underBinder x1
  try clear_value x1
  split
  · exact failAdm_cfgOk
  · extract_lets +onlyGivenNames -merge -useContext -underBinder x2
    have h3 : CfgOk a1 x2 := by
      unfold x2
      exact CfgOk.ofOnly (cancelPlans_only (W := [.cages]) rfl) rfl
    clear_value x2
    refine CfgOk.ite (fun _ => ?_) (fun _ => ?_)
    · refine CfgOk.after (CfgOk.ofOnly (endCmd_only (W := [.rings]) rfl) rfl) ?_
      · refine CfgOk.after (forEach_cfgOk (fun _ t4 => ?_)) ?_
        · exact CfgOk.ofOnly (unmapPage_only (W := [.cages]) rfl) rfl
        · exact h3
    · exact CfgOk.after (CfgOk.ofOnly (endCmd_only (W := [.rings]) rfl) rfl) (h3)

theorem mendPlan_cfgOk {a0 : Nat} {a1 : Machine.State} : CfgOk a1 (mendPlan a0 a1) := by
  unfold mendPlan
  split
  · exact CfgOk.rfl
  · extract_lets +onlyGivenNames -merge -useContext -underBinder x0
    try clear_value x0
    refine CfgOk.ite (fun _ => ?_) (fun _ => ?_)
    · exact CfgOk.rfl
    · split
      · rename_i y2 y3 q4
        have h1 := CfgOk.ofEq (p := Prod.snd) (CfgOk.ofOnly (handOut_only (W := [.free, .cages]) rfl) rfl) q4 (s := a1) (by
          exact CfgOk.rfl
          )
        extract_lets +onlyGivenNames -merge -useContext -underBinder x5
        have h6 : CfgOk a1 x5 := by
          unfold x5
          exact CfgOk.after (CfgOk.ofOnly (modPlan_only (W := [.cages]) rfl) rfl) (h1)
        clear_value x5
        refine CfgOk.ite (fun _ => ?_) (fun _ => ?_)
        · exact CfgOk.after (CfgOk.ofOnly (dropPlans_only (W := [.cages]) rfl) rfl) (h6)
        · split
          · rename_i y8 q9
            have h7 := CfgOk.after (s := a1) (CfgOpt.ofOnly (planVictims_only (W := [.free, .cages]) rfl) rfl _ q9) (by
              exact h6
              )
            exact CfgOk.after (kickMoves_cfgOk) (h7)
          · exact CfgOk.after (failPlan_cfgOk) (h6)

theorem evictFault_cfgOk {a0 : Nat} {a1 : Nat} {a2 : Nat} {a3 : Machine.State} : CfgOk a3 (evictFault a0 a1 a2 a3) := by
  unfold evictFault
  split
  · exact CfgOk.rfl
  · extract_lets +onlyGivenNames -merge -useContext -underBinder x0
    try clear_value x0
    extract_lets +onlyGivenNames -merge -useContext -underBinder x1
    try clear_value x1
    extract_lets +onlyGivenNames -merge -useContext -underBinder x2
    have h3 : CfgOk a3 x2 := by
      unfold x2
      exact CfgOk.ofOnly (dropMove_only (W := [.cages]) rfl) rfl
    clear_value x2
    extract_lets +onlyGivenNames -merge -useContext -underBinder x4
    have h5 : CfgOk a3 x4 := by
      unfold x4
      refine CfgOk.ite (fun _ => ?_) (fun _ => ?_)
      · exact CfgOk.after (CfgOk.ofOnly (State.modPage_only (W := [.cages]) rfl) rfl) (h3)
      · exact CfgOk.after (CfgOk.ofOnly (State.modPage_only (W := [.cages]) rfl) rfl) (CfgOk.after (CfgOk.ofOnly (State.setFrame_only (W := [.cages]) rfl) rfl) (h3))
    clear_value x4
    extract_lets +onlyGivenNames -merge -useContext -underBinder x6
    have h7 : CfgOk a3 x6 := by
      unfold x6
      exact CfgOk.after (CfgOk.ofOnly (State.modCage_only (W := [.cages]) rfl) rfl) (h5)
    clear_value x6
    extract_lets +onlyGivenNames -merge -useContext -underBinder x8
    have h9 : CfgOk a3 x8 := by
      unfold x8
      exact CfgOk.after (reportCtl_cfgOk) (h7)
    clear_value x8
    extract_lets +onlyGivenNames -merge -useContext -underBinder x10
    have h11 : CfgOk a3 x10 := by
      unfold x10
      split
      · exact h9
      · split
        · refine CfgOk.ite (fun _ => ?_) (fun _ => ?_)
          · exact CfgOk.after (failPlan_cfgOk) (h9)
          · exact h9
        · exact h9
    clear_value x10
    exact CfgOk.after (kickMoves_cfgOk) (CfgOk.after (mendPlan_cfgOk) (h11))

theorem restoreFailed_cfgOk {a0 : Nat} {a1 : Nat} {a2 : Nat} {a3 : Machine.State} : CfgOk a3 (restoreFailed a0 a1 a2 a3) := by
  unfold restoreFailed
  extract_lets +onlyGivenNames -merge -useContext -underBinder x0
  have h1 : CfgOk a3 x0 := by
    unfold x0
    exact restoreFail_cfgOk
  clear_value x0
  extract_lets +onlyGivenNames -merge -useContext -underBinder x2
  try clear_value x2
  refine CfgOk.after (forEach_cfgOk (fun _ t3 => ?_)) ?_
  · exact CfgOk.after (failAdm_cfgOk) (CfgOk.ofOnly (cancelPlans_only (W := [.cages]) rfl) rfl)
  · exact h1

theorem startMoving_cfgOk {a0 : Nat} {a1 : Machine.State} : CfgOk a1 (startMoving a0 a1) := by
  unfold startMoving
  extract_lets +onlyGivenNames -merge -useContext -underBinder x0
  try clear_value x0
  extract_lets +onlyGivenNames -merge -useContext -underBinder x1
  have h2 : CfgOk a1 x1 := by
    unfold x1
    exact CfgOk.after (CfgOk.ofOnly (touchPages_only (W := [.cages]) rfl) rfl) (CfgOk.ofOnly (State.modCtx_only (W := [.rings]) rfl) rfl)
  clear_value x1
  split
  · exact CfgOk.after (h2dNext_cfgOk) (h2)
  · exact CfgOk.after (d2hRun_cfgOk) (h2)
  · exact CfgOk.after (CfgOk.ofOnly (d2dRun_only (W := [.rings, .cages, .mem]) rfl) rfl) (h2)
  · exact CfgOk.after (CfgOk.ofOnly (fillRun_only (W := [.rings, .cages, .mem]) rfl) rfl) (h2)
  · exact CfgOk.after (admitRead_cfgOk) (h2)
  · exact CfgOk.after (CfgOk.ofOnly (endOk_only (W := [.rings]) rfl) rfl) (h2)

theorem advance_cfgOk {a0 : Nat} {a1 : Machine.State} : CfgOk a1 (advance a0 a1) := by
  unfold advance
  extract_lets +onlyGivenNames -merge -useContext -underBinder x0
  try clear_value x0
  refine CfgOk.ite (fun _ => ?_) (fun _ => ?_)
  · exact CfgOk.rfl
  · extract_lets +onlyGivenNames -merge -useContext -underBinder x1
    have h2 : CfgOk a1 x1 := by
      unfold x1
      refine CfgOk.ite (fun _ => ?_) (fun _ => ?_)
      · exact CfgOk.rfl
      · exact prepare_cfgOk
    clear_value x1
    extract_lets +onlyGivenNames -merge -useContext -underBinder x3
    try clear_value x3
    refine CfgOk.ite (fun _ => ?_) (fun _ => ?_)
    · exact CfgOk.after (startMoving_cfgOk) (h2)
    · exact h2

theorem spillLate_cfgOk {a0 : Machine.State} : CfgOk a0 (spillLate a0) := by
  unfold spillLate
  refine CfgOk.foldl (fun t0 _ => ?_) ?_
  · refine CfgOk.ite (fun _ => ?_) (fun _ => ?_)
    · extract_lets +onlyGivenNames -merge -useContext -underBinder x1
      try clear_value x1
      refine CfgOk.ite (fun _ => ?_) (fun _ => ?_)
      · exact CfgOk.rfl
      · exact CfgOk.after (kickMoves_cfgOk) (CfgOk.ofOnly (spillPages_only (W := [.free, .cages]) rfl) rfl)
    · exact CfgOk.rfl
  · exact CfgOk.rfl

theorem progress_cfgOk {a0 : Machine.State} : CfgOk a0 (progress a0) := by
  unfold progress
  refine CfgOk.after (spillLate_cfgOk) ?_
  · refine CfgOk.after (forEach_cfgOk (fun _ t0 => ?_)) ?_
    · exact advance_cfgOk
    · exact CfgOk.rfl

theorem resumeCtx_cfgOk {a0 : Nat} {a1 : Machine.State} : CfgOk a1 (resumeCtx a0 a1) := by
  unfold resumeCtx
  extract_lets +onlyGivenNames -merge -useContext -underBinder x0
  try clear_value x0
  refine CfgOk.ite (fun _ => ?_) (fun _ => ?_)
  · exact CfgOk.rfl
  · split
    · exact h2dNext_cfgOk
    · exact d2hRun_cfgOk
    · exact bodyHostWrite_cfgOk
    · exact CfgOk.rfl

theorem resumeMove_cfgOk {a0 : Move} {a1 : Machine.State} : CfgOk a1 (resumeMove a0 a1) := by
  unfold resumeMove
  refine CfgOk.ite (fun _ => ?_) (fun _ => ?_)
  · exact CfgOk.rfl
  · refine CfgOk.ite (fun _ => ?_) (fun _ => ?_)
    · exact evictStep_cfgOk
    · exact restoreStep_cfgOk

theorem resumeFn_cfgOk {a0 : Nat} {a1 : Machine.State} : CfgOk a1 (resumeFn a0 a1) := by
  unfold resumeFn
  extract_lets +onlyGivenNames -merge -useContext -underBinder x0
  have h1 : CfgOk a1 x0 := by
    unfold x0
    refine CfgOk.after (forEach_cfgOk (fun _ t2 => ?_)) ?_
    · exact resumeCtx_cfgOk
    · exact CfgOk.rfl
  clear_value x0
  extract_lets +onlyGivenNames -merge -useContext -underBinder x3
  have h4 : CfgOk a1 x3 := by
    unfold x3
    refine CfgOk.foldl (fun t5 _ => ?_) ?_
    · exact resumeMove_cfgOk
    · exact h1
  clear_value x3
  exact CfgOk.after (kickShadow_cfgOk) (CfgOk.after (flushReports_cfgOk) (h4))

theorem flushMsi_cfgOk {a0 : Nat} {a1 : Machine.State} : CfgOk a1 (flushMsi a0 a1) := by
  unfold flushMsi
  refine CfgOk.foldl (fun t0 _ => ?_) ?_
  · exact sendMsi_cfgOk
  · exact CfgOk.rfl

theorem dblCheck_cfgOk {a0 : Nat} {a1 : Machine.State} : CfgOk a1 (dblCheck a0 a1) := by
  unfold dblCheck
  extract_lets +onlyGivenNames -merge -useContext -underBinder x0
  try clear_value x0
  exact State.modFn_cfgOk (by intro x; repeat' (first | exact Eq.refl _ | split))

theorem issueDoorbell_cfgOk {a0 : Nat} {a1 : DblKind} {a2 : Machine.State} : CfgOk a2 (issueDoorbell a0 a1 a2) := by
  unfold issueDoorbell
  extract_lets +onlyGivenNames -merge -useContext -underBinder x0
  try clear_value x0
  refine CfgOk.ite (fun _ => ?_) (fun _ => ?_)
  · exact CfgOk.rfl
  · refine CfgOk.ite (fun _ => ?_) (fun _ => ?_)
    · exact State.modFn_cfgOk (by intro x; repeat' (first | exact Eq.refl _ | split))
    · split
      · exact pushReq_cfgOk
      · extract_lets +onlyGivenNames -merge -useContext -underBinder x1
        have h2 : CfgOk a2 x1 := by
          unfold x1
          exact State.modHost_cfgOk (by intro x; repeat' (first | exact ⟨Eq.refl _, Eq.refl _⟩ | split))
        clear_value x1
        exact CfgOk.after (State.modFn_cfgOk (by intro x; repeat' (first | exact Eq.refl _ | split))) (CfgOk.after (atcTouch_cfgOk) (h2))

theorem newIndex_cfgOk {a0 : Nat} {a1 : W32} {a2 : Machine.State} : CfgOk a2 (newIndex a0 a1 a2) := by
  unfold newIndex
  extract_lets +onlyGivenNames -merge -useContext -underBinder x0
  try clear_value x0
  extract_lets +onlyGivenNames -merge -useContext -underBinder x1
  try clear_value x1
  extract_lets +onlyGivenNames -merge -useContext -underBinder x2
  have h3 : CfgOk a2 x2 := by
    unfold x2
    exact CfgOk.ofOnly (State.modRing_only (W := [.rings]) rfl) rfl
  clear_value x2
  refine CfgOk.ite (fun _ => ?_) (fun _ => ?_)
  · extract_lets +onlyGivenNames -merge -useContext -underBinder x4
    try clear_value x4
    exact CfgOk.after (stopRing_cfgOk) (h3)
  · exact h3

theorem lnFallback_cfgOk {a0 : Nat} {a1 : Nat} {a2 : Machine.State} : CfgOk a2 (lnFallback a0 a1 a2) := by
  unfold lnFallback
  extract_lets +onlyGivenNames -merge -useContext -underBinder x0
  have h1 : CfgOk a2 x0 := by
    unfold x0
    exact State.modFn_cfgOk (by intro x; repeat' (first | exact Eq.refl _ | split))
  clear_value x0
  exact CfgOk.after (reportCtl_cfgOk) (h1)

theorem dblData_cfgOk {a0 : Nat} {a1 : DblKind} {a2 : Bytes} {a3 : Machine.State} : CfgOk a3 (dblData a0 a1 a2 a3) := by
  unfold dblData
  extract_lets +onlyGivenNames -merge -useContext -underBinder x0 x1 x2 x3 x4 x5 x6 x7 x8
  have h3 : CfgOk a3 x3 := State.modFn_cfgOk fun x => by
    dsimp only
    split
    · exact quietStep_cfg _
    · exact Eq.refl _
  have h5 : CfgOk a3 x5 := CfgOk.after (State.modFn_cfgOk fun _ => Eq.refl _) h3
  have h7 : CfgOk a3 x7 := CfgOk.after (State.modFn_cfgOk fun _ => Eq.refl _) h5
  have h8 : CfgOk a3 x8 := by
    refine CfgOk.ite (fun _ => h5) (fun _ => CfgOk.ite (fun _ => ?_) (fun _ => h7))
    exact CfgOk.after lnFallback_cfgOk h7
  exact CfgOk.after (forEach_cfgOk (fun _ t => newIndex_cfgOk)) h8

theorem dblFailed_cfgOk {a0 : Nat} {a1 : Nat} {a2 : Machine.State} : CfgOk a2 (dblFailed a0 a1 a2) := by
  unfold dblFailed
  extract_lets x0 x1
  refine CfgOk.ite (fun _ => ?_) (fun _ => ?_)
  · exact CfgOk.after dblCheck_cfgOk (CfgOk.after reportCtl_cfgOk (State.modFn_cfgOk fun x => quietStep_cfg x))
  · exact State.modFn_cfgOk fun x => quietStep_cfg x

theorem popDoorbell_cfgOk {a0 : Nat} {a1 : DblKind → Machine.State → Machine.State} {a2 : Machine.State} (g0 : ∀ v0 v1, CfgOk v1 (a1 v0 v1)) : CfgOk a2 (popDoorbell a0 a1 a2) := by
  unfold popDoorbell
  split
  · exact CfgOk.rfl
  · extract_lets +onlyGivenNames -merge -useContext -underBinder x0
    have h1 : CfgOk a2 x0 := by
      unfold x0
      exact State.modFn_cfgOk (by intro x; repeat' (first | exact Eq.refl _ | split))
    clear_value x0
    refine CfgOk.ite (fun _ => ?_) (fun _ => ?_)
    · exact h1
    · exact CfgOk.after (g0 _ _) (h1)

theorem issueDescr_cfgOk {a0 : Nat} {a1 : Machine.State} : CfgOk a1 (issueDescr a0 a1) := by
  unfold issueDescr
  extract_lets +onlyGivenNames -merge -useContext -underBinder x0
  try clear_value x0
  extract_lets +onlyGivenNames -merge -useContext -underBinder x1
  try clear_value x1
  extract_lets +onlyGivenNames -merge -useContext -underBinder x2
  try clear_value x2
  refine CfgOk.ite (fun _ => ?_) (fun _ => ?_)
  · exact CfgOk.rfl
  · extract_lets +onlyGivenNames -merge -useContext -underBinder x3
    try clear_value x3
    split
    · refine CfgOk.ite (fun _ => ?_) (fun _ => ?_)
      · exact CfgOk.rfl
      · exact pushReq_cfgOk
    · extract_lets +onlyGivenNames -merge -useContext -underBinder x4
      have h5 : CfgOk a1 x4 := by
        unfold x4
        exact State.modHost_cfgOk (by intro x; repeat' (first | exact ⟨Eq.refl _, Eq.refl _⟩ | split))
      clear_value x4
      exact CfgOk.after (CfgOk.ofOnly (State.modSlot_only (W := [.rings]) rfl) rfl) (CfgOk.after (atcTouch_cfgOk) (h5))

theorem descrArrive_cfgOk {a0 : Nat} {a1 : Bytes} {a2 : Bool} {a3 : Machine.State} : CfgOk a3 (descrArrive a0 a1 a2 a3) := by
  unfold descrArrive
  split
  · exact CfgOk.rfl
  · extract_lets +onlyGivenNames -merge -useContext -underBinder x0
    try clear_value x0
    extract_lets +onlyGivenNames -merge -useContext -underBinder x1
    have h2 : CfgOk a3 x1 := by
      unfold x1
      exact CfgOk.ofOnly (State.modSlot_only (W := [.rings]) rfl) rfl
    clear_value x1
    extract_lets +onlyGivenNames -merge -useContext -underBinder x3
    have h4 : CfgOk a3 x3 := by
      unfold x3
      exact CfgOk.after (CfgOk.ofOnly (State.modRing_only (W := [.rings]) rfl) rfl) (h2)
    clear_value x3
    exact CfgOk.after (tryFail_cfgOk) (h4)

theorem dropReq_cfgOk {a0 : Nat} {a1 : Machine.State} : CfgOk a1 (dropReq a0 a1) := by
  unfold dropReq
  exact State.modHost_cfgOk (by intro x; repeat' (first | exact ⟨Eq.refl _, Eq.refl _⟩ | split))

theorem restoreData_cfgOk {a0 : Nat} {a1 : Nat} {a2 : Bytes} {a3 : Machine.State} : CfgOk a3 (restoreData a0 a1 a2 a3) := by
  unfold restoreData
  split
  · exact CfgOk.rfl
  · extract_lets +onlyGivenNames -merge -useContext -underBinder x0
    try clear_value x0
    extract_lets +onlyGivenNames -merge -useContext -underBinder x1
    have h2 : CfgOk a3 x1 := by
      unfold x1
      exact CfgOk.ofOnly (State.modMem_only (W := [.mem]) rfl) rfl
    clear_value x1
    exact CfgOk.after (restoreStep_cfgOk) (CfgOk.after (CfgOk.ofOnly (modMove_only (W := [.cages]) rfl) rfl) (h2))

theorem readDone_cfgOk {a0 : HReq} {a1 : Bytes} {a2 : Machine.State} : CfgOk a2 (readDone a0 a1 a2) := by
  unfold readDone
  split
  · exact h2dData_cfgOk
  · exact restoreData_cfgOk
  · split
    · exact CfgOk.ofOnly (landPiece_only (W := [.free, .beat, .mem]) rfl) rfl
    · exact CfgOk.rfl
  · exact CfgOk.rfl

theorem readFailed_cfgOk {a0 : HReq} {a1 : Nat} {a2 : Machine.State} : CfgOk a2 (readFailed a0 a1 a2) := by
  unfold readFailed
  split
  · exact CfgOk.ofOnly (copyFail_only (W := [.free, .rings, .mem]) rfl) rfl
  · exact CfgOk.ofOnly (copyFail_only (W := [.free, .rings, .mem]) rfl) rfl
  · exact restoreFailed_cfgOk
  · exact CfgOk.ofOnly (shadowFailed_only (W := [.beat]) rfl) rfl
  · exact CfgOk.ofOnly (shadowFailed_only (W := [.beat]) rfl) rfl
  · exact CfgOk.rfl

theorem rptRefused_cfgOk {a0 : Nat} {a1 : Machine.State} : CfgOk a1 (rptRefused a0 a1) := by
  unfold rptRefused
  extract_lets +onlyGivenNames -merge -useContext -underBinder x0
  have h1 : CfgOk a1 x0 := by
    unfold x0
    exact CfgOk.ofOnly (State.modRings_only (W := [.rings]) rfl) rfl
  clear_value x0
  refine CfgOk.ite (fun _ => ?_) (fun _ => ?_)
  · exact h1
  · extract_lets +onlyGivenNames -merge -useContext -underBinder x2
    have h3 : CfgOk a1 x2 := by
      unfold x2
      exact CfgOk.after (CfgOk.ofOnly (State.modRpt_only (W := [.rings]) rfl) rfl) (h1)
    clear_value x2
    extract_lets +onlyGivenNames -merge -useContext -underBinder x4
    try clear_value x4
    extract_lets +onlyGivenNames -merge -useContext -underBinder x5
    have h6 : CfgOk a1 x5 := by
      unfold x5
      exact CfgOk.after (CfgOk.ofOnly (State.modRings_only (W := [.rings]) rfl) rfl) (h3)
    clear_value x5
    extract_lets +onlyGivenNames -merge -useContext -underBinder x7
    have h8 : CfgOk a1 x7 := by
      unfold x7
      refine CfgOk.ite (fun _ => ?_) (fun _ => ?_)
      · exact CfgOk.after (CfgOk.ofOnly (State.modRings_only (W := [.rings]) rfl) rfl) (h6)
      · exact CfgOk.after (report_cfgOk) (h6)
    clear_value x7
    refine CfgOk.foldl (fun t9 _ => ?_) ?_
    · exact report_cfgOk
    · exact h8

theorem translated_cfgOk {a0 : HReq} {a1 : Machine.State} : CfgOk a1 (translated a0 a1) := by
  unfold translated
  split
  · exact h2dNext_cfgOk
  · exact d2hRun_cfgOk
  · refine CfgOk.after (endingOr_cfgOk (fun t0 => ?_)) ?_
    · exact bodyHostWrite_cfgOk
    · exact CfgOk.rfl
  · exact CfgOk.after (tryComplete_cfgOk) (CfgOk.ofOnly (State.modCtx_only (W := [.rings]) rfl) rfl)
  · exact flushReports_cfgOk
  · exact issueDoorbell_cfgOk
  · exact issueDescr_cfgOk
  · exact restoreStep_cfgOk
  · exact evictStep_cfgOk
  · exact CfgOk.after (kickShadow_cfgOk) (CfgOk.ofOnly (modStream_only (W := [.beat]) rfl) rfl)
  · exact CfgOk.after (kickShadow_cfgOk) (CfgOk.ofOnly (modStream_only (W := [.beat]) rfl) rfl)
  · exact CfgOk.rfl

theorem xlRefused_cfgOk {a0 : HReq} {a1 : Machine.State} : CfgOk a1 (xlRefused a0 a1) := by
  unfold xlRefused
  split
  · refine CfgOk.after (endingOr_cfgOk (fun t0 => ?_)) ?_
    · exact CfgOk.ofOnly (endCmd_only (W := [.rings]) rfl) rfl
    · exact CfgOk.rfl
  · exact cplRefused_cfgOk
  · exact rptRefused_cfgOk
  · exact dblFailed_cfgOk
  · exact CfgOk.after (descrArrive_cfgOk) (CfgOk.ofOnly (State.modSlot_only (W := [.rings]) rfl) rfl)
  · exact evictFault_cfgOk
  · exact readFailed_cfgOk

theorem xlComplete_cfgOk {a0 : Nat} {a1 : XlResult} {a2 : Machine.State} : CfgOk a2 (xlComplete a0 a1 a2) := by
  unfold xlComplete
  split
  · exact CfgOk.rfl
  · extract_lets +onlyGivenNames -merge -useContext -underBinder x0
    have h1 : CfgOk a2 x0 := by
      unfold x0
      exact dropReq_cfgOk
    clear_value x0
    split
    · exact CfgOk.after (xlRefused_cfgOk) (h1)
    · refine CfgOk.ite (fun _ => ?_) (fun _ => ?_)
      · exact CfgOk.after (translated_cfgOk) (CfgOk.after (atcInsert_cfgOk) (h1))
      · exact CfgOk.after (xlRefused_cfgOk) (h1)

theorem readComplete_cfgOk {a0 : Nat} {a1 : ReadResult} {a2 : Machine.State} : CfgOk a2 (readComplete a0 a1 a2) := by
  unfold readComplete
  split
  · exact aerUncorrectable_cfgOk
  · split
    · refine CfgOk.ite (fun _ => ?_) (fun _ => ?_)
      · exact CfgOk.after (readDone_cfgOk) (dropReq_cfgOk)
      · exact CfgOk.rfl
    · exact CfgOk.after (readFailed_cfgOk) (dropReq_cfgOk)
    · exact CfgOk.after (readFailed_cfgOk) (dropReq_cfgOk)
    · exact CfgOk.after (readFailed_cfgOk) (CfgOk.after (aerUncorrectable_cfgOk) (dropReq_cfgOk))

theorem readLost_cfgOk {a0 : AerErr} {a1 : ReadRef} {a2 : Machine.State} : CfgOk a2 (readLost a0 a1 a2) := by
  unfold readLost
  split
  · split
    · exact CfgOk.rfl
    · exact CfgOk.after (readFailed_cfgOk) (CfgOk.after (aerUncorrectable_cfgOk) (dropReq_cfgOk))
  · refine CfgOk.ite (fun _ => ?_) (fun _ => ?_)
    · exact CfgOk.rfl
    · refine CfgOk.after (popDoorbell_cfgOk (fun _ t0 => ?_)) ?_
      · exact dblFailed_cfgOk
      · exact aerUncorrectable_cfgOk
  · split
    · exact CfgOk.rfl
    · exact CfgOk.after (descrArrive_cfgOk) (aerUncorrectable_cfgOk)

theorem readTimeout_cfgOk {a0 : ReadRef} {a1 : Machine.State} : CfgOk a1 (readTimeout a0 a1) := by
  unfold readTimeout
  exact readLost_cfgOk

theorem ackTlps_cfgOk {a0 : Nat} {a1 : Machine.State} : CfgOk a1 (ackTlps a0 a1) := by
  unfold ackTlps
  extract_lets +onlyGivenNames -merge -useContext -underBinder x0
  try clear_value x0
  extract_lets +onlyGivenNames -merge -useContext -underBinder x1
  have h2 : CfgOk a1 x1 := by
    unfold x1
    exact State.modHost_cfgOk (by intro x; repeat' (first | exact ⟨Eq.refl _, Eq.refl _⟩ | split))
  clear_value x1
  refine CfgOk.foldl (fun t3 _ => ?_) ?_
  · split
    · refine CfgOk.ite (fun _ => ?_) (fun _ => ?_)
      · exact CfgOk.ofOnly (freeCtxOf_only (W := [.rings]) rfl) rfl
      · exact CfgOk.rfl
    · exact CfgOk.rfl
  · exact h2

theorem coalExpired_cfgOk {a0 : Nat} {a1 : Nat} {a2 : Machine.State} : CfgOk a2 (coalExpired a0 a1 a2) := by
  unfold coalExpired
  refine CfgOk.ite (fun _ => ?_) (fun _ => ?_)
  · refine CfgOk.ite (fun _ => ?_) (fun _ => ?_)
    · exact CfgOk.after (sendMsi_cfgOk) (CfgOk.ofOnly (State.modRpt_only (W := [.rings]) rfl) rfl)
    · exact CfgOk.rfl
  · extract_lets +onlyGivenNames -merge -useContext -underBinder x0
    try clear_value x0
    refine CfgOk.ite (fun _ => ?_) (fun _ => ?_)
    · exact CfgOk.after (sendMsi_cfgOk) (CfgOk.ofOnly (State.modRing_only (W := [.rings]) rfl) rfl)
    · exact CfgOk.rfl

theorem dropAtc_cfgOk {a0 : Nat} {a1 : Machine.State} : CfgOk a1 (dropAtc a0 a1) := by
  unfold dropAtc
  exact State.modHost_cfgOk (by intro x; repeat' (first | exact ⟨Eq.refl _, Eq.refl _⟩ | split))

theorem reply_cfgOk {a0 : CfgReply} {a1 : Machine.State} : CfgOk a1 (reply a0 a1) := by
  unfold reply
  exact State.modHost_cfgOk (by intro x; repeat' (first | exact ⟨Eq.refl _, Eq.refl _⟩ | split))

theorem invalidate_cfgOk {a0 : Nat} {a1 : Nat} {a2 : Nat} {a3 : Machine.State} : CfgOk a3 (invalidate a0 a1 a2 a3) := by
  unfold invalidate
  exact State.modHost_cfgOk (by intro x; repeat' (first | exact ⟨Eq.refl _, Eq.refl _⟩ | split))

theorem invalidateDone_cfgOk {a0 : Nat} {a1 : Nat} {a2 : Nat} {a3 : Machine.State} : CfgOk a3 (invalidateDone a0 a1 a2 a3) := by
  unfold invalidateDone
  extract_lets +onlyGivenNames -merge -useContext -underBinder x0
  try clear_value x0
  refine CfgOk.ite (fun _ => ?_) (fun _ => ?_)
  · exact State.modHost_cfgOk (by intro x; repeat' (first | exact ⟨Eq.refl _, Eq.refl _⟩ | split))
  · exact CfgOk.rfl

theorem markLine_cfgOk {a0 : Nat} {a1 : Bool} {a2 : Machine.State} : CfgOk a2 (markLine a0 a1 a2) := by
  unfold markLine
  refine CfgOk.ite (fun _ => ?_) (fun _ => ?_)
  · exact CfgOk.rfl
  · extract_lets +onlyGivenNames -merge -useContext -underBinder x0
    try clear_value x0
    extract_lets +onlyGivenNames -merge -useContext -underBinder x1
    have h2 : CfgOk a2 x1 := by
      unfold x1
      exact CfgOk.after (CfgOk.ofOnly (setLinePoison_only (W := [.mem]) rfl) rfl) (CfgOk.ofOnly (State.modStack_only (W := [.mem]) rfl) rfl)
    clear_value x1
    exact CfgOk.after (report_cfgOk) (h2)

theorem lineAccess_cfgOk {a0 : Nat} {a1 : LineOp} {a2 : LineErr} {a3 : Machine.State} : CfgOk a3 (lineAccess a0 a1 a2 a3) := by
  unfold lineAccess
  extract_lets +onlyGivenNames -merge -useContext -underBinder x0
  try clear_value x0
  extract_lets +onlyGivenNames -merge -useContext -underBinder x1
  have h2 : CfgOk a3 x1 := by
    unfold x1
    exact CfgOk.ofOnly (countAccess_only (W := [.mem]) rfl) rfl
  clear_value x1
  split
  · exact CfgOk.after (CfgOk.ofOnly (setLinePoison_only (W := [.mem]) rfl) rfl) (CfgOk.after (CfgOk.ofOnly (State.modMem_only (W := [.mem]) rfl) rfl) (h2))
  · refine CfgOk.ite (fun _ => ?_) (fun _ => ?_)
    · exact CfgOk.after (markLine_cfgOk) (h2)
    · exact CfgOk.after (CfgOk.ofOnly (countErr_only (W := [.mem]) rfl) rfl) (h2)
  · refine CfgOk.ite (fun _ => ?_) (fun _ => ?_)
    · exact CfgOk.after (markLine_cfgOk) (h2)
    · extract_lets +onlyGivenNames -merge -useContext -underBinder x3
      have h4 : CfgOk a3 x3 := by
        unfold x3
        exact CfgOk.after (CfgOk.ofOnly (countErr_only (W := [.mem]) rfl) rfl) (h2)
      clear_value x3
      refine CfgOk.ite (fun _ => ?_) (fun _ => ?_)
      · exact h4
      · exact CfgOk.after (CfgOk.ofOnly (State.modMem_only (W := [.mem]) rfl) rfl) (h4)

theorem patrolRead_cfgOk {a0 : Nat} {a1 : LineErr} {a2 : Machine.State} : CfgOk a2 (patrolRead a0 a1 a2) := by
  unfold patrolRead
  extract_lets +onlyGivenNames -merge -useContext -underBinder x0
  try clear_value x0
  extract_lets +onlyGivenNames -merge -useContext -underBinder x1
  have h2 : CfgOk a2 x1 := by
    unfold x1
    exact CfgOk.ofOnly (State.modStack_only (W := [.mem]) rfl) rfl
  clear_value x1
  refine CfgOk.ite (fun _ => ?_) (fun _ => ?_)
  · refine CfgOk.ite (fun _ => ?_) (fun _ => ?_)
    · exact CfgOk.after (markLine_cfgOk) (h2)
    · exact CfgOk.after (CfgOk.ofOnly (setLinePoison_only (W := [.mem]) rfl) rfl) (CfgOk.after (CfgOk.ofOnly (State.modMem_only (W := [.mem]) rfl) rfl) (h2))
  · exact CfgOk.after (CfgOk.ofOnly (countErr_only (W := [.mem]) rfl) rfl) (h2)

theorem setRefresh_cfgOk {a0 : Nat} {a1 : Bool} {a2 : Nat} {a3 : Machine.State} : CfgOk a3 (setRefresh a0 a1 a2 a3) := by
  unfold setRefresh
  refine CfgOk.ite (fun _ => ?_) (fun _ => ?_)
  · exact CfgOk.rfl
  · extract_lets +onlyGivenNames -merge -useContext -underBinder x0
    have h1 : CfgOk a3 x0 := by
      unfold x0
      exact CfgOk.ofOnly (State.modStack_only (W := [.mem]) rfl) rfl
    clear_value x0
    exact CfgOk.after (reportCtl_cfgOk) (h1)

theorem stackReadout_cfgOk {a0 : Nat} {a1 : Option Int} {a2 : Machine.State} : CfgOk a2 (stackReadout a0 a1 a2) := by
  unfold stackReadout
  split
  · extract_lets +onlyGivenNames -merge -useContext -underBinder x0
    have h1 : CfgOk a2 x0 := by
      unfold x0
      exact CfgOk.ofOnly (State.modStack_only (W := [.mem]) rfl) rfl
    clear_value x0
    exact CfgOk.after (setRefresh_cfgOk) (CfgOk.after (reportCtl_cfgOk) (h1))
  · extract_lets +onlyGivenNames -merge -useContext -underBinder x2
    have h3 : CfgOk a2 x2 := by
      unfold x2
      exact CfgOk.ofOnly (State.modStack_only (W := [.mem]) rfl) rfl
    clear_value x2
    refine CfgOk.ite (fun _ => ?_) (fun _ => ?_)
    · exact CfgOk.after (setRefresh_cfgOk) (h3)
    · refine CfgOk.ite (fun _ => ?_) (fun _ => ?_)
      · exact CfgOk.after (setRefresh_cfgOk) (h3)
      · exact h3

theorem ceRate_cfgOk {a0 : Nat} {a1 : Machine.State} : CfgOk a1 (ceRate a0 a1) := by
  unfold ceRate
  extract_lets +onlyGivenNames -merge -useContext -underBinder x0
  try clear_value x0
  extract_lets +onlyGivenNames -merge -useContext -underBinder x1
  try clear_value x1
  extract_lets +onlyGivenNames -merge -useContext -underBinder x2
  have h3 : CfgOk a1 x2 := by
    unfold x2
    refine CfgOk.ite (fun _ => ?_) (fun _ => ?_)
    · exact reportCtl_cfgOk
    · exact CfgOk.rfl
  clear_value x2
  exact CfgOk.after (CfgOk.ofOnly (State.modStack_only (W := [.mem]) rfl) rfl) (h3)

theorem trainingEnd_cfgOk {a0 : Nat} {a1 : Machine.State} : CfgOk a1 (trainingEnd a0 a1) := by
  unfold trainingEnd
  extract_lets +onlyGivenNames -merge -useContext -underBinder x0
  have h1 : CfgOk a1 x0 := by
    unfold x0
    refine CfgOk.after (forEach_cfgOk (fun _ t2 => ?_)) ?_
    · exact CfgOk.ofOnly (State.modStack_only (W := [.mem]) rfl) rfl
    · exact CfgOk.rfl
  clear_value x0
  extract_lets +onlyGivenNames -merge -useContext -underBinder x3
  try clear_value x3
  extract_lets +onlyGivenNames -merge -useContext -underBinder x4
  have h5 : CfgOk a1 x4 := by
    unfold x4
    exact CfgOk.after (CfgOk.ofOnly (State.modMem_only (W := [.mem]) rfl) rfl) (h1)
  clear_value x4
  refine CfgOk.ite (fun _ => ?_) (fun _ => ?_)
  · exact CfgOk.after (reportCtl_cfgOk) (h5)
  · exact h5

theorem linkRec_cfgOk {a0 : Nat} {a1 : List Fld} {a2 : Machine.State} : CfgOk a2 (linkRec a0 a1 a2) := by
  unfold linkRec
  exact reportCtl_cfgOk

theorem trainFail_cfgOk {a0 : Nat} {a1 : Nat} {a2 : Nat} {a3 : Machine.State} : CfgOk a3 (trainFail a0 a1 a2 a3) := by
  unfold trainFail
  extract_lets +onlyGivenNames -merge -useContext -underBinder x0
  try clear_value x0
  extract_lets +onlyGivenNames -merge -useContext -underBinder x1
  try clear_value x1
  extract_lets +onlyGivenNames -merge -useContext -underBinder x2
  have h3 : CfgOk a3 x2 := by
    unfold x2
    exact CfgOk.ofOnly (State.modLink_only (W := [.links]) rfl) rfl
  clear_value x2
  extract_lets +onlyGivenNames -merge -useContext -underBinder x4
  have h5 : CfgOk a3 x4 := by
    unfold x4
    refine CfgOk.ite (fun _ => ?_) (fun _ => ?_)
    · exact CfgOk.after (linkRec_cfgOk) (h3)
    · exact h3
  clear_value x4
  refine CfgOk.ite (fun _ => ?_) (fun _ => ?_)
  · exact CfgOk.after (CfgOk.ofOnly (train_only (W := [.links]) rfl) rfl) (h5)
  · exact h5

theorem linkReset_cfgOk {a0 : Nat} {a1 : Nat} {a2 : Nat} {a3 : Machine.State} : CfgOk a3 (linkReset a0 a1 a2 a3) := by
  unfold linkReset
  extract_lets +onlyGivenNames -merge -useContext -underBinder x0
  try clear_value x0
  extract_lets +onlyGivenNames -merge -useContext -underBinder x1
  have h2 : CfgOk a3 x1 := by
    unfold x1
    exact linkRec_cfgOk
  clear_value x1
  extract_lets +onlyGivenNames -merge -useContext -underBinder x3
  have h4 : CfgOk a3 x3 := by
    unfold x3
    exact CfgOk.after (CfgOk.ofOnly (State.modLink_only (W := [.links]) rfl) rfl) (h2)
  clear_value x3
  refine CfgOk.ite (fun _ => ?_) (fun _ => ?_)
  · exact CfgOk.after (linkRec_cfgOk) (CfgOk.after (CfgOk.ofOnly (State.modLink_only (W := [.links]) rfl) rfl) (h4))
  · refine CfgOk.ite (fun _ => ?_) (fun _ => ?_)
    · exact CfgOk.after (linkRec_cfgOk) (h4)
    · exact h4

theorem laneDone_cfgOk {a0 : Nat} {a1 : Nat} {a2 : Machine.State} : CfgOk a2 (laneDone a0 a1 a2) := by
  unfold laneDone
  extract_lets +onlyGivenNames -merge -useContext -underBinder x0
  try clear_value x0
  refine CfgOk.ite (fun _ => ?_) (fun _ => ?_)
  · exact CfgOk.rfl
  · refine CfgOk.ite (fun _ => ?_) (fun _ => ?_)
    · exact CfgOk.ofOnly (State.modLink_only (W := [.links]) rfl) rfl
    · refine CfgOk.ite (fun _ => ?_) (fun _ => ?_)
      · exact CfgOk.ofOnly (State.modLink_only (W := [.links]) rfl) rfl
      · refine CfgOk.ite (fun _ => ?_) (fun _ => ?_)
        · exact CfgOk.ofOnly (State.modLink_only (W := [.links]) rfl) rfl
        · exact trainFail_cfgOk

theorem helloIn_cfgOk {a0 : Nat} {a1 : Bytes} {a2 : Machine.State} : CfgOk a2 (helloIn a0 a1 a2) := by
  unfold helloIn
  extract_lets +onlyGivenNames -merge -useContext -underBinder x0
  try clear_value x0
  refine CfgOk.ite (fun _ => ?_) (fun _ => ?_)
  · exact CfgOk.rfl
  · extract_lets +onlyGivenNames -merge -useContext -underBinder x1
    have h2 : CfgOk a2 x1 := by
      unfold x1
      exact CfgOk.ofOnly (State.modLink_only (W := [.links]) rfl) rfl
    clear_value x1
    refine CfgOk.ite (fun _ => ?_) (fun _ => ?_)
    · exact h2
    · extract_lets +onlyGivenNames -merge -useContext -underBinder x3
      try clear_value x3
      refine CfgOk.ite (fun _ => ?_) (fun _ => ?_)
      · exact CfgOk.after (trainFail_cfgOk) (h2)
      · refine CfgOk.ite (fun _ => ?_) (fun _ => ?_)
        · exact CfgOk.after (trainFail_cfgOk) (h2)
        · refine CfgOk.ite (fun _ => ?_) (fun _ => ?_)
          · exact CfgOk.after (trainFail_cfgOk) (h2)
          · extract_lets +onlyGivenNames -merge -useContext -underBinder x4
            have h5 : CfgOk a2 x4 := by
              unfold x4
              exact CfgOk.after (CfgOk.ofOnly (State.modLink_only (W := [.links]) rfl) rfl) (h2)
            clear_value x4
            exact CfgOk.after (linkRec_cfgOk) (h5)

theorem withMsg_cfgOk {a0 : Nat} {a1 : Nat} {a2 : Nat} {a3 : Bytes → Machine.State → Machine.State} {a4 : Machine.State} (g0 : ∀ v0 v1, CfgOk v1 (a3 v0 v1)) : CfgOk a4 (withMsg a0 a1 a2 a3 a4) := by
  unfold withMsg
  split
  · exact CfgOk.rfl
  · refine CfgOk.ite (fun _ => ?_) (fun _ => ?_)
    · exact CfgOk.after (g0 _ _) (CfgOk.ofOnly (popInbox_only (W := [.links]) rfl) rfl)
    · exact CfgOk.rfl

theorem linkErrRate_cfgOk {a0 : Nat} {a1 : Nat} {a2 : Machine.State} : CfgOk a2 (linkErrRate a0 a1 a2) := by
  unfold linkErrRate
  extract_lets +onlyGivenNames -merge -useContext -underBinder x0
  try clear_value x0
  extract_lets +onlyGivenNames -merge -useContext -underBinder x1
  have h2 : CfgOk a2 x1 := by
    unfold x1
    refine CfgOk.ite (fun _ => ?_) (fun _ => ?_)
    · exact CfgOk.rfl
    · exact linkRec_cfgOk
  clear_value x1
  exact CfgOk.after (CfgOk.ofOnly (State.modLink_only (W := [.links]) rfl) rfl) (h2)

theorem breakGroup_cfgOk {a0 : Nat} {a1 : Nat} {a2 : Nat} {a3 : Machine.State} : CfgOk a3 (breakGroup a0 a1 a2 a3) := by
  unfold breakGroup
  split
  · exact CfgOk.rfl
  · refine CfgOk.ite (fun _ => ?_) (fun _ => ?_)
    · exact CfgOk.rfl
    · extract_lets +onlyGivenNames -merge -useContext -underBinder x0
      have h1 : CfgOk a3 x0 := by
        unfold x0
        exact CfgOk.after (reportCtl_cfgOk) (CfgOk.ofOnly (State.modGrp_only (W := [.coll]) rfl) rfl)
      clear_value x0
      exact CfgOk.after (CfgOk.ofOnly (peerLost_only (W := [.links, .coll]) rfl) rfl) (h1)

theorem byeMsg_cfgOk {a0 : Nat} {a1 : Bytes} {a2 : Machine.State} : CfgOk a2 (byeMsg a0 a1 a2) := by
  unfold byeMsg
  split
  · exact CfgOk.ofOnly (collDiscard_only (W := [.coll]) rfl) rfl
  · exact breakGroup_cfgOk

theorem collLinkReset_cfgOk {a0 : Nat} {a1 : Machine.State} : CfgOk a1 (collLinkReset a0 a1) := by
  unfold collLinkReset
  refine CfgOk.after (forEach_cfgOk (fun _ t0 => ?_)) ?_
  · exact breakGroup_cfgOk
  · exact CfgOk.rfl

theorem resetLink_cfgOk {a0 : Nat} {a1 : Nat} {a2 : Nat} {a3 : Machine.State} : CfgOk a3 (resetLink a0 a1 a2 a3) := by
  unfold resetLink
  exact CfgOk.after (collLinkReset_cfgOk) (linkReset_cfgOk)

theorem linkSettle_cfgOk {a0 : Nat} {a1 : Machine.State} : CfgOk a1 (linkSettle a0 a1) := by
  unfold linkSettle
  split
  · exact resetLink_cfgOk
  · exact CfgOk.rfl

theorem collErrCount_cfgOk {a0 : Machine.State} : CfgOk a0 (collErrCount a0) := by
  unfold collErrCount
  extract_lets +onlyGivenNames -merge -useContext -underBinder x0
  try clear_value x0
  extract_lets +onlyGivenNames -merge -useContext -underBinder x1
  have h2 : CfgOk a0 x1 := by
    unfold x1
    refine CfgOk.ite (fun _ => ?_) (fun _ => ?_)
    · exact CfgOk.rfl
    · exact reportCtl_cfgOk
  clear_value x1
  exact CfgOk.after (CfgOk.ofOnly (State.modColl_only (W := [.coll]) rfl) rfl) (h2)

theorem policyRun_cfgOk {a0 : Nat} {a1 : Nat} {a2 : List (Nat × Nat)} {a3 : Bytes → Option Nat} {a4 : Bytes → Machine.State → PolicyOut} {a5 : Machine.State} (g0 : ∀ v0 v1, CfgVia (fun r => r.2.2) v1 (a4 v0 v1)) : CfgOk a5 (policyRun a0 a1 a2 a3 a4 a5) := by
  unfold policyRun
  split
  · exact CfgOk.rfl
  · refine CfgOk.ite (fun _ => ?_) (fun _ => ?_)
    · exact CfgOk.rfl
    · extract_lets +onlyGivenNames -merge -useContext -underBinder x0
      have h1 : CfgOk a5 x0 := by
        unfold x0
        exact CfgOk.ofOnly (State.modMgmt_only (W := [.mgmt]) rfl) rfl
      clear_value x0
      split
      · exact CfgOk.after (CfgOk.ofOnly (policyAck_only (W := [.adit]) rfl) rfl) (h1)
      · split
        · exact CfgOk.after (CfgOk.ofOnly (policyAck_only (W := [.adit]) rfl) rfl) (h1)
        · split
          · rename_i y3 y4 y5 q6
            have h2 := CfgOk.ofEq (p := (fun r => r.2.2)) (g0 _ _) q6 (s := a5) (by
              exact h1
              )
            exact CfgOk.after (CfgOk.ofOnly (policyAck_only (W := [.adit]) rfl) rfl) (h2)

theorem withA5_cfgOk {a0 : Nat} {a1 : Nat → Bytes → Machine.State → Machine.State} {a2 : Machine.State} (g0 : ∀ v0 v1 v2, CfgOk v2 (a1 v0 v1 v2)) : CfgOk a2 (withA5 a0 a1 a2) := by
  unfold withA5
  split
  · exact CfgOk.rfl
  · refine CfgOk.ite (fun _ => ?_) (fun _ => ?_)
    · exact CfgOk.after (g0 _ _ _) (CfgOk.ofOnly (State.modAdit_only (W := [.adit]) rfl) rfl)
    · exact CfgOk.rfl

theorem takeA3_cfgOk {a0 : Type} {a1 : A3Msg → Option a0} {a2 : a0 → Machine.State → Machine.State} {a3 : Machine.State} (g0 : ∀ v0 v1, CfgOk v1 (a2 v0 v1)) : CfgOk a3 (takeA3 a1 a2 a3) := by
  unfold takeA3
  refine CfgOk.ite (fun _ => ?_) (fun _ => ?_)
  · exact CfgOk.rfl
  · split
    · exact CfgOk.rfl
    · split
      · exact CfgOk.after (g0 _ _) (CfgOk.ofOnly (State.modAdit_only (W := [.adit]) rfl) rfl)
      · exact CfgOk.rfl

theorem takeFrame_cfgOk {a0 : Nat} {a1 : Frame} {a2 : Frame → Machine.State → Machine.State} {a3 : Machine.State} (g0 : ∀ v0 v1, CfgOk v1 (a2 v0 v1)) : CfgOk a3 (takeFrame a0 a1 a2 a3) := by
  unfold takeFrame
  extract_lets +onlyGivenNames -merge -useContext -underBinder x0
  try clear_value x0
  extract_lets +onlyGivenNames -merge -useContext -underBinder x1
  try clear_value x1
  extract_lets +onlyGivenNames -merge -useContext -underBinder x2
  try clear_value x2
  refine CfgOk.ite (fun _ => ?_) (fun _ => ?_)
  · exact CfgOk.ofOnly (State.modBus_only (W := [.bus]) rfl) rfl
  · extract_lets +onlyGivenNames -merge -useContext -underBinder x3
    have h4 : CfgOk a3 x3 := by
      unfold x3
      exact CfgOk.ofOnly (State.modBus_only (W := [.bus]) rfl) rfl
    clear_value x3
    refine CfgOk.ite (fun _ => ?_) (fun _ => ?_)
    · exact CfgOk.after (g0 _ _) (h4)
    · exact h4

theorem busIn_cfgOk {a0 : Nat} {a1 : Nat} {a2 : Frame} {a3 : Frame → Machine.State → Machine.State} {a4 : Machine.State} (g0 : ∀ v0 v1, CfgOk v1 (a3 v0 v1)) : CfgOk a4 (busIn a0 a1 a2 a3 a4) := by
  unfold busIn
  refine CfgOk.ite (fun _ => ?_) (fun _ => ?_)
  · exact CfgOk.rfl
  · split
    · exact CfgOk.ofOnly (countDrop_only (W := [.bus]) rfl) rfl
    · extract_lets +onlyGivenNames -merge -useContext -underBinder x0
      have h1 : CfgOk a4 x0 := by
        unfold x0
        exact CfgOk.ofOnly (State.modBus_only (W := [.bus]) rfl) rfl
      clear_value x0
      refine CfgOk.ite (fun _ => ?_) (fun _ => ?_)
      · exact CfgOk.after (CfgOk.ofOnly (ownIdHeard_only (W := [.adit, .bus]) rfl) rfl) (h1)
      · refine CfgOk.after (takeFrame_cfgOk (fun _ t2 => ?_)) ?_
        · exact g0 _ _
        · exact h1

theorem lowerFirst_cfgOk {a0 : List Nat} {a1 : Machine.State → Nat → Alloc} {a2 : Nat → (Alloc → Alloc) → Machine.State → Machine.State} {a3 : Nat → Nat} {a4 : Machine.State → Nat} {a5 : Machine.State} (g0 : ∀ v0 v1 v2, CfgOk v2 (a2 v0 v1 v2)) : CfgOk a5 (lowerFirst a0 a1 a2 a3 a4 a5) := by
  unfold lowerFirst
  extract_lets +onlyGivenNames -merge -useContext -underBinder x0
  try clear_value x0
  extract_lets +onlyGivenNames -merge -useContext -underBinder x1
  have h2 : CfgOk a5 x1 := by
    unfold x1
    refine CfgOk.after (forEach_cfgOk (fun _ t3 => ?_)) ?_
    · refine CfgOk.ite (fun _ => ?_) (fun _ => ?_)
      · exact g0 _ _ _
      · exact CfgOk.rfl
    · exact CfgOk.rfl
  clear_value x1
  refine CfgOk.ite (fun _ => ?_) (fun _ => ?_)
  · refine CfgOk.after (forEach_cfgOk (fun _ t4 => ?_)) ?_
    · refine CfgOk.ite (fun _ => ?_) (fun _ => ?_)
      · exact g0 _ _ _
      · exact CfgOk.rfl
    · exact h2
  · exact h2

theorem wlIn_cfgOk {a0 : Nat} {a1 : Nat} {a2 : Nat} {a3 : Bool} {a4 : Bytes} {a5 : Bytes → Machine.State → Machine.State} {a6 : Machine.State} (g0 : ∀ v0 v1, CfgOk v1 (a5 v0 v1)) : CfgOk a6 (wlIn a0 a1 a2 a3 a4 a5 a6) := by
  unfold wlIn
  refine CfgOk.ite (fun _ => ?_) (fun _ => ?_)
  · exact CfgOk.rfl
  · refine CfgOk.ite (fun _ => ?_) (fun _ => ?_)
    · exact CfgOk.ofOnly (State.modWard_only (W := [.ward]) rfl) rfl
    · extract_lets +onlyGivenNames -merge -useContext -underBinder x0
      have h1 : CfgOk a6 x0 := by
        unfold x0
        exact CfgOk.ofOnly (laneGood_only (W := [.adit, .ward]) rfl) rfl
      clear_value x0
      refine CfgOk.ite (fun _ => ?_) (fun _ => ?_)
      · exact h1
      · exact CfgOk.after (g0 _ _) (CfgOk.after (CfgOk.ofOnly (State.modWard_only (W := [.ward]) rfl) rfl) (h1))

theorem settle_cfgOk {a0 : Machine.State} : CfgOk a0 (settle a0) := by
  unfold settle
  exact CfgOk.after (CfgOk.ofOnly (collRefresh_only (W := [.free, .rings, .beat, .mem, .links, .coll]) rfl) rfl) (CfgOk.after (CfgOk.ofOnly (refresh_only (W := [.rings]) rfl) rfl) (progress_cfgOk))

theorem ringOp_cfgOk {a0 : Nat} {a1 : OpSpec} {a2 : Nat} {a3 : Nat} {a4 : Nat → Machine.State → Machine.State} {a5 : Machine.State} (g0 : ∀ v0 v1, CfgOk v1 (a4 v0 v1)) : CfgOk a5 (ringOp a0 a1 a2 a3 a4 a5) := by
  unfold ringOp
  refine CfgOk.after (settle_cfgOk) ?_
  · refine CfgOk.after (issueOp_cfgOk (fun _ t0 => ?_)) ?_
    · exact g0 _ _
    · exact CfgOk.rfl

theorem ringUnknown_cfgOk {a0 : Nat} {a1 : Nat} {a2 : Machine.State} : CfgOk a2 (ringUnknown a0 a1 a2) := by
  unfold ringUnknown
  refine CfgOk.after (settle_cfgOk) ?_
  · refine CfgOk.after (issueWhen_cfgOk (fun _ t0 => ?_)) ?_
    · exact CfgOk.ofOnly (endCmd_only (W := [.rings]) rfl) rfl
    · exact CfgOk.rfl

theorem resetReqs_cfgOk {a0 : Nat} {a1 : Machine.State} : CfgOk a1 (resetReqs a0 a1) := by
  unfold resetReqs
  extract_lets +onlyGivenNames -merge -useContext -underBinder x0
  try clear_value x0
  exact State.modHost_cfgOk (by intro x; repeat' (first | exact ⟨Eq.refl _, Eq.refl _⟩ | split))

theorem resetPages_cfgOk {a0 : Nat} {a1 : Machine.State} : CfgOk a1 (resetPages a0 a1) := by
  unfold resetPages
  extract_lets +onlyGivenNames -merge -useContext -underBinder x0
  try clear_value x0
  extract_lets +onlyGivenNames -merge -useContext -underBinder x1
  have h2 : CfgOk a1 x1 := by
    unfold x1
    refine CfgOk.after (forEach_cfgOk (fun _ t3 => ?_)) ?_
    · exact CfgOk.after (CfgOk.ofOnly (State.modPage_only (W := [.cages]) rfl) rfl) (CfgOk.ofOnly (unmapPage_only (W := [.cages]) rfl) rfl)
    · exact CfgOk.rfl
  clear_value x1
  extract_lets +onlyGivenNames -merge -useContext -underBinder x4
  have h5 : CfgOk a1 x4 := by
    unfold x4
    exact CfgOk.after (CfgOk.ofOnly (State.modCages_only (W := [.cages]) rfl) rfl) (h2)
  clear_value x4
  extract_lets +onlyGivenNames -merge -useContext -underBinder x6
  have h7 : CfgOk a1 x6 := by
    unfold x6
    exact CfgOk.after (CfgOk.ofOnly (State.modCage_only (W := [.cages]) rfl) rfl) (h5)
  clear_value x6
  refine CfgOk.after (forEach_cfgOk (fun _ t8 => ?_)) ?_
  · exact mendPlan_cfgOk
  · exact h7

theorem funcNotice_cfgOk {a0 : Nat} {a1 : Nat} {a2 : Machine.State} : CfgOk a2 (funcNotice a0 a1 a2) := by
  unfold funcNotice
  extract_lets +onlyGivenNames -merge -useContext -underBinder x0
  have h1 : CfgOk a2 x0 := by
    unfold x0
    exact CfgOk.ofOnly (keepCause_only (W := [.ao]) rfl) rfl
  clear_value x0
  exact CfgOk.after (report_cfgOk) (h1)

theorem answer_cfgOk {a0 : Bytes → Bool} {a1 : MctpReq → Machine.State → Reply} {a2 : Machine.State} (g0 : ∀ v0 v1, CfgVia Prod.snd v1 (a1 v0 v1)) : CfgOk a2 (answer a0 a1 a2) := by
  unfold answer
  refine CfgOk.ite (fun _ => ?_) (fun _ => ?_)
  · exact CfgOk.rfl
  · split
    · exact CfgOk.rfl
    · extract_lets +onlyGivenNames -merge -useContext -underBinder x0
      have h1 : CfgOk a2 x0 := by
        unfold x0
        exact CfgOk.ofOnly (State.modMgmt_only (W := [.mgmt]) rfl) rfl
      clear_value x0
      refine CfgOk.ite (fun _ => ?_) (fun _ => ?_)
      · exact CfgOk.after (CfgOk.ofOnly (mctpSend_only (W := [.mgmt]) rfl) rfl) (h1)
      · split
        · rename_i y3 y4 q5
          have h2 := CfgOk.ofEq (p := Prod.snd) (g0 _ _) q5 (s := a2) (by
            exact h1
            )
          exact CfgOk.after (CfgOk.ofOnly (watch_only (W := [.adit, .mgmt]) rfl) rfl) (CfgOk.after (CfgOk.ofOnly (mctpSend_only (W := [.mgmt]) rfl) rfl) (h2))

theorem ctl_cfgOk {a0 : Nat} {a1 : MctpReq → Machine.State → Nat × Bytes × Machine.State} {a2 : Machine.State} (g0 : ∀ v0 v1, CfgVia (fun r => r.2.2) v1 (a1 v0 v1)) : CfgOk a2 (ctl a0 a1 a2) := by
  unfold ctl
  refine CfgOk.after (answer_cfgOk (fun _ t0 => ?_)) ?_
  · split
    · rename_i y2 y3 y4 q5
      have h1 := CfgOk.ofEq (p := (fun r => r.2.2)) (g0 _ _) q5 (s := t0) (by
        exact CfgOk.rfl
        )
      refine CfgOk.via2 ?_
      exact h1
  · exact CfgOk.rfl

theorem pldm_cfgOk {a0 : Nat} {a1 : Nat} {a2 : MctpReq → Machine.State → Nat × Bytes × Machine.State} {a3 : Machine.State} (g0 : ∀ v0 v1, CfgVia (fun r => r.2.2) v1 (a2 v0 v1)) : CfgOk a3 (pldm a0 a1 a2 a3) := by
  unfold pldm
  refine CfgOk.after (answer_cfgOk (fun _ t0 => ?_)) ?_
  · split
    · rename_i y2 y3 y4 q5
      have h1 := CfgOk.ofEq (p := (fun r => r.2.2)) (g0 _ _) q5 (s := t0) (by
        exact CfgOk.rfl
        )
      refine CfgOk.via2 ?_
      exact h1
  · exact CfgOk.rfl

theorem vendor_cfgOk {a0 : Nat} {a1 : Bytes → Machine.State → Nat × Bytes × Machine.State} {a2 : Machine.State} (g0 : ∀ v0 v1, CfgVia (fun r => r.2.2) v1 (a1 v0 v1)) : CfgOk a2 (vendor a0 a1 a2) := by
  unfold vendor
  refine CfgOk.after (answer_cfgOk (fun _ t0 => ?_)) ?_
  · split
    · rename_i y2 y3 y4 q5
      have h1 := CfgOk.ofEq (p := (fun r => r.2.2)) (g0 _ _) q5 (s := t0) (by
        exact CfgOk.rfl
        )
      refine CfgOk.via2 ?_
      exact h1
  · exact CfgOk.rfl

theorem signed_cfgOk {a0 : Nat} {a1 : LifeCycle → Option Bool} {a2 : Bytes → Machine.State → Nat} {a3 : Bytes → Machine.State → Machine.State} {a4 : Machine.State} (g0 : ∀ v0 v1, CfgOk v1 (a3 v0 v1)) : CfgOk a4 (signed a0 a1 a2 a3 a4) := by
  unfold signed
  refine CfgOk.after (vendor_cfgOk (fun _ t0 => ?_)) ?_
  · extract_lets +onlyGivenNames -merge -useContext -underBinder x1
    try clear_value x1
    refine CfgOk.iteV (fun _ => ?_) (fun _ => ?_)
    · refine CfgOk.via3 ?_
      exact CfgOk.ofOnly (lcEvent_only (W := [.adit]) rfl) rfl
    · refine CfgOk.via3 ?_
      exact CfgOk.after (g0 _ _) (CfgOk.ofOnly (State.modMgmt_only (W := [.mgmt]) rfl) rfl)
  · exact CfgOk.rfl

theorem windowAccess_cfgOk {a0 : Nat} {a1 : Machine.State → Machine.State} {a2 : Machine.State} (g0 : ∀ v0, CfgOk v0 (a1 v0)) : CfgOk a2 (windowAccess a0 a1 a2) := by
  unfold windowAccess
  refine CfgOk.ite (fun _ => ?_) (fun _ => ?_)
  · exact CfgOk.rfl
  · extract_lets +onlyGivenNames -merge -useContext -underBinder x0
    have h1 : CfgOk a2 x0 := by
      unfold x0
      exact State.modHost_cfgOk (by intro x; repeat' (first | exact ⟨Eq.refl _, Eq.refl _⟩ | split))
    clear_value x0
    refine CfgOk.ite (fun _ => ?_) (fun _ => ?_)
    · exact CfgOk.after (g0 _) (h1)
    · exact CfgOk.after (aerUncorrectable_cfgOk) (h1)

theorem badSize_cfgOk {a0 : Nat} {a1 : Machine.State} : CfgOk a1 (badSize a0 a1) := by
  unfold badSize
  exact State.modFn_cfgOk (by intro x; repeat' (first | exact Eq.refl _ | split))

theorem writeDblCtl_cfgOk {a0 : Nat} {a1 : Nat} {a2 : Machine.State} : CfgOk a2 (writeDblCtl a0 a1 a2) := by
  unfold writeDblCtl
  extract_lets +onlyGivenNames -merge -useContext -underBinder x0
  try clear_value x0
  extract_lets +onlyGivenNames -merge -useContext -underBinder x1
  have h2 : CfgOk a2 x1 := by
    unfold x1
    refine CfgOk.ite (fun _ => ?_) (fun _ => ?_)
    · exact CfgOk.rfl
    · exact State.modFn_cfgOk (by intro x; repeat' (first | exact Eq.refl _ | split))
  clear_value x1
  refine CfgOk.ite (fun _ => ?_) (fun _ => ?_)
  · refine CfgOk.ite (fun _ => ?_) (fun _ => ?_)
    · exact CfgOk.after (State.modFn_cfgOk (by intro x; repeat' (first | exact Eq.refl _ | split))) (h2)
    · exact CfgOk.after (dblCheck_cfgOk) (CfgOk.after (State.modFn_cfgOk (by intro x; repeat' (first | exact Eq.refl _ | split))) (h2))
  · refine CfgOk.ite (fun _ => ?_) (fun _ => ?_)
    · exact CfgOk.after (dblCheck_cfgOk) (CfgOk.after (State.modFn_cfgOk (by intro x; repeat' (first | exact Eq.refl _ | split))) (h2))
    · exact h2

theorem ringEnable_cfgOk {a0 : Nat} {a1 : Nat} {a2 : Machine.State} : CfgOk a2 (ringEnable a0 a1 a2) := by
  unfold ringEnable
  extract_lets +onlyGivenNames -merge -useContext -underBinder x0
  try clear_value x0
  extract_lets +onlyGivenNames -merge -useContext -underBinder x1
  try clear_value x1
  extract_lets +onlyGivenNames -merge -useContext -underBinder x2
  try clear_value x2
  extract_lets +onlyGivenNames -merge -useContext -underBinder x3
  try clear_value x3
  extract_lets +onlyGivenNames -merge -useContext -underBinder x4
  try clear_value x4
  refine CfgOk.ite (fun _ => ?_) (fun _ => ?_)
  · exact CfgOk.ofOnly (State.modRpt_only (W := [.rings]) rfl) rfl
  · extract_lets +onlyGivenNames -merge -useContext -underBinder x5
    have h6 : CfgOk a2 x5 := by
      unfold x5
      exact CfgOk.ofOnly (State.modRing_only (W := [.rings]) rfl) rfl
    clear_value x5
    exact CfgOk.after (dblCheck_cfgOk) (CfgOk.after (State.modFn_cfgOk (by intro x; repeat' (first | exact Eq.refl _ | split))) (h6))

theorem ringDisable_cfgOk {a0 : Nat} {a1 : Nat} {a2 : Machine.State} : CfgOk a2 (ringDisable a0 a1 a2) := by
  unfold ringDisable
  extract_lets +onlyGivenNames -merge -useContext -underBinder x0
  try clear_value x0
  extract_lets +onlyGivenNames -merge -useContext -underBinder x1
  have h2 : CfgOk a2 x1 := by
    unfold x1
    exact CfgOk.ofOnly (State.modRing_only (W := [.rings]) rfl) rfl
  clear_value x1
  extract_lets +onlyGivenNames -merge -useContext -underBinder x3
  have h4 : CfgOk a2 x3 := by
    unfold x3
    split
    · refine CfgOk.ite (fun _ => ?_) (fun _ => ?_)
      · exact h2
      · exact CfgOk.after (CfgOk.ofOnly (swapOut_only (W := [.rings]) rfl) rfl) (h2)
    · exact h2
  clear_value x3
  exact CfgOk.after (settle_cfgOk) (CfgOk.after (dblCheck_cfgOk) (h4))

theorem writeRingCfg_cfgOk {a0 : Nat} {a1 : Nat} {a2 : Nat} {a3 : Machine.State} : CfgOk a3 (writeRingCfg a0 a1 a2 a3) := by
  unfold writeRingCfg
  extract_lets +onlyGivenNames -merge -useContext -underBinder x0
  try clear_value x0
  extract_lets +onlyGivenNames -merge -useContext -underBinder x1
  try clear_value x1
  extract_lets +onlyGivenNames -merge -useContext -underBinder x2
  have h3 : CfgOk a3 x2 := by
    unfold x2
    refine CfgOk.ite (fun _ => ?_) (fun _ => ?_)
    · exact CfgOk.rfl
    · exact CfgOk.ofOnly (State.modRing_only (W := [.rings]) rfl) rfl
  clear_value x2
  refine CfgOk.ite (fun _ => ?_) (fun _ => ?_)
  · exact CfgOk.after (ringEnable_cfgOk) (h3)
  · refine CfgOk.ite (fun _ => ?_) (fun _ => ?_)
    · exact CfgOk.after (ringDisable_cfgOk) (h3)
    · exact h3

theorem rptDisable_cfgOk {a0 : Nat} {a1 : Machine.State} : CfgOk a1 (rptDisable a0 a1) := by
  unfold rptDisable
  extract_lets +onlyGivenNames -merge -useContext -underBinder x0
  have h1 : CfgOk a1 x0 := by
    unfold x0
    exact CfgOk.ofOnly (State.modRpt_only (W := [.rings]) rfl) rfl
  clear_value x0
  extract_lets +onlyGivenNames -merge -useContext -underBinder x2
  try clear_value x2
  extract_lets +onlyGivenNames -merge -useContext -underBinder x3
  have h4 : CfgOk a1 x3 := by
    unfold x3
    exact CfgOk.after (CfgOk.ofOnly (State.modRings_only (W := [.rings]) rfl) rfl) (h1)
  clear_value x3
  refine CfgOk.foldl (fun t5 _ => ?_) ?_
  · exact report_cfgOk
  · exact h4

theorem writeRptCfg_cfgOk {a0 : Nat} {a1 : Nat} {a2 : Machine.State} : CfgOk a2 (writeRptCfg a0 a1 a2) := by
  unfold writeRptCfg
  extract_lets +onlyGivenNames -merge -useContext -underBinder x0
  try clear_value x0
  extract_lets +onlyGivenNames -merge -useContext -underBinder x1
  have h2 : CfgOk a2 x1 := by
    unfold x1
    refine CfgOk.ite (fun _ => ?_) (fun _ => ?_)
    · exact CfgOk.rfl
    · exact CfgOk.ofOnly (State.modRpt_only (W := [.rings]) rfl) rfl
  clear_value x1
  refine CfgOk.ite (fun _ => ?_) (fun _ => ?_)
  · exact CfgOk.after (CfgOk.ofOnly (rptEnable_only (W := [.rings]) rfl) rfl) (h2)
  · refine CfgOk.ite (fun _ => ?_) (fun _ => ?_)
    · exact CfgOk.after (rptDisable_cfgOk) (h2)
    · exact h2

theorem writeLinkCtl_cfgOk {a0 : Nat} {a1 : Nat} {a2 : Machine.State} : CfgOk a2 (writeLinkCtl a0 a1 a2) := by
  unfold writeLinkCtl
  extract_lets +onlyGivenNames -merge -useContext -underBinder x0
  try clear_value x0
  extract_lets +onlyGivenNames -merge -useContext -underBinder x1
  have h2 : CfgOk a2 x1 := by
    unfold x1
    refine CfgOk.ite (fun _ => ?_) (fun _ => ?_)
    · exact CfgOk.rfl
    · exact CfgOk.ofOnly (State.modLink_only (W := [.links]) rfl) rfl
  clear_value x1
  refine CfgOk.ite (fun _ => ?_) (fun _ => ?_)
  · extract_lets +onlyGivenNames -merge -useContext -underBinder x3
    have h4 : CfgOk a2 x3 := by
      unfold x3
      exact CfgOk.after (CfgOk.ofOnly (State.modLink_only (W := [.links]) rfl) rfl) (h2)
    clear_value x3
    refine CfgOk.ite (fun _ => ?_) (fun _ => ?_)
    · exact CfgOk.after (CfgOk.ofOnly (train_only (W := [.links]) rfl) rfl) (h4)
    · exact h4
  · refine CfgOk.ite (fun _ => ?_) (fun _ => ?_)
    · extract_lets +onlyGivenNames -merge -useContext -underBinder x5
      try clear_value x5
      extract_lets +onlyGivenNames -merge -useContext -underBinder x6
      have h7 : CfgOk a2 x6 := by
        unfold x6
        exact CfgOk.after (CfgOk.ofOnly (State.modLink_only (W := [.links]) rfl) rfl) (h2)
      clear_value x6
      refine CfgOk.ite (fun _ => ?_) (fun _ => ?_)
      · exact CfgOk.after (resetLink_cfgOk) (h7)
      · exact CfgOk.after (linkRec_cfgOk) (CfgOk.after (CfgOk.ofOnly (State.modLink_only (W := [.links]) rfl) rfl) (h7))
    · exact h2

theorem writeW1c_cfgOk {a0 : Nat} {a1 : Nat} {a2 : Nat} {a3 : Machine.State} : CfgOk a3 (writeW1c a0 a1 a2 a3) := by
  unfold writeW1c
  refine CfgOk.ite (fun _ => ?_) (fun _ => ?_)
  · exact State.modFn_cfgOk (by intro x; repeat' (first | exact Eq.refl _ | split))
  · refine CfgOk.ite (fun _ => ?_) (fun _ => ?_)
    · exact CfgOk.ofOnly (State.modRpt_only (W := [.rings]) rfl) rfl
    · exact CfgOk.rfl

theorem writeSetup_cfgOk {a0 : Nat} {a1 : Nat} {a2 : W32} {a3 : Machine.State} : CfgOk a3 (writeSetup a0 a1 a2 a3) := by
  unfold writeSetup
  extract_lets +onlyGivenNames -merge -useContext -underBinder x0
  try clear_value x0
  refine CfgOk.ite (fun _ => ?_) (fun _ => ?_)
  · exact CfgOk.ite (fun _ => CfgOk.rfl) (fun _ => State.modFn_cfgOk (fun _ => Eq.refl _))
  · refine CfgOk.ite (fun _ => ?_) (fun _ => ?_)
    · exact writeDblCtl_cfgOk
    · refine CfgOk.ite (fun _ => ?_) (fun _ => ?_)
      · exact writeW1c_cfgOk
      · refine CfgOk.ite (fun _ => ?_) (fun _ => ?_)
        · exact CfgOk.ite (fun _ => CfgOk.rfl) (fun _ => CfgOk.ofOnly (State.modRpt_only (W := [.rings]) rfl) rfl)
        · refine CfgOk.ite (fun _ => ?_) (fun _ => ?_)
          · exact writeRptCfg_cfgOk
          · refine CfgOk.ite (fun _ => ?_) (fun _ => ?_)
            · extract_lets +onlyGivenNames -merge -useContext -underBinder x1
              try clear_value x1
              extract_lets +onlyGivenNames -merge -useContext -underBinder x2
              try clear_value x2
              refine CfgOk.ite (fun _ => ?_) (fun _ => ?_)
              · exact CfgOk.ite (fun _ => CfgOk.rfl) (fun _ => CfgOk.ofOnly (State.modRing_only (W := [.rings]) rfl) rfl)
              · refine CfgOk.ite (fun _ => ?_) (fun _ => ?_)
                · exact CfgOk.ite (fun _ => CfgOk.rfl) (fun _ => CfgOk.ofOnly (State.modRing_only (W := [.rings]) rfl) rfl)
                · refine CfgOk.ite (fun _ => ?_) (fun _ => ?_)
                  · exact writeRingCfg_cfgOk
                  · exact CfgOk.rfl
            · refine CfgOk.ite (fun _ => ?_) (fun _ => ?_)
              · exact CfgOk.rfl
              · refine CfgOk.ite (fun _ => ?_) (fun _ => ?_)
                · exact CfgOk.ofOnly (scrubWrite_only (W := [.mem]) rfl) rfl
                · refine CfgOk.ite (fun _ => ?_) (fun _ => ?_)
                  · exact writeLinkCtl_cfgOk
                  · refine CfgOk.ite (fun _ => ?_) (fun _ => ?_)
                    · exact CfgOk.ofOnly (writeCollCtl_only (W := [.coll]) rfl) rfl
                    · refine CfgOk.ite (fun _ => ?_) (fun _ => ?_)
                      · exact CfgOk.ofOnly (writeTraceCtl_only (W := [.mgmt]) rfl) rfl
                      · exact CfgOk.ofOnly (writeLocked_only (W := [.adit, .beat]) rfl) rfl

theorem writeMsix_cfgOk {a0 : Nat} {a1 : Nat} {a2 : W32} {a3 : Machine.State} : CfgOk a3 (writeMsix a0 a1 a2 a3) := by
  unfold writeMsix
  extract_lets +onlyGivenNames -merge -useContext -underBinder x0
  try clear_value x0
  refine CfgOk.ite (fun _ => ?_) (fun _ => ?_)
  · exact CfgOk.rfl
  · split
    · exact modVec_cfgOk
    · exact modVec_cfgOk
    · exact modVec_cfgOk
    · exact CfgOk.after (flushMsi_cfgOk) (modVec_cfgOk)

theorem write4_cfgOk {a0 : Nat} {a1 : Nat} {a2 : W32} {a3 : Machine.State} : CfgOk a3 (write4 a0 a1 a2 a3) := by
  unfold write4
  refine CfgOk.ite (fun _ => ?_) (fun _ => ?_)
  · exact writeSetup_cfgOk
  · refine CfgOk.ite (fun _ => ?_) (fun _ => ?_)
    · exact writeMsix_cfgOk
    · exact CfgOk.rfl

theorem writeReg_cfgOk {a0 : Nat} {a1 : Nat} {a2 : Nat} {a3 : W64} {a4 : Machine.State} : CfgOk a4 (writeReg a0 a1 a2 a3 a4) := by
  unfold writeReg
  refine CfgOk.after (windowAccess_cfgOk (fun t0 => ?_)) ?_
  · refine CfgOk.ite (fun _ => ?_) (fun _ => ?_)
    · extract_lets +onlyGivenNames -merge -useContext -underBinder x1
      have h2 : CfgOk t0 x1 := by
        unfold x1
        exact write4_cfgOk
      clear_value x1
      refine CfgOk.ite (fun _ => ?_) (fun _ => ?_)
      · exact CfgOk.after (write4_cfgOk) (h2)
      · exact h2
    · refine CfgOk.ite (fun _ => ?_) (fun _ => ?_)
      · exact badSize_cfgOk
      · exact CfgOk.rfl
  · exact CfgOk.rfl

theorem writeRow_cfgOk {a0 : Nat} {a1 : Nat} {a2 : Nat} {a3 : Machine.State} : CfgOk a3 (writeRow a0 a1 a2 a3) := by
  unfold writeRow
  refine CfgOk.after (windowAccess_cfgOk (fun t0 => ?_)) ?_
  · exact write4_cfgOk
  · exact CfgOk.rfl

theorem a6Deliver_cfgOk {a0 : Machine.State} : CfgOk a0 (a6Deliver a0) := by
  unfold a6Deliver
  refine CfgOk.ite (fun _ => ?_) (fun _ => ?_)
  · exact CfgOk.rfl
  · split
    · exact CfgOk.rfl
    · extract_lets +onlyGivenNames -merge -useContext -underBinder x0
      try clear_value x0
      extract_lets +onlyGivenNames -merge -useContext -underBinder x1
      have h2 : CfgOk a0 x1 := by
        unfold x1
        exact CfgOk.ofOnly (State.modAdit_only (W := [.adit]) rfl) rfl
      clear_value x1
      extract_lets +onlyGivenNames -merge -useContext -underBinder x3
      have h4 : CfgOk a0 x3 := by
        unfold x3
        exact CfgOk.after (report_cfgOk) (CfgOk.after (CfgOk.ofOnly (State.modRings_only (W := [.rings]) rfl) rfl) (h2))
      clear_value x3
      refine CfgOk.ite (fun _ => ?_) (fun _ => ?_)
      · exact CfgOk.after (report_cfgOk) (h4)
      · exact h4

theorem takeDown_cfgOk {a0 : Type} {a1 : A3Msg → Option a0} {a2 : a0 → Machine.State → Machine.State} {a3 : Machine.State} (g0 : ∀ v0 v1, CfgOk v1 (a2 v0 v1)) : CfgOk a3 (takeDown a1 a2 a3) := by
  unfold takeDown
  refine CfgOk.ite (fun _ => ?_) (fun _ => ?_)
  · exact CfgOk.rfl
  · split
    · exact CfgOk.rfl
    · split
      · exact CfgOk.after (g0 _ _) (CfgOk.ofOnly (State.modAdit_only (W := [.adit]) rfl) rfl)
      · exact CfgOk.rfl

theorem takeRelease_cfgOk {a0 : Machine.State} : CfgOk a0 (takeRelease a0) := by
  unfold takeRelease
  refine CfgOk.after (takeDown_cfgOk (fun _ t0 => ?_)) ?_
  · split
    · exact CfgOk.rfl
    · exact CfgOk.after (settle_cfgOk) (CfgOk.after (startProgram_cfgOk) (CfgOk.ofOnly (State.modAdm_only (W := [.cages]) rfl) rfl))
  · exact CfgOk.rfl

theorem takeRefuse_cfgOk {a0 : Machine.State} : CfgOk a0 (takeRefuse a0) := by
  unfold takeRefuse
  refine CfgOk.after (takeDown_cfgOk (fun _ t0 => ?_)) ?_
  · split
    · exact CfgOk.rfl
    · exact CfgOk.after (settle_cfgOk) (CfgOk.after (failAdm_cfgOk) (CfgOk.ofOnly (State.modAdm_only (W := [.cages]) rfl) rfl))
  · exact CfgOk.rfl

theorem offerBackstop_cfgOk {a0 : Nat} {a1 : Machine.State} : CfgOk a1 (offerBackstop a0 a1) := by
  unfold offerBackstop
  split
  · exact CfgOk.rfl
  · refine CfgOk.ite (fun _ => ?_) (fun _ => ?_)
    · exact CfgOk.after (settle_cfgOk) (CfgOk.after (failAdm_cfgOk) (CfgOk.ofOnly (withdraw_only (W := [.adit]) rfl) rfl))
    · exact CfgOk.rfl

theorem takePolicyAck_cfgOk {a0 : Machine.State} : CfgOk a0 (takePolicyAck a0) := by
  unfold takePolicyAck
  refine CfgOk.after (takeDown_cfgOk (fun _ t0 => ?_)) ?_
  · split
    · exact CfgOk.rfl
    · extract_lets +onlyGivenNames -merge -useContext -underBinder x1
      have h2 : CfgOk t0 x1 := by
        unfold x1
        exact CfgOk.ofOnly (State.modRings_only (W := [.rings]) rfl) rfl
      clear_value x1
      extract_lets +onlyGivenNames -merge -useContext -underBinder x3
      have h4 : CfgOk t0 x3 := by
        unfold x3
        refine CfgOk.ite (fun _ => ?_) (fun _ => ?_)
        · exact CfgOk.after (CfgOk.ofOnly (takePermit_only (W := [.cages]) rfl) rfl) (h2)
        · exact h2
      clear_value x3
      exact CfgOk.after (settle_cfgOk) (CfgOk.after (CfgOk.ofOnly (endCmd_only (W := [.rings]) rfl) rfl) (h4))
  · exact CfgOk.rfl

theorem policyTimeout_cfgOk {a0 : Nat} {a1 : Machine.State} : CfgOk a1 (policyTimeout a0 a1) := by
  unfold policyTimeout
  refine CfgOk.ite (fun _ => ?_) (fun _ => ?_)
  · exact CfgOk.after (settle_cfgOk) (CfgOk.after (CfgOk.ofOnly (endCmd_only (W := [.rings]) rfl) rfl) (CfgOk.ofOnly (State.modRings_only (W := [.rings]) rfl) rfl))
  · exact CfgOk.rfl

theorem mgmtTurn_cfgOk {a0 : Machine.State → Machine.State} {a1 : Machine.State} (g0 : ∀ v0, CfgOk v0 (a0 v0)) : CfgOk a1 (mgmtTurn a0 a1) := by
  unfold mgmtTurn
  refine CfgOk.ite (fun _ => ?_) (fun _ => ?_)
  · exact CfgOk.after (CfgOk.ofOnly (watch_only (W := [.adit, .mgmt]) rfl) rfl) (g0 _)
  · exact CfgOk.rfl

theorem edgeTurn_cfgOk {a0 : Machine.State → Machine.State} {a1 : Machine.State} (g0 : ∀ v0, CfgOk v0 (a0 v0)) : CfgOk a1 (edgeTurn a0 a1) := by
  unfold edgeTurn
  exact CfgOk.after (CfgOk.ofOnly (watch_only (W := [.adit, .mgmt]) rfl) rfl) (g0 _)

theorem ctlTurn_cfgOk {a0 : Machine.State → Machine.State} {a1 : Machine.State} (g0 : ∀ v0, CfgOk v0 (a0 v0)) : CfgOk a1 (ctlTurn a0 a1) := by
  unfold ctlTurn
  refine CfgOk.ite (fun _ => ?_) (fun _ => ?_)
  · exact CfgOk.after (settle_cfgOk) (g0 _)
  · exact CfgOk.rfl

theorem dataTurn_cfgOk {a0 : Machine.State → Machine.State} {a1 : Machine.State} (g0 : ∀ v0, CfgOk v0 (a0 v0)) : CfgOk a1 (dataTurn a0 a1) := by
  unfold dataTurn
  refine CfgOk.ite (fun _ => ?_) (fun _ => ?_)
  · exact CfgOk.after (settle_cfgOk) (g0 _)
  · exact CfgOk.rfl

theorem linkTurn_cfgOk {a0 : Nat} {a1 : Machine.State → Machine.State} {a2 : Machine.State} (g0 : ∀ v0, CfgOk v0 (a1 v0)) : CfgOk a2 (linkTurn a0 a1 a2) := by
  unfold linkTurn
  refine CfgOk.ite (fun _ => ?_) (fun _ => ?_)
  · refine CfgOk.after (dataTurn_cfgOk (fun t0 => ?_)) ?_
    · exact CfgOk.after (linkSettle_cfgOk) (g0 _)
    · exact CfgOk.rfl
  · exact CfgOk.rfl

theorem cfgTurn_cfgOk {a0 : Nat} {a1 : Machine.State → Machine.State} {a2 : Machine.State} (g0 : ∀ v0, CfgOk v0 (a1 v0)) : CfgOk a2 (cfgTurn a0 a1 a2) := by
  unfold cfgTurn
  refine CfgOk.ite (fun _ => ?_) (fun _ => ?_)
  · exact CfgOk.rfl
  · refine CfgOk.ite (fun _ => ?_) (fun _ => ?_)
    · exact reply_cfgOk
    · refine CfgOk.ite (fun _ => ?_) (fun _ => ?_)
      · exact CfgOk.after (reply_cfgOk) (aerUncorrectable_cfgOk)
      · refine CfgOk.ite (fun _ => ?_) (fun _ => ?_)
        · exact reply_cfgOk
        · exact CfgOk.after (settle_cfgOk) (CfgOk.after (reply_cfgOk) (g0 _))

theorem onlyIf_cfgOk {a0 : Machine.State → Bool} {a1 : Machine.State → Machine.State} {a2 : Machine.State} (g0 : ∀ v0, CfgOk v0 (a1 v0)) : CfgOk a2 (onlyIf a0 a1 a2) := by
  unfold onlyIf
  refine CfgOk.ite (fun _ => ?_) (fun _ => ?_)
  · exact g0 _
  · exact CfgOk.rfl

theorem windowError_cfgOk {a0 : Nat} {a1 : AerErr} {a2 : Machine.State} : CfgOk a2 (windowError a0 a1 a2) := by
  unfold windowError
  exact aerUncorrectable_cfgOk

theorem ecrcFail_cfgOk {a0 : Nat} {a1 : Option ReadRef} {a2 : Machine.State} : CfgOk a2 (ecrcFail a0 a1 a2) := by
  unfold ecrcFail
  refine CfgOk.ite (fun _ => ?_) (fun _ => ?_)
  · exact CfgOk.rfl
  · split
    · exact windowError_cfgOk
    · exact readLost_cfgOk

theorem fatalInternal_cfgOk {a0 : Machine.State} : CfgOk a0 (fatalInternal a0) := by
  unfold fatalInternal
  exact CfgOk.after (State.modHost_cfgOk (by intro x; repeat' (first | exact ⟨Eq.refl _, Eq.refl _⟩ | split))) (aerUncorrectable_cfgOk)

theorem enterL1_cfgOk {a0 : Machine.State} : CfgOk a0 (enterL1 a0) := by
  unfold enterL1
  refine CfgOk.ite (fun _ => ?_) (fun _ => ?_)
  · exact State.modHost_cfgOk (by intro x; repeat' (first | exact ⟨Eq.refl _, Eq.refl _⟩ | split))
  · exact CfgOk.rfl

theorem msixUnmask_cfgOk {a0 : Nat} {a1 : Nat} {a2 : Machine.State} : CfgOk a2 (msixUnmask a0 a1 a2) := by
  unfold msixUnmask
  refine CfgOk.ite (fun _ => ?_) (fun _ => ?_)
  · exact CfgOk.after (flushMsi_cfgOk) (modVec_cfgOk)
  · exact CfgOk.rfl

theorem dblPoll_cfgOk {a0 : Nat} {a1 : Machine.State} : CfgOk a1 (dblPoll a0 a1) := by
  unfold dblPoll
  refine CfgOk.ite (fun _ => ?_) (fun _ => ?_)
  · exact CfgOk.rfl
  · exact issueDoorbell_cfgOk

theorem lnMessage_cfgOk {a0 : Nat} {a1 : Machine.State} : CfgOk a1 (lnMessage a0 a1) := by
  unfold lnMessage
  refine CfgOk.ite (fun _ => ?_) (fun _ => ?_)
  · exact CfgOk.after (issueDoorbell_cfgOk) (State.modFn_cfgOk (by intro x; repeat' (first | exact Eq.refl _ | split)))
  · exact CfgOk.rfl

theorem lnBackstop_cfgOk {a0 : Nat} {a1 : Machine.State} : CfgOk a1 (lnBackstop a0 a1) := by
  unfold lnBackstop
  refine CfgOk.ite (fun _ => ?_) (fun _ => ?_)
  · exact issueDoorbell_cfgOk
  · exact CfgOk.rfl

theorem dblTagFree_cfgOk {a0 : Nat} {a1 : Machine.State} : CfgOk a1 (dblTagFree a0 a1) := by
  unfold dblTagFree
  split
  · exact CfgOk.rfl
  · refine CfgOk.ite (fun _ => ?_) (fun _ => ?_)
    · exact issueDoorbell_cfgOk
    · exact CfgOk.rfl

theorem dblComplete_cfgOk {a0 : Nat} {a1 : ReadResult} {a2 : Machine.State} : CfgOk a2 (dblComplete a0 a1 a2) := by
  unfold dblComplete
  refine CfgOk.ite (fun _ => ?_) (fun _ => ?_)
  · exact CfgOk.rfl
  · split
    · refine CfgOk.ite (fun _ => ?_) (fun _ => ?_)
      · refine CfgOk.after (popDoorbell_cfgOk (fun _ t0 => ?_)) ?_
        · exact dblData_cfgOk
        · exact CfgOk.rfl
      · exact CfgOk.rfl
    · refine CfgOk.after (popDoorbell_cfgOk (fun _ t1 => ?_)) ?_
      · exact dblFailed_cfgOk
      · exact aerUncorrectable_cfgOk
    · refine CfgOk.after (popDoorbell_cfgOk (fun _ t2 => ?_)) ?_
      · exact dblFailed_cfgOk
      · exact CfgOk.rfl

theorem descrComplete_cfgOk {a0 : Nat} {a1 : Bytes} {a2 : Option ReadFail} {a3 : Machine.State} : CfgOk a3 (descrComplete a0 a1 a2 a3) := by
  unfold descrComplete
  split
  · exact CfgOk.rfl
  · split
    · refine CfgOk.ite (fun _ => ?_) (fun _ => ?_)
      · exact descrArrive_cfgOk
      · exact CfgOk.rfl
    · exact CfgOk.after (descrArrive_cfgOk) (aerUncorrectable_cfgOk)
    · exact descrArrive_cfgOk

theorem bodyDestroy_cfgOk {a0 : Nat} {a1 : Machine.State} : CfgOk a1 (bodyDestroy a0 a1) := by
  unfold bodyDestroy
  extract_lets +onlyGivenNames -merge -useContext -underBinder x0
  try clear_value x0
  split
  · exact CfgOk.ofOnly (endCmd_only (W := [.rings]) rfl) rfl
  · exact CfgOk.ofOnly (endCmd_only (W := [.rings]) rfl) rfl
  · exact CfgOk.ofOnly (endCmd_only (W := [.rings]) rfl) rfl
  · extract_lets +onlyGivenNames -merge -useContext -underBinder x1
    have h2 : CfgOk a1 x1 := by
      unfold x1
      exact CfgOk.after (CfgOk.ofOnly (State.modCtx_only (W := [.rings]) rfl) rfl) (CfgOk.ofOnly (State.modCage_only (W := [.cages]) rfl) rfl)
    clear_value x1
    extract_lets +onlyGivenNames -merge -useContext -underBinder x3
    have h4 : CfgOk a1 x3 := by
      unfold x3
      exact CfgOk.after (abortAll_cfgOk) (h2)
    clear_value x3
    extract_lets +onlyGivenNames -merge -useContext -underBinder x5
    have h6 : CfgOk a1 x5 := by
      unfold x5
      exact CfgOk.after (CfgOk.ofOnly (endCageCmds_only (W := [.rings, .cages]) rfl) rfl) (h4)
    clear_value x5
    refine CfgOk.after (forEach_cfgOk (fun _ t7 => ?_)) ?_
    · exact CfgOk.ofOnly (destroyGroup_only (W := [.rings, .links, .coll]) rfl) rfl
    · exact h6

theorem destroyPages_cfgOk {a0 : Nat} {a1 : Machine.State} : CfgOk a1 (destroyPages a0 a1) := by
  unfold destroyPages
  extract_lets +onlyGivenNames -merge -useContext -underBinder x0
  try clear_value x0
  extract_lets +onlyGivenNames -merge -useContext -underBinder x1
  have h2 : CfgOk a1 x1 := by
    unfold x1
    refine CfgOk.after (forEach_cfgOk (fun _ t3 => ?_)) ?_
    · exact CfgOk.after (CfgOk.ofOnly (State.modPage_only (W := [.cages]) rfl) rfl) (CfgOk.ofOnly (unmapPage_only (W := [.cages]) rfl) rfl)
    · exact CfgOk.rfl
  clear_value x1
  extract_lets +onlyGivenNames -merge -useContext -underBinder x4
  have h5 : CfgOk a1 x4 := by
    unfold x4
    exact CfgOk.after (CfgOk.ofOnly (State.modCages_only (W := [.cages]) rfl) rfl) (h2)
  clear_value x4
  refine CfgOk.after (forEach_cfgOk (fun _ t6 => ?_)) ?_
  · exact mendPlan_cfgOk
  · exact h5

theorem destroyDone_cfgOk {a0 : Nat} {a1 : Machine.State} : CfgOk a1 (destroyDone a0 a1) := by
  unfold destroyDone
  refine CfgOk.ite (fun _ => ?_) (fun _ => ?_)
  · split
    · exact CfgOk.rfl
    · extract_lets +onlyGivenNames -merge -useContext -underBinder x0
      have h1 : CfgOk a1 x0 := by
        unfold x0
        exact destroyPages_cfgOk
      clear_value x0
      exact CfgOk.after (CfgOk.ofOnly (endOk_only (W := [.rings]) rfl) rfl) (CfgOk.after (CfgOk.ofOnly (State.modCage_only (W := [.cages]) rfl) rfl) (h1))
  · exact CfgOk.rfl

theorem queueExpired_cfgOk {a0 : Nat} {a1 : Machine.State} : CfgOk a1 (queueExpired a0 a1) := by
  unfold queueExpired
  split
  · exact CfgOk.rfl
  · refine CfgOk.ite (fun _ => ?_) (fun _ => ?_)
    · exact failAdm_cfgOk
    · exact CfgOk.rfl

theorem evictEnd_cfgOk {a0 : Nat} {a1 : Nat} {a2 : Machine.State} : CfgOk a2 (evictEnd a0 a1 a2) := by
  unfold evictEnd
  split
  · exact CfgOk.rfl
  · refine CfgOk.ite (fun _ => ?_) (fun _ => ?_)
    · exact evictDone_cfgOk
    · exact CfgOk.rfl

theorem restoreEnd_cfgOk {a0 : Nat} {a1 : Nat} {a2 : Machine.State} : CfgOk a2 (restoreEnd a0 a1 a2) := by
  unfold restoreEnd
  split
  · exact CfgOk.rfl
  · refine CfgOk.ite (fun _ => ?_) (fun _ => ?_)
    · exact restoreDone_cfgOk
    · exact CfgOk.rfl

theorem pageBook_cfgOk {a0 : Machine.State} : CfgOk a0 (pageBook a0) := by
  unfold pageBook
  exact reportCtl_cfgOk

theorem lineTurn_cfgOk {a0 : Nat} {a1 : LineOp} {a2 : LineErr} {a3 : Machine.State} : CfgOk a3 (lineTurn a0 a1 a2 a3) := by
  unfold lineTurn
  refine CfgOk.ite (fun _ => ?_) (fun _ => ?_)
  · exact lineAccess_cfgOk
  · exact CfgOk.rfl

theorem patrolTurn_cfgOk {a0 : Nat} {a1 : LineErr} {a2 : Machine.State} : CfgOk a2 (patrolTurn a0 a1 a2) := by
  unfold patrolTurn
  refine CfgOk.ite (fun _ => ?_) (fun _ => ?_)
  · exact patrolRead_cfgOk
  · exact CfgOk.rfl

theorem trainResume_cfgOk {a0 : Nat} {a1 : Machine.State} : CfgOk a1 (trainResume a0 a1) := by
  unfold trainResume
  split
  · exact bodyAdmit_cfgOk
  · exact bodyMap_cfgOk
  · exact CfgOk.ofOnly (bodyCollOp_only (W := [.rings, .coll]) rfl) rfl
  · exact CfgOk.ofOnly (bodyCollOp_only (W := [.rings, .coll]) rfl) rfl
  · exact bodyCopy_cfgOk

theorem trainedAll_cfgOk {a0 : Nat} {a1 : Machine.State} : CfgOk a1 (trainedAll a0 a1) := by
  unfold trainedAll
  refine CfgOk.ite (fun _ => ?_) (fun _ => ?_)
  · exact CfgOk.rfl
  · extract_lets +onlyGivenNames -merge -useContext -underBinder x0
    have h1 : CfgOk a1 x0 := by
      unfold x0
      exact trainingEnd_cfgOk
    clear_value x0
    refine CfgOk.after (forEach_cfgOk (fun _ t2 => ?_)) ?_
    · exact trainResume_cfgOk
    · exact h1

theorem trainTimeout_cfgOk {a0 : Nat} {a1 : Machine.State} : CfgOk a1 (trainTimeout a0 a1) := by
  unfold trainTimeout
  refine CfgOk.ite (fun _ => ?_) (fun _ => ?_)
  · exact trainFail_cfgOk
  · exact CfgOk.rfl

theorem retrainLate_cfgOk {a0 : Nat} {a1 : Machine.State} : CfgOk a1 (retrainLate a0 a1) := by
  unfold retrainLate
  refine CfgOk.ite (fun _ => ?_) (fun _ => ?_)
  · exact resetLink_cfgOk
  · exact CfgOk.rfl

theorem peerSilent_cfgOk {a0 : Nat} {a1 : Machine.State} : CfgOk a1 (peerSilent a0 a1) := by
  unfold peerSilent
  refine CfgOk.ite (fun _ => ?_) (fun _ => ?_)
  · exact resetLink_cfgOk
  · exact CfgOk.rfl

theorem onBusOnly_cfgOk {a0 : Nat} {a1 : Nat} {a2 : Frame → Machine.State → Machine.State} {a3 : Frame} {a4 : Machine.State} (g0 : ∀ v0 v1, CfgOk v1 (a2 v0 v1)) : CfgOk a4 (onBusOnly a0 a1 a2 a3 a4) := by
  unfold onBusOnly
  refine CfgOk.ite (fun _ => ?_) (fun _ => ?_)
  · exact g0 _ _
  · exact CfgOk.rfl

theorem wrongSize_cfgOk {a0 : Nat} {a1 : Nat} {a2 : Nat} {a3 : Machine.State} : CfgOk a3 (wrongSize a0 a1 a2 a3) := by
  unfold wrongSize
  refine CfgOk.ite (fun _ => ?_) (fun _ => ?_)
  · exact badSize_cfgOk
  · exact CfgOk.rfl

end Sys2Proof.Machine
end

