-- ==== Sys2Proof/Laws/ConfigExec.lean ====
section
/-! SUPPORT. The commands that touch the host link and leave the configuration of every function as it is. -/

namespace Sys2Proof.Machine

open Sys2Proof

theorem execA1Word_cfgOk {a0 : BitVec 112} {a1 : Machine.State} {t : Machine.State} (h : execA1Word a0 a1 = .next t) : CfgOk a1 t := by
  unfold execA1Word at h
  cases h
  refine CfgOk.after (dataTurn_cfgOk (fun t0 => ?_)) ?_
  · exact CfgOk.ofOnly (a1In_only (W := [.beat, .mgmt]) rfl) rfl
  · exact CfgOk.rfl

theorem execA1StaleTimeout_cfgOk {a0 : Machine.State} {t : Machine.State} (h : execA1StaleTimeout a0 = .next t) : CfgOk a0 t := by
  unfold execA1StaleTimeout at h
  cases h
  refine CfgOk.after (dataTurn_cfgOk (fun t0 => ?_)) ?_
  · exact CfgOk.ofOnly (a1Stale_only (W := [.beat]) rfl) rfl
  · exact CfgOk.rfl

theorem execA2WindowClose_cfgOk {a0 : Machine.State} {t : Machine.State} (h : execA2WindowClose a0 = .next t) : CfgOk a0 t := by
  unfold execA2WindowClose at h
  cases h
  refine CfgOk.after (dataTurn_cfgOk (fun t0 => ?_)) ?_
  · exact CfgOk.ofOnly (a2Close_only (W := [.adit, .beat, .mem]) rfl) rfl
  · exact CfgOk.rfl

theorem execA6RecordDelivered_cfgOk {a0 : Machine.State} {t : Machine.State} (h : execA6RecordDelivered a0 = .next t) : CfgOk a0 t := by
  unfold execA6RecordDelivered at h
  cases h
  refine CfgOk.after (ctlTurn_cfgOk (fun t0 => ?_)) ?_
  · exact a6Deliver_cfgOk
  · exact CfgOk.rfl

theorem execMirrorRegisterRefresh_cfgOk {a0 : Machine.State} {t : Machine.State} (h : execMirrorRegisterRefresh a0 = .next t) : CfgOk a0 t := by
  unfold execMirrorRegisterRefresh at h
  cases h
  refine CfgOk.after (dataTurn_cfgOk (fun t0 => ?_)) ?_
  · exact CfgOk.ofOnly (mirrorIn_only (W := [.adit]) rfl) rfl
  · exact CfgOk.rfl

theorem execHold_cfgOk {a0 : Machine.State} {t : Machine.State} (h : execHold a0 = .next t) : CfgOk a0 t := by
  unfold execHold at h
  cases h
  refine CfgOk.after (dataTurn_cfgOk (fun t0 => ?_)) ?_
  · exact CfgOk.ofOnly (takeHold_only (W := [.adit]) rfl) rfl
  · exact CfgOk.rfl

theorem execRelease_cfgOk {a0 : Machine.State} {t : Machine.State} (h : execRelease a0 = .next t) : CfgOk a0 t := by
  unfold execRelease at h
  cases h
  refine CfgOk.after (dataTurn_cfgOk (fun t0 => ?_)) ?_
  · exact takeRelease_cfgOk
  · exact CfgOk.rfl

theorem execRefuse_cfgOk {a0 : Machine.State} {t : Machine.State} (h : execRefuse a0 = .next t) : CfgOk a0 t := by
  unfold execRefuse at h
  cases h
  refine CfgOk.after (dataTurn_cfgOk (fun t0 => ?_)) ?_
  · exact takeRefuse_cfgOk
  · exact CfgOk.rfl

theorem execPolicyAck_cfgOk {a0 : Machine.State} {t : Machine.State} (h : execPolicyAck a0 = .next t) : CfgOk a0 t := by
  unfold execPolicyAck at h
  cases h
  refine CfgOk.after (dataTurn_cfgOk (fun t0 => ?_)) ?_
  · exact takePolicyAck_cfgOk
  · exact CfgOk.rfl

theorem execPolicyTimeout_cfgOk {a0 : Nat} {a1 : Machine.State} {t : Machine.State} (h : execPolicyTimeout a0 a1 = .next t) : CfgOk a1 t := by
  unfold execPolicyTimeout at h
  cases h
  refine CfgOk.after (dataTurn_cfgOk (fun t0 => ?_)) ?_
  · exact policyTimeout_cfgOk
  · exact CfgOk.rfl

theorem execAdmitCmd_cfgOk {a0 : Nat} {a1 : Nat} {a2 : Machine.State} {t : Machine.State} (h : execAdmitCmd a0 a1 a2 = .next t) : CfgOk a2 t := by
  unfold execAdmitCmd at h
  cases h
  refine CfgOk.after (ringOp_cfgOk (fun _ t0 => ?_)) ?_
  · exact bodyAdmit_cfgOk
  · exact CfgOk.rfl

theorem execAdmitQueueServed_cfgOk {a0 : Machine.State} {t : Machine.State} (h : execAdmitQueueServed a0 = .next t) : CfgOk a0 t := by
  unfold execAdmitQueueServed at h
  cases h
  refine CfgOk.after (ctlTurn_cfgOk (fun t0 => ?_)) ?_
  · exact serveQueue_cfgOk
  · exact CfgOk.rfl

theorem execAdmitWaitExpiry_cfgOk {a0 : Nat} {a1 : Machine.State} {t : Machine.State} (h : execAdmitWaitExpiry a0 a1 = .next t) : CfgOk a1 t := by
  unfold execAdmitWaitExpiry at h
  cases h
  refine CfgOk.after (ctlTurn_cfgOk (fun t0 => ?_)) ?_
  · exact queueExpired_cfgOk
  · exact CfgOk.rfl

theorem execAdmitResidencyComplete_cfgOk {a0 : Nat} {a1 : Machine.State} {t : Machine.State} (h : execAdmitResidencyComplete a0 a1 = .next t) : CfgOk a1 t := by
  unfold execAdmitResidencyComplete at h
  cases h
  refine CfgOk.after (ctlTurn_cfgOk (fun t0 => ?_)) ?_
  · exact residencyComplete_cfgOk
  · exact CfgOk.rfl

theorem execProgramLoadComplete_cfgOk {a0 : Nat} {a1 : Machine.State} {t : Machine.State} (h : execProgramLoadComplete a0 a1 = .next t) : CfgOk a1 t := by
  unfold execProgramLoadComplete at h
  cases h
  refine CfgOk.after (ctlTurn_cfgOk (fun t0 => ?_)) ?_
  · exact loadComplete_cfgOk
  · exact CfgOk.rfl

theorem execOfferBackstop_cfgOk {a0 : Nat} {a1 : Machine.State} {t : Machine.State} (h : execOfferBackstop a0 a1 = .next t) : CfgOk a1 t := by
  unfold execOfferBackstop at h
  cases h
  refine CfgOk.after (ctlTurn_cfgOk (fun t0 => ?_)) ?_
  · exact offerBackstop_cfgOk
  · exact CfgOk.rfl

theorem execProgramAbort_cfgOk {a0 : Nat} {a1 : Nat} {a2 : Machine.State} {t : Machine.State} (h : execProgramAbort a0 a1 a2 = .next t) : CfgOk a2 t := by
  unfold execProgramAbort at h
  cases h
  refine CfgOk.after (ringOp_cfgOk (fun _ t0 => ?_)) ?_
  · exact bodyAbort_cfgOk
  · exact CfgOk.rfl

theorem execAbortDrainComplete_cfgOk {a0 : Nat} {a1 : Machine.State} {t : Machine.State} (h : execAbortDrainComplete a0 a1 = .next t) : CfgOk a1 t := by
  unfold execAbortDrainComplete at h
  cases h
  refine CfgOk.after (dataTurn_cfgOk (fun t0 => ?_)) ?_
  · exact drainDone_cfgOk
  · exact CfgOk.rfl

theorem execClusterScrubComplete_cfgOk {a0 : Nat} {a1 : Machine.State} {t : Machine.State} (h : execClusterScrubComplete a0 a1 = .next t) : CfgOk a1 t := by
  unfold execClusterScrubComplete at h
  cases h
  refine CfgOk.after (dataTurn_cfgOk (fun t0 => ?_)) ?_
  · exact CfgOk.ofOnly (clusterScrubbed_only (W := [.beat]) rfl) rfl
  · exact CfgOk.rfl

theorem execPageMap_cfgOk {a0 : Nat} {a1 : Nat} {a2 : Machine.State} {t : Machine.State} (h : execPageMap a0 a1 a2 = .next t) : CfgOk a2 t := by
  unfold execPageMap at h
  cases h
  refine CfgOk.after (ringOp_cfgOk (fun _ t0 => ?_)) ?_
  · exact bodyMap_cfgOk
  · exact CfgOk.rfl

theorem execPageUnmap_cfgOk {a0 : Nat} {a1 : Nat} {a2 : Machine.State} {t : Machine.State} (h : execPageUnmap a0 a1 a2 = .next t) : CfgOk a2 t := by
  unfold execPageUnmap at h
  cases h
  refine CfgOk.after (ringOp_cfgOk (fun _ t0 => ?_)) ?_
  · exact CfgOk.ofOnly (bodyUnmap_only (W := [.rings, .cages]) rfl) rfl
  · exact CfgOk.rfl

theorem execPageUnmapComplete_cfgOk {a0 : Nat} {a1 : Machine.State} {t : Machine.State} (h : execPageUnmapComplete a0 a1 = .next t) : CfgOk a1 t := by
  unfold execPageUnmapComplete at h
  cases h
  refine CfgOk.after (ctlTurn_cfgOk (fun t0 => ?_)) ?_
  · exact CfgOk.ofOnly (unmapDone_only (W := [.rings, .cages]) rfl) rfl
  · exact CfgOk.rfl

theorem execPoolSet_cfgOk {a0 : Nat} {a1 : Nat} {a2 : Machine.State} {t : Machine.State} (h : execPoolSet a0 a1 a2 = .next t) : CfgOk a2 t := by
  unfold execPoolSet at h
  cases h
  refine CfgOk.after (ringOp_cfgOk (fun _ t0 => ?_)) ?_
  · exact CfgOk.ofOnly (bodyPool_only (W := [.rings, .cages]) rfl) rfl
  · exact CfgOk.rfl

theorem execCageCreate_cfgOk {a0 : Nat} {a1 : Nat} {a2 : Machine.State} {t : Machine.State} (h : execCageCreate a0 a1 a2 = .next t) : CfgOk a2 t := by
  unfold execCageCreate at h
  cases h
  refine CfgOk.after (ringOp_cfgOk (fun _ t0 => ?_)) ?_
  · exact CfgOk.ofOnly (bodyCreate_only (W := [.rings, .cages]) rfl) rfl
  · exact CfgOk.rfl

theorem execCageDestroy_cfgOk {a0 : Nat} {a1 : Nat} {a2 : Machine.State} {t : Machine.State} (h : execCageDestroy a0 a1 a2 = .next t) : CfgOk a2 t := by
  unfold execCageDestroy at h
  cases h
  refine CfgOk.after (ringOp_cfgOk (fun _ t0 => ?_)) ?_
  · exact bodyDestroy_cfgOk
  · exact CfgOk.rfl

theorem execCageDestroyComplete_cfgOk {a0 : Nat} {a1 : Machine.State} {t : Machine.State} (h : execCageDestroyComplete a0 a1 = .next t) : CfgOk a1 t := by
  unfold execCageDestroyComplete at h
  cases h
  refine CfgOk.after (ctlTurn_cfgOk (fun t0 => ?_)) ?_
  · exact destroyDone_cfgOk
  · exact CfgOk.rfl

theorem execCageQuota_cfgOk {a0 : Nat} {a1 : Nat} {a2 : Machine.State} {t : Machine.State} (h : execCageQuota a0 a1 a2 = .next t) : CfgOk a2 t := by
  unfold execCageQuota at h
  cases h
  refine CfgOk.after (ringOp_cfgOk (fun _ t0 => ?_)) ?_
  · exact CfgOk.ofOnly (bodyQuota_only (W := [.rings]) rfl) rfl
  · exact CfgOk.rfl

theorem execFrameScrubbed_cfgOk {a0 : Nat} {a1 : Machine.State} {t : Machine.State} (h : execFrameScrubbed a0 a1 = .next t) : CfgOk a1 t := by
  unfold execFrameScrubbed at h
  cases h
  refine CfgOk.after (dataTurn_cfgOk (fun t0 => ?_)) ?_
  · exact CfgOk.ofOnly (frameScrubbed_only (W := [.cages, .mem]) rfl) rfl
  · exact CfgOk.rfl

theorem execDemandZeroComplete_cfgOk {a0 : Nat} {a1 : Nat} {a2 : Machine.State} {t : Machine.State} (h : execDemandZeroComplete a0 a1 a2 = .next t) : CfgOk a2 t := by
  unfold execDemandZeroComplete at h
  cases h
  refine CfgOk.after (dataTurn_cfgOk (fun t0 => ?_)) ?_
  · exact CfgOk.ofOnly (demandZeroed_only (W := [.cages, .mem]) rfl) rfl
  · exact CfgOk.rfl

theorem execEvictionComplete_cfgOk {a0 : Nat} {a1 : Nat} {a2 : Machine.State} {t : Machine.State} (h : execEvictionComplete a0 a1 a2 = .next t) : CfgOk a2 t := by
  unfold execEvictionComplete at h
  cases h
  refine CfgOk.after (ctlTurn_cfgOk (fun t0 => ?_)) ?_
  · exact evictEnd_cfgOk
  · exact CfgOk.rfl

theorem execRestoreComplete_cfgOk {a0 : Nat} {a1 : Nat} {a2 : Machine.State} {t : Machine.State} (h : execRestoreComplete a0 a1 a2 = .next t) : CfgOk a2 t := by
  unfold execRestoreComplete at h
  cases h
  refine CfgOk.after (ctlTurn_cfgOk (fun t0 => ?_)) ?_
  · exact restoreEnd_cfgOk
  · exact CfgOk.rfl

theorem execPageBookTimer_cfgOk {a0 : Machine.State} {t : Machine.State} (h : execPageBookTimer a0 = .next t) : CfgOk a0 t := by
  unfold execPageBookTimer at h
  cases h
  refine CfgOk.after (ctlTurn_cfgOk (fun t0 => ?_)) ?_
  · exact pageBook_cfgOk
  · exact CfgOk.rfl

theorem execBeatSlot_cfgOk {a0 : Nat} {a1 : Machine.State} {t : Machine.State} (h : execBeatSlot a0 a1 = .next t) : CfgOk a1 t := by
  unfold execBeatSlot at h
  cases h
  refine CfgOk.after (dataTurn_cfgOk (fun t0 => ?_)) ?_
  · refine CfgOk.after (onlyIf_cfgOk (fun t1 => ?_)) ?_
    · exact slotStep_cfgOk
    · exact CfgOk.rfl
  · exact CfgOk.rfl

theorem execStreamPieceLanded_cfgOk {a0 : Nat} {a1 : Nat} {a2 : Machine.State} {t : Machine.State} (h : execStreamPieceLanded a0 a1 a2 = .next t) : CfgOk a2 t := by
  unfold execStreamPieceLanded at h
  cases h
  refine CfgOk.after (dataTurn_cfgOk (fun t0 => ?_)) ?_
  · exact CfgOk.ofOnly (pieceLanded_only (W := [.free, .beat, .mem]) rfl) rfl
  · exact CfgOk.rfl

theorem execProgramEnd_cfgOk {a0 : Nat} {a1 : Machine.State} {t : Machine.State} (h : execProgramEnd a0 a1 = .next t) : CfgOk a1 t := by
  unfold execProgramEnd at h
  cases h
  refine CfgOk.after (dataTurn_cfgOk (fun t0 => ?_)) ?_
  · exact programDone_cfgOk
  · exact CfgOk.rfl

theorem execGateLimitExpiry_cfgOk {a0 : Nat} {a1 : Machine.State} {t : Machine.State} (h : execGateLimitExpiry a0 a1 = .next t) : CfgOk a1 t := by
  unfold execGateLimitExpiry at h
  cases h
  refine CfgOk.after (dataTurn_cfgOk (fun t0 => ?_)) ?_
  · exact CfgOk.ofOnly (gateExpired_only (W := [.beat, .mgmt]) rfl) rfl
  · exact CfgOk.rfl

theorem execDroopCrossing_cfgOk {a0 : Nat} {a1 : Machine.State} {t : Machine.State} (h : execDroopCrossing a0 a1 = .next t) : CfgOk a1 t := by
  unfold execDroopCrossing at h
  cases h
  refine CfgOk.after (dataTurn_cfgOk (fun t0 => ?_)) ?_
  · exact CfgOk.ofOnly (droop_only (W := [.beat, .power]) rfl) rfl
  · exact CfgOk.rfl

theorem execShadowAccessFail_cfgOk {a0 : Nat} {a1 : Machine.State} {t : Machine.State} (h : execShadowAccessFail a0 a1 = .next t) : CfgOk a1 t := by
  unfold execShadowAccessFail at h
  cases h
  refine CfgOk.after (dataTurn_cfgOk (fun t0 => ?_)) ?_
  · exact CfgOk.ofOnly (shadowStop_only (W := [.beat]) rfl) rfl
  · exact CfgOk.rfl

theorem execCollGroupCreate_cfgOk {a0 : Nat} {a1 : Nat} {a2 : Machine.State} {t : Machine.State} (h : execCollGroupCreate a0 a1 a2 = .next t) : CfgOk a2 t := by
  unfold execCollGroupCreate at h
  cases h
  refine CfgOk.after (ringOp_cfgOk (fun _ t0 => ?_)) ?_
  · exact CfgOk.ofOnly (bodyCollCreate_only (W := [.rings, .links, .coll]) rfl) rfl
  · exact CfgOk.rfl

theorem execCollGroupDestroy_cfgOk {a0 : Nat} {a1 : Nat} {a2 : Machine.State} {t : Machine.State} (h : execCollGroupDestroy a0 a1 a2 = .next t) : CfgOk a2 t := by
  unfold execCollGroupDestroy at h
  cases h
  refine CfgOk.after (ringOp_cfgOk (fun _ t0 => ?_)) ?_
  · exact CfgOk.ofOnly (bodyCollDestroy_only (W := [.rings, .links, .coll]) rfl) rfl
  · exact CfgOk.rfl

theorem execCollBufRegister_cfgOk {a0 : Nat} {a1 : Nat} {a2 : Machine.State} {t : Machine.State} (h : execCollBufRegister a0 a1 a2 = .next t) : CfgOk a2 t := by
  unfold execCollBufRegister at h
  cases h
  refine CfgOk.after (ringOp_cfgOk (fun _ t0 => ?_)) ?_
  · exact CfgOk.ofOnly (bodyCollReg_only (W := [.rings, .links, .coll]) rfl) rfl
  · exact CfgOk.rfl

theorem execReduceScatter_cfgOk {a0 : Nat} {a1 : Nat} {a2 : Machine.State} {t : Machine.State} (h : execReduceScatter a0 a1 a2 = .next t) : CfgOk a2 t := by
  unfold execReduceScatter at h
  cases h
  refine CfgOk.after (ringOp_cfgOk (fun _ t0 => ?_)) ?_
  · exact CfgOk.ofOnly (bodyCollOp_only (W := [.rings, .coll]) rfl) rfl
  · exact CfgOk.rfl

theorem execAllGather_cfgOk {a0 : Nat} {a1 : Nat} {a2 : Machine.State} {t : Machine.State} (h : execAllGather a0 a1 a2 = .next t) : CfgOk a2 t := by
  unfold execAllGather at h
  cases h
  refine CfgOk.after (ringOp_cfgOk (fun _ t0 => ?_)) ?_
  · exact CfgOk.ofOnly (bodyCollOp_only (W := [.rings, .coll]) rfl) rfl
  · exact CfgOk.rfl

theorem execGroupHello_cfgOk {a0 : Nat} {a1 : Machine.State} {t : Machine.State} (h : execGroupHello a0 a1 = .next t) : CfgOk a1 t := by
  unfold execGroupHello at h
  cases h
  refine CfgOk.after (linkTurn_cfgOk (fun t0 => ?_)) ?_
  · refine CfgOk.after (withMsg_cfgOk (fun _ t1 => ?_)) ?_
    · exact CfgOk.ofOnly (helloMsg_only (W := [.rings, .links, .coll]) rfl) rfl
    · exact CfgOk.rfl
  · exact CfgOk.rfl

theorem execGroupHelloResend_cfgOk {a0 : Nat} {a1 : Machine.State} {t : Machine.State} (h : execGroupHelloResend a0 a1 = .next t) : CfgOk a1 t := by
  unfold execGroupHelloResend at h
  cases h
  refine CfgOk.after (dataTurn_cfgOk (fun t0 => ?_)) ?_
  · exact CfgOk.ofOnly (helloAgain_only (W := [.links]) rfl) rfl
  · exact CfgOk.rfl

theorem execGroupAck_cfgOk {a0 : Nat} {a1 : Machine.State} {t : Machine.State} (h : execGroupAck a0 a1 = .next t) : CfgOk a1 t := by
  unfold execGroupAck at h
  cases h
  refine CfgOk.after (linkTurn_cfgOk (fun t0 => ?_)) ?_
  · refine CfgOk.after (withMsg_cfgOk (fun _ t1 => ?_)) ?_
    · exact CfgOk.ofOnly (ackMsg_only (W := [.rings, .coll]) rfl) rfl
    · exact CfgOk.rfl
  · exact CfgOk.rfl

theorem execKeyOffer_cfgOk {a0 : Nat} {a1 : Machine.State} {t : Machine.State} (h : execKeyOffer a0 a1 = .next t) : CfgOk a1 t := by
  unfold execKeyOffer at h
  cases h
  refine CfgOk.after (linkTurn_cfgOk (fun t0 => ?_)) ?_
  · refine CfgOk.after (withMsg_cfgOk (fun _ t1 => ?_)) ?_
    · exact CfgOk.ofOnly (keyMsg_only (W := [.rings, .coll]) rfl) rfl
    · exact CfgOk.rfl
  · exact CfgOk.rfl

theorem execGroupBye_cfgOk {a0 : Nat} {a1 : Machine.State} {t : Machine.State} (h : execGroupBye a0 a1 = .next t) : CfgOk a1 t := by
  unfold execGroupBye at h
  cases h
  refine CfgOk.after (linkTurn_cfgOk (fun t0 => ?_)) ?_
  · refine CfgOk.after (withMsg_cfgOk (fun _ t1 => ?_)) ?_
    · exact byeMsg_cfgOk
    · exact CfgOk.rfl
  · exact CfgOk.rfl

theorem execCollWaitExpiry_cfgOk {a0 : Nat} {a1 : Nat} {a2 : Nat} {a3 : Machine.State} {t : Machine.State} (h : execCollWaitExpiry a0 a1 a2 a3 = .next t) : CfgOk a3 t := by
  unfold execCollWaitExpiry at h
  cases h
  refine CfgOk.after (dataTurn_cfgOk (fun t0 => ?_)) ?_
  · exact CfgOk.ofOnly (waitExpired_only (W := [.rings, .links, .coll]) rfl) rfl
  · exact CfgOk.rfl

theorem execCollOpStart_cfgOk {a0 : Nat} {a1 : Machine.State} {t : Machine.State} (h : execCollOpStart a0 a1 = .next t) : CfgOk a1 t := by
  unfold execCollOpStart at h
  cases h
  refine CfgOk.after (dataTurn_cfgOk (fun t0 => ?_)) ?_
  · exact CfgOk.ofOnly (opStart_only (W := [.links, .coll]) rfl) rfl
  · exact CfgOk.rfl

theorem execBindStartWaitEnd_cfgOk {a0 : Nat} {a1 : Machine.State} {t : Machine.State} (h : execBindStartWaitEnd a0 a1 = .next t) : CfgOk a1 t := by
  unfold execBindStartWaitEnd at h
  cases h
  refine CfgOk.after (dataTurn_cfgOk (fun t0 => ?_)) ?_
  · exact CfgOk.ofOnly (bindWaitEnd_only (W := [.links, .coll]) rfl) rfl
  · exact CfgOk.rfl

theorem execBindSourceGateMet_cfgOk {a0 : Nat} {a1 : Machine.State} {t : Machine.State} (h : execBindSourceGateMet a0 a1 = .next t) : CfgOk a1 t := by
  unfold execBindSourceGateMet at h
  cases h
  refine CfgOk.after (dataTurn_cfgOk (fun t0 => ?_)) ?_
  · exact CfgOk.ofOnly (sourceGate_only (W := [.free, .rings, .beat, .mem, .links, .coll]) rfl) rfl
  · exact CfgOk.rfl

theorem execOpReady_cfgOk {a0 : Nat} {a1 : Machine.State} {t : Machine.State} (h : execOpReady a0 a1 = .next t) : CfgOk a1 t := by
  unfold execOpReady at h
  cases h
  refine CfgOk.after (linkTurn_cfgOk (fun t0 => ?_)) ?_
  · refine CfgOk.after (withMsg_cfgOk (fun _ t1 => ?_)) ?_
    · exact CfgOk.ofOnly (readyMsg_only (W := [.links, .coll]) rfl) rfl
    · exact CfgOk.rfl
  · exact CfgOk.rfl

theorem execChunkStart_cfgOk {a0 : Nat} {a1 : Machine.State} {t : Machine.State} (h : execChunkStart a0 a1 = .next t) : CfgOk a1 t := by
  unfold execChunkStart at h
  cases h
  refine CfgOk.after (dataTurn_cfgOk (fun t0 => ?_)) ?_
  · refine CfgOk.after (onlyIf_cfgOk (fun t1 => ?_)) ?_
    · exact CfgOk.ofOnly (chunkStart_only (W := [.free, .rings, .links, .coll]) rfl) rfl
    · exact CfgOk.rfl
  · exact CfgOk.rfl

theorem execCollData_cfgOk {a0 : Nat} {a1 : Nat} {a2 : Machine.State} {t : Machine.State} (h : execCollData a0 a1 a2 = .next t) : CfgOk a2 t := by
  unfold execCollData at h
  cases h
  refine CfgOk.after (linkTurn_cfgOk (fun t0 => ?_)) ?_
  · exact CfgOk.ofOnly (collDataIn_only (W := [.mem, .links, .coll]) rfl) rfl
  · exact CfgOk.rfl

theorem execChunkEnd_cfgOk {a0 : Nat} {a1 : Nat} {a2 : Machine.State} {t : Machine.State} (h : execChunkEnd a0 a1 a2 = .next t) : CfgOk a2 t := by
  unfold execChunkEnd at h
  cases h
  refine CfgOk.after (linkTurn_cfgOk (fun t0 => ?_)) ?_
  · refine CfgOk.after (withMsg_cfgOk (fun _ t1 => ?_)) ?_
    · exact CfgOk.ofOnly (chunkEndMsg_only (W := [.coll]) rfl) rfl
    · exact CfgOk.rfl
  · exact CfgOk.rfl

theorem execChunkCheck_cfgOk {a0 : Nat} {a1 : Nat} {a2 : Nat} {a3 : Machine.State} {t : Machine.State} (h : execChunkCheck a0 a1 a2 a3 = .next t) : CfgOk a3 t := by
  unfold execChunkCheck at h
  cases h
  refine CfgOk.after (dataTurn_cfgOk (fun t0 => ?_)) ?_
  · exact CfgOk.ofOnly (chunkCheck_only (W := [.free, .rings, .beat, .mem, .links, .coll]) rfl) rfl
  · exact CfgOk.rfl

theorem execChunkAck_cfgOk {a0 : Nat} {a1 : Machine.State} {t : Machine.State} (h : execChunkAck a0 a1 = .next t) : CfgOk a1 t := by
  unfold execChunkAck at h
  cases h
  refine CfgOk.after (linkTurn_cfgOk (fun t0 => ?_)) ?_
  · refine CfgOk.after (withMsg_cfgOk (fun _ t1 => ?_)) ?_
    · exact CfgOk.ofOnly (chunkAckMsg_only (W := [.rings, .links, .coll]) rfl) rfl
    · exact CfgOk.rfl
  · exact CfgOk.rfl

theorem execOpAbort_cfgOk {a0 : Nat} {a1 : Machine.State} {t : Machine.State} (h : execOpAbort a0 a1 = .next t) : CfgOk a1 t := by
  unfold execOpAbort at h
  cases h
  refine CfgOk.after (linkTurn_cfgOk (fun t0 => ?_)) ?_
  · refine CfgOk.after (withMsg_cfgOk (fun _ t1 => ?_)) ?_
    · exact CfgOk.ofOnly (abortMsg_only (W := [.links, .coll]) rfl) rfl
    · exact CfgOk.rfl
  · exact CfgOk.rfl

theorem execCollProgressTimeout_cfgOk {a0 : Nat} {a1 : Nat} {a2 : Machine.State} {t : Machine.State} (h : execCollProgressTimeout a0 a1 a2 = .next t) : CfgOk a2 t := by
  unfold execCollProgressTimeout at h
  cases h
  refine CfgOk.after (dataTurn_cfgOk (fun t0 => ?_)) ?_
  · exact CfgOk.ofOnly (progressTimeout_only (W := [.links, .coll]) rfl) rfl
  · exact CfgOk.rfl

theorem execCollDrainComplete_cfgOk {a0 : Nat} {a1 : Machine.State} {t : Machine.State} (h : execCollDrainComplete a0 a1 = .next t) : CfgOk a1 t := by
  unfold execCollDrainComplete at h
  cases h
  refine CfgOk.after (dataTurn_cfgOk (fun t0 => ?_)) ?_
  · exact CfgOk.ofOnly (collDrained_only (W := [.rings, .links, .coll]) rfl) rfl
  · exact CfgOk.rfl

theorem execCollErrCountTimer_cfgOk {a0 : Machine.State} {t : Machine.State} (h : execCollErrCountTimer a0 = .next t) : CfgOk a0 t := by
  unfold execCollErrCountTimer at h
  cases h
  refine CfgOk.after (dataTurn_cfgOk (fun t0 => ?_)) ?_
  · exact collErrCount_cfgOk
  · exact CfgOk.rfl

theorem execTranslationCompletion_cfgOk {a0 : Nat} {a1 : XlResult} {a2 : Machine.State} {t : Machine.State} (h : execTranslationCompletion a0 a1 a2 = .next t) : CfgOk a2 t := by
  unfold execTranslationCompletion at h
  cases h
  refine CfgOk.after (ctlTurn_cfgOk (fun t0 => ?_)) ?_
  · exact xlComplete_cfgOk
  · exact CfgOk.rfl

theorem execInvalidateRequest_cfgOk {a0 : Nat} {a1 : Nat} {a2 : Nat} {a3 : Machine.State} {t : Machine.State} (h : execInvalidateRequest a0 a1 a2 a3 = .next t) : CfgOk a3 t := by
  unfold execInvalidateRequest at h
  cases h
  refine CfgOk.after (ctlTurn_cfgOk (fun t0 => ?_)) ?_
  · exact invalidate_cfgOk
  · exact CfgOk.rfl

theorem execInvalidateComplete_cfgOk {a0 : Nat} {a1 : Nat} {a2 : Nat} {a3 : Machine.State} {t : Machine.State} (h : execInvalidateComplete a0 a1 a2 a3 = .next t) : CfgOk a3 t := by
  unfold execInvalidateComplete at h
  cases h
  refine CfgOk.after (ctlTurn_cfgOk (fun t0 => ?_)) ?_
  · exact invalidateDone_cfgOk
  · exact CfgOk.rfl

theorem execHostReadCompletion_cfgOk {a0 : Nat} {a1 : ReadResult} {a2 : Machine.State} {t : Machine.State} (h : execHostReadCompletion a0 a1 a2 = .next t) : CfgOk a2 t := by
  unfold execHostReadCompletion at h
  cases h
  refine CfgOk.after (ctlTurn_cfgOk (fun t0 => ?_)) ?_
  · exact readComplete_cfgOk
  · exact CfgOk.rfl

theorem execCompletionTimeout_cfgOk {a0 : ReadRef} {a1 : Machine.State} {t : Machine.State} (h : execCompletionTimeout a0 a1 = .next t) : CfgOk a1 t := by
  unfold execCompletionTimeout at h
  cases h
  refine CfgOk.after (ctlTurn_cfgOk (fun t0 => ?_)) ?_
  · exact readTimeout_cfgOk
  · exact CfgOk.rfl

theorem execAckDllp_cfgOk {a0 : Nat} {a1 : Machine.State} {t : Machine.State} (h : execAckDllp a0 a1 = .next t) : CfgOk a1 t := by
  unfold execAckDllp at h
  cases h
  refine CfgOk.after (ctlTurn_cfgOk (fun t0 => ?_)) ?_
  · exact ackTlps_cfgOk
  · exact CfgOk.rfl

theorem execUnsupportedRequest_cfgOk {a0 : Nat} {a1 : Machine.State} {t : Machine.State} (h : execUnsupportedRequest a0 a1 = .next t) : CfgOk a1 t := by
  unfold execUnsupportedRequest at h
  cases h
  refine CfgOk.after (ctlTurn_cfgOk (fun t0 => ?_)) ?_
  · exact windowError_cfgOk
  · exact CfgOk.rfl

theorem execPoisonedWindowWrite_cfgOk {a0 : Nat} {a1 : Machine.State} {t : Machine.State} (h : execPoisonedWindowWrite a0 a1 = .next t) : CfgOk a1 t := by
  unfold execPoisonedWindowWrite at h
  cases h
  refine CfgOk.after (ctlTurn_cfgOk (fun t0 => ?_)) ?_
  · refine CfgOk.after (onlyIf_cfgOk (fun t1 => ?_)) ?_
    · exact windowError_cfgOk
    · exact CfgOk.rfl
  · exact CfgOk.rfl

theorem execUncorrectableInternalError_cfgOk {a0 : Machine.State} {t : Machine.State} (h : execUncorrectableInternalError a0 = .next t) : CfgOk a0 t := by
  unfold execUncorrectableInternalError at h
  cases h
  refine CfgOk.after (ctlTurn_cfgOk (fun t0 => ?_)) ?_
  · exact fatalInternal_cfgOk
  · exact CfgOk.rfl

theorem execMsixUnmask_cfgOk {a0 : Nat} {a1 : Nat} {a2 : Machine.State} {t : Machine.State} (h : execMsixUnmask a0 a1 a2 = .next t) : CfgOk a2 t := by
  unfold execMsixUnmask at h
  cases h
  refine CfgOk.after (windowAccess_cfgOk (fun t0 => ?_)) ?_
  · exact msixUnmask_cfgOk
  · exact CfgOk.rfl

theorem execCoalTimeExpiry_cfgOk {a0 : Nat} {a1 : Nat} {a2 : Machine.State} {t : Machine.State} (h : execCoalTimeExpiry a0 a1 a2 = .next t) : CfgOk a2 t := by
  unfold execCoalTimeExpiry at h
  cases h
  refine CfgOk.after (ctlTurn_cfgOk (fun t0 => ?_)) ?_
  · exact coalExpired_cfgOk
  · exact CfgOk.rfl

theorem execAspmL1Entry_cfgOk {a0 : Machine.State} {t : Machine.State} (h : execAspmL1Entry a0 = .next t) : CfgOk a0 t := by
  unfold execAspmL1Entry at h
  cases h
  refine CfgOk.after (ctlTurn_cfgOk (fun t0 => ?_)) ?_
  · exact enterL1_cfgOk
  · exact CfgOk.rfl

theorem execMctpVdm_cfgOk {a0 : Nat} {a1 : Bytes} {a2 : Machine.State} {t : Machine.State} (h : execMctpVdm a0 a1 a2 = .next t) : CfgOk a2 t := by
  unfold execMctpVdm at h
  cases h
  refine CfgOk.after (ctlTurn_cfgOk (fun t0 => ?_)) ?_
  · exact CfgOk.ofOnly (mctpVdm_only (W := [.adit, .rings]) rfl) rfl
  · exact CfgOk.rfl

theorem execDblCtlEnSet_cfgOk {a0 : Nat} {a1 : W32} {a2 : Machine.State} {t : Machine.State} (h : execDblCtlEnSet a0 a1 a2 = .next t) : CfgOk a2 t := by
  unfold execDblCtlEnSet at h
  cases h
  exact writeRow_cfgOk

theorem execDblCtlEnClear_cfgOk {a0 : Nat} {a1 : W32} {a2 : Machine.State} {t : Machine.State} (h : execDblCtlEnClear a0 a1 a2 = .next t) : CfgOk a2 t := by
  unfold execDblCtlEnClear at h
  cases h
  exact writeRow_cfgOk

theorem execDoorbellPoll_cfgOk {a0 : Nat} {a1 : Machine.State} {t : Machine.State} (h : execDoorbellPoll a0 a1 = .next t) : CfgOk a1 t := by
  unfold execDoorbellPoll at h
  cases h
  refine CfgOk.after (ctlTurn_cfgOk (fun t0 => ?_)) ?_
  · exact dblPoll_cfgOk
  · exact CfgOk.rfl

theorem execDoorbellTagFree_cfgOk {a0 : Nat} {a1 : Machine.State} {t : Machine.State} (h : execDoorbellTagFree a0 a1 = .next t) : CfgOk a1 t := by
  unfold execDoorbellTagFree at h
  cases h
  refine CfgOk.after (ctlTurn_cfgOk (fun t0 => ?_)) ?_
  · exact dblTagFree_cfgOk
  · exact CfgOk.rfl

theorem execDoorbellReadComplete_cfgOk {a0 : Nat} {a1 : ReadResult} {a2 : Machine.State} {t : Machine.State} (h : execDoorbellReadComplete a0 a1 a2 = .next t) : CfgOk a2 t := by
  unfold execDoorbellReadComplete at h
  cases h
  refine CfgOk.after (ctlTurn_cfgOk (fun t0 => ?_)) ?_
  · exact dblComplete_cfgOk
  · exact CfgOk.rfl

theorem execLnMessage_cfgOk {a0 : Nat} {a1 : Machine.State} {t : Machine.State} (h : execLnMessage a0 a1 = .next t) : CfgOk a1 t := by
  unfold execLnMessage at h
  cases h
  refine CfgOk.after (ctlTurn_cfgOk (fun t0 => ?_)) ?_
  · exact lnMessage_cfgOk
  · exact CfgOk.rfl

theorem execLnBackstop_cfgOk {a0 : Nat} {a1 : Machine.State} {t : Machine.State} (h : execLnBackstop a0 a1 = .next t) : CfgOk a1 t := by
  unfold execLnBackstop at h
  cases h
  refine CfgOk.after (ctlTurn_cfgOk (fun t0 => ?_)) ?_
  · exact lnBackstop_cfgOk
  · exact CfgOk.rfl

theorem execReceiverError_cfgOk {a0 : Machine.State} {t : Machine.State} (h : execReceiverError a0 = .next t) : CfgOk a0 t := by
  unfold execReceiverError at h
  cases h
  refine CfgOk.after (ctlTurn_cfgOk (fun t0 => ?_)) ?_
  · exact aerCorrectable_cfgOk
  · exact CfgOk.rfl

theorem execCorrectedInternalError_cfgOk {a0 : Machine.State} {t : Machine.State} (h : execCorrectedInternalError a0 = .next t) : CfgOk a0 t := by
  unfold execCorrectedInternalError at h
  cases h
  refine CfgOk.after (ctlTurn_cfgOk (fun t0 => ?_)) ?_
  · exact aerCorrectable_cfgOk
  · exact CfgOk.rfl

theorem execEcrcError_cfgOk {a0 : Nat} {a1 : Option ReadRef} {a2 : Machine.State} {t : Machine.State} (h : execEcrcError a0 a1 a2 = .next t) : CfgOk a2 t := by
  unfold execEcrcError at h
  cases h
  refine CfgOk.after (ctlTurn_cfgOk (fun t0 => ?_)) ?_
  · exact ecrcFail_cfgOk
  · exact CfgOk.rfl

theorem execMalformedTlp_cfgOk {a0 : Machine.State} {t : Machine.State} (h : execMalformedTlp a0 = .next t) : CfgOk a0 t := by
  unfold execMalformedTlp at h
  cases h
  refine CfgOk.after (ctlTurn_cfgOk (fun t0 => ?_)) ?_
  · exact aerUncorrectable_cfgOk
  · exact CfgOk.rfl

theorem execLinkEnSet_cfgOk {a0 : Nat} {a1 : W32} {a2 : Machine.State} {t : Machine.State} (h : execLinkEnSet a0 a1 a2 = .next t) : CfgOk a2 t := by
  unfold execLinkEnSet at h
  cases h
  exact writeRow_cfgOk

theorem execLinkEnClear_cfgOk {a0 : Nat} {a1 : W32} {a2 : Machine.State} {t : Machine.State} (h : execLinkEnClear a0 a1 a2 = .next t) : CfgOk a2 t := by
  unfold execLinkEnClear at h
  cases h
  exact writeRow_cfgOk

theorem execLaneStartupComplete_cfgOk {a0 : Nat} {a1 : Nat} {a2 : Machine.State} {t : Machine.State} (h : execLaneStartupComplete a0 a1 a2 = .next t) : CfgOk a2 t := by
  unfold execLaneStartupComplete at h
  cases h
  refine CfgOk.after (linkTurn_cfgOk (fun t0 => ?_)) ?_
  · exact laneDone_cfgOk
  · exact CfgOk.rfl

theorem execHello_cfgOk {a0 : Nat} {a1 : Bytes} {a2 : Machine.State} {t : Machine.State} (h : execHello a0 a1 a2 = .next t) : CfgOk a2 t := by
  unfold execHello at h
  cases h
  refine CfgOk.after (linkTurn_cfgOk (fun t0 => ?_)) ?_
  · exact helloIn_cfgOk
  · exact CfgOk.rfl

theorem execLinkTrainingTimeout_cfgOk {a0 : Nat} {a1 : Machine.State} {t : Machine.State} (h : execLinkTrainingTimeout a0 a1 = .next t) : CfgOk a1 t := by
  unfold execLinkTrainingTimeout at h
  cases h
  refine CfgOk.after (linkTurn_cfgOk (fun t0 => ?_)) ?_
  · exact trainTimeout_cfgOk
  · exact CfgOk.rfl

theorem execLinkRetryTimer_cfgOk {a0 : Nat} {a1 : Machine.State} {t : Machine.State} (h : execLinkRetryTimer a0 a1 = .next t) : CfgOk a1 t := by
  unfold execLinkRetryTimer at h
  cases h
  refine CfgOk.after (linkTurn_cfgOk (fun t0 => ?_)) ?_
  · exact CfgOk.ofOnly (trainAgain_only (W := [.links]) rfl) rfl
  · exact CfgOk.rfl

theorem execCodewordPairUncorrectable_cfgOk {a0 : Nat} {a1 : Machine.State} {t : Machine.State} (h : execCodewordPairUncorrectable a0 a1 = .next t) : CfgOk a1 t := by
  unfold execCodewordPairUncorrectable at h
  cases h
  refine CfgOk.after (linkTurn_cfgOk (fun t0 => ?_)) ?_
  · exact CfgOk.ofOnly (pairLost_only (W := [.links]) rfl) rfl
  · exact CfgOk.rfl

theorem execDataFlitReceived_cfgOk {a0 : Nat} {a1 : Bytes} {a2 : Machine.State} {t : Machine.State} (h : execDataFlitReceived a0 a1 a2 = .next t) : CfgOk a2 t := by
  unfold execDataFlitReceived at h
  cases h
  refine CfgOk.after (linkTurn_cfgOk (fun t0 => ?_)) ?_
  · exact CfgOk.ofOnly (dataIn_only (W := [.adit, .links]) rfl) rfl
  · exact CfgOk.rfl

theorem execLctlReceived_cfgOk {a0 : Nat} {a1 : Bytes} {a2 : Machine.State} {t : Machine.State} (h : execLctlReceived a0 a1 a2 = .next t) : CfgOk a2 t := by
  unfold execLctlReceived at h
  cases h
  refine CfgOk.after (linkTurn_cfgOk (fun t0 => ?_)) ?_
  · exact CfgOk.ofOnly (lctlIn_only (W := [.links]) rfl) rfl
  · exact CfgOk.rfl

theorem execReplayTimeout_cfgOk {a0 : Nat} {a1 : Machine.State} {t : Machine.State} (h : execReplayTimeout a0 a1 = .next t) : CfgOk a1 t := by
  unfold execReplayTimeout at h
  cases h
  refine CfgOk.after (linkTurn_cfgOk (fun t0 => ?_)) ?_
  · exact CfgOk.ofOnly (replayNow_only (W := [.links]) rfl) rfl
  · exact CfgOk.rfl

theorem execNakHoldoffExpiry_cfgOk {a0 : Nat} {a1 : Machine.State} {t : Machine.State} (h : execNakHoldoffExpiry a0 a1 = .next t) : CfgOk a1 t := by
  unfold execNakHoldoffExpiry at h
  cases h
  refine CfgOk.after (linkTurn_cfgOk (fun t0 => ?_)) ?_
  · exact CfgOk.ofOnly (nakAgain_only (W := [.links]) rfl) rfl
  · exact CfgOk.rfl

theorem execFlitSlotTransmit_cfgOk {a0 : Nat} {a1 : Machine.State} {t : Machine.State} (h : execFlitSlotTransmit a0 a1 = .next t) : CfgOk a1 t := by
  unfold execFlitSlotTransmit at h
  cases h
  refine CfgOk.after (linkTurn_cfgOk (fun t0 => ?_)) ?_
  · exact CfgOk.ofOnly (flitSlot_only (W := [.adit, .links]) rfl) rfl
  · exact CfgOk.rfl

theorem execAuditSend_cfgOk {a0 : Nat} {a1 : Machine.State} {t : Machine.State} (h : execAuditSend a0 a1 = .next t) : CfgOk a1 t := by
  unfold execAuditSend at h
  cases h
  refine CfgOk.after (linkTurn_cfgOk (fun t0 => ?_)) ?_
  · exact CfgOk.ofOnly (auditNow_only (W := [.links]) rfl) rfl
  · exact CfgOk.rfl

theorem execLaneLockLost_cfgOk {a0 : Nat} {a1 : Machine.State} {t : Machine.State} (h : execLaneLockLost a0 a1 = .next t) : CfgOk a1 t := by
  unfold execLaneLockLost at h
  cases h
  refine CfgOk.after (linkTurn_cfgOk (fun t0 => ?_)) ?_
  · exact CfgOk.ofOnly (laneLost_only (W := [.links]) rfl) rfl
  · exact CfgOk.rfl

theorem execFastRetrainComplete_cfgOk {a0 : Nat} {a1 : Machine.State} {t : Machine.State} (h : execFastRetrainComplete a0 a1 = .next t) : CfgOk a1 t := by
  unfold execFastRetrainComplete at h
  cases h
  refine CfgOk.after (linkTurn_cfgOk (fun t0 => ?_)) ?_
  · exact CfgOk.ofOnly (retrainDone_only (W := [.links]) rfl) rfl
  · exact CfgOk.rfl

theorem execFastRetrainTimeout_cfgOk {a0 : Nat} {a1 : Machine.State} {t : Machine.State} (h : execFastRetrainTimeout a0 a1 = .next t) : CfgOk a1 t := by
  unfold execFastRetrainTimeout at h
  cases h
  refine CfgOk.after (linkTurn_cfgOk (fun t0 => ?_)) ?_
  · exact retrainLate_cfgOk
  · exact CfgOk.rfl

theorem execPeerSilentTimeout_cfgOk {a0 : Nat} {a1 : Machine.State} {t : Machine.State} (h : execPeerSilentTimeout a0 a1 = .next t) : CfgOk a1 t := by
  unfold execPeerSilentTimeout at h
  cases h
  refine CfgOk.after (linkTurn_cfgOk (fun t0 => ?_)) ?_
  · exact peerSilent_cfgOk
  · exact CfgOk.rfl

theorem execMwrite_cfgOk {a0 : Nat} {a1 : Machine.State} {t : Machine.State} (h : execMwrite a0 a1 = .next t) : CfgOk a1 t := by
  unfold execMwrite at h
  cases h
  refine CfgOk.after (linkTurn_cfgOk (fun t0 => ?_)) ?_
  · refine CfgOk.after (withMsg_cfgOk (fun _ t1 => ?_)) ?_
    · exact CfgOk.ofOnly (mwriteIn_only (W := [.cages, .mem, .links]) rfl) rfl
    · exact CfgOk.rfl
  · exact CfgOk.rfl

theorem execMwriteLinesAcked_cfgOk {a0 : Nat} {a1 : Machine.State} {t : Machine.State} (h : execMwriteLinesAcked a0 a1 = .next t) : CfgOk a1 t := by
  unfold execMwriteLinesAcked at h
  cases h
  refine CfgOk.after (linkTurn_cfgOk (fun t0 => ?_)) ?_
  · exact CfgOk.ofOnly (respReady_only (W := [.links]) rfl) rfl
  · exact CfgOk.rfl

theorem execMread_cfgOk {a0 : Nat} {a1 : Machine.State} {t : Machine.State} (h : execMread a0 a1 = .next t) : CfgOk a1 t := by
  unfold execMread at h
  cases h
  refine CfgOk.after (linkTurn_cfgOk (fun t0 => ?_)) ?_
  · refine CfgOk.after (withMsg_cfgOk (fun _ t1 => ?_)) ?_
    · exact CfgOk.ofOnly (mreadIn_only (W := [.free, .links]) rfl) rfl
    · exact CfgOk.rfl
  · exact CfgOk.rfl

theorem execMreadDataReady_cfgOk {a0 : Nat} {a1 : Machine.State} {t : Machine.State} (h : execMreadDataReady a0 a1 = .next t) : CfgOk a1 t := by
  unfold execMreadDataReady at h
  cases h
  refine CfgOk.after (linkTurn_cfgOk (fun t0 => ?_)) ?_
  · exact CfgOk.ofOnly (respReady_only (W := [.links]) rfl) rfl
  · exact CfgOk.rfl

theorem execMdata_cfgOk {a0 : Nat} {a1 : Machine.State} {t : Machine.State} (h : execMdata a0 a1 = .next t) : CfgOk a1 t := by
  unfold execMdata at h
  cases h
  refine CfgOk.after (linkTurn_cfgOk (fun t0 => ?_)) ?_
  · refine CfgOk.after (withMsg_cfgOk (fun _ t1 => ?_)) ?_
    · exact CfgOk.ofOnly (mdataIn_only (W := [.mem, .links, .coll]) rfl) rfl
    · exact CfgOk.rfl
  · exact CfgOk.rfl

theorem execMack_cfgOk {a0 : Nat} {a1 : Machine.State} {t : Machine.State} (h : execMack a0 a1 = .next t) : CfgOk a1 t := by
  unfold execMack at h
  cases h
  refine CfgOk.after (linkTurn_cfgOk (fun t0 => ?_)) ?_
  · refine CfgOk.after (withMsg_cfgOk (fun _ t1 => ?_)) ?_
    · exact CfgOk.ofOnly (mackIn_only (W := [.links]) rfl) rfl
    · exact CfgOk.rfl
  · exact CfgOk.rfl

theorem execVcMemTimeout_cfgOk {a0 : Nat} {a1 : Nat} {a2 : Machine.State} {t : Machine.State} (h : execVcMemTimeout a0 a1 a2 = .next t) : CfgOk a2 t := by
  unfold execVcMemTimeout at h
  cases h
  refine CfgOk.after (linkTurn_cfgOk (fun t0 => ?_)) ?_
  · exact CfgOk.ofOnly (memTimeout_only (W := [.links, .coll]) rfl) rfl
  · exact CfgOk.rfl

theorem execLinkErrRateTimer_cfgOk {a0 : Nat} {a1 : Nat} {a2 : Machine.State} {t : Machine.State} (h : execLinkErrRateTimer a0 a1 a2 = .next t) : CfgOk a2 t := by
  unfold execLinkErrRateTimer at h
  cases h
  refine CfgOk.after (linkTurn_cfgOk (fun t0 => ?_)) ?_
  · exact linkErrRate_cfgOk
  · exact CfgOk.rfl

theorem execTraceCtlEnWrite_cfgOk {a0 : W32} {a1 : Machine.State} {t : Machine.State} (h : execTraceCtlEnWrite a0 a1 = .next t) : CfgOk a1 t := by
  unfold execTraceCtlEnWrite at h
  cases h
  exact writeRow_cfgOk

theorem execW1cWrite_cfgOk {a0 : Nat} {a1 : Nat} {a2 : W32} {a3 : Machine.State} {t : Machine.State} (h : execW1cWrite a0 a1 a2 a3 = .next t) : CfgOk a3 t := by
  unfold execW1cWrite at h
  cases h
  refine CfgOk.after (windowAccess_cfgOk (fun t0 => ?_)) ?_
  · exact writeW1c_cfgOk
  · exact CfgOk.rfl

theorem execLockedWrite_cfgOk {a0 : Nat} {a1 : W32} {a2 : Machine.State} {t : Machine.State} (h : execLockedWrite a0 a1 a2 = .next t) : CfgOk a2 t := by
  unfold execLockedWrite at h
  cases h
  refine CfgOk.after (windowAccess_cfgOk (fun t0 => ?_)) ?_
  · exact CfgOk.ofOnly (writeLocked_only (W := [.adit, .beat]) rfl) rfl
  · exact CfgOk.rfl

theorem execBadSizeWindowAccess_cfgOk {a0 : Nat} {a1 : Nat} {a2 : Nat} {a3 : Machine.State} {t : Machine.State} (h : execBadSizeWindowAccess a0 a1 a2 a3 = .next t) : CfgOk a3 t := by
  unfold execBadSizeWindowAccess at h
  cases h
  refine CfgOk.after (windowAccess_cfgOk (fun t0 => ?_)) ?_
  · exact wrongSize_cfgOk
  · exact CfgOk.rfl

theorem execRegisterWrite_cfgOk {a0 : Nat} {a1 : Nat} {a2 : Nat} {a3 : W64} {a4 : Machine.State} {t : Machine.State} (h : execRegisterWrite a0 a1 a2 a3 a4 = .next t) : CfgOk a4 t := by
  unfold execRegisterWrite at h
  cases h
  exact writeReg_cfgOk

theorem execSwapOutComplete_cfgOk {a0 : Nat} {a1 : Machine.State} {t : Machine.State} (h : execSwapOutComplete a0 a1 = .next t) : CfgOk a1 t := by
  unfold execSwapOutComplete at h
  cases h
  refine CfgOk.after (ctlTurn_cfgOk (fun t0 => ?_)) ?_
  · exact CfgOk.ofOnly (swapDone_only (W := [.rings]) rfl) rfl
  · exact CfgOk.rfl

theorem execSlotStateLoaded_cfgOk {a0 : Nat} {a1 : Machine.State} {t : Machine.State} (h : execSlotStateLoaded a0 a1 = .next t) : CfgOk a1 t := by
  unfold execSlotStateLoaded at h
  cases h
  refine CfgOk.after (ctlTurn_cfgOk (fun t0 => ?_)) ?_
  · exact CfgOk.ofOnly (slotLoaded_only (W := [.rings]) rfl) rfl
  · exact CfgOk.rfl

theorem execRingIdleTimeout_cfgOk {a0 : Nat} {a1 : Machine.State} {t : Machine.State} (h : execRingIdleTimeout a0 a1 = .next t) : CfgOk a1 t := by
  unfold execRingIdleTimeout at h
  cases h
  refine CfgOk.after (ctlTurn_cfgOk (fun t0 => ?_)) ?_
  · exact CfgOk.ofOnly (idleOut_only (W := [.rings]) rfl) rfl
  · exact CfgOk.rfl

theorem execRingBound50us_cfgOk {a0 : Nat} {a1 : Machine.State} {t : Machine.State} (h : execRingBound50us a0 a1 = .next t) : CfgOk a1 t := by
  unfold execRingBound50us at h
  cases h
  refine CfgOk.after (ctlTurn_cfgOk (fun t0 => ?_)) ?_
  · exact CfgOk.ofOnly (boundLong_only (W := [.rings]) rfl) rfl
  · exact CfgOk.rfl

theorem execRingEnSet_cfgOk {a0 : Nat} {a1 : Nat} {a2 : W32} {a3 : Machine.State} {t : Machine.State} (h : execRingEnSet a0 a1 a2 a3 = .next t) : CfgOk a3 t := by
  unfold execRingEnSet at h
  cases h
  exact writeRow_cfgOk

theorem execRingEnClear_cfgOk {a0 : Nat} {a1 : Nat} {a2 : W32} {a3 : Machine.State} {t : Machine.State} (h : execRingEnClear a0 a1 a2 a3 = .next t) : CfgOk a3 t := by
  unfold execRingEnClear at h
  cases h
  exact writeRow_cfgOk

theorem execRptCfgEnSet_cfgOk {a0 : Nat} {a1 : W32} {a2 : Machine.State} {t : Machine.State} (h : execRptCfgEnSet a0 a1 a2 = .next t) : CfgOk a2 t := by
  unfold execRptCfgEnSet at h
  cases h
  exact writeRow_cfgOk

theorem execRptCfgEnClear_cfgOk {a0 : Nat} {a1 : W32} {a2 : Machine.State} {t : Machine.State} (h : execRptCfgEnClear a0 a1 a2 = .next t) : CfgOk a2 t := by
  unfold execRptCfgEnClear at h
  cases h
  exact writeRow_cfgOk

theorem execDescriptorFetch_cfgOk {a0 : Nat} {a1 : Machine.State} {t : Machine.State} (h : execDescriptorFetch a0 a1 = .next t) : CfgOk a1 t := by
  unfold execDescriptorFetch at h
  cases h
  refine CfgOk.after (ctlTurn_cfgOk (fun t0 => ?_)) ?_
  · exact issueDescr_cfgOk
  · exact CfgOk.rfl

theorem execDescriptorReadComplete_cfgOk {a0 : Nat} {a1 : Bytes} {a2 : Option ReadFail} {a3 : Machine.State} {t : Machine.State} (h : execDescriptorReadComplete a0 a1 a2 a3 = .next t) : CfgOk a3 t := by
  unfold execDescriptorReadComplete at h
  cases h
  refine CfgOk.after (ctlTurn_cfgOk (fun t0 => ?_)) ?_
  · exact descrComplete_cfgOk
  · exact CfgOk.rfl

theorem execUndefinedOpcode_cfgOk {a0 : Nat} {a1 : Nat} {a2 : Machine.State} {t : Machine.State} (h : execUndefinedOpcode a0 a1 a2 = .next t) : CfgOk a2 t := by
  unfold execUndefinedOpcode at h
  cases h
  exact ringUnknown_cfgOk

theorem execNop_cfgOk {a0 : Nat} {a1 : Nat} {a2 : Machine.State} {t : Machine.State} (h : execNop a0 a1 a2 = .next t) : CfgOk a2 t := by
  unfold execNop at h
  cases h
  refine CfgOk.after (ringOp_cfgOk (fun _ t0 => ?_)) ?_
  · exact CfgOk.ofOnly (endOk_only (W := [.rings]) rfl) rfl
  · exact CfgOk.rfl

theorem execCopyH2d_cfgOk {a0 : Nat} {a1 : Nat} {a2 : Machine.State} {t : Machine.State} (h : execCopyH2d a0 a1 a2 = .next t) : CfgOk a2 t := by
  unfold execCopyH2d at h
  cases h
  refine CfgOk.after (ringOp_cfgOk (fun _ t0 => ?_)) ?_
  · exact bodyCopy_cfgOk
  · exact CfgOk.rfl

theorem execCopyD2h_cfgOk {a0 : Nat} {a1 : Nat} {a2 : Machine.State} {t : Machine.State} (h : execCopyD2h a0 a1 a2 = .next t) : CfgOk a2 t := by
  unfold execCopyD2h at h
  cases h
  refine CfgOk.after (ringOp_cfgOk (fun _ t0 => ?_)) ?_
  · exact bodyCopy_cfgOk
  · exact CfgOk.rfl

theorem execCopyD2d_cfgOk {a0 : Nat} {a1 : Nat} {a2 : Machine.State} {t : Machine.State} (h : execCopyD2d a0 a1 a2 = .next t) : CfgOk a2 t := by
  unfold execCopyD2d at h
  cases h
  refine CfgOk.after (ringOp_cfgOk (fun _ t0 => ?_)) ?_
  · exact bodyCopy_cfgOk
  · exact CfgOk.rfl

theorem execFill_cfgOk {a0 : Nat} {a1 : Nat} {a2 : Machine.State} {t : Machine.State} (h : execFill a0 a1 a2 = .next t) : CfgOk a2 t := by
  unfold execFill at h
  cases h
  refine CfgOk.after (ringOp_cfgOk (fun _ t0 => ?_)) ?_
  · exact bodyCopy_cfgOk
  · exact CfgOk.rfl

theorem execEventSignal_cfgOk {a0 : Nat} {a1 : Nat} {a2 : Machine.State} {t : Machine.State} (h : execEventSignal a0 a1 a2 = .next t) : CfgOk a2 t := by
  unfold execEventSignal at h
  cases h
  refine CfgOk.after (ringOp_cfgOk (fun _ t0 => ?_)) ?_
  · exact CfgOk.ofOnly (bodySignal_only (W := [.rings]) rfl) rfl
  · exact CfgOk.rfl

theorem execEventWait_cfgOk {a0 : Nat} {a1 : Nat} {a2 : Machine.State} {t : Machine.State} (h : execEventWait a0 a1 a2 = .next t) : CfgOk a2 t := by
  unfold execEventWait at h
  cases h
  refine CfgOk.after (ringOp_cfgOk (fun _ t0 => ?_)) ?_
  · exact CfgOk.ofOnly (bodyWait_only (W := [.rings]) rfl) rfl
  · exact CfgOk.rfl

theorem execEventWaitMet_cfgOk {a0 : Nat} {a1 : Machine.State} {t : Machine.State} (h : execEventWaitMet a0 a1 = .next t) : CfgOk a1 t := by
  unfold execEventWaitMet at h
  cases h
  refine CfgOk.after (ctlTurn_cfgOk (fun t0 => ?_)) ?_
  · exact CfgOk.ofOnly (waitReached_only (W := [.rings]) rfl) rfl
  · exact CfgOk.rfl

theorem execEventWaitTimeout_cfgOk {a0 : Nat} {a1 : Machine.State} {t : Machine.State} (h : execEventWaitTimeout a0 a1 = .next t) : CfgOk a1 t := by
  unfold execEventWaitTimeout at h
  cases h
  refine CfgOk.after (ctlTurn_cfgOk (fun t0 => ?_)) ?_
  · exact CfgOk.ofOnly (waitTimeout_only (W := [.rings]) rfl) rfl
  · exact CfgOk.rfl

theorem execHostWrite_cfgOk {a0 : Nat} {a1 : Nat} {a2 : Machine.State} {t : Machine.State} (h : execHostWrite a0 a1 a2 = .next t) : CfgOk a2 t := by
  unfold execHostWrite at h
  cases h
  refine CfgOk.after (ringOp_cfgOk (fun _ t0 => ?_)) ?_
  · exact bodyHostWrite_cfgOk
  · exact CfgOk.rfl

theorem execSchedSet_cfgOk {a0 : Nat} {a1 : Nat} {a2 : Machine.State} {t : Machine.State} (h : execSchedSet a0 a1 a2 = .next t) : CfgOk a2 t := by
  unfold execSchedSet at h
  cases h
  refine CfgOk.after (ringOp_cfgOk (fun _ t0 => ?_)) ?_
  · exact CfgOk.ofOnly (bodySched_only (W := [.rings, .cages]) rfl) rfl
  · exact CfgOk.rfl

theorem execPolicy_cfgOk {a0 : Nat} {a1 : Nat} {a2 : Machine.State} {t : Machine.State} (h : execPolicy a0 a1 a2 = .next t) : CfgOk a2 t := by
  unfold execPolicy at h
  cases h
  refine CfgOk.after (ringOp_cfgOk (fun _ t0 => ?_)) ?_
  · exact CfgOk.ofOnly (bodyPolicy_only (W := [.adit, .rings]) rfl) rfl
  · exact CfgOk.rfl

theorem execPinnedWriteResume_cfgOk {a0 : Nat} {a1 : Machine.State} {t : Machine.State} (h : execPinnedWriteResume a0 a1 = .next t) : CfgOk a1 t := by
  unfold execPinnedWriteResume at h
  cases h
  refine CfgOk.after (ctlTurn_cfgOk (fun t0 => ?_)) ?_
  · exact CfgOk.ofOnly (pinResume_only (W := [.rings]) rfl) rfl
  · exact CfgOk.rfl

theorem execCommandComplete_cfgOk {a0 : Nat} {a1 : Machine.State} {t : Machine.State} (h : execCommandComplete a0 a1 = .next t) : CfgOk a1 t := by
  unfold execCommandComplete at h
  cases h
  refine CfgOk.after (ctlTurn_cfgOk (fun t0 => ?_)) ?_
  · exact tryComplete_cfgOk
  · exact CfgOk.rfl

theorem execPatrolScrubRead_cfgOk {a0 : Nat} {a1 : LineErr} {a2 : Machine.State} {t : Machine.State} (h : execPatrolScrubRead a0 a1 a2 = .next t) : CfgOk a2 t := by
  unfold execPatrolScrubRead at h
  cases h
  refine CfgOk.after (dataTurn_cfgOk (fun t0 => ?_)) ?_
  · exact patrolTurn_cfgOk
  · exact CfgOk.rfl

theorem execStackCeRateTimer_cfgOk {a0 : Nat} {a1 : Machine.State} {t : Machine.State} (h : execStackCeRateTimer a0 a1 = .next t) : CfgOk a1 t := by
  unfold execStackCeRateTimer at h
  cases h
  refine CfgOk.after (dataTurn_cfgOk (fun t0 => ?_)) ?_
  · refine CfgOk.after (onlyIf_cfgOk (fun t1 => ?_)) ?_
    · exact ceRate_cfgOk
    · exact CfgOk.rfl
  · exact CfgOk.rfl

theorem execScrubCtlLock_cfgOk {a0 : W32} {a1 : Machine.State} {t : Machine.State} (h : execScrubCtlLock a0 a1 = .next t) : CfgOk a1 t := by
  unfold execScrubCtlLock at h
  cases h
  exact writeRow_cfgOk

theorem execStackTrainingEnd_cfgOk {a0 : Nat} {a1 : Machine.State} {t : Machine.State} (h : execStackTrainingEnd a0 a1 = .next t) : CfgOk a1 t := by
  unfold execStackTrainingEnd at h
  cases h
  refine CfgOk.after (ctlTurn_cfgOk (fun t0 => ?_)) ?_
  · exact trainedAll_cfgOk
  · exact CfgOk.rfl

theorem execStackLineAccess_cfgOk {a0 : Nat} {a1 : LineOp} {a2 : LineErr} {a3 t : Machine.State} (h : execStackLineAccess a0 a1 a2 a3 = .next t) : CfgOk a3 t := by
  unfold execStackLineAccess at h
  split at h
  · cases h
    refine CfgOk.after (dataTurn_cfgOk (fun t0 => ?_)) ?_
    · exact lineTurn_cfgOk
    · exact CfgOk.rfl
  · cases h

end Sys2Proof.Machine
end

