-- ==== Sys2Proof/Tests/Slice0.lean ====
section
/-! SUPPORT. Tests: a term that each check of WellFormed refuses, values worked out from the spec, and, for the hypotheses of each clause of each statement, a state and operands that meet them all together. -/

namespace Sys2Proof.Tests

set_option maxRecDepth 20000
set_option Elab.async false

open Sys2Proof Sys2Proof.Machine

/-! A term that each check of Instr.wellFormed refuses, and one that passes them all. -/

theorem test_wellFormedRefused1 : (([.auxApplied 32 0 0 false, .auxApplied 0 16 0 false, .auxApplied 0 0 2 false, .moduleReset 32 0 0,
    .moduleReset 0 16 0, .moduleReset 0 0 2, .tapInstruction 7, .policyTimeout 512,
    .configRequest 256 .read, .flr 256, .flrComplete 256, .d3hotEntry 256,
    .busMasterEnableClear 256, .busMasterEnableSet 256, .atsEnableChange 256 false, .invalidateRequest 256 0 12,
    .invalidateRequest 0 (2 ^ 64) 12, .invalidateRequest 0 0 11, .invalidateRequest 0 0 64, .invalidateComplete 256 0 12,
    .invalidateComplete 0 (2 ^ 64) 12, .invalidateComplete 0 0 11, .invalidateComplete 0 0 64, .unsupportedRequest 256,
    .poisonedWindowWrite 256, .msixUnmask 256 0, .msixUnmask 0 2048, .coalTimeExpiry 256 0,
    .coalTimeExpiry 0 17, .mctpVdm 256 [], .mctpVdm 0 (List.replicate 69 0), .dblCtlEnSet 256 0,
    .dblCtlEnClear 256 0, .doorbellPoll 256, .doorbellTagFree 256, .doorbellReadComplete 256 .ur,
    .swapOutComplete 32, .slotStateLoaded 32, .ringIdleTimeout 32, .ringBound50us 32] : List Instr).all fun i => !i.wellFormed) = true := by decide +kernel

theorem test_wellFormedRefused2 : (([.lnMessage 256, .lnBackstop 256, .ringEnSet 256 0 0, .ringEnSet 0 16 0,
    .ringEnClear 256 0 0, .ringEnClear 0 16 0, .rptCfgEnSet 256 0, .rptCfgEnClear 256 0,
    .descriptorFetch 32, .descriptorReadComplete 32 [] none, .descriptorReadComplete 0 (List.replicate 513 0) none, .undefinedOpcode 256 0,
    .undefinedOpcode 0 16, .nop 256 0, .nop 0 16, .copyH2d 256 0,
    .copyH2d 0 16, .copyD2h 256 0, .copyD2h 0 16, .copyD2d 256 0,
    .copyD2d 0 16, .fill 256 0, .fill 0 16, .eventSignal 256 0,
    .eventSignal 0 16, .eventWait 256 0, .eventWait 0 16, .eventWaitMet 512,
    .eventWaitTimeout 512, .hostWrite 256 0, .hostWrite 0 16, .schedSet 256 0,
    .schedSet 0 16, .policy 256 0, .policy 0 16, .pinnedWriteResume 512,
    .commandComplete 512, .admitCmd 256 0, .admitCmd 0 16, .admitWaitExpiry 512] : List Instr).all fun i => !i.wellFormed) = true := by decide +kernel

theorem test_wellFormedRefused3 : (([.admitResidencyComplete 512, .programLoadComplete 512, .offerBackstop 512, .programAbort 256 0,
    .programAbort 0 16, .abortDrainComplete 16, .clusterScrubComplete 128, .pageMap 256 0,
    .pageMap 0 16, .pageUnmap 256 0, .pageUnmap 0 16, .pageUnmapComplete 512,
    .poolSet 256 0, .poolSet 0 16, .cageCreate 256 0, .cageCreate 0 16,
    .cageDestroy 256 0, .cageDestroy 0 16, .cageDestroyComplete 256, .cageQuota 256 0,
    .cageQuota 0 16, .frameScrubbed 65536, .demandZeroComplete 256 0, .demandZeroComplete 0 65536,
    .evictionComplete 256 0, .evictionComplete 0 65536, .restoreComplete 256 0, .restoreComplete 0 65536,
    .beatSlot 16, .programEnd 16, .gateLimitExpiry 16, .droopCrossing 128,
    .shadowAccessFail 16, .stackLineAccess (2 ^ 31) .read .clean, .stackReadout 8 none, .patrolScrubRead 8 .clean,
    .stackCeRateTimer 8, .stackTrainingEnd 256, .linkEnSet 16 0, .linkEnClear 16 0] : List Instr).all fun i => !i.wellFormed) = true := by decide +kernel

theorem test_wellFormedRefused4 : (([.laneStartupComplete 16 0, .laneStartupComplete 0 256, .hello 16 (List.replicate 64 0), .hello 0 [],
    .linkTrainingTimeout 16, .linkRetryTimer 16, .codewordPairUncorrectable 16, .dataFlitReceived 16 (List.replicate 64 0),
    .dataFlitReceived 0 [], .lctlReceived 16 (List.replicate 64 0), .lctlReceived 0 [], .replayTimeout 16,
    .nakHoldoffExpiry 16, .flitSlotTransmit 16, .auditSend 16, .laneLockLost 16,
    .fastRetrainComplete 16, .fastRetrainTimeout 16, .peerSilentTimeout 16, .mwrite 16,
    .mwriteLinesAcked 16, .mread 16, .mreadDataReady 16, .mdata 16,
    .mack 16, .vcMemTimeout 16 0, .linkErrRateTimer 16 0, .collGroupCreate 256 0,
    .collGroupCreate 0 16, .collGroupDestroy 256 0, .collGroupDestroy 0 16, .collBufRegister 256 0,
    .collBufRegister 0 16, .reduceScatter 256 0, .reduceScatter 0 16, .allGather 256 0,
    .allGather 0 16, .groupHello 16, .groupHelloResend 64, .groupAck 16] : List Instr).all fun i => !i.wellFormed) = true := by decide +kernel

theorem test_wellFormedRefused5 : (([.keyOffer 16, .groupBye 16, .collWaitExpiry 64 0 0, .collWaitExpiry 0 3 0,
    .collWaitExpiry 0 0 16, .collOpStart 64, .bindStartWaitEnd 64, .bindSourceGateMet 64,
    .opReady 16, .chunkStart 4, .collData 16 0, .collData 0 2,
    .chunkEnd 16 0, .chunkEnd 0 2, .chunkCheck 64 0 0, .chunkCheck 0 4 0,
    .chunkAck 16, .opAbort 16, .collProgressTimeout 64 0, .collProgressTimeout 0 16,
    .collDrainComplete 64, .pmbusRead [], .railAtLevel 16, .lockOriginSilent (2 ^ 32) 0,
    .lockOriginSilent 0 (2 ^ 64), .lockEntryExpiry (2 ^ 32) 0, .lockEntryExpiry 0 (2 ^ 64), .lockQueueSend 16,
    .dieSensorSample [], .sensorValidAgain 33, .probeDisagree 25, .zoneRecovery 6,
    .thresholdDwellExpiry 12, .thermalTimeout 16, .bemfZeroCrossing 0 [], .diagPulse [],
    .joinListenEnd 2, .rxFifoDrain 2, .rxOverflow 2, .busMessagePhase 2 0] : List Instr).all fun i => !i.wellFormed) = true := by decide +kernel

theorem test_wellFormedRefused6 : (([.busMessagePhase 0 256, .frameSent 2, .txExpiry 2 0, .txExpiry 0 12,
    .canError 2 0 0, .canError 0 257 0, .canError 0 0 257, .busOffWaitExpiry 2,
    .busOffRecovered 2, .leakAlert 2 { id := 0, data := [] }, .leakAlert 0 { id := 2 ^ 29, data := [] }, .leakAlert 0 { id := 0, data := List.replicate 65 0 },
    .tripNotice 2 { id := 0, data := [] }, .tripNotice 0 { id := 2 ^ 29, data := [] }, .tripNotice 0 { id := 0, data := List.replicate 65 0 }, .stageAlarm 2 { id := 0, data := [] },
    .stageAlarm 0 { id := 2 ^ 29, data := [] }, .stageAlarm 0 { id := 0, data := List.replicate 65 0 }, .rackAlert 2 { id := 0, data := [] }, .rackAlert 0 { id := 2 ^ 29, data := [] },
    .rackAlert 0 { id := 0, data := List.replicate 65 0 }, .claimCmd 2 { id := 0, data := [] }, .claimCmd 0 { id := 2 ^ 29, data := [] }, .claimCmd 0 { id := 0, data := List.replicate 65 0 },
    .wardenHb 2 { id := 0, data := [] }, .wardenHb 0 { id := 2 ^ 29, data := [] }, .wardenHb 0 { id := 0, data := List.replicate 65 0 }, .stageStatus 2 { id := 0, data := [] },
    .stageStatus 0 { id := 2 ^ 29, data := [] }, .stageStatus 0 { id := 0, data := List.replicate 65 0 }, .sync 2 { id := 0, data := [] }, .sync 0 { id := 2 ^ 29, data := [] },
    .sync 0 { id := 0, data := List.replicate 65 0 }, .moduleBudget 2 { id := 0, data := [] }, .moduleBudget 0 { id := 2 ^ 29, data := [] }, .moduleBudget 0 { id := 0, data := List.replicate 65 0 },
    .alloc 2 { id := 0, data := [] }, .alloc 0 { id := 2 ^ 29, data := [] }, .alloc 0 { id := 0, data := List.replicate 65 0 }, .rackBudget 2 { id := 0, data := [] }] : List Instr).all fun i => !i.wellFormed) = true := by decide +kernel

theorem test_wellFormedRefused7 : (([.rackBudget 0 { id := 2 ^ 29, data := [] }, .rackBudget 0 { id := 0, data := List.replicate 65 0 }, .moduleTelem 2 { id := 0, data := [] }, .moduleTelem 0 { id := 2 ^ 29, data := [] },
    .moduleTelem 0 { id := 0, data := List.replicate 65 0 }, .rackTelem 2 { id := 0, data := [] }, .rackTelem 0 { id := 2 ^ 29, data := [] }, .rackTelem 0 { id := 0, data := List.replicate 65 0 },
    .mirror 2 { id := 0, data := [] }, .mirror 0 { id := 2 ^ 29, data := [] }, .mirror 0 { id := 0, data := List.replicate 65 0 }, .nodeAnnounce 2 { id := 0, data := [] },
    .nodeAnnounce 0 { id := 2 ^ 29, data := [] }, .nodeAnnounce 0 { id := 0, data := List.replicate 65 0 }, .announceReq 2 { id := 0, data := [] }, .announceReq 0 { id := 2 ^ 29, data := [] },
    .announceReq 0 { id := 0, data := List.replicate 65 0 }, .busSleep 2 { id := 0, data := [] }, .busSleep 0 { id := 2 ^ 29, data := [] }, .busSleep 0 { id := 0, data := List.replicate 65 0 },
    .busWake 2 { id := 0, data := [] }, .busWake 0 { id := 2 ^ 29, data := [] }, .busWake 0 { id := 0, data := List.replicate 65 0 }, .makerFrame 2 { id := 0, data := [] },
    .makerFrame 0 { id := 2 ^ 29, data := [] }, .makerFrame 0 { id := 0, data := List.replicate 65 0 }, .busCountsTimer 2, .mbxSelect 256,
    .leakResponseDelay 2, .wlState 2 0 false [], .wlState 0 65536 false [], .wlState 0 0 false (List.replicate 1025 0),
    .wlMirror 2 0 false [], .wlMirror 0 65536 false [], .wlMirror 0 0 false (List.replicate 1025 0), .handover 2 0 false [],
    .handover 0 65536 false [], .handover 0 0 false (List.replicate 1025 0), .handoverAck 2 0 false [], .handoverAck 0 65536 false []] : List Instr).all fun i => !i.wellFormed) = true := by decide +kernel

theorem test_wellFormedRefused8 : (([.handoverAck 0 0 false (List.replicate 1025 0), .keepalive 2 0 false [], .keepalive 0 65536 false [], .keepalive 0 0 false (List.replicate 1025 0),
    .wlLaneDown 2, .mctpSmbusPacket (List.replicate 69 0), .w1cWrite 256 0x014 0, .w1cWrite 0 0 0,
    .lockedWrite (2 ^ 20) 0, .lockedWrite 2 0, .badSizeWindowAccess 256 0 0, .registerWrite 256 0 0 0,
    .ecrcError 256 none, .malformedFrame 2 false { id := 0, data := [] }, .malformedFrame 0 false { id := 2 ^ 29, data := [] }, .malformedFrame 0 false { id := 0, data := List.replicate 65 0 }] : List Instr).all fun i => !i.wellFormed) = true := by decide +kernel

theorem test_wellFormedPassed1 : (([.auxApplied 0 0 0 false, .moduleReset 0 0 0, .tapInstruction 0, .policyTimeout 0,
    .configRequest 0 .read, .flr 0, .flrComplete 0, .d3hotEntry 0,
    .busMasterEnableClear 0, .busMasterEnableSet 0, .atsEnableChange 0 false, .invalidateRequest 0 0 12,
    .invalidateComplete 0 0 12, .unsupportedRequest 0, .poisonedWindowWrite 0, .msixUnmask 0 0,
    .coalTimeExpiry 0 0, .mctpVdm 0 [], .dblCtlEnSet 0 0, .dblCtlEnClear 0 0,
    .doorbellPoll 0, .doorbellTagFree 0, .doorbellReadComplete 0 .ur, .swapOutComplete 0,
    .slotStateLoaded 0, .ringIdleTimeout 0, .ringBound50us 0, .lnMessage 0,
    .lnBackstop 0, .ringEnSet 0 0 0, .ringEnClear 0 0 0, .rptCfgEnSet 0 0,
    .rptCfgEnClear 0 0, .descriptorFetch 0, .descriptorReadComplete 0 [] none, .undefinedOpcode 0 0,
    .nop 0 0, .copyH2d 0 0, .copyD2h 0 0, .copyD2d 0 0] : List Instr).all fun i => i.wellFormed) = true := by decide +kernel

theorem test_wellFormedPassed2 : (([.fill 0 0, .eventSignal 0 0, .eventWait 0 0, .eventWaitMet 0,
    .eventWaitTimeout 0, .hostWrite 0 0, .schedSet 0 0, .policy 0 0,
    .pinnedWriteResume 0, .commandComplete 0, .admitCmd 0 0, .admitWaitExpiry 0,
    .admitResidencyComplete 0, .programLoadComplete 0, .offerBackstop 0, .programAbort 0 0,
    .abortDrainComplete 0, .clusterScrubComplete 0, .pageMap 0 0, .pageUnmap 0 0,
    .pageUnmapComplete 0, .poolSet 0 0, .cageCreate 0 0, .cageDestroy 0 0,
    .cageDestroyComplete 0, .cageQuota 0 0, .frameScrubbed 0, .demandZeroComplete 0 0,
    .evictionComplete 0 0, .restoreComplete 0 0, .beatSlot 0, .programEnd 0,
    .gateLimitExpiry 0, .droopCrossing 0, .shadowAccessFail 0, .stackLineAccess 0 .read .clean,
    .stackReadout 0 none, .patrolScrubRead 0 .clean, .stackCeRateTimer 0, .stackTrainingEnd 0] : List Instr).all fun i => i.wellFormed) = true := by decide +kernel

theorem test_wellFormedPassed3 : (([.linkEnSet 0 0, .linkEnClear 0 0, .laneStartupComplete 0 0, .hello 0 (List.replicate 64 0),
    .linkTrainingTimeout 0, .linkRetryTimer 0, .codewordPairUncorrectable 0, .dataFlitReceived 0 (List.replicate 64 0),
    .lctlReceived 0 (List.replicate 64 0), .replayTimeout 0, .nakHoldoffExpiry 0, .flitSlotTransmit 0,
    .auditSend 0, .laneLockLost 0, .fastRetrainComplete 0, .fastRetrainTimeout 0,
    .peerSilentTimeout 0, .mwrite 0, .mwriteLinesAcked 0, .mread 0,
    .mreadDataReady 0, .mdata 0, .mack 0, .vcMemTimeout 0 0,
    .linkErrRateTimer 0 0, .collGroupCreate 0 0, .collGroupDestroy 0 0, .collBufRegister 0 0,
    .reduceScatter 0 0, .allGather 0 0, .groupHello 0, .groupHelloResend 0,
    .groupAck 0, .keyOffer 0, .groupBye 0, .collWaitExpiry 0 0 0,
    .collOpStart 0, .bindStartWaitEnd 0, .bindSourceGateMet 0, .opReady 0] : List Instr).all fun i => i.wellFormed) = true := by decide +kernel

theorem test_wellFormedPassed4 : (([.chunkStart 0, .collData 0 0, .chunkEnd 0 0, .chunkCheck 0 0 0,
    .chunkAck 0, .opAbort 0, .collProgressTimeout 0 0, .collDrainComplete 0,
    .pmbusRead (List.replicate 6 none), .railAtLevel 0, .lockOriginSilent 0 0, .lockEntryExpiry 0 0,
    .lockQueueSend 0, .dieSensorSample (List.replicate 16 none), .sensorValidAgain 0, .probeDisagree 24,
    .zoneRecovery 0, .thresholdDwellExpiry 0, .thermalTimeout 0, .bemfZeroCrossing 0 (List.replicate 3 0),
    .diagPulse (List.replicate 3 0), .joinListenEnd 0, .rxFifoDrain 0, .rxOverflow 0,
    .busMessagePhase 0 0, .frameSent 0, .txExpiry 0 0, .canError 0 0 0,
    .busOffWaitExpiry 0, .busOffRecovered 0, .leakAlert 0 { id := 0, data := [] }, .tripNotice 0 { id := 0, data := [] },
    .stageAlarm 0 { id := 0, data := [] }, .rackAlert 0 { id := 0, data := [] }, .claimCmd 0 { id := 0, data := [] }, .wardenHb 0 { id := 0, data := [] },
    .stageStatus 0 { id := 0, data := [] }, .sync 0 { id := 0, data := [] }, .moduleBudget 0 { id := 0, data := [] }, .alloc 0 { id := 0, data := [] }] : List Instr).all fun i => i.wellFormed) = true := by decide +kernel

theorem test_wellFormedPassed5 : (([.rackBudget 0 { id := 0, data := [] }, .moduleTelem 0 { id := 0, data := [] }, .rackTelem 0 { id := 0, data := [] }, .mirror 0 { id := 0, data := [] },
    .nodeAnnounce 0 { id := 0, data := [] }, .announceReq 0 { id := 0, data := [] }, .busSleep 0 { id := 0, data := [] }, .busWake 0 { id := 0, data := [] },
    .makerFrame 0 { id := 0, data := [] }, .busCountsTimer 0, .mbxSelect 0, .leakResponseDelay 0,
    .wlState 0 0 false [], .wlMirror 0 0 false [], .handover 0 0 false [], .handoverAck 0 0 false [],
    .keepalive 0 0 false [], .wlLaneDown 0, .mctpSmbusPacket [], .w1cWrite 0 0x014 0,
    .lockedWrite 0 0, .badSizeWindowAccess 0 0 0, .registerWrite 0 0 0 0, .ecrcError 0 none,
    .malformedFrame 0 false { id := 0, data := [] }] : List Instr).all fun i => i.wellFormed) = true := by decide +kernel

theorem test_wellFormedVfVector : (Instr.msixUnmask 1 16).wellFormed = false := by decide

/-! ### Values worked out from the spec -/

/-- Overview, worked example: 95.0 °C is 0x05F0 and −5.0 °C is 0xFFB0 in signed Q12.4. -/
theorem test_temperatureCodes : codeT 95 = 0x05F0 ∧ codeT (-5) = 0xFFB0 ∧ sext 16 0xFFB0 = -80 := by decide +kernel

/-- CRC-32C of the nine digits (R400; the check value of the polynomial). -/
theorem test_crc32c : crc32c [0x31, 0x32, 0x33, 0x34, 0x35, 0x36, 0x37, 0x38, 0x39] = 0xE3069283 := by decide +kernel

/-- Clusters, worked example: E4M3 0x5B is 22 and E5M2 0xC9 is −10. -/
theorem test_fp8Values : eqFV (fmtE4M3.decode 0x5B) (.fin false 22 0) = true ∧ eqFV (fmtE5M2.decode 0xC9) (.fin true 10 0) = true := by decide +kernel

/-- Clusters, worked example: with scales 1 and −2 the product enters the sum as −110, which is 0xC2DC0000. -/
theorem test_scaledProduct : (floatStep [mulFV (fmtE4M3.decode 0x5B) (fmtE5M2.decode 0xC9) (-1)] (.fin false 0 0)).1 = 0xC2DC0000 := by decide +kernel

/-- Clusters, worked example: 300.7 (0x4396599A) to E4M3 is 0x79 to nearest and 0x7A stochastically with r = 0x6000. -/
theorem test_narrowE4M3 :
    (narrowF fmtE4M3 .rne true (f32 0x4396599A)).1 = 0x79 ∧
    (match f32 0x4396599A with | .fin n m e => (fmtE4M3.roundSr 0x6000 true n m e).1 | _ => 0) = 0x7A := by decide +kernel

/-- Beat contract, worked example: at n = 16 slots 3, 7 to 63 are bubbles. -/
theorem test_bubbles : (List.range 64).filter (isBubble · 16) = [3, 7, 11, 15, 19, 23, 27, 31, 35, 39, 43, 47, 51, 55, 59, 63] := by decide

/-- Memory stacks, worked example: frame 0x2C6B, offset 0x05A40 lies in stack 2, pseudo-channel 12. -/
theorem test_stackOf : stackOf (0x2C6B * 2 ^ 21 + 0x05A40) = 2 ∧ pseudoOf (0x2C6B * 2 ^ 21 + 0x05A40) = 12 := by decide +kernel

/-- Rings, worked example: the shares of cages 0, 5 and 9 before and after ring 9.3 gets work. -/
theorem test_slotShares :
    (let w := waterFill 256 32 [(0, 1, 64), (5, 30, 16), (9, 11, 48)]; shareOf w 0 = 1 ∧ shareOf w 5 = 20 ∧ shareOf w 9 = 11) ∧
    (let w := waterFill 256 32 [(0, 1, 64), (5, 30, 16), (9, 12, 48)]; shareOf w 0 = 1 ∧ shareOf w 5 = 19 ∧ shareOf w 9 = 12) := by decide +kernel

/-- Rings, worked example: a COPY_H2D of 3 MiB costs 49. -/
theorem test_issueCost : issueCost (packFlds 64 [(0, 1, 1), (4, 4, 3145728)]) = 49 := by decide +kernel

/-- Wardens, worked example: demands of 40,000, 35,000 and 30,000 W fill 95,000 W to 32,500 W. -/
theorem test_waterFill :
    fillLevel 16 95000 [40000, 35000, 30000] = some 32500 ∧ fillTarget (some 32500) 40000 = 32500 ∧ fillTarget (some 32500) 30000 = 30000 := by decide +kernel

/-- Power, worked example: a fixed part of 150.80 W, a dynamic part of 846.03 W and a cap of 850 W call for 12 bubbles. -/
theorem test_capTarget :
    capTarget ({ State.reset with power := { pFix := 15080 / 100, pDyn0 := 84603 / 100 } } : State) 850 = 12 ∧
    capTarget ({ State.reset with power := { pFix := 15080 / 100, pDyn0 := 84603 / 100 } } : State) 833 = 13 := by decide +kernel

/-- Heat, worked example: 1,001 W at 10 K of PG25 needs 1.510 L/min, rounded up to 1.51. -/
theorem test_neededFlow : (flowFor .reset 10 1001).ceil = 151 := by decide +kernel

/-- Module pump, worked example: a peak bin of 1,250 W at an inlet of 30.0 °C calls for 1.89 L/min. -/
theorem test_flowTarget :
    flowTarget { State.reset with heat := { forecast := [1250], sensors := [(24, { hist := [480] }), (25, { hist := [480] })] }, pump := { powSum := 160, powN := 1 } } = 189 := by decide +kernel

/-- Row and rack buses, worked example: −4,211 ticks are taken out by withholding one tick in 23,747. -/
theorem test_slew :
    (correctTime (-4211) { State.reset with bus := { clock := { synced := true } } }).bus.clock.slew = some (23747, 23747, 100000000, false) := by decide +kernel

/-- Wardens, worked example: a standby that last heard claim 0x0031 takes 0x0032. -/
theorem test_takeoverClaim :
    nextClaim { State.reset with ward := { rackClaim := 0x0030, rackStages := [(32, { claim := 0x0031, at_ := some 0 })] } } 0 = 0x0032 := by decide +kernel

/-- Set-up register index: LINK.CTLk resets to 0xD23 (PF offset 0x1340). -/
theorem test_linkCtlReset : readReg .reset 0 0x1340 = 0xD23 := by decide +kernel

/-- Set-up register index, worked example: the identity word of VF 7 of a variant 2 part with die revision 0x11. -/
theorem test_identityWord :
    readReg { State.reset with mgmt := { fuses := { variant := 2, dieRev := 0x11 } }, host := { fns := [(7, { present := true })] } } 7 0 = 0x7112 := by decide +kernel


/-! ### States that the witnesses are made of -/

def stw : State := { ao := { aux := true }, sup := { steward := true, mainEn := true, mainIn := true, regs := true } }
def live : State := { stw with
  sup := { steward := true, mainEn := true, mainIn := true, regs := true, planes := true, modReady := true, perstHigh := true },
  host := { fns := [(0, { present := true, mse := true, bme := true })], linkUp := true, ready := true } }











/-- A frame of another node. -/
def fr (msg src : Nat) (body : Bytes) (addr : Bool := false) (dest : Nat := 0) (seq : Nat := 5) (len : Nat := body.length) (ver : Nat := 1) (cls : Nat := msg / 16) : Frame :=
  { id := cls * 2 ^ 26 + msg * 2 ^ 18 + (if addr then 2 ^ 12 else 0) + dest * 64 + src, data := [BitVec.ofNat 8 len, BitVec.ofNat 8 seq, BitVec.ofNat 8 ver, 0] ++ body }
def hb (src claim flags rack : Nat) : Frame := fr 0x20 src (packFlds 16 [(0, 2, claim), (2, 1, flags), (3, 1, rack), (8, 8, 77)])
/-- Both buses joined, rack warden commissioned. -/
def joined : State := { stw with bus := { rack := { join := .joined }, row := { join := .joined } }, ward := { rackRole := true, rowRole := true, rackClaim := 5, rowClaim := 6 }, ao := { slotId := 3, rackId := 2 }, now := 500000000 }






/-- A descriptor: opcode, flags, length, operand fields. -/
def ds (op : Nat) (l : List Fld) (len fl : Nat := 0) : Bytes := packFlds 64 ([(0, 1, op), (1, 1, fl), (4, 4, len), (8, 8, 0x1234)] ++ l)
def pf : Fn := { present := true, mse := true, bme := true }
def act : Cage := { st := .active, limit := 64, clusLimit := 64, shadowOk := true, ctxLimit := 8, collLimit := 4, groupLimit := 4 }
/-- A running data plane with ring 0 of function f bound, its head descriptor d. -/
def rst (d : Bytes) (f : Nat := 0) : State := { live with
  host := { live.host with vfEn := true, vfMse := true, fns := [(0, pf), (2, pf)] },
  cages := { cages := [(0, act), (2, act)] , pages := [(0, { st := .resident, frame := 1 }), (1, { st := .resident, frame := 2 }), (131072, { st := .resident, frame := 3 })] },
  mem := { trainEnded := true },
  rings := { rings := [(16 * f, { en := true, reg := { sq := 1, cq := 1 }, taken := { sq := 1, cq := 0x3000 }, p := 9, f := 5 })], slots := [(0, { st := .bound, ring := 16 * f, buf := [(4, d)] })] } }

def b8 : State := rst (ds 0 [])
/-- Link 3 of a running data plane. -/
def lk (l : Lk) (s : State := b8) : State := { s with links := [(3, l)], mgmt := { fuses := { dsn := 7 } } }
def L0 : Lk := { st := .up, tx := [0, 1, 2, 3].map fun v => (v, { held := 9 }), lastAcc := 4, anyAcc := true, tokens := 1 }
def hello (l : List Fld) : Bytes := sealFlit (packFlds 60 ([(0, 4, 0), (6, 1, 8)] ++ l))
def msg1 (v : Nat) : Bytes := if v = 0 then mkShort 0x41 0 7 0 0 [] else if v = 3 then mkShort 2 0 7 5 0 [] else mkShort 0x12 0 7 0 0 []
def mrd_ (key off n : Nat) : Bytes := (mkShort 2 0 7 key off []).set 2 (BitVec.ofNat 8 n)
def mwr_ (key off n : Nat) (ack : Bool) : Bytes := mkMsg 1 n (b2n ack) 7 key off (List.replicate (64 * n) 6)
def inb (v : Nat) (m : Bytes) (f : Lk → Lk := id) (s : State := b8) : State := lk (f { L0 with rx := [(v, { inbox := [m, msg1 3], buf := 4 })] }) s
def grp0 : CollGroup := { cage := 2, gid := 5, p := 4, rank := 1, strands := 2, chunkMax := 14, agOnly := false, succ := [3, 4], pred := [5, 6], waitUs := 100, quarter := 0, createCtx := none, bufs := [(1, { base := 0, len := 0x10000, key := 5 })], keysSucc := [(1, 9)], keysPred := [(1, 8)] }
def coll (g : CollGroup) (s : State := b8) : State := { s with coll := { groups := [(4, some g)], keys := [(5, some (4, 1))] } }
def op0 : CollOp := { ctx := 9, seq := 2, rs := true, index := 1, dtype := 1, op := 0, acc32 := false, bulk := false, logC := 12, offset := 0, count := 4096, issueAt := 0, started := true, readySent := true, gate := true }

/-- The descriptor at the head of slot 0. -/
def headOf (s : State) : Bytes := ((s.slot 0).buf.headD (0, [])).2
/-- A frame whose sender has left no SEQ behind, or that is not of a retried message, repeats nothing. -/
theorem notRepeats {s : State} {b : Nat} {f : Frame} (h : retriedMsg f.msg = false ∨ tget none (s.onBus b).last (256 * f.src + f.msg) = none) : ¬Repeats s b f := by
  rintro ⟨h1, _, h2, _⟩
  rcases h with h | h
  · rw [h] at h1; cases h1
  · rw [h] at h2; cases h2

/-! ### One step on a small state -/

/-- The state an outcome answers, or the reset state where it stops. -/
def after (o : Out) : State := match o with | .next t => t | _ => .reset

/-- VF 7 with the bases of its ring 3 written (set-up register index, worked example). -/
def vf7 : State := { live with
  host := { live.host with vfEn := true, vfMse := true, fns := [(7, { present := true, mse := true, bme := true })] },
  rings := { rings := [(115, { reg := { sq := 0x1234500000, cq := 0x1234600000 } })] } }

/-- Set-up register index, worked example: the write of 0x0A0E00D5 enables ring 3 and reads back. -/
theorem test_ringEnSet : readReg (after (exec (.ringEnSet 7 3 0x0A0E00D5) vf7)) 7 0x270 = 0x0A0E00D5 := by decide +kernel

/-- ... and while the ring is enabled a write of 0x0A0E0095 changes nothing. -/
theorem test_ringCfgKept :
    readReg (after (exec (.registerWrite 7 0x270 4 0x0A0E0095) (after (exec (.ringEnSet 7 3 0x0A0E00D5) vf7)))) 7 0x270 = 0x0A0E00D5 := by decide +kernel

/-- R196: a NOP ends with status OK and its tag. -/
theorem test_nop : ((after (exec (.nop 0 0) (rst (ds 0 [])))).ctx 0).status = 0 ∧ ((after (exec (.nop 0 0) (rst (ds 0 [])))).ctx 0).tag = 0x1234 := by decide +kernel

/-- R41, R45: a die trip sets the kill latch and takes MAIN_EN low; the steward runs on. -/
theorem test_dieTrip : (after (exec .dieTrip live)).ao.latch = true ∧ (after (exec .dieTrip live)).sup.mainEn = false ∧ (after (exec .dieTrip live)).stew = true := by decide +kernel

/-- R431: LINK.CTLk.EN = 0 disables the link. -/
theorem test_linkEnClear : ((after (exec (.linkEnClear 3 0x0FF2) (lk L0))).link 3).en = false := by decide +kernel

/-- R502: SET_CAP of 850 W sets c_set. -/
theorem test_setCap :
    (after (exec .setCap { stw with mgmt := { disp := some (17, packFlds 64 [(16, 1, 1), (17, 1, 1), (24, 2, 850)]) } })).power.cSet = 850 := by decide +kernel

/-- R364: an access beyond the last line of device memory stops. -/
theorem test_noSuchLine : exec (.stackLineAccess (2 ^ 31) .read .clean) live = .fault .noSuchLine := rfl


namespace HostSide

def fz (f : Fn → Fn) : State := live.modFn 0 f
def pf1 : Fn := { present := true, mse := true, bme := true }
def ring0 (s : State) : State := s.modRings fun r => { r with rings := [(0, { en := true, taken := { size := 6 }, reg := { size := 6 } }), (3, { en := true })] }
def vfs : State := live.modHost fun h => { h with vfEn := true, vfMse := true, numVfs := 2, fns := [(0, pf1), (1, pf1), (2, { pf1 with rrs := true })] }
def polls : State := ring0 (fz fun x => { x with dblEn := true, reading := true, dblAddr := 0x4000 })
def rq (id : Nat) (len : Nat := 64) (xl wr : Bool := false) (why : Why := .copyIn 3 0) : HReq := { id := id, fn := 0, addr := 0x5040, len := len, wr := wr, why := why, xl := xl }
def reqS (l : List HReq) : State := live.modHost fun h => { h with reqs := l }

/-- The hypotheses of each clause of Obligations.ConfigRequestsAnswered are met together. -/
theorem test_witness_ConfigRequestsAnswered :
    (∃ (s : State) (f : Nat), Answers s f) ∧
    (∃ (s : State), s.host.linkUp = true ∧ s.host.ready = false) ∧
    (∃ (s : State) (f : Nat), s.host.linkUp = true ∧ s.host.ready = true ∧ (s.fn f).present = false) ∧
    (∃ (s : State) (f : Nat), s.host.linkUp = true ∧ s.host.ready = true ∧ (s.fn f).present = true ∧ (s.fn f).rrs = true) :=
  ⟨⟨live, 0, by unfold Answers; decide⟩,
   ⟨{ live with host := { live.host with ready := false } }, by decide, by decide⟩,
   ⟨live, 1, by decide, by decide, by decide⟩,
   ⟨vfs, 2, by decide, by decide, by decide, by decide⟩⟩

/-- The hypotheses of each clause of Obligations.ConfigurationCommands are met together. -/
theorem test_witness_ConfigurationCommands :
    (∃ (s : State), s.up = true ∧ s.host.linkUp = true) ∧
    (∃ (s : State) (f : Nat), Answers s f) ∧
    (∃ (s : State) (f : Nat), Answers s f ∧ (s.fn f).flr = false ∧ (s.fn f).d3 = false) ∧
    (∃ (s : State), Answers s 0 ∧ s.host.vfEn = false ∧ (s.host.numVfs ≤ 7 ∨ s.host.ari = true)) ∧
    (∃ (s : State), Answers s 0 ∧ s.host.vfEn = false ∧ 7 < s.host.numVfs ∧ s.host.ari = false) ∧
    (∃ (s : State), Answers s 0 ∧ s.host.vfEn = true) ∧
    (∃ (s : State), s.up = true ∧ (∀ (v : Nat), 1 ≤ v → v ≤ 255 → (s.fn v).flr = false)) :=
  ⟨⟨live, by decide, by decide⟩,
   ⟨live, 0, by unfold Answers; decide⟩,
   ⟨live, 0, by unfold Answers; decide, by decide, by decide⟩,
   ⟨live, by unfold Answers; decide, by decide, by decide⟩,
   ⟨live.modHost fun h => { h with numVfs := 9 }, by unfold Answers; decide, by decide, by decide, by decide⟩,
   ⟨vfs, by unfold Answers; decide, by decide⟩,
   ⟨live, by decide, fun v _ _ => by unfold State.fn live; simp only [tget]; split <;> rfl⟩⟩

/-- The hypotheses of each clause of Obligations.FunctionResets are met together. -/
theorem test_witness_FunctionResets :
    (∃ (s : State) (f : Nat), Answers s f ∧ f ≠ 0 ∧ (s.fn f).flr = false) ∧
    (∃ (s : State), Answers s 0 ∧ (s.fn 0).flr = false) ∧
    (∃ (s : State) (f : Nat), Answers s f ∧ (s.fn f).flr = true) ∧
    (∃ (s : State) (f : Nat), s.up = true ∧ (s.fn f).flr = true) :=
  ⟨⟨vfs, 1, by unfold Answers; decide, by decide, by decide⟩,
   ⟨live, by unfold Answers; decide, by decide⟩,
   ⟨{ vfs with host := { vfs.host with fns := [(0, pf1), (1, { pf1 with flr := true, d3Pending := true })] } }, 1, by unfold Answers; decide, by decide⟩,
   ⟨{ vfs with host := { vfs.host with fns := [(0, pf1), (1, { pf1 with flr := true, d3Pending := true })] } }, 1, by decide, by decide⟩⟩

/-- The hypotheses of each clause of Obligations.ErrorsAreLogged are met together. -/
theorem test_witness_ErrorsAreLogged :
    (∃ (s : State), s.up = true) ∧
    (∃ (s : State) (f : Nat), Reaches s f) ∧
    (∃ (s : State) (f : Nat), s.up = true ∧ (s.fn f).ecrc = true) ∧
    (∃ (s : State) (f : Nat) (id : Nat) (r : HReq), s.up = true ∧ (s.fn f).ecrc = true ∧ ReadOut s id r) ∧
    (∃ (s : State) (f : Nat), s.up = true ∧ (s.fn f).ecrc = false) :=
  ⟨⟨live, by decide⟩,
   ⟨live, 0, by unfold Reaches; decide⟩,
   ⟨fz (fun x => { x with ecrc := true, aerCor := [.receiverError], msixEn := true, bme := false }), 0, by decide, by decide⟩,
   ⟨{ reqS [rq 1, rq 2] with host := { (reqS [rq 1, rq 2]).host with fns := [(0, { pf1 with ecrc := true })] } }, 0, 1, _, by decide, by decide, rfl⟩,
   ⟨live, 0, by decide, by decide⟩⟩

/-- The hypotheses of each clause of Obligations.RequestsEnd are met together. -/
theorem test_witness_RequestsEnd :
    (∃ (s : State) (id : Nat) (r : HReq) (bs : Bytes), s.up = true ∧ ReadOut s id r ∧ List.length bs = r.len) ∧
    (∃ (s : State) (id : Nat) (r : HReq), s.up = true ∧ ReadOut s id r) ∧
    (∃ (s : State) (id : Nat), s.up = true ∧ (∀ (r : HReq), ¬ReadOut s id r)) ∧
    (∃ (s : State) (f : Nat) (d : DblRead) (rest : List DblRead), s.up = true ∧ (s.fn f).readsOut = d :: rest ∧ d.discard = false) ∧
    (∃ (s : State) (i : Nat) (w : W32 × Nat), s.up = true ∧ (s.slot i).rd = some w) ∧
    (∃ (s : State) (id : Nat) (r : HReq), s.up = true ∧ XlOut s id r) ∧
    (∃ (s : State) (id : Nat) (r : HReq) (rd : Bool) (wr : Bool), s.up = true ∧ XlOut s id r ∧ (if r.wr = true then wr else rd) = true) ∧
    (∃ (s : State), s.up = true) ∧
    (∃ (s : State) (f : Nat) (base : Nat) (log2 : Nat), s.up = true ∧ { fn := f, base := base, log2 := log2 } ∈ s.host.invals ∧ rangeUsed s f base log2 = false) :=
  ⟨⟨reqS [rq 1, rq 2], 1, _, List.replicate 64 0, by decide, rfl, by decide⟩,
   ⟨reqS [rq 1, rq 2], 1, _, by decide, rfl⟩,
   ⟨live, 0, by decide, fun _ h => by cases h⟩,
   ⟨fz (fun x => { x with dblEn := true, dblAddr := 0x4000, reading := true, readsOut := [{ kind := .poll, discard := false }, { kind := .poll, discard := false }] }), 0, _, _, by decide, rfl, by decide⟩,
   ⟨{ live with rings := { slots := [(0, { st := .bound, ring := 0, rd := some (0, 2) })] } }, 0, _, by decide, rfl⟩,
   ⟨reqS [rq 2 (xl := true), rq 1 (xl := true) (wr := true)], 1, _, by decide, rfl⟩,
   ⟨reqS [rq 2 (xl := true), rq 1 (xl := true) (wr := true)], 1, _, false, true, by decide, rfl, by decide⟩,
   ⟨live, by decide⟩,
   ⟨live.modHost fun h => { h with invals := [{ fn := 0, base := 0x5000, log2 := 12 }] }, _, _, _, by decide, List.mem_of_getElem? (i := 0) rfl, by decide⟩⟩

/-- The hypotheses of each clause of Obligations.InterruptsAndMessages are met together. -/
theorem test_witness_InterruptsAndMessages :
    (∃ (s : State) (f : Nat) (v : Nat), Reaches s f ∧ v < vecCount f) ∧
    (∃ (s : State) (f : Nat) (r : Nat), s.up = true ∧ r < 16 ∧ (s.ring (ringKey f r)).coalRun = true) ∧
    (∃ (s : State) (f : Nat), s.up = true ∧ (s.rpt f).coalRun = true) ∧
    (∃ (s : State), s.up = true ∧ l1Allowed s = true) ∧
    (∃ (s : State), s.up = true ∧ s.sup.steward = true) ∧
    (∃ (s : State), s.up = true ∧ s.sup.steward = false) ∧
    (∃ (s : State) (f : Nat), s.up = true ∧ f ≠ 0) :=
  ⟨⟨live, 0, 0, by unfold Reaches; decide, by decide⟩,
   ⟨{ live with rings := { rings := [(3, { en := true, coalRun := true, unann := 4, taken := { vector := 3 } })], rpts := [(0, { en := true, coalRun := true, unann := 2 })] } }, 0, 3, by decide, by decide, by decide⟩,
   ⟨{ live with rings := { rings := [(3, { en := true, coalRun := true, unann := 4, taken := { vector := 3 } })], rpts := [(0, { en := true, coalRun := true, unann := 2 })] } }, 0, by decide, by decide⟩,
   ⟨{ live with host := { live.host with inL1 := true, aspmL1 := true } }, by decide, by decide⟩,
   ⟨live, by decide, by decide⟩,
   ⟨{ live with sup := { live.sup with steward := false } }, by decide, by decide⟩,
   ⟨live, 1, by decide, by decide⟩⟩

/-- The hypotheses of each clause of Obligations.DoorbellLines are met together. -/
theorem test_witness_DoorbellLines :
    (∃ (s : State) (f : Nat), Reaches s f ∧ (s.fn f).dblEn = false ∧ (s.fn f).dblAddr ≠ 0) ∧
    (∃ (s : State) (f : Nat), Reaches s f ∧ (s.fn f).dblEn = false ∧ (s.fn f).dblAddr = 0) ∧
    (∃ (s : State) (f : Nat), Reaches s f ∧ (s.fn f).dblEn = true) ∧
    (∃ (s : State) (f : Nat) (a : W64), s.up = true ∧ usesLn (s.fn f) = false ∧ (s.fn f).reading = true ∧ dblTags s < 64 ∧ xlate s f (s.fn f).dblAddr false = Xl.go a) ∧
    (∃ (s : State) (f : Nat), s.up = true ∧ usesLn (s.fn f) = false ∧ (s.fn f).reading = true ∧ 64 ≤ dblTags s) ∧
    (∃ (s : State) (f : Nat) (k : DblKind) (a : W64), s.up = true ∧ (s.fn f).tagWait = some k ∧ (s.fn f).reading = true ∧ dblTags s < 64 ∧ xlate s f (s.fn f).dblAddr false = Xl.go a) ∧
    (∃ (s : State) (f : Nat) (a : W64), s.up = true ∧ usesLn (s.fn f) = true ∧ (s.fn f).lnRegistered = true ∧ (s.fn f).reading = true ∧ dblTags s < 64 ∧ xlate s f (s.fn f).dblAddr false = Xl.go a) ∧
    (∃ (s : State) (f : Nat) (a : W64), s.up = true ∧ usesLn (s.fn f) = true ∧ (s.fn f).reading = true ∧ dblTags s < 64 ∧ xlate s f (s.fn f).dblAddr false = Xl.go a) ∧
    (∃ (s : State) (f : Nat) (d : DblRead) (rest : List DblRead) (bs : Bytes), s.up = true ∧ (s.fn f).readsOut = d :: rest ∧ d.discard = false ∧ List.length bs = 64 ∧ (∀ (r : Nat), r < 16 → (s.ring (ringKey f r)).en = true → lineIndex bs r = tget 0 (s.fn f).prev r)) ∧
    (∃ (s : State) (f : Nat) (d : DblRead) (rest : List DblRead) (bs : Bytes) (k : Nat), s.up = true ∧ (s.fn f).readsOut = d :: rest ∧ d.discard = false ∧ List.length bs = 64 ∧ k < 16 ∧ (s.ring (ringKey f k)).en = true ∧ lineIndex bs k ≠ tget 0 (s.fn f).prev k) ∧
    (∃ (s : State) (f : Nat) (d : DblRead) (rest : List DblRead) (res : ReadResult), s.up = true ∧ (s.fn f).readsOut = d :: rest ∧ d.discard = false ∧ (res = ReadResult.ur ∨ res = ReadResult.ca) ∧ (s.fn f).fails < 2) ∧
    (∃ (s : State) (f : Nat) (d : DblRead) (rest : List DblRead) (res : ReadResult), s.up = true ∧ (s.fn f).readsOut = d :: rest ∧ d.discard = true ∧ (res = ReadResult.ur ∨ res = ReadResult.ca)) :=
  ⟨⟨fz (fun x => { x with dblAddr := 0x4000 }), 0, by unfold Reaches; decide, by decide, by decide⟩,
   ⟨live, 0, by unfold Reaches; decide, by decide, by decide⟩,
   ⟨fz (fun x => { x with dblEn := true, dblAddr := 0x4000, reading := true, readsOut := [{ kind := .poll, discard := false }, { kind := .poll, discard := false }] }), 0, by unfold Reaches; decide, by decide⟩,
   ⟨fz (fun x => { x with dblEn := true, dblAddr := 0x4000, reading := true, readsOut := [{ kind := .poll, discard := false }, { kind := .poll, discard := false }] }), 0, _, by decide, by decide, by decide, by decide, rfl⟩,
   ⟨ring0 (fz fun x => { x with dblEn := true, reading := true, dblAddr := 0x4000, readsOut := List.replicate 64 { kind := .poll, discard := false } }), 0, by decide, by decide, by decide, by decide⟩,
   ⟨ring0 (fz fun x => { x with dblEn := true, reading := true, tagWait := some .poll, dblAddr := 0x4000 }), 0, _, _, by decide, rfl, by decide, by decide, rfl⟩,
   ⟨ring0 (fz fun x => { x with dblEn := true, dblLn := true, lnrEn := true, lnrLimit := 4, reading := true, lnRegistered := true, dblAddr := 0x4000 }), 0, _, by decide, by decide, by decide, by decide, by decide, rfl⟩,
   ⟨ring0 (fz fun x => { x with dblEn := true, dblLn := true, lnrEn := true, lnrLimit := 4, reading := true, lnRegistered := true, dblAddr := 0x4000 }), 0, _, by decide, by decide, by decide, by decide, rfl⟩,
   ⟨fz (fun x => { x with dblEn := true, dblAddr := 0x4000, reading := true, readsOut := [{ kind := .poll, discard := false }, { kind := .poll, discard := false }] }), 0, _, _, List.replicate 64 0, by decide, rfl, by decide, by decide, by decide⟩,
   ⟨ring0 (fz fun x => { x with dblEn := true, reading := true, dblAddr := 0x4000, readsOut := List.replicate 64 { kind := .poll, discard := false } }), 0, _, _, List.replicate 64 5, 0, by decide, rfl, by decide, by decide, by decide, by decide, by decide⟩,
   ⟨fz (fun x => { x with dblEn := true, dblAddr := 0x4000, reading := true, readsOut := [{ kind := .poll, discard := false }, { kind := .poll, discard := false }] }), 0, _, _, .ur, by decide, rfl, by decide, by decide, by decide⟩,
   ⟨ring0 (fz fun x => { x with dblEn := true, reading := true, dblAddr := 0x4000, fails := 1, readsOut := [{ kind := .poll, discard := true }] }), 0, _, _, .ur, by decide, rfl, by decide, by decide⟩⟩

end HostSide

namespace Ring

def good : List Bytes := [ds 0 [], ds 1 [(16, 8, 0x9000), (24, 8, 0x100)] 256, ds 2 [(16, 8, 0x100), (24, 8, 0x9000)] 256, ds 3 [(16, 8, 0x100), (24, 8, 0x200100)] 256, ds 4 [(16, 8, 0x100), (24, 8, 5)] 256 2,
  ds 5 [(16, 1, 3), (24, 8, 77)], ds 6 [(16, 1, 3), (20, 4, 5), (24, 8, 0)], ds 6 [(16, 1, 3), (24, 8, 9)], ds 7 [(16, 8, 0x9000), (24, 8, 66)], ds 8 [(16, 1, 2), (17, 1, 3), (18, 2, 9)], ds 8 [(16, 1, 3), (17, 1, 3), (18, 2, 9)], ds 0x10 [(16, 8, 0), (24, 4, 64)], ds 0x30 [(16, 8, 4)]]
def bads : List Bytes := [ds 0 [(16, 1, 1)], ds 1 [] 0, ds 2 [] 0, ds 3 [] 0, ds 4 [] 0, ds 5 [(16, 1, 99)], ds 6 [(16, 1, 99)], ds 7 [(16, 1, 1)], ds 8 [], ds 0x10 [], ds 0x11 [(16, 1, 9)], ds 0x12 [], ds 0x13 [], ds 0x14 [(16, 1, 1)], ds 0x18 [], ds 0x19 [], ds 0x1A [(28, 1, 255)], ds 0x20 [], ds 0x21 [(16, 1, 99)], ds 0x22 [], ds 0x23 [], ds 0x24 [], ds 0x30 [(2, 1, 1)], ds 0x77 []]
def sl (x : Slot) (r : Ring := { en := true, taken := { sq := 0x1000, cq := 0x3000 }, p := 9, f := 5 }) : State := { rst [] with rings := { rings := [(0, r)], slots := [(0, x)] } }
def cx (c : Ctx) (r : Ring := { en := true, taken := { sq := 0x1000, cq := 0x3000 } }) : State := { rst [] with rings := { rings := [(0, r)], ctxs := [(1, c)], events := [(3, 8)] } }

/-- The hypotheses of each clause of Obligations.ChecksBeforeExecution are met together. -/
theorem test_witness_ChecksBeforeExecution :
    (∃ (x : Nat × OpSpec × (Nat → Nat → Instr)) (s : State) (f : Nat) (r : Nat) (e : Cand) (df : Tbl Nat) (p : W32) (d : Bytes) (st : Nat) (dt : Nat), x ∈ ringTable ∧ turnOf s f r = some (e, df, p, d) ∧ descOp d = x.fst ∧ runChecks x.snd.fst ((s.slot e.snd.fst).ring / 16) d (took e df p d s) = some (st, dt)) ∧
    (∃ (x : Nat × OpSpec × (Nat → Nat → Instr)) (s : State) (f : Nat) (r : Nat), x ∈ ringTable ∧ turnOf s f r = none) ∧
    (∃ (s : State) (f : Nat) (r : Nat) (e : Cand) (df : Tbl Nat) (p : W32) (d : Bytes), turnOf s f r = some (e, df, p, d) ∧ (¬descOp d ∈ List.map (fun x => x.fst) ringTable)) ∧
    (∃ (s : State) (f : Nat) (r : Nat) (e : Cand) (df : Tbl Nat) (p : W32) (d : Bytes), turnOf s f r = some (e, df, p, d)) :=
  ⟨⟨_, rst (ds 0 [(16, 1, 1)]), 0, 0, (0, 0, 1), [(0, 15)], 4, headOf (rst (ds 0 [(16, 1, 1)])), _, _, List.mem_of_getElem? (i := 0) rfl, by decide +kernel, by decide, rfl⟩,
   ⟨_, State.reset, 0, 0, List.mem_of_getElem? (i := 0) rfl, by decide⟩,
   ⟨rst (ds 0x77 []), 0, 0, (0, 0, 1), [(0, 15)], 4, headOf (rst (ds 0x77 [])), by decide +kernel, by decide⟩,
   ⟨rst (ds 0 []), 0, 0, (0, 0, 1), [(0, 15)], 4, headOf (rst (ds 0 [])), by decide +kernel⟩⟩

/-- The hypotheses of each clause of Obligations.SmallCommands are met together. -/
theorem test_witness_SmallCommands :
    (∃ (s : State) (f : Nat) (r : Nat) (e : Cand) (df : Tbl Nat) (p : W32) (d : Bytes), Taken specNop 0 f r s e df p d) ∧
    (∃ (s : State) (f : Nat) (r : Nat) (e : Cand) (df : Tbl Nat) (p : W32) (d : Bytes), Taken specSignal 5 f r s e df p d) ∧
    (∃ (s : State) (f : Nat) (r : Nat) (e : Cand) (df : Tbl Nat) (p : W32) (d : Bytes), Taken specWait 6 f r s e df p d ∧ opB d ≤ BitVec.toNat (s.event ((s.slot e.snd.fst).ring / 16) (byteAt d 16))) ∧
    (∃ (s : State) (f : Nat) (r : Nat) (e : Cand) (df : Tbl Nat) (p : W32) (d : Bytes), Taken specWait 6 f r s e df p d ∧ BitVec.toNat (s.event ((s.slot e.snd.fst).ring / 16) (byteAt d 16)) < opB d) ∧
    (∃ (s : State) (n : Nat), s.up = true ∧ (s.ctx n).ph = CtxPh.held ∧ (s.ctx n).op = 6 ∧ opB (s.ctx n).desc ≤ waitCounter s n) ∧
    (∃ (s : State) (n : Nat), s.up = true ∧ (s.ctx n).ph = CtxPh.held ∧ (s.ctx n).op = 6 ∧ waitCounter s n < opB (s.ctx n).desc) ∧
    (∃ (s : State) (f : Nat) (r : Nat) (e : Cand) (df : Tbl Nat) (p : W32) (d : Bytes) (a : W64), Taken specHostWrite 7 f r s e df p d ∧ (s.fn ((s.slot e.snd.fst).ring / 16)).bme = true ∧ xlate s ((s.slot e.snd.fst).ring / 16) (BitVec.ofNat 64 (opA d)) true = Xl.go a) ∧
    (∃ (s : State) (f : Nat) (r : Nat) (e : Cand) (df : Tbl Nat) (p : W32) (d : Bytes), Taken specSched 8 f r s e df p d ∧ (s.cage (byteAt d 16)).st = CageSt.active) ∧
    (∃ (s : State) (f : Nat) (r : Nat) (e : Cand) (df : Tbl Nat) (p : W32) (d : Bytes), Taken specSched 8 f r s e df p d ∧ (s.cage (byteAt d 16)).st ≠ CageSt.active) ∧
    (∃ (s : State) (f : Nat) (r : Nat) (e : Cand) (df : Tbl Nat) (p : W32) (d : Bytes), Taken specPolicy 48 f r s e df p d) :=
  ⟨⟨rst (ds 0 []), 0, 0, (0, 0, 1), [(0, 15)], 4, headOf (rst (ds 0 [])), by unfold Taken; decide +kernel⟩,
   ⟨rst (ds 5 [(16, 1, 3), (24, 8, 77)]), 0, 0, (0, 0, 1), [(0, 15)], 4, headOf (rst (ds 5 [(16, 1, 3), (24, 8, 77)])), by unfold Taken; decide +kernel⟩,
   ⟨rst (ds 6 [(16, 1, 3), (20, 4, 5), (24, 8, 0)]), 0, 0, (0, 0, 1), [(0, 15)], 4, headOf (rst (ds 6 [(16, 1, 3), (20, 4, 5), (24, 8, 0)])), by unfold Taken; decide +kernel, by decide⟩,
   ⟨rst (ds 6 [(16, 1, 3), (24, 8, 9)]), 0, 0, (0, 0, 1), [(0, 15)], 4, headOf (rst (ds 6 [(16, 1, 3), (24, 8, 9)])), by unfold Taken; decide +kernel, by decide⟩,
   ⟨cx { ph := .held, op := 6, desc := ds 6 [(16, 1, 3), (24, 8, 8)] }, 1, by decide, by decide, by decide, by decide⟩,
   ⟨cx { ph := .held, op := 6, desc := ds 6 [(16, 1, 3), (24, 8, 9)] }, 1, by decide, by decide, by decide, by decide⟩,
   ⟨rst (ds 7 [(16, 8, 0x9000), (24, 8, 66)]), 0, 0, (0, 0, 1), [(0, 15)], 4, headOf (rst (ds 7 [(16, 8, 0x9000), (24, 8, 66)])), _, by unfold Taken; decide +kernel, by decide, rfl⟩,
   ⟨rst (ds 8 [(16, 1, 2), (17, 1, 3), (18, 2, 9)]), 0, 0, (0, 0, 1), [(0, 15)], 4, headOf (rst (ds 8 [(16, 1, 2), (17, 1, 3), (18, 2, 9)])), by unfold Taken; decide +kernel, by decide⟩,
   ⟨rst (ds 8 [(16, 1, 3), (17, 1, 3), (18, 2, 9)]), 0, 0, (0, 0, 1), [(0, 15)], 4, headOf (rst (ds 8 [(16, 1, 3), (17, 1, 3), (18, 2, 9)])), by unfold Taken; decide +kernel, by decide⟩,
   ⟨rst (ds 0x30 [(16, 8, 4)]), 0, 0, (0, 0, 1), [(0, 15)], 4, headOf (rst (ds 0x30 [(16, 8, 4)])), by unfold Taken; decide +kernel⟩⟩

/-- The hypotheses of each clause of Obligations.TransfersBegin are met together. -/
theorem test_witness_TransfersBegin :
    ∃ (x : Nat × OpSpec × (Nat → Nat → Instr) × (Bytes → List Nat × List Nat)) (s : State) (f : Nat) (r : Nat) (e : Cand) (df : Tbl Nat) (p : W32) (d : Bytes), x ∈ [(1, specH2d, Instr.copyH2d, fun d => (pagesOf (opB d) (opLen d), pagesOf (opB d) (opLen d))), (2, specD2h, Instr.copyD2h, fun d => (pagesOf (opA d) (opLen d), [])), (3, specD2d, Instr.copyD2d, fun d => ((pagesOf (opA d) (opLen d) ++ pagesOf (opB d) (opLen d)).eraseDups, pagesOf (opB d) (opLen d))), (4, specFill, Instr.fill, fun d => (pagesOf (opA d) (opLen d), pagesOf (opA d) (opLen d))), (16, specAdmit, Instr.admitCmd, fun d => (pagesOf (fld d 16 8) (fld d 24 4), []))] ∧ Taken x.snd.fst x.fst f r s e df p d :=
  ⟨_, rst (ds 1 [(16, 8, 0x9000), (24, 8, 0x100)] 256), 0, 0, (0, 0, 1), [(0, 15)], 4, headOf (rst (ds 1 [(16, 8, 0x9000), (24, 8, 0x100)] 256)), List.mem_of_getElem? (i := 0) rfl, by unfold Taken; decide +kernel⟩

/-- The hypotheses of each clause of Obligations.RingsAndSlots are met together. -/
theorem test_witness_RingsAndSlots :
    (∃ (s : State) (i : Nat), s.up = true ∧ (s.slot i).st = SlotSt.swapping) ∧
    (∃ (s : State) (i : Nat), s.up = true ∧ (s.slot i).st = SlotSt.loading) ∧
    (∃ (s : State) (i : Nat), s.up = true ∧ (s.slot i).st = SlotSt.bound ∧ (s.slot i).idleOrd.isSome = true) ∧
    (∃ (s : State) (i : Nat), s.up = true ∧ (s.slot i).st = SlotSt.bound) ∧
    (∃ (s : State) (f : Nat) (i : Nat) (v : W32), Reaches s f ∧ i < 16 ∧ (s.ring (ringKey f i)).en = false ∧ 6 ≤ bits (BitVec.toNat v) 5 1 ∧ bits (BitVec.toNat v) 5 1 ≤ 16 ∧ bits (BitVec.toNat v) 16 6 < vecCount f ∧ (s.ring (ringKey f i)).reg.sq ≠ 0 ∧ (s.ring (ringKey f i)).reg.cq ≠ 0) ∧
    (∃ (s : State) (f : Nat) (i : Nat) (v : W32), Reaches s f ∧ i < 16 ∧ (s.ring (ringKey f i)).en = false ∧ (bits (BitVec.toNat v) 5 1 < 6 ∨ 16 < bits (BitVec.toNat v) 5 1 ∨ vecCount f ≤ bits (BitVec.toNat v) 16 6 ∨ (s.ring (ringKey f i)).reg.sq = 0 ∨ (s.ring (ringKey f i)).reg.cq = 0)) ∧
    (∃ (s : State) (f : Nat) (i : Nat), Reaches s f ∧ i < 16 ∧ (s.ring (ringKey f i)).en = true) ∧
    (∃ (s : State) (f : Nat) (v : W32), Reaches s f ∧ (s.rpt f).en = false ∧ 6 ≤ bits (BitVec.toNat v) 5 1 ∧ bits (BitVec.toNat v) 5 1 ≤ 16 ∧ bits (BitVec.toNat v) 16 6 < vecCount f ∧ (s.rpt f).reg.sq ≠ 0) ∧
    (∃ (s : State) (f : Nat), Reaches s f ∧ (s.rpt f).en = true) ∧
    (∃ (s : State) (i : Nat) (a : W64), s.up = true ∧ (s.slot i).st = SlotSt.bound ∧ (s.slot i).rd = none ∧ (s.slot i).failAt = none ∧ fetchWindow s i ≠ 0 ∧ (s.ring (s.slot i).ring).en = true ∧ (s.fn ((s.slot i).ring / 16)).bme = true ∧ s.host.fetchStopped = false ∧ xlate s ((s.slot i).ring / 16) (descAddr (s.ring (s.slot i).ring) (s.ring (s.slot i).ring).f) false = Xl.go a) ∧
    (∃ (s : State) (i : Nat) (bs : Bytes) (q : W32) (n : Nat), s.up = true ∧ (s.slot i).rd = some (q, n) ∧ List.length bs = 64 * n) ∧
    (∃ (s : State) (i : Nat) (q : W32) (n : Nat), s.up = true ∧ (s.slot i).rd = some (q, n)) ∧
    (∃ (s : State) (n : Nat), s.up = true ∧ (s.ctx n).ph = CtxPh.prep ∧ (s.ctx n).pinWait = true ∧ pinBlocked s (s.ctx n).cage (s.ctx n).pages (s.ctx n).wrPages = false) ∧
    (∃ (s : State) (n : Nat) (a : W64), s.up = true ∧ (s.ctx n).ph = CtxPh.ending ∧ (s.fn (s.ctx n).cage).bme = true ∧ (∀ (m : Nat), m ∈ (s.ctx n).after → (s.ctx m).ph.uncompleted = false) ∧ xlate s (s.ctx n).cage (cplAddr (s.ring (s.ctx n).ring)) true = Xl.go a) :=
  ⟨⟨sl { st := .swapping }, 0, by decide, by decide⟩,
   ⟨sl { st := .loading, ring := 0, boundOrd := 4 }, 0, by decide, by decide⟩,
   ⟨sl { st := .bound, idleOrd := some 3, buf := [(4, [1])] }, 0, by decide, by decide, by decide⟩,
   ⟨rst (ds 0 []), 0, by decide, by decide⟩,
   ⟨live.modRings fun r => { r with rings := [(0, { reg := { sq := 1, cq := 1 } }), (2, { reg := { sq := 1 } })], rpts := [(0, { reg := { sq := 64 } })] }, 0, 0, 0x0002000D, by unfold Reaches; decide, by decide, by decide, by decide, by decide, by decide, by decide, by decide⟩,
   ⟨live, 0, 0, 0, by unfold Reaches; decide, by decide, by decide, by decide⟩,
   ⟨rst (ds 0 []), 0, 0, by unfold Reaches; decide, by decide, by decide⟩,
   ⟨live.modRings fun r => { r with rings := [(0, { reg := { sq := 1, cq := 1 } }), (2, { reg := { sq := 1 } })], rpts := [(0, { reg := { sq := 64 } })] }, 0, 0x0002000D, by unfold Reaches; decide, by decide, by decide, by decide, by decide, by decide⟩,
   ⟨live.modRings fun r => { r with rings := [(0, { en := true, waiting := some 4 })], slots := [(3, { st := .bound, ring := 0 })], rpts := [(0, { en := true })], rptWait := [(0, { kind := 2, cage := 0, source := 0, rowTime := 5, body := [] })] }, 0, by unfold Reaches; decide, by decide⟩,
   ⟨rst (ds 0 []), 0, _, by decide, by decide, by decide, by decide, by decide, by decide, by decide, by decide, rfl⟩,
   ⟨sl { st := .bound, rd := some (5, 2) }, 0, List.replicate 128 5, _, _, by decide, rfl, by decide⟩,
   ⟨sl { st := .bound, rd := some (5, 2) }, 0, _, _, by decide, rfl⟩,
   ⟨cx { ph := .prep, pinWait := true, pages := [1] }, 1, by decide, by decide, by decide, by decide⟩,
   ⟨cx { ph := .ending, irq := true, after := [4] }, 1, _, by decide, by decide, by decide, by decide, rfl⟩⟩

end Ring

namespace Cage

def c6 (f : Nat) : List State := ([ds 0x18 [(16, 1, 5), (20, 4, 3), (24, 4, 9), (28, 1, 5), (29, 1, 2), (30, 1, 1), (31, 1, 1)], ds 0x18 [(16, 1, 2), (20, 4, 3), (24, 4, 9)], ds 0x18 [(16, 1, 6), (20, 4, 3), (24, 4, 9)], ds 0x1A [(16, 1, 2), (20, 4, 3), (24, 4, 9)], ds 0x1A [(16, 1, 7), (20, 4, 3), (24, 4, 9)], ds 0x1A [(16, 1, 5), (20, 4, 3), (24, 4, 9)],
  ds 0x19 [(16, 1, 2)], ds 0x19 [(16, 1, 5)], ds 0x19 [(16, 1, 7)], ds 0x14 [(16, 8, 0x10000), (24, 4, 6)], ds 0x14 [], ds 0x11 [(24, 8, 0x77)], ds 0x11 [(16, 1, 1)], ds 0x11 [(16, 1, 2), (17, 1, 2)], ds 0x11 [(24, 8, 0x78)],
  ds 0x12 [(16, 8, 10 * 2 ^ 21), (24, 4, 2)], ds 0x12 [(16, 8, 10 * 2 ^ 21), (24, 4, 2), (28, 1, 2)], ds 0x12 [(16, 8, 10 * 2 ^ 21), (24, 4, 99)], ds 0x13 [(16, 8, 0), (24, 4, 2)], ds 0x13 [(16, 8, 10 * 2 ^ 21), (24, 4, 2)]].map (rst · f)).map fun s =>
   s.modCages fun x => { x with cages := x.cages ++ [(5, { st := .dormant }), (7, { st := .ending })], frames := [(1, .held 0 0), (2, .held 0 1), (4, .clean), (5, .clean), (6, .clean)] }
def adm (ph : AdmPh) : Adm := { ctx := 9, cage := 2, tag := 0x77, ph := ph, n := 2, f := 40, image := List.replicate 4096 0 ++ List.replicate 64 5, w := [0], group := 3, clusters := [4, 5] }
def withAdm (a : Adm) (s : State) : State := { s with cages := { s.cages with adms := [a] }, beat := { s.beat with groups := [(3, { st := .running, ctx := 9, cage := 2, f := 40, clusters := [4, 5], beats := 3 })], clusters := [(4, { group := some 3 }), (5, { group := some 3, gateOk := true })] } }
def base : State := rst (ds 0 [])
def pg (p : Page) (l : List Move := []) : State := base.modCages fun x => { x with pages := [(131073, p)], moves := l }
def mv (ev : Bool) : Move := { cage := 2, page := 1, evict := ev, plan := 0, off := 2 ^ 21, running := true }
def grp (g : Group) (ok : Bool := true) (st : List Stream := []) : State := { withAdm { adm .running with clusters := [4, 5] } base with beat := { groups := [(3, { g with ctx := 9, cage := 2, f := 40, clusters := [4, 5] })], clusters := [(4, { group := some 3, gateOk := ok, fetched := List.replicate 128 0 }), (5, { group := some 3, gateOk := true, fetched := List.replicate 128 0, sp := [⟨3, 4⟩] })], streams := st } }
def strm : Stream := { id := 1, group := 3, lc := 1, op := 1, ctr := 2, sp := 0, x := 64, dest := 0, pieces := 2, left := [0, 1] }
def states1 : List State := c6 0
def states2 : List State := (c6 0).map (withAdm (adm .queued))
def states3 : List State := (c6 0).map (withAdm { adm .running with cage := 0 })
def states4 : List State := (c6 0).map (fun s => s.modCages fun x => { x with pages := [(0, { st := .evicted, slot := some 3 }), (10, { st := .resident, claimed := true })] })

/-- The hypotheses of each clause of Obligations.CageCommands are met together. -/
theorem test_witness_CageCommands :
    (∃ (s : State) (f : Nat) (r : Nat) (e : Cand) (df : Tbl Nat) (p : W32) (d : Bytes), Taken specCreate 24 f r s e df p d ∧ (s.cage (byteAt d 16)).st = CageSt.dormant) ∧
    (∃ (s : State) (f : Nat) (r : Nat) (e : Cand) (df : Tbl Nat) (p : W32) (d : Bytes), Taken specCreate 24 f r s e df p d ∧ (s.cage (byteAt d 16)).st ≠ CageSt.dormant) ∧
    (∃ (s : State) (f : Nat) (r : Nat) (e : Cand) (df : Tbl Nat) (p : W32) (d : Bytes), Taken specQuota 26 f r s e df p d ∧ (s.cage (byteAt d 16)).st = CageSt.active) ∧
    (∃ (s : State) (f : Nat) (r : Nat) (e : Cand) (df : Tbl Nat) (p : W32) (d : Bytes), Taken specQuota 26 f r s e df p d ∧ (s.cage (byteAt d 16)).st ≠ CageSt.active) ∧
    (∃ (s : State) (f : Nat) (r : Nat) (e : Cand) (df : Tbl Nat) (p : W32) (d : Bytes), Taken specDestroy 25 f r s e df p d ∧ (s.cage (byteAt d 16)).st = CageSt.active) ∧
    (∃ (s : State) (f : Nat) (r : Nat) (e : Cand) (df : Tbl Nat) (p : W32) (d : Bytes), Taken specDestroy 25 f r s e df p d ∧ (s.cage (byteAt d 16)).st ≠ CageSt.active) ∧
    (∃ (s : State) (c : Nat) (n : Nat), s.up = true ∧ (s.cage c).st = CageSt.ending ∧ destroyReady s c = true ∧ (s.cage c).destroyCtx = some n) ∧
    (∃ (s : State) (f : Nat) (r : Nat) (e : Cand) (df : Tbl Nat) (p : W32) (d : Bytes), Taken specPool 20 f r s e df p d ∧ (∀ (g : Nat × Page), g ∈ cagePages s ((s.slot e.snd.fst).ring / 16) → g.snd.slot = none)) ∧
    (∃ (s : State) (f : Nat) (r : Nat) (e : Cand) (df : Tbl Nat) (p : W32) (d : Bytes), Taken specPool 20 f r s e df p d ∧ (∃ g, g ∈ cagePages s ((s.slot e.snd.fst).ring / 16) ∧ g.snd.slot ≠ none)) ∧
    (∃ (s : State) (f : Nat) (r : Nat) (e : Cand) (df : Tbl Nat) (p : W32) (d : Bytes), Taken specAbort 17 f r s e df p d) ∧
    (∃ (s : State) (f : Nat) (r : Nat) (e : Cand) (df : Tbl Nat) (p : W32) (d : Bytes) (a : Adm), Taken specAbort 17 f r s e df p d ∧ byteAt d 16 = 0 ∧ (List.filter (fun a => a.cage == (s.slot e.snd.fst).ring / 16 && BitVec.toNat a.tag == fld d 24 8) s.cages.adms).head? = some a ∧ a.ph = AdmPh.running ∧ (s.group a.group).st = GroupSt.running ∧ (s.group a.group).abort = false) :=
  ⟨⟨(states1.getD 0 .reset), 0, 0, (0, 0, 1), [(0, 15)], 4, headOf (states1.getD 0 .reset), by unfold Taken; decide +kernel, by decide⟩,
   ⟨(states1.getD 1 .reset), 0, 0, (0, 0, 1), [(0, 15)], 4, headOf (states1.getD 1 .reset), by unfold Taken; decide +kernel, by decide⟩,
   ⟨(states1.getD 3 .reset), 0, 0, (0, 0, 1), [(0, 15)], 4, headOf (states1.getD 3 .reset), by unfold Taken; decide +kernel, by decide⟩,
   ⟨(states1.getD 4 .reset), 0, 0, (0, 0, 1), [(0, 15)], 4, headOf (states1.getD 4 .reset), by unfold Taken; decide +kernel, by decide⟩,
   ⟨(states1.getD 6 .reset), 0, 0, (0, 0, 1), [(0, 15)], 4, headOf (states1.getD 6 .reset), by unfold Taken; decide +kernel, by decide⟩,
   ⟨(states1.getD 7 .reset), 0, 0, (0, 0, 1), [(0, 15)], 4, headOf (states1.getD 7 .reset), by unfold Taken; decide +kernel, by decide⟩,
   ⟨base.modCages fun x => { x with cages := [(5, { st := .ending, destroyCtx := some 3, poolSlots := 7 })] }, 5, _, by decide, by decide, by decide, rfl⟩,
   ⟨(states1.getD 9 .reset), 0, 0, (0, 0, 1), [(0, 15)], 4, headOf (states1.getD 9 .reset), by unfold Taken; decide +kernel, by decide⟩,
   ⟨(states4.getD 9 .reset), 0, 0, (0, 0, 1), [(0, 15)], 4, headOf (states4.getD 9 .reset), by unfold Taken; decide +kernel, by decide⟩,
   ⟨(states1.getD 11 .reset), 0, 0, (0, 0, 1), [(0, 15)], 4, headOf (states1.getD 11 .reset), by unfold Taken; decide +kernel⟩,
   ⟨(states3.getD 11 .reset), 0, 0, (0, 0, 1), [(0, 15)], 4, headOf (states3.getD 11 .reset), _, by unfold Taken; decide +kernel, by decide, rfl, by decide, by decide, by decide⟩⟩

/-- The hypotheses of each clause of Obligations.PageCommands are met together. -/
theorem test_witness_PageCommands :
    (∃ (s : State) (f : Nat) (r : Nat) (e : Cand) (df : Tbl Nat) (p : W32) (d : Bytes), Taken specMap 18 f r s e df p d ∧ s.mem.offline = false ∧ s.mem.trainEnded = true ∧ mappedCount s ((s.slot e.snd.fst).ring / 16) + fld d 24 4 ≤ (s.cage ((s.slot e.snd.fst).ring / 16)).limit ∧ (bit (byteAt d 28) 0 = true → stickyCount s ((s.slot e.snd.fst).ring / 16) + fld d 24 4 ≤ (s.cage ((s.slot e.snd.fst).ring / 16)).guar) ∧ (∀ (q : Nat), q ∈ pageRange d → pageMapped s ((s.slot e.snd.fst).ring / 16) q = false)) ∧
    (∃ (s : State) (f : Nat) (r : Nat) (e : Cand) (df : Tbl Nat) (p : W32) (d : Bytes), Taken specMap 18 f r s e df p d ∧ s.mem.offline = false ∧ s.mem.trainEnded = true ∧ (s.cage ((s.slot e.snd.fst).ring / 16)).limit < mappedCount s ((s.slot e.snd.fst).ring / 16) + fld d 24 4) ∧
    (∃ (s : State) (f : Nat) (r : Nat) (e : Cand) (df : Tbl Nat) (p : W32) (d : Bytes), Taken specUnmap 19 f r s e df p d ∧ (∀ (q : Nat), q ∈ pageRange d → pageMapped s ((s.slot e.snd.fst).ring / 16) q = true) ∧ (∀ (q : Nat), q ∈ pageRange d → (s.page ((s.slot e.snd.fst).ring / 16) q).pins = 0 ∧ registeredPage s ((s.slot e.snd.fst).ring / 16) q = false)) ∧
    (∃ (s : State) (f : Nat) (r : Nat) (e : Cand) (df : Tbl Nat) (p : W32) (d : Bytes), Taken specUnmap 19 f r s e df p d ∧ (∃ q, q ∈ pageRange d ∧ pageMapped s ((s.slot e.snd.fst).ring / 16) q = false)) ∧
    (∃ (s : State) (n : Nat), s.up = true ∧ (s.ctx n).ph = CtxPh.held ∧ (s.ctx n).op = 19 ∧ unmapReady s (s.ctx n) = true) ∧
    (∃ (s : State) (f : Nat), s.dataUp = true ∧ f < 65536 ∧ s.frame f = FrameSt.dirty) ∧
    (∃ (s : State) (c : Nat) (p : Nat), s.dataUp = true ∧ (s.page c p).zeroing = true) ∧
    (∃ (s : State) (c : Nat) (p : Nat) (m : Move), s.up = true ∧ moveOf s c p = some m ∧ m.evict = true ∧ m.running = true ∧ pageBytes ≤ m.off ∧ evictAcked s c p = true) ∧
    (∃ (s : State) (c : Nat) (p : Nat) (m : Move), moveOf s c p = some m ∧ m.zeros = false ∧ LoneMove s m) ∧
    (∃ (s : State) (c : Nat) (p : Nat) (m : Move), s.up = true ∧ moveOf s c p = some m ∧ m.evict = false ∧ m.running = true ∧ pageBytes ≤ m.off) ∧
    (∃ (s : State) (c : Nat) (p : Nat) (m : Move), moveOf s c p = some m ∧ LoneMove s m) ∧
    (∃ (s : State), s.up = true) :=
  ⟨⟨(states1.getD 15 .reset), 0, 0, (0, 0, 1), [(0, 15)], 4, headOf (states1.getD 15 .reset), by unfold Taken; decide +kernel, by decide, by decide, by decide, by decide, by decide⟩,
   ⟨(states1.getD 17 .reset), 0, 0, (0, 0, 1), [(0, 15)], 4, headOf (states1.getD 17 .reset), by unfold Taken; decide +kernel, by decide, by decide, by decide⟩,
   ⟨(states1.getD 18 .reset), 0, 0, (0, 0, 1), [(0, 15)], 4, headOf (states1.getD 18 .reset), by unfold Taken; decide +kernel, by decide, by decide⟩,
   ⟨(states1.getD 19 .reset), 0, 0, (0, 0, 1), [(0, 15)], 4, headOf (states1.getD 19 .reset), by unfold Taken; decide +kernel, by decide⟩,
   ⟨base.modRings fun x => { x with ctxs := [(3, { ph := .held, op := 0x13, desc := ds 0x13 [(16, 8, 0), (24, 4, 2)] })] }, 3, by decide, by decide, by decide, by decide⟩,
   ⟨live, 0, by decide, by decide, by decide⟩,
   ⟨{ pg { st := .resident, frame := 2, zeroing := true } with mem := { mem := [⟨5, 5⟩, ⟨4 * 2 ^ 21 + 3, 4⟩] } }, 2, 1, by decide, by decide⟩,
   ⟨pg { st := .evicting, frame := 6, slot := some 3 } [mv true], 2, 1, _, by decide, rfl, by decide, by decide, by decide, by decide⟩,
   ⟨pg { st := .evicting, frame := 6, slot := some 3 } [mv true], 2, 1, _, rfl, by decide, by unfold LoneMove; decide⟩,
   ⟨pg { st := .restoring, frame := 6, slot := some 3 } [mv false], 2, 1, _, by decide, rfl, by decide, by decide, by decide⟩,
   ⟨pg { st := .evicting, frame := 6, slot := some 3 } [mv true], 2, 1, _, rfl, by unfold LoneMove; decide⟩,
   ⟨live, by decide⟩⟩

/-- The hypotheses of each clause of Obligations.Programs are met together. -/
theorem test_witness_Programs :
    (∃ (s : State) (a : Adm) (g : Nat) (cs : List Nat), s.up = true ∧ List.find? (fun a => a.ph == AdmPh.queued) s.cages.adms = some a ∧ s.adm a.ctx = some a ∧ lockDisagrees s a.lock a.f = false ∧ grantable s a = some (g, cs)) ∧
    (∃ (s : State) (a : Adm), s.up = true ∧ List.find? (fun a => a.ph == AdmPh.queued) s.cages.adms = some a ∧ s.adm a.ctx = some a ∧ lockDisagrees s a.lock a.f = true) ∧
    (∃ (s : State) (n : Nat) (a : Adm), s.up = true ∧ s.adm n = some a ∧ a.ph = AdmPh.queued) ∧
    (∃ (s : State) (n : Nat) (a : Adm), s.up = true ∧ s.adm n = some a ∧ a.ph = AdmPh.paging ∧ a.w.Nodup ∧ a.spill = [] ∧ (∀ (p : Nat), p ∈ a.w → pageMapped s a.cage p = true ∧ (s.page a.cage p).claimed = false ∧ (s.page a.cage p).st = PageSt.resident ∧ (s.page a.cage p).zeroing = false)) ∧
    (∃ (s : State) (n : Nat) (a : Adm), s.up = true ∧ s.adm n = some a ∧ a.ph = AdmPh.loading ∧ a.loaded = false ∧ a.clusters.Nodup) ∧
    (∃ (s : State) (n : Nat) (a : Adm), s.up = true ∧ s.adm n = some a ∧ a.ph = AdmPh.loading ∧ a.offered = true) ∧
    (∃ (s : State) (g : Nat) (a : Adm), s.dataUp = true ∧ (s.group g).st = GroupSt.stopped ∧ (s.group g).ended = false ∧ s.adm (s.group g).ctx = some a) ∧
    (∃ (s : State) (g : Nat) (a : Adm), s.dataUp = true ∧ (s.group g).st = GroupSt.stopped ∧ (s.group g).ended = true ∧ (s.group g).shadowFail = none ∧ (∀ (t : Machine.Stream), t ∈ s.beat.streams → t.group ≠ g) ∧ s.adm (s.group g).ctx = some a ∧ a.group = g) ∧
    (∃ (s : State) (c : Nat), s.dataUp = true ∧ (s.clus c).scrubbing = true) :=
  ⟨⟨(states2.getD 0 .reset), _, 0, [0, 1], by decide, rfl, by decide, by decide, by decide +kernel⟩,
   ⟨(withAdm { adm .queued with ctx := 9, lock := 4 } base).modCages (fun x => { x with adms := x.adms ++ [{ adm .running with ctx := 8, lock := 4, f := 44 }] }), _, by decide, rfl, by decide, by decide⟩,
   ⟨(states2.getD 0 .reset), 9, _, by decide, rfl, by decide⟩,
   ⟨withAdm (adm .paging) base, 9, _, by decide, rfl, by decide, by decide, by decide, by decide⟩,
   ⟨withAdm (adm .loading) base, 9, _, by decide, rfl, by decide, by decide, by decide⟩,
   ⟨withAdm { adm .loading with offered := true } base, 9, _, by decide, rfl, by decide, by decide⟩,
   ⟨grp { st := .stopped }, 3, _, by decide, by decide, by decide, rfl⟩,
   ⟨grp { st := .stopped, ended := true }, 3, _, by decide, by decide, by decide, by decide, by decide, rfl, by decide⟩,
   ⟨base.modBeat fun x => { x with clusters := [(4, { scrubbing := true, sp := [⟨3, 4⟩] })] }, 4, by decide, by decide⟩⟩

/-- The hypotheses of each clause of Obligations.BeatExecution are met together. -/
theorem test_witness_BeatExecution :
    (∃ (s : State) (g : Nat), s.dataUp = true ∧ (s.group g).st = GroupSt.running ∧ isBubble ((s.group g).slot % 64) (bubblesAt s g) = true) ∧
    (∃ (s : State) (g : Nat), s.dataUp = true ∧ (s.group g).st = GroupSt.running ∧ isBubble ((s.group g).slot % 64) (bubblesAt s g) = false ∧ (∃ i, i ∈ (s.group g).clusters ∧ (s.clus i).gateOk = false)) ∧
    (∃ (s : State) (g : Nat), s.dataUp = true ∧ (s.group g).st = GroupSt.running ∧ isBubble ((s.group g).slot % 64) (bubblesAt s g) = false ∧ (∀ (i : Nat), i ∈ (s.group g).clusters → (s.clus i).gateOk = true)) ∧
    (∃ (s : State) (i : Nat) (p : Nat) (t : Machine.Stream) (q : Nat), s.dataUp = true ∧ List.find? (fun t => t.id == i) s.beat.streams = some t ∧ p ∈ t.left ∧ shadowPiece s t p = false ∧ t.op = 1 ∧ (¬p ∈ t.loose) ∧ physOf s (s.group t.group).cage (t.x + 64 * p) = some q ∧ linePoisoned s q = false) ∧
    (∃ (s : State) (i : Nat) (p : Nat) (t : Machine.Stream) (q : Nat), s.dataUp = true ∧ List.find? (fun t => t.id == i) s.beat.streams = some t ∧ p ∈ t.left ∧ shadowPiece s t p = false ∧ t.op = 2 ∧ (¬p ∈ t.loose) ∧ physOf s (s.group t.group).cage (t.x + 64 * p) = some q) ∧
    (∃ (s : State) (g : Nat), s.dataUp = true ∧ (s.group g).st = GroupSt.running ∧ (s.group g).holding = true) ∧
    (∃ (s : State) (g : Nat), s.dataUp = true ∧ (s.group g).st = GroupSt.running ∧ (s.group g).shadowFail.isSome = true) ∧
    (∃ (s : State) (c : Nat) (g : Nat), s.dataUp = true ∧ (s.clus c).group = some g ∧ (s.group g).margin = false) ∧
    (∃ (s : State) (c : Nat) (g : Nat), s.dataUp = true ∧ (s.clus c).group = some g ∧ (s.group g).margin = true) :=
  ⟨⟨grp { st := .running, slot := 63, nForce := 30, beats := 3 }, 3, by decide, by decide, by decide⟩,
   ⟨(states2.getD 0 .reset), 3, by decide, by decide, by decide, by decide⟩,
   ⟨grp { st := .running, slot := 0, nNew := 30, beats := 3 }, 3, by decide, by decide, by decide, by decide⟩,
   ⟨grp { st := .running } true [strm], 1, _, _, _, by decide, rfl, List.mem_of_getElem? (i := 0) rfl, by decide, by decide, by decide, rfl, by decide⟩,
   ⟨grp { st := .running } true [{ strm with op := 2, x := 0 }], 1, _, _, _, by decide, rfl, List.mem_of_getElem? (i := 0) rfl, by decide, by decide, by decide, rfl⟩,
   ⟨grp { st := .running, holding := true } false, 3, by decide, by decide, by decide⟩,
   ⟨grp { st := .running, shadowFail := some (4, 4) }, 3, by decide, by decide, by decide⟩,
   ⟨(states2.getD 0 .reset), 4, _, by decide, rfl, by decide⟩,
   ⟨grp { st := .running, margin := true }, 4, _, by decide, rfl, by decide⟩⟩

end Cage

namespace Adit

def b7 : State := rst (ds 0 [])
def adm (ph : AdmPh) : Adm := { ctx := 9, cage := 2, tag := 0x77, ph := ph, n := 2, f := 40, image := List.replicate 4096 0 ++ List.replicate 64 5, w := [0], group := 3, clusters := [4, 5] }
def withAdm (a : Adm) (s : State) : State := { s with cages := { s.cages with adms := [a] }, beat := { s.beat with groups := [(3, { st := .granted, ctx := 9, cage := 2, f := 40, clusters := [4, 5], beats := 3 })], clusters := [(4, { group := some 3 }), (5, { group := some 3, gateOk := true })] } }
def mgr (st : OfferSt) : MGroup := { st := st, cage := 2, f := 40, lock := 0, man := [], ord := 0, at_ := 0, timeout := 5, action := 0, dt := 4 }
def up_ (m : A3Msg) (s : State := b7) : State := s.modAdit fun a => { a with a3up := [m, .withdraw 7] }
def dn (m : A3Msg) (s : State := b7) : State := s.modAdit fun a => { a with a3down := [m, .hold 7] }
def pol (c k : Nat) (l : List Fld := []) : Bytes := ds 0x30 ([(16, 1, c), (17, 1, k)] ++ l)
def fr2 : A2Frame := { recs := List.replicate 128 {}, modes := List.replicate 16 false, clamped := 0, stks := none }
def cold (s : State) : State := s.modHeat fun h => { h with sensors := (List.range 33).map fun i => (i, { hist := [400] }) }
def trained (f : MemBlk → MemBlk := id) : State := { b7 with mem := f { trainEnded := true, stks := (List.range 8).map fun i => (i, { train := 1, patrol := 3 }), mem := [⟨70, 4⟩, ⟨200, 9⟩] } }

/-- The hypotheses of each clause of Obligations.BubblesFramesAndGateway are met together. -/
theorem test_witness_BubblesFramesAndGateway :
    (∃ (s : State), s.dataUp = true) ∧
    (∃ (s : State) (fr : A2Frame), s.stew = true ∧ s.adit.a2Taken = false ∧ s.adit.a2 = some fr) ∧
    (∃ (s : State) (r : Rec) (d : Nat), s.up = true ∧ (s.rpt 0).en = true ∧ d = s.adit.a6Displaced ∧ List.findSome? A6Item.asReport s.adit.a6 = some r) ∧
    (∃ (s : State) (off : Nat) (v : Nat), s.dataUp = true ∧ List.findSome? A6Item.asMirror s.adit.a6 = some (off, v)) :=
  ⟨⟨live, by decide⟩,
   ⟨{ b7 with adit := { a2 := some fr2, a2Taken := false } , mgmt := { silent := true } }, _, by decide, by decide, rfl⟩,
   ⟨(b7.modAdit fun a => { a with a6 := [.mirror 4 5, .report { kind := 0x0204, cage := 2, source := 1, rowTime := 4, body := [] } false], a6Displaced := 5 }).modRings (fun r => { r with rpts := [(0, { en := true, taken := { sq := 64 } }), (2, { en := true, taken := { sq := 64 } })] }), _, _, by decide, by decide, rfl, rfl⟩,
   ⟨b7.modAdit fun a => { a with a6 := [.mirror 4 5, .report { kind := 0x0204, cage := 2, source := 1, rowTime := 4, body := [] } false], a6Displaced := 5 }, _, _, by decide, rfl⟩⟩

/-- The hypotheses of each clause of Obligations.AdmissionMessages are met together. -/
theorem test_witness_AdmissionMessages :
    (∃ (s : State) (g : Nat) (c : Nat) (f : Nat) (l : Nat) (man : Bytes) (r : List A3Msg), UpHead s (A3Msg.offer g c f l man) r) ∧
    (∃ (s : State) (g : Nat) (r : List A3Msg) (m : MGroup), UpHead s (A3Msg.withdraw g) r ∧ s.mg g = some m ∧ m.st ≠ OfferSt.running) ∧
    (∃ (s : State) (g : Nat) (t : RowTime) (r : List A3Msg) (m : MGroup), UpHead s (A3Msg.start g t) r ∧ s.mg g = some m) ∧
    (∃ (s : State) (g : Nat) (t : RowTime) (b : Bool) (r : List A3Msg), UpHead s (A3Msg.finish g t b) r) ∧
    (∃ (s : State) (t : BitVec 16) (d : Bytes) (r : List A3Msg), UpHead s (A3Msg.policy t d) r ∧ s.mgmt.disp = none ∧ 1 ≤ byteAt d 17 ∧ byteAt d 17 ≤ policyCmds (byteAt d 16)) ∧
    (∃ (s : State) (t : BitVec 16) (d : Bytes) (r : List A3Msg), UpHead s (A3Msg.policy t d) r ∧ s.mgmt.disp = none ∧ policyCmds (byteAt d 16) = 0) ∧
    (∃ (s : State) (t : BitVec 16) (d : Bytes) (r : List A3Msg), UpHead s (A3Msg.policy t d) r ∧ s.mgmt.disp = none ∧ policyCmds (byteAt d 16) ≠ 0 ∧ (byteAt d 17 = 0 ∨ policyCmds (byteAt d 16) < byteAt d 17)) ∧
    (∃ (s : State) (k : Nat) (v : Nat) (r : List A3Msg), UpHead s (A3Msg.skipBand k v) r ∧ s.mgmt.disp = none) ∧
    (∃ (s : State) (g : Nat) (r : List A3Msg), DownHead s (A3Msg.hold g) r) ∧
    (∃ (s : State) (g : Nat) (r : List A3Msg) (a : Adm), DownHead s (A3Msg.release g) r ∧ offeredAdm s g = some a ∧ s.adm a.ctx = some a) ∧
    (∃ (s : State) (g : Nat) (r : List A3Msg) (a : Adm), DownHead s (A3Msg.refuse g) r ∧ offeredAdm s g = some a) ∧
    (∃ (s : State) (tag : BitVec 16) (st : Nat) (dt : Nat) (r : List A3Msg) (n : Nat), DownHead s (A3Msg.ack tag st dt) r ∧ List.find? (fun e => e.fst == tag.toNat) s.rings.policies = some (tag.toNat, n)) ∧
    (∃ (s : State) (n : Nat), s.dataUp = true ∧ (∃ e, e ∈ s.rings.policies ∧ e.snd = n)) :=
  ⟨⟨up_ (.offer 3 2 40 0 []), _, _, _, _, _, _, ⟨by decide, rfl⟩⟩,
   ⟨up_ (.withdraw 3) (b7.modHeat fun h => { h with groups := [(3, some (mgr .held)), (4, some (mgr .running))] }), _, _, _, ⟨by decide, rfl⟩, rfl, by decide⟩,
   ⟨up_ (.start 3 9) (b7.modHeat fun h => { h with groups := [(3, some (mgr .released)), (4, some (mgr .running))] }), _, _, _, _, ⟨by decide, rfl⟩, rfl⟩,
   ⟨up_ (.finish 3 9 false) (b7.modHeat fun h => { h with groups := [(3, some (mgr .running)), (4, some (mgr .running))] }), _, _, _, _, ⟨by decide, rfl⟩⟩,
   ⟨up_ (.policy 4 (pol 1 3)), _, _, _, ⟨by decide, rfl⟩, by decide, by decide, by decide⟩,
   ⟨up_ (.policy 4 (pol 9 3)), _, _, _, ⟨by decide, rfl⟩, by decide, by decide⟩,
   ⟨up_ (.policy 4 (pol 1 0)), _, _, _, ⟨by decide, rfl⟩, by decide, by decide, by decide⟩,
   ⟨up_ (.skipBand 1 77), _, _, _, ⟨by decide, rfl⟩, by decide⟩,
   ⟨dn (.hold 3), _, _, ⟨by decide, rfl⟩⟩,
   ⟨dn (.release 3) (withAdm { adm .loading with offered := true } b7), _, _, _, ⟨by decide, rfl⟩, rfl, by decide⟩,
   ⟨dn (.refuse 3) (withAdm { adm .loading with offered := true, loaded := true } b7), _, _, _, ⟨by decide, rfl⟩, rfl⟩,
   ⟨dn (.ack 3 0 0) (b7.modRings fun r => { r with policies := [(3, 5)], ctxs := [(5, { ph := .held, op := 0x30, desc := pol 1 3 [(24, 1, 2), (28, 4, 8)] })] }), _, _, _, _, _, ⟨by decide, rfl⟩, rfl⟩,
   ⟨dn (.ack 3 0 0) (b7.modRings fun r => { r with policies := [(3, 5)], ctxs := [(5, { ph := .held, op := 0x30, desc := pol 1 3 [(24, 1, 2), (28, 4, 8)] })] }), _, by decide, ⟨_, ⟨List.mem_of_getElem? (i := 0) rfl, rfl⟩⟩⟩⟩

/-- The hypotheses of each clause of Obligations.StackCommands are met together. -/
theorem test_witness_StackCommands :
    (∃ (s : State) (line : Nat), Trained s line) ∧
    (∃ (s : State) (line : Nat) (e : LineErr), Trained s line ∧ e ≠ LineErr.uncorrectable) ∧
    (∃ (s : State) (line : Nat), Trained s line ∧ linePoisoned s (64 * line) = false) ∧
    (∃ (s : State) (line : Nat) (e : LineErr), Trained s line ∧ e ≠ LineErr.uncorrectable ∧ linePoisoned s (64 * line) = false) ∧
    (∃ (s : State) (line : Nat) (e : LineErr), Trained s line ∧ e ≠ LineErr.uncorrectable ∧ linePoisoned s (64 * line) = true) ∧
    (∃ (s : State) (i : Nat) (e : LineErr), s.dataUp = true ∧ i < 8 ∧ (s.stack i).train = 1 ∧ s.mem.period ≠ 0 ∧ e ≠ LineErr.uncorrectable ∧ linePoisoned s (patrolAddr i (s.stack i).patrol) = false) ∧
    (∃ (s : State) (i : Nat), s.dataUp = true ∧ i < 8 ∧ (s.stack i).train = 1 ∧ s.mem.period ≠ 0 ∧ ownerOf s (patrolAddr i (s.stack i).patrol) = none) ∧
    (∃ (s : State) (i : Nat), s.dataUp = true ∧ i < 8) ∧
    (∃ (s : State) (i : Nat), i < 8 ∧ s.sup.regs = true ∧ (s.stack i).train ≠ 2) ∧
    (∃ (s : State) (i : Nat), i < 8 ∧ s.sup.regs = true) ∧
    (∃ (s : State), Reaches s 0 ∧ s.mem.lock = false) ∧
    (∃ (s : State), Reaches s 0 ∧ s.mem.lock = true) ∧
    (∃ (s : State), s.up = true ∧ s.mem.trainEnded = false) :=
  ⟨⟨trained, 0, by unfold Trained; decide⟩,
   ⟨trained, 0, .clean, by unfold Trained; decide, by decide⟩,
   ⟨trained, 0, by unfold Trained; decide, by decide⟩,
   ⟨trained, 0, .clean, by unfold Trained; decide, by decide, by decide⟩,
   ⟨trained (fun m => { m with poison := [1, 4, 3] , lock := true }), 1, .clean, by unfold Trained; decide, by decide, by decide⟩,
   ⟨trained, 0, .clean, by decide, by decide, by decide, by decide, by decide, by decide⟩,
   ⟨trained, 0, by decide, by decide, by decide, by decide, by decide⟩,
   ⟨live, 0, by decide, by decide⟩,
   ⟨live, 0, by decide, by decide, by decide⟩,
   ⟨live, 0, by decide, by decide⟩,
   ⟨live, by unfold Reaches; decide, by decide⟩,
   ⟨trained (fun m => { m with poison := [1, 4, 3] , lock := true }), by unfold Reaches; decide, by decide⟩,
   ⟨live, by decide, by decide⟩⟩

/-- The hypotheses of each clause of Obligations.NoLineBeyondMemory are met together. -/
theorem test_witness_NoLineBeyondMemory :
    ∃ (line : Nat), 2 ^ 31 ≤ line :=
  ⟨2 ^ 31, by decide⟩

end Adit

namespace Link

def T0 : Lk := { st := .training, pings := [100, 500], fails := 1 }
def inst (s : State) (n : Nat) : State := { s with now := n }
def dup (v : Nat) (m : Bytes) : Bytes := dataFlit v 5 true true m
def base8 : List Lk := [L0, { L0 with st := .disabled, en := false }, { L0 with st := .down }, T0, { T0 with allowX4 := false }, { T0 with hello := true }, { T0 with hello := true, fails := 3 }, { L0 with st := .retrain, replay := [dup 1 []] }, { L0 with st := .retrain },
  { L0 with replay := [dup 1 []], sameStart := 7 }, { L0 with replay := [dup 1 []], sameStart := 6 }, { L0 with nakSent := true }, { L0 with nakPending := true }, { L0 with resend := [dup 1 []], replay := [dup 1 []] }, { L0 with replay := List.replicate 4096 (dup 1 []) },
  { L0 with tx := [(1, { held := 9, queue := [mrd_ 1 2 3] })] }, { L0 with tokens := 0, tx := [(2, { held := 9, rest := [[5], [6]] })] }, { L0 with tokens := 0, tx := [(2, { held := 9, rest := [[5], [6]] }), (3, { held := 9, queue := [mwr_ 1 2 3 true] })] }, { L0 with tx := [(2, { held := 9, rest := [[5]] })] }, { L0 with tx := [(3, { held := 9, queue := [mwr_ 1 2 3 true] })] },
  { L0 with badPairs := 3, memDrops := 4 }, { L0 with resps := [{ read := true, msg := [3] }, { read := false, msg := [4] }] }, { L0 with replay := [dup 1 []], nextSeq := 6 }, { L0 with replay := [dup 1 [], dataFlit 1 6 true true []], nextSeq := 7 }]
def states1 : List State := base8.map (fun l => inst (lk l) 60)

/-- The hypotheses of each clause of Obligations.LinkTraining are met together. -/
theorem test_witness_LinkTraining :
    (∃ (s : State) (k : Nat), Reaches s 0 ∧ s.dataUp = true ∧ (s.link (k % 16)).en = false) ∧
    (∃ (s : State) (k : Nat), Reaches s 0 ∧ (s.link (k % 16)).en = true) ∧
    (∃ (s : State) (k : Nat), Reaches s 0 ∧ (s.link (k % 16)).en = false) ∧
    (∃ (s : State) (k : Nat) (failed : Nat), LinkRuns k s ∧ (s.link k).st = LinkSt.training ∧ (s.link k).hello = false ∧ failed % 256 = 0) ∧
    (∃ (s : State) (k : Nat) (failed : Nat), LinkRuns k s ∧ (s.link k).st = LinkSt.training ∧ (s.link k).hello = false ∧ failed % 256 ≠ 0 ∧ (s.link k).allowX4 = true ∧ (failed % 16 = 0 ∨ failed % 256 / 16 = 0)) ∧
    (∃ (s : State) (k : Nat) (failed : Nat), LinkRuns k s ∧ (s.link k).st = LinkSt.training ∧ (s.link k).hello = false ∧ failed % 256 ≠ 0 ∧ ((s.link k).allowX4 = false ∨ failed % 16 ≠ 0 ∧ failed % 256 / 16 ≠ 0)) ∧
    (∃ (s : State) (k : Nat) (f : Bytes), LinkRuns k s ∧ (s.link k).st = LinkSt.training ∧ (s.link k).hello = true ∧ flitGood f = true ∧ flitKind f = 0 ∧ bit (byteAt f 6) 3 = true ∧ fld f 40 4 ∈ (s.link k).pings ∧ byteAt f 32 = 1 ∧ fld f 20 8 ≠ s.mgmt.fuses.dsn ∧ (localNs s + 2 ^ 32 - fld f 40 4) % 2 ^ 32 ≤ 1200) ∧
    (∃ (s : State) (k : Nat) (f : Bytes), LinkRuns k s ∧ (s.link k).st = LinkSt.training ∧ (s.link k).hello = true ∧ flitGood f = true ∧ flitKind f = 0 ∧ bit (byteAt f 6) 3 = true ∧ fld f 40 4 ∈ (s.link k).pings ∧ (byteAt f 32 ≠ 1 ∨ fld f 20 8 = s.mgmt.fuses.dsn ∨ 1200 < (localNs s + 2 ^ 32 - fld f 40 4) % 2 ^ 32)) ∧
    (∃ (s : State) (k : Nat) (f : Bytes), LinkRuns k s ∧ (s.link k).st = LinkSt.training ∧ (s.link k).hello = true ∧ flitGood f = true ∧ flitKind f = 0 ∧ bit (byteAt f 6) 3 = true ∧ (¬fld f 40 4 ∈ (s.link k).pings)) ∧
    (∃ (s : State) (k : Nat), LinkRuns k s ∧ (s.link k).st = LinkSt.training) ∧
    (∃ (s : State) (k : Nat), LinkRuns k s ∧ (s.link k).st = LinkSt.down ∧ (s.link k).en = true) ∧
    (∃ (s : State) (k : Nat), LinkRuns k s ∧ (s.link k).st = LinkSt.up) ∧
    (∃ (s : State) (k : Nat), LinkRuns k s ∧ (s.link k).st = LinkSt.retrain ∧ (s.link k).sameStart < 7) ∧
    (∃ (s : State) (k : Nat), LinkRuns k s ∧ (s.link k).st = LinkSt.retrain) ∧
    (∃ (s : State) (k : Nat), LinkRuns k s ∧ ((s.link k).st = LinkSt.up ∨ (s.link k).st = LinkSt.retrain)) :=
  ⟨⟨lk ({ L0 with st := .disabled, en := false }), 3, by unfold Reaches; decide, by decide, by decide⟩,
   ⟨live, 3, by unfold Reaches; decide, by decide⟩,
   ⟨lk ({ L0 with st := .disabled, en := false }), 3, by unfold Reaches; decide, by decide⟩,
   ⟨lk T0, 3, 0, by unfold LinkRuns; decide, by decide, by decide, by decide⟩,
   ⟨lk T0, 3, 3, by unfold LinkRuns; decide, by decide, by decide, by decide, by decide, by decide⟩,
   ⟨lk T0, 3, 255, by unfold LinkRuns; decide, by decide, by decide, by decide, by decide⟩,
   ⟨(states1.getD 5 .reset), 3, hello [(40, 4, 500), (32, 1, 1), (20, 8, 9)], by unfold LinkRuns; decide, by decide, by decide, by decide, by decide, by decide, by decide, by decide, by decide, by decide⟩,
   ⟨lk ({ T0 with hello := true }), 3, hello [(40, 4, 500), (32, 1, 1), (20, 8, 9)], by unfold LinkRuns; decide, by decide, by decide, by decide, by decide, by decide, by decide, by decide⟩,
   ⟨lk ({ T0 with hello := true }), 3, hello [(40, 4, 501), (32, 1, 1), (20, 8, 7)], by unfold LinkRuns; decide, by decide, by decide, by decide, by decide, by decide, by decide⟩,
   ⟨lk T0, 3, by unfold LinkRuns; decide, by decide⟩,
   ⟨live, 3, by unfold LinkRuns; decide, by decide, by decide⟩,
   ⟨lk L0, 3, by unfold LinkRuns; decide, by decide⟩,
   ⟨lk ({ L0 with st := .retrain, replay := [dup 1 []] }), 3, by unfold LinkRuns; decide, by decide, by decide⟩,
   ⟨lk ({ L0 with st := .retrain, replay := [dup 1 []] }), 3, by unfold LinkRuns; decide, by decide⟩,
   ⟨lk L0, 3, by unfold LinkRuns; decide, by decide⟩⟩

/-- The hypotheses of each clause of Obligations.LinkFlits are met together. -/
theorem test_witness_LinkFlits :
    (∃ (s : State) (k : Nat), LinkRuns k s ∧ (s.link k).st = LinkSt.up) ∧
    (∃ (s : State) (k : Nat) (f : Bytes), LinkRuns k s ∧ (s.link k).st = LinkSt.up ∧ flitGood f = false) ∧
    (∃ (s : State) (k : Nat) (f : Bytes) (d : Nat), LinkRuns k s ∧ (s.link k).st = LinkSt.up ∧ flitGood f = true ∧ flitKind f = 1 ∧ d = seqSub (flitSeq f) (((s.link k).lastAcc + 1) % 65536) ∧ 0 < d) ∧
    (∃ (s : State) (k : Nat) (f : Bytes), NextFlit s k f ∧ ((s.link k).vrx (flitVc f)).part = none ∧ flitSom f = true ∧ flitEom f = true ∧ flitVc f ≠ 0 ∧ typeOnVc (flitVc f) (msgType (flitPayload f)) = true ∧ flitsOk (flitPayload f) = true ∧ msgFlits (flitPayload f) = 1) ∧
    (∃ (s : State) (k : Nat) (f : Bytes), NextFlit s k f ∧ ((s.link k).vrx 0).part = none ∧ flitSom f = true ∧ flitEom f = true ∧ flitVc f = 0 ∧ typeOnVc 0 (msgType (flitPayload f)) = true ∧ flitsOk (flitPayload f) = true ∧ msgFlits (flitPayload f) = 1) ∧
    (∃ (s : State) (k : Nat) (f : Bytes), NextFlit s k f ∧ ((s.link k).vrx (flitVc f)).part = none ∧ flitSom f = true ∧ flitEom f = false ∧ typeOnVc (flitVc f) (msgType (flitPayload f)) = true ∧ flitsOk (flitPayload f) = true ∧ 1 < msgFlits (flitPayload f) ∧ msgFlits (flitPayload f) ≤ 32) ∧
    (∃ (s : State) (k : Nat) (f : Bytes) (n : Nat) (m : Bytes), NextFlit s k f ∧ ((s.link k).vrx (flitVc f)).part = some (n, m) ∧ flitSom f = false ∧ flitEom f = true ∧ flitVc f ≠ 0 ∧ n + 1 = msgFlits (m ++ flitPayload f)) ∧
    (∃ (s : State) (k : Nat) (f : Bytes) (n : Nat) (m : Bytes), NextFlit s k f ∧ ((s.link k).vrx (flitVc f)).part = some (n, m) ∧ flitSom f = false ∧ flitEom f = false ∧ n + 1 ≠ msgFlits (m ++ flitPayload f)) ∧
    (∃ (s : State) (k : Nat) (f : Bytes), NextFlit s k f ∧ ((s.link k).vrx (flitVc f)).part = none ∧ flitSom f = true ∧ (typeOnVc (flitVc f) (msgType (flitPayload f)) = false ∨ flitsOk (flitPayload f) = false ∨ 32 < msgFlits (flitPayload f))) ∧
    (∃ (s : State) (k : Nat) (f : Bytes), LinkRuns k s ∧ (s.link k).st = LinkSt.up ∧ flitGood f = true ∧ flitKind f = 0 ∧ bit (byteAt f 6) 3 = false) ∧
    (∃ (s : State) (k : Nat) (f : Bytes), LinkRuns k s ∧ (s.link k).st = LinkSt.up ∧ flitGood f = true ∧ flitKind f = 0 ∧ bit (byteAt f 6) 3 = false ∧ bit (byteAt f 6) 0 = true ∧ ackValid (s.link k) (fld f 4 2) = true ∧ (∃ x, x ∈ (s.link k).replay ∧ flitSeq x = fld f 4 2)) ∧
    (∃ (s : State) (k : Nat) (f : Bytes), LinkRuns k s ∧ (s.link k).st = LinkSt.up ∧ (s.link k).fault = none ∧ flitGood f = true ∧ flitKind f = 0 ∧ bit (byteAt f 6) 3 = false ∧ bit (byteAt f 6) 0 = true ∧ ackValid (s.link k) (fld f 4 2) = false) ∧
    (∃ (s : State) (k : Nat), LinkRuns k s ∧ (s.link k).st = LinkSt.up ∧ (s.link k).replay ≠ [] ∧ (s.link k).sameStart < 7) ∧
    (∃ (s : State) (k : Nat), LinkRuns k s ∧ (s.link k).st = LinkSt.up ∧ (s.link k).replay ≠ [] ∧ 7 ≤ (s.link k).sameStart ∧ (s.link k).fault = none) :=
  ⟨⟨lk L0, 3, by unfold LinkRuns; decide, by decide⟩,
   ⟨lk L0, 3, [], by unfold LinkRuns; decide, by decide, by decide⟩,
   ⟨lk L0, 3, dataFlit 3 6 true true (msg1 3), _, by unfold LinkRuns; decide, by decide, by decide, by decide, rfl, by decide⟩,
   ⟨lk L0, 3, dup 1 (msg1 1), by unfold NextFlit LinkRuns; decide, by decide, by decide, by decide, by decide, by decide, by decide, by decide⟩,
   ⟨lk L0, 3, dup 0 (msg1 0), by unfold NextFlit LinkRuns; decide, by decide, by decide, by decide, by decide, by decide, by decide, by decide⟩,
   ⟨lk L0, 3, dataFlit 3 5 true false (mwr_ 5 0 2 true), by unfold NextFlit LinkRuns; decide, by decide, by decide, by decide, by decide, by decide, by decide, by decide⟩,
   ⟨lk { L0 with rx := [(2, { part := some (1, (mwr_ 1 2 1 true).take 56) })] }, 3, dataFlit 2 5 false true [5], _, _, by unfold NextFlit LinkRuns; decide, rfl, by decide, by decide, by decide, by decide⟩,
   ⟨lk { L0 with rx := [(2, { part := some (1, (mwr_ 1 2 2 true).take 56) }), (3, { part := some (1, (mwr_ 1 2 2 true).take 56) })] }, 3, dataFlit 2 5 false false [5], _, _, by unfold NextFlit LinkRuns; decide, rfl, by decide, by decide, by decide⟩,
   ⟨lk L0, 3, dup 3 (msg1 3), by unfold NextFlit LinkRuns; decide, by decide, by decide, by decide⟩,
   ⟨lk L0, 3, sealFlit (packFlds 60 [(6, 1, 1), (4, 2, 5), (10, 2, 3)]), by unfold LinkRuns; decide, by decide, by decide, by decide, by decide⟩,
   ⟨lk ({ L0 with replay := [dup 1 []], nextSeq := 6 }), 3, sealFlit (packFlds 60 [(6, 1, 1), (4, 2, 5), (10, 2, 3)]), by unfold LinkRuns; decide, by decide, by decide, by decide, by decide, by decide, by decide, by decide⟩,
   ⟨lk L0, 3, sealFlit (packFlds 60 [(6, 1, 1), (4, 2, 5), (10, 2, 3)]), by unfold LinkRuns; decide, by decide, by decide, by decide, by decide, by decide, by decide, by decide⟩,
   ⟨lk ({ L0 with replay := [dup 1 []], sameStart := 6 }), 3, by unfold LinkRuns; decide, by decide, by decide, by decide⟩,
   ⟨lk ({ L0 with replay := [dup 1 []], sameStart := 7 }), 3, by unfold LinkRuns; decide, by decide, by decide, by decide, by decide⟩⟩

/-- The hypotheses of each clause of Obligations.FlitSlots are met together. -/
theorem test_witness_FlitSlots :
    (∃ (s : State) (k : Nat), LinkRuns k s ∧ (s.link k).st = LinkSt.training ∧ (s.link k).hello = true) ∧
    (∃ (s : State) (k : Nat), LinkRuns k s ∧ (s.link k).st = LinkSt.up ∧ (s.link k).helloOwed = false ∧ lctlDue (s.link k) = true) ∧
    (∃ (s : State) (k : Nat) (f : Bytes) (r : List Bytes), LinkRuns k s ∧ (s.link k).st = LinkSt.up ∧ (s.link k).helloOwed = false ∧ lctlDue (s.link k) = false ∧ (s.link k).resend = f :: r) ∧
    (∃ (s : State) (k : Nat), LinkRuns k s ∧ (s.link k).st = LinkSt.up ∧ (s.link k).helloOwed = false ∧ lctlDue (s.link k) = false ∧ (s.link k).resend = [] ∧ 4096 ≤ (s.link k).replay.length) ∧
    (∃ (s : State) (k : Nat) (m : Bytes), LinkRuns k s ∧ (s.link k).st = LinkSt.up ∧ (s.link k).helloOwed = false ∧ lctlDue (s.link k) = false ∧ (s.link k).resend = [] ∧ (s.link k).replay.length < 4096 ∧ List.find? (fun e => e.fst == k) s.adit.a5out = some (k, m) ∧ ((s.link k).vtx 0).rest = [] ∧ 1 ≤ ((s.link k).vtx 0).held ∧ 1 ≤ (s.link k).tokens) ∧
    (∃ (s : State) (k : Nat) (v : Nat) (l : Lk), LinkRuns k s ∧ (s.link k).st = LinkSt.up ∧ (s.link k).helloOwed = false ∧ lctlDue (s.link k) = false ∧ (s.link k).resend = [] ∧ (s.link k).replay.length < 4096 ∧ (vcCan s k 0 = false ∨ (s.link k).tokens = 0) ∧ vcDrr (vcCan s k) 4 (s.link k) = some (v, l) ∧ 1 ≤ v) :=
  ⟨⟨lk ({ T0 with hello := true }), 3, by unfold LinkRuns; decide, by decide, by decide⟩,
   ⟨lk ({ L0 with nakPending := true }), 3, by unfold LinkRuns; decide, by decide, by decide, by decide⟩,
   ⟨lk ({ L0 with resend := [dup 1 []], replay := [dup 1 []] }), 3, _, _, by unfold LinkRuns; decide, by decide, by decide, by decide, rfl⟩,
   ⟨lk ({ L0 with replay := List.replicate 4096 (dup 1 []) }), 3, by unfold LinkRuns; decide, by decide, by decide, by decide, by decide, by decide⟩,
   ⟨{ lk L0 with adit := { a5out := [(3, msg1 0), (4, msg1 0)] } }, 3, _, by unfold LinkRuns; decide, by decide, by decide, by decide, by decide, by decide, rfl, by decide, by decide, by decide⟩,
   ⟨lk ({ L0 with tx := [(1, { held := 9, queue := [mrd_ 1 2 3] })] }), 3, _, _, by unfold LinkRuns; decide, by decide, by decide, by decide, by decide, by decide, by decide, rfl, by decide⟩⟩

/-- The hypotheses of each clause of Obligations.LinkMemory are met together. -/
theorem test_witness_LinkMemory :
    (∃ (s : State) (k : Nat) (m : Bytes) (c : Nat) (base : Nat), Waits s k 3 1 m ∧ Opens s m c base ∧ (msgAckReq m = true → respUsed (s.link k) < 64)) ∧
    (∃ (s : State) (k : Nat) (m : Bytes) (st : Nat), Waits s k 3 1 m ∧ memStatus s m = st ∧ st ≠ 0 ∧ (msgAckReq m = true → respUsed (s.link k) < 64)) ∧
    (∃ (s : State) (k : Nat) (m : Bytes), Waits s k 3 1 m ∧ msgAckReq m = true ∧ 64 ≤ respUsed (s.link k)) ∧
    (∃ (s : State) (k : Nat) (m : Bytes) (c : Nat) (base : Nat), Waits s k 3 2 m ∧ Opens s m c base ∧ respUsed (s.link k) < 64) ∧
    (∃ (s : State) (k : Nat) (m : Bytes) (st : Nat), Waits s k 3 2 m ∧ memStatus s m = st ∧ st ≠ 0 ∧ respUsed (s.link k) < 64) ∧
    (∃ (s : State) (k : Nat) (m : Bytes), Waits s k 3 2 m ∧ 64 ≤ respUsed (s.link k)) ∧
    (∃ (x : Bool × (Nat → Instr)) (s : State) (k : Nat) (r : Resp), x ∈ [(false, Instr.mwriteLinesAcked), (true, Instr.mreadDataReady)] ∧ LinkRuns k s ∧ List.find? (fun r => r.read == x.fst) (s.link k).resps = some r) ∧
    (∃ (s : State) (k : Nat) (m : Bytes) (r : MemReq), Waits s k 3 3 m ∧ List.find? (fun r => r.tag == msgTag m) (s.link k).memReqs = some r ∧ (msgStatus m = 1 ∨ msgStatus m = 2)) ∧
    (∃ (s : State) (k : Nat) (m : Bytes) (r : MemReq) (g : CollGroup) (o : CollOp), Waits s k 3 3 m ∧ List.find? (fun r => r.tag == msgTag m) (s.link k).memReqs = some r ∧ msgStatus m ≠ 1 ∧ msgStatus m ≠ 2 ∧ s.grp r.h = some g ∧ g.cur = some o) ∧
    (∃ (s : State) (k : Nat) (m : Bytes), Waits s k 3 4 m) ∧
    (∃ (s : State) (k : Nat) (tag : Nat) (r : MemReq), LinkRuns k s ∧ List.find? (fun r => r.tag == tag) (s.link k).memReqs = some r) ∧
    (∃ (s : State) (k : Nat), LinkRuns k s) ∧
    (∃ (s : State) (k : Nat) (n : Nat), LinkRuns k s ∧ n + (s.link k).badPairs + (s.link k).crcDiscards + (s.link k).replays + (s.link k).malformed + (s.link k).memDrops = 0) :=
  ⟨⟨coll grp0 (inb 3 (mwr_ 5 0 2 true)), 3, _, _, _, ⟨by unfold LinkRuns; decide, rfl, by decide⟩, ⟨_, ⟨rfl, by decide⟩⟩, by decide⟩,
   ⟨coll grp0 (inb 3 (mwr_ 6 0 2 true)), 3, _, _, ⟨by unfold LinkRuns; decide, rfl, by decide⟩, rfl, by decide, by decide⟩,
   ⟨coll grp0 (inb 3 (mwr_ 5 0 2 true) fun l => { l with resps := List.replicate 64 { read := true, msg := [3] } }), 3, _, ⟨by unfold LinkRuns; decide, rfl, by decide⟩, by decide, by decide⟩,
   ⟨coll grp0 (inb 3 (mrd_ 5 0 2)), 3, _, _, _, ⟨by unfold LinkRuns; decide, rfl, by decide⟩, ⟨_, ⟨rfl, by decide⟩⟩, by decide⟩,
   ⟨coll grp0 (inb 3 (mrd_ 5 40000 2)), 3, _, _, ⟨by unfold LinkRuns; decide, rfl, by decide⟩, rfl, by decide, by decide⟩,
   ⟨coll grp0 (inb 3 (mrd_ 5 0 2) fun l => { l with resps := List.replicate 64 { read := true, msg := [3] } }), 3, _, ⟨by unfold LinkRuns; decide, rfl, by decide⟩, by decide⟩,
   ⟨_, lk ({ L0 with resps := [{ read := true, msg := [3] }, { read := false, msg := [4] }] }), 3, _, List.mem_of_getElem? (i := 0) rfl, by unfold LinkRuns; decide, rfl⟩,
   ⟨coll { grp0 with ops := [op0] } (inb 3 (mkShort 3 16 7 0 0 []) fun l => { l with memReqs := [{ tag := 7, h := 4, strand := 0, line := 0, n := 2 }] }), 3, _, _, ⟨by unfold LinkRuns; decide, rfl, by decide⟩, rfl, by decide⟩,
   ⟨coll { grp0 with ops := [op0] } (inb 3 (mkMsg 3 2 0 7 0 0 (List.replicate 128 4)) fun l => { l with memReqs := [{ tag := 7, h := 4, strand := 0, line := 0, n := 2 }] }), 3, _, _, _, _, ⟨by unfold LinkRuns; decide, rfl, by decide⟩, rfl, by decide, by decide, rfl, rfl⟩,
   ⟨inb 3 (mkShort 4 0 7 0 0 []) fun l => { l with memReqs := [{ tag := 7, h := 4, strand := 0, line := 0, n := 2 }] }, 3, _, ⟨by unfold LinkRuns; decide, rfl, by decide⟩⟩,
   ⟨coll { grp0 with ops := [op0] } (inb 3 (mkMsg 3 2 0 7 0 0 (List.replicate 128 4)) fun l => { l with memReqs := [{ tag := 7, h := 4, strand := 0, line := 0, n := 2 }] }), 3, 7, _, by unfold LinkRuns; decide, rfl⟩,
   ⟨live, 3, by unfold LinkRuns; decide⟩,
   ⟨live, 3, 0, by unfold LinkRuns; decide, by decide⟩⟩

end Link

namespace Coll

def cc (l : List Fld) : Bytes := ds 0x20 ([(16, 8, 0x55), (24, 2, 4), (26, 2, 1), (28, 1, 1), (29, 1, 14), (32, 1, 3), (33, 1, 5)] ++ l)
def g1 : CollGroup := { grp0 with cage := 0, strands := 1, succ := [3], pred := [5] }
def g2 : CollGroup := { grp0 with cage := 0, gid := 5 }
def mem (s : State) : State := s.modCages fun x => { x with pages := [(0, { st := .resident, frame := 1, sticky := true })] }
def rg (g : CollGroup) (d : Bytes) : State := mem (coll g (rst d))
def reg (l : List Fld) (len := 0x1000) : Bytes := ds 0x22 ([(16, 1, 4), (17, 1, 1)] ++ l) len
def opd (op : Nat) (l : List Fld) : Bytes := ds op ([(16, 1, 4), (17, 1, 1), (18, 1, 1), (21, 1, 12), (28, 4, 64)] ++ l)
def descs : List Bytes := [cc [], cc [(16, 8, 5)], cc [(29, 1, 20)], cc [(30, 1, 1)], ds 0x21 [(16, 1, 4)], ds 0x21 [(16, 1, 9)], reg [], reg [(17, 1, 2)], reg [(18, 1, 1), (24, 8, 0)] 0x10000, reg [(18, 1, 1), (17, 1, 2)], reg [(17, 1, 2), (24, 8, 0x400000)], reg [(16, 1, 8)],
  opd 0x23 [], opd 0x24 [], opd 0x23 [(28, 4, 0)], opd 0x24 [(28, 4, 0)], opd 0x23 [(17, 1, 2)], opd 0x24 [(16, 1, 8)], opd 0x23 [(21, 1, 0), (20, 1, 6), (32, 8, 0x77)]]
def B : CollOp := { op0 with dtype := 1, count := 64, logC := 12, readySent := false }
def strd : Strand := { ready := true, grant := 4, given := 4 }
def R (f : CollOp → CollOp := id) : CollOp := f { B with readySent := true, strands := [(0, strd)] }
def wg (o : CollOp) (g : CollGroup := g1) (s : State := b8) : State := mem (coll { g with ops := [o] } s)
def on (k v : Nat) (m : Bytes) (s : State) : State := { s with links := [(3, if k = 3 then { L0 with rx := [(v, { inbox := [m, msg1 3], buf := 4 })] } else L0), (5, if k = 5 then { L0 with rx := [(v, { inbox := [m, msg1 3], buf := 4 })] } else L0)] }
def gm (ty : Nat) (l : List Fld) : Bytes := mkShort ty 0 0 0 0 (packFlds 40 ([(0, 8, 5)] ++ l))
def hel (l : List Fld) : Bytes := gm 0x16 ([(8, 2, 4), (10, 2, 0), (12, 1, 1), (13, 1, 14)] ++ l)
def ad (ph : AdmPh) : Adm := { ctx := 8, cage := 0, tag := 0x77, ph := ph, n := 2, f := 40, clusters := [4, 5] }
def wa (a : Adm) (s : State) : State := s.modCages fun x => { x with adms := [a] }
def om (ty seq off : Nat) (l : List Fld) (flags : Nat := 0) (key : Nat := 5) : Bytes := mkShort ty flags seq key off (packFlds 40 l)
def rdy (o : CollOp) : Bytes := om 0x14 o.seq 0 (readyBody o 4)
def dat (rs : Bool) (off n : Nat) (psn : Nat := 0) : Bytes := mkMsg (if rs then 0x11 else 0x10) n 0 (2 + psn * 65536) 5 off (List.replicate (64 * n) 6)
def fl (o : CollOp) : Nat := firstLine o (posOf g1 o 0 0 true)
def full (o : CollOp) (good : Bool) (retried : Bool := false) : CollOp := { o with strands := [(0, { strd with rx := [(0, { lines := [(0, { bs := List.replicate 64 6, psn := false }), (1, { bs := List.replicate 64 6, psn := false })], crc := some (if good then crc32c (List.replicate 128 6) else 5), retried := retried })] })] }
def AG (o : CollOp) : CollOp := { o with rs := false }
def sts : List State := [State.reset, live, b8] ++ descs.map (rg g2) ++ [cc [], reg [], opd 0x23 [], opd 0x24 [], ds 0x21 [(16, 1, 4)]].flatMap (fun d => [{ rg g2 d with mem := {} }, { rg g2 d with mem := { offline := true } }, rg { g2 with agOnly := true } d, rg { g2 with keysSucc := [] } d, rg { g2 with bufs := [] } d, rg { g2 with ops := [B], destroying := true } d, rg { g2 with ops := [B] } d]) ++
  [rg { g2 with ops := [B] } (reg [(18, 1, 1), (24, 8, 0)] 0x10000), coll { grp0 with chunkMax := 20, strands := 2 } (rst (cc [(29, 1, 20)])), { rg g2 (cc [(29, 1, 20)]) with coll := { groups := (List.range 8).map fun i => (i, some { g1 with cage := 3, chunkMax := 20, gid := i + 100, quarter := i % 4 }) } }, wa (ad .running) (rg g2 (opd 0x23 [(20, 1, 4), (32, 8, 0x77), (40, 1, 3), (41, 1, 1)]))] ++
  [gm 0x16 [], gm 0x17 [], gm 0x18 [], gm 0x19 []].map (fun m => on 3 1 m b8) ++
  [on 5 1 (hel []) (coll g1), on 5 1 (hel []) (coll { g1 with createCtx := some 4, succOk := [0] }), on 5 1 (hel [(10, 2, 1)]) (coll { g1 with createCtx := some 4, succOk := [0] }), on 5 1 (hel [(12, 1, 9)]) (coll { g1 with createCtx := some 4, succOk := [0] }),
   on 3 1 (gm 0x17 []) (coll { g1 with createCtx := some 4 }), on 3 1 (gm 0x17 [(9, 1, 3)]) (coll { g1 with createCtx := some 4 }), on 5 1 (gm 0x17 [(9, 1, 3)]) (coll { g1 with createCtx := some 4 }), on 3 1 (gm 0x17 [(8, 1, 1)]) (coll { g1 with createCtx := some 4 }),
   on 3 1 (gm 0x18 [(8, 1, 1), (12, 4, 99)]) (coll g1), on 5 1 (gm 0x18 [(8, 1, 1), (12, 4, 99)]) (coll { g1 with regs := [(1, 4)] }), on 5 1 (gm 0x18 [(8, 1, 1), (12, 4, 99)]) (coll { g1 with regs := [(1, 4)], keysSucc := [] }), on 3 1 (gm 0x19 []) (coll g1), on 3 1 (gm 0x19 []) (wg (R id)), on 3 1 (gm 0x19 []) (coll { g1 with broken := some (1, 3) }),
   coll { g1 with createCtx := some 4 }, coll { g1 with regs := [(1, 4), (2, 5)] }, wg (R fun o => { o with strands := [] }),
   wg { B with started := false }, wg { B with started := false } { g1 with broken := some (3, 5) }, wg { B with started := false } { g1 with aborts := [{ seq := 2, status := 7, detail := 8 }, { seq := 3, status := 7, detail := 8 }] },
   wg { B with bound := some 8 }, wa (ad .running) (wg { B with bound := some 8, gate := false }), wa (ad .paging) (wg { B with bound := some 8, gate := false }), wa (ad .running) (wg (R fun o => { o with bound := some 8, gate := false })), wa (ad .running) (wg (R fun o => { o with bound := some 8, gate := false, srcThresh := 4 })),
   on 3 1 (rdy (R id)) (wg (R fun o => { o with strands := [] })), on 3 1 (rdy (AG (R id))) (wg (R fun o => { o with strands := [] })), on 3 1 (rdy { (R id) with seq := 3 }) (wg (R fun o => { o with strands := [] })), on 3 1 (om 0x15 2 0 [(0, 1, 0x50), (4, 4, 7)]) (wg (R id)), on 3 1 (om 0x15 2 0 [(0, 1, 0x50), (4, 4, 7)]) (wg (R id) { g1 with p := 2, rank := 1 }), on 5 1 (om 0x15 2 0 [(0, 1, 0x50), (4, 4, 7)]) (wg (R id)),
   wg (R fun o => { o with strands := [(0, { strd with sent := 1 })] }), wg (R fun o => { o with ending := some (0x50, 3) }), { wg (R id) with coll := { (wg (R id)).coll with failed := 3 } },
   wg (R id), wg (AG (R id)), wg (R fun o => { o with strands := [(0, { strd with sent := 1, recv := 1, staged := [(0, [{ bs := List.replicate 64 4, psn := false }, { bs := List.replicate 64 4, psn := true }])] })] }), wg (AG (R fun o => { o with strands := [(0, { strd with sent := 1, recv := 1, crcs := [(0, 4)] })] })),
   on 5 1 (dat true (fl (R id)) 2) (wg (R id)), on 5 1 (dat false (fl (AG (R id))) 1) (wg (AG (R id))), on 5 1 (dat false (fl (AG (R id))) 1 1) (wg (AG (R id))), on 5 1 (dat true 77 2) (wg (R id)), on 5 1 (dat false 77 2) (wg (AG (R id))), on 3 1 (dat false 77 2) (wg (AG (R id))), on 5 2 (dat false 77 2) (b8),
   on 5 1 (om 0x12 2 (fl (R id)) [(0, 4, 99), (4, 4, 2)]) (wg (R id)), on 3 1 (om 0x12 2 0 []) (wg (R id)), on 5 1 (om 0x14 2 0 []) (wg (R id)), on 5 1 (om 0x13 2 0 []) (wg (R id)),
   wg (full (R id) true), wg (full (R id) false), wg (full (R id) false true), wg (full (AG (R id)) true), wg (full (AG (R id)) false), wg (full (AG (R id)) false true), wg (full (AG (R fun o => { o with bound := some 8 })) true),
   on 3 1 (om 0x13 2 0 []) (wg (R fun o => { o with strands := [(0, { strd with sent := 1, heldOut := [(0, [[5], [6]])] })] })), on 3 1 (om 0x13 2 0 [] 16) (wg (R fun o => { o with strands := [(0, { strd with sent := 1, heldOut := [(0, [[5], [6]])] })] }))]


def grps (s : State) : List CollGroup := s.coll.groups.filterMap (·.2)
def states1 : List State := sts

/-- The hypotheses of each clause of Obligations.CollectiveGroups are met together. -/
theorem test_witness_CollectiveGroups :
    (∃ (s : State) (f : Nat) (r : Nat) (e : Cand) (df : Tbl Nat) (p : W32) (d : Bytes), Taken specCollCreate 32 f r s e df p d ∧ gidOf s (fld d 16 8) = none ∧ (groupFor (freeCtx s) ((s.slot e.snd.fst).ring / 16) d s).staging ≤ stagingFree s (quarterFor s)) ∧
    (∃ (s : State) (f : Nat) (r : Nat) (e : Cand) (df : Tbl Nat) (p : W32) (d : Bytes) (x : Nat × CollGroup), Taken specCollCreate 32 f r s e df p d ∧ gidOf s (fld d 16 8) = some x) ∧
    (∃ (s : State) (f : Nat) (r : Nat) (e : Cand) (df : Tbl Nat) (p : W32) (d : Bytes), Taken specCollCreate 32 f r s e df p d ∧ gidOf s (fld d 16 8) = none ∧ stagingFree s (quarterFor s) < (groupFor (freeCtx s) ((s.slot e.snd.fst).ring / 16) d s).staging) ∧
    (∃ (s : State) (f : Nat) (r : Nat) (e : Cand) (df : Tbl Nat) (p : W32) (d : Bytes) (g : CollGroup), Taken specCollDestroy 33 f r s e df p d ∧ Stands s (byteAt d 16) g ∧ g.ops = [] ∧ g.regs = [] ∧ g.createCtx = none) ∧
    (∃ (s : State) (f : Nat) (r : Nat) (e : Cand) (df : Tbl Nat) (p : W32) (d : Bytes) (g : CollGroup), Taken specCollDestroy 33 f r s e df p d ∧ Stands s (byteAt d 16) g) ∧
    (∃ (s : State) (f : Nat) (r : Nat) (e : Cand) (df : Tbl Nat) (p : W32) (d : Bytes), Taken specCollDestroy 33 f r s e df p d ∧ (∀ (g : CollGroup), ¬Stands s (byteAt d 16) g)) ∧
    (∃ (s : State) (f : Nat) (r : Nat) (e : Cand) (df : Tbl Nat) (p : W32) (d : Bytes), Taken specCollReg 34 f r s e df p d ∧ (∀ (g : CollGroup), ¬Stands s (byteAt d 16) g)) ∧
    (∃ (x : Nat × OpSpec × (Nat → Nat → Instr)) (s : State) (f : Nat) (r : Nat) (e : Cand) (df : Tbl Nat) (p : W32) (d : Bytes), x ∈ [(35, specCollOp true, Instr.reduceScatter), (36, specCollOp false, Instr.allGather)] ∧ Taken x.snd.fst x.fst f r s e df p d) ∧
    (∃ (s : State) (f : Nat) (r : Nat) (e : Cand) (df : Tbl Nat) (p : W32) (d : Bytes) (g : CollGroup), Taken specCollReg 34 f r s e df p d ∧ Stands s (byteAt d 16) g ∧ bit (byteAt d 18) 0 = false ∧ g.buf (byteAt d 17) = none ∧ (∀ (q : Nat), q ∈ pagesOf (opB d) (opLen d) → (s.page ((s.slot e.snd.fst).ring / 16) q).sticky = true)) ∧
    (∃ (s : State) (f : Nat) (r : Nat) (e : Cand) (df : Tbl Nat) (p : W32) (d : Bytes) (g : CollGroup), Taken specCollReg 34 f r s e df p d ∧ Stands s (byteAt d 16) g ∧ bit (byteAt d 18) 0 = false ∧ ((g.buf (byteAt d 17)).isSome = true ∨ ∃ q, q ∈ pagesOf (opB d) (opLen d) ∧ (s.page ((s.slot e.snd.fst).ring / 16) q).sticky = false)) ∧
    (∃ (s : State) (f : Nat) (r : Nat) (e : Cand) (df : Tbl Nat) (p : W32) (d : Bytes) (g : CollGroup) (b : CollBuf), Taken specCollReg 34 f r s e df p d ∧ Stands s (byteAt d 16) g ∧ bit (byteAt d 18) 0 = true ∧ g.buf (byteAt d 17) = some b ∧ (∀ (o : CollOp), o ∈ g.ops → o.index ≠ byteAt d 17)) ∧
    (∃ (s : State) (f : Nat) (r : Nat) (e : Cand) (df : Tbl Nat) (p : W32) (d : Bytes) (g : CollGroup), Taken specCollReg 34 f r s e df p d ∧ Stands s (byteAt d 16) g ∧ bit (byteAt d 18) 0 = true ∧ (g.buf (byteAt d 17) = none ∨ ∃ o, o ∈ g.ops ∧ o.index = byteAt d 17)) :=
  ⟨⟨(states1.getD 3 .reset), 0, 0, (0, 0, 1), [(0, 15)], 4, headOf (states1.getD 3 .reset), by unfold Taken; decide +kernel, by decide, by decide⟩,
   ⟨(states1.getD 4 .reset), 0, 0, (0, 0, 1), [(0, 15)], 4, headOf (states1.getD 4 .reset), _, by unfold Taken; decide +kernel, rfl⟩,
   ⟨(states1.getD 59 .reset), 0, 0, (0, 0, 1), [(0, 15)], 4, headOf (states1.getD 59 .reset), by unfold Taken; decide +kernel, by decide, by decide⟩,
   ⟨(states1.getD 7 .reset), 0, 0, (0, 0, 1), [(0, 15)], 4, headOf (states1.getD 7 .reset), _, by unfold Taken; decide +kernel, ⟨rfl, by decide⟩, by decide, by decide, by decide⟩,
   ⟨(states1.getD 7 .reset), 0, 0, (0, 0, 1), [(0, 15)], 4, headOf (states1.getD 7 .reset), _, by unfold Taken; decide +kernel, ⟨rfl, by decide⟩⟩,
   ⟨(states1.getD 8 .reset), 0, 0, (0, 0, 1), [(0, 15)], 4, headOf (states1.getD 8 .reset), by unfold Taken; decide +kernel, fun _ h => nomatch h⟩,
   ⟨(states1.getD 14 .reset), 0, 0, (0, 0, 1), [(0, 15)], 4, headOf (states1.getD 14 .reset), by unfold Taken; decide +kernel, fun _ h => nomatch h⟩,
   ⟨_, (states1.getD 15 .reset), 0, 0, (0, 0, 1), [(0, 15)], 4, headOf (states1.getD 15 .reset), List.mem_of_getElem? (i := 0) rfl, by unfold Taken; decide +kernel⟩,
   ⟨(states1.getD 10 .reset), 0, 0, (0, 0, 1), [(0, 15)], 4, headOf (states1.getD 10 .reset), _, by unfold Taken; decide +kernel, ⟨rfl, by decide⟩, by decide, by decide, by decide⟩,
   ⟨(states1.getD 9 .reset), 0, 0, (0, 0, 1), [(0, 15)], 4, headOf (states1.getD 9 .reset), _, by unfold Taken; decide +kernel, ⟨rfl, by decide⟩, by decide, by decide⟩,
   ⟨(states1.getD 11 .reset), 0, 0, (0, 0, 1), [(0, 15)], 4, headOf (states1.getD 11 .reset), _, _, by unfold Taken; decide +kernel, ⟨rfl, by decide⟩, by decide, rfl, by decide⟩,
   ⟨(states1.getD 12 .reset), 0, 0, (0, 0, 1), [(0, 15)], 4, headOf (states1.getD 12 .reset), _, by unfold Taken; decide +kernel, ⟨rfl, by decide⟩, by decide, by decide⟩⟩

/-- The hypotheses of each clause of Obligations.GroupMessages are met together. -/
theorem test_witness_GroupMessages :
    (∃ (x : Nat × (Nat → Instr)) (s : State) (k : Nat) (m : Bytes), x ∈ [(22, Instr.groupHello), (23, Instr.groupAck), (24, Instr.keyOffer), (25, Instr.groupBye)] ∧ Waits s k 1 x.fst m ∧ gidOf s (fld m 16 8) = none) ∧
    (∃ (s : State) (k : Nat) (m : Bytes) (h : Nat) (g : CollGroup), Waits s k 1 22 m ∧ gidOf s (fld m 16 8) = some (h, g) ∧ s.grp h = some g ∧ helloCode g k m = 0) ∧
    (∃ (s : State) (k : Nat) (m : Bytes) (h : Nat) (g : CollGroup) (n : Nat), Waits s k 1 22 m ∧ gidOf s (fld m 16 8) = some (h, g) ∧ s.grp h = some g ∧ helloCode g k m = 0 ∧ g.createCtx = some n ∧ (∀ (j : Nat), j < g.strands → j ∈ g.succOk ∧ j ∈ nadd g.predOk (byteAt m 31))) ∧
    (∃ (s : State) (k : Nat) (m : Bytes) (h : Nat) (g : CollGroup) (n : Nat), Waits s k 1 22 m ∧ gidOf s (fld m 16 8) = some (h, g) ∧ s.grp h = some g ∧ helloCode g k m ≠ 0 ∧ g.createCtx = some n) ∧
    (∃ (s : State) (h : Nat) (g : CollGroup), s.dataUp = true ∧ s.grp h = some g ∧ (∀ (i j : Nat), i < g.strands → j < g.strands → g.succ.getD i 0 = g.succ.getD j 0 → i = j)) ∧
    (∃ (s : State) (k : Nat) (m : Bytes) (h : Nat) (g : CollGroup), Waits s k 1 23 m ∧ gidOf s (fld m 16 8) = some (h, g) ∧ s.grp h = some g ∧ byteAt m 24 < g.strands ∧ g.succ.getD (byteAt m 24) 0 = k ∧ byteAt m 25 = 0) ∧
    (∃ (s : State) (k : Nat) (m : Bytes) (h : Nat) (g : CollGroup) (n : Nat), Waits s k 1 23 m ∧ gidOf s (fld m 16 8) = some (h, g) ∧ s.grp h = some g ∧ byteAt m 24 < g.strands ∧ g.succ.getD (byteAt m 24) 0 = k ∧ byteAt m 25 ≠ 0 ∧ g.createCtx = some n) ∧
    (∃ (s : State) (k : Nat) (m : Bytes) (h : Nat) (g : CollGroup), Waits s k 1 23 m ∧ gidOf s (fld m 16 8) = some (h, g) ∧ (g.strands ≤ byteAt m 24 ∨ g.succ.getD (byteAt m 24) 0 ≠ k)) ∧
    (∃ (s : State) (k : Nat) (m : Bytes) (h : Nat) (g : CollGroup), Waits s k 1 24 m ∧ gidOf s (fld m 16 8) = some (h, g) ∧ s.grp h = some g) ∧
    (∃ (s : State) (k : Nat) (m : Bytes) (h : Nat) (g : CollGroup) (i : Nat) (n : Nat) (b : CollBuf), Waits s k 1 24 m ∧ gidOf s (fld m 16 8) = some (h, g) ∧ s.grp h = some g ∧ g.regs = [(i, n)] ∧ g.buf i = some b ∧ byteAt m 24 = i ∧ fld m 28 4 ≠ 0 ∧ (g.succ.getD 0 0 = k ∨ g.keyTo true i ≠ 0) ∧ (g.pred.getD 0 0 = k ∨ g.keyTo false i ≠ 0)) ∧
    (∃ (s : State) (k : Nat) (m : Bytes) (h : Nat) (g : CollGroup), Waits s k 1 25 m ∧ gidOf s (fld m 16 8) = some (h, g) ∧ s.grp h = some g ∧ g.broken = none) ∧
    (∃ (s : State) (h : Nat) (g : CollGroup) (n : Nat), s.dataUp = true ∧ s.grp h = some g ∧ g.createCtx = some n) ∧
    (∃ (s : State) (h : Nat) (i : Nat) (g : CollGroup) (x : Nat × Nat) (b : CollBuf), s.dataUp = true ∧ s.grp h = some g ∧ List.find? (fun e => e.fst == i) g.regs = some x ∧ g.buf i = some b) ∧
    (∃ (s : State) (h : Nat) (w : Nat) (g : CollGroup) (o : CollOp) (j : Nat), s.dataUp = true ∧ 2 ≤ w ∧ s.grp h = some g ∧ g.cur = some o ∧ List.find? (fun j => !(o.strand j).ready) (List.range g.strands) = some j) :=
  ⟨⟨_, (states1.getD 61 .reset), 3, _, List.mem_of_getElem? (i := 0) rfl, ⟨by unfold LinkRuns; decide, rfl, by decide⟩, by decide⟩,
   ⟨(states1.getD 65 .reset), 5, _, _, _, ⟨by unfold LinkRuns; decide, rfl, by decide⟩, rfl, by decide, by decide⟩,
   ⟨(states1.getD 66 .reset), 5, _, _, _, _, ⟨by unfold LinkRuns; decide, rfl, by decide⟩, rfl, by decide, by decide, rfl, by decide⟩,
   ⟨(states1.getD 67 .reset), 5, _, _, _, _, ⟨by unfold LinkRuns; decide, rfl, by decide⟩, rfl, by decide, by decide, rfl⟩,
   ⟨coll g1 b8, 4, _, by decide, rfl, fun _ _ hi hj _ => (Nat.lt_one_iff.mp hi).trans (Nat.lt_one_iff.mp hj).symm⟩,
   ⟨(states1.getD 69 .reset), 3, _, _, _, ⟨by unfold LinkRuns; decide, rfl, by decide⟩, rfl, by decide, by decide, by decide, by decide⟩,
   ⟨(states1.getD 70 .reset), 3, _, _, _, _, ⟨by unfold LinkRuns; decide, rfl, by decide⟩, rfl, by decide, by decide, by decide, by decide, rfl⟩,
   ⟨(states1.getD 71 .reset), 5, _, _, _, ⟨by unfold LinkRuns; decide, rfl, by decide⟩, rfl, by decide⟩,
   ⟨(states1.getD 73 .reset), 3, _, _, _, ⟨by unfold LinkRuns; decide, rfl, by decide⟩, rfl, by decide⟩,
   ⟨(states1.getD 74 .reset), 5, _, _, _, _, _, _, ⟨by unfold LinkRuns; decide, rfl, by decide⟩, rfl, by decide, rfl, rfl, by decide, by decide, by decide, by decide⟩,
   ⟨(states1.getD 76 .reset), 3, _, _, _, ⟨by unfold LinkRuns; decide, rfl, by decide⟩, rfl, by decide, by decide⟩,
   ⟨(states1.getD 66 .reset), 4, _, _, by decide, rfl, rfl⟩,
   ⟨(states1.getD 74 .reset), 4, 1, _, _, _, by decide, rfl, rfl, rfl⟩,
   ⟨(states1.getD 27 .reset), 4, 4, _, _, _, by decide, by decide, rfl, rfl, rfl⟩⟩

/-- The hypotheses of each clause of Obligations.CollectiveOperations are met together. -/
theorem test_witness_CollectiveOperations :
    (∃ (x : Nat × Bool × (Nat → Nat → Instr)) (s : State) (f : Nat) (r : Nat) (e : Cand) (df : Tbl Nat) (p : W32) (d : Bytes) (g : CollGroup), x ∈ [(35, true, Instr.reduceScatter), (36, false, Instr.allGather)] ∧ Taken (specCollOp x.snd.fst) x.fst f r s e df p d ∧ MemReady s ∧ Stands s (byteAt d 16) g) ∧
    (∃ (s : State) (h : Nat) (g : CollGroup) (o : CollOp) (r : List CollOp) (v : CollGroup), s.dataUp = true ∧ s.grp h = some g ∧ g.ops = o :: r ∧ o.started = false ∧ g.createCtx = none ∧ g.destroying = false ∧ v = { cage := g.cage, gid := g.gid, p := g.p, rank := g.rank, strands := g.strands, chunkMax := g.chunkMax, agOnly := g.agOnly, succ := g.succ, pred := g.pred, waitUs := g.waitUs, quarter := g.quarter, createCtx := g.createCtx, succOk := g.succOk, predOk := g.predOk, bufs := g.bufs, keysSucc := g.keysSucc, keysPred := g.keysPred, regs := g.regs, opSeq := g.opSeq, ops := { ctx := o.ctx, seq := o.seq, rs := o.rs, index := o.index, dtype := o.dtype, op := o.op, acc32 := o.acc32, bulk := o.bulk, logC := o.logC, offset := o.offset, count := o.count, issueAt := o.issueAt, bound := o.bound, dropped := o.dropped, ctr := o.ctr, cl := o.cl, srcCtr := o.srcCtr, srcCl := o.srcCl, srcThresh := o.srcThresh, started := true, readySent := o.readySent, gate := o.bound.isNone, strands := o.strands, landed := o.landed, counted := o.counted, written := o.written, poison := o.poison, ending := o.ending } :: r, early := g.early, aborts := List.filter (fun a => a.seq != o.seq) g.aborts, broken := g.broken, destroying := g.destroying, destroyCtx := g.destroyCtx }) ∧
    (∃ (s : State) (h : Nat) (g : CollGroup) (o : CollOp) (n : Nat), s.dataUp = true ∧ s.grp h = some g ∧ g.cur = some o ∧ o.bound = some n) ∧
    (∃ (s : State) (h : Nat) (g : CollGroup) (o : CollOp) (n : Nat) (a : Adm), s.dataUp = true ∧ Runs s h g o ∧ o.bound = some n ∧ s.adm n = some a ∧ o.readySent = false ∧ readyHeld s g o = false ∧ g.early = []) ∧
    (∃ (s : State) (h : Nat) (g : CollGroup) (o : CollOp) (n : Nat) (a : Adm), s.dataUp = true ∧ s.grp h = some g ∧ g.cur = some o ∧ o.bound = some n ∧ s.adm n = some a ∧ a.ph = AdmPh.running ∧ o.srcThresh ≤ BitVec.toNat (tget 0 (s.clus (a.clusters.getD o.srcCl 0)).arrs o.srcCtr)) ∧
    (∃ (s : State) (k : Nat) (m : Bytes) (h : Nat) (g : CollGroup) (o : CollOp) (j : Nat), OpWaits s k 1 20 true m h g o j ∧ o.readySent = true ∧ (o.strand j).ready = false ∧ List.take 5 (List.drop 16 m) = List.take 5 (packFlds 40 (readyBody o 0)) ∧ fld m 24 4 = o.count) ∧
    (∃ (s : State) (k : Nat) (m : Bytes) (h : Nat) (g : CollGroup) (o : CollOp) (j : Nat), OpWaits s k 1 20 true m h g o j ∧ o.readySent = true ∧ (List.take 5 (List.drop 16 m) ≠ List.take 5 (packFlds 40 (readyBody o 0)) ∨ fld m 24 4 ≠ o.count)) ∧
    (∃ (s : State) (k : Nat) (m : Bytes) (h : Nat) (g : CollGroup) (j : Nat), Waits s k 1 20 m ∧ opTarget s k true m = some (h, g, j, false)) ∧
    (∃ (s : State) (k : Nat) (m : Bytes) (h : Nat) (g : CollGroup) (o : CollOp) (j : Nat), OpWaits s k 1 21 true m h g o j) ∧
    (∃ (s : State) (k : Nat) (m : Bytes) (h : Nat) (g : CollGroup) (o : CollOp) (j : Nat), OpWaits s k 1 21 false m h g o j ∧ opTarget s k true m = none) ∧
    (∃ (s : State) (h : Nat) (k : Nat) (g : CollGroup) (o : CollOp), s.dataUp = true ∧ s.grp h = some g ∧ g.cur = some o ∧ (k ∈ g.succ ∨ k ∈ g.pred) ∧ (∃ j, j < g.strands ∧ ((o.strand j).sent ≠ 0 ∨ (o.strand j).recv ≠ 0 ∨ (o.strand j).rx ≠ []))) ∧
    (∃ (s : State) (h : Nat) (g : CollGroup) (o : CollOp) (st : Nat) (dt : Nat), s.dataUp = true ∧ s.grp h = some g ∧ g.cur = some o ∧ o.ending = some (st, dt)) ∧
    (∃ (s : State), s.dataUp = true) :=
  ⟨⟨_, (states1.getD 15 .reset), 0, 0, (0, 0, 1), [(0, 15)], 4, headOf (states1.getD 15 .reset), _, List.mem_of_getElem? (i := 0) rfl, by unfold Taken; decide +kernel, by unfold MemReady; decide, ⟨rfl, by decide⟩⟩,
   ⟨(states1.getD 82 .reset), 4, _, _, _, _, by decide, rfl, rfl, by decide, by decide, by decide, rfl⟩,
   ⟨(states1.getD 85 .reset), 4, _, _, _, by decide, rfl, rfl, rfl⟩,
   ⟨(states1.getD 86 .reset), 4, _, _, _, _, by decide, ⟨rfl, rfl, by decide⟩, rfl, rfl, by decide, by decide, by decide⟩,
   ⟨(states1.getD 86 .reset), 4, _, _, _, _, by decide, rfl, rfl, rfl, rfl, by decide, by decide⟩,
   ⟨(states1.getD 90 .reset), 3, _, _, _, _, _, ⟨⟨by unfold LinkRuns; decide, rfl, by decide⟩, rfl, ⟨by decide, rfl, by decide⟩⟩, by decide, by decide, by decide, by decide⟩,
   ⟨(states1.getD 91 .reset), 3, _, _, _, _, _, ⟨⟨by unfold LinkRuns; decide, rfl, by decide⟩, rfl, ⟨by decide, rfl, by decide⟩⟩, by decide, by decide⟩,
   ⟨(states1.getD 92 .reset), 3, _, _, _, _, ⟨by unfold LinkRuns; decide, rfl, by decide⟩, rfl⟩,
   ⟨(states1.getD 93 .reset), 3, _, _, _, _, _, ⟨⟨by unfold LinkRuns; decide, rfl, by decide⟩, rfl, ⟨by decide, rfl, by decide⟩⟩⟩,
   ⟨(states1.getD 95 .reset), 5, _, _, _, _, _, ⟨⟨by unfold LinkRuns; decide, rfl, by decide⟩, rfl, ⟨by decide, rfl, by decide⟩⟩, by decide⟩,
   ⟨(states1.getD 96 .reset), 4, 3, _, _, by decide, rfl, rfl, by decide, by decide⟩,
   ⟨(states1.getD 97 .reset), 4, _, _, _, _, by decide, rfl, rfl, rfl⟩,
   ⟨(states1.getD 1 .reset), by decide⟩⟩

/-- The hypotheses of each clause of Obligations.CollectiveChunks are met together. -/
theorem test_witness_CollectiveChunks :
    (∃ (s : State) (q : Nat) (b : Bool) (h : Nat) (g : CollGroup) (o : CollOp) (j : Nat) (c : Nat), s.dataUp = true ∧ q < 4 ∧ collWork s q b = [(h, c)] ∧ (collWork s q !b) = [] ∧ Runs s h g o ∧ startable s h = [j]) ∧
    (∃ (s : State) (k : Nat) (w : Nat) (m : Bytes) (h : Nat) (g : CollGroup) (o : CollOp) (j : Nat) (q : Nat), OpWaits s k (w % 2 + 1) 17 false m h g o j ∧ o.rs = true ∧ chunkOf g o j (msgOffset m) = some q ∧ ((o.strand j).got q).crc = none ∧ msgOffset m - firstLine o (posOf g o j q true) = List.length ((o.strand j).got q).lines ∧ List.length ((o.strand j).got q).lines + msgLines m ≤ chunkLines o (posOf g o j q true)) ∧
    (∃ (s : State) (k : Nat) (w : Nat) (m : Bytes) (h : Nat) (g : CollGroup) (o : CollOp) (j : Nat) (q : Nat), OpWaits s k (w % 2 + 1) 16 false m h g o j ∧ o.rs = false ∧ chunkOf g o j (msgOffset m) = some q ∧ ((o.strand j).got q).crc = none ∧ msgOffset m - firstLine o (posOf g o j q true) = List.length ((o.strand j).got q).lines ∧ List.length ((o.strand j).got q).lines + msgLines m ≤ chunkLines o (posOf g o j q true) ∧ (∀ (l : CLine), l ∈ linesOf m → l.psn = false)) ∧
    (∃ (s : State) (k : Nat) (w : Nat) (m : Bytes) (h : Nat) (g : CollGroup) (o : CollOp) (j : Nat), OpWaits s k (w % 2 + 1) (if o.rs = true then 17 else 16) false m h g o j ∧ chunkOf g o j (msgOffset m) = none) ∧
    (∃ (s : State) (k : Nat) (w : Nat) (m : Bytes), (Waits s k (w % 2 + 1) 16 m ∨ Waits s k (w % 2 + 1) 17 m) ∧ opTarget s k false m = none) ∧
    (∃ (s : State) (k : Nat) (w : Nat) (m : Bytes) (h : Nat) (g : CollGroup) (o : CollOp) (j : Nat) (q : Nat), OpWaits s k (w % 2 + 1) 18 false m h g o j ∧ chunkOf g o j (msgOffset m) = some q ∧ msgOffset m = firstLine o (posOf g o j q true) ∧ fld m 20 4 = chunkLines o (posOf g o j q true) ∧ ((o.strand j).got q).crc = none) ∧
    (∃ (s : State) (k : Nat) (w : Nat) (m : Bytes), Waits s k (w % 2 + 1) 18 m ∧ opTarget s k false m = none) ∧
    (∃ (x : Nat × (Nat → Instr)) (s : State) (k : Nat) (m : Bytes), x ∈ [(20, Instr.opReady), (19, Instr.chunkAck)] ∧ Waits s k 1 x.fst m ∧ opTarget s k true m = none) ∧
    (∃ (s : State) (h : Nat) (g : CollGroup) (o : CollOp) (j : Nat), Whole s h g o j false ∧ ((o.strand j).got (o.strand j).recv).retried = true) ∧
    (∃ (s : State) (h : Nat) (g : CollGroup) (o : CollOp) (j : Nat), Whole s h g o j false ∧ ((o.strand j).got (o.strand j).recv).retried = false ∧ o.rs = true) ∧
    (∃ (s : State) (h : Nat) (g : CollGroup) (o : CollOp) (j : Nat), Whole s h g o j false ∧ ((o.strand j).got (o.strand j).recv).retried = false ∧ o.rs = false) ∧
    (∃ (s : State) (h : Nat) (g : CollGroup) (o : CollOp) (j : Nat) (mism : Nat), Whole s h g o j true ∧ o.rs = true ∧ 2 ≤ mism) ∧
    (∃ (s : State) (h : Nat) (g : CollGroup) (o : CollOp) (j : Nat) (mism : Nat), Whole s h g o j true ∧ o.rs = true ∧ mism < 2) ∧
    (∃ (s : State) (h : Nat) (g : CollGroup) (o : CollOp) (j : Nat), Whole s h g o j true ∧ o.rs = false) ∧
    (∃ (s : State) (k : Nat) (m : Bytes) (h : Nat) (g : CollGroup) (o : CollOp) (j : Nat), OpWaits s k 1 19 true m h g o j ∧ (o.strand j).acked < (o.strand j).sent ∧ msgStatus m = 0) ∧
    (∃ (s : State) (k : Nat) (m : Bytes) (h : Nat) (g : CollGroup) (o : CollOp) (j : Nat) (x : Nat × List Bytes), OpWaits s k 1 19 true m h g o j ∧ (o.strand j).acked < (o.strand j).sent ∧ msgStatus m ≠ 0 ∧ List.find? (fun e => e.fst == (o.strand j).acked) (o.strand j).heldOut = some x) :=
  ⟨⟨(states1.getD 77 .reset), 0, false, _, _, _, _, _, by decide, by decide, rfl, by decide, ⟨rfl, rfl, by decide⟩, rfl⟩,
   ⟨(states1.getD 103 .reset), 5, 4, _, _, _, _, _, _, ⟨⟨by unfold LinkRuns; decide, rfl, by decide⟩, rfl, ⟨by decide, rfl, by decide⟩⟩, by decide, rfl, by decide, by decide, by decide⟩,
   ⟨(states1.getD 104 .reset), 5, 4, _, _, _, _, _, _, ⟨⟨by unfold LinkRuns; decide, rfl, by decide⟩, rfl, ⟨by decide, rfl, by decide⟩⟩, by decide, rfl, by decide, by decide, by decide, by decide⟩,
   ⟨(states1.getD 106 .reset), 5, 4, dat true 77 2, _, _, _, _, ⟨by unfold Waits LinkRuns; decide, rfl, ⟨by decide, rfl, by decide⟩⟩, by decide⟩,
   ⟨(states1.getD 108 .reset), 3, 4, dat false 77 2, by unfold Waits LinkRuns; decide, by decide⟩,
   ⟨(states1.getD 110 .reset), 5, 4, _, _, _, _, _, _, ⟨⟨by unfold LinkRuns; decide, rfl, by decide⟩, rfl, ⟨by decide, rfl, by decide⟩⟩, rfl, by decide, by decide, by decide⟩,
   ⟨(states1.getD 111 .reset), 3, 4, _, ⟨by unfold LinkRuns; decide, rfl, by decide⟩, by decide⟩,
   ⟨_, (states1.getD 112 .reset), 5, _, List.mem_of_getElem? (i := 0) rfl, ⟨by unfold LinkRuns; decide, rfl, by decide⟩, by decide⟩,
   ⟨(states1.getD 116 .reset), 4, _, _, 0, ⟨by decide, ⟨rfl, rfl, by decide⟩, by decide, by decide⟩, by decide⟩,
   ⟨(states1.getD 115 .reset), 4, _, _, 0, ⟨by decide, ⟨rfl, rfl, by decide⟩, by decide, by decide⟩, by decide, by decide⟩,
   ⟨(states1.getD 118 .reset), 4, _, _, 0, ⟨by decide, ⟨rfl, rfl, by decide⟩, by decide, by decide⟩, by decide, by decide⟩,
   ⟨(states1.getD 114 .reset), 4, _, _, 0, 4, ⟨by decide, ⟨rfl, rfl, by decide⟩, by decide, by decide⟩, by decide, by decide⟩,
   ⟨(states1.getD 114 .reset), 4, _, _, 0, 0, ⟨by decide, ⟨rfl, rfl, by decide⟩, by decide, by decide⟩, by decide, by decide⟩,
   ⟨(states1.getD 117 .reset), 4, _, _, 0, ⟨by decide, ⟨rfl, rfl, by decide⟩, by decide, by decide⟩, by decide⟩,
   ⟨(states1.getD 121 .reset), 3, _, _, _, _, _, ⟨⟨by unfold LinkRuns; decide, rfl, by decide⟩, rfl, ⟨by decide, rfl, by decide⟩⟩, by decide, by decide⟩,
   ⟨(states1.getD 122 .reset), 3, _, _, _, _, _, _, ⟨⟨by unfold LinkRuns; decide, rfl, by decide⟩, rfl, ⟨by decide, rfl, by decide⟩⟩, by decide, by decide, rfl⟩⟩

end Coll

namespace Regs

def b (l : List (Nat × Ring)) (f : Fn → Fn) (r : Rpt := {}) : State := { live with host := { live.host with vfEn := true, vfMse := true, inL1 := true, fns := [(0, f pf), (2, f pf)] }, rings := { rings := l, rpts := [(0, r), (2, r)] } }

/-- The hypotheses of each clause of Obligations.RegisterWrites are met together. -/
theorem test_witness_RegisterWrites :
    (∃ (s : State) (f : Nat) (off : Nat), Reaches s f ∧ off % 8 = 0) ∧
    (∃ (s : State) (f : Nat) (off : Nat) (size : Nat), Reaches s f ∧ inSetup f off = true ∧ sizeOk off size = false) ∧
    (∃ (s : State) (f : Nat), s.up = true ∧ windowOpen s f = false) ∧
    (∃ (s : State) (f : Nat), Reaches s f ∧ (s.fn f).dblEn = false) ∧
    (∃ (off : Nat) (s : State) (f : Nat), off ∈ [8, 12] ∧ Reaches s f ∧ (s.fn f).dblEn = true) ∧
    (∃ (s : State) (f : Nat) (v : W64), Reaches s f ∧ (s.fn f).dblEn = false ∧ (s.fn f).dblAddr ≠ 0 ∧ bit (BitVec.toNat v) 0 = true) ∧
    (∃ (s : State) (f : Nat) (v : W64), Reaches s f ∧ (s.fn f).dblEn = false ∧ (s.fn f).dblAddr = 0 ∧ bit (BitVec.toNat v) 0 = true) ∧
    (∃ (s : State) (f : Nat) (v : W64), Reaches s f ∧ (s.fn f).dblEn = true ∧ bit (BitVec.toNat v) 0 = false) ∧
    (∃ (s : State) (f : Nat) (i : Nat), Reaches s f ∧ i < 16 ∧ (s.ring (ringKey f i)).en = false) ∧
    (∃ (off : Nat) (s : State) (f : Nat) (i : Nat), off ∈ [0, 4, 8, 12] ∧ Reaches s f ∧ i < 16 ∧ (s.ring (ringKey f i)).en = true) ∧
    (∃ (s : State) (f : Nat), Reaches s f ∧ (s.rpt f).en = false) ∧
    (∃ (s : State) (f : Nat) (i : Nat), Reaches s f ∧ i < vecCount f) ∧
    (∃ (s : State), Reaches s 0 ∧ (∀ (h : Nat), s.grp h = none) ∧ (∀ (e : Nat × Option CollGroup), e ∈ s.coll.groups → e.snd = none)) ∧
    (∃ (s : State), Reaches s 0 ∧ (∃ e, e ∈ s.coll.groups ∧ e.snd.isSome = true)) ∧
    (∃ (s : State) (f : Nat) (off : Nat), Reaches s f ∧ f ≠ 0 ∧ 1024 ≤ off ∧ off < 4096 ∧ off % 4 = 0) ∧
    (∃ (s : State), Reaches s 0) ∧
    (∃ (s : State) (f : Nat), Reaches s f) ∧
    (∃ (s : State), Reaches s 0 ∧ s.mgmt.fuses.lc ≠ LifeCycle.maker) ∧
    (∃ (s : State) (off : Nat), Reaches s 0 ∧ s.mgmt.fuses.lc = LifeCycle.maker ∧ 5504 ≤ off ∧ off < 5632) ∧
    (∃ (s : State) (k : Nat), Reaches s 0 ∧ s.mgmt.fuses.lc = LifeCycle.maker ∧ k < 4) :=
  ⟨⟨live, 0, 0, by unfold Reaches; decide, by decide⟩,
   ⟨live, 0, 0, 0, by unfold Reaches; decide, by decide, by decide⟩,
   ⟨live, 2, by decide, by decide⟩,
   ⟨live, 0, by unfold Reaches; decide, by decide⟩,
   ⟨_, b [] (fun x => { x with dblEn := true, dblAddr := 0x4000, readsOut := [{ kind := .poll, discard := false }] }), 0, List.mem_of_getElem? (i := 0) rfl, by unfold Reaches; decide, by decide⟩,
   ⟨b [(0, { en := true }), (34, { en := true })] (fun x => { x with dblAddr := 0x4000, errSize := true, errAri := true }) { errSize := true, errBase := true }, 0, 1, by unfold Reaches; decide, by decide, by decide, by decide⟩,
   ⟨live, 0, 1, by unfold Reaches; decide, by decide, by decide, by decide⟩,
   ⟨b [] (fun x => { x with dblEn := true, dblAddr := 0x4000, readsOut := [{ kind := .poll, discard := false }] }), 0, 0, by unfold Reaches; decide, by decide, by decide⟩,
   ⟨live, 0, 0, by unfold Reaches; decide, by decide, by decide⟩,
   ⟨_, b [(0, { en := true }), (34, { en := true })] (fun x => { x with dblAddr := 0x4000, errSize := true, errAri := true }) { errSize := true, errBase := true }, 0, 0, List.mem_of_getElem? (i := 0) rfl, by unfold Reaches; decide, by decide, by decide⟩,
   ⟨live, 0, by unfold Reaches; decide, by decide⟩,
   ⟨live, 0, 0, by unfold Reaches; decide, by decide⟩,
   ⟨live, by unfold Reaches; decide, fun _ => rfl, by decide⟩,
   ⟨coll grp0 live, by unfold Reaches; decide, by decide⟩,
   ⟨b [] id, 2, 0x404, by unfold Reaches; decide, by decide, by decide, by decide, by decide⟩,
   ⟨live, by unfold Reaches; decide⟩,
   ⟨live, 0, by unfold Reaches; decide⟩,
   ⟨live, by unfold Reaches; decide, by decide⟩,
   ⟨{ live with mgmt := { fuses := { lc := .maker }, traceEn := true } }, 0x1584, by unfold Reaches; decide, by decide, by decide, by decide⟩,
   ⟨{ live with mgmt := { fuses := { lc := .maker }, traceEn := true } }, 0, by unfold Reaches; decide, by decide, by decide⟩⟩

end Regs

namespace Start

def base : State := { live with sup := { live.sup with mainIn := true }, now := 10 ^ 9, ao := { rowTime := 77, noticeDue := false } }
def ao (f : AlwaysOn → AlwaysOn) (s : State := base) : State := s.modAo f
def off (f : Supply → Supply) : State := { base with sup := f { steward := true, perstHigh := true }, host := {} }
def bst : State := { ao := {}, sup := {}, now := 5000 }

/-- The hypotheses of each clause of Obligations.Resets are met together. -/
theorem test_witness_Resets :
    (∃ (s : State), s.ao.aux = false) ∧
    (∃ (s : State), s.ao.aux = true) ∧
    (∃ (s : State), s.stew = true ∧ s.ao.resetDue = none) ∧
    (∃ (s : State) (t : Nat), s.ao.resetDue = some t ∧ s.mgmt.storing = none) ∧
    (∃ (s : State), (s.ao.resetDue = none ∨ s.mgmt.storing.isSome = true)) ∧
    (∃ (s : State), s.stew = true ∧ s.mgmt.erasing = true ∧ s.ao.resetDue = none) ∧
    (∃ (s : State), s.sup.perstHigh = true ∧ s.ao.aux = true ∧ s.sup.regs = true) ∧
    (∃ (s : State), s.sup.perstHigh = true ∧ s.sup.regs = false) ∧
    (∃ (s : State), s.sup.perstHigh = false) ∧
    (∃ (x : Nat × Instr) (s : State), x ∈ [(11, Instr.hotReset), (12, Instr.dlDown)] ∧ s.host.linkUp = true ∧ s.ao.aux = true ∧ s.sup.regs = true) ∧
    (∃ (x : Instr) (s : State), x ∈ [Instr.hotReset, Instr.dlDown] ∧ s.host.linkUp = false) ∧
    (∃ (s : State) (i : Nat), (tapPermitted s i = false ∨ i < 2)) ∧
    (∃ (s : State) (i : Nat), tapPermitted s i = true ∧ 2 ≤ i ∧ s.ao.tapHold = false ∧ s.ao.aux = true ∧ s.sup.regs = true) ∧
    (∃ (s : State) (i : Nat), tapPermitted s i = true ∧ 2 ≤ i ∧ s.ao.tapHold = true) :=
  ⟨⟨ao (fun a => { a with aux := false, latch := true, suspended := true, cause := { trigger := 31 } }), by decide⟩,
   ⟨State.reset, by decide⟩,
   ⟨live, by decide, by decide⟩,
   ⟨ao (fun a => { a with resetDue := some 20, latch := true, causes := { die := true } }), _, rfl, by decide⟩,
   ⟨State.reset, by decide⟩,
   ⟨{ base with mgmt := { erasing := true, regions := [(0, .absent), (4, .torn)] } }, by decide, by decide, by decide⟩,
   ⟨live, by decide, by decide, by decide⟩,
   ⟨ao (fun a => { a with resetDue := some 20 }) (off id), by decide, by decide⟩,
   ⟨State.reset, by decide⟩,
   ⟨_, live, List.mem_of_getElem? (i := 0) rfl, by decide, by decide, by decide⟩,
   ⟨_, State.reset, List.mem_of_getElem? (i := 0) rfl, by decide⟩,
   ⟨State.reset, 0, by decide⟩,
   ⟨{ ao (fun a => { a with resetDue := some 21 }) with mgmt := { nonce := some 4, fuses := { lc := .blank } }, pump := { st := .run, duty := 5000, leak := 1 } }, 3, by decide, by decide, by decide, by decide, by decide⟩,
   ⟨ao (fun a => { a with tapHold := true }) { base with mgmt := { fuses := { lc := .maker } } }, 3, by decide, by decide, by decide⟩⟩

/-- The hypotheses of each clause of Obligations.FirmwareStarts are met together. -/
theorem test_witness_FirmwareStarts :
    (∃ (s : State) (k : Nat), s.ao.aux = true ∧ s.sup.steward = false ∧ s.mgmt.fuses.lc ≠ LifeCycle.blank ∧ bootSlot s = some k) ∧
    (∃ (s : State) (k : Nat), s.ao.aux = true ∧ s.sup.steward = false ∧ inUse s = true ∧ bootSlot s = some k ∧ tget StoreRec.absent s.mgmt.regions 4 = StoreRec.absent ∧ s.pump.leak = 0 ∧ s.ao.tapeWet = false) ∧
    (∃ (s : State) (k : Nat), s.ao.aux = true ∧ s.sup.steward = false ∧ s.mgmt.fuses.lc ≠ LifeCycle.blank ∧ bootSlot s = some k ∧ s.ao.tapeWet = true ∧ s.ao.latch = false) ∧
    (∃ (s : State), (s.ao.aux = false ∨ s.sup.steward = true ∨ s.mgmt.fuses.lc = LifeCycle.blank ∨ bootSlot s = none)) ∧
    (∃ (s : State), s.mgmt.slot0.valid = true ∧ s.mgmt.slot1.valid = true ∧ s.ao.bootFails < 2) :=
  ⟨⟨State.reset, _, by decide, by decide, by decide, rfl⟩,
   ⟨State.reset, _, by decide, by decide, by decide, rfl, by decide, by decide, by decide⟩,
   ⟨{ bst with ao := { tapeWet := true } }, _, by decide, by decide, by decide, rfl, by decide, by decide⟩,
   ⟨live, by decide⟩,
   ⟨{ bst with mgmt := { slot0 := { valid := true, seq := 3 }, slot1 := { valid := true, seq := 4 } } }, by decide, by decide, by decide⟩⟩

/-- The hypotheses of each clause of Obligations.TripsAndRelease are met together. -/
theorem test_witness_TripsAndRelease :
    (∃ (s : State), s.ao.aux = true ∧ s.ao.dieTrip = false ∧ s.ao.latch = false) ∧
    (∃ (s : State), s.ao.aux = true ∧ s.ao.dieTrip = false ∧ s.ao.latch = true) ∧
    (∃ (s : State), s.ao.aux = true ∧ s.ao.tapeWet = false ∧ s.ao.latch = false) ∧
    (∃ (s : State) (n : Nat), s.ao.aux = true ∧ s.ao.latch = false ∧ 1000 ≤ n) ∧
    (∃ (n : Nat), n < 250) ∧
    (∃ (s : State), s.ao.aux = true ∧ s.ao.latch = false) ∧
    (∃ (s : State), s.sup.dump = Dump.leak ∧ s.stew = true ∧ inUse s = true ∧ s.pump.leak = 0) ∧
    (∃ (s : State), s.sup.dump ≠ Dump.leak) ∧
    (∃ (s : State), s.ao.latch = true ∧ ownSource s = false) ∧
    (∃ (s : State), (s.ao.latch = false ∨ ownSource s = true)) ∧
    (∃ (s : State), s.ao.latch = true ∧ s.ao.clean = true ∧ s.ao.released = false ∧ releasedMode s = false ∧ s.ao.suspended = false) ∧
    (∃ (s : State) (h : Bool), (s.ao.latch = false ∨ s.ao.clean = false ∨ s.ao.released = true ∨ releasedMode s = true ∨ s.ao.suspended = true ∨ h = false)) ∧
    (∃ (s : State), s.ao.latch = true ∧ s.ao.clean = true ∧ s.ao.released = true ∧ s.ao.suspended = false) ∧
    (∃ (s : State), (s.ao.latch = false ∨ s.ao.clean = false ∨ s.ao.released = false ∨ s.ao.suspended = true)) :=
  ⟨⟨State.reset, by decide, by decide, by decide⟩,
   ⟨ao (fun a => { a with resetDue := some 20, latch := true, causes := { die := true } }), by decide, by decide, by decide⟩,
   ⟨State.reset, by decide, by decide, by decide⟩,
   ⟨State.reset, 1000, by decide, by decide, by decide⟩,
   ⟨0, by decide⟩,
   ⟨State.reset, by decide, by decide⟩,
   ⟨{ base with sup := { base.sup with dump := .leak }, ao := { tapeWet := true } }, by decide, by decide, by decide, by decide⟩,
   ⟨State.reset, by decide⟩,
   ⟨ao (fun a => { a with aux := false, latch := true, suspended := true, cause := { trigger := 31 } }), by decide, by decide⟩,
   ⟨State.reset, by decide⟩,
   ⟨{ ao (fun a => { a with latch := true, clean := true, tripDrive := true }) with bus := { clock := { synced := true } } }, by decide, by decide, by decide, by decide, by decide⟩,
   ⟨State.reset, false, by decide⟩,
   ⟨ao (fun a => { a with latch := true, clean := true, released := true }), by decide, by decide, by decide, by decide⟩,
   ⟨State.reset, by decide⟩⟩

/-- The hypotheses of each clause of Obligations.MainPower are met together. -/
theorem test_witness_MainPower :
    (∃ (s : State), s.ao.aux = true ∧ s.sup.mainEn = false ∧ s.sup.unsolicited = false) ∧
    (∃ (s : State), s.ao.aux = true ∧ s.sup.mainEn = true ∧ s.ao.latch = false) ∧
    (∃ (s : State), s.sup.mainIn = true ∧ s.sup.regs = false ∧ s.ao.latch = false) ∧
    (∃ (s : State), s.ao.latch = true) ∧
    (∃ (s : State), s.sup.regs = true ∧ s.sup.planes = false ∧ s.ao.tapHold = false ∧ s.ao.latch = false) ∧
    (∃ (s : State), s.stew = true ∧ s.sup.mainEn = true ∧ s.sup.regs = false) ∧
    (∃ (s : State), s.stew = true ∧ s.sup.mainEn = true ∧ s.sup.mainIn = true) ∧
    (∃ (s : State), s.stew = true ∧ s.sup.mainEn = true ∧ s.sup.offPending = true) ∧
    (∃ (s : State), s.sup.offPending = false) ∧
    (∃ (s : State), s.stew = true ∧ s.sup.dump = Dump.run) ∧
    (∃ (s : State), s.stew = true ∧ s.sup.dump ≠ Dump.run) :=
  ⟨⟨State.reset, by decide, by decide, by decide⟩,
   ⟨live, by decide, by decide, by decide⟩,
   ⟨off (fun x => { x with mainEn := true, mainIn := true }), by decide, by decide, by decide⟩,
   ⟨ao (fun a => { a with aux := false, latch := true, suspended := true, cause := { trigger := 31 } }), by decide⟩,
   ⟨off (fun x => { x with mainEn := true, mainIn := true, regs := true }), by decide, by decide, by decide, by decide⟩,
   ⟨off (fun x => { x with mainEn := true }), by decide, by decide, by decide⟩,
   ⟨live, by decide, by decide, by decide⟩,
   ⟨{ base with sup := { base.sup with offPending := true, offInForce := true } }, by decide, by decide, by decide⟩,
   ⟨State.reset, by decide⟩,
   ⟨{ base with sup := { base.sup with dump := .run } }, by decide, by decide⟩,
   ⟨live, by decide, by decide⟩⟩

end Start

namespace Power

def base : State := { live with sup := { live.sup with mainIn := true }, now := 10 ^ 9, ao := { rowTime := 77, noticeDue := false } }
def pol (c k : Nat) (l : List Fld := []) : Bytes := ds 0x30 ([(16, 1, c), (17, 1, k)] ++ l)
def given (d : Bytes) (s : State := base) : State := s.modMgmt fun m => { m with disp := some (4, d) }
def pols : List (Bytes) := [pol 1 1 [(24, 2, 500)], pol 1 1 [(24, 2, 100)], pol 1 1 [(26, 1, 1)], pol 1 2 [(24, 1, 1)], pol 1 2 [(24, 1, 2)], pol 1 3 [(24, 1, 2), (28, 4, 5)], pol 1 3 [], pol 1 4, pol 1 4 [(40, 1, 1)], pol 1 5 [(24, 1, 3)], pol 1 5 [(24, 1, 99)], pol 2 1 [(24, 2, 30), (26, 1, 1), (27, 1, 7)], pol 2 2 [(24, 1, 2), (25, 1, 1)], pol 2 2 [(24, 1, 2), (25, 1, 0)], pol 2 3, pol 3 4 [], pol 4 3 [(24, 1, 9)], pol 6 1 [(24, 1, 7)]]
def mgr (st : OfferSt) : MGroup := { st := st, cage := 2, f := 40, lock := 6, man := [], ord := 0, at_ := 0, timeout := 5, action := 0, dt := 4 }
def run60 : State := base.modHeat fun h => { h with groups := [(3, some { mgr .running with n := 60 })] }
def win : Win := { an := 0, a := 100, r := 700 }
def pw (f : Power → Power) (s : State := base) : State := s.modPower f
def lm (ty origin lock seq n f hops : Nat) : Bytes := mkShort ty 0 0 0 0 (packFlds 40 [(0, 4, lock), (4, 1, f), (5, 1, n), (6, 1, hops), (8, 8, origin), (16, 2, seq)])
def hear (m : Bytes) (f : Power → Power := id) : State := { (pw f) with adit := { a5in := [(3, m), (4, [])] }, links := [(3, L0), (5, L0), (7, L0)] }
def le (o l sq : Nat) : LockEntry := { lock := l, origin := o, seq := sq, n := 3, f := 40, capFlag := false, counts := true, left := false, told := false }
def states1 : List State := pols.map (given ·)

/-- The hypotheses of each clause of Obligations.PolicyChecks are met together. -/
theorem test_witness_PolicyChecks :
    (∃ (i : Instr) (p : PolSpec) (s : State) (tag : BitVec 16) (d : Bytes) (k : Nat), Given i p s tag d ∧ policyRsvd p.masks d = some k) ∧
    (∃ (i : Instr) (p : PolSpec) (s : State) (tag : BitVec 16) (d : Bytes) (k : Nat), Given i p s tag d ∧ policyRsvd p.masks d = none ∧ p.bad d = some k) ∧
    (∃ (i : Instr) (p : PolSpec) (s : State), policyOf i = some p ∧ s.stew = true ∧ s.mgmt.disp = none) ∧
    (∃ (i : Instr) (p : PolSpec) (s : State) (tag : BitVec 16) (d : Bytes), policyOf i = some p ∧ s.stew = true ∧ s.mgmt.disp = some (tag, d) ∧ (byteAt d 16 ≠ p.cls ∨ byteAt d 17 ≠ p.cmd)) ∧
    (∃ (i : Instr) (p : PolSpec) (s : State), policyOf i = some p ∧ s.stew = false) :=
  ⟨⟨.setCap, _, (states1.getD 2 .reset), _, _, _, ⟨by decide, rfl, rfl, by decide, by decide⟩, rfl⟩,
   ⟨.setMode, _, (states1.getD 4 .reset), _, _, _, ⟨by decide, rfl, rfl, by decide, by decide⟩, by decide, rfl⟩,
   ⟨.setCap, _, live, rfl, by decide, by decide⟩,
   ⟨.setMode, _, (states1.getD 0 .reset), _, _, rfl, by decide, rfl, by decide⟩,
   ⟨.setCap, _, State.reset, rfl, by decide⟩⟩

/-- The hypotheses of each clause of Obligations.PowerAndHeatPolicy are met together. -/
theorem test_witness_PowerAndHeatPolicy :
    (∃ (s : State) (tag : BitVec 16) (d : Bytes), Asked Instr.setCap s tag d) ∧
    (∃ (s : State) (tag : BitVec 16) (d : Bytes), Asked Instr.setMode s tag d) ∧
    (∃ (s : State) (tag : BitVec 16) (d : Bytes), Asked Instr.lockPermit s tag d) ∧
    (∃ (s : State) (tag : BitVec 16) (d : Bytes), Asked Instr.countersNow s tag d) ∧
    (∃ (s : State) (tag : BitVec 16) (d : Bytes), Asked Instr.logReplay s tag d ∧ s.adit.a6.length + (tget { } s.power.reasons (byteAt d 24)).log.length ≤ 256) ∧
    (∃ (s : State) (tag : BitVec 16) (d : Bytes), Asked Instr.setAdmit s tag d) ∧
    (∃ (s : State) (tag : BitVec 16) (d : Bytes), Asked Instr.setBreach s tag d) ∧
    (∃ (s : State) (tag : BitVec 16) (d : Bytes), Asked Instr.heatNow s tag d) :=
  ⟨⟨(states1.getD 0 .reset), _, _, ⟨_, ⟨⟨by decide, rfl, rfl, by decide, by decide⟩, by decide, by decide⟩⟩⟩,
   ⟨(states1.getD 3 .reset), _, _, ⟨_, ⟨⟨by decide, rfl, rfl, by decide, by decide⟩, by decide, by decide⟩⟩⟩,
   ⟨(states1.getD 5 .reset), _, _, ⟨_, ⟨⟨by decide, rfl, rfl, by decide, by decide⟩, by decide, by decide⟩⟩⟩,
   ⟨(states1.getD 7 .reset), _, _, ⟨_, ⟨⟨by decide, rfl, rfl, by decide, by decide⟩, by decide, by decide⟩⟩⟩,
   ⟨(states1.getD 9 .reset), _, _, ⟨_, ⟨⟨by decide, rfl, rfl, by decide, by decide⟩, by decide, by decide⟩⟩, by decide⟩,
   ⟨(states1.getD 11 .reset), _, _, ⟨_, ⟨⟨by decide, rfl, rfl, by decide, by decide⟩, by decide, by decide⟩⟩⟩,
   ⟨(states1.getD 12 .reset), _, _, ⟨_, ⟨⟨by decide, rfl, rfl, by decide, by decide⟩, by decide, by decide⟩⟩⟩,
   ⟨(states1.getD 14 .reset), _, _, ⟨_, ⟨⟨by decide, rfl, rfl, by decide, by decide⟩, by decide, by decide⟩⟩⟩⟩

/-- The hypotheses of each clause of Obligations.PowerControl are met together. -/
theorem test_witness_PowerControl :
    (∃ (s : State), s.stew = true) ∧
    (∃ (s : State), s.stew = true ∧ s.power.framed = false) ∧
    (∃ (s : State), s.stew = true ∧ s.power.framed = true) ∧
    (∃ (s : State), s.stew = true ∧ s.power.unmeetable = false ∧ capEff s < measured s ∧ runningMgs s ≠ [] ∧ (∀ (e : Nat × MGroup), e ∈ runningMgs s → e.snd.n = 60) ∧ s.power.unmeetRun = 9) ∧
    (∃ (s : State), s.stew = true ∧ s.power.derating = false ∧ s.heat.inlet50 ≠ [] ∧ (∀ (t : Rat), t ∈ s.heat.inlet50 → 40 < t)) ∧
    (∃ (s : State), s.stew = true ∧ s.power.derating = true ∧ s.heat.inlet50 ≠ [] ∧ (∀ (t : Rat), t ∈ s.heat.inlet50 → t ≤ 38)) ∧
    (∃ (s : State), s.stew = true ∧ s.power.derating = false ∧ (∃ t, t ∈ s.heat.inlet50 ∧ t ≤ 40)) ∧
    (∃ (s : State) (j : Nat) (g : MGroup), s.stew = true ∧ s.mg j = some g ∧ g.st = OfferSt.ready) ∧
    (∃ (s : State), s.stew = true ∧ s.mgmt.powerDirty = true ∧ storeDue s s.mgmt.powerStoredAt = true) ∧
    (∃ (s : State), s.stew = true ∧ s.mgmt.coolDirty = true ∧ storeDue s s.mgmt.coolStoredAt = true) ∧
    (∃ (s : State), s.stew = true ∧ s.mgmt.powerDirty = false ∧ s.mgmt.coolDirty = false) ∧
    (∃ (s : State), s.stew = true ∧ s.adit.a6.length ≤ 200) ∧
    (∃ (s : State), s.stew = true ∧ s.adit.a6.length + (memberLocks s).length ≤ 256) ∧
    (∃ (s : State), s.stew = true ∧ s.power.exceed ≠ 0) ∧
    (∃ (s : State), s.stew = true ∧ s.power.exceed = 0) :=
  ⟨⟨live, by decide⟩,
   ⟨live, by decide, by decide⟩,
   ⟨pw fun p => { p with regs := List.replicate 6 { fails := 2, pin := 50000 }, framed := true, wins := List.replicate 100 win }, by decide, by decide⟩,
   ⟨pw (fun p => { p with regs := List.replicate 6 { pin := 390000 }, unmeetRun := 9 }) run60, by decide, by decide, by decide +kernel, by decide, by decide, by decide⟩,
   ⟨base.modHeat fun h => { h with inlet50 := [44, 42] }, by decide, by decide, by decide, by decide⟩,
   ⟨(pw fun p => { p with derating := true, derate := 50 }).modHeat fun h => { h with inlet50 := [37, 36] }, by decide, by decide, by decide, by decide⟩,
   ⟨base.modHeat fun h => { h with inlet50 := [44, 39] }, by decide, by decide, by decide⟩,
   ⟨base.modHeat fun h => { h with groups := [(3, some { mgr .ready with hold := true }), (4, some (mgr .released))] }, 3, _, by decide, rfl, by decide⟩,
   ⟨base.modMgmt fun m => { m with powerDirty := true, coolDirty := true }, by decide, by decide, by decide⟩,
   ⟨base.modMgmt fun m => { m with powerDirty := true, coolDirty := true }, by decide, by decide, by decide⟩,
   ⟨live, by decide, by decide, by decide⟩,
   ⟨live, by decide, by decide⟩,
   ⟨live, by decide, by decide⟩,
   ⟨pw fun p => { p with exceed := 4, exceedGroups := 8 }, by decide, by decide⟩,
   ⟨live, by decide, by decide⟩⟩

/-- The hypotheses of each clause of Obligations.LockGroups are met together. -/
theorem test_witness_LockGroups :
    (∃ (x : Nat × Instr) (s : State) (k : Nat) (m : Bytes), x ∈ [(64, Instr.lockJoin), (65, Instr.lockDemand), (66, Instr.lockLeave)] ∧ LockHeard x.fst k m s) ∧
    (∃ (s : State) (l : Nat) (o : Nat) (e : LockEntry), s.stew = true ∧ List.find? (fun e => e.lock == l && e.origin == o && e.counts) s.power.locks = some e) ∧
    (∃ (s : State), s.stew = true) ∧
    (∃ (s : State) (k : Nat) (m : Bytes) (r : List Bytes), s.stew = true ∧ tget [] s.power.lockQ k = m :: r ∧ s.adit.a5out.length < 64 ∧ (s.link k).st = LinkSt.up) ∧
    (∃ (s : State) (k : Nat), s.stew = true ∧ (tget [] s.power.lockQ k = [] ∨ 64 ≤ s.adit.a5out.length ∨ (s.link k).st ≠ LinkSt.up)) :=
  ⟨⟨_, hear (lm 0x40 9 6 5 60 40 3), _, _, List.mem_of_getElem? (i := 0) rfl, ⟨by decide, ⟨_, rfl⟩, by decide⟩⟩,
   ⟨hear (lm 0x41 9 6 5 61 40 3) (fun p => { p with locks := [le 9 6 4, le 8 6 4] }), 6, 9, _, by decide, rfl⟩,
   ⟨live, by decide⟩,
   ⟨{ (pw fun p => { p with lockQ := [(3, [lm 0x41 9 6 5 61 40 3, []]), (5, [[4]])] }) with links := [(3, L0)] }, 3, _, _, by decide, rfl, by decide, by decide⟩,
   ⟨live, 0, by decide, by decide⟩⟩

end Power

namespace Heat

def base : State := { live with sup := { live.sup with mainIn := true, regs := true }, now := 10 ^ 9, ao := { rowTime := 77, noticeDue := false } }
def sn (v : Int) (f : Sensor → Sensor := id) : Sensor := f { hist := [v] }
def sens (l : List (Nat × Sensor)) (s : State := base) : State := s.modHeat fun h => { h with sensors := l }
def good : List (Nat × Sensor) := (List.range 16).map (fun i => (i, sn 800)) ++ (List.range 8).map (fun i => (i + 16, sn 900)) ++ [(24, sn 400), (25, sn 400), (26, sn 960), (27, sn 970), (28, sn 250), (29, sn 250), (30, sn 100), (31, sn 50)]
def hot (v : Int) : List (Nat × Sensor) := (List.range 33).map (fun i => (i, sn v))
def ht (f : Heat → Heat) (s : State := sens good) : State := s.modHeat f
def man : Bytes := packFlds 28 [(0, 2, 1), (2, 1, 40), (4, 2, 200), (16, 6, 1000), (22, 2, 300), (24, 2, 400)]
def mg (f : MGroup → MGroup := id) : MGroup := f { st := .running, cage := 2, f := 40, lock := 0, man := man, ord := 0, at_ := 0, timeout := 5, action := 0, dt := 4, windows := 2000, wCount := 10 }
def gs (l : List (Nat × MGroup)) : State := ht fun h => { h with groups := l.map fun e => (e.1, some e.2) }

/-- The hypotheses of each clause of Obligations.HeatSensing are met together. -/
theorem test_witness_HeatSensing :
    (∃ (s : State), s.stew = true) ∧
    (∃ (s : State), s.stew = true ∧ (∀ (z : Nat), z < 6 → (s.zone z).faulted = false)) ∧
    (∃ (s : State) (i : Nat), s.stew = true ∧ (s.sensor i).rr = true ∧ (limitsOf i).sec ≤ (s.sensor i).passRun) ∧
    (∃ (s : State) (i : Nat), s.stew = true ∧ ((s.sensor i).rr = false ∨ (s.sensor i).passRun < (limitsOf i).sec)) ∧
    (∃ (s : State) (i : Nat), s.stew = true ∧ tget false s.heat.differ i = true ∧ tget false s.heat.disagree i = false) ∧
    (∃ (s : State) (z : Nat), s.stew = true ∧ (s.zone z).faulted = true ∧ (s.zone z).holds = true ∧ 2 ≤ zoneValid s z) ∧
    (∃ (s : State) (z : Nat), s.stew = true ∧ ((s.zone z).faulted = false ∨ (s.zone z).holds = false ∨ zoneValid s z < 2)) ∧
    (∃ (s : State) (t : Nat), s.stew = true ∧ (s.thr t).run = Run.up) ∧
    (∃ (s : State) (t : Nat), s.stew = true ∧ (s.thr t).run = Run.down) ∧
    (∃ (s : State) (t : Nat), s.stew = true ∧ (s.thr t).run = Run.none) ∧
    (∃ (s : State), s.stew = true ∧ s.heat.dewRun ≠ Run.none) ∧
    (∃ (s : State), s.stew = true ∧ s.heat.dewRun = Run.none) :=
  ⟨⟨live, by decide⟩,
   ⟨live, by decide, by decide⟩,
   ⟨sens ((List.range 16).map fun i => (i, sn 800 fun q => { q with valid := false, rr := true, passRun := 1500 })), 0, by decide, by decide, by decide⟩,
   ⟨live, 0, by decide, by decide⟩,
   ⟨ht fun h => { h with differ := [(24, true), (26, true)], disagree := [(26, true)] }, 24, by decide, by decide, by decide⟩,
   ⟨ht fun h => { h with zones := [(0, { faulted := true, holds := true }), (3, { faulted := true })] }, 0, by decide, by decide, by decide, by decide⟩,
   ⟨live, 0, by decide, by decide⟩,
   ⟨ht fun h => { h with thrs := [(0, { run := .up, offAt := some (10 ^ 9 - 5) }), (1, { active := true, run := .down }), (2, { active := true }), (10, { active := true })], nStack := 4, nDie := 4, nCoolant := 3 }, 0, by decide, by decide⟩,
   ⟨ht fun h => { h with thrs := [(0, { run := .up, offAt := some (10 ^ 9 - 5) }), (1, { active := true, run := .down }), (2, { active := true }), (10, { active := true })], nStack := 4, nDie := 4, nCoolant := 3 }, 1, by decide, by decide⟩,
   ⟨live, 0, by decide, by decide⟩,
   ⟨ht fun h => { h with dewRun := .up }, by decide, by decide⟩,
   ⟨live, by decide, by decide⟩⟩

/-- The hypotheses of each clause of Obligations.HeatDemands are met together. -/
theorem test_witness_HeatDemands :
    (∃ (s : State), s.stew = true) ∧
    (∃ (s : State) (t : Rat), s.stew = true ∧ outletVal s = some t) ∧
    (∃ (s : State), s.stew = true ∧ outletVal s = none) ∧
    (∃ (s : State) (j : Nat) (g : MGroup), s.stew = true ∧ runningMgs s = [(j, g)] ∧ s.mg j = some g ∧ (g.windows < 1000 ∨ g.wCount = 0)) ∧
    (∃ (s : State) (j : Nat) (g : MGroup) (refW : Rat) (nb : Rat) (m : Rat) (a : Rat), s.stew = true ∧ runningMgs s = [(j, g)] ∧ s.mg j = some g ∧ 1000 ≤ g.windows ∧ 0 < g.wCount ∧ refW = sigma g * ↑(meanOver g (match g.past[9]? with | some p => g.seg p | none => 0) (g.seg g.pos)) ∧ nb = ↑g.nSum / ↑g.wCount ∧ m = g.dSum / ↑g.wCount ∧ a = 115 / 100 * (refW * (64 - nb) / 64 + sigma g * ↑(holdW g.man) * nb / 64)) ∧
    (∃ (s : State) (j : Nat) (g : MGroup), s.stew = true ∧ s.mg j = some g ∧ g.st = OfferSt.held ∧ coolingReady s g = false ∧ g.action = 0) ∧
    (∃ (s : State) (j : Nat) (g : MGroup), s.stew = true ∧ s.mg j = some g ∧ g.st = OfferSt.held ∧ coolingReady s g = false ∧ g.action ≠ 0) ∧
    (∃ (s : State) (j : Nat) (g : MGroup), s.stew = true ∧ s.mg j = some g ∧ g.st ≠ OfferSt.held) :=
  ⟨⟨live, by decide⟩,
   ⟨sens good, _, by decide, rfl⟩,
   ⟨live, by decide, by decide⟩,
   ⟨gs [(3, mg fun g => { g with windows := 3 })], _, _, by decide, rfl, by decide, by decide⟩,
   ⟨gs [(3, mg fun g => { g with dSum := 10000 })], _, _, _, _, _, _, by decide, rfl, by decide, by decide, by decide, rfl, rfl, rfl, rfl⟩,
   ⟨{ gs [(3, mg fun g => { g with st := .held })] with heat := { (gs [(3, mg fun g => { g with st := .held })]).heat with nDie := 4 }, power := { rail := 200000 } }, 3, _, by decide, rfl, by decide, by decide, by decide⟩,
   ⟨{ gs [(3, mg fun g => { g with st := .held, action := 1 })] with heat := { (gs [(3, mg fun g => { g with st := .held, action := 1 })]).heat with nDie := 4 } }, 3, _, by decide, rfl, by decide, by decide, by decide⟩,
   ⟨gs [(3, mg fun g => { g with windows := 3 })], 3, _, by decide, rfl, by decide⟩⟩

end Heat

namespace Pump

def base : State := { live with sup := { live.sup with mainIn := true, regs := true }, now := 10 ^ 9, ao := { rowTime := 77, noticeDue := false } }
def sn (v : Int) (f : Sensor → Sensor := id) : Sensor := f { hist := [v] }
def sens (l : List (Nat × Sensor)) (s : State := base) : State := s.modHeat fun h => { h with sensors := l }
def good : List (Nat × Sensor) := (List.range 16).map (fun i => (i, sn 800)) ++ [(24, sn 400), (25, sn 400), (26, sn 960), (27, sn 970), (28, sn 250), (29, sn 250), (30, sn 100), (31, sn 50)]
def pu (f : Pump → Pump) (s : State := sens good) : State := s.modPump f
def rev : State := sens [(28, sn (-60)), (29, sn (-70))]
def lowf : State := sens [(28, sn 50), (29, sn 70)]
def pol (c k : Nat) (l : List Fld := []) : Bytes := ds 0x30 ([(16, 1, c), (17, 1, k)] ++ l)
def given (d : Bytes) (s : State := base) : State := s.modMgmt fun m => { m with disp := some (4, d) }
def pols : List Bytes := [pol 3 1, pol 3 1 [(24, 1, 1)], pol 3 2 [(24, 2, 3000)], pol 3 3 [(24, 2, 150), (26, 2, 200)], pol 3 4 [(24, 2, 5000), (26, 2, 600)], pol 3 5, pol 3 5 [(24, 1, 1)], pol 3 6, pol 3 7, pol 3 8]
def pumps : List (Pump → Pump) := [fun p => { p with st := .run }, fun p => { p with st := .kick }, fun p => { p with st := .stalled }, fun p => { p with st := .kick, zcRun := 5, crossings := [1000, 900, 800] }, fun p => { p with st := .run, zcSeen := true, duty := 500 }, fun p => { p with st := .run, slow := true, zcSeen := true, duty := 200 },
  fun p => { p with st := .run, duty := 3990, target := 3000, limitMs := 4, zcSeen := true, crossings := [10000000, 9000000, 8000000] }, fun p => { p with st := .run, target := 9000, speedMode := true }, fun p => { p with leak := 1, okRun := 100 }, fun p => { p with okRun := 100 }, fun p => { p with leak := 2, okRun := 50 }, fun p => { p with capture := some { modeBefore := true, ms := 100 } }, fun p => { p with st := .run, capture := some { modeBefore := true, ms := 15000, inletN := 4, inletSum := 150, dutySum := 4000000 } },
  fun p => { p with st := .run, capture := some { done := [⟨1, 2, 3, 0⟩, ⟨3, 2, 3, 0⟩], modeBefore := true, ms := 15000, inletN := 4, inletSum := 150, dutySum := 4000000 } },
  fun p => { p with st := .run, span := { n := 100, speedSum := 300000, speedMin := 2990, speedMax := 3010, dutySum := 100000 }, baseline := [⟨1500, 500, 30, 0⟩, ⟨3000, 800, 30, 0⟩, ⟨4500, 1500, 30, 0⟩], evals := [2, 2, 2, 2, 2, 2, 2] }, fun p => { p with st := .run, span := { n := 100, speedSum := 300000, speedMin := 2990, speedMax := 3010, dutySum := 81000 }, baseline := [⟨1500, 500, 30, 0⟩, ⟨3000, 800, 30, 0⟩, ⟨4500, 1500, 30, 0⟩] },
  fun p => { p with flows := [(some 250, some 250)], okRun := 100 }, fun p => { p with flows := [(some 250, some 200)], overRun := 99 }, fun p => { p with flows := [(some 250, none)], overRun := 99, st := .run }, fun p => { p with tapeFault := true, suspended := true, blind := true }, fun p => { p with suspended := true }, fun p => { p with phases := [{ bad := 2 }, { open_ := true, good := 9 }, { good := 3 }], st := .stalled }]
def stopped (s : State) : State := { s with sup := { steward := true, flowRun := 30 }, bus := { rack := { join := .joined } } }
def states1 : List State := pumps.map (pu ·)
def states2 : List State := pumps.map (fun f => stopped (pu f))
def states3 : List State := pols.flatMap (fun d => given d :: pumps.map fun f => given d (pu f))

/-- The hypotheses of each clause of Obligations.PumpDrive are met together. -/
theorem test_witness_PumpDrive :
    (∃ (s : State), s.stew = true ∧ (s.pump.st = DriveSt.kick ∨ s.pump.st = DriveSt.run) ∧ (¬(s.pump.st = DriveSt.kick ∧ 5 ≤ s.pump.zcRun))) ∧
    (∃ (s : State), s.stew = true ∧ s.pump.st = DriveSt.kick ∧ 5 ≤ s.pump.zcRun) ∧
    (∃ (s : State), s.stew = true ∧ s.pump.st ≠ DriveSt.kick ∧ s.pump.st ≠ DriveSt.run) ∧
    (∃ (x : Nat × Instr × List DriveSt) (s : State), x ∈ [(3, Instr.kickTimeout, [DriveSt.kick]), (2, Instr.pumpOvercurrent, [DriveSt.run, DriveSt.kick])] ∧ s.stew = true ∧ s.pump.st ∈ x.snd.snd) ∧
    (∃ (s : State), s.stew = true ∧ s.pump.st ≠ DriveSt.kick) ∧
    (∃ (s : State), s.stew = true ∧ s.pump.st = DriveSt.run ∧ (s.pump.zcSeen = false ∨ s.pump.slow = true)) ∧
    (∃ (s : State), s.stew = true ∧ s.pump.st = DriveSt.run ∧ s.pump.zcSeen = true ∧ s.pump.slow = false) ∧
    (∃ (s : State), s.stew = true ∧ s.pump.st ≠ DriveSt.run) ∧
    (∃ (s : State), s.stew = true ∧ s.pump.st = DriveSt.stalled) ∧
    (∃ (s : State), s.stew = true ∧ s.pump.st ≠ DriveSt.stalled) ∧
    (∃ (s : State), s.stew = true ∧ diagDeferred s = true ∧ s.pump.phases.length = 3) ∧
    (∃ (s : State), s.stew = true ∧ diagDeferred s = false) ∧
    (∃ (s : State), s.stew = true ∧ s.pump.st = DriveSt.run) :=
  ⟨⟨(states1.getD 0 .reset), by decide, by decide, by decide⟩,
   ⟨(states1.getD 3 .reset), by decide, by decide, by decide⟩,
   ⟨live, by decide, by decide, by decide⟩,
   ⟨_, (states1.getD 1 .reset), List.mem_of_getElem? (i := 0) rfl, by decide, by decide⟩,
   ⟨live, by decide, by decide⟩,
   ⟨(states1.getD 0 .reset), by decide, by decide, by decide⟩,
   ⟨(states1.getD 4 .reset), by decide, by decide, by decide, by decide⟩,
   ⟨live, by decide, by decide⟩,
   ⟨(states1.getD 2 .reset), by decide, by decide⟩,
   ⟨live, by decide, by decide⟩,
   ⟨(states1.getD 0 .reset), by decide, by decide, by decide⟩,
   ⟨live, by decide, by decide⟩,
   ⟨(states1.getD 0 .reset), by decide, by decide⟩⟩

/-- The hypotheses of each clause of Obligations.CoolantLoop are met together. -/
theorem test_witness_CoolantLoop :
    (∃ (s : State), s.stew = true ∧ s.pump.span.n = 0) ∧
    (∃ (s : State) (e : Rat) (m : Rat), s.stew = true ∧ s.pump.span.n ≠ 0 ∧ s.pump.span.spoilt = false ∧ s.pump.st = DriveSt.run ∧ m = ↑s.pump.span.speedSum / ↑s.pump.span.n ∧ ↑s.pump.span.speedMax ≤ m * 101 / 100 ∧ m * 99 / 100 ≤ ↑s.pump.span.speedMin ∧ expectedDuty s.pump.baseline m = some e) ∧
    (∃ (s : State) (c : Capture) (p : BasePoint), s.stew = true ∧ s.pump.capture = some c ∧ 15000 ≤ c.ms ∧ p = { rpm := captureSpeed s c, duty := ↑c.dutySum / 10000, inlet := if c.inletN = 0 then 0 else c.inletSum / ↑c.inletN, fluid := s.pump.fluid }) ∧
    (∃ (s : State), s.stew = true ∧ (s.pump.capture = none ∨ ∃ c, s.pump.capture = some c ∧ c.ms < 15000)) ∧
    (∃ (s : State), s.stew = true ∧ flowsReverse s = true ∧ s.pump.reverse = false) ∧
    (∃ (s : State), s.stew = true ∧ (flowsReverse s = false ∨ s.pump.reverse = true)) ∧
    (∃ (s : State), s.stew = true ∧ flowLow s = true ∧ atLimit s = true ∧ s.pump.lowTold = false) ∧
    (∃ (s : State), s.stew = true ∧ (flowLow s = false ∨ atLimit s = false ∨ s.pump.lowTold = true)) ∧
    (∃ (s : State) (b : Bool), s.stew = true ∧ b ≠ s.pump.tapeFault) ∧
    (∃ (s : State) (b : Bool), s.stew = true ∧ b = s.pump.tapeFault) ∧
    (∃ (s : State), s.stew = true) ∧
    (∃ (s : State), s.stew = true ∧ s.sup.mainEn = true ∧ cycleFlows s = none) ∧
    (∃ (s : State) (a : Rat) (b : Rat), s.stew = true ∧ cycleFlows s = some (a, b) ∧ a - b ≤ massTolerance a ∧ b - a ≤ massTolerance a) ∧
    (∃ (s : State) (a : Rat) (b : Rat), s.stew = true ∧ cycleFlows s = some (a, b) ∧ (massTolerance a < a - b ∨ massTolerance a < b - a) ∧ 99 ≤ s.pump.overRun ∧ (s.zone 5).faulted = false ∧ s.pump.leak = 0 ∧ s.ao.massTrip = false ∧ s.ao.latch = false) ∧
    (∃ (s : State) (a : Rat) (b : Rat), s.stew = true ∧ s.sup.mainEn = false ∧ s.sup.retryWait = false ∧ inUse s = true ∧ cycleFlows s = some (a, b) ∧ a - b ≤ massTolerance a ∧ b - a ≤ massTolerance a) :=
  ⟨⟨live, by decide, by decide⟩,
   ⟨(states1.getD 14 .reset), 800, 3000, by decide, by decide, by decide, by decide, by decide +kernel, by decide +kernel, by decide +kernel, by decide +kernel⟩,
   ⟨(states1.getD 12 .reset), _, _, by decide, rfl, by decide, rfl⟩,
   ⟨live, by decide, by decide⟩,
   ⟨rev, by decide, by decide, by decide⟩,
   ⟨live, by decide, by decide⟩,
   ⟨rev, by decide, by decide, by decide, by decide⟩,
   ⟨live, by decide, by decide⟩,
   ⟨live, true, by decide, by decide⟩,
   ⟨live, _, by decide, rfl⟩,
   ⟨live, by decide⟩,
   ⟨live, by decide, by decide, by decide⟩,
   ⟨(states1.getD 16 .reset), _, _, by decide, rfl, by decide +kernel, by decide +kernel⟩,
   ⟨(states1.getD 17 .reset), _, _, by decide, rfl, by decide +kernel, by decide, by decide, by decide, by decide, by decide⟩,
   ⟨(states2.getD 16 .reset), _, _, by decide, by decide, by decide, by decide, rfl, by decide +kernel, by decide +kernel⟩⟩

/-- The hypotheses of each clause of Obligations.CoolantPolicy are met together. -/
theorem test_witness_CoolantPolicy :
    (∃ (s : State) (tag : BitVec 16) (d : Bytes), Asked Instr.setPumpMode s tag d ∧ s.pump.capture = none ∧ (s.pump.st = DriveSt.kick ∨ s.pump.st = DriveSt.stalled)) ∧
    (∃ (s : State) (tag : BitVec 16) (d : Bytes), Asked Instr.setPumpMode s tag d ∧ s.pump.st ≠ DriveSt.kick ∧ s.pump.st ≠ DriveSt.stalled) ∧
    (∃ (s : State) (tag : BitVec 16) (d : Bytes), Asked Instr.setSpeed s tag d) ∧
    (∃ (s : State) (tag : BitVec 16) (d : Bytes), Asked Instr.setFlowLimits s tag d) ∧
    (∃ (s : State) (tag : BitVec 16) (d : Bytes), Asked Instr.setRamp s tag d) ∧
    (∃ (s : State) (tag : BitVec 16) (d : Bytes), Asked Instr.setFluid s tag d) ∧
    (∃ (s : State) (tag : BitVec 16) (d : Bytes), Asked Instr.baseline s tag d ∧ baselineBarred s = false ∧ s.pump.capture = none) ∧
    (∃ (s : State) (tag : BitVec 16) (d : Bytes), Asked Instr.baseline s tag d ∧ baselineBarred s = true) ∧
    (∃ (s : State) (tag : BitVec 16) (d : Bytes), Asked Instr.clearLeak s tag d ∧ (s.ao.tapeWet = true ∨ s.pump.okRun < 100)) ∧
    (∃ (s : State) (tag : BitVec 16) (d : Bytes), Asked Instr.clearLeak s tag d ∧ s.ao.tapeWet = false ∧ 100 ≤ s.pump.okRun ∧ s.pump.leak ≠ 0) ∧
    (∃ (s : State) (tag : BitVec 16) (d : Bytes), Asked Instr.clearLeak s tag d ∧ s.ao.tapeWet = false ∧ 100 ≤ s.pump.okRun ∧ s.pump.leak = 0) ∧
    (∃ (s : State) (tag : BitVec 16) (d : Bytes), Asked Instr.pumpNow s tag d) :=
  ⟨⟨(states3.getD 2 .reset), _, _, ⟨_, ⟨⟨by decide, rfl, rfl, by decide, by decide⟩, by decide, by decide⟩⟩, by decide, by decide⟩,
   ⟨(states3.getD 0 .reset), _, _, ⟨_, ⟨⟨by decide, rfl, rfl, by decide, by decide⟩, by decide, by decide⟩⟩, by decide, by decide⟩,
   ⟨(states3.getD 46 .reset), _, _, ⟨_, ⟨⟨by decide, rfl, rfl, by decide, by decide⟩, by decide, by decide⟩⟩⟩,
   ⟨(states3.getD 69 .reset), _, _, ⟨_, ⟨⟨by decide, rfl, rfl, by decide, by decide⟩, by decide, by decide⟩⟩⟩,
   ⟨(states3.getD 92 .reset), _, _, ⟨_, ⟨⟨by decide, rfl, rfl, by decide, by decide⟩, by decide, by decide⟩⟩⟩,
   ⟨(states3.getD 115 .reset), _, _, ⟨_, ⟨⟨by decide, rfl, rfl, by decide, by decide⟩, by decide, by decide⟩⟩⟩,
   ⟨(states3.getD 162 .reset), _, _, ⟨_, ⟨⟨by decide, rfl, rfl, by decide, by decide⟩, by decide, by decide⟩⟩, by decide, by decide⟩,
   ⟨(states3.getD 161 .reset), _, _, ⟨_, ⟨⟨by decide, rfl, rfl, by decide, by decide⟩, by decide, by decide⟩⟩, by decide⟩,
   ⟨(states3.getD 184 .reset), _, _, ⟨_, ⟨⟨by decide, rfl, rfl, by decide, by decide⟩, by decide, by decide⟩⟩, by decide⟩,
   ⟨(states3.getD 193 .reset), _, _, ⟨_, ⟨⟨by decide, rfl, rfl, by decide, by decide⟩, by decide, by decide⟩⟩, by decide, by decide, by decide⟩,
   ⟨(states3.getD 194 .reset), _, _, ⟨_, ⟨⟨by decide, rfl, rfl, by decide, by decide⟩, by decide, by decide⟩⟩, by decide, by decide, by decide⟩,
   ⟨(states3.getD 207 .reset), _, _, ⟨_, ⟨⟨by decide, rfl, rfl, by decide, by decide⟩, by decide, by decide⟩⟩⟩⟩

end Pump

namespace Bus

def J := joined
def bA := fun (f : Bus → Bus) => J.modBus 0 f
def bB := fun (f : Bus → Bus) => J.modBus 1 f
def active : State := J.modWard fun w => { w with active := true }
def cmdr : State := J.modBuses fun x => { x with rack := { x.rack with hbs := [{ src := 9, claim := 7, flags := 4, rack := 2, dsn := 1, at_ := 499999999 }] }, row := { x.row with hbs := [{ src := 9, claim := 7, flags := 6, rack := 2, dsn := 1, at_ := 499999999 }] } }
def synced (f : Clock → Clock) : State := { cmdr.modBuses fun x => { x with clock := f { synced := true, source := some (1, 9), last := some (4, 1000), pairs := [(20, 10)] } } with ao := { slotId := 3, rackId := 2, rowTime := 2000 } }


def sy (t : Nat) (fl : Nat := 1) : Bytes := packFlds 8 [(0, 6, t), (6, 1, fl)]
def frames1 : List Frame := (frameCmds.map fun x => fr x.1 9 (List.replicate 60 0))
def frames2 : List Frame := (frameCmds.map fun x => fr x.1 3 (List.replicate 60 0))
def states1 : List State := [bA, bB].flatMap (fun m => [m (fun x => { x with join := .listening, asleep := false }), m (fun x => { x with join := .listening, srcs := [1, 3, 4] }), m (fun x => { x with join := .listening, rxErr := 96, result := 3 }),
    m (fun x => { x with fill := 20 }), m (fun x => { x with fill := 19, next := 19 }), m (fun x => { x with passive := true }), m (fun x => { x with busOff := true }), m (fun x => { x with busOff := true, recovering := true }),
    m (fun x => { x with foreign := 70000, dups := 1 }), m (fun x => { x with asleep := true }), m (fun x => { x with join := .off }),
    m (fun x => { x with tx := [(0, some { tx := { frame := fr 0x30 3 [], retried := false }, waiting := true }), (2, some { tx := { frame := fr 0x22 3 [], retried := true }, waiting := true })] }),
    m (fun x => { x with more := [{ frame := fr 0x40 3 [], retried := false }], tx := [(1, some { tx := { frame := fr 0x30 3 [], retried := false }, waiting := true })] }),
    m (fun x => { x with last := [(256 * 9 + 0x61, some (5, 499999000)), (256 * 9 + 0x62, some (5, 499999000)),(256 * 9 + 0x22, some (5, 499999000))] })])

/-- The hypotheses of each clause of Obligations.BusControllers are met together. -/
theorem test_witness_BusControllers :
    (∃ (s : State) (b : Nat), s.stew = true ∧ b < 2 ∧ (s.onBus b).join = JoinSt.listening ∧ busEnabled s b = true ∧ (¬nodeId s b ∈ (s.onBus b).srcs) ∧ (s.onBus b).rxErr < 96) ∧
    (∃ (s : State) (b : Nat) (r : Nat), s.stew = true ∧ (s.onBus b).join = JoinSt.listening ∧ busEnabled s b = true ∧ (nodeId s b ∈ (s.onBus b).srcs ∨ 96 ≤ (s.onBus b).rxErr) ∧ r = if nodeId s b ∈ (s.onBus b).srcs then 2 else 3) ∧
    (∃ (s : State) (b : Nat), s.stew = true ∧ ((s.onBus b).join ≠ JoinSt.listening ∨ busEnabled s b = false)) ∧
    (∃ (s : State), s.stew = true) ∧
    (∃ (s : State) (b : Nat), canHear s b = true ∧ 20 ≤ (s.onBus b).fill) ∧
    (∃ (s : State) (b : Nat), s.stew = true ∧ (canHear s b = false ∨ (s.onBus b).fill < 20)) ∧
    (∃ (s : State) (b : Nat), s.stew = true ∧ busEnabled s b = true ∧ (s.onBus b).join ≠ JoinSt.off ∧ (s.onBus b).busOff = false) ∧
    (∃ (s : State) (b : Nat), s.stew = true ∧ (busEnabled s b = false ∨ (s.onBus b).join = JoinSt.off ∨ (s.onBus b).busOff = true)) ∧
    (∃ (s : State) (b : Nat), s.stew = true ∧ (s.onBus b).busOff = true ∧ (s.onBus b).recovering = false) ∧
    (∃ (s : State) (b : Nat), s.stew = true ∧ ((s.onBus b).busOff = false ∨ (s.onBus b).recovering = true)) ∧
    (∃ (s : State) (b : Nat), s.stew = true ∧ (s.onBus b).busOff = true ∧ (s.onBus b).recovering = true) ∧
    (∃ (s : State) (b : Nat), s.stew = true ∧ ((s.onBus b).busOff = false ∨ (s.onBus b).recovering = false)) ∧
    (∃ (s : State) (b : Nat) (x : Bus), s.stew = true ∧ x = s.onBus b ∧ (x.foreign ≠ 0 ∨ x.malformed ≠ 0 ∨ x.innerOver ≠ 0 ∨ x.rxOver ≠ 0 ∨ x.txExpiry ≠ 0 ∨ x.dups ≠ 0)) ∧
    (∃ (s : State) (b : Nat) (x : Bus), s.stew = true ∧ x = s.onBus b ∧ x.foreign = 0 ∧ x.malformed = 0 ∧ x.innerOver = 0 ∧ x.rxOver = 0 ∧ x.txExpiry = 0 ∧ x.dups = 0) ∧
    (∃ (s : State) (b : Nat), canHear s b = true) ∧
    (∃ (s : State) (b : Nat) (f : Frame), canHear s b = true ∧ f.addr = true ∧ f.dest ≠ nodeId s b) ∧
    (∃ (s : State) (b : Nat) (f : Frame), canHear s b = true ∧ (f.addr = false ∨ f.dest = nodeId s b) ∧ (List.length f.data < 4 ∨ 4 + f.len ≤ List.length f.data ∧ (f.version ≠ 1 ∨ f.msg / 16 ≠ f.cls ∨ minLen f.msg f.body = none ∨ ∃ n, minLen f.msg f.body = some n ∧ f.len < n))) ∧
    (∃ (s : State) (b : Nat) (f : Frame), canHear s b = true ∧ (f.addr = false ∨ f.dest = nodeId s b) ∧ 4 ≤ List.length f.data ∧ List.length f.data < 4 + f.len) ∧
    (∃ (s : State) (b : Nat) (f : Frame), s.stew = true ∧ (canHear s b = false ∨ frameCheck s b true f = none)) ∧
    (∃ (s : State) (b : Nat), s.stew = true ∧ (s.onBus b).join = JoinSt.joined ∧ (s.onBus b).asleep = false ∧ (s.onBus b).busOff = false ∧ sendable s b ≠ []) ∧
    (∃ (s : State) (b : Nat), s.stew = true ∧ ((s.onBus b).join ≠ JoinSt.joined ∨ (s.onBus b).asleep = true ∨ (s.onBus b).busOff = true ∨ sendable s b = [])) ∧
    (∃ (s : State) (b : Nat) (i : Nat) (t : TxBuf), s.stew = true ∧ tget none (s.onBus b).tx i = some t ∧ t.waiting = true) ∧
    (∃ (s : State) (b : Nat) (i : Nat), s.stew = true ∧ (∀ (t : TxBuf), tget none (s.onBus b).tx i = some t → t.waiting = false)) :=
  ⟨⟨(states1.getD 0 .reset), 0, by decide, by decide, by decide, by decide, by decide, by decide⟩,
   ⟨(states1.getD 1 .reset), 0, _, by decide, by decide, by decide, by decide, rfl⟩,
   ⟨stw, 0, by decide, by decide⟩,
   ⟨stw, by decide⟩,
   ⟨(states1.getD 3 .reset), 0, by decide, by decide⟩,
   ⟨stw, 0, by decide, by decide⟩,
   ⟨J, 0, by decide, by decide, by decide, by decide⟩,
   ⟨stw, 0, by decide, by decide⟩,
   ⟨(states1.getD 6 .reset), 0, by decide, by decide, by decide⟩,
   ⟨stw, 0, by decide, by decide⟩,
   ⟨(states1.getD 7 .reset), 0, by decide, by decide, by decide⟩,
   ⟨stw, 0, by decide, by decide⟩,
   ⟨(states1.getD 8 .reset), 0, _, by decide, rfl, by decide⟩,
   ⟨stw, 0, _, by decide, rfl, by decide, by decide, by decide, by decide, by decide, by decide⟩,
   ⟨J, 0, by decide⟩,
   ⟨J, 0, fr 0x63 9 [] true 4, by decide, by decide, by decide⟩,
   ⟨J, 0, { id := 0, data := [1] }, by decide, by decide, by decide⟩,
   ⟨J, 0, fr 0x62 9 [] (len := 9), by decide, by decide, by decide, by decide⟩,
   ⟨stw, 0, (frames1.getD 0 (fr 0 0 [])), by decide, by decide⟩,
   ⟨(states1.getD 11 .reset), 0, by decide, by decide, by decide, by decide, by decide⟩,
   ⟨stw, 0, by decide, by decide⟩,
   ⟨(states1.getD 11 .reset), 0, 0, _, by decide, rfl, by decide⟩,
   ⟨stw, 0, 0, by decide, by decide⟩⟩

/-- The hypotheses of each clause of Obligations.FramesArrive are met together. -/
theorem test_witness_FramesArrive :
    (∃ (x : Nat × (Nat → Frame → Instr)) (s : State) (b : Nat) (f : Frame), x ∈ frameCmds ∧ s.stew = true ∧ (canHear s b = false ∨ f.msg ≠ x.fst ∨ 20 ≤ (s.onBus b).fill) ∧ (¬(x.fst = 99 ∧ b = 0 ∧ s.bus.rack.asleep = true))) ∧
    (∃ (x : Nat × (Nat → Frame → Instr)) (s : State) (b : Nat) (f : Frame) (w : DropWhy), x ∈ frameCmds ∧ canHear s b = true ∧ f.msg = x.fst ∧ (s.onBus b).fill < 20 ∧ frameCheck s b true f = some w) ∧
    (∃ (x : Nat × (Nat → Frame → Instr)) (s : State) (b : Nat) (f : Frame), x ∈ frameCmds ∧ Hears s b x.fst f ∧ f.src = nodeId s b ∧ (s.onBus b).join = JoinSt.listening) ∧
    (∃ (x : Nat × (Nat → Frame → Instr)) (s : State) (b : Nat) (f : Frame), x ∈ frameCmds ∧ Hears s b x.fst f ∧ f.src = nodeId s b ∧ (s.onBus b).join = JoinSt.joined) ∧
    (∃ (x : Nat × (Nat → Frame → Instr)) (s : State) (b : Nat) (f : Frame), x ∈ frameCmds ∧ Hears s b x.fst f ∧ f.src ≠ nodeId s b ∧ Repeats s b f) ∧
    (∃ (x : Nat × (Nat → Frame → Instr)) (s : State) (b : Nat) (f : Frame), x ∈ frameCmds ∧ Hears s b x.fst f ∧ f.src ≠ nodeId s b ∧ (¬Repeats s b f) ∧ (s.onBus b).join ≠ JoinSt.joined ∧ x.fst ≠ 34 ∧ x.fst ≠ 32 ∧ x.fst ≠ 49) ∧
    (∃ (s : State) (b : Nat) (f : Frame), Hears s b f.msg f ∧ f.msg / 16 = 7 ∧ f.src ≠ nodeId s b) ∧
    (∃ (s : State) (f : Frame), s.stew = true ∧ f.msg / 16 = 7 ∧ s.mgmt.fuses.lc ≠ LifeCycle.maker ∧ f.cls = 7 ∧ 4 + f.len ≤ List.length f.data ∧ 4 ≤ List.length f.data ∧ f.version = 1) ∧
    (∃ (s : State) (f : Frame), s.stew = true ∧ f.msg / 16 ≠ 7) :=
  ⟨⟨_, stw, 0, (frames1.getD 0 (fr 0 0 [])), List.mem_of_getElem? (i := 0) rfl, by decide, by decide, by decide⟩,
   ⟨_, J, 0, fr 0x41 9 [], _, List.mem_of_getElem? (i := 12) rfl, by decide, by decide, by decide, rfl⟩,
   ⟨_, (states1.getD 0 .reset), 0, (frames2.getD 0 (fr 0 0 [])), List.mem_of_getElem? (i := 0) rfl, by unfold Hears; decide, by decide, by decide⟩,
   ⟨_, J, 0, (frames2.getD 0 (fr 0 0 [])), List.mem_of_getElem? (i := 0) rfl, by unfold Hears; decide, by decide, by decide⟩,
   ⟨_, (states1.getD 13 .reset), 0, (frames1.getD 7 (fr 0 0 [])), List.mem_of_getElem? (i := 7) rfl, by unfold Hears; decide, by decide, ⟨by decide, ⟨_, ⟨rfl, by decide⟩⟩⟩⟩,
   ⟨_, (states1.getD 0 .reset), 0, (frames1.getD 0 (fr 0 0 [])), List.mem_of_getElem? (i := 0) rfl, by unfold Hears; decide, by decide, notRepeats (by decide), by decide, by decide, by decide, by decide⟩,
   ⟨J.modMgmt fun m => { m with fuses := { m.fuses with lc := .maker } }, 0, fr 0x72 9 [], by unfold Hears; decide, by decide, by decide⟩,
   ⟨stw, fr 0x72 9 [], by decide, by decide, by decide, by decide, by decide, by decide, by decide⟩,
   ⟨stw, (frames1.getD 0 (fr 0 0 [])), by decide, by decide⟩⟩

/-- The hypotheses of each clause of Obligations.BusMessages are met together. -/
theorem test_witness_BusMessages :
    (∃ (x : Nat × (Nat → Frame → Instr)) (s : State) (b : Nat) (f : Frame), x ∈ frameCmds ∧ x.fst ∈ [16, 96, 99] ∧ Takes s b x.fst f) ∧
    (∃ (s : State) (b : Nat) (f : Frame), Takes s b 97 f) ∧
    (∃ (s : State) (b : Nat) (f : Frame), Takes s b 98 f ∧ fromCommand s b f.src = true ∧ sleepAllowed s b = true) ∧
    (∃ (s : State) (b : Nat) (f : Frame), Takes s b 98 f ∧ fromCommand s b f.src = true ∧ sleepAllowed s b = false) ∧
    (∃ (s : State) (b : Nat) (f : Frame), Takes s b 98 f ∧ fromCommand s b f.src = false) ∧
    (∃ (s : State) (f : Frame), s.stew = true ∧ s.bus.rack.asleep = true ∧ f.msg = 99 ∧ (f.addr = false ∨ f.dest = nodeId s 0)) ∧
    (∃ (s : State) (f : Frame), s.stew = true ∧ s.bus.rack.asleep = true ∧ (f.msg ≠ 99 ∨ f.addr = true ∧ f.dest ≠ nodeId s 0)) ∧
    (∃ (s : State), s.stew = true ∧ s.bus.row.asleep = true) ∧
    (∃ (s : State), s.stew = true ∧ s.bus.row.asleep = false) ∧
    (∃ (s : State), MaySend s 0) ∧
    (∃ (s : State), MaySend s 0 ∧ (s.pump.leak ≠ 0 ∨ s.bus.leakSends ≠ 0)) ∧
    (∃ (s : State), s.stew = true ∧ s.pump.leak = 0 ∧ s.bus.leakSends = 0) ∧
    (∃ (s : State) (b : Nat), MaySend s b ∧ s.ward.rackRole = true ∧ (b = 0 ∨ s.ward.rowRole = true)) ∧
    (∃ (s : State) (b : Nat), s.stew = true ∧ (s.ward.rackRole = false ∨ b ≠ 0 ∧ s.ward.rowRole = false)) ∧
    (∃ (s : State) (b : Nat), MaySend s b ∧ s.ward.active = true ∧ (b = 0 ∨ s.ward.rowRole = true)) ∧
    (∃ (s : State) (n : Nat) (l : List Nat), MaySend s 0 ∧ s.ward.active = true ∧ commandedNodes s 0 = n :: l ∧ (∀ (m : Nat), m ∈ l → m % 64 ≠ n % 64) ∧ cmdReady s 0 n = true ∧ cmdChannels s 0 n ≠ []) ∧
    (∃ (s : State), MaySend s 0 ∧ s.ward.active = true) ∧
    (∃ (s : State), MaySend s 1 ∧ s.ward.active = true) ∧
    (∃ (s : State) (msg : Nat), s.stew = true ∧ s.ward.active = false ∧ msg ∈ [4, 16, 34, 49, 50, 65, 80, 98]) :=
  ⟨⟨_, J, 0, (frames1.getD 4 (fr 0 0 [])), List.mem_of_getElem? (i := 4) rfl, by decide, ⟨by unfold Hears; decide, by decide, notRepeats (by decide), by decide⟩⟩,
   ⟨J, 0, (frames1.getD 15 (fr 0 0 [])), ⟨by unfold Hears; decide, by decide, notRepeats (by decide), by decide⟩⟩,
   ⟨{ cmdr with sup := { steward := true } , ward := {} }, 0, (frames1.getD 16 (fr 0 0 [])), ⟨by unfold Hears; decide, by decide, notRepeats (by decide), by decide⟩, by decide, by decide⟩,
   ⟨cmdr, 0, (frames1.getD 16 (fr 0 0 [])), ⟨by unfold Hears; decide, by decide, notRepeats (by decide), by decide⟩, by decide, by decide⟩,
   ⟨J, 0, (frames1.getD 16 (fr 0 0 [])), ⟨by unfold Hears; decide, by decide, notRepeats (by decide), by decide⟩, by decide⟩,
   ⟨(states1.getD 9 .reset), (frames1.getD 17 (fr 0 0 [])), by decide, by decide, by decide, by decide⟩,
   ⟨(states1.getD 9 .reset), (frames1.getD 0 (fr 0 0 [])), by decide, by decide, by decide⟩,
   ⟨(states1.getD 23 .reset), by decide, by decide⟩,
   ⟨stw, by decide, by decide⟩,
   ⟨J, by unfold MaySend; decide⟩,
   ⟨J.modBuses fun x => { x with leakSends := 2 }, by unfold MaySend; decide, by decide⟩,
   ⟨stw, by decide, by decide, by decide⟩,
   ⟨J, 0, by unfold MaySend; decide, by decide, by decide⟩,
   ⟨stw, 0, by decide, by decide⟩,
   ⟨active, 0, by unfold MaySend; decide, by decide, by decide⟩,
   ⟨active.modWard fun w => { w with pol := { w.pol with rackMap := [{ node := 32, channel := 2, fn := 1, arg := 0, spMin := 0, spMax := 10000 }] }, rackOut := [(0, { sp := some 300 })], slots := [(3, { cap := 800, lowered := true })] }, _, _, by unfold MaySend; decide, by decide, rfl, by decide, by decide, by decide⟩,
   ⟨active, by unfold MaySend; decide, by decide⟩,
   ⟨active, by unfold MaySend; decide, by decide⟩,
   ⟨stw, _, by decide, by decide, List.mem_of_getElem? (i := 0) rfl⟩⟩

/-- The hypotheses of each clause of Obligations.RowTimeAndMailbox are met together. -/
theorem test_witness_RowTimeAndMailbox :
    (∃ (s : State) (b : Nat) (f : Frame), Takes s b 34 f ∧ (syncBus s ≠ some b ∨ fromCommand s b f.src = false)) ∧
    (∃ (s : State) (b : Nat) (f : Frame), Takes s b 34 f ∧ syncBus s = some b ∧ fromCommand s b f.src = true) ∧
    (∃ (s : State) (b : Nat) (f : Frame) (r : RowTime) (e : Int), Pair s b f r ∧ e = pairStep f r ∧ (s.bus.clock.synced = false ∨ 5000 < e ∨ e < -100000000)) ∧
    (∃ (s : State) (b : Nat) (f : Frame) (r : RowTime) (e : Int), Pair s b f r ∧ e = pairStep f r ∧ s.bus.clock.synced = true ∧ -100000000 ≤ e ∧ e < -5000) ∧
    (∃ (s : State) (b : Nat) (f : Frame) (r : RowTime) (e : Int), Pair s b f r ∧ e = pairStep f r ∧ s.bus.clock.synced = true ∧ -5000 ≤ e ∧ e ≤ 5000 ∧ e ≠ 0) ∧
    (∃ (s : State) (b : Nat) (f : Frame) (r : RowTime) (e : Int), Pair s b f r ∧ e = pairStep f r ∧ s.bus.clock.synced = true ∧ e = 0) ∧
    (∃ (s : State) (b : Nat) (f : Frame) (r : RowTime), Pair s b f r ∧ s.bus.clock.pairs ≠ []) ∧
    (∃ (s : State), s.stew = true ∧ s.bus.clock.synced = true ∧ s.bus.clock.holdover = false) ∧
    (∃ (s : State), s.stew = true ∧ (s.bus.clock.synced = false ∨ s.bus.clock.holdover = true)) ∧
    (∃ (s : State), s.stew = true ∧ s.bus.mbx.snap = none) ∧
    (∃ (s : State), s.stew = true ∧ s.bus.mbx.snap ≠ none) ∧
    (∃ (s : State) (ws : List W32) (n : Nat), s.stew = true ∧ ws = mailboxWords s s.bus.mbx.bus s.bus.mbx.buffer ∧ n = (s.bus.mbx.count + 1) % 128) ∧
    (∃ (s : State) (ws : List W32), s.stew = true ∧ s.bus.mbx.snap = some ws) ∧
    (∃ (s : State), s.stew = true) :=
  ⟨⟨J, 0, (frames1.getD 7 (fr 0 0 [])), ⟨by unfold Hears; decide, by decide, notRepeats (by decide), by decide⟩, by decide⟩,
   ⟨cmdr, _, (frames1.getD 7 (fr 0 0 [])), ⟨by unfold Hears; decide, by decide, notRepeats (by decide), by decide⟩, rfl, by decide⟩,
   ⟨synced id, _, fr 0x22 9 (sy 7000), _, _, ⟨⟨by unfold Hears; decide, by decide, notRepeats (by decide), by decide⟩, rfl, by decide, by decide, by decide, ⟨_, ⟨rfl, by decide⟩⟩⟩, rfl, by decide⟩,
   ⟨synced (fun c => { c with last := some (4, 100000) }), _, fr 0x22 9 (sy 1000), _, _, ⟨⟨by unfold Hears; decide, by decide, notRepeats (by decide), by decide⟩, rfl, by decide, by decide, by decide, ⟨_, ⟨rfl, by decide⟩⟩⟩, rfl, by decide, by decide, by decide⟩,
   ⟨synced id, _, fr 0x22 9 (sy 1003), _, _, ⟨⟨by unfold Hears; decide, by decide, notRepeats (by decide), by decide⟩, rfl, by decide, by decide, by decide, ⟨_, ⟨rfl, by decide⟩⟩⟩, rfl, by decide, by decide, by decide, by decide⟩,
   ⟨synced id, _, fr 0x22 9 (sy 1000), _, _, ⟨⟨by unfold Hears; decide, by decide, notRepeats (by decide), by decide⟩, rfl, by decide, by decide, by decide, ⟨_, ⟨rfl, by decide⟩⟩⟩, rfl, by decide, by decide⟩,
   ⟨synced id, _, fr 0x22 9 (sy 1000), _, ⟨⟨by unfold Hears; decide, by decide, notRepeats (by decide), by decide⟩, rfl, by decide, by decide, by decide, ⟨_, ⟨rfl, by decide⟩⟩⟩, by decide⟩,
   ⟨synced id, by decide, by decide, by decide⟩,
   ⟨stw, by decide, by decide⟩,
   ⟨stw, by decide, by decide⟩,
   ⟨J.modBuses fun x => { x with mbx := { buffer := 12, snap := some (List.replicate 18 9), count := 127 } }, by decide, by decide⟩,
   ⟨stw, _, _, by decide, rfl, rfl⟩,
   ⟨J.modBuses fun x => { x with mbx := { buffer := 12, snap := some (List.replicate 18 9), count := 127 } }, _, by decide, rfl⟩,
   ⟨stw, by decide⟩⟩

end Bus

namespace Ward

def J := joined
def W (f : Warden → Warden) : State := J.modWard f
def maps : WardPolicy := { rackMap := [{ node := 32, channel := 0, fn := 1, arg := 0, spMin := 100, spMax := 9000 }, { node := 33, channel := 1, fn := 3, arg := 9, spMin := 0, spMax := 10000 }, { node := 34, channel := 2, fn := 4, arg := 0, spMin := 0, spMax := 0 }], rowMap := [{ node := 40, channel := 0, fn := 16, arg := 0, spMin := 0, spMax := 10000 }, { node := 40, channel := 1, fn := 17, arg := 0, spMin := 0, spMax := 10000 }, { node := 41, channel := 2, fn := 20, arg := 0, spMin := 0, spMax := 0 }, { node := 41, channel := 3, fn := 19, arg := 0, spMin := 0, spMax := 0 }] }
def bodyA : Bytes := packFlds 43 [(0, 2, 200), (2, 2, 150), (6, 2, 900), (8, 2, 700), (16, 1, 64)]
def act (f : Warden → Warden) : State := J.modWard fun w => f { w with active := true, pol := maps, slots := [(3, { cap := 800, at_ := some 499000000, body := bodyA, lowered := true, told := true }), (9, { cap := 500, at_ := some 499000000, body := bodyA }), (11, { cap := 60 })], racks := [(2, { cap := 3000, at_ := some 499000000, body := packFlds 41 [(0, 2, 5000), (2, 2, 3000)] }), (4, { cap := 500 })], rackOut := [(0, { sp := some 300, slewing := true }), (1, { sp := some 10000 })], rowOut := [(0, { sp := some 5 }), (1, { sp := some 8 })], rackStages := [(32, { claim := 5, at_ := some 499999000, flags := 2 }), (33, { claim := 4, at_ := some 499999000, applied := [(1, some 77)], alarms := [256 + 1] }), (34, { alarms := [256 + 2] })] }
def cmdr (s : State) : State := s.modBuses fun x => { x with rack := { x.rack with hbs := [{ src := 9, claim := 7, flags := 4, rack := 2, dsn := 1, at_ := 499999999 }] }, row := { x.row with hbs := [{ src := 9, claim := 7, flags := 6, rack := 2, dsn := 1, at_ := 499999999 }] } }
def up2 (f : Warden → Warden) : State := W fun w => f { w with lanes := [{ up := true, good := 3 }, { up := false, good := 2 }] }
def dsc (i : Instr) (ops : List Fld) : Bytes := match policyOf i with | some p => packFlds 64 ([(16, 1, p.cls), (17, 1, p.cmd)] ++ ops) | none => []
def entry (n ch fn arg lo hi : Nat) : List Nat := [n, ch, fn, arg, lo % 256, lo / 256, hi % 256, hi / 256]
def descs : List Bytes := [dsc .commission [(24, 1, 1), (25, 1, 1), (26, 2, 7), (28, 2, 9)], dsc .commission [(24, 1, 1), (25, 1, 0), (26, 2, 7)], dsc .decommission [],
  dsc .setStageMap ([(24, 1, 0), (25, 1, 1), (26, 1, 1), (27, 1, 3)] ++ (entry 35 3 1 0 5 9).zipIdx.map (fun e => (28 + e.2, 1, e.1))), dsc .setStageMap ([(24, 1, 1), (25, 1, 0), (26, 1, 1), (27, 1, 2)] ++ (entry 35 3 16 0 5 9).zipIdx.map (fun e => (28 + e.2, 1, e.1))),
  dsc .setBudget [(24, 4, 90000), (28, 4, 5000)], dsc .setExchange [(24, 1, 1), (25, 2, 10000), (27, 2, 350), (29, 2, 720)], dsc .setSlew [(24, 2, 100)], dsc .setLeak [(24, 1, 1), (25, 1, 30), (26, 1, 1), (27, 1, 60)],
  dsc .slotValve [(24, 1, 9), (25, 1, 0)], dsc .slotValve [(24, 1, 9), (25, 1, 1)], dsc .slotRelease [(24, 1, 31)], dsc .slotRelease [(24, 1, 9)], dsc .canarySwap [], dsc .leakReset [(24, 1, 0)], dsc .leakReset [(24, 1, 1)], dsc .wardNow []]
def given (s : State) : List State := descs.map fun d => s.modMgmt fun m => { m with disp := some (17, d) }
def peerOk : Bytes := packFlds 512 [(8, 1, 32)]
def base : List State := [stw, J, W fun w => { w with rackRole := false, rowRole := false, lanes := [{ up := true }] }, act id, cmdr J, cmdr (act fun w => { w with active := false }), cmdr (act id),
  act fun w => { w with pol := { w.pol with rackResp := .caps, rowResp := .caps, rowTarget := 16 } }, act fun w => { w with pol := { w.pol with rackAction := 1, rowAction := 1, rackResp := .done, rowResp := .done, rowTarget := 17, leakShut := [9] } },
  act fun w => { w with slots := w.slots.map (fun e => (e.1, { e.2 with lowered := false })), a := 1400, pol := { w.pol with budget := 90000 } }, act fun w => { w with rowRole := false }, act fun w => { w with pol := { w.pol with rowResp := .caps, rowTarget := 17, budget := 9999, rMin := 100 } },
  W fun w => { w with misses := 2 }, W fun w => { w with misses := 2, peerHeard := true }, W fun w => { w with side := 1, activeAt := some 490000000 }, W fun w => { w with rackClaim := 0 }, W fun w => { w with rackClaim := 0xFFFE, copy := some (packFlds 512 [(144 + 12, 2, 33), (272, 4, 0xFFFFFFF0)]), copyAt := some 4, pol := maps },
  up2 id, up2 fun w => { w with wlSeq := some 7 }, up2 fun w => { w with active := true, pol := maps }, up2 fun w => { w with handover := some true }, up2 fun w => { w with handover := some false, active := true },
  up2 fun w => { w with canaryAt := some 499999999 }, up2 fun w => { w with peer := some (packFlds 512 [(9, 1, 8)]) }, up2 fun w => { w with active := true, peer := some peerOk }, W fun w => { w with lanes := [{ good := 2 }, { good := 1 }] }, W fun w => { w with lanes := [{ good := 1 }, { good := 2 }], wlSeq := some 7 },
  act fun w => { w with canary := true }, act fun w => { w with canary := true, rackStages := [(32, { claim := 5 }), (33, { claim := 5 })], rowRole := false }, W fun w => { w with mirrorIn := some (3, 2, [(0, [1, 2])]) },
  J.modAdit fun a => { a with a5in := [(3, mkShort 0x50 0 0 0 0 (packFlds 40 [(0, 8, 99), (8, 1, 4), (9, 1, 2)])), (2, [])] }, J.modMgmt fun m => { m with fuses := { m.fuses with variant := 1 } },
  { J with bus := { J.bus with row := { join := .listening, result := 2 } } }, { J with bus := { J.bus with row := {} } },
  act fun w => { w with slots := [(9, { leakAt := some 490000000, at_ := some 1 }), (31, { at_ := some 5, cap := 3, lowered := true })], pol := { w.pol with leakShut := [9], valveShut := [9] } }, act fun w => { w with rackStages := [], pol := { w.pol with rackResp := .done, rowResp := .done, leakShut := [9] }, slots := [] },
  J.modWard fun w => { w with activeAt := some 499999999 }, J.modBus 1 fun x => { x with join := .listening }]
def frames1 : List Frame := (frameCmds.map fun x => fr x.1 9 (List.replicate 60 0))
def states1 : List State := base
def states2 : List State := base.flatMap given

/-- The hypotheses of each clause of Obligations.WardenFrames are met together. -/
theorem test_witness_WardenFrames :
    (∃ (s : State) (b : Nat) (f : Frame), Takes s b 32 f) ∧
    (∃ (x : Nat × (Nat → Frame → Instr)) (s : State) (b : Nat) (f : Frame), x ∈ frameCmds ∧ x.fst ∈ [33, 3] ∧ Takes s b x.fst f ∧ s.ward.rackRole = false) ∧
    (∃ (s : State) (b : Nat) (f : Frame), Takes s b 33 f ∧ s.ward.rackRole = true) ∧
    (∃ (s : State) (b : Nat) (f : Frame) (k : Nat), Takes s b 3 f ∧ s.ward.rackRole = true ∧ k = 256 * byteAt f.body 2 + byteAt f.body 1) ∧
    (∃ (s : State) (f : Frame), Takes s 0 3 f ∧ s.ward.rackRole = true ∧ bit (byteAt f.body 3) 0 = true ∧ s.ward.active = true ∧ byteAt f.body 2 = 1 ∧ fnAt s 0 f.src (byteAt f.body 1) = 4 ∧ s.ward.pol.rackAction = 0 ∧ s.ward.pol.rackResp = Resp9.none) ∧
    (∃ (s : State) (f : Frame) (t : Nat), Takes s 1 3 f ∧ s.ward.rackRole = true ∧ bit (byteAt f.body 3) 0 = true ∧ activeIn s 1 = true ∧ s.ward.pol.rowAction = 0 ∧ s.ward.pol.rowResp = Resp9.none ∧ (byteAt f.body 2 = 1 ∧ fnAt s 1 f.src (byteAt f.body 1) = 20 ∧ t = 16 ∨ byteAt f.body 2 = 3 ∧ fnAt s 1 f.src (byteAt f.body 1) = 19 ∧ t = 16 ∨ byteAt f.body 2 = 4 ∧ fnAt s 1 f.src (byteAt f.body 1) = 19 ∧ t = 17)) ∧
    (∃ (s : State) (f : Frame), Takes s 0 1 f ∧ bit (byteAt f.body 1) 0 = true ∧ s.ward.active = true ∧ (¬f.src ∈ s.ward.pol.leakShut)) ∧
    (∃ (s : State) (f : Frame), Takes s 0 1 f ∧ bit (byteAt f.body 1) 0 = true ∧ (s.ward.active = false ∨ f.src ∈ s.ward.pol.leakShut)) ∧
    (∃ (s : State) (f : Frame), Takes s 0 1 f ∧ bit (byteAt f.body 1) 0 = false) ∧
    (∃ (s : State) (f : Frame), Takes s 0 2 f) ∧
    (∃ (s : State) (f : Frame), Takes s 1 4 f ∧ s.ward.rowRole = true) ∧
    (∃ (s : State) (f : Frame), Takes s 0 48 f ∧ s.ward.rackRole = true) ∧
    (∃ (s : State) (f : Frame), Takes s 0 64 f ∧ s.ward.rackRole = true) ∧
    (∃ (s : State) (f : Frame), Takes s 1 50 f ∧ s.ward.rowRole = true) ∧
    (∃ (s : State) (f : Frame), Takes s 1 65 f ∧ s.ward.rowRole = true) ∧
    (∃ (x : Nat × (Nat → Frame → Instr)) (s : State) (b : Nat) (f : Frame), x ∈ frameCmds ∧ Takes s b x.fst f ∧ (x.fst ∈ [1, 2, 48, 64] ∧ b ≠ 0 ∨ x.fst ∈ [4, 50, 65] ∧ b ≠ 1 ∨ x.fst ∈ [48, 64] ∧ s.ward.rackRole = false ∨ x.fst ∈ [4, 50, 65] ∧ s.ward.rowRole = false ∨ x.fst = 80 ∧ s.ward.active = true)) ∧
    (∃ (s : State) (f : Frame) (i : Nat), Takes s 0 49 f ∧ fromCommand s 0 f.src = true ∧ bit (byteAt f.body 2) 0 = false ∧ s.ao.slotId = byteAt f.body 0 + i ∧ i < byteAt f.body 1) ∧
    (∃ (s : State) (f : Frame) (i : Nat), Takes s 1 49 f ∧ fromCommand s 1 f.src = true ∧ bit (byteAt f.body 2) 0 = true ∧ s.ao.rackId = byteAt f.body 0 + i ∧ i < byteAt f.body 1 ∧ s.ward.rackRole = true) ∧
    (∃ (s : State) (b : Nat) (f : Frame) (me : Nat), Takes s b 49 f ∧ (me = if b = 0 then s.ao.slotId else s.ao.rackId) ∧ (fromCommand s b f.src = false ∨ bits (byteAt f.body 2) 0 0 ≠ b ∨ me < byteAt f.body 0 ∨ byteAt f.body 0 + byteAt f.body 1 ≤ me)) ∧
    (∃ (s : State) (b : Nat) (f : Frame) (d : List Byte), Takes s b 80 f ∧ s.ward.active = false ∧ d = List.take f.len f.body) :=
  ⟨⟨(states1.getD 1 .reset), 0, (frames1.getD 5 (fr 0 0 [])), ⟨by unfold Hears; decide, by decide, notRepeats (by decide), by decide⟩⟩,
   ⟨_, (states1.getD 2 .reset), 0, (frames1.getD 2 (fr 0 0 [])), List.mem_of_getElem? (i := 2) rfl, by decide, ⟨by unfold Hears; decide, by decide, notRepeats (by decide), by decide⟩, by decide⟩,
   ⟨(states1.getD 1 .reset), 0, (frames1.getD 6 (fr 0 0 [])), ⟨by unfold Hears; decide, by decide, notRepeats (by decide), by decide⟩, by decide⟩,
   ⟨(states1.getD 1 .reset), 0, (frames1.getD 2 (fr 0 0 [])), _, ⟨by unfold Hears; decide, by decide, notRepeats (by decide), by decide⟩, by decide, rfl⟩,
   ⟨(states1.getD 3 .reset), fr 0x03 34 [0, 2, 1, 1, 5, 0], ⟨by unfold Hears; decide, by decide, notRepeats (by decide), by decide⟩, by decide, by decide, by decide, by decide, by decide, by decide, by decide⟩,
   ⟨(states1.getD 3 .reset), fr 0x03 41 [0, 2, 1, 1, 0, 0], 16, ⟨by unfold Hears; decide, by decide, notRepeats (by decide), by decide⟩, by decide, by decide, by decide, by decide, by decide, by decide⟩,
   ⟨(states1.getD 3 .reset), fr 0x01 9 [1, 1, 0, 0, 0, 0], ⟨by unfold Hears; decide, by decide, notRepeats (by decide), by decide⟩, by decide, by decide, by decide⟩,
   ⟨(states1.getD 1 .reset), fr 0x01 9 [1, 1, 0, 0, 0, 0], ⟨by unfold Hears; decide, by decide, notRepeats (by decide), by decide⟩, by decide, by decide⟩,
   ⟨(states1.getD 1 .reset), (frames1.getD 0 (fr 0 0 [])), ⟨by unfold Hears; decide, by decide, notRepeats (by decide), by decide⟩, by decide⟩,
   ⟨(states1.getD 1 .reset), (frames1.getD 1 (fr 0 0 [])), ⟨by unfold Hears; decide, by decide, notRepeats (by decide), by decide⟩⟩,
   ⟨(states1.getD 1 .reset), (frames1.getD 3 (fr 0 0 [])), ⟨by unfold Hears; decide, by decide, notRepeats (by decide), by decide⟩, by decide⟩,
   ⟨(states1.getD 1 .reset), (frames1.getD 8 (fr 0 0 [])), ⟨by unfold Hears; decide, by decide, notRepeats (by decide), by decide⟩, by decide⟩,
   ⟨(states1.getD 1 .reset), (frames1.getD 11 (fr 0 0 [])), ⟨by unfold Hears; decide, by decide, notRepeats (by decide), by decide⟩, by decide⟩,
   ⟨(states1.getD 1 .reset), (frames1.getD 10 (fr 0 0 [])), ⟨by unfold Hears; decide, by decide, notRepeats (by decide), by decide⟩, by decide⟩,
   ⟨(states1.getD 1 .reset), (frames1.getD 12 (fr 0 0 [])), ⟨by unfold Hears; decide, by decide, notRepeats (by decide), by decide⟩, by decide⟩,
   ⟨_, (states1.getD 1 .reset), 1, (frames1.getD 0 (fr 0 0 [])), List.mem_of_getElem? (i := 0) rfl, ⟨by unfold Hears; decide, by decide, notRepeats (by decide), by decide⟩, by decide⟩,
   ⟨(states1.getD 4 .reset), fr 0x31 9 ([3, 1, 0, 0] ++ List.replicate 4 3), 0, ⟨by unfold Hears; decide, by decide, notRepeats (by decide), by decide⟩, by decide, by decide, by decide, by decide⟩,
   ⟨(states1.getD 4 .reset), fr 0x31 9 ([0, 14, 1, 0] ++ List.replicate 56 3), 2, ⟨by unfold Hears; decide, by decide, notRepeats (by decide), by decide⟩, by decide, by decide, by decide, by decide, by decide⟩,
   ⟨(states1.getD 1 .reset), 0, (frames1.getD 9 (fr 0 0 [])), _, ⟨by unfold Hears; decide, by decide, notRepeats (by decide), by decide⟩, rfl, by decide⟩,
   ⟨(states1.getD 1 .reset), 0, (frames1.getD 13 (fr 0 0 [])), _, ⟨by unfold Hears; decide, by decide, notRepeats (by decide), by decide⟩, by decide, rfl⟩⟩

/-- The hypotheses of each clause of Obligations.WardenRoles are met together. -/
theorem test_witness_WardenRoles :
    (∃ (s : State), s.stew = true ∧ s.ward.rackRole = true ∧ s.ward.active = false ∧ s.bus.rack.join = JoinSt.joined ∧ s.ward.rackClaim ≠ 0 ∧ heardWithin s (if s.ward.side = 0 then 60 else 120) s.ward.activeAt = false) ∧
    (∃ (s : State), s.stew = true ∧ (s.ward.rackRole = false ∨ s.ward.active = true ∨ s.bus.rack.join ≠ JoinSt.joined ∨ s.ward.rackClaim = 0 ∨ heardWithin s (if s.ward.side = 0 then 60 else 120) s.ward.activeAt = true)) ∧
    (∃ (s : State), s.stew = true ∧ s.ward.rackRole = true ∧ s.ward.active = false ∧ s.ward.peerHeard = false ∧ 2 ≤ s.ward.misses ∧ s.ward.rackClaim ≠ 0) ∧
    (∃ (s : State), s.stew = true ∧ s.ward.rackRole = true ∧ s.ward.active = false ∧ (s.ward.peerHeard = true ∨ s.ward.misses < 2 ∨ s.ward.rackClaim = 0)) ∧
    (∃ (s : State), s.stew = true ∧ (s.ward.rackRole = false ∨ s.ward.active = true)) ∧
    (∃ (s : State) (lane : Nat) (seq : Nat) (d : Bytes), LinkTakes s lane seq 4 d ∧ s.ward.active = false ∧ s.ward.rackClaim ≠ 0) ∧
    (∃ (s : State) (lane : Nat) (seq : Nat) (d : Bytes), LinkTakes s lane seq 4 d ∧ (s.ward.active = true ∨ s.ward.rackClaim = 0)) ∧
    (∃ (s : State) (lane : Nat) (seq : Nat) (d : Bytes) (c : Bool), LinkTakes s lane seq 4 d ∧ s.ward.handover = some c) ∧
    (∃ (s : State) (lane : Nat) (seq : Nat) (d : Bytes), LinkTakes s lane seq 4 d ∧ s.ward.handover = none) ∧
    (∃ (s : State) (c : Bool), s.stew = true ∧ s.ward.handover = some c) ∧
    (∃ (s : State), s.stew = true ∧ s.ward.handover = none) ∧
    (∃ (s : State), s.stew = true ∧ s.ward.active = true ∧ s.ward.canary = true ∧ (∀ (e : Nat × Nat), e ∈ judgedStages s → (s.stage e.fst e.snd).claim = claimOf s e.fst)) ∧
    (∃ (s : State), s.stew = true ∧ s.ward.active = true ∧ s.ward.rackRole = true ∧ s.ward.canary = true ∧ (∃ e, e ∈ judgedStages s ∧ (s.stage e.fst e.snd).claim ≠ claimOf s e.fst)) ∧
    (∃ (s : State), s.stew = true ∧ (s.ward.active = false ∨ s.ward.canary = false)) :=
  ⟨⟨(states1.getD 1 .reset), by decide, by decide, by decide, by decide, by decide, by decide⟩,
   ⟨(states1.getD 0 .reset), by decide, by decide⟩,
   ⟨(states1.getD 12 .reset), by decide, by decide, by decide, by decide, by decide, by decide⟩,
   ⟨(states1.getD 1 .reset), by decide, by decide, by decide, by decide⟩,
   ⟨(states1.getD 0 .reset), by decide, by decide⟩,
   ⟨(states1.getD 17 .reset), 0, 0, [], by unfold LinkTakes; decide, by decide, by decide⟩,
   ⟨(states1.getD 19 .reset), 0, 0, [], by unfold LinkTakes; decide, by decide⟩,
   ⟨(states1.getD 20 .reset), 0, 0, [], _, by unfold LinkTakes; decide, rfl⟩,
   ⟨(states1.getD 17 .reset), 0, 0, [], by unfold LinkTakes; decide, by decide⟩,
   ⟨(states1.getD 20 .reset), _, by decide, rfl⟩,
   ⟨(states1.getD 0 .reset), by decide, by decide⟩,
   ⟨(states1.getD 28 .reset), by decide, by decide, by decide, by decide⟩,
   ⟨(states1.getD 27 .reset), by decide, by decide, by decide, by decide, by decide⟩,
   ⟨(states1.getD 0 .reset), by decide, by decide⟩⟩

/-- The hypotheses of each clause of Obligations.WardenCycles are met together. -/
theorem test_witness_WardenCycles :
    (∃ (s : State), s.stew = true ∧ s.ward.rackRole = true ∧ s.ward.active = false) ∧
    (∃ (s : State), s.stew = true ∧ s.ward.rackRole = true ∧ s.ward.active = true) ∧
    (∃ (s : State), s.stew = true ∧ s.ward.rackRole = false) ∧
    (∃ (s : State), s.stew = true ∧ activeIn s 1 = true) ∧
    (∃ (s : State), s.stew = true ∧ activeIn s 1 = false) ∧
    (∃ (s : State), s.stew = true) ∧
    (∃ (s : State), s.stew = true ∧ s.ward.active = true ∧ s.ward.pol.rackResp = Resp9.caps) ∧
    (∃ (s : State), s.stew = true ∧ activeIn s 1 = true ∧ s.ward.pol.rowResp = Resp9.caps) ∧
    (∃ (s : State) (b : Nat), s.stew = true ∧ (activeIn s b = false ∨ (if b = 0 then s.ward.pol.rackResp else s.ward.pol.rowResp) ≠ Resp9.caps)) ∧
    (∃ (s : State), s.stew = true ∧ s.ward.active = true ∧ s.ward.rackRole = true ∧ linkUpW s = true) ∧
    (∃ (s : State), s.stew = true ∧ s.ward.active = true ∧ linkUpW s = false) ∧
    (∃ (s : State), s.stew = true ∧ s.ward.active = false) ∧
    (∃ (s : State), s.stew = true ∧ s.adit.a6.length ≤ 200) :=
  ⟨⟨(states1.getD 1 .reset), by decide, by decide, by decide⟩,
   ⟨(states1.getD 3 .reset), by decide, by decide, by decide⟩,
   ⟨(states1.getD 0 .reset), by decide, by decide⟩,
   ⟨(states1.getD 3 .reset), by decide, by decide⟩,
   ⟨(states1.getD 0 .reset), by decide, by decide⟩,
   ⟨(states1.getD 0 .reset), by decide⟩,
   ⟨(states1.getD 7 .reset), by decide, by decide, by decide⟩,
   ⟨(states1.getD 7 .reset), by decide, by decide, by decide⟩,
   ⟨(states1.getD 0 .reset), 0, by decide, by decide⟩,
   ⟨(states1.getD 19 .reset), by decide, by decide, by decide, by decide⟩,
   ⟨(states1.getD 3 .reset), by decide, by decide, by decide⟩,
   ⟨(states1.getD 0 .reset), by decide, by decide⟩,
   ⟨(states1.getD 0 .reset), by decide, by decide⟩⟩

/-- The hypotheses of each clause of Obligations.WardenLink are met together. -/
theorem test_witness_WardenLink :
    (∃ (x : Nat × (Nat → Nat → Bool → Bytes → Instr)) (s : State) (lane : Nat), x ∈ wlCmds ∧ s.stew = true ∧ (s.ward.rackRole = false ∨ 2 ≤ lane)) ∧
    (∃ (x : Nat × (Nat → Nat → Bool → Bytes → Instr)) (s : State) (lane : Nat) (good : Bool) (d : Bytes), x ∈ wlCmds ∧ s.stew = true ∧ s.ward.rackRole = true ∧ lane < 2 ∧ (good = false ∨ x.fst < List.length d)) ∧
    (∃ (x : Nat × (Nat → Nat → Bool → Bytes → Instr)) (s : State) (lane : Nat) (seq : Nat) (d : Bytes), x ∈ wlCmds ∧ s.stew = true ∧ s.ward.rackRole = true ∧ lane < 2 ∧ List.length d ≤ x.fst ∧ (s.ward.lanes.getD lane { }).up = true ∧ s.ward.wlSeq = some seq) ∧
    (∃ (x : Nat × (Nat → Nat → Bool → Bytes → Instr)) (s : State) (lane : Nat) (d : Bytes), x ∈ wlCmds ∧ s.stew = true ∧ s.ward.rackRole = true ∧ lane < 2 ∧ List.length d ≤ x.fst ∧ (s.ward.lanes.getD lane { }).up = false ∧ (s.ward.lanes.getD lane { }).good < 2) ∧
    (∃ (x : Nat × (Nat → Nat → Bool → Bytes → Instr)) (s : State) (lane : Nat) (d : Bytes), x ∈ wlCmds ∧ s.stew = true ∧ s.ward.rackRole = true ∧ lane < 2 ∧ s.ward.lanes.length = 2 ∧ List.length d ≤ x.fst ∧ (s.ward.lanes.getD lane { }).up = false ∧ 2 ≤ (s.ward.lanes.getD lane { }).good) ∧
    (∃ (s : State) (lane : Nat) (seq : Nat), LinkTakes s lane seq 0 []) ∧
    (∃ (s : State) (lane : Nat) (seq : Nat) (d : Bytes), LinkTakes s lane seq 512 d ∧ bit (byteAt d 8) 0 = false) ∧
    (∃ (s : State) (lane : Nat) (seq : Nat) (d : Bytes), LinkTakes s lane seq 512 d ∧ bit (byteAt d 8) 0 = true) ∧
    (∃ (s : State) (lane : Nat) (seq : Nat) (d : Bytes), LinkTakes s lane seq 1024 d ∧ s.ward.active = false) ∧
    (∃ (s : State) (lane : Nat) (seq : Nat) (d : Bytes), LinkTakes s lane seq 1024 d ∧ s.ward.active = true) ∧
    (∃ (s : State) (lane : Nat), s.stew = true ∧ (s.ward.lanes.getD lane { }).up = true) ∧
    (∃ (s : State) (lane : Nat), s.stew = true ∧ (s.ward.lanes.getD lane { }).up = false) ∧
    (∃ (s : State) (k : Nat) (m : Bytes), LockHeard 80 k m s) :=
  ⟨⟨_, (states1.getD 0 .reset), 0, List.mem_of_getElem? (i := 0) rfl, by decide, by decide⟩,
   ⟨_, (states1.getD 1 .reset), 0, false, [], List.mem_of_getElem? (i := 0) rfl, by decide, by decide, by decide, by decide⟩,
   ⟨_, (states1.getD 18 .reset), 0, _, [], List.mem_of_getElem? (i := 0) rfl, by decide, by decide, by decide, by decide, by decide, rfl⟩,
   ⟨_, (states1.getD 1 .reset), 0, [], List.mem_of_getElem? (i := 0) rfl, by decide, by decide, by decide, by decide, by decide, by decide⟩,
   ⟨_, (states1.getD 17 .reset), 1, [], List.mem_of_getElem? (i := 0) rfl, by decide, by decide, by decide, by decide, by decide, by decide, by decide⟩,
   ⟨(states1.getD 17 .reset), 0, 0, by unfold LinkTakes; decide⟩,
   ⟨(states1.getD 17 .reset), 0, 0, [], by unfold LinkTakes; decide, by decide⟩,
   ⟨(states1.getD 17 .reset), 0, 0, packFlds 512 [(8, 1, 1)], by unfold LinkTakes; decide, by decide⟩,
   ⟨(states1.getD 17 .reset), 0, 0, [], by unfold LinkTakes; decide, by decide⟩,
   ⟨(states1.getD 19 .reset), 0, 0, [], by unfold LinkTakes; decide, by decide⟩,
   ⟨(states1.getD 2 .reset), 0, by decide, by decide⟩,
   ⟨(states1.getD 0 .reset), 0, by decide, by decide⟩,
   ⟨(states1.getD 30 .reset), _, _, ⟨by decide, ⟨_, rfl⟩, by decide⟩⟩⟩

/-- The hypotheses of each clause of Obligations.WardenPolicy are met together. -/
theorem test_witness_WardenPolicy :
    (∃ (x : Instr × (Bytes → Nat)) (s : State) (tag : BitVec 16) (d : Bytes), x ∈ activeCmds ∧ Asked x.fst s tag d ∧ accepts s (x.snd d) = false) ∧
    (∃ (s : State) (tag : BitVec 16) (d : Bytes), Asked Instr.commission s tag d ∧ (capable s = false ∨ s.ward.active = true ∨ bit (byteAt d 25) 0 = true ∧ rowCannotJoin s = true)) ∧
    (∃ (s : State) (tag : BitVec 16) (d : Bytes), Asked Instr.commission s tag d ∧ capable s = true ∧ s.ward.active = false ∧ (bit (byteAt d 25) 0 = false ∨ rowCannotJoin s = false)) ∧
    (∃ (s : State) (tag : BitVec 16) (d : Bytes), Asked Instr.decommission s tag d ∧ (capable s = false ∨ s.ward.active = true)) ∧
    (∃ (s : State) (tag : BitVec 16) (d : Bytes), Asked Instr.decommission s tag d ∧ capable s = true ∧ s.ward.active = false) ∧
    (∃ (s : State) (tag : BitVec 16) (d : Bytes) (row : Nat), Asked Instr.setStageMap s tag d ∧ row = byteAt d 24 ∧ accepts s row = true) ∧
    (∃ (s : State) (tag : BitVec 16) (d : Bytes), Asked Instr.setBudget s tag d ∧ accepts s 1 = true) ∧
    (∃ (s : State) (tag : BitVec 16) (d : Bytes), Asked Instr.setExchange s tag d ∧ accepts s 1 = true) ∧
    (∃ (s : State) (tag : BitVec 16) (d : Bytes), Asked Instr.setSlew s tag d ∧ accepts s 0 = true) ∧
    (∃ (s : State) (tag : BitVec 16) (d : Bytes), Asked Instr.setLeak s tag d ∧ accepts s 0 = true) ∧
    (∃ (s : State) (tag : BitVec 16) (d : Bytes), Asked Instr.slotValve s tag d ∧ accepts s 0 = true ∧ byteAt d 25 = 0) ∧
    (∃ (s : State) (tag : BitVec 16) (d : Bytes), Asked Instr.slotValve s tag d ∧ accepts s 0 = true ∧ byteAt d 25 = 1 ∧ heardWithin s 2000 (s.slotBook (byteAt d 24)).leakAt = true) ∧
    (∃ (s : State) (tag : BitVec 16) (d : Bytes), Asked Instr.slotValve s tag d ∧ accepts s 0 = true ∧ byteAt d 25 = 1 ∧ heardWithin s 2000 (s.slotBook (byteAt d 24)).leakAt = false) ∧
    (∃ (s : State) (tag : BitVec 16) (d : Bytes), Asked Instr.slotRelease s tag d ∧ accepts s 0 = true ∧ heardWithin s 10000 (s.slotBook (byteAt d 24)).at_ = true) ∧
    (∃ (s : State) (tag : BitVec 16) (d : Bytes), Asked Instr.slotRelease s tag d ∧ accepts s 0 = true ∧ heardWithin s 10000 (s.slotBook (byteAt d 24)).at_ = false) ∧
    (∃ (s : State) (tag : BitVec 16) (d : Bytes), Asked Instr.canarySwap s tag d ∧ canaryBarred s = true) ∧
    (∃ (s : State) (tag : BitVec 16) (d : Bytes), Asked Instr.canarySwap s tag d ∧ canaryBarred s = false ∧ s.ward.rackRole = true) ∧
    (∃ (s : State) (tag : BitVec 16) (d : Bytes) (b : Nat), Asked Instr.leakReset s tag d ∧ b = byteAt d 24 ∧ accepts s b = true ∧ alarmStands s b = true) ∧
    (∃ (s : State) (tag : BitVec 16) (d : Bytes) (b : Nat), Asked Instr.leakReset s tag d ∧ b = byteAt d 24 ∧ accepts s b = true ∧ alarmStands s b = false ∧ (if b = 0 then s.ward.pol.rackResp else s.ward.pol.rowResp) = Resp9.none) ∧
    (∃ (s : State) (tag : BitVec 16) (d : Bytes) (b : Nat), Asked Instr.leakReset s tag d ∧ b = byteAt d 24 ∧ accepts s b = true ∧ alarmStands s b = false ∧ (if b = 0 then s.ward.pol.rackResp else s.ward.pol.rowResp) ≠ Resp9.none) ∧
    (∃ (s : State) (tag : BitVec 16) (d : Bytes), Asked Instr.wardNow s tag d) :=
  ⟨⟨_, (states2.getD 3 .reset), _, _, List.mem_of_getElem? (i := 0) rfl, ⟨_, ⟨⟨by decide, rfl, rfl, by decide, by decide⟩, by decide, by decide⟩⟩, by decide⟩,
   ⟨(states2.getD 51 .reset), _, _, ⟨_, ⟨⟨by decide, rfl, rfl, by decide, by decide⟩, by decide, by decide⟩⟩, by decide⟩,
   ⟨(states2.getD 0 .reset), _, _, ⟨_, ⟨⟨by decide, rfl, rfl, by decide, by decide⟩, by decide, by decide⟩⟩, by decide, by decide, by decide⟩,
   ⟨(states2.getD 53 .reset), _, _, ⟨_, ⟨⟨by decide, rfl, rfl, by decide, by decide⟩, by decide, by decide⟩⟩, by decide⟩,
   ⟨(states2.getD 2 .reset), _, _, ⟨_, ⟨⟨by decide, rfl, rfl, by decide, by decide⟩, by decide, by decide⟩⟩, by decide, by decide⟩,
   ⟨(states2.getD 20 .reset), _, _, _, ⟨_, ⟨⟨by decide, rfl, rfl, by decide, by decide⟩, by decide, by decide⟩⟩, rfl, by decide⟩,
   ⟨(states2.getD 22 .reset), _, _, ⟨_, ⟨⟨by decide, rfl, rfl, by decide, by decide⟩, by decide, by decide⟩⟩, by decide⟩,
   ⟨(states2.getD 23 .reset), _, _, ⟨_, ⟨⟨by decide, rfl, rfl, by decide, by decide⟩, by decide, by decide⟩⟩, by decide⟩,
   ⟨(states2.getD 24 .reset), _, _, ⟨_, ⟨⟨by decide, rfl, rfl, by decide, by decide⟩, by decide, by decide⟩⟩, by decide⟩,
   ⟨(states2.getD 25 .reset), _, _, ⟨_, ⟨⟨by decide, rfl, rfl, by decide, by decide⟩, by decide, by decide⟩⟩, by decide⟩,
   ⟨(states2.getD 26 .reset), _, _, ⟨_, ⟨⟨by decide, rfl, rfl, by decide, by decide⟩, by decide, by decide⟩⟩, by decide, by decide⟩,
   ⟨(states2.getD 588 .reset), _, _, ⟨_, ⟨⟨by decide, rfl, rfl, by decide, by decide⟩, by decide, by decide⟩⟩, by decide, by decide, by decide⟩,
   ⟨(states2.getD 27 .reset), _, _, ⟨_, ⟨⟨by decide, rfl, rfl, by decide, by decide⟩, by decide, by decide⟩⟩, by decide, by decide, by decide⟩,
   ⟨(states2.getD 63 .reset), _, _, ⟨_, ⟨⟨by decide, rfl, rfl, by decide, by decide⟩, by decide, by decide⟩⟩, by decide, by decide⟩,
   ⟨(states2.getD 28 .reset), _, _, ⟨_, ⟨⟨by decide, rfl, rfl, by decide, by decide⟩, by decide, by decide⟩⟩, by decide, by decide⟩,
   ⟨(states2.getD 13 .reset), _, _, ⟨_, ⟨⟨by decide, rfl, rfl, by decide, by decide⟩, by decide, by decide⟩⟩, by decide⟩,
   ⟨(states2.getD 421 .reset), _, _, ⟨_, ⟨⟨by decide, rfl, rfl, by decide, by decide⟩, by decide, by decide⟩⟩, by decide, by decide⟩,
   ⟨(states2.getD 65 .reset), _, _, _, ⟨_, ⟨⟨by decide, rfl, rfl, by decide, by decide⟩, by decide, by decide⟩⟩, rfl, by decide, by decide⟩,
   ⟨(states2.getD 31 .reset), _, _, _, ⟨_, ⟨⟨by decide, rfl, rfl, by decide, by decide⟩, by decide, by decide⟩⟩, rfl, by decide, by decide, by decide⟩,
   ⟨(states2.getD 134 .reset), _, _, _, ⟨_, ⟨⟨by decide, rfl, rfl, by decide, by decide⟩, by decide, by decide⟩⟩, rfl, by decide, by decide, by decide⟩,
   ⟨(states2.getD 16 .reset), _, _, ⟨_, ⟨⟨by decide, rfl, rfl, by decide, by decide⟩, by decide, by decide⟩⟩⟩⟩

end Ward

namespace Mgmt

def M (f : Mgmt → Mgmt) : State := stw.modMgmt f
def ctlM (cmd : Nat) (d : Bytes := []) : Bytes := [0, 0x80, BitVec.ofNat 8 cmd] ++ d
def pl (ty cmd : Nat) (d : Bytes := []) : Bytes := [1, 0x80, BitVec.ofNat 8 ty, BitVec.ofNat 8 cmd] ++ d
def ven (cmd : Nat) (d : Bytes := []) : Bytes := [0x7E, 0x9A, 0x1E, BitVec.ofNat 8 cmd] ++ d
def reqs : List Bytes := [ctlM 1 [0, 9], ctlM 1 [2, 9], ctlM 1 [1, 7], ctlM 2, ctlM 3, ctlM 4 [255], ctlM 5, ctlM 9, pl 0 1 [5], pl 0 1 [255], pl 0 2, pl 0 3 [0, 0, 0, 0, 0, 2], pl 0 3 [0, 0, 0, 0, 0, 7], pl 0 4, pl 0 5 [2], pl 0 5 [1], pl 0 9, pl 3 1,
  pl 2 4 [0], pl 2 4 [1, 0, 8], pl 2 4 [2], pl 2 0x50, pl 2 0x51 (toLe 4 0), pl 2 0x51 (toLe 4 49), pl 2 0x51 (toLe 4 60), pl 2 0x11 (toLe 2 19), pl 2 0x11 (toLe 2 1), pl 2 0x11 (toLe 2 25), pl 2 0x21 (toLe 2 113), pl 2 0x21 (toLe 2 114), pl 2 0x32 (toLe 2 205), pl 2 0x32 (toLe 2 206), pl 2 0x3A (toLe 2 306), pl 2 0x3A (toLe 2 307)] ++
  [(200, 0), (201, 20), (201, 9000), (202, 499), (202, 6000), (203, 120), (203, 351), (204, 350), (204, 119), (205, 5), (205, 3601)].map (fun e => pl 2 0x31 (toLe 2 e.1 ++ [4] ++ toLe 4 e.2)) ++ [pl 2 0x31 (toLe 2 205 ++ [1, 90])] ++
  [(300, 1), (301, 0), (301, 2), (302, 1), (302, 2), (303, 2), (304, 1), (304, 2), (304, 3), (304, 4), (305, 2), (305, 1), (306, 1), (306, 2), (306, 3), (306, 4), (306, 5), (306, 6)].map (fun e => pl 2 0x39 (toLe 2 e.1 ++ [1, 1] ++ toLe 1 e.2)) ++
  [pl 2 0x39 (toLe 2 301 ++ [2, 1, 1]), pl 2 0x39 (toLe 2 301 ++ [1, 0, 1])]
def v (cmd : Nat) (d : Bytes) : Bytes := ven cmd (0 :: d)
def sig (s : State) (cmd : Nat) (target : Nat := 1) (nonce : Nat := 5) (len : Nat := 256) : Bytes :=
  ven cmd ((packFlds 256 [(3, 0, 0), (4, 8, 1), (12, 1, s.mgmt.fuses.lc.code), (13, 1, s.mgmt.fuses.returns), (16, 16, nonce), (44, 1, target)]).drop 3 |>.take (len - 3))
def vreqs : List Bytes := [v 1 (toLe 4 0), v 1 (toLe 4 0 ++ List.replicate 9 3), v 1 (toLe 4 4 ++ [1]), v 1 (toLe 4 (2 ^ 24) ++ [1]), v 2 (toLe 4 0), v 2 (toLe 4 9), v 2 (toLe 4 1), v 3 [], v 0x10 [], v 0x11 [3], v 0x11 (List.replicate 97 7), v 0x11 (List.replicate 98 7)]
def withReq (s : State) (b : Binding := .vdm) (m : Bytes) : State := s.modMgmt fun x => { x with reqs := [{ binding := .smbus, body := [9] }, { binding := b, body := m }] }
def signers : List State := [M id, M fun m => { m with fuses := { m.fuses with lc := .maker } }, M fun m => { m with fuses := { m.fuses with lc := .returned, returns := 1 } }, M fun m => { m with fuses := { m.fuses with lc := .blank } },
  { stw with sup := { steward := true } }, { stw with sup := { steward := true }, mgmt := { fuses := { returns := 2, enrolled := [2] } } }].map fun s => s.modMgmt fun m => { m with nonce := some 5, fuses := { m.fuses with enrolled := nadd m.fuses.enrolled m.fuses.returns } }
/-- RETURN_REQUEST where the life cycle does not permit it. -/
def blankReq : State := withReq (M fun m => { m with fuses := { m.fuses with lc := .blank } }) .vdm (ven 0x12 [])
def signed1 : List State := signers.flatMap fun s => [0x12, 0x13, 0x14, 0x15].flatMap fun c => [withReq s .vdm (sig s c), withReq s .vdm (sig s c 2), withReq s .vdm (sig s c 4), withReq s .vdm (sig s c 1 6), withReq s .smbus (sig s c 1 5 255)]
def commander : State := { stw with ao := { slotId := 3, rackId := 2 }, ward := { active := true, rackRole := true, rowRole := true, rackClaim := 5, rowClaim := 6 }, bus := { rack := { join := .joined }, row := { join := .joined } } }
def capt : State := M id |>.modPump fun p => { p with st := .run, capture := some { modeBefore := false } }
def dsc (i : Instr) (ops : List Fld) : Bytes := match policyOf i with | some p => packFlds 64 ([(16, 1, p.cls), (17, 1, p.cmd)] ++ ops) | none => []
def descs : List Bytes := [dsc .setHostSilent [(24, 2, 3600)], dsc .storeHold [(24, 1, 1)], dsc .storeHold [(24, 1, 0)], dsc .busOrder [(24, 1, 0), (25, 1, 0), (26, 1, 63)], dsc .busOrder [(24, 1, 0), (25, 1, 1), (26, 1, 255)], dsc .busOrder [(24, 1, 1), (25, 1, 0), (26, 1, 0)], dsc .busOrder [(24, 1, 1), (25, 1, 1), (26, 1, 0)],
  dsc .mgmtNow [], dsc .mainOff [(24, 1, 0)], dsc .mainOff [(24, 1, 1)]]
def given (s : State) : List State := descs.map fun d => s.modMgmt fun m => { m with disp := some (17, d) }
def job (k : Nat) : StoreJob := { kind := k, body := [4, 5] }
def base : List State := [M id, stw, { stw with sup := {} }, { stw with sup := { steward := true } }, commander, { commander with ward := {} }, { commander with ward := {}, bus := {} }, commander.modBuses fun x => { x with rack := { x.rack with asleep := true }, row := { x.row with asleep := true } },
  M fun m => { m with erasing := true }, M fun m => { m with fuses := { m.fuses with lc := .returned } }, M fun m => { m with fuses := { m.fuses with variant := 1, lc := .maker } }, capt, M fun m => { m with slot1 := { verified := true, version := 7, image := (List.range 9).map fun i => ⟨i, 3⟩ }, hold := true }, M fun m => { m with running := 1 },
  (M id).modAo fun a => { a with resetDue := some 3 }, M fun m => { m with fuses := { m.fuses with enrolled := [0] } }]
def others : List State := [M fun m => { m with eidSmbus := 9 }, M fun m => { m with eidSmbus := 9, silent := true }, M fun m => { m with reqs := List.replicate 4 { binding := .smbus, body := [9] } }, M fun m => { m with eidSmbus := 9, reqs := List.replicate 4 { binding := .smbus, body := [9] } }, M fun m => { m with asmSmbus := some (1, [0, 0x80, 1]) },
  M fun m => { m with receiver := some (.smbus, 9), events := [{ sensor := 1, numeric := true, state := 2, prev := 1 }], alertLow := true }, M fun m => { m with receiver := some (.vdm, 9), eventSent := true, eventTries := 2, events := [{ sensor := 101, numeric := false, state := 2, prev := 1 }], alertLow := true },
  M fun m => { m with eventSent := true, eventTries := 3, silent := true, events := [{ sensor := 101, numeric := false, state := 2, prev := 1 }, { sensor := 102, numeric := false, state := 2, prev := 1 }] , eventDrops := 70000 },
  M fun m => { m with jobs := [job 1, job 4] }, M fun m => { m with jobs := [job 1, job 4], hold := true }, M fun m => { m with jobs := [job 1], hold := true }, M fun m => { m with jobs := [job 1], storing := some (job 2) }, M fun m => { m with storing := some { job 2 with retried := true }, seqs := [(2, 2 ^ 32 - 1)] },
  stw.modBeat fun b => { b with groups := [(3, { st := .running })] }]
def extra : List State := [withReq (M fun m => { m with slot1 := { image := (List.range 9).map fun i => ⟨i, 3⟩ } }) .vdm (v 2 (toLe 4 9))]

def pkt (dest fl : Nat) (m : Bytes) : Bytes := [1, BitVec.ofNat 8 dest, 8, BitVec.ofNat 8 fl] ++ m
def states1 : List State := base
def states2 : List State := others
def states3 : List State := (base.flatMap fun s => (reqs ++ vreqs).map fun m => withReq s .smbus m)
def states4 : List State := (base ++ others).flatMap given

/-- The hypotheses of each clause of Obligations.EndpointAnswers are met together. -/
theorem test_witness_EndpointAnswers :
    (∃ (x : Instr × (Bytes → Bool)) (s : State), x ∈ reqCmds ∧ s.stew = true ∧ List.find? (fun r => x.snd r.body) s.mgmt.reqs = none) ∧
    (∃ (x : Instr × (Bytes → Bool)) (s : State) (r : MctpReq), x ∈ reqCmds ∧ Requested x.fst s r ∧ s.mgmt.erasing = true ∧ x.fst ≠ Instr.getNonce) ∧
    (∃ (s : State) (r : MctpReq), Open Instr.getEndpointId s r) ∧
    (∃ (s : State) (r : MctpReq), Open Instr.getEndpointUuid s r) ∧
    (∃ (s : State) (r : MctpReq), Open Instr.getMctpVersionSupport s r) ∧
    (∃ (s : State) (r : MctpReq), Open Instr.getMessageTypeSupport s r) ∧
    (∃ (s : State) (r : MctpReq), Open Instr.unsupportedMctpControl s r) ∧
    (∃ (s : State) (r : MctpReq), Open Instr.getTid s r) ∧
    (∃ (s : State) (r : MctpReq), Open Instr.getPldmVersion s r) ∧
    (∃ (s : State) (r : MctpReq), Open Instr.getPldmTypes s r) ∧
    (∃ (s : State) (r : MctpReq), Open Instr.getPldmCommands s r) ∧
    (∃ (s : State) (r : MctpReq), Open Instr.unsupportedPldm s r) ∧
    (∃ (s : State) (r : MctpReq), Open Instr.getPdrRepositoryInfo s r) ∧
    (∃ (s : State) (r : MctpReq) (h : Nat), Open Instr.getPdr s r ∧ h = max 1 (fld r.body 4 4) ∧ h ≤ pdrCount s) ∧
    (∃ (s : State) (r : MctpReq), Open Instr.getPdr s r ∧ pdrCount s < max 1 (fld r.body 4 4)) ∧
    (∃ (s : State) (r : MctpReq) (id : Nat) (v : Int), Open Instr.getSensorReading s r ∧ id = fld r.body 4 2 ∧ 1 ≤ id ∧ id ≤ 24 ∧ numReading s id = some v) ∧
    (∃ (s : State) (r : MctpReq) (id : Nat), Open Instr.getSensorReading s r ∧ id = fld r.body 4 2 ∧ 1 ≤ id ∧ id ≤ 24 ∧ numReading s id = none) ∧
    (∃ (s : State) (r : MctpReq), Open Instr.getSensorReading s r ∧ (fld r.body 4 2 = 0 ∨ 24 < fld r.body 4 2)) ∧
    (∃ (s : State) (r : MctpReq) (id : Nat) (v : Nat), Open Instr.getStateSensorReadings s r ∧ id = fld r.body 4 2 ∧ v = stateSensor s id) ∧
    (∃ (s : State) (r : MctpReq) (id : Nat) (v : Nat), Open Instr.getNumericEffecterValue s r ∧ id = fld r.body 4 2 ∧ v = numEffecter s id) ∧
    (∃ (s : State) (r : MctpReq) (id : Nat) (v : Nat), Open Instr.getStateEffecterStates s r ∧ id = fld r.body 4 2 ∧ v = stateEffecter s id) :=
  ⟨⟨_, (states1.getD 0 .reset), List.mem_of_getElem? (i := 0) rfl, by decide, by decide⟩,
   ⟨_, (states3.getD 624 .reset), _, List.mem_of_getElem? (i := 0) rfl, ⟨by decide, ⟨_, ⟨List.mem_of_getElem? (i := 0) rfl, rfl⟩⟩⟩, by decide, by decide⟩,
   ⟨(states3.getD 3 .reset), _, ⟨⟨by decide, ⟨_, ⟨List.mem_of_getElem? (i := 1) rfl, rfl⟩⟩⟩, by decide⟩⟩,
   ⟨(states3.getD 4 .reset), _, ⟨⟨by decide, ⟨_, ⟨List.mem_of_getElem? (i := 2) rfl, rfl⟩⟩⟩, by decide⟩⟩,
   ⟨(states3.getD 5 .reset), _, ⟨⟨by decide, ⟨_, ⟨List.mem_of_getElem? (i := 3) rfl, rfl⟩⟩⟩, by decide⟩⟩,
   ⟨(states3.getD 6 .reset), _, ⟨⟨by decide, ⟨_, ⟨List.mem_of_getElem? (i := 4) rfl, rfl⟩⟩⟩, by decide⟩⟩,
   ⟨(states3.getD 7 .reset), _, ⟨⟨by decide, ⟨_, ⟨List.mem_of_getElem? (i := 5) rfl, rfl⟩⟩⟩, by decide⟩⟩,
   ⟨(states3.getD 10 .reset), _, ⟨⟨by decide, ⟨_, ⟨List.mem_of_getElem? (i := 6) rfl, rfl⟩⟩⟩, by decide⟩⟩,
   ⟨(states3.getD 11 .reset), _, ⟨⟨by decide, ⟨_, ⟨List.mem_of_getElem? (i := 8) rfl, rfl⟩⟩⟩, by decide⟩⟩,
   ⟨(states3.getD 13 .reset), _, ⟨⟨by decide, ⟨_, ⟨List.mem_of_getElem? (i := 9) rfl, rfl⟩⟩⟩, by decide⟩⟩,
   ⟨(states3.getD 14 .reset), _, ⟨⟨by decide, ⟨_, ⟨List.mem_of_getElem? (i := 10) rfl, rfl⟩⟩⟩, by decide⟩⟩,
   ⟨(states3.getD 16 .reset), _, ⟨⟨by decide, ⟨_, ⟨List.mem_of_getElem? (i := 11) rfl, rfl⟩⟩⟩, by decide⟩⟩,
   ⟨(states3.getD 21 .reset), _, ⟨⟨by decide, ⟨_, ⟨List.mem_of_getElem? (i := 13) rfl, rfl⟩⟩⟩, by decide⟩⟩,
   ⟨(states3.getD 22 .reset), _, _, ⟨⟨by decide, ⟨_, ⟨List.mem_of_getElem? (i := 14) rfl, rfl⟩⟩⟩, by decide⟩, rfl, by decide⟩,
   ⟨(states3.getD 24 .reset), _, ⟨⟨by decide, ⟨_, ⟨List.mem_of_getElem? (i := 14) rfl, rfl⟩⟩⟩, by decide⟩, by decide⟩,
   ⟨(states3.getD 25 .reset), _, _, _, ⟨⟨by decide, ⟨_, ⟨List.mem_of_getElem? (i := 15) rfl, rfl⟩⟩⟩, by decide⟩, rfl, by decide, by decide, rfl⟩,
   ⟨(states3.getD 26 .reset), _, _, ⟨⟨by decide, ⟨_, ⟨List.mem_of_getElem? (i := 15) rfl, rfl⟩⟩⟩, by decide⟩, rfl, by decide, by decide, by decide⟩,
   ⟨(states3.getD 27 .reset), _, ⟨⟨by decide, ⟨_, ⟨List.mem_of_getElem? (i := 15) rfl, rfl⟩⟩⟩, by decide⟩, by decide⟩,
   ⟨(states3.getD 28 .reset), _, _, _, ⟨⟨by decide, ⟨_, ⟨List.mem_of_getElem? (i := 16) rfl, rfl⟩⟩⟩, by decide⟩, rfl, rfl⟩,
   ⟨(states3.getD 30 .reset), _, _, _, ⟨⟨by decide, ⟨_, ⟨List.mem_of_getElem? (i := 18) rfl, rfl⟩⟩⟩, by decide⟩, rfl, rfl⟩,
   ⟨(states3.getD 32 .reset), _, _, _, ⟨⟨by decide, ⟨_, ⟨List.mem_of_getElem? (i := 20) rfl, rfl⟩⟩⟩, by decide⟩, rfl, rfl⟩⟩

/-- The hypotheses of each clause of Obligations.EndpointSettings are met together. -/
theorem test_witness_EndpointSettings :
    (∃ (s : State) (p : Bytes) (m : Bytes), WholeMessage p m s ∧ TakenAsRequest m s ∧ s.mgmt.reqs.length < 4) ∧
    (∃ (s : State) (p : Bytes) (m : Bytes), WholeMessage p m s ∧ TakenAsRequest m s ∧ 4 ≤ s.mgmt.reqs.length ∧ mType m ≠ 126) ∧
    (∃ (s : State) (p : Bytes) (m : Bytes), WholeMessage p m s ∧ mSupported m = false) ∧
    (∃ (s : State) (p : Bytes), s.stew = true ∧ byteAt p 1 ≠ 0 ∧ byteAt p 1 ≠ s.mgmt.eidSmbus) ∧
    (∃ (s : State) (p : Bytes), s.stew = true ∧ (byteAt p 1 = 0 ∨ byteAt p 1 = s.mgmt.eidSmbus) ∧ bit (byteAt p 3) 7 = true ∧ bit (byteAt p 3) 6 = false ∧ (List.drop 4 p).length ≤ 1024) ∧
    (∃ (s : State) (p : Bytes) (n : Nat) (bs : Bytes), s.stew = true ∧ (byteAt p 1 = 0 ∨ byteAt p 1 = s.mgmt.eidSmbus) ∧ bit (byteAt p 3) 7 = false ∧ s.mgmt.asmSmbus = some (n, bs) ∧ n ≠ bits (byteAt p 3) 5 4) ∧
    (∃ (s : State), s.ao.aux = true ∧ s.sup.steward = false) ∧
    (∃ (s : State) (r : MctpReq) (e : Nat), Open Instr.setEndpointId s r ∧ e = byteAt r.body 4) ∧
    (∃ (s : State) (r : MctpReq) (t : Nat), Open Instr.setTid s r ∧ t = byteAt r.body 4) ∧
    (∃ (s : State) (r : MctpReq), Open Instr.setEventReceiver s r) ∧
    (∃ (s : State) (r : MctpReq) (id : Nat) (v : Nat), Open Instr.setNumericEffecterValue s r ∧ id = fld r.body 4 2 ∧ v = fld r.body 7 (if byteAt r.body 6 < 2 then 1 else if byteAt r.body 6 < 4 then 2 else 4)) ∧
    (∃ (s : State) (r : MctpReq) (id : Nat) (v : Nat), Open Instr.setStateEffecterStates s r ∧ id = fld r.body 4 2 ∧ v = byteAt r.body 8 ∧ byteAt r.body 6 = 1 ∧ byteAt r.body 7 ≠ 0) ∧
    (∃ (s : State) (r : MctpReq), Open Instr.setStateEffecterStates s r ∧ byteAt r.body 6 ≠ 1) ∧
    (∃ (s : State) (r : MctpReq), Open Instr.setStateEffecterStates s r ∧ byteAt r.body 6 = 1 ∧ byteAt r.body 7 = 0) ∧
    (∃ (s : State) (b : Binding) (n : Nat) (e : PldmEvent) (l : List PldmEvent), s.stew = true ∧ s.mgmt.receiver = some (b, n) ∧ s.mgmt.events = e :: l ∧ s.mgmt.eventSent = false) ∧
    (∃ (s : State), s.stew = true ∧ (s.mgmt.receiver = none ∨ s.mgmt.events = [] ∨ s.mgmt.eventSent = true)) ∧
    (∃ (s : State) (e : PldmEvent) (l : List PldmEvent), s.stew = true ∧ s.mgmt.eventSent = true ∧ s.mgmt.events = e :: l) ∧
    (∃ (s : State), s.stew = true ∧ s.mgmt.eventSent = false) ∧
    (∃ (s : State) (b : Binding) (n : Nat) (e : PldmEvent) (l : List PldmEvent), s.stew = true ∧ s.mgmt.eventSent = true ∧ s.mgmt.eventTries < 3 ∧ s.mgmt.receiver = some (b, n) ∧ s.mgmt.events = e :: l) ∧
    (∃ (s : State) (e : PldmEvent) (l : List PldmEvent), s.stew = true ∧ s.mgmt.eventSent = true ∧ 3 ≤ s.mgmt.eventTries ∧ s.mgmt.events = e :: l) ∧
    (∃ (s : State), s.stew = true) :=
  ⟨⟨(states1.getD 0 .reset), pkt 0 0xC0 (ctlM 2), _, ⟨by decide, by decide, by decide, by decide, rfl, by decide⟩, by unfold TakenAsRequest; decide, by decide⟩,
   ⟨(states2.getD 2 .reset), pkt 0 0xC0 (ctlM 2), _, ⟨by decide, by decide, by decide, by decide, rfl, by decide⟩, by unfold TakenAsRequest; decide, by decide, by decide⟩,
   ⟨(states1.getD 0 .reset), pkt 0 0xC0 [5, 5], _, ⟨by decide, by decide, by decide, by decide, rfl, by decide⟩, by decide⟩,
   ⟨(states1.getD 0 .reset), pkt 9 0xC0 (pl 0 2), by decide, by decide, by decide⟩,
   ⟨(states1.getD 0 .reset), pkt 0 0x80 (ctlM 1), by decide, by decide, by decide, by decide, by decide⟩,
   ⟨(states2.getD 4 .reset), pkt 0 0x60 [9], _, _, by decide, by decide, by decide, rfl, by decide⟩,
   ⟨(states1.getD 2 .reset), by decide, by decide⟩,
   ⟨(states3.getD 0 .reset), _, _, ⟨⟨by decide, ⟨_, ⟨List.mem_of_getElem? (i := 0) rfl, rfl⟩⟩⟩, by decide⟩, rfl⟩,
   ⟨(states3.getD 8 .reset), _, _, ⟨⟨by decide, ⟨_, ⟨List.mem_of_getElem? (i := 7) rfl, rfl⟩⟩⟩, by decide⟩, rfl⟩,
   ⟨(states3.getD 18 .reset), _, ⟨⟨by decide, ⟨_, ⟨List.mem_of_getElem? (i := 12) rfl, rfl⟩⟩⟩, by decide⟩⟩,
   ⟨(states3.getD 34 .reset), _, _, _, ⟨⟨by decide, ⟨_, ⟨List.mem_of_getElem? (i := 17) rfl, rfl⟩⟩⟩, by decide⟩, rfl, rfl⟩,
   ⟨(states3.getD 46 .reset), _, _, _, ⟨⟨by decide, ⟨_, ⟨List.mem_of_getElem? (i := 19) rfl, rfl⟩⟩⟩, by decide⟩, rfl, rfl, by decide, by decide⟩,
   ⟨(states3.getD 64 .reset), _, ⟨⟨by decide, ⟨_, ⟨List.mem_of_getElem? (i := 19) rfl, rfl⟩⟩⟩, by decide⟩, by decide⟩,
   ⟨(states3.getD 65 .reset), _, ⟨⟨by decide, ⟨_, ⟨List.mem_of_getElem? (i := 19) rfl, rfl⟩⟩⟩, by decide⟩, by decide, by decide⟩,
   ⟨(states2.getD 5 .reset), _, _, _, _, by decide, rfl, rfl, by decide⟩,
   ⟨(states1.getD 0 .reset), by decide, by decide⟩,
   ⟨(states2.getD 6 .reset), _, _, by decide, by decide, rfl⟩,
   ⟨(states1.getD 0 .reset), by decide, by decide⟩,
   ⟨(states2.getD 6 .reset), _, _, _, _, by decide, by decide, by decide, rfl, rfl⟩,
   ⟨(states2.getD 7 .reset), _, _, by decide, by decide, by decide, rfl⟩,
   ⟨(states1.getD 0 .reset), by decide⟩⟩

/-- The hypotheses of each clause of Obligations.VendorCommands are met together. -/
theorem test_witness_VendorCommands :
    (∃ (x : Instr) (s : State) (r : MctpReq), x ∈ [Instr.fwWrite, Instr.fwVerify, Instr.fwActivate] ∧ Open x s r ∧ inUse s = false) ∧
    (∃ (s : State) (r : MctpReq) (off : Nat) (data : List Byte), Open Instr.fwWrite s r ∧ inUse s = true ∧ off = fld (venData r) 4 4 ∧ data = List.drop 8 (venData r) ∧ (data = [] ∨ 1008 < data.length ∨ 2 ^ 24 < off + data.length)) ∧
    (∃ (s : State) (r : MctpReq) (off : Nat) (data : List Byte) (img : Mem), Open Instr.fwWrite s r ∧ inUse s = true ∧ off = fld (venData r) 4 4 ∧ data = List.drop 8 (venData r) ∧ data ≠ [] ∧ data.length ≤ 1008 ∧ off + data.length ≤ 2 ^ 24 ∧ img = mwrN (if off = 0 then [] else (inactiveSlot s).image) off data) ∧
    (∃ (s : State) (r : MctpReq) (n : Nat), Open Instr.fwVerify s r ∧ inUse s = true ∧ n = fld (venData r) 4 4 ∧ (n = 0 ∨ 2 ^ 24 < n)) ∧
    (∃ (s : State) (r : MctpReq) (n : Nat) (ok : Bool), Open Instr.fwVerify s r ∧ inUse s = true ∧ n = fld (venData r) 4 4 ∧ n ≠ 0 ∧ n ≤ 2 ^ 24 ∧ ok = (Config.imageGood (inactiveSlot s).image && decide (Config.imageLength (inactiveSlot s).image = n))) ∧
    (∃ (s : State) (r : MctpReq), Open Instr.fwActivate s r ∧ inUse s = true ∧ (inactiveSlot s).verified = false) ∧
    (∃ (s : State) (r : MctpReq), Open Instr.fwActivate s r ∧ inUse s = true ∧ (inactiveSlot s).verified = true ∧ s.ao.resetDue = none) ∧
    (∃ (s : State) (r : MctpReq), Requested Instr.getNonce s r) ∧
    (∃ (s : State), s.stew = true) ∧
    (∃ (s : State) (r : MctpReq) (st : Nat), Open Instr.ownerEnrol s r ∧ st = if s.mgmt.fuses.lc ≠ LifeCycle.field then 7 else if List.length (venData r) ≠ 101 then 6 else if s.mgmt.fuses.returns ∈ s.mgmt.fuses.enrolled then 1 else 0) ∧
    (∃ (x : Instr × (LifeCycle → Option Bool) × (Bytes → State → Nat)) (s : State) (r : MctpReq) (st : Nat), x ∈ signedCmds ∧ Open x.fst s r ∧ SignedStatus x.snd.fst x.snd.snd (venData r) s st ∧ st ≠ 0) :=
  ⟨⟨_, (states3.getD 768 .reset), _, List.mem_of_getElem? (i := 0) rfl, ⟨⟨by decide, ⟨_, ⟨List.mem_of_getElem? (i := 21) rfl, rfl⟩⟩⟩, by decide⟩, by decide⟩,
   ⟨(states3.getD 66 .reset), _, _, _, ⟨⟨by decide, ⟨_, ⟨List.mem_of_getElem? (i := 21) rfl, rfl⟩⟩⟩, by decide⟩, by decide, rfl, rfl, by decide⟩,
   ⟨(states3.getD 67 .reset), _, _, _, _, ⟨⟨by decide, ⟨_, ⟨List.mem_of_getElem? (i := 21) rfl, rfl⟩⟩⟩, by decide⟩, by decide, rfl, rfl, by decide, by decide, by decide, rfl⟩,
   ⟨(states3.getD 70 .reset), _, _, ⟨⟨by decide, ⟨_, ⟨List.mem_of_getElem? (i := 22) rfl, rfl⟩⟩⟩, by decide⟩, by decide, rfl, by decide⟩,
   ⟨(states3.getD 71 .reset), _, _, _, ⟨⟨by decide, ⟨_, ⟨List.mem_of_getElem? (i := 22) rfl, rfl⟩⟩⟩, by decide⟩, by decide, rfl, by decide, by decide, rfl⟩,
   ⟨(states3.getD 73 .reset), _, ⟨⟨by decide, ⟨_, ⟨List.mem_of_getElem? (i := 23) rfl, rfl⟩⟩⟩, by decide⟩, by decide, by decide⟩,
   ⟨(states3.getD 1009 .reset), _, ⟨⟨by decide, ⟨_, ⟨List.mem_of_getElem? (i := 23) rfl, rfl⟩⟩⟩, by decide⟩, by decide, by decide, by decide⟩,
   ⟨(states3.getD 74 .reset), _, ⟨by decide, ⟨_, ⟨List.mem_of_getElem? (i := 24) rfl, rfl⟩⟩⟩⟩,
   ⟨(states1.getD 0 .reset), by decide⟩,
   ⟨(states3.getD 75 .reset), _, _, ⟨⟨by decide, ⟨_, ⟨List.mem_of_getElem? (i := 25) rfl, rfl⟩⟩⟩, by decide⟩, rfl⟩,
   ⟨_, blankReq, _, 7, List.mem_of_getElem? (i := 0) rfl, ⟨⟨by decide, ⟨_, ⟨List.mem_of_getElem? (i := 26) rfl, rfl⟩⟩⟩, by decide⟩, rfl, by decide⟩⟩

/-- The hypotheses of each clause of Obligations.StoreAndSilence are met together. -/
theorem test_witness_StoreAndSilence :
    (∃ (s : State), s.stew = true ∧ s.mgmt.silent = false) ∧
    (∃ (s : State), s.stew = true ∧ s.mgmt.silent = true) ∧
    (∃ (s : State) (j : StoreJob), s.stew = true ∧ s.mgmt.storing = none ∧ s.ao.resetDue = none ∧ List.find? (fun j => !s.mgmt.hold || j.kind == 4) s.mgmt.jobs = some j) ∧
    (∃ (s : State), s.stew = true ∧ (s.mgmt.storing ≠ none ∨ s.ao.resetDue ≠ none ∨ ∀ (j : StoreJob), j ∈ s.mgmt.jobs → s.mgmt.hold = true ∧ j.kind ≠ 4)) ∧
    (∃ (s : State) (j : StoreJob), s.stew = true ∧ s.mgmt.storing = some j) ∧
    (∃ (s : State) (j : StoreJob), s.stew = true ∧ s.mgmt.storing = some j ∧ j.retried = false) ∧
    (∃ (s : State) (j : StoreJob), s.stew = true ∧ s.mgmt.storing = some j ∧ j.retried = true) ∧
    (∃ (s : State), s.stew = true ∧ s.mgmt.storing = none) ∧
    (∃ (s : State), s.stew = true ∧ s.adit.a6.length ≤ 200) ∧
    (∃ (s : State) (tag : BitVec 16) (d : Bytes), Asked Instr.setHostSilent s tag d) ∧
    (∃ (s : State) (tag : BitVec 16) (d : Bytes), Asked Instr.storeHold s tag d) ∧
    (∃ (s : State) (tag : BitVec 16) (d : Bytes) (b : Nat), Asked Instr.busOrder s tag d ∧ b = byteAt d 25 ∧ byteAt d 24 = 0 ∧ activeIn s b = true ∧ fromCommand s b (nodeId s b) = true ∧ MaySend s b) ∧
    (∃ (s : State) (tag : BitVec 16) (d : Bytes) (b : Nat), Asked Instr.busOrder s tag d ∧ b = byteAt d 25 ∧ byteAt d 24 = 1 ∧ (s.onBus b).join = JoinSt.joined ∧ (s.onBus b).asleep = true) ∧
    (∃ (s : State) (tag : BitVec 16) (d : Bytes) (b : Nat), Asked Instr.busOrder s tag d ∧ b = byteAt d 25 ∧ (byteAt d 24 = 0 ∧ (activeIn s b = false ∨ fromCommand s b (nodeId s b) = false) ∨ byteAt d 24 = 1 ∧ (s.onBus b).join ≠ JoinSt.joined)) ∧
    (∃ (s : State) (tag : BitVec 16) (d : Bytes), Asked Instr.mgmtNow s tag d) ∧
    (∃ (s : State) (tag : BitVec 16) (d : Bytes), Asked Instr.mainOff s tag d ∧ s.sup.mainEn = false) ∧
    (∃ (s : State) (tag : BitVec 16) (d : Bytes), Asked Instr.mainOff s tag d ∧ s.sup.mainEn = true ∧ byteAt d 24 = 0 ∧ offBarred s = true) ∧
    (∃ (s : State) (tag : BitVec 16) (d : Bytes), Asked Instr.mainOff s tag d ∧ s.sup.mainEn = true ∧ (byteAt d 24 = 1 ∨ offBarred s = false)) :=
  ⟨⟨(states1.getD 0 .reset), by decide, by decide⟩,
   ⟨(states2.getD 1 .reset), by decide, by decide⟩,
   ⟨(states2.getD 8 .reset), _, by decide, by decide, by decide, rfl⟩,
   ⟨(states1.getD 0 .reset), by decide, by decide⟩,
   ⟨(states2.getD 11 .reset), _, by decide, rfl⟩,
   ⟨(states2.getD 11 .reset), _, by decide, rfl, by decide⟩,
   ⟨(states2.getD 12 .reset), _, by decide, rfl, by decide⟩,
   ⟨(states1.getD 0 .reset), by decide, by decide⟩,
   ⟨(states1.getD 0 .reset), by decide, by decide⟩,
   ⟨(states4.getD 0 .reset), _, _, ⟨_, ⟨⟨by decide, rfl, rfl, by decide, by decide⟩, by decide, by decide⟩⟩⟩,
   ⟨(states4.getD 1 .reset), _, _, ⟨_, ⟨⟨by decide, rfl, rfl, by decide, by decide⟩, by decide, by decide⟩⟩⟩,
   ⟨(states4.getD 43 .reset), _, _, _, ⟨_, ⟨⟨by decide, rfl, rfl, by decide, by decide⟩, by decide, by decide⟩⟩, rfl, by decide, by decide, by decide, by unfold MaySend; decide⟩,
   ⟨(states4.getD 75 .reset), _, _, _, ⟨_, ⟨⟨by decide, rfl, rfl, by decide, by decide⟩, by decide, by decide⟩⟩, rfl, by decide, by decide, by decide⟩,
   ⟨(states4.getD 3 .reset), _, _, _, ⟨_, ⟨⟨by decide, rfl, rfl, by decide, by decide⟩, by decide, by decide⟩⟩, rfl, by decide⟩,
   ⟨(states4.getD 7 .reset), _, _, ⟨_, ⟨⟨by decide, rfl, rfl, by decide, by decide⟩, by decide, by decide⟩⟩⟩,
   ⟨(states4.getD 38 .reset), _, _, ⟨_, ⟨⟨by decide, rfl, rfl, by decide, by decide⟩, by decide, by decide⟩⟩, by decide⟩,
   ⟨(states4.getD 298 .reset), _, _, ⟨_, ⟨⟨by decide, rfl, rfl, by decide, by decide⟩, by decide, by decide⟩⟩, by decide, by decide, by decide⟩,
   ⟨(states4.getD 8 .reset), _, _, ⟨_, ⟨⟨by decide, rfl, rfl, by decide, by decide⟩, by decide, by decide⟩⟩, by decide, by decide⟩⟩

/-! Accepted signed requests: the request is accepted as soon as its signature verifies, which is uninterpreted (log entry 31). -/

/-- The payload of a signed request of serial number 0: life cycle, returns, nonce 5, target; the key of 97 zero bytes and a signature of zeros. -/
def signedBody (cmd lc returns target : Nat) : Bytes := ven cmd ((packFlds 256 [(12, 1, lc), (13, 1, returns), (16, 16, 5), (44, 1, target)]).drop 3)
def zeroKey : BitVec 384 := Config.sha384 (List.replicate 97 0)
/-- A module without MAIN power whose keys are both the zero key, with a signed request. -/
def signing (lc : LifeCycle) (cmd target : Nat) : State :=
  withReq { stw with sup := { steward := true }, mgmt := { fuses := { dsn := 0, lc := lc, makerKey := zeroKey, owners := [(0, zeroKey)], enrolled := [0] }, nonce := some 5 } } .vdm (signedBody cmd lc.code 0 target)
def signedReq (lc : LifeCycle) (cmd target : Nat) : MctpReq := { binding := .vdm, body := signedBody cmd lc.code 0 target }
/-- The signature of such a request verifies. -/
def Verified (lc : LifeCycle) (cmd target : Nat) : Prop :=
  Config.p384Verify (List.replicate 97 0) (Config.sha384 ((venData (signedReq lc cmd target)).take 160)) (((venData (signedReq lc cmd target)).drop 160).take 96) = true

theorem checked {lc : LifeCycle} {cmd target : Nat} {maker : Bool} (hv : Verified lc cmd target)
    (hk : ((venData (signedReq lc cmd target)).drop 63).take 97 = List.replicate 97 0)
    (hi : fld (venData (signedReq lc cmd target)) 4 8 = 0 ∧ byteAt (venData (signedReq lc cmd target)) 12 = lc.code ∧ byteAt (venData (signedReq lc cmd target)) 13 = 0)
    (hn : toLe 16 5 = ((venData (signedReq lc cmd target)).drop 16).take 16) :
    signedCheck maker (venData (signedReq lc cmd target)) (signing lc cmd target) = 0 := by
  obtain ⟨h1, h2, h3⟩ := hi
  unfold Verified at hv
  have e1 : (signing lc cmd target).mgmt.fuses = { dsn := 0, lc := lc, makerKey := zeroKey, owners := [(0, zeroKey)], enrolled := [0] } := rfl
  have e2 : (signing lc cmd target).mgmt.nonce = some 5 := rfl
  have e3 : (toLe 16 (5 : BitVec 128).toNat == ((venData (signedReq lc cmd target)).drop 16).take 16) = true := by rw [← hn]; rfl
  unfold signedCheck
  simp only [hk, h1, h2, h3, e1, e2, hv, e3, Option.any_some]
  cases maker <;> simp [zeroKey, tget]

theorem accepted {i : Instr} {permit : LifeCycle → Option Bool} {cond : Bytes → State → Nat} {maker : Bool} {s : State} {r : MctpReq} (ho : Open i s r)
    (hm : (i, permit, cond) ∈ signedCmds) (hp : permit s.mgmt.fuses.lc = some maker) (hl : (venData r).length = 256)
    (hc : signedCheck maker (venData r) s = 0) (hd : cond (venData r) s = 0) : Signed i s r := by
  refine ⟨ho, permit, cond, hm, ?_⟩
  unfold SignedStatus
  rw [hp]
  simp [hl, hc, hd]

/-- The hypotheses of the clauses of Obligations.VendorCommands about accepted requests are met together. -/
theorem test_witness_AcceptedRequests :
    (Verified .field 0x12 0 → ∃ s r, Signed .returnRequest s r) ∧
    (Verified .field 0x13 0 → ∃ s r, Signed .retireRequest s r ∧ s.ao.resetDue = none) ∧
    (Verified .returned 0x14 0 → ∃ s r, Signed .debugUnlock s r) ∧
    (Verified .maker 0x15 2 → ∃ s r, Signed .makerTransition s r ∧ s.ao.resetDue = none) :=
  ⟨fun hv => ⟨signing .field 0x12 0, signedReq .field 0x12 0, accepted ⟨⟨by decide, _, List.mem_of_getElem? (i := 26) rfl, rfl⟩, by decide⟩ (List.mem_of_getElem? (i := 0) rfl) rfl (by decide +kernel) (checked hv (by decide +kernel) (by decide +kernel) (by decide +kernel)) (by decide +kernel)⟩,
   fun hv => ⟨signing .field 0x13 0, signedReq .field 0x13 0, accepted ⟨⟨by decide, _, List.mem_of_getElem? (i := 27) rfl, rfl⟩, by decide⟩ (List.mem_of_getElem? (i := 1) rfl) rfl (by decide +kernel) (checked hv (by decide +kernel) (by decide +kernel) (by decide +kernel)) (by decide +kernel), by decide⟩,
   fun hv => ⟨signing .returned 0x14 0, signedReq .returned 0x14 0, accepted ⟨⟨by decide, _, List.mem_of_getElem? (i := 28) rfl, rfl⟩, by decide⟩ (List.mem_of_getElem? (i := 2) rfl) rfl (by decide +kernel) (checked hv (by decide +kernel) (by decide +kernel) (by decide +kernel)) (by decide +kernel)⟩,
   fun hv => ⟨signing .maker 0x15 2, signedReq .maker 0x15 2, accepted ⟨⟨by decide, _, List.mem_of_getElem? (i := 29) rfl, rfl⟩, by decide⟩ (List.mem_of_getElem? (i := 3) rfl) rfl (by decide +kernel) (checked hv (by decide +kernel) (by decide +kernel) (by decide +kernel)) (by decide +kernel), by decide⟩⟩

end Mgmt

namespace General



/-- The hypotheses of each clause of Obligations.StepRunsTheCommand are met together. -/
theorem test_witness_StepRunsTheCommand :
    (∃ (c : Instr) (r : List Instr) (s : State), s.pending = c :: r) ∧
    (∃ (s : State), s.pending = []) :=
  ⟨⟨_, _, { State.reset with pending := [.auxBrownOut, .dieTrip] }, rfl⟩,
   ⟨State.reset, by decide⟩⟩

/-- The hypotheses of each clause of Obligations.ResetState are met together. -/
theorem test_witness_ResetState :
    ∃ (c : Nat), 0 < c :=
  ⟨1, by decide⟩

/-- The hypotheses of each clause of Obligations.WhatFollowsStaysInside are met together. -/
theorem test_witness_WhatFollowsStaysInside :
    ∃ (s : State), Memory.wf s.mem.mem = true :=
  ⟨State.reset, by decide⟩

/-- The hypotheses of each clause of Obligations.MemoryStaysCanonical are met together. -/
theorem test_witness_MemoryStaysCanonical :
    (∃ (s : State) (t : State), Memory.wf s.mem.mem = true ∧ step s = Host.Outcome.next t) ∧
    (∃ (c : Instr) (s : State) (t : State), Memory.wf s.mem.mem = true ∧ exec c s = Host.Outcome.next t) ∧
    (∃ (m : Mem), Memory.wf m = true) ∧
    (∃ (a : Nat) (b : Nat), b ≠ a) ∧
    (∃ (m : Mem) (n : Mem), Memory.wf m = true ∧ Memory.wf n = true ∧ (∀ (a : Nat), mrd m a = mrd n a)) :=
  ⟨⟨State.reset, _, by decide, rfl⟩,
   ⟨.setCap, State.reset, State.reset, by decide, rfl⟩,
   ⟨default, by decide⟩,
   ⟨0, 1, by decide⟩,
   ⟨default, default, by decide, by decide, fun _ => rfl⟩⟩

/-- The hypotheses of each clause of Obligations.ConfigurationAndIsolation are met together. -/
theorem test_witness_ConfigurationAndIsolation :
    (∃ (c : Instr) (s : State) (t : State), setsConfig c = false ∧ exec c s = Host.Outcome.next t) ∧
    (∃ (c : Instr) (s : State) (t : State), couples c = false ∧ exec c s = Host.Outcome.next t) :=
  ⟨⟨.setCap, State.reset, State.reset, by decide, rfl⟩,
   ⟨.setCap, State.reset, State.reset, by decide, rfl⟩⟩

end General

end Sys2Proof.Tests
end

section
/-! PROOFS. What records, the forecast and MAIN's fall leave of the queues to the other planes, what a kill and a release do, and O31. -/

namespace Sys2Proof.Machine

/-! ### Operations that leave the queues to the other planes and the leak verdict alone -/

/-- From s to t the queues towards the control plane and the links, and the leak verdict, stay as they are. -/
structure Steady (s t : State) : Prop where
  a3up : t.adit.a3up = s.adit.a3up
  a5out : t.adit.a5out = s.adit.a5out
  leak : t.pump.leak = s.pump.leak

theorem Steady.rfl {s : State} : Steady s s := ⟨Eq.refl _, Eq.refl _, Eq.refl _⟩

theorem Steady.after {s t u : State} (k : Steady t u) (h : Steady s t) : Steady s u :=
  ⟨k.a3up.trans h.a3up, k.a5out.trans h.a5out, k.leak.trans h.leak⟩

theorem Steady.ofOnly {W : List Blk} {s t : State} (h : Only W s t) (ha : W.contains .adit = false) (hp : W.contains .pump = false) : Steady s t := by
  have adit : t.adit = s.adit := h .adit ha
  have pump : t.pump = s.pump := h .pump hp
  exact ⟨by rw [adit], by rw [adit], by rw [pump]⟩

theorem Steady.ite {s a b : State} {c : Prop} [Decidable c] (ha : Steady s a) (hb : Steady s b) : Steady s (if c then a else b) := by
  split
  · exact ha
  · exact hb

theorem Steady.foldl {α : Type} {s : State} {g : State → α → State} {l : List α} (k : ∀ t x, Steady t (g t x)) : Steady s (l.foldl g s) := by
  induction l generalizing s with
  | nil => exact Steady.rfl
  | cons a r ih => exact ih.after (k s a)

theorem a6Push_steady {it : A6Item} {s : State} : Steady s (a6Push it s) := by
  unfold a6Push
  refine ⟨?_, ?_, Eq.refl _⟩ <;> simp only [State.modAdit_adit] <;> split <;> rfl

theorem a6Rec_steady {kind : Nat} {body : List Fld} {s : State} {tel : Bool} {cage : Nat} : Steady s (a6Rec kind body s tel cage) := a6Push_steady

theorem zoneClear_steady {z : Nat} {s : State} : Steady s (zoneClear z s) :=
  a6Rec_steady.after ((Steady.ite Steady.rfl (Steady.ofOnly (State.modPower_only (W := [.power]) rfl) rfl rfl)).after
    (Steady.ofOnly (modZone_only (W := [.heat]) rfl) rfl rfl))

theorem stackZonesOff_steady {s : State} : Steady s (stackZonesOff s) := Steady.foldl fun _ _ => Steady.ite zoneClear_steady Steady.rfl

theorem modPump_steady {s : State} {f : Pump → Pump} (h : (f s.pump).leak = s.pump.leak) : Steady s (s.modPump f) := ⟨rfl, rfl, h⟩

theorem ratioStep_steady {s : State} : Steady s (ratioStep s) := by
  unfold ratioStep
  refine Steady.ite Steady.rfl ?_
  split
  · exact Steady.rfl
  · exact Steady.ite (modPump_steady rfl) (Steady.ite Steady.rfl (modPump_steady rfl))

theorem coolantControl_steady {s : State} : Steady s (coolantControl s) := ratioStep_steady.after (modPump_steady rfl)

theorem releaseOffer_steady {j : Nat} {s : State} : Steady s (releaseOffer j s) := by
  unfold releaseOffer
  split
  · exact Steady.rfl
  · next g _ =>
    have sent (t : State) : Steady t (a3Down (.release j) (t.modMg j fun g => { g with st := .released })) := ⟨rfl, rfl, rfl⟩
    exact (sent _).after (Steady.ite a6Rec_steady Steady.rfl)

theorem nowReady_steady {j : Nat} {late : Bool} {s : State} : Steady s (nowReady j late s) := by
  unfold nowReady
  have marked : Steady s (s.modMg j fun g => { g with st := .ready, timedOut := late }) := ⟨rfl, rfl, rfl⟩
  refine Steady.after ?_ marked
  dsimp only
  split
  · exact Steady.rfl
  · exact Steady.ite releaseOffer_steady Steady.rfl

theorem evalOffers_steady {s : State} : Steady s (evalOffers s) := by
  refine Steady.foldl fun t e => ?_
  split
  · exact Steady.ite nowReady_steady Steady.rfl
  · exact Steady.rfl

theorem deliverForecast_steady {s : State} : Steady s (deliverForecast s) :=
  evalOffers_steady.after (coolantControl_steady.after (Steady.ofOnly (State.modHeat_only (W := [.heat]) rfl) rfl rfl))

theorem dropMg_steady {j : Nat} {s : State} : Steady s (dropMg j s) := by
  unfold dropMg
  split
  · exact Steady.rfl
  · next g _ =>
    have gone (t : State) : Steady t (setMg j none t) := Steady.ofOnly (setMg_only (W := [.heat]) rfl) rfl rfl
    have left (t : State) : Steady t (lockEvent 2 g.lock g.f t.mgmt.fuses.dsn (sendLock 0x42 g.lock g.f 0 t)) :=
      a6Rec_steady.after (Steady.ofOnly (sendLock_only (W := [.power]) rfl) rfl rfl)
    exact (Steady.ite (left _) Steady.rfl).after ((gone _).after (Steady.ite a6Rec_steady Steady.rfl))

theorem endManifests_steady {s : State} : Steady s (endManifests s) := deliverForecast_steady.after (Steady.foldl fun _ _ => dropMg_steady)

theorem mainGone_steady {s : State} : Steady s (mainGone s) :=
  stackZonesOff_steady.after (endManifests_steady.after (Steady.ofOnly (State.modPower_only (W := [.power]) rfl) rfl rfl))

theorem noteReset_steady {t : Nat} {s : State} : Steady s (noteReset t s) :=
  a6Rec_steady.after (Steady.ofOnly (keepCause_only (W := [.ao]) rfl) rfl rfl)

theorem queueMsg_steady {b msg : Nat} {dest : Option Nat} {retried : Bool} {body : Bytes} {s : State} : Steady s (queueMsg b msg dest retried body s) :=
  Steady.ofOnly (queueMsg_only (W := [.bus]) rfl) rfl rfl

theorem wakeBus_steady {b event : Nat} {s : State} : Steady s (wakeBus b event s) := by
  have set (t : State) (f : Bus → Bus) : Steady t (t.modBus b f) := Steady.ofOnly (State.modBus_only (W := [.bus]) rfl) rfl rfl
  exact Steady.ite Steady.rfl ((Steady.ite (queueMsg_steady.after (set _ _)) Steady.rfl).after (a6Rec_steady.after (set _ _)))

theorem tripNotice_steady {cause temp : Nat} {on : Bool} {s : State} : Steady s (tripNotice cause on temp s) := queueMsg_steady.after wakeBus_steady

theorem setMode_steady {speed : Bool} {s : State} : Steady s (setMode speed s) :=
  Steady.ite (modPump_steady rfl) (Steady.ite Steady.rfl (Steady.ite (modPump_steady rfl) (modPump_steady rfl)))

theorem abortCapture_steady {s : State} : Steady s (abortCapture s) := by
  unfold abortCapture
  split
  · exact Steady.rfl
  · exact setMode_steady.after (a6Rec_steady.after (modPump_steady rfl))

theorem leakRec_steady {source : Nat} {on : Bool} {s : State} : Steady s (leakRec source on s) := a6Rec_steady

theorem queueStore_steady {kind : Nat} {body : List Int} {s : State} : Steady s (queueStore kind body s) :=
  Steady.ofOnly (queueStore_only (W := [.mgmt]) rfl) rfl rfl

theorem leakStop_steady {s : State} : Steady s (leakStop s) :=
  Steady.ite Steady.rfl (a6Rec_steady.after ((modPump_steady rfl).after
    (abortCapture_steady.after (Steady.ofOnly (State.modSup_only (W := [.sup]) rfl) rfl rfl))))

theorem dumpStart_steady {s : State} : Steady s (dumpStart s) :=
  Steady.ite Steady.rfl (a6Rec_steady.after (Steady.ofOnly (State.modSup_only (W := [.sup]) rfl) rfl rfl))

/-! ### Records -/

/-- A full gateway makes room, so a new entry is always in it (R49, R50). -/
theorem mem_a6Push {it : A6Item} {s : State} : it ∈ (a6Push it s).adit.a6 := by
  unfold a6Push
  simp only [State.modAdit_adit]
  split <;> simp

theorem startEvent_recorded {event unmet : Nat} {s : State} : Recorded 0x0510 [(20, 1, event)] (startEvent event unmet s) :=
  ⟨_, _, mem_a6Push, rfl, rfl, by simp [mgmtRec]⟩

/-! ### MAIN goes down (R53, R58, R723) -/

/-- The MAIN domains lose power: what MAIN's fall does apart from the compute-plane reset. -/
def cutPower (s : State) : State :=
  (((s.modSup fun u => { u with mainEn := false, mainIn := false, regs := false, planes := false, modReady := false, offPending := false }).modPower
    fun p => { p with rail := 0 }).modMgmt fun m => { m with trace := [] }).modAo fun a => { a with stackTrip := false }

theorem mainDown_dark {t : Nat} {s : State} (h : (s.sup.mainEn || s.sup.regs) = false) : mainDown (some t) s = cutPower s := by
  simp only [mainDown, h]
  rfl

theorem mainDown_powered {t : Nat} {s : State} (h : (s.sup.mainEn || s.sup.regs) = true) :
    mainDown (some t) s = noteReset t (cutPower (mainGone (wipeMain s))) := by
  simp only [mainDown, h]
  rfl

theorem mainDown_cases (t : Nat) (s : State) :
    mainDown (some t) s = cutPower s ∨ mainDown (some t) s = noteReset t (cutPower (mainGone (wipeMain s))) := by
  cases h : s.sup.mainEn || s.sup.regs with
  | false => exact .inl (mainDown_dark h)
  | true => exact .inr (mainDown_powered h)

theorem cutPower_only (s : State) : Only [.ao, .sup, .mgmt, .power] s (cutPower s) :=
  (State.modAo_only rfl).after ((State.modMgmt_only rfl).after ((State.modPower_only rfl).after (State.modSup_only rfl)))

theorem cutPower_off (s : State) : MainOff (cutPower s) := ⟨rfl, rfl, rfl, rfl, rfl, rfl⟩

theorem cutPower_ao (s : State) : (cutPower s).ao = { s.ao with stackTrip := false } := rfl

theorem cutPower_dump (s : State) : (cutPower s).sup.dump = s.sup.dump := rfl

theorem noteReset_ao (t : Nat) (s : State) : (noteReset t s).ao = { s.ao with cause := { scope := 1, trigger := t, kill := s.ao.causes, rowTime := s.ao.rowTime } } := rfl

/-- A wiped and darkened MAIN leaves the supply and the always-on block to the steps after it. -/
theorem wipeAndGone_only (s : State) : Only [.adit, .host, .rings, .cages, .beat, .mem, .mgmt, .links, .coll, .power, .heat, .pump] s (mainGone (wipeMain s)) :=
  (mainGone_only rfl).after (wipeMain_only rfl)

/-- The blocks of the MAIN planes stand as after a reset: MainWiped but for what the supply says of the planes. -/
structure PlanesEmpty (u : State) : Prop where
  host : u.host = {}
  rings : u.rings = {}
  cages : u.cages = {}
  beat : u.beat = {}
  mem : u.mem = {}
  links : u.links = []
  coll : u.coll = {}
  traceEn : u.mgmt.traceEn = false
  frozen : u.mgmt.frozen = false
  a3up : u.adit.a3up = []
  a5out : u.adit.a5out = []

theorem wipeMain_empty (s : State) : PlanesEmpty (wipeMain s) := ⟨rfl, rfl, rfl, rfl, rfl, rfl, rfl, rfl, rfl, rfl, rfl⟩

theorem PlanesEmpty.keep {s u : State} (e : PlanesEmpty s) (o : Only [.ao, .sup, .adit, .mgmt, .power, .heat, .pump, .bus] s u) (k : Steady s u)
    (traceEn : u.mgmt.traceEn = s.mgmt.traceEn) (frozen : u.mgmt.frozen = s.mgmt.frozen) : PlanesEmpty u where
  host := Eq.trans (o .host rfl) e.host
  rings := Eq.trans (o .rings rfl) e.rings
  cages := Eq.trans (o .cages rfl) e.cages
  beat := Eq.trans (o .beat rfl) e.beat
  mem := Eq.trans (o .mem rfl) e.mem
  links := Eq.trans (o .links rfl) e.links
  coll := Eq.trans (o .coll rfl) e.coll
  traceEn := traceEn.trans e.traceEn
  frozen := frozen.trans e.frozen
  a3up := k.a3up.trans e.a3up
  a5out := k.a5out.trans e.a5out

theorem PlanesEmpty.keepMgmt {s u : State} (e : PlanesEmpty s) (o : Only [.ao, .sup, .adit, .power, .heat, .pump, .bus] s u) (k : Steady s u) : PlanesEmpty u :=
  e.keep (o.mono rfl) k (congrArg Mgmt.traceEn (o .mgmt rfl)) (congrArg Mgmt.frozen (o .mgmt rfl))

theorem PlanesEmpty.mainWiped {u : State} (e : PlanesEmpty u) (planes : u.sup.planes = false) (modReady : u.sup.modReady = false) : MainWiped u :=
  ⟨congrArg HostLink.ready e.host, congrArg HostLink.linkUp e.host, e.rings, e.cages, e.beat, e.mem, e.links, e.coll, e.host, planes, modReady,
    e.traceEn, e.frozen, e.a3up, e.a5out⟩

theorem cutPower_steady (s : State) : Steady s (cutPower s) := .ofOnly (cutPower_only s) rfl rfl

theorem PlanesEmpty.cutPower {s : State} (e : PlanesEmpty s) : PlanesEmpty (cutPower s) :=
  e.keep ((cutPower_only s).mono rfl) (cutPower_steady s) rfl rfl

theorem MainOff.keep {s u : State} (h : MainOff s) (dump : u.sup = { s.sup with dump := u.sup.dump }) (power : u.power = s.power) : MainOff u := by
  unfold MainOff at *
  rw [dump, power]
  exact h

theorem mainDown_off (t : Nat) (s : State) : MainOff (mainDown (some t) s) := by
  obtain h | h := mainDown_cases t s <;> rw [h]
  · exact cutPower_off s
  · have noted := noteReset_only (W := [.ao, .adit]) (a0 := t) (a1 := cutPower (mainGone (wipeMain s))) rfl
    exact (cutPower_off _).keep (noted .sup rfl) (noted .power rfl)

theorem mainDown_dump (t : Nat) (s : State) : (mainDown (some t) s).sup.dump = s.sup.dump := by
  obtain h | h := mainDown_cases t s <;> rw [h]
  · exact cutPower_dump s
  · rw [noteReset_only (W := [.ao, .adit]) rfl .sup rfl, cutPower_dump, wipeAndGone_only s .sup rfl]

/-- Of the always-on block MAIN's fall changes the stack compare and the cause record. -/
theorem mainDown_ao (t : Nat) (s : State) : (mainDown (some t) s).ao = { s.ao with stackTrip := false, cause := (mainDown (some t) s).ao.cause } := by
  obtain h | h := mainDown_cases t s <;> rw [h]
  · exact cutPower_ao s
  · rw [noteReset_ao, cutPower_ao, wipeAndGone_only s .ao rfl]

theorem mainDown_leak (t : Nat) (s : State) : (mainDown (some t) s).pump.leak = s.pump.leak := by
  obtain h | h := mainDown_cases t s <;> rw [h]
  · exact (cutPower_steady s).leak
  · rw [noteReset_steady.leak, (cutPower_steady _).leak, mainGone_steady.leak, wipeMain_only (W := [.adit, .host, .rings, .cages, .beat, .mem, .mgmt, .links, .coll]) rfl .pump rfl]

/-- With MAIN_EN high or the regulators on, MAIN's fall is a compute-plane reset of the trigger given. -/
theorem mainDown_resets {t : Nat} {s : State} (h : s.sup.mainEn = true ∨ s.sup.regs = true) :
    PlanesEmpty (mainDown (some t) s) ∧ (mainDown (some t) s).ao.cause.scope = 1 ∧ (mainDown (some t) s).ao.cause.trigger = t := by
  rw [mainDown_powered (by simpa using h), noteReset_ao]
  have gone : PlanesEmpty (mainGone (wipeMain s)) := (wipeMain_empty s).keepMgmt (mainGone_only rfl) mainGone_steady
  exact ⟨gone.cutPower.keepMgmt (noteReset_only rfl) noteReset_steady, rfl, rfl⟩

/-! ### The kill latch sets (R41 to R44, R740, R745) -/

/-- The causes of a standing kill with one more, numbered as in TRIP_NOTICE (Table BUS-7). -/
def KillCauses.join (k : KillCauses) (cause : Nat) : KillCauses :=
  { die := k.die || cause == 1, stack := k.stack || cause == 2, tape := k.tape || cause == 3, mass := k.mass || cause == 4, ext := k.ext || cause == 5 }

/-- The kills of the last hour once the one of now is counted (R745). -/
def killTimes (s : State) : List Nat := s.now :: s.ao.kills.filter (fun t => decide (s.now - t ≤ 3600 * ticksPerSecond))

/-- The third kill within an hour, with clearing not suspended yet (R745). -/
def thirdKill (s : State) : Bool := decide (3 ≤ (killTimes s).length) && !s.ao.suspended

/-- What the latch itself does when it sets. -/
def setLatch (cause : Nat) (s : State) : State := s.modAo fun a => { a with
  clean := false, released := false, tripDrive := true, causes := a.causes.join cause, latch := true, kills := killTimes s, suspended := a.suspended || thirdKill s }

/-- What a kill reports once MAIN is down (R43, R745). -/
def killNotices (cause temp : Nat) (third : Bool) (s : State) : State :=
  let s := if third then startEvent 10 0 s else s
  if s.stew then tripNotice cause true temp s else s

/-- What a kill asks of the pump: a leak stops it, and otherwise a fall of MAIN_EN starts a heat dump (R739, R740). -/
def killPump (cause : Nat) (was : Bool) (s : State) : State := if cause == 3 || cause == 4 then leakStop s else if was then dumpStart s else s

theorem kill_latched {cause : Nat} {s : State} (h : s.ao.latch = true) (dry : (cause == 3 || cause == 4) = false) :
    kill cause s = s.modAo fun a => { a with clean := false, released := false, tripDrive := true, causes := a.causes.join cause } := by
  simp only [kill, State.modAo_ao, h, dry]
  rfl

/-- The state in which a kill that finds the latch clear has taken MAIN down. -/
def killDown (cause : Nat) (s : State) : State := mainDown (some 14) (fabricAlert 2 (setLatch cause s))

theorem kill_clear {s : State} (cause : Nat) (h : s.ao.latch = false) :
    ∃ temp, kill cause s = killPump cause s.sup.mainEn (killNotices cause temp (thirdKill s) (killDown cause s)) := by
  refine ⟨tripTemp cause (s.modAo fun a => { a with clean := false, released := false, tripDrive := true, causes := a.causes.join cause }), ?_⟩
  simp only [kill, State.modAo_ao, h]
  rfl

theorem killNotices_only {cause temp : Nat} {third : Bool} {s : State} : Only [.adit, .bus] s (killNotices cause temp third s) :=
  Only.after (Only.ite (fun _ => tripNotice_only rfl) fun _ => Only.rfl) (Only.ite (fun _ => startEvent_only rfl) fun _ => Only.rfl)

theorem killNotices_steady {cause temp : Nat} {third : Bool} {s : State} : Steady s (killNotices cause temp third s) :=
  (Steady.ite tripNotice_steady Steady.rfl).after (Steady.ite a6Rec_steady Steady.rfl)

theorem killPump_only {cause : Nat} {was : Bool} {s : State} : Only [.sup, .adit, .pump] s (killPump cause was s) :=
  Only.ite (fun _ => leakStop_only rfl) fun _ => Only.ite (fun _ => dumpStart_only rfl) fun _ => Only.rfl

theorem killPump_steady {cause : Nat} {was : Bool} {s : State} : Steady s (killPump cause was s) :=
  Steady.ite leakStop_steady (Steady.ite dumpStart_steady Steady.rfl)

theorem leakStop_sup (s : State) : (leakStop s).sup = { s.sup with dump := .leak } := by
  unfold leakStop
  split
  · next h => rw [← (beq_iff_eq.mp h : s.sup.dump = .leak)]
  · exact abortCapture_only (W := [.adit, .pump]) rfl .sup rfl

theorem leakStop_pump {s : State} (h : s.sup.dump ≠ .leak) : (leakStop s).pump.st = .stopped ∧ (leakStop s).pump.duty = 0 := by
  unfold leakStop
  rw [if_neg (by simpa using h)]
  exact ⟨rfl, rfl⟩

/-- Of the supply a kill's call on the pump changes the heat dump alone. -/
theorem killPump_sup (cause : Nat) (was : Bool) (s : State) : (killPump cause was s).sup = { s.sup with dump := (killPump cause was s).sup.dump } := by
  unfold killPump
  split
  · rw [leakStop_sup]
  · unfold dumpStart
    split
    · split <;> rfl
    · rfl

/-- From MAIN's fall on, a kill changes of the supply the heat dump alone, and leaves the queues, the leak verdict and the other parts as they are. -/
theorem kill_afterDown {s : State} (cause : Nat) (h : s.ao.latch = false) :
    Only [.sup, .adit, .pump, .bus] (killDown cause s) (kill cause s) ∧ Steady (killDown cause s) (kill cause s) ∧
      (kill cause s).sup = { (killDown cause s).sup with dump := (kill cause s).sup.dump } := by
  obtain ⟨temp, e⟩ := kill_clear cause h
  rw [e]
  refine ⟨(killPump_only.mono rfl).after (killNotices_only.mono rfl), killPump_steady.after killNotices_steady, ?_⟩
  rw [← (killNotices_only .sup rfl : (killNotices cause temp (thirdKill s) (killDown cause s)).sup = (killDown cause s).sup)]
  exact killPump_sup ..

theorem setLatch_only (cause : Nat) (s : State) : Only [.ao, .adit] s (fabricAlert 2 (setLatch cause s)) := (fabricAlert_only rfl).after (State.modAo_only rfl)

theorem killDown_ao (cause : Nat) (s : State) : (killDown cause s).ao = { (setLatch cause s).ao with stackTrip := false, cause := (killDown cause s).ao.cause } := by
  have alerted : (fabricAlert 2 (setLatch cause s)).ao = (setLatch cause s).ao := fabricAlert_only (W := [.adit]) rfl .ao rfl
  rw [← alerted]
  exact mainDown_ao ..

/-- Of the always-on block a kill changes what the latch sets, the stack compare and the cause record. -/
theorem kill_ao {s : State} (cause : Nat) (h : s.ao.latch = false) :
    (kill cause s).ao = { (setLatch cause s).ao with stackTrip := false, cause := (kill cause s).ao.cause } := by
  obtain ⟨only, _, _⟩ := kill_afterDown cause h
  have rest : (kill cause s).ao = (killDown cause s).ao := only .ao rfl
  rw [rest]
  exact killDown_ao cause s

theorem kill_leak {s : State} (cause : Nat) (h : s.ao.latch = false) : (kill cause s).pump.leak = s.pump.leak := by
  obtain ⟨_, steady, _⟩ := kill_afterDown cause h
  rw [steady.leak, killDown, mainDown_leak, setLatch_only cause s .pump rfl]

theorem kill_causes {s : State} (cause : Nat) (h : s.ao.latch = false) : (kill cause s).ao.causes = s.ao.causes.join cause := by rw [kill_ao cause h]; rfl

/-- A kill that finds the latch clear sets it and takes MAIN down, with a compute-plane reset of trigger 14 where MAIN was up (R41 to R44, R740). -/
theorem kill_killed {s : State} (cause : Nat) (h : s.ao.latch = false) : Killed s (kill cause s) := by
  obtain ⟨only, steady, sup⟩ := kill_afterDown cause h
  have ao : (kill cause s).ao = (killDown cause s).ao := only .ao rfl
  have off : MainOff (kill cause s) := (mainDown_off 14 _).keep sup (only .power rfl)
  have suspended : 3 ≤ (kill cause s).ao.kills.length → (kill cause s).ao.suspended = true := by
    rw [kill_ao cause h]
    intro three
    have third : thirdKill s = !s.ao.suspended := by simp [thirdKill, show 3 ≤ (killTimes s).length from three]
    simp [setLatch, third]
  have reset : s.sup.mainEn = true ∨ s.sup.regs = true → MainWiped (kill cause s) ∧ (kill cause s).ao.cause.scope = 1 ∧ (kill cause s).ao.cause.trigger = 14 := by
    intro on
    have sup : (fabricAlert 2 (setLatch cause s)).sup = s.sup := setLatch_only cause s .sup rfl
    obtain ⟨empty, scope, trigger⟩ := mainDown_resets (t := 14) (s := fabricAlert 2 (setLatch cause s)) (sup ▸ on)
    obtain ⟨_, _, _, planes, modReady, _⟩ := off
    exact ⟨(empty.keepMgmt (only.mono rfl) steady).mainWiped planes modReady, ao ▸ scope, ao ▸ trigger⟩
  have latched := kill_ao cause h
  exact ⟨by rw [latched]; rfl, by rw [latched]; rfl, by rw [latched]; rfl, by rw [latched]; rfl, off, by rw [latched]; rfl, suspended, reset⟩

/-- What Killed says rests on the clock, the kills counted and the supply of the state before alone. -/
theorem Killed.of_agree {s t u : State} (k : Killed t u) (now : t.now = s.now) (kills : t.ao.kills = s.ao.kills) (sup : t.sup = s.sup) : Killed s u := by
  unfold Killed at *
  rwa [now, kills, sup] at k

/-- A leak's kill stops the pump at once (R740). -/
theorem kill_leak_stops {s : State} {cause : Nat} (h : s.ao.latch = false) (leak : (cause == 3 || cause == 4) = true) :
    (kill cause s).sup.dump = .leak ∧ (s.sup.dump ≠ .leak → (kill cause s).pump.st = .stopped ∧ (kill cause s).pump.duty = 0) := by
  obtain ⟨temp, e⟩ := kill_clear cause h
  have stopped : kill cause s = leakStop (killNotices cause temp (thirdKill s) (killDown cause s)) := e.trans (if_pos leak)
  have dump : (killNotices cause temp (thirdKill s) (killDown cause s)).sup.dump = s.sup.dump := by
    rw [killNotices_only .sup rfl, killDown, mainDown_dump, setLatch_only cause s .sup rfl]
  rw [stopped, leakStop_sup, ← dump]
  exact ⟨rfl, leakStop_pump⟩

/-! ### The trip sources (R42, R75, R91, R541, R586) -/

/-- The die comparator reads asserted. -/
def dieAsserted (s : State) : State := s.modAo fun a => { a with dieTrip := true }

theorem dieTrip_kill {s : State} (aux : s.ao.aux = true) (die : s.ao.dieTrip = false) : dieTrip s = kill 1 (dieAsserted s) := if_neg (by simp [aux, die])

theorem dieTrip_kills {s : State} (aux : s.ao.aux = true) (die : s.ao.dieTrip = false) (latch : s.ao.latch = false) :
    (dieTrip s).ao.dieTrip = true ∧ (dieTrip s).ao.causes = { s.ao.causes with die := true } ∧ Killed s (dieTrip s) := by
  have clear : (dieAsserted s).ao.latch = false := latch
  rw [dieTrip_kill aux die, kill_causes 1 clear]
  refine ⟨?_, by simp [KillCauses.join, dieAsserted], (kill_killed 1 clear).of_agree rfl rfl rfl⟩
  rw [kill_ao 1 clear]
  rfl

theorem dieTrip_latched {s : State} (aux : s.ao.aux = true) (die : s.ao.dieTrip = false) (latch : s.ao.latch = true) :
    (dieTrip s).ao.dieTrip = true ∧ (dieTrip s).ao.latch = true ∧ (dieTrip s).ao.causes = { s.ao.causes with die := true } ∧
      (dieTrip s).ao.kills = s.ao.kills ∧ Only [.ao] s (dieTrip s) := by
  have set : (dieAsserted s).ao.latch = true := latch
  rw [dieTrip_kill aux die, kill_latched set rfl]
  exact ⟨rfl, latch, by simp [KillCauses.join, dieAsserted], rfl, (State.modAo_only rfl).after (State.modAo_only rfl)⟩

/-- The leak tape reads wet. -/
def tapeAsserted (s : State) : State := s.modAo fun a => { a with tapeWet := true }

/-- The verdict and the alerts of a wet tape, while the steward runs (R91, R586). -/
def tapeVerdict (s : State) : State := if s.stew && s.pump.leak == 0 then leakAlert 1 true (fabricAlert 3 (latchLeak 1 s)) else s

theorem tapeVerdict_only (s : State) : Only [.adit, .mgmt, .pump, .bus] s (tapeVerdict s) :=
  Only.ite (fun _ => (leakAlert_only rfl).after ((fabricAlert_only rfl).after (latchLeak_only rfl))) fun _ => Only.rfl

theorem latchLeak_leak {source : Nat} {s : State} (h : s.pump.leak = 0) : (latchLeak source s).pump.leak = source := by
  unfold latchLeak
  rw [if_neg (by simp [h]), leakRec_steady.leak, queueStore_steady.leak, abortCapture_steady.leak]
  rfl

theorem tapeVerdict_leak {s : State} (stew : s.stew = true) (leak : s.pump.leak = 0) : (tapeVerdict s).pump.leak = 1 := by
  have e : tapeVerdict s = leakAlert 1 true (fabricAlert 3 (latchLeak 1 s)) := if_pos (by simp [stew, leak])
  have alerted : (tapeVerdict s).pump = (latchLeak 1 s).pump := by
    rw [e]
    exact Eq.trans (leakAlert_only (W := [.adit, .bus]) rfl .pump rfl) (fabricAlert_only (W := [.adit]) rfl .pump rfl)
  rw [alerted]
  exact latchLeak_leak leak

theorem tapeIsWet_kills {s : State} (aux : s.ao.aux = true) (wet : s.ao.tapeWet = false) (latch : s.ao.latch = false) :
    (tapeIsWet s).ao.tapeWet = true ∧ (tapeIsWet s).ao.causes = { s.ao.causes with tape := true } ∧ Killed s (tapeIsWet s) ∧ (tapeIsWet s).sup.dump = .leak ∧
      (s.sup.dump ≠ .leak → (tapeIsWet s).pump.st = .stopped ∧ (tapeIsWet s).pump.duty = 0) ∧ (s.stew = true → s.pump.leak = 0 → (tapeIsWet s).pump.leak = 1) := by
  have e : tapeIsWet s = kill 3 (tapeVerdict (tapeAsserted s)) := if_neg (by simp [aux, wet])
  have verdict := tapeVerdict_only (tapeAsserted s)
  have ao : (tapeVerdict (tapeAsserted s)).ao = (tapeAsserted s).ao := verdict .ao rfl
  have sup : (tapeVerdict (tapeAsserted s)).sup = s.sup := verdict .sup rfl
  have clear : (tapeVerdict (tapeAsserted s)).ao.latch = false := ao ▸ latch
  obtain ⟨dump, stopped⟩ := kill_leak_stops (cause := 3) clear rfl
  rw [e, kill_causes 3 clear, ao, kill_leak 3 clear]
  refine ⟨?_, by simp [KillCauses.join, tapeAsserted], (kill_killed 3 clear).of_agree (verdict .now rfl) (by rw [ao]; rfl) sup, dump, sup ▸ stopped,
    fun stew leak => tapeVerdict_leak stew leak⟩
  rw [kill_ao 3 clear]
  exact congrArg AlwaysOn.tapeWet ao

theorem kill_external {s t : State} (latch : s.ao.latch = false) (only : Only [.free] s t) :
    (kill 5 t).ao.causes = { s.ao.causes with ext := true } ∧ Killed s (kill 5 t) := by
  have ao : t.ao = s.ao := only .ao rfl
  have clear : t.ao.latch = false := ao ▸ latch
  refine ⟨?_, (kill_killed 5 clear).of_agree (only .now rfl) (congrArg AlwaysOn.kills ao) (only .sup rfl)⟩
  rw [kill_causes 5 clear, ao]
  simp [KillCauses.join]

theorem externalTrip_short {s : State} {ns : Nat} (short : ns < 250) : externalTrip ns s = s := if_pos (by simp [short])

theorem externalTrip_long {s : State} {ns : Nat} (aux : s.ao.aux = true) (latch : s.ao.latch = false) (long : 1000 ≤ ns) : externalTrip ns s = kill 5 s := by
  have heard : ¬ ns < 250 := by omega
  simp [externalTrip, aux, latch, heard, long]

/-- A pulse of any length is ignored, drawn for and ignored, or a kill (R75). -/
theorem externalTrip_cases (ns : Nat) (s : State) : ∃ t, Only [.free] s t ∧ (externalTrip ns s = t ∨ externalTrip ns s = kill 5 t) := by
  unfold externalTrip
  split
  · exact ⟨s, Only.rfl, .inl rfl⟩
  · split
    · exact ⟨s, Only.rfl, .inr rfl⟩
    · refine ⟨(draw 1 s).2, draw_only rfl, ?_⟩
      dsimp only
      split
      · exact .inr rfl
      · exact .inl rfl

theorem tapeIsDry_kicks {s : State} (dump : s.sup.dump = .leak) (stew : s.stew = true) (life : inUse s = true) (leak : s.pump.leak = 0) :
    tapeIsDry s = startKick ((s.modAo fun a => { a with tapeWet := false }).modSup fun u => { u with dump := .none }) := by
  have kick : kickAllowed (s.modAo fun a => { a with tapeWet := false }) = true := by
    have running : (s.modAo fun a => { a with tapeWet := false }).stew = true := stew
    have life : (s.mgmt.fuses.lc == .maker || s.mgmt.fuses.lc == .field) = true := life
    simp [kickAllowed, running, life, leak]
  exact if_pos (by simp [dump, kick])

theorem tapeIsDry_plain {s : State} (dump : s.sup.dump ≠ .leak) : tapeIsDry s = s.modAo fun a => { a with tapeWet := false } := if_neg (by simp [dump])

/-! ### The latch clears (R742 to R746) -/

theorem sourcesClean_clean {s : State} (latch : s.ao.latch = true) (own : ownSource s = false) :
    sourcesClean s = s.modAo fun a => { a with clean := true, released := a.released || releasedMode s, tripDrive := a.tripDrive && !releasedMode s } := by
  unfold sourcesClean
  rw [if_neg (by simp [latch, own])]
  cases releasedMode s <;> simp [State.modAo]

theorem sourcesClean_same {s : State} (h : s.ao.latch = false ∨ ownSource s = true) : sourcesClean s = s := if_pos (by simpa using h)

/-- What the always-on block holds once its latch has cleared (R746). -/
def AlwaysOn.unlatched (a : AlwaysOn) : AlwaysOn :=
  { a with latch := false, causes := {}, tripStacks := [], tripDrive := false, released := false, clean := false }

theorem clearLatch_ao (s : State) : (clearLatch s).ao = s.ao.unlatched := by
  unfold clearLatch
  exact Eq.trans (startEvent_only (W := [.adit]) rfl .ao rfl) (Only.ite (W := [.adit, .bus]) (fun _ => tripNotice_only rfl) (fun _ => Only.rfl) .ao rfl)

theorem clearLatch_cleared (s : State) : Cleared (clearLatch s) := by
  unfold Cleared
  rw [clearLatch_ao]
  exact ⟨rfl, rfl, rfl, rfl, rfl, rfl, startEvent_recorded⟩

theorem releaseWindow_clears {s : State} (latch : s.ao.latch = true) (clean : s.ao.clean = true) (released : s.ao.released = false)
    (mode : releasedMode s = false) (suspended : s.ao.suspended = false) : releaseWindow true s = clearLatch s :=
  if_pos (by simp [latch, clean, released, mode, suspended])

theorem releaseWindow_same {s : State} {high : Bool}
    (h : s.ao.latch = false ∨ s.ao.clean = false ∨ s.ao.released = true ∨ releasedMode s = true ∨ s.ao.suspended = true ∨ high = false) : releaseWindow high s = s := by
  refine if_neg fun all => ?_
  simp only [Bool.and_eq_true, Bool.not_eq_true'] at all
  grind

theorem releasedClear_clears {s : State} (latch : s.ao.latch = true) (clean : s.ao.clean = true) (released : s.ao.released = true)
    (suspended : s.ao.suspended = false) : releasedClear s = clearLatch s :=
  if_pos (by simp [latch, clean, released, suspended])

theorem releasedClear_same {s : State} (h : s.ao.latch = false ∨ s.ao.clean = false ∨ s.ao.released = false ∨ s.ao.suspended = true) : releasedClear s = s := by
  refine if_neg fun all => ?_
  simp only [Bool.and_eq_true, Bool.not_eq_true'] at all
  grind

/-! ### The statement -/

/-- A command of the always-on block whose operation is act has the effects that hold of act's result. -/
theorem Effects.ofEdge {c : Sys2Proof.Instr} {act : State → State} {s : State} {P : State → Prop} (run : exec c s = .next (edgeTurn act s)) (h : P (act s)) :
    Effects watch c s P := ⟨act s, run, h⟩

/-- Settles O31: each source's operation is rewritten to a kill, a release or nothing, and kill_killed and clearLatch_cleared say what those do. -/
theorem tripsAndRelease : Obligations.TripsAndRelease := by
  unfold Obligations.TripsAndRelease
  refine ⟨?dieTrip, ?dieTripLatched, ?tapeWet, ?extLong, ?extShort, ?ext, ?dieClear, ?dryKick, ?dry, ?clean, ?unclean, ?window, ?noWindow, ?released, ?notReleased⟩
  case dieTrip => exact fun s aux die latch => .ofEdge rfl (dieTrip_kills aux die latch)
  case dieTripLatched => exact fun s aux die latch => .ofEdge rfl (dieTrip_latched aux die latch)
  case tapeWet => exact fun s aux wet latch => .ofEdge rfl (tapeIsWet_kills aux wet latch)
  case extLong =>
    intro s n aux latch long
    refine .ofEdge rfl ?_
    rw [externalTrip_long aux latch long]
    exact kill_external latch Only.rfl
  case extShort => exact fun s n short => .ofEdge rfl (externalTrip_short short)
  case ext =>
    intro s n _ latch
    refine .ofEdge rfl ?_
    obtain ⟨t, only, e | e⟩ := externalTrip_cases n s <;> rw [e]
    · exact .inl ⟨(congrArg AlwaysOn.latch (only .ao rfl)).trans latch, only⟩
    · exact .inr (kill_external latch only)
  case dieClear => exact fun s => .ofEdge rfl rfl
  case dryKick =>
    intro s dump stew life leak
    refine .ofEdge rfl ?_
    rw [tapeIsDry_kicks dump stew life leak]
    exact ⟨rfl, rfl, rfl, rfl, (startKick_only rfl).after ((State.modSup_only rfl).after (State.modAo_only rfl))⟩
  case dry => exact fun s dump => .ofEdge rfl (tapeIsDry_plain dump)
  case clean => exact fun s latch own => .ofEdge rfl (sourcesClean_clean latch own)
  case unclean => exact fun s h => .ofEdge rfl (sourcesClean_same h)
  case window =>
    intro s latch clean released mode suspended
    refine .ofEdge rfl ?_
    rw [releaseWindow_clears latch clean released mode suspended]
    exact ⟨clearLatch_cleared s, clearLatch_only rfl⟩
  case noWindow => exact fun s high h => .ofEdge rfl (releaseWindow_same h)
  case released =>
    intro s latch clean released suspended
    refine .ofEdge rfl ?_
    rw [releasedClear_clears latch clean released suspended]
    exact ⟨clearLatch_cleared s, clearLatch_only rfl⟩
  case notReleased => exact fun s h => .ofEdge rfl (releasedClear_same h)

end Sys2Proof.Machine
end

section
/-! PROOFS. The configuration rows that are commands of their own: how a command of the control plane or of the configuration space is carried out, and O2. -/

namespace Sys2Proof.Machine

/-! ### Carrying a command out -/

/-- While the MAIN planes are up, a command of the control plane has the effects that hold of its operation's result. -/
theorem Effects.ofCtl {c : Sys2Proof.Instr} {act : State → State} {s : State} {P : State → Prop} (run : exec c s = .next (ctlTurn act s)) (up : s.up = true)
    (h : P (act s)) : Effects settle c s P :=
  ⟨act s, run.trans (congrArg _ (if_pos up)), h⟩

/-- A function that answers carries the operation out, and the request is answered (R124, R125, R163). -/
theorem cfgTurn_answers {f : Nat} {act : State → State} {s : State} (a : Answers s f) : cfgTurn f act s = answered (act s) := by
  obtain ⟨linkUp, ready, present, rrs⟩ := a
  simp [cfgTurn, answered, linkUp, ready, present, rrs]

theorem Answers.ready {s : State} {f : Nat} (a : Answers s f) : s.host.ready = true := by
  obtain ⟨_, ready, _⟩ := a
  exact ready

theorem Effects.ofCfg {c : Sys2Proof.Instr} {f : Nat} {act : State → State} {s : State} {P : State → Prop} (run : exec c s = .next (cfgTurn f act s))
    (a : Answers s f) (h : P (act s)) : Effects answered c s P :=
  ⟨act s, run.trans (congrArg _ (cfgTurn_answers a)), h⟩

/-- ... where the operation itself ends with what it makes possible. -/
theorem Effects.ofCfgSettled {c : Sys2Proof.Instr} {f : Nat} {act : State → State} {s t : State} {P : State → Prop} (run : exec c s = .next (cfgTurn f act s))
    (a : Answers s f) (e : act s = settle t) (h : P t) : Effects (fun u => answered (settle u)) c s P :=
  ⟨t, run.trans (congrArg _ ((cfgTurn_answers a).trans (congrArg answered e))), h⟩

/-! ### Changes of one function's registers -/

theorem FnOnly.after {f : Nat} {s t u : State} (k : FnOnly f t u) (h : FnOnly f s t) : FnOnly f s u := by
  obtain ⟨only, host, others⟩ := h
  obtain ⟨only', host', others'⟩ := k
  refine ⟨only'.after only, ?_, fun g hg => (others' g hg).trans (others g hg)⟩
  rw [← host, ← host']

theorem State.modFn_fnOnly {f : Nat} {s : State} {g : Fn → Fn} : FnOnly f s (s.modFn f g) := ⟨State.modFn_only rfl, rfl, fun _ h => State.modFn_other h⟩

theorem dblCheck_fnOnly {f : Nat} {s : State} : FnOnly f s (dblCheck f s) := State.modFn_fnOnly

/-- Where the conditions of R169 do not hold, reading of the line stops. -/
theorem dblCheck_stops {f : Nat} {s : State} (h : readingCond s f = false) : (dblCheck f s).fn f = { s.fn f with reading := false, tagWait := none } := by
  simp [dblCheck, h]

theorem busMasterOff_fnOnly {f : Nat} {s : State} : FnOnly f s (busMasterOff f s) := dblCheck_fnOnly.after State.modFn_fnOnly

theorem busMasterOff_fn (f : Nat) (s : State) : (busMasterOff f s).fn f = { s.fn f with bme := false, reading := false, tagWait := none } := by
  rw [busMasterOff, dblCheck_stops (by simp [readingCond]), State.modFn_same]

theorem setAts_fn (f : Nat) (on : Bool) (s : State) : (setAts f on s).fn f = { s.fn f with atsEn := on } := State.modFn_same s f fun x => { x with atsEn := on }

theorem setAts_other {f g : Nat} {on : Bool} {s : State} (h : g ≠ f) : (setAts f on s).fn g = s.fn g := State.modFn_other (s := s) (g := fun x => { x with atsEn := on }) h

/-- Bus Master Enable becomes 1, and the completions that waited for it are written (R160). -/
def busMasterFlushed (f : Nat) (s : State) : State :=
  let t := s.modFn f fun x => { x with bme := true }
  forEach (ctxsWhere (fun c => c.cage == f && c.ph == .ending) t) tryComplete t

theorem busMasterSet_on {f : Nat} {s : State} (flr : (s.fn f).flr = false) (d3 : (s.fn f).d3 = false) :
    busMasterSet f s = settle (dblCheck f (flushMsi f (resumeFn f (busMasterFlushed f s)))) := by
  simp [busMasterSet, busMasterOn, busMasterFlushed, flr, d3]

theorem busMasterSet_cfgOk (f : Nat) (s : State) :
    CfgOk (s.modFn f fun x => { x with bme := true }) (dblCheck f (flushMsi f (resumeFn f (busMasterFlushed f s)))) :=
  dblCheck_cfgOk.after (flushMsi_cfgOk.after (resumeFn_cfgOk.after (forEach_cfgOk fun _ _ => tryComplete_cfgOk)))

/-! ### Operations repeated for every number of a list -/

/-- Where each turn of a repetition changes its own number's entry by h and no other, each entry of the list is changed once. -/
theorem forEach_entry {α : Type} {entry : State → Nat → α} {g : Nat → State → State} {h : α → α} (own : ∀ v t, entry (g v t) v = h (entry t v))
    (other : ∀ v w t, w ≠ v → entry (g v t) w = entry t w) {l : List Nat} (nd : l.Nodup) (s : State) (w : Nat) :
    entry (forEach l g s) w = if w ∈ l then h (entry s w) else entry s w := by
  induction l generalizing s with
  | nil => rfl
  | cons v r ih =>
    obtain ⟨hv, nr⟩ := List.nodup_cons.mp nd
    have rest : entry (forEach (v :: r) g s) w = if w ∈ r then h (entry (g v s) w) else entry (g v s) w := ih nr (g v s)
    by_cases e : w = v
    · subst e
      simp [rest, hv, own]
    · simp [rest, e, other v w s e]

/-- The VFs numbered 1 to n. -/
def vfNumbers (n : Nat) : List Nat := (List.range n).map (· + 1)

theorem vfNumbers_nodup (n : Nat) : (vfNumbers n).Nodup := List.Pairwise.map (· + 1) (fun _ _ ne same => ne (Nat.succ.inj same)) List.nodup_range

theorem mem_vfNumbers {n v : Nat} : v ∈ vfNumbers n ↔ 1 ≤ v ∧ v ≤ n := by
  simp only [vfNumbers, List.mem_map, List.mem_range]
  constructor
  · rintro ⟨i, hi, rfl⟩
    omega
  · rintro ⟨one, le⟩
    exact ⟨v - 1, by omega, by omega⟩

/-! ### The VFs appear and disappear (R121 to R126) -/

/-- A VF as VF Enable brings it up: a reset under way and the reads in flight stay with it. -/
def Fn.born (x : Fn) : Fn := { present := true, rrs := true, flr := x.flr, readsOut := x.readsOut }

/-- VF v comes up with its cage. -/
def bringUp (v : Nat) (s : State) : State := (s.modFn v Fn.born).modCage v fun _ => { st := .dormant }

/-- A function with the cage of its number. -/
def fnAndCage (s : State) (v : Nat) : Fn × Cage := (s.fn v, s.cage v)

theorem vfEnable_brings {s : State} (ready : s.host.ready = true) (off : s.host.vfEn = false) (room : s.host.numVfs ≤ 7 ∨ s.host.ari = true) :
    vfEnable s = forEach (vfNumbers s.host.numVfs) bringUp (s.modHost fun h => { h with vfEn := true }) := by
  have fits : (decide (7 < s.host.numVfs) && !s.host.ari) = false := by
    obtain few | ari := room
    · rw [decide_eq_false (Nat.not_lt.mpr few), Bool.false_and]
    · rw [ari, Bool.not_true, Bool.and_false]
  simp only [vfEnable, ready, off, fits]
  rfl

theorem vfEnable_refuses {s : State} (ready : s.host.ready = true) (off : s.host.vfEn = false) (many : 7 < s.host.numVfs) (ari : s.host.ari = false) :
    vfEnable s = s.modFn 0 fun x => { x with errAri := true } := by
  simp [vfEnable, ready, off, many, ari]

theorem bringUp_only {v : Nat} {s : State} : Only [.host, .cages] s (bringUp v s) := (State.modCage_only rfl).after (State.modFn_only rfl)

theorem bringUp_all (n : Nat) (s : State) (w : Nat) :
    fnAndCage (forEach (vfNumbers n) bringUp s) w = if w ∈ vfNumbers n then ((s.fn w).born, { st := .dormant }) else (s.fn w, s.cage w) := by
  refine forEach_entry (entry := fnAndCage) (h := fun e => (e.1.born, { st := .dormant })) (fun v t => ?_) (fun v w t e => ?_) (vfNumbers_nodup n) s w
  · exact Prod.ext (State.modFn_same ..) (State.modCage_same ..)
  · exact Prod.ext (State.modFn_other e) (State.modCage_other e)

theorem bringUp_vfEn (l : List Nat) (s : State) : (forEach l bringUp s).host.vfEn = s.host.vfEn := by
  induction l generalizing s with
  | nil => rfl
  | cons v r ih => exact ih (bringUp v s)

theorem vfRrsEnd_ends {s : State} (h : ∀ v, 1 ≤ v → v ≤ 255 → (s.fn v).flr = false) :
    vfRrsEnd s = forEach (vfNumbers 255) (fun v s => s.modFn v fun x => { x with rrs := false }) s := by
  refine if_neg ?_
  simp only [List.any_eq_true, List.mem_range, not_exists, not_and]
  intro i hi
  simp [h (i + 1) (by omega) (by omega)]

theorem rrsEnd_all (s : State) (w : Nat) :
    (forEach (vfNumbers 255) (fun v s => s.modFn v fun x => { x with rrs := false }) s).fn w = if w ∈ vfNumbers 255 then { s.fn w with rrs := false } else s.fn w :=
  forEach_entry (entry := State.fn) (h := fun x => { x with rrs := false }) (fun _ _ => State.modFn_same ..) (fun _ _ _ e => State.modFn_other e)
    (vfNumbers_nodup 255) s w

theorem vfDisable_settles {s : State} (ready : s.host.ready = true) (on : s.host.vfEn = true) : vfDisable s = settle (funcNotice 0 3 (endVfs s)) := by
  simp [vfDisable, ready, on]

theorem CfgOk.vfEn {s t : State} (h : CfgOk s t) : t.host.vfEn = s.host.vfEn := by
  obtain ⟨link, _⟩ := h
  simp only [linkCfg, Prod.mk.injEq, List.cons.injEq] at link
  obtain ⟨⟨_, vfEn, _⟩, _⟩ := link
  exact vfEn

/-- The notice of a function reset keeps the cause in the always-on block (R705). -/
theorem funcNotice_cause (f trigger : Nat) (s : State) :
    (funcNotice f trigger s).ao.cause = { scope := 0, trigger := trigger, kill := s.ao.causes, rowTime := s.ao.rowTime } :=
  congrArg AlwaysOn.cause (report_only (W := [.host, .rings]) rfl .ao rfl)

theorem endVfs_ao (s : State) : (endVfs s).ao = s.ao :=
  endVfs_only (W := [.free, .adit, .host, .rings, .cages, .beat, .mem, .mgmt, .links, .coll]) rfl .ao rfl

/-! ### The statement -/

/-- Settles O2: each row's operation is rewritten to what it does to the functions, and the frames of the steps it ends with say what those leave alone. -/
theorem configurationCommands : Obligations.ConfigurationCommands := by
  unfold Obligations.ConfigurationCommands
  refine ⟨?controlReady, ?masterClear, ?masterSet, ?ats, ?vfEnable, ?vfRefused, ?vfDisable, ?rrsEnd⟩
  case controlReady =>
    intro s up linkUp
    exact congrArg Host.Outcome.next (if_pos (by simp [up, linkUp]))
  case masterClear => exact fun s f a => .ofCfg rfl a ⟨busMasterOff_fn f s, busMasterOff_fnOnly⟩
  case masterSet =>
    intro s f a flr d3
    obtain ⟨_, kept⟩ := busMasterSet_cfgOk f s
    refine .ofCfgSettled rfl a (busMasterSet_on flr d3) ⟨?_, fun g hg => ?_⟩
    · rw [kept, State.modFn_same]
    · rw [kept, State.modFn_other hg]
  case ats => exact fun s f on a => .ofCfg rfl a ⟨setAts_fn f on s, rfl, fun _ hg => setAts_other hg, (State.modHost_only rfl).after (State.modFn_only rfl)⟩
  case vfEnable =>
    intro s a off room
    refine .ofCfg rfl a ?_
    rw [vfEnable_brings a.ready off room]
    have entries := bringUp_all s.host.numVfs (s.modHost fun h => { h with vfEn := true })
    refine ⟨bringUp_vfEn .., fun v one le => ?_, ?_, (forEach_only fun _ _ => bringUp_only).after (State.modHost_only rfl)⟩
    · obtain ⟨fn, cage⟩ := Prod.ext_iff.mp ((entries v).trans (if_pos (mem_vfNumbers.mpr ⟨one, le⟩)))
      simp only [fnAndCage] at fn cage
      rw [fn, cage]
      exact ⟨rfl, rfl, rfl, rfl, rfl⟩
    · exact congrArg Prod.fst ((entries 0).trans (if_neg (by simp [mem_vfNumbers])))
  case vfRefused => exact fun s a off many ari => .ofCfg rfl a (vfEnable_refuses a.ready off many ari)
  case vfDisable =>
    intro s a on
    refine .ofCfgSettled rfl a (vfDisable_settles a.ready on) ⟨funcNotice_cfgOk.vfEn, ?_⟩
    rw [funcNotice_cause, endVfs_ao]
    exact ⟨rfl, rfl, rfl⟩
  case rrsEnd =>
    intro s up ended
    refine .ofCtl rfl up ?_
    rw [vfRrsEnd_ends ended]
    refine ⟨fun v one le => ?_, ?_, forEach_only fun _ _ => State.modFn_only rfl⟩
    · rw [rrsEnd_all, if_pos (mem_vfNumbers.mpr ⟨one, le⟩)]
    · rw [rrsEnd_all, if_neg (by simp [mem_vfNumbers])]

end Sys2Proof.Machine
end

section
/-! PROOFS. Where nothing waits in the rings, the admissions or the collective groups, nothing follows by itself; and the refutation of O7. -/

namespace Sys2Proof.Machine

/-! ### States in which nothing follows by itself -/

/-- No ring, slot, context, admission or collective group is in use. -/
structure Idle (s : State) : Prop where
  rings : s.rings = {}
  cages : s.cages = {}
  coll : s.coll = {}

theorem Idle.keep {s t : State} (i : Idle s) (only : Only [.host] s t) : Idle t :=
  ⟨Eq.trans (only .rings rfl) i.rings, Eq.trans (only .cages rfl) i.cages, Eq.trans (only .coll rfl) i.coll⟩

theorem Idle.slot {s : State} (i : Idle s) (k : Nat) : s.slot k = {} := by
  rw [State.slot, i.rings]
  rfl

theorem Idle.progress {s : State} (i : Idle s) : progress s = s := by
  have idle : ctxsWhere (fun c => c.ph == .prep) s = [] := by
    rw [ctxsWhere, State.usedCtxs, i.rings]
    rfl
  rw [Machine.progress, idle, forEach, List.foldl_nil, spillLate, i.cages]
  rfl

theorem Idle.refreshList {s : State} (i : Idle s) (l : List Nat) : refreshList l s = s := by
  induction l with
  | nil => rfl
  | cons k r ih =>
    rw [Machine.refreshList, i.slot]
    exact ih

theorem sortBy_nil {α : Type} (le : α → α → Bool) : sortBy le [] = [] := by
  delta sortBy
  rfl

theorem Idle.schedule {s : State} (i : Idle s) : schedule s = s := by
  have empty : s.rings.rings = [] := by rw [i.rings]
  simp only [Machine.schedule, empty, markWaiting, List.filter_nil, sortBy_nil, List.map_nil, serveWaiting]

theorem Idle.settle {s : State} (i : Idle s) : settle s = s := by
  have alone : collRefresh s = s := by
    rw [collRefresh, i.coll]
    rfl
  rw [Machine.settle, i.progress, refresh, i.refreshList, i.schedule, alone]

/-! ### The statement -/

/-- A function that reads its line by Lightweight Notification, with 32 reads in flight. -/
def lnReader : Fn :=
  { present := true, bme := true, dblEn := true, dblLn := true, lnrEn := true, lnrLimit := 1, dblAddr := 0x4000, reading := true, lnRegistered := true,
    readsOut := List.replicate 32 { kind := .poll, discard := false } }

/-- An idle module whose table of functions is not in its canonical form: the PF is listed after VF 1. -/
def unsortedFns : State := { sup := { planes := true, perstHigh := true }, host := { fns := [(1, {}), (0, lnReader)] } }

/-- An LN Message writes the PF a second time in front of VF 1: 64 reads are then counted, and none goes out. -/
theorem lnMessage_unsortedFns : ((lnMessage 0 unsortedFns).fn 0).readsOut = lnReader.readsOut := by decide

/-- Refutes O7 by its clause for an LN Message (R176, R793). The clause counts the reads in flight before the message, the model counts them after it has marked
the announcement, and in a table of functions out of its canonical form that mark adds an entry, so that the reads of one function are counted twice. -/
theorem not_doorbellLines : ¬ Obligations.DoorbellLines := by
  unfold Obligations.DoorbellLines
  rintro ⟨-, -, -, -, -, -, ln, -⟩
  obtain ⟨u, run, reads, -, -, only⟩ := ln unsortedFns 0 0x4000 (by decide) (by decide) (by decide) (by decide) (by decide) rfl
  have idle : Idle unsortedFns := ⟨rfl, rfl, rfl⟩
  have ran : settle (lnMessage 0 unsortedFns) = settle u := Host.Outcome.next.inj run
  have same : lnMessage 0 unsortedFns = u := by
    rwa [(idle.keep (lnMessage_only rfl)).settle, (idle.keep only).settle] at ran
  have length := congrArg List.length reads
  rw [← same, lnMessage_unsortedFns] at length
  revert length
  decide

end Sys2Proof.Machine
end

section
/-! PROOFS. How a command of a ring is carried out once it is taken, the commands on a cage, its pool and its programs (O12), and what the module holds right after reset (O56). -/

namespace Sys2Proof.Machine

/-! ### Commands that a ring issues (R199, R208, R211) -/

/-- The context that a descriptor of the slot of candidate e takes (R211). -/
theorem took_ctx (e : Cand) (df : Tbl Nat) (p : W32) (d : Bytes) (s : State) :
    (took e df p d s).ctx (freeCtx s) =
      { ph := .prep, ring := (s.slot e.2.1).ring, index := p, tag := BitVec.ofNat 64 (fld d 8 8), op := descOp d, irq := bit (byteAt d 1) 1, desc := d } :=
  State.modCtx_same ..

theorem took_desc (e : Cand) (df : Tbl Nat) (p : W32) (d : Bytes) (s : State) : ((took e df p d s).ctx (freeCtx s)).desc = d := by rw [took_ctx]

theorem took_cage (e : Cand) (df : Tbl Nat) (p : W32) (d : Bytes) (s : State) : ((took e df p d s).ctx (freeCtx s)).cage = (s.slot e.2.1).ring / 16 := by
  rw [took_ctx, Ctx.cage]

theorem took_after (e : Cand) (df : Tbl Nat) (p : W32) (d : Bytes) (s : State) : ((took e df p d s).ctx (freeCtx s)).after = [] := by rw [took_ctx]

theorem took_then {e : Cand} {df : Tbl Nat} {p : W32} {d : Bytes} {s u : State} {W : List Blk} (rings : sub [.rings] W = true) (h : Only W (took e df p d s) u) : Only W s u :=
  h.after (took_only rings)

/-- A taken descriptor that passes the checks runs its own meaning on the context it took. -/
theorem issueOp_taken {o : OpSpec} {op f r : Nat} {act : Nat → State → State} {s : State} {e : Cand} {df : Tbl Nat} {p : W32} {d : Bytes} (t : Taken o op f r s e df p d) :
    issueOp op o f r act s = refresh (tryFail e.2.1 (act (freeCtx s) (took e df p d s))) := by
  obtain ⟨turn, isOp, pass⟩ := t
  simp [issueOp, issueWhen, turn, isOp, took_desc, took_cage, pass]

theorem Effects.ofRing {c : Sys2Proof.Instr} {o : OpSpec} {op f r : Nat} {act : Nat → State → State} {s : State} {e : Cand} {df : Tbl Nat} {p : W32} {d : Bytes}
    {P : State → Prop} (run : exec c s = .next (ringOp op o f r act s)) (t : Taken o op f r s e df p d) (h : P (act (freeCtx s) (took e df p d s))) :
    Effects (ran e) c s P :=
  ⟨_, run.trans (congrArg _ (congrArg settle (issueOp_taken t))), h⟩

/-- ... where the command's own meaning ends with what its effect calls for. -/
theorem Effects.ofRingThen {c : Sys2Proof.Instr} {o : OpSpec} {op f r : Nat} {act : Nat → State → State} {fin : State → State} {s u : State} {e : Cand} {df : Tbl Nat}
    {p : W32} {d : Bytes} {P : State → Prop} (run : exec c s = .next (ringOp op o f r act s)) (t : Taken o op f r s e df p d)
    (split : act (freeCtx s) (took e df p d s) = fin u) (h : P u) : Effects (fun u => ran e (fin u)) c s P :=
  ⟨u, (run.trans (congrArg _ (congrArg settle (issueOp_taken t)))).trans (congrArg _ (congrArg (ran e) split)), h⟩

/-! ### The end of a command (R196) -/

theorem endCmd_ctx (n status detail result : Nat) (s : State) :
    (endCmd n status detail result s).ctx n =
      { s.ctx n with ph := .ending, status := status, detail := detail, result := result, pages := [], wrPages := [], pinWait := false, trainWait := false, planned := false } :=
  State.modCtx_same ..

@[simp] theorem endOk_ph (n result : Nat) (s : State) : ((endOk n result s).ctx n).ph = .ending := by rw [endOk, endCmd_ctx]

@[simp] theorem endOk_status (n result : Nat) (s : State) : ((endOk n result s).ctx n).status = 0 := by rw [endOk, endCmd_ctx]

@[simp] theorem endOk_result (n result : Nat) (s : State) : ((endOk n result s).ctx n).result = result := by rw [endOk, endCmd_ctx]

@[simp] theorem endOk_after (n result : Nat) (s : State) : ((endOk n result s).ctx n).after = (s.ctx n).after := by rw [endOk, endCmd_ctx]

@[simp] theorem endOk_cage (n result : Nat) (s : State) (c : Nat) : (endOk n result s).cage c = s.cage c := rfl

theorem endCmd_ended (n status detail result : Nat) (s : State) : Ended n status detail result s (endCmd n status detail result s) := by
  have others : CtxOnly n s (endCmd n status detail result s) := ⟨endCmd_only rfl, rfl, fun m h => State.modCtx_other h⟩
  unfold Ended
  rw [endCmd_ctx]
  exact ⟨rfl, rfl, rfl, rfl, rfl, rfl, rfl, others⟩

theorem Effects.ofRingEnd {c : Sys2Proof.Instr} {o : OpSpec} {op f r : Nat} {act : Nat → State → State} {s : State} {e : Cand} {df : Tbl Nat} {p : W32} {d : Bytes}
    {status detail result : Nat} (run : exec c s = .next (ringOp op o f r act s)) (t : Taken o op f r s e df p d)
    (ends : act (freeCtx s) (took e df p d s) = endCmd (freeCtx s) status detail result (took e df p d s)) :
    Effects (ran e) c s (Ended (freeCtx s) status detail result (took e df p d s)) := by
  refine .ofRing run t ?_
  rw [ends]
  exact endCmd_ended ..

/-! ### Creating, changing and destroying a cage (R229 to R236) -/

/-- Cage t is created with the quotas of descriptor d, and its event counters are 0 (R193, R229). -/
def cageCreated (t : Nat) (d : Bytes) (s : State) : State :=
  (s.modCage t fun g => quotasOf d { g with st := .active, weight := 16, ctxLimit := 64 }).modRings
    fun r => { r with events := r.events.filter (fun e => e.1 / 64 != t) }

theorem bodyCreate_dormant {n : Nat} {d : Bytes} {s : State} (desc : (s.ctx n).desc = d) (st : (s.cage (byteAt d 16)).st = .dormant) :
    bodyCreate n s = endOk n 0 (cageCreated (byteAt d 16) d s) := by
  simp [bodyCreate, desc, st, cageCreated]

theorem bodyCreate_refuses {n : Nat} {d : Bytes} {s : State} (desc : (s.ctx n).desc = d) (st : (s.cage (byteAt d 16)).st ≠ .dormant) :
    bodyCreate n s = endCmd n 0x33 (if (s.cage (byteAt d 16)).st = .absent then 4 else 3) 0 s := by
  cases h : (s.cage (byteAt d 16)).st with
  | dormant => exact absurd h st
  | absent | active | ending => simp [bodyCreate, desc, h]

/-- A table whose entries are kept by a test of their keys reads as before where the key passes it, and as the default elsewhere. -/
theorem tget_filter_key {α : Type} {d : α} (t : Tbl α) (p : Nat → Bool) (k : Nat) :
    tget d (t.filter (fun e => p e.1)) k = if p k then tget d t k else d := by
  induction t with
  | nil => simp [tget]
  | cons e r ih =>
    obtain ⟨j, v⟩ := e
    by_cases same : j = k
    · subst same
      cases h : p j with
      | true => simp [h, tget]
      | false => simpa [h] using ih
    · cases h : p j <;> simpa [h, tget, same] using ih

theorem cageCreated_event (t : Nat) (d : Bytes) (s : State) {c k : Nat} (lt : k < 64) :
    (cageCreated t d s).event c k = if c = t then 0 else s.event c k := by
  have key : (64 * c + k) / 64 = c := by omega
  have kept : (cageCreated t d s).event c k = if (64 * c + k) / 64 != t then s.event c k else 0 := tget_filter_key s.rings.events (fun j => j / 64 != t) (64 * c + k)
  simpa [key] using kept

theorem cageCreated_cage (t : Nat) (d : Bytes) (s : State) :
    (cageCreated t d s).cage t = quotasOf d { s.cage t with st := .active, weight := 16, ctxLimit := 64 } :=
  State.modCage_same s t fun g => quotasOf d { g with st := .active, weight := 16, ctxLimit := 64 }

theorem cageCreated_cage_other {t c : Nat} {d : Bytes} {s : State} (h : c ≠ t) : (cageCreated t d s).cage c = s.cage c :=
  State.modCage_other (s := s) (g := fun g => quotasOf d { g with st := .active, weight := 16, ctxLimit := 64 }) h

/-- The DETAIL with which a command on a cage that is not ACTIVE is refused (R235). -/
def notActiveDetail : CageSt → Nat
  | .dormant => 1
  | .ending => 2
  | _ => 4

theorem bodyQuota_active {n : Nat} {d : Bytes} {s : State} (desc : (s.ctx n).desc = d) (st : (s.cage (byteAt d 16)).st = .active) : bodyQuota n s = endOk n 0 s := by
  simp [bodyQuota, desc, st]

theorem bodyQuota_refuses {n : Nat} {d : Bytes} {s : State} (desc : (s.ctx n).desc = d) (st : (s.cage (byteAt d 16)).st ≠ .active) :
    bodyQuota n s = endCmd n 0x33 (notActiveDetail (s.cage (byteAt d 16)).st) 0 s := by
  cases h : (s.cage (byteAt d 16)).st with
  | active => exact absurd h st
  | absent | dormant | ending => simp [bodyQuota, desc, h, notActiveDetail]

/-- The destruction of cage t begins, for the command of context n (R236). -/
def destroyBegun (n t : Nat) (s : State) : State :=
  (s.modCage t fun g => { g with st := .ending, destroyCtx := some n }).modCtx n fun c => { c with ph := .held }

theorem bodyDestroy_active {n : Nat} {d : Bytes} {s : State} (desc : (s.ctx n).desc = d) (st : (s.cage (byteAt d 16)).st = .active) :
    bodyDestroy n s = destroyFollows n (byteAt d 16) (destroyBegun n (byteAt d 16) s) := by
  simp [bodyDestroy, desc, st, destroyFollows, destroyBegun]

theorem bodyDestroy_refuses {n : Nat} {d : Bytes} {s : State} (desc : (s.ctx n).desc = d) (st : (s.cage (byteAt d 16)).st ≠ .active) :
    bodyDestroy n s = endCmd n 0x33 (notActiveDetail (s.cage (byteAt d 16)).st) 0 s := by
  cases h : (s.cage (byteAt d 16)).st with
  | active => exact absurd h st
  | absent | dormant | ending => simp [bodyDestroy, desc, h, notActiveDetail]

theorem destroyBegun_cage (n t : Nat) (s : State) : (destroyBegun n t s).cage t = { s.cage t with st := .ending, destroyCtx := some n } :=
  State.modCage_same s t fun g => { g with st := .ending, destroyCtx := some n }

theorem destroyBegun_cage_other {n t c : Nat} {s : State} (h : c ≠ t) : (destroyBegun n t s).cage c = s.cage c :=
  State.modCage_other (s := s) (g := fun g => { g with st := .ending, destroyCtx := some n }) h

theorem destroyBegun_ctx (n t : Nat) (s : State) : (destroyBegun n t s).ctx n = { s.ctx n with ph := .held } := State.modCtx_same ..

theorem destroyBegun_only {n t : Nat} {s : State} : Only [.rings, .cages] s (destroyBegun n t s) := (State.modCtx_only rfl).after (State.modCage_only rfl)

/-- Cage c is DORMANT, without a pool and without a command that destroys it (R236). -/
def cageEmptied (c : Nat) (s : State) : State :=
  s.modCage c fun g => { g with st := .dormant, poolBase := 0, poolSlots := 0, poolFaulted := false, destroyCtx := none }

theorem cageEmptied_cage (c : Nat) (s : State) :
    (cageEmptied c s).cage c = { s.cage c with st := .dormant, poolBase := 0, poolSlots := 0, poolFaulted := false, destroyCtx := none } := State.modCage_same ..

theorem destroyDone_ready {c n : Nat} {s : State} (st : (s.cage c).st = .ending) (ready : destroyReady s c = true) (cmd : (s.cage c).destroyCtx = some n) :
    destroyDone c s = endOk n 0 (cageEmptied c (destroyPages c s)) := by
  simp [destroyDone, st, ready, cmd, cageEmptied]

/-! ### The pool of a cage (R251, R261) -/

/-- Cage c backs its pages with the pool of descriptor d. -/
def poolTaken (c : Nat) (d : Bytes) (s : State) : State :=
  s.modCage c fun g => { g with poolBase := if fld d 24 4 = 0 then 0 else BitVec.ofNat 64 (opA d), poolSlots := fld d 24 4, poolFaulted := false }

theorem poolTaken_cage (c : Nat) (d : Bytes) (s : State) :
    (poolTaken c d s).cage c =
      { s.cage c with poolBase := if fld d 24 4 = 0 then 0 else BitVec.ofNat 64 (opA d), poolSlots := fld d 24 4, poolFaulted := false } :=
  State.modCage_same s c fun g => { g with poolBase := if fld d 24 4 = 0 then 0 else BitVec.ofNat 64 (opA d), poolSlots := fld d 24 4, poolFaulted := false }

theorem bodyPool_sets {n c : Nat} {d : Bytes} {s : State} (desc : (s.ctx n).desc = d) (cage : (s.ctx n).cage = c) (free : ∀ g ∈ cagePages s c, g.2.slot = none) :
    bodyPool n s = endOk n 0 (poolTaken c d s) := by
  subst desc cage
  have unused : ¬ (cagePages s (s.ctx n).cage).any (fun e => e.2.slot.isSome) = true := by
    simp only [List.any_eq_true, not_exists, not_and]
    exact fun g hg => by simp [free g hg]
  exact if_neg unused

theorem bodyPool_refuses {n c : Nat} {s : State} (cage : (s.ctx n).cage = c) (used : ∃ g ∈ cagePages s c, g.2.slot ≠ none) : bodyPool n s = endCmd n 0x33 9 0 s := by
  subst cage
  obtain ⟨g, mem, slot⟩ := used
  exact if_pos (List.any_eq_true.mpr ⟨g, mem, Option.isSome_iff_ne_none.mpr slot⟩)

/-! ### Aborting programs (R352) -/

/-- Group a.group is to stop, and the command of context n completes after the program's ADMIT. -/
def abortOrdered (n : Nat) (a : Adm) (s : State) : State :=
  (s.modGroup a.group fun x => { x with abort := true }).modCtx n fun c => { c with after := c.after ++ [a.ctx] }

theorem abortAdm_running {n : Nat} {a : Adm} {s : State} (ph : a.ph = .running) (st : (s.group a.group).st = .running) (live : (s.group a.group).abort = false) :
    abortAdm n a s = (abortOrdered n a s, true) := by
  simp [abortAdm, ph, st, live, abortOrdered]

/-- MODE 0 aborts the oldest admission of the command's own cage with the tag given. -/
theorem bodyAbort_tag {n c : Nat} {d : Bytes} {s : State} {a : Adm} (desc : (s.ctx n).desc = d) (cage : (s.ctx n).cage = c) (mode : byteAt d 16 = 0)
    (hit : (s.cages.adms.filter (fun a => a.cage == c && a.tag.toNat == fld d 24 8)).head? = some a) :
    bodyAbort n s = endOk n (b2n (abortAdm n a s).2) (abortAdm n a s).1 := by
  subst desc cage
  have one := List.take_one (l := s.cages.adms.filter (fun a => a.cage == (s.ctx n).cage && a.tag.toNat == fld (s.ctx n).desc 24 8))
  rw [hit] at one
  simp [bodyAbort, mode, one, abortAll]

theorem abortOrdered_abort (n : Nat) (a : Adm) (s : State) : ((abortOrdered n a s).group a.group).abort = true :=
  congrArg Group.abort (State.modGroup_same s a.group fun x => { x with abort := true })

theorem abortOrdered_after (n : Nat) (a : Adm) (s : State) : ((abortOrdered n a s).ctx n).after = (s.ctx n).after ++ [a.ctx] :=
  congrArg Ctx.after (State.modCtx_same (s.modGroup a.group fun x => { x with abort := true }) n fun c => { c with after := c.after ++ [a.ctx] })

theorem abortOrdered_only {n : Nat} {a : Adm} {s : State} : Only [.rings, .beat] s (abortOrdered n a s) := (State.modCtx_only rfl).after (State.modGroup_only rfl)

/-! ### The statement -/

/-- Settles O12: each command is taken as its descriptor stands, and the lemma of its case says what its own meaning does on the context it took. -/
theorem cageCommands : Obligations.CageCommands := by
  unfold Obligations.CageCommands
  refine ⟨?create, ?createRefused, ?quota, ?quotaRefused, ?destroy, ?destroyRefused, ?destroyDone, ?pool, ?poolRefused, ?abort, ?abortRunning⟩
  case create =>
    intro s f r e df p d t st
    refine .ofRing rfl t ?_
    have only := took_then rfl (bodyCreate_only (W := [.rings, .cages]) (a0 := freeCtx s) (a1 := took e df p d s) rfl)
    rw [bodyCreate_dormant (took_desc ..) st] at only ⊢
    refine ⟨cageCreated_cage .., fun c ne => cageCreated_cage_other ne, fun k lt => ?_, fun c k ne lt => ?_, endOk_ph .., endOk_status .., only⟩
    · exact (cageCreated_event _ _ _ lt).trans (if_pos rfl)
    · exact (cageCreated_event _ _ _ lt).trans (if_neg ne)
  case createRefused => exact fun s f r e df p d t st => .ofRingEnd rfl t (bodyCreate_refuses (took_desc ..) st)
  case quota => exact fun s f r e df p d t st => .ofRingEnd rfl t (bodyQuota_active (took_desc ..) st)
  case quotaRefused => exact fun s f r e df p d t st => .ofRingEnd rfl t (bodyQuota_refuses (took_desc ..) st)
  case destroy =>
    intro s f r e df p d t st
    refine .ofRingThen rfl t (bodyDestroy_active (took_desc ..) st) ?_
    rw [destroyBegun_cage, destroyBegun_ctx]
    exact ⟨rfl, rfl, rfl, fun c ne => destroyBegun_cage_other ne, took_then rfl destroyBegun_only⟩
  case destroyRefused => exact fun s f r e df p d t st => .ofRingEnd rfl t (bodyDestroy_refuses (took_desc ..) st)
  case destroyDone =>
    intro s c n up st ready cmd
    refine .ofCtl rfl up ?_
    rw [destroyDone_ready st ready cmd, endOk_cage, cageEmptied_cage]
    exact ⟨rfl, rfl, rfl, rfl, endOk_ph .., endOk_status ..⟩
  case pool =>
    intro s f r e df p d t free
    refine .ofRing rfl t ?_
    have only := took_then rfl (bodyPool_only (W := [.rings, .cages]) (a0 := freeCtx s) (a1 := took e df p d s) rfl)
    rw [bodyPool_sets (took_desc ..) (took_cage ..) free] at only ⊢
    exact ⟨poolTaken_cage .., endOk_ph .., endOk_status .., only⟩
  case poolRefused => exact fun s f r e df p d t used => .ofRingEnd rfl t (bodyPool_refuses (took_cage ..) used)
  case abort => exact fun s f r e df p d t => .ofRing rfl t ⟨endOk_ph .., endOk_status ..⟩
  case abortRunning =>
    intro s f r e df p d a t mode hit ph st live
    refine .ofRing rfl t ?_
    rw [bodyAbort_tag (took_desc ..) (took_cage ..) mode hit, abortAdm_running (s := took e df p d s) ph st live]
    refine ⟨abortOrdered_abort (freeCtx s) .., ?_, endOk_result .., took_then rfl ((endOk_only rfl).after abortOrdered_only)⟩
    rw [endOk_after, abortOrdered_after, took_after, List.nil_append]

/-! ### The state right after reset -/

/-- After reset every cage but cage 0 is as an unlisted one. -/
theorem reset_cage_other {c : Nat} (h : 0 < c) : State.reset.cage c = {} := if_neg (Nat.ne_of_lt h)

/-- Settles O56: the tables are empty after reset but for the one of the cages, which lists cage 0. -/
theorem resetState : Obligations.ResetState := by
  unfold Obligations.ResetState
  have cages : ∀ c, 0 < c → (State.reset.cage c).st = .absent := fun c h => congrArg Cage.st (reset_cage_other h)
  exact ⟨rfl, rfl, rfl, rfl, rfl, fun _ => ⟨rfl, rfl⟩, rfl, rfl, rfl, rfl, rfl, rfl, rfl, rfl, cages, fun _ _ => rfl, rfl, fun _ => ⟨rfl, rfl, rfl, rfl, rfl, rfl⟩,
    rfl, fun _ => rfl, rfl, rfl, rfl, rfl, rfl, rfl, rfl, rfl, rfl, rfl, rfl, rfl, rfl, rfl, rfl, rfl, rfl, rfl⟩

end Sys2Proof.Machine
end

section
/-! PROOFS. What each update of one bus leaves of the other parts, the receive path of a frame whatever its message does (R600, R605, R621, R622), and O43. -/

namespace Sys2Proof.Machine

/-! ### Carrying a command of the management plane out -/

/-- While firmware runs, a command of the management plane has the effects that hold of its operation's result. -/
theorem Effects.ofMgmt {c : Sys2Proof.Instr} {act : State → State} {s : State} {P : State → Prop} (run : exec c s = .next (mgmtTurn act s)) (stew : s.stew = true)
    (h : P (act s)) : Effects watch c s P :=
  ⟨act s, run.trans (congrArg _ (if_pos stew)), h⟩

/-! ### Updates of one bus -/

@[simp] theorem State.modBus_same (s : State) (b : Nat) (g : Bus → Bus) : (s.modBus b g).onBus b = g (s.onBus b) := by
  by_cases h : b = 0 <;> simp [State.modBus, State.onBus, h]

theorem State.modBus_id (s : State) (b : Nat) : (s.modBus b fun x => x) = s :=
  congrArg (fun y => { s with bus := y }) (ite_self s.bus)

theorem State.modBus_busOnly {s : State} {b : Nat} {g : Bus → Bus} : BusOnly b s (s.modBus b g) := by
  by_cases h : b = 0 <;> simp [BusOnly, State.modBus, h]

theorem BusOnly.after {b : Nat} {s t u : State} (k : BusOnly b t u) (h : BusOnly b s t) : BusOnly b s u := by
  obtain ⟨both, row, rack⟩ := h
  obtain ⟨both', row', rack'⟩ := k
  refine ⟨?_, fun e => (row' e).trans (row e), fun e => (rack' e).trans (rack e)⟩
  rw [← both, ← both']

theorem BusOnly.ofBus {b : Nat} {s t u : State} (h : BusOnly b s t) (bus : u.bus = t.bus) : BusOnly b s u := by
  unfold BusOnly at h ⊢
  rwa [bus]

/-! ### The receive FIFO (R600, R605) -/

/-- The FIFO and the senders heard in the listen, as the receive path writes them. -/
theorem storeRx_stored (b : Nat) (f : Frame) (s : State) :
    s.modBus b (fun x => storeRx f { x with srcs := if x.join = .listening then nadd x.srcs f.src else x.srcs }) = stored b f s := rfl

theorem stored_onBus (b : Nat) (f : Frame) (s : State) :
    (stored b f s).onBus b = { s.onBus b with
      rx := tput none (s.onBus b).rx (12 + (s.onBus b).next) (some f), next := ((s.onBus b).next + 1) % 20, fill := (s.onBus b).fill + 1,
      srcs := if (s.onBus b).join = .listening then nadd (s.onBus b).srcs f.src else (s.onBus b).srcs } :=
  State.modBus_same ..

@[simp] theorem stored_join (b : Nat) (f : Frame) (s : State) : ((stored b f s).onBus b).join = (s.onBus b).join := by rw [stored_onBus]

/-- What was heard last does not change with the FIFO, so neither does what counts as a repeat. -/
theorem repeats_stored {b : Nat} {f : Frame} {s : State} : Repeats (stored b f s) b f ↔ Repeats s b f := by
  unfold Repeats
  rw [stored_onBus]
  exact Iff.rfl

/-! ### The receive checks (R621) -/

theorem canHear_stew {s : State} {b : Nat} (h : canHear s b = true) : s.stew = true := by
  simp only [canHear, Bool.and_eq_true] at h
  obtain ⟨⟨⟨⟨stew, -⟩, -⟩, -⟩, -⟩ := h
  exact stew

theorem canHear_awake {s : State} {b : Nat} (h : canHear s b = true) : (s.onBus b).asleep = false := by
  simp only [canHear, Bool.and_eq_true, Bool.not_eq_true'] at h
  obtain ⟨-, awake⟩ := h
  exact awake

theorem Hears.canHear {s : State} {b msg : Nat} {f : Frame} (h : Hears s b msg f) : canHear s b = true := by
  obtain ⟨hears, -⟩ := h
  exact hears

theorem Hears.is {s : State} {b msg : Nat} {f : Frame} (h : Hears s b msg f) : f.msg = msg := by
  obtain ⟨-, is, -⟩ := h
  exact is

theorem minLen_class7 {msg : Nat} {body : Bytes} (h : msg / 16 = 7) : minLen msg body = some 0 := by
  have range : 0x70 ≤ msg ∧ msg ≤ 0x7F := by omega
  have ne : ∀ k, k < 0x70 → msg ≠ k := by omega
  simp [minLen, ne, range]

/-- Outside MAKER a class 7 frame of a sound form is dropped without a count. -/
theorem frameCheck_class7 {s : State} {b : Nat} {f : Frame} (msg : f.msg / 16 = 7) (lc : s.mgmt.fuses.lc ≠ .maker) (cls : f.cls = 7)
    (header : 4 ≤ f.data.length) (inner : 4 + f.len ≤ f.data.length) (version : f.version = 1) : frameCheck s b true f = some .silent := by
  simp [frameCheck, msg, lc, cls, Nat.not_lt.mpr header, Nat.not_lt.mpr inner, version, minLen_class7]

theorem countDrop_silent (b : Nat) (s : State) : countDrop b .silent s = s := State.modBus_id s b

/-! ### The receive path, whatever the message does -/

section
variable {b msg : Nat} {f : Frame} {act : Frame → State → State} {s : State}

theorem busIn_unheard (h : canHear s b = false ∨ f.msg ≠ msg ∨ 20 ≤ (s.onBus b).fill) : busIn b msg f act s = s :=
  if_pos (by simpa [or_assoc] using h)

theorem busIn_drops {w : DropWhy} (hears : canHear s b = true) (is : f.msg = msg) (room : (s.onBus b).fill < 20) (check : frameCheck s b true f = some w) :
    busIn b msg f act s = countDrop b w s := by
  simp [busIn, hears, is, Nat.not_le.mpr room, check]

/-- A frame that passes the checks is stored; then its source decides. -/
theorem busIn_heard (h : Hears s b msg f) :
    busIn b msg f act s = if f.src = nodeId s b then ownIdHeard b (stored b f s) else takeFrame b f act (stored b f s) := by
  obtain ⟨hears, is, room, check⟩ := h
  have own : nodeId (stored b f s) b = nodeId s b := rfl
  simp [busIn, hears, is, Nat.not_le.mpr room, check, storeRx_stored, own]

theorem takeFrame_repeats (h : Repeats s b f) : takeFrame b f act s = s.modBus b fun x => { x with dups := x.dups + 1 } := by
  obtain ⟨retried, t, last, soon⟩ := h
  simp [takeFrame, retried, last, soon]

/-- A frame that repeats none leaves its SEQ and the time, and acts unless the bus is in restricted operation (R608). -/
theorem takeFrame_new (h : ¬ Repeats s b f) : takeFrame b f act (stored b f s) =
    if (s.onBus b).join = .joined ∨ f.msg = 0x22 ∨ f.msg = 0x20 ∨ f.msg = 0x31 then act f (received b f s) else received b f s := by
  simp only [takeFrame, stored_join]
  rw [if_neg ?notDup]
  · simp only [Bool.or_eq_true, beq_iff_eq, or_assoc]
    rfl
  case notDup =>
    intro dup
    refine h (repeats_stored.mp ?_)
    rw [Bool.and_eq_true] at dup
    obtain ⟨retried, seen⟩ := dup
    split at seen
    next q t last =>
      rw [Bool.and_eq_true, beq_iff_eq, decide_eq_true_eq] at seen
      obtain ⟨rfl, soon⟩ := seen
      exact ⟨retried, t, last, soon⟩
    next => cases seen

end

/-- This node's own ID heard after the join ends the join, and the record tells of it (R607). -/
theorem ownIdHeard_joined {b : Nat} {s : State} (h : (s.onBus b).join = .joined) :
    ownIdHeard b s = busJoinRec b 4 (s.modBus b fun x => { x with join := .listening, conflict := true, result := 4, srcs := [] }) := by
  simp [ownIdHeard, h]

theorem ownIdHeard_listening {b : Nat} {s : State} (h : (s.onBus b).join = .listening) : ownIdHeard b s = s := by simp [ownIdHeard, h]

theorem busJoinRec_recorded {b result : Nat} {s : State} : Recorded 0x0401 [(20, 1, b), (22, 1, result)] (busJoinRec b result s) :=
  ⟨_, _, mem_a6Push, rfl, rfl, by simp [mgmtRec]⟩

theorem busJoinRec_bus (b result : Nat) (s : State) : (busJoinRec b result s).bus = s.bus := busJoinRec_only (W := [.adit]) rfl .bus rfl

theorem busJoinRec_onBus (b result : Nat) (s : State) : (busJoinRec b result s).onBus b = s.onBus b := by
  simp only [State.onBus, busJoinRec_bus]

/-! ### The commands that bring a frame (Table BUS-6) -/

theorem busWake_awake {b : Nat} {f : Frame} {s : State} (h : ¬ (b = 0 ∧ s.bus.rack.asleep = true)) : busWake b f s = busIn b 0x63 f (fun _ s => s) s := by
  refine if_neg ?_
  simp only [Bool.and_eq_true, decide_eq_true_eq]
  rintro ⟨⟨⟨⟨rack, -⟩, asleep⟩, -⟩, -⟩
  exact h ⟨rack, asleep⟩

/-- A command that brings a frame has the effects that its receive path has whatever the message does, but for a wake-up of the rack bus (R611). -/
theorem frameCmd_effects {x : Nat × (Nat → Frame → Sys2Proof.Instr)} (mem : x ∈ frameCmds) {s : State} {b : Nat} {f : Frame} {P : State → Prop} (stew : s.stew = true)
    (awake : ¬ (x.1 = 0x63 ∧ b = 0 ∧ s.bus.rack.asleep = true)) (h : ∀ act, P (busIn b x.1 f act s)) : Effects watch (x.2 b f) s P := by
  simp only [frameCmds, List.mem_cons, List.not_mem_nil, or_false] at mem
  obtain rfl | rfl | rfl | rfl | rfl | rfl | rfl | rfl | rfl | rfl | rfl | rfl | rfl | rfl | rfl | rfl | rfl | rfl := mem
  iterate 17 exact .ofMgmt rfl stew (h _)
  refine .ofMgmt rfl stew ?_
  rw [busWake_awake fun e => awake ⟨rfl, e⟩]
  exact h _

/-- A controller that receives is awake, so no frame on its bus is a wake-up frame. -/
theorem canHear_noWake {s : State} {b : Nat} {p : Prop} (h : canHear s b = true) : ¬ (p ∧ b = 0 ∧ s.bus.rack.asleep = true) := by
  rintro ⟨-, rfl, asleep⟩
  have awake : s.bus.rack.asleep = false := canHear_awake h
  simp [awake] at asleep

theorem frameCmd_heard {x : Nat × (Nat → Frame → Sys2Proof.Instr)} (mem : x ∈ frameCmds) {s : State} {b : Nat} {f : Frame} {P : State → Prop} (hears : canHear s b = true)
    (h : ∀ act, P (busIn b x.1 f act s)) : Effects watch (x.2 b f) s P :=
  frameCmd_effects mem (canHear_stew hears) (canHear_noWake hears) h

/-! ### Class 7 frames (R621) -/

theorem makerFrame_class7 {b : Nat} {f : Frame} {s : State} (h : f.msg / 16 = 7) : makerFrame b f s = busIn b f.msg f (fun _ s => s) s := if_pos h

theorem makerFrame_other {b : Nat} {f : Frame} {s : State} (h : f.msg / 16 ≠ 7) : makerFrame b f s = s := if_neg h

/-- No class 7 message is a retried one, so none repeats another. -/
theorem not_repeats_class7 {s : State} {b : Nat} {f : Frame} (h : f.msg / 16 = 7) : ¬ Repeats s b f := by
  have once : retriedMsg f.msg = false := by
    have ne : ∀ k, k < 0x70 → f.msg ≠ k := by omega
    simp [retriedMsg, ne]
  simp [Repeats, once]

/-- Outside MAKER a class 7 frame of a sound form leaves everything as it is, whether the controller receives or not. -/
theorem makerFrame_silent {s : State} {b : Nat} {f : Frame} (msg : f.msg / 16 = 7) (check : frameCheck s b true f = some .silent) : makerFrame b f s = s := by
  rw [makerFrame_class7 msg]
  by_cases h : canHear s b = false ∨ f.msg ≠ f.msg ∨ 20 ≤ (s.onBus b).fill
  · exact busIn_unheard h
  · simp only [not_or, Bool.not_eq_false, Nat.not_le] at h
    obtain ⟨hears, -, room⟩ := h
    rw [busIn_drops hears rfl room check, countDrop_silent]

/-! ### The statement -/

/-- Settles O43: the receive path of every frame is the same up to its message's own effect, and in each of these cases that effect plays no part. -/
theorem framesArrive : Obligations.FramesArrive := by
  unfold Obligations.FramesArrive
  refine ⟨?unheard, ?dropped, ?ownListening, ?ownJoined, ?repeated, ?restricted, ?maker, ?makerSilent, ?makerOther⟩
  case unheard => exact fun x mem s b f stew out awake => frameCmd_effects mem stew awake fun _ => busIn_unheard out
  case dropped => exact fun x mem s b f w hears is room check => frameCmd_heard mem hears fun _ => busIn_drops hears is room check
  case ownListening =>
    intro x mem s b f heard own listening
    refine frameCmd_heard mem heard.canHear fun act => ?_
    rw [busIn_heard heard, if_pos own, ownIdHeard_listening ((stored_join b f s).trans listening)]
  case ownJoined =>
    intro x mem s b f heard own joined
    refine frameCmd_heard mem heard.canHear fun act => ?_
    rw [busIn_heard heard, if_pos own, ownIdHeard_joined ((stored_join b f s).trans joined)]
    refine ⟨?_, ?_, busJoinRec_recorded, ?_⟩
    · rw [busJoinRec_onBus, State.modBus_same]
    · exact (State.modBus_busOnly.after State.modBus_busOnly).ofBus (busJoinRec_bus ..)
    · exact (busJoinRec_only rfl).after ((State.modBus_only rfl).after (State.modBus_only rfl))
  case repeated =>
    intro x mem s b f heard other again
    refine frameCmd_heard mem heard.canHear fun act => ?_
    rw [busIn_heard heard, if_neg other, takeFrame_repeats (repeats_stored.mpr again)]
  case restricted =>
    intro x mem s b f heard other new unjoined notSync notHb notAlloc
    refine frameCmd_heard mem heard.canHear fun act => ?_
    rw [busIn_heard heard, if_neg other, takeFrame_new new, if_neg (by simp [unjoined, heard.is, notSync, notHb, notAlloc])]
  case maker =>
    intro s b f heard class7 other
    refine .ofMgmt rfl (canHear_stew heard.canHear) ?_
    rw [makerFrame_class7 class7, busIn_heard heard, if_neg other, takeFrame_new (not_repeats_class7 class7), ite_self]
  case makerSilent =>
    exact fun s b f stew class7 lc cls inner header version => .ofMgmt rfl stew (makerFrame_silent class7 (frameCheck_class7 class7 lc cls header inner version))
  case makerOther => exact fun s b f stew other => .ofMgmt rfl stew (makerFrame_other other)

end Sys2Proof.Machine
end
